-- ==== Sys2Proof/Word.lean ====
section
/-! DEFINITION. The word types of the model and the sparse table type that every numbered set of like things uses.
Widths follow 00 R6 (32-bit words) and R5 (bytes, most significant first). -/

namespace Sys2Proof

/-- A 32-bit word (00 R6). -/
abbrev Word := BitVec 32

/-- One byte (00 R5). -/
abbrev Byte := BitVec 8

/-- A sparse table: keys strictly rising, at most one entry a key. The operations stand in Machine/Tab.lean. -/
abbrev Tab (α : Type) := List (Nat × α)

end Sys2Proof
end

