-- ==== Sys2Proof/Types.lean ====
section
/-! DEFINITION. The record types that commands carry and the state holds: packets, link blocks, table entries,
records of the command bodies and of the device's own work. -/

namespace Sys2Proof

/-- The credential classes (15 Table 15.1). -/
inductive CredClass where
  | operator | operatorSecurity | fabricManager | programmeSecurity | tenant
  deriving DecidableEq, Repr

/-- The command status codes (16 R512, R515, R256). -/
inductive Status where
  | ok | accepted | busy | budget | denied | unsupported | invalid | timeout | aborted | quorumPending
  | notReady | conflict | epoch | resource | internal
  deriving DecidableEq, Repr

/-- Who sends a command of the contract: the mailbox, the class and the certificate fingerprint of the session that
holds it, and the command's SEQ (15 R483, R494, R495). -/
structure Origin where
  mailbox : Nat
  cls : CredClass
  seq : Nat
  cert : Nat
  deriving DecidableEq, Repr

/-- A firmware image as the boot ROM sees it: its length, the SHA-512 of its bytes, whether its ECDSA P-521 signature
verifies against the fused key digest, and its version (17 R539, R546, R547; 16 Table 16.13). -/
structure Image where
  length : Nat
  digest : Nat
  signed : Bool
  major : Nat
  minor : Nat
  build : Nat
  deriving DecidableEq, Repr

/-- What the steps of a start find (17 Tables 17.2, 17.3, 17.4). -/
structure StartOutcome where
  /-- BOOT_MODE[1:0] and MOD_SLOT[5:0] as the straps read (20 R619) -/
  bootMode : Nat
  modSlot : Nat
  /-- an uncorrectable error in protected SRAM -/
  protectedSramError : Bool
  /-- cells of the packet buffer that fail the self-test -/
  badCells : Nat
  /-- Knead groups whose staging SRAM fails, and whether Mill SRAM fails -/
  badKneadGroups : List Nat
  badMill : Bool
  /-- stacks that fail to train, or that do not leave self-refresh -/
  badStacks : List Nat
  /-- bays that fail to lock -/
  badBays : List Nat
  /-- whether the resident image still matches the recorded measurement (warm start only) -/
  residentOk : Bool
  /-- whether every laser bay is fitted -/
  baysFitted : List Nat
  /-- the temperature of each optical die, in 0.01 °C -/
  dieTemps : List Nat
  /-- the monitor readings of a warmed bay position, by (engine, colour) as engine × 8 + colour (02 R60) -/
  powers : List Nat
  deriving DecidableEq, Repr

/-- The readings of the power stages and sensors, averaged over 1 ms (20 R621, R631). -/
structure Telemetry where
  milliVolts : Nat
  milliAmps : Nat
  watts : Nat
  /-- junction of the switch die, the compute die, the hottest optical die, the hottest stack, then coolant inlet and
  outlet, in 0.01 °C -/
  switchTemp : Int
  computeTemp : Int
  opticalTemp : Int
  stackTemp : Int
  inletTemp : Int
  outletTemp : Int
  deriving DecidableEq, Repr

/-- A control-register access (01 R17, R30): a read, or a write of a value under a mask. -/
structure RegAccess where
  addr : Nat
  write : Option (Word × Word)
  deriving DecidableEq, Repr

/-- An event that a control agent carries toward firmware (01 R20). -/
structure AgentEvent where
  block : Nat
  code : Nat
  arg : Nat
  deriving DecidableEq, Repr

/-- A delivered agent event, with the lost count and flag it carries (01 R20). -/
structure AgentDelivery where
  island : Nat
  event : AgentEvent
  lostCount : Nat
  lost : Bool
  deriving DecidableEq, Repr

/-- A line that a ring's heater sweep meets: the colour, and the heater shift in 1/32 GHz (02 R46). -/
structure SeenLine where
  line : Nat
  shift : Nat
  deriving DecidableEq, Repr

/-- A bus of a fibre pair: its engine, fibre, and whether it is the transmit bus (02 R42). -/
structure Bus where
  engine : Nat
  fibre : Nat
  tx : Bool
  deriving DecidableEq, Repr

/-- An event record (15 Table 15.5). -/
structure EventRec where
  code : Nat
  severity : Nat
  island : Nat
  block : Nat
  lost : Bool
  lostCount : Nat
  seq : Nat
  time : Nat
  pid : Nat
  args : List Nat
  deriving DecidableEq, Repr

/-- A crumb trace record before it takes its number (19 Table 19.3). -/
structure CrumbRec where
  code : Nat
  island : Nat
  block : Nat
  pid : Nat
  mandatory : Bool
  time : Nat
  arg0 : Nat
  arg1 : Nat
  deriving DecidableEq, Repr

/-- A filter of COUNTER.FILTER, as its record gives it (19 Table 19.2). -/
structure FilterRec where
  enable : Bool
  filter : Nat
  point : Nat
  slices : Nat
  classes : Nat
  priv : Nat
  srcValue : Nat
  pid : Nat
  srcMask : Nat
  pidMatch : Bool
  destValue : Nat
  destMask : Nat
  kinds : Nat
  group : Nat
  deriving DecidableEq, Repr

/-- A packet: the eight header words, the payload and the E2E_SEQ of its trailer (04 R125, R133). -/
structure Packet where
  w0 : Word
  w1 : Word
  w2 : Word
  w3 : Word
  w4 : Word
  w5 : Word
  w6 : Word
  w7 : Word
  payload : List Byte
  e2e : Word
  deriving DecidableEq, Repr

/-- A link block as it stands on a lane: link header, data slot, CHECK, and whether the PCS decoded a control block
inside it (03 R84, R88). -/
structure Block where
  w0 : Word
  w1 : Word
  w2 : Word
  slot : List Byte
  check : Word
  control : Bool
  deriving DecidableEq, Repr

/-- What the check at a packet's end finds (04 R135, R138). -/
inductive TrailerVerdict where
  | pass | bad | inverted
  deriving DecidableEq, Repr

/-- The 100 ms average of one monitor photodiode, in 0.01 dB above the commissioning power (02 R60). -/
structure FadeLevel where
  engine : Nat
  colour : Nat
  level : Int
  deriving DecidableEq, Repr

/-- A learned fact: partition, source address, ingress port (06 R234, R235). -/
structure LearnMsg where
  pid : Nat
  src : Nat
  port : Nat
  deriving DecidableEq, Repr

/-- The parameters of a shaper (07 Table 7.2). -/
structure ShaperParams where
  zero : Bool
  rate : Nat
  burst : Nat
  deriving DecidableEq, Repr

/-- The parameters of a three-colour marker (07 Table 7.3). -/
structure MarkerParams where
  enable : Bool
  cir : Nat
  cbs : Nat
  pir : Nat
  pbs : Nat
  deriving DecidableEq, Repr

/-- One colour of a drop profile (05 Table 5.5). -/
structure DropCurve where
  min : Nat
  max : Nat
  wexp : Nat
  pmax : Nat
  deriving DecidableEq, Repr

/-- The seven routing parameters of a slice (06 Table 6.2). -/
structure RouteParams where
  rowBase : Nat
  rowShift : Nat
  spineSet : Nat
  detourSet : Nat
  detourHops : Nat
  cuckoo : Bool
  sweep : Nat
  deriving DecidableEq, Repr

/-- An element of TABLE.WRITE: its index word and its entry's words (16 R522). -/
structure TableElem where
  index : Nat
  words : List Word
  deriving DecidableEq, Repr

/-- A value of the Knead and Mill arithmetic: a NaN, an infinity, or a signed magnitude times a power of two, zero with
its sign (09 R308). -/
inductive Val where
  | nan
  | inf (neg : Bool)
  | fin (neg : Bool) (mag : Nat) (exp : Int)
  deriving DecidableEq, Repr

/-- The encoding of a format's elements (09 Table 9.1). -/
inductive ElemKind where
  | raw
  | int (signed : Bool)
  /-- exponent bits, mantissa bits, bias; how the top exponent is used: 0 numbers only, 1 the one NaN of E4M3, 2 as
  IEEE 754 has it -/
  | float (ebits mbits bias top : Nat)
  /-- two's complement in units of 2^-6 -/
  | mxint
  deriving DecidableEq, Repr

/-- A format: element bits, encoding, and whether an E8M0 scale goes with each 32 elements (09 Table 9.1). -/
structure Format where
  bits : Nat
  kind : ElemKind
  mx : Bool
  deriving DecidableEq, Repr

/-- One accumulator element of a Knead slot (09 R312, R325 to R327): the register of the sums in units of its least
significant bit with the tag of Table 9.3; the value and index chosen so far by MAX, MIN, ARGMAX and ARGMIN; the bits of
the bitwise operations. -/
structure Acc where
  reg : Int
  nan : Bool
  pinf : Bool
  ninf : Bool
  allNz : Bool
  allPz : Bool
  best : Option Val
  index : Nat
  bits : Nat
  deriving DecidableEq, Repr

/-- The KIND of a region (11 Table 11.3). -/
inductive RegionKind where
  | general | weights | mirror | ring | spill | crumb | firmware
  deriving DecidableEq, Repr

/-- W0 of a region record as a command gives it (11 Table 11.3; 16 Table 16.7); `kind` 7 is reserved. -/
structure RegionRec where
  kind : Nat
  encrypted : Bool
  epRead : Bool
  epWrite : Bool
  epPost : Bool
  pid : Nat
  deriving DecidableEq, Repr

/-- A failure-domain tag set (12 Table 12.3). -/
structure TagSet where
  tray : Nat
  powerShelf : Nat
  coolingLoop : Nat
  switch : Nat
  deriving DecidableEq, Repr

/-- An error that the reading of lines meets: the line within its region, and whether it is beyond correction
(11 R361, R362). -/
structure LineError where
  line : Nat
  fatal : Bool
  deriving DecidableEq, Repr

/-- A grist program entry (11 Table 11.5); `reserved` says that a reserved field is non-zero. -/
structure GristEntry where
  region : Nat
  offset : Nat
  length : Nat
  mcast : Bool
  dest : Nat
  launchS : Nat
  launchNs : Nat
  launchId : Nat
  srcFmt : Nat
  dlvFmt : Nat
  reserved : Bool
  deriving DecidableEq, Repr

/-- The parameters of GRIST.LOAD (11 Table 11.6; 16 Table 16.8). -/
structure GristParams where
  pid : Nat
  epoch : Nat
  cls : Nat
  entropy : Nat
  region : Nat
  offset : Nat
  count : Nat
  lead : Nat
  sow : Nat
  stale : Nat
  deriving DecidableEq, Repr

/-- The writable channel state of CHANNEL_SET: Table 11.11 W0 to W7 and the staleness timer (11 R387, R393). -/
structure ChannelRec where
  enable : Bool
  ringLog2 : Nat
  pid : Nat
  ringRegion : Nat
  ringOffset : Nat
  cplRegion : Nat
  cplOffset : Nat
  producer : Nat
  count : Nat
  stale : Nat
  deriving DecidableEq, Repr

/-- A DMA descriptor (11 Table 11.12); `reserved` says that a reserved field is non-zero. -/
structure Descriptor where
  own : Bool
  fence : Bool
  c5 : Bool
  op : Nat
  length : Nat
  source : Nat
  target : Nat
  ea : Nat
  user : Nat
  reserved : Bool
  deriving DecidableEq, Repr

/-- A partition policy record with its spine words (12 Table 12.2). -/
structure Policy where
  isolate : Bool
  diversity : Nat
  stackMask : Nat
  kneadMask : Nat
  spines : List Nat
  deriving DecidableEq, Repr

/-- A crust mask (12 Table 12.4). -/
structure CrustMask where
  enable : Bool
  maxLanes : Nat
  pairs : Nat
  setUp : Nat
  tearDown : Nat
  deriving DecidableEq, Repr

/-- The subject of a pin (12 R399; 16 R528). -/
inductive PinSubject where
  | poppySet (set slices : Nat)
  | crustPair (engine i j : Nat)
  | replica (context expert address : Nat)
  deriving DecidableEq, Repr

/-- The parameters of LOAF.OPEN: Table 8.3 W2 to W7, PIN_P, GATHER_RATE and the pinned spines (08 Table 8.3; 16
Table 16.5). -/
structure OpenParams where
  pattern : Nat
  op : Nat
  dtype : Nat
  round : Nat
  ordered : Bool
  all : Bool
  /-- elements per fragment; 0 for the default of Table 8.4 -/
  epf : Nat
  window : Nat
  elements : Nat
  root : Nat
  stale : Nat
  pinP : Nat
  gatherRate : Nat
  pins : List Nat
  deriving DecidableEq, Repr

/-- W0 to W7 of a dispatch context record, without CONTEXT (10 Table 10.5); counts as they are, not less one. -/
structure DispatchRec where
  enable : Bool
  pid : Nat
  epoch : Nat
  weightSet : Nat
  d : Nat
  e : Nat
  k : Nat
  actFmt : Nat
  retFmt : Nat
  gateMode : Nat
  biasSelect : Bool
  skip : Bool
  batch : Nat
  batchWait : Nat
  inflight : Nat
  knead : Nat
  kcount : Nat
  gateScale : Nat
  stale : Nat
  deriving DecidableEq, Repr

/-- What a double-bit error of the Mill's SRAM hits (10 R338, Table 10.7). -/
inductive SramUse where
  | nothing
  | weightSet (set : Nat)
  | token (context index : Nat)
  | program (slot : Nat)
  deriving DecidableEq, Repr

/-- What a grace time of LOAF_GRACE_EXPIRY belongs to: a recipe being closed, or Knead units being disabled (08 R304,
R305). -/
inductive LoafGrace where
  | close (gid recipe : Nat)
  | knead (mailbox seq : Nat)
  deriving DecidableEq, Repr

/-- A staged body of a protected command (16 R515). -/
inductive Staged where
  | tablePartition (pid w0 : Nat) (ports : List Word)
  | keyBind (region : Bool) (slot target direction pid : Nat)
  | debugUnlock (scope duration : Nat)
  | fwUpdate (length digest : Nat)
  | granarySet (region : Nat) (rec0 : RegionRec)
  | winnowPolicy (pid : Nat) (policy : Policy)
  deriving DecidableEq, Repr

/-- A peel: its eight header words and its body (15 Table 15.2). -/
structure Peel where
  w0 : Word
  w1 : Word
  w2 : Word
  w3 : Word
  w4 : Word
  w5 : Word
  w6 : Word
  w7 : Word
  body : List Byte
  deriving DecidableEq, Repr

/-- What a COMMAND peel's body is against its command's table: as defined, in breach of R510, or longer with bytes that
are not 0 (15 R497, R507). -/
inductive BodyForm where
  | good | malformed | extra
  deriving DecidableEq, Repr

/-- Where a peel is sent: the session, the management port, the session's datagram limit (15 R479, R488). -/
structure Via where
  session : Nat
  port : Nat
  datagram : Nat
  deriving DecidableEq, Repr

/-- What the device emits. -/
inductive Out where
  /-- a RESPONSE of a mailbox: SEQ, opcode, status code, CREDITS, BOOT, body; without `via` it is given and not sent -/
  | response (mailbox seq opcode status credits boot : Nat) (body : List Word) (via : Option Via)
  /-- an EVENT peel of an event mailbox with its records -/
  | eventPeel (mailbox boot : Nat) (records : List EventRec) (via : Via)
  /-- a link block on a lane -/
  | block (lane : Nat) (b : Block)
  /-- a Block Read answer on SMBus: command code and bytes -/
  | smbus (code : Nat) (bytes : List Byte)
  /-- an Ethernet frame on a management port -/
  | frame (port : Nat) (bytes : List Byte)
  /-- the answer to a register access -/
  | access (island addr value : Nat) (error : Bool)
  /-- the level of PPS_OUT -/
  | pps (high : Bool)
  deriving DecidableEq, Repr

end Sys2Proof
end

