-- ==== Sys2Proof/Syntax.lean ====
section
/-! DEFINITION. The commands of the device: one constructor per row of the table, with the row's operands. A row
that starts when its own timer has run is the statement that the interval has elapsed; a row of the command contract
carries the caller (`o`) and the command's parameters as chapter 16 lists them. -/

namespace Sys2Proof

/-- The commands, in the order of the table. Each docstring is the row's own summary and its rule. -/
inductive Instr where
  /-- VIN_42 rises through 37.0 V, and the module runs the power-on sequence up to PWR_OK high and PLL lock (R626). -/
  | powerOn
  /-- VIN_42 stays below 35.0 V for 20 µs; PWR_OK falls and the rails go off until turn-on (R625). -/
  | inputUndervoltage
  /-- VIN_42 rises above 50.0 V; PWR_OK falls and the rails go off, latched (R625). -/
  | inputOvervoltage
  /-- Input current exceeds 85 A for 1 ms or 120 A for 10 µs; PWR_OK falls and the rails go off, latched (R625). -/
  | inputOvercurrent
  /-- VIN_42 falls below 5 V and clears a latched shutdown and THERM_TRIP_N (R625). -/
  | latchClear
  /-- VIN_42 is lost without warning, and PWR_OK falls at least 100 µs before any rail leaves regulation (R628). -/
  | supplyLoss
  /-- MOD_RST_N is asserted, and every island is held in reset within 10 µs, with no dump written (R538). -/
  | modRstNAssert
  /-- MOD_RST_N is released with the rails in regulation, and a cold start begins (R538). -/
  | modRstNRelease
  /-- A cold start runs the steps of Table 17.2, from power sequencing to the start event (R539). It acts once a start has been triggered; `o` is what its steps find. -/
  | coldStart (o : StartOutcome)
  /-- A start does not complete by its Latest bound, and the boot ROM requests L5 (R541). -/
  | startTimeout (step : Nat)
  /-- An L4 decision runs the warm start of Table 17.4, keeping the Granary and the resident image (R557). -/
  | warmStart (o : StartOutcome)
  /-- REFCLK shows no edge for 1 µs; islands are reset, lasers turned off and TRAY_CYCLE_REQ_N asserted (R623). -/
  | refclkLoss
  /-- A die or stack comparator reads at or above its trip level for 10 µs; lasers go off, islands are reset and THERM_TRIP_N is asserted (R634). -/
  | thermalTrip
  /-- Every 1 ms, firmware raises or lowers one throttle stage depth from power and temperature (R631). -/
  | throttleEvaluation (t : Telemetry)
  /-- All stages have stood at depth 15 for 100 ms over the cap, so the alarm bit is set and one event is raised (R633). -/
  | capUnattainable
  /-- Every 100 µs, the SMBus telemetry registers are updated with 1 ms averages (R621). -/
  | telemetryUpdate (t : Telemetry)
  /-- The coolant outlet lies more than 25 K above the inlet for 1 s, and the ALARMS bit is set (R637). -/
  | coolantDeltaAlarm
  /-- An SMBus read of START_STATUS returns the register and releases ALERT_N (R566). `code` is the command code of the Block Read: 0x10 is START_STATUS, the others of Table 20.5 are served alike. -/
  | startStatusRead (code : Nat)
  /-- A laser bay latch interlock opens; its lasers go off, fed lanes are removed and cut-over may start (R638). -/
  | bayInterlockOpen (bay : Nat)
  /-- A laser bay is inserted, with its lasers off; in a spare position it self-tests and becomes an idle spare (R639). -/
  | bayInserted (bay : Nat)
  /-- An instruction is loaded into the TAP, and a disturbing instruction places the device in TEST (R609). -/
  | jtagInstructionLoad (code : Nat)
  /-- The TAP passes Test-Logic-Reset, selects IDCODE and, after a disturbing instruction, begins a cold start (R609). -/
  | jtagTestLogicReset
  /-- An island PLL loses lock, and its agent holds the data role in reset and reports an L2 fault (R29). -/
  | pllUnlock (isl : Nat)
  /-- An island PLL relocks within 1 ms, and firmware releases the island (R29). -/
  | pllRelock (isl : Nat)
  /-- A PLL has not relocked 1 ms after loss, and firmware escalates to L3 (R29). -/
  | pllRelockTimeout (isl : Nat)
  /-- A control agent executes a register access that firmware sent it, in arrival order (R17). `sent` are the accesses that firmware sends now. -/
  | controlAgentAccess (isl : Nat) (sent : List RegAccess)
  /-- A control write to a register without a row of its own takes effect at the next unit boundary of its block (R33). `hw` is an update by the island's hardware in the same cycle. -/
  | registerWrite (addr : Nat) (hw : Option Word)
  /-- A write of 1 to AGENT_STATUS.ADDR_ERR clears the flag, unless hardware sets it in the same cycle (R533). -/
  | addrErrClear (isl : Nat) (coincident : Bool)
  /-- A control agent has not answered an access for 10 µs, and firmware marks the island unresponsive and escalates at L3 (R19). -/
  | agentTimeout (isl addr : Nat)
  /-- A control agent delivers a queued event to firmware, with any lost count and flag, which delivery clears (R20). -/
  | agentEventDelivery (isl : Nat)
  /-- An entry written into an asynchronous crossing queue becomes usable in the destination island (R24). -/
  | crossingDelivery (src dst : Nat) (entry : Option Word)
  /-- A full resonance search completes on a bus and writes the permutation record (R46). `temp` is the die temperature in 0.01 °C; `seen` the lines each ring meets, rings in bus order. -/
  | ringSearchFull (engine fibre : Nat) (tx : Bool) (temp : Nat) (seen : List (List SeenLine))
  /-- A partial search completes around the predicted shifts, falling back to a full search of a bus when needed (R47). `found` is the shift at which each ring meets its line, if it does. -/
  | ringSearchPartial (engine fibre : Nat) (tx : Bool) (temp : Nat) (found : List (Option Nat))
  /-- The optical-die temperature leaves the tracking window in service, and firmware runs a full search of the affected buses (R52). -/
  | dieTempOutOfWindow (d temp : Nat)
  /-- Every 1 µs, compute-die power telemetry reaches each optical control island, which updates the heater feed-forward terms (R54). -/
  | powerTelemetry (reading : Nat)
  /-- A ring sample meets the unlock criterion, and its lane is removed from its port within 2 µs (R55). -/
  | ringUnlock (engine fibre row slot : Nat)
  /-- An unlocked ring comes back within the lock criterion, and its lane retrains and any crust circuit relights (R55). -/
  | ringRelock (engine fibre row slot : Nat)
  /-- A lane has not rejoined 500 µs after unlock, so searches run and the lane may be reported failed (R56). -/
  | laneRejoinTimeout (lane : Nat)
  /-- Every 10 µs, a laser monitor sample is compared with commissioning power for the −2.5 and −4.0 dB levels (R60). -/
  | laserMonitorSample (m : FadeLevel)
  /-- A 100 ms average completes and is tested against the −1.0 and −2.0 dB levels, possibly starting cut-over (R60). The averages that complete together. -/
  | laserFadeAverage (levels : List FadeLevel)
  /-- The spare has warmed and locked every line, and a pause notice is sent on every port of the four engines (R61). `powers` are the monitor readings of a returned bay, engine within die × 8 + colour. -/
  | spareLocked (pos : Nat) (powers : List Nat)
  /-- A spare has not locked within 200 ms; it is marked failed and the other spare is tried or the cut-over is abandoned (R63). -/
  | spareLockTimeout (pos : Nat)
  /-- The pause time Tp arrives; transmission stops and the optical switch moves the bay fibres to the spare (R61). -/
  | cutoverPauseTime (bay : Nat)
  /-- The optical switch has settled; rings retrack, transmission resumes and replay begins (R61). -/
  | cutoverSwitchSettled (bay : Nat)
  /-- The suspended lanes have rejoined; the faded bay is powered down and the event is reported (R61). -/
  | cutoverComplete (bay : Nat)
  /-- Low receive power for 100 µs together with high back-reflection reduces the fibre's emission by the gate rings (R66). -/
  | openFibreDetect (engine fibre : Nat)
  /-- A transmit fibre reports high back-reflection alone, and an event is reported (R66). -/
  | backReflectionHigh (engine fibre : Nat)
  /-- Every 1 s on a reduced fibre, a 2 ms λ0 probe is emitted (R67). -/
  | eyeSafetyProbe (engine fibre : Nat)
  /-- A probe ends, and its back-reflection measurement is recorded (R67). -/
  | eyeSafetyProbeEnd (engine fibre : Nat) (low : Bool)
  /-- Receive power of at least −20 dBm for 1 ms and a low probe reflection restore full emission (R68). -/
  | eyeSafetyRestore (engine fibre : Nat)
  /-- At each 100 ms window boundary, Winnow forms one crust change set per engine (R410). -/
  | crustWindowEnd
  /-- A deferred crust or loop-back change is committed once 100 ms have passed since the engine's last change, and set-up notices are sent (R74). -/
  | crustChangeApply (engine : Nat)
  /-- EFFECTIVE arrives; Ixaux removes the lanes, gate rings divert and bypass and add rings leave park, or the reverse on teardown (R76). -/
  | crustEffective (engine : Nat)
  /-- The circuit's rings are locked, the circuit is lit and lit notices are sent (R76). -/
  | crustLit (circuit : Nat)
  /-- At each block time of a lane, the transmitter chooses and sends a DATA, LOCAL or IDLE block in the service order (R239). -/
  | blockSlot (lane : Nat)
  /-- A DATA link block arrives and is checked, reordered by SEQ and delivered as a slot of its packet (R648). -/
  | dataBlockRx (lane : Nat) (block : Block)
  /-- An IDLE link block arrives, and its acknowledgement and credit total are applied (R90). -/
  | idleBlockRx (lane : Nat) (block : Block)
  /-- A LOCAL link block arrives and its link-local or time-transfer packet is passed on or discarded (R107). -/
  | localBlockRx (lane : Nat) (block : Block)
  /-- Block E has not arrived 40 ns after a higher SEQ, and the receiver NAKs E (R104). -/
  | nakGapTimeout (port : Nat)
  /-- ASEQ has not advanced for RTT + 1 µs, and the sender replays from the oldest unacknowledged block (R106). -/
  | ackTimeoutReplay (port : Nat)
  /-- Eight replays from one SEQ without progress put the port into RESUME (R106). -/
  | replayLimit (port : Nat)
  /-- Each credit total is repeated at least once every 10 µs (R96). -/
  | creditRepeatTick (port : Nat)
  /-- Every 1 µs, Ixaux recomputes the credit targets T[c] of each port (R171). -/
  | creditTargetTick (port : Nat)
  /-- Every 200 ns, Ixaux grants credit from uncommitted headroom toward each class's target (R171). -/
  | creditGrantTick (port : Nat)
  /-- Eight successive blocks pass CHECK at one word position, and the lane is delineated (R91). -/
  | delineationLock (lane : Nat)
  /-- Four successive blocks fail CHECK, and delineation is lost and the lane removed (R91). -/
  | delineationLoss (lane : Nat)
  /-- Uncorrectable codewords or the pre-FEC symbol error ratio exceed their 1 ms limits, and the lane is removed (R120). -/
  | laneErrorRate (lane : Nat)
  /-- Received power reaches signal detect with no ring unlocked, and the lane leaves DARK for ACQUIRE (R115). -/
  | signalDetect (lane : Nat)
  /-- A lane loses light, and it is removed and returns to DARK (R121). -/
  | lightLost (lane : Nat)
  /-- CDR, alignment-marker and FEC lock are achieved, and the lane enters DELINEATE (R115). -/
  | acquireLock (lane : Nat)
  /-- ACQUIRE has lasted 60 µs, and the lane returns to DARK, reporting after three expiries (R115). -/
  | acquireTimeout (lane : Nat)
  /-- DELINEATE has lasted 10 µs, and the lane returns to ACQUIRE (R115). -/
  | delineateTimeout (lane : Nat)
  /-- A lane has been clean for the VERIFY interval with LANE matching, and it becomes READY and sends LANE ready (R115). `received` is the LANE field the lane receives. -/
  | verifyPass (lane received : Nat)
  /-- A LANE ready or remove message arrives, and the lane joins, is kept pending, or is removed (R122). -/
  | laneMessageRx (port msgId action lanes : Nat)
  /-- A PAUSE arrives, and removal of the named lanes for loss of signal is suppressed over its window (R113). -/
  | pauseRx (port msgId time len lanes : Nat)
  /-- The PAUSE window ends, and any named lane not READY is removed (R113). -/
  | pauseWindowEnd (port : Nat)
  /-- A RETRAIN message arrives, and the port enters RESUME or, when already there, acknowledges (R117). -/
  | retrainRx (port msgId : Nat)
  /-- An LL_ACK arrives and ends the repeats of its acknowledged message (R109). -/
  | llAckRx (port llType msgId : Nat)
  /-- Every 2 µs, an unacknowledged link-local message is repeated, and after eight sends an event is reported (R109). -/
  | llRetryTick (port : Nat)
  /-- A HELLO arrives, and it measures length, advances the port from HELLO, resumes from RESUME, or takes the port DOWN on an identity change (R116). `arrival` is the time of arrival at the fibre face, in 2 ns units. -/
  | helloRx (port : Nat) (pkt : Packet) (arrival : Nat)
  /-- The HELLO send interval elapses (10 µs, or 100 ms keepalive in UP), and a HELLO is sent on each READY lane (R116). -/
  | helloTick (port : Nat)
  /-- A port has stayed in HELLO for 1 ms, and then every 1 s, and an event is raised (R647). -/
  | helloWait (port : Nat)
  /-- CREDIT has lasted 20 µs without all ten totals, and the port goes DOWN (R116). -/
  | creditTimeout (port : Nat)
  /-- RESUME has lasted 10 ms, and the port goes DOWN (R116). -/
  | resumeTimeout (port : Nat)
  /-- A packet header is present in the slice, and the header checks, lookup, admission and enqueue are applied (R152). `slots` is the number of data slots up to EOP; an encrypted packet is given in clear. -/
  | packetHeaderRx (port : Nat) (pkt : Packet) (slots : Nat)
  /-- A held C0 packet's tokens suffice, and it proceeds from ingress (R251). -/
  | c0PolicerRelease (port : Nat)
  /-- A packet's last slot arrives and its trailer or tag is checked; a failure drops or stomps the packet (R135). `id` names the stored packet; `inst` is the key instance under which an encrypted packet's tag verifies. -/
  | packetTrailerCheck (id : Nat) (verdict : TrailerVerdict) (inst : Nat)
  /-- A learning message from another slice is applied to the receiving slice's destination table (R235). -/
  | learnMsgRx (slice : Nat)
  /-- A contribution waiting for staging SRAM is written there, and its headroom charge is released (R162). -/
  | stagingWrite
  /-- After a width change that grows headroom, enough shared cells are freed and the affected ports leave DOWN (R167). -/
  | headroomFilled (slice : Nat)
  /-- A waiting injected packet finds room in its output pool or the shared pool and is queued (R174). 8 to 15 the Knead ports, 16 the compute port, 17 the control island. -/
  | injectionWrite (source : Nat)
  /-- A lossless queue has held a packet with zero credit for its timer, and the port escalates at L2 and goes DOWN (R193). -/
  | queueStalenessExpiry (port cls vc : Nat)
  /-- A port in UP with queued packets has sent no DATA block for its timer, and it escalates at L2 and goes DOWN (R193). -/
  | portStalenessExpiry (port : Nat)
  /-- A lossless head has waited HUSK_WAIT without adaptive credit, and its queue moves to the husk lane (R227). -/
  | huskWaitExpiry (port cls src : Nat)
  /-- The egress has held adaptive credit for 1 µs without interruption, and arrivals stop moving to the husk lane (R227). -/
  | huskMoveEnd (port cls : Nat)
  /-- A bucket stays locked for 100 µs; its pre-lock contents are restored and the command ends TIMEOUT (R208). -/
  | bucketLockTimeout (slice bucket : Nat)
  /-- A SWEEP interval elapses, and the sweeper ages or removes learned entries (R236). `late` says that the pass did not finish within SWEEP. -/
  | sweepTick (slice : Nat) (late : Bool)
  /-- Every 1 µs, Winnow writes spray weights from joined lanes and queue occupancy (R402). -/
  | winnowWeightTick
  /-- A proof period boundary resets the budget gates and applies accepted share changes (R254). -/
  | proofPeriodBoundary
  /-- A lendable activity has had no pending work for 1,024 ns, and it lends the rest of its allowance (R258). -/
  | lendIdleTimeout (act res : Nat)
  /-- A collective contribution reaches its loaf context and is combined, dropped, or begins a new loaf (R285). -/
  | contributionRx (errs : List LineError)
  /-- A completed slot's result packets are written into the output pool, the slot is freed, and the loaf may end DONE (R289). -/
  | slotResultWritten (gid portion slot : Nat)
  /-- Staged GATHER fragments are sent to ROOT at the gather rate, and acknowledgements follow (R302). -/
  | gatherSend (gid recipe : Nat) (errs : List LineError)
  /-- A RUNNING context has accepted nothing for 100 µs, and it begins writing its slots to spill space (R291). -/
  | spillIdleTimeout (gid portion : Nat)
  /-- The last slot image is written, and the context becomes SPILLED (R291). -/
  | spillComplete (gid portion : Nat)
  /-- A SPILLED context's SRAM is free, and its slots are restored and it becomes RUNNING (R291). -/
  | spillRestore (gid portion : Nat) (errs : List LineError)
  /-- A context's staleness timer expires, and the loaf aborts with ABORT_STALE (R292). -/
  | loafStalenessExpiry (gid portion : Nat)
  /-- An ABORT from another spine ends the matching contexts, or is ignored and counted (R296). -/
  | abortRx
  /-- A staging SRAM word has a single-bit error corrected, or a double-bit error that aborts its loaf with ABORT_PARITY (R331). `context` is GID × 4,096 + PORTION of the context whose word it is. -/
  | stagingSramError (unit : Nat) (context : Option Nat) (double : Bool)
  /-- A RESERVE notice is served in arrival order; the spine reserves staging and answers RESERVED or REFUSED (R281). -/
  | reserveRx
  /-- The home receives RESERVED, records the spine, or releases it when it came too late (R280). -/
  | reservedRx
  /-- The home receives REFUSED, releases reserved spines and repeats placement or ends the open (R280). -/
  | refusedRx
  /-- A spine receives COMMIT, makes its contexts valid and answers COMMITTED, or REFUSED without a reservation (R280). -/
  | commitRx
  /-- The home receives COMMITTED, and the open completes OK once all have arrived (R280). -/
  | committedRx
  /-- A spine receives RELEASE and frees its reservation, or ignores and counts it (R281). -/
  | releaseRx
  /-- A spine receives CLOSE, releases idle contexts and drains running loafs under the grace time (R304). -/
  | closeRx
  /-- The accepting spine receives CLOSED, and the close completes when every spine is closed (R304). -/
  | closedRx
  /-- An ENDPOINT_DOWN notice aborts loafs of groups that include the endpoint and fails its expert tokens (R300). -/
  | endpointDownRx
  /-- A spine has not answered RESERVE 5 ms after it was sent, and it counts as REFUSED (R280). -/
  | reserveAnswerTimeout (opened sid : Nat)
  /-- A reservation has had neither COMMIT nor RELEASE for 10 ms, and it is released and reported (R281). -/
  | reservationExpiry (home opened : Nat)
  /-- Some COMMITTED is missing 5 ms after COMMIT, and RELEASE goes to all and the open completes TIMEOUT (R280). -/
  | commitTimeout (opened : Nat)
  /-- Every 5 ms, CLOSE is repeated to each spine that has not answered CLOSED (R304). -/
  | closeRepeatTick (job : Nat)
  /-- A draining loaf has not completed within the grace time, and it is aborted with ABORT_COMMAND (R304). -/
  | loafGraceExpiry (target : LoafGrace)
  /-- Firmware answers a request addressed to the spine with one UNSUPPORTED_OP reply (R652). -/
  | spineRequestRx
  /-- Firmware discards and counts a collective result, stream packet or FENCE addressed to the spine (R652). -/
  | spinePacketDiscard
  /-- A C2 control message enters the firmware inbound queue, or is discarded when the queue is full (R231). -/
  | firmwareControlRx
  /-- The control reserve pool frees room, and the firmware outbound queue drains in order (R231). -/
  | fwOutboundDrain
  /-- Every 10 ms, a spine sends a SUMMARY to every spine that shares a collective spine set with it (R418). `load` is the busy fraction of the Knead units in 1/256 over the last 10 ms. -/
  | summaryTick (load : Nat)
  /-- A SUMMARY arrives and is held fresh for 30 ms (R418). -/
  | summaryRx
  /-- A candidate receives MIRROR_ASK, creates a MIRROR region and answers MIRROR_GRANT, or answers MIRROR_DENY (R415). -/
  | mirrorAskRx
  /-- The home receives MIRROR_GRANT, and MIRROR_OPEN completes in mode SPINE (R415). -/
  | mirrorGrantRx
  /-- The home receives MIRROR_DENY and asks the next candidate, or falls back to a replica (R415). -/
  | mirrorDenyRx
  /-- A candidate has been silent for 5 ms, which counts as MIRROR_DENY (R415). -/
  | mirrorAskTimeout (ask : Nat)
  /-- A reply to the spine goes to the DMA channel in its TAG, which matches it, or it is discarded and counted (R161). -/
  | replyRx
  /-- An expert dispatch part is checked and buffered; a complete token joins a batch, which may close when full (R352). -/
  | dispatchRx
  /-- BATCH_WAIT has passed since the first complete token, and the batch closes (R349). -/
  | batchWaitExpiry (context : Nat)
  /-- A batch's router MMA completes; scores, top-k and gates are computed for each token (R347). -/
  | routerMmaDone
  /-- Winnow chooses a replica for a slot by outstanding load; the slot waits or is skipped when none is free (R419). -/
  | replicaChoice (context origin ident slot : Nat)
  /-- A routed token claims staging and its dispatches are written into the compute output pool (R350). -/
  | tokenDispatch (context origin ident : Nat)
  /-- An expert return lands in staging; when every slot has returned a part, it is combined and sent to the origin (R353). -/
  | expertReturnRx
  /-- A token's staleness timer expires, and the token fails with a zero-length return (R355). -/
  | tokenStalenessExpiry (context origin ident : Nat)
  /-- At an instruction boundary, the Mill chooses and issues the next router batch or program instruction (R343). -/
  | millInstructionIssue
  /-- An MMA or VEC writes its last result, and the next instruction may proceed (R336). -/
  | mmaDone
  /-- A Mill COPY's last write response arrives, and it increments its counter, releasing a WAIT (R342). -/
  | millCopyDone (slot index : Nat) (errs : List LineError)
  /-- A Mill program's staleness timer expires, and the program ends ABORTED (R355). -/
  | programStalenessExpiry (slot : Nat)
  /-- The Mill disable grace time expires; remaining tokens fail and programs end ABORTED (R357). -/
  | millGraceExpiry (context : Option Nat)
  /-- A Mill SRAM error is corrected, or a double-bit error fails the tokens, batches or program using the word (R356). -/
  | millSramError (hit : SramUse) (double : Bool)
  /-- A Granary access request is checked and carried out as WRITE, READ or POST (R371). -/
  | granaryAccessRx
  /-- Every line of a WRITE is acknowledged, and WRITE_DONE is sent (R372). The write is the index-th of those in progress. -/
  | granaryWriteDone (index : Nat)
  /-- The lines of a READ are read, and READ_DATA is sent (R372). The read is the index-th of those in progress. -/
  | granaryReadDone (index : Nat) (errors : List LineError)
  /-- The copy of a retired extent to a spare completes, and the spare replaces it (R363). -/
  | extentRetireDone (region stack extent : Nat)
  /-- The scrub reads the next line under its budget (R364). The region and line in error that the scrub finds, if any. -/
  | scrubLine (error : Option (Nat × LineError))
  /-- A region's extents are zeroed; a new region becomes READY, and a freed region's extents become reusable (R368). -/
  | regionZeroed (region : Nat)
  /-- A mirror read-back ends, and the commit completes COMPLETE or fails INVALID by CRC (R383). The CRC that a mirror spine other than this one found. -/
  | mirrorReadbackDone (remote : Word)
  /-- A chunk's read begins at launch time minus LEAD, and it is converted and written into its output pool (R377). -/
  | gristChunkStage (slot : Nat) (errors : List LineError)
  /-- A chunk's launch time arrives, and its staged packets are released, late ones counted GRIST_LATE (R379). -/
  | gristLaunch (slot : Nat)
  /-- A program's last chunk is released and transmitted, the program is DONE and the owner is told (R380). -/
  | gristDone (slot : Nat)
  /-- A grist program's staleness timer expires, and it ends ABORTED and escalates at L1 (R380). -/
  | gristStalenessExpiry (slot : Nat)
  /-- A channel takes the descriptor at CONSUMER and starts it, or goes to ERROR (R389). -/
  | dmaDescriptorStart (channel : Nat)
  /-- A descriptor's write response arrives; on the last one, its completion record is written in order (R389). The lines in error that a burst's reading meets. -/
  | dmaWriteResponse (channel index : Nat) (errors : List LineError)
  /-- A PUSH or PULL request has had no reply for 100 µs and is resent, up to eight times (R390). -/
  | dmaRequestTimeout (channel index number : Nat)
  /-- 10 µs after a NO_BUFFER reply, the request is retried (R390). -/
  | dmaNoBufferRetry (channel index number : Nat)
  /-- A descriptor's staleness timer expires; it completes TIMEOUT and the channel goes to ERROR (R393). -/
  | dmaDescriptorStaleness (channel index : Nat)
  /-- The channel stop grace time passes, and in-flight descriptors complete ABORTED (R394). -/
  | dmaGraceExpiry (channel : Nat)
  /-- Every 250 µs, each UP port sends a TIME message (R431). -/
  | timeMsgTick
  /-- A TIME message arrives, and it updates parent election and yields a sample (R433). `arrival` is the device time of arrival, in 2^-16 ns. -/
  | timeMsgRx (port : Nat) (pkt : Packet) (arrival : Nat)
  /-- The parent has sent no TIME message for 1 ms, and the parent is lost (R439). -/
  | parentLostTimeout
  /-- A port's GM_SEQ has not advanced for 2 ms, and it stops being a candidate or parent (R439). -/
  | gmSeqStall (port : Nat)
  /-- ACQUIRING has lasted 10 ms without four samples, and the switch returns to UNSET (R434). -/
  | acquiringTimeout
  /-- A PPS_IN rising edge ties the time or, with discipline enabled, serves as a sample (R443). -/
  | ppsInEdge
  /-- At each whole second of fabric time, PPS_OUT rises for 100 ms (R443). `high` false is the fall of the pulse 100 ms later. -/
  | ppsOutSecond (high : Bool)
  /-- A PTP message on network A is used for a commanded tie, or counted and ignored (R442). `exchange` is the offset of a completed delay request-response exchange, in 2^-16 ns. -/
  | ptpMessageRx (mport domain : Nat) (exchange : Option Int)
  /-- Island time reaches T, and the named counters are latched for COUNTER.SNAPSHOT (R599). the COUNTER.SNAPSHOT whose T is reached -/
  | snapshotLatch (mailbox seq : Nat)
  /-- DMA channel 3 writes a queued crumb record into the crumb region under its share (R603). -/
  | crumbWrite
  /-- A sample record is written into a crumb-region sample slot, or discarded when the share is spent (R605). -/
  | sampleWrite
  /-- A DTLS handshake maps the host certificate to a credential class and opens a session, or fails (R483). `ok`: the handshake itself succeeds; `ownerRoot`: the certificate chains to OWNER_ROOT -/
  | dtlsHandshake (mport cert : Nat) (ok ownerRoot : Bool)
  /-- A session has received no datagram for 120 s and is closed (R484). -/
  | sessionIdleTimeout (session : Nat)
  /-- A COMMAND segment arrives and is assembled; the complete command is checked and queued (R488). `form`: the whole body against the command's table -/
  | commandPeelRx (session mport : Nat) (peel : Peel) (form : BodyForm)
  /-- A command's segments are not all present 1 s after the first, and they are discarded as SEGMENT_LOST (R489). -/
  | segmentTimeout (mailbox session seq : Nat)
  /-- An EVENT_ACK removes acknowledged records from the event queue and binds the mailbox (R503). -/
  | eventAckRx (session mport : Nat) (peel : Peel)
  /-- The dispatcher gives a free control core the next command step by priority, round robin and starvation count (R493). -/
  | commandStepDispatch
  /-- A command's deadline expires; it escalates at L1 and completes TIMEOUT (R498). -/
  | commandDeadlineExpiry (mailbox seq : Nat)
  /-- A step has not ended 1 ms after its command's deadline, and escalation proceeds to L2 (R498). TYPE and INDEX of the engine that holds the step -/
  | stepOverrun (typ idx mailbox seq : Nat)
  /-- Queued event records are sent as EVENT peels to the holding session (R503). -/
  | eventSend (mailbox : Nat)
  /-- Records unacknowledged for 100 ms are sent again from the oldest (R503). -/
  | eventResendTimeout (mailbox : Nat)
  /-- Every 30 s, and within 1 s of a port coming up, an LLDP frame is sent (R480). -/
  | lldpTick (mport : Nat)
  /-- A received LLDP frame is recorded for its port (R480). -/
  | lldpRx (mport : Nat) (frame : List Byte)
  /-- A Neighbor Discovery message is answered on a management port (R478). `solicit`: a solicitation, else an advertisement -/
  | neighborDiscoveryRx (mport : Nat) (solicit : Bool) (srcMac src target : Nat)
  /-- An ICMPv6 echo request is answered (R478). -/
  | icmpEchoRx (mport srcMac src dst ident seqNo : Nat) (data : List Byte)
  /-- A Packet Too Big message lowers the session's datagram size (R478). -/
  | packetTooBigRx (session mtu : Nat)
  /-- A management port comes up or goes down, and sessions use the next available port (R479). -/
  | mgmtPortLinkChange (mport : Nat) (up : Bool)
  /-- A PENDING proposal reaches its expiry and becomes EXPIRED, raising QUORUM_RESULT events (R587). -/
  | proposalExpiry (proposal : Nat)
  /-- A debug unlock's duration ends, and the lock returns (R589). -/
  | debugLockReturn
  /-- A key session reaches 600 s, and its SK is lost (R575). -/
  | sessionKeyExpiry (session : Nat)
  /-- An L1 action has not ended within 1 ms, and L2 of the holding engine begins (R551). -/
  | l1Overrun (typ idx objType ident : Nat)
  /-- L2 writes a dump, holds an engine in reset, clears it and restores it from firmware's records (R552). `trains`: a stack trains again after its controller's reset. -/
  | engineReset (typ idx : Nat) (trains : Bool)
  /-- An L2 has not returned the engine to service within 100 ms, or repeats, and L3 begins (R551). -/
  | l2Overrun (typ idx : Nat)
  /-- L3 holds every island of its scope in reset and restores it (R553). -/
  | scopeReset (isl : Nat) (trains : Bool)
  /-- An L3 has not returned its scope within 1 s, or repeats, and L4 begins (R551). -/
  | l3Overrun (isl : Nat)
  /-- A dump has not completed within 10 ms, and the reset proceeds with DUMP_VALID 0 (R563). -/
  | dumpTimeout
  /-- A control-core watchdog expires; hardware writes the dump and starts a warm start (R555). -/
  | watchdogExpiry (core : Nat)
  /-- An uncorrectable error in protected SRAM triggers L4 (R554). -/
  | protectedSramError
  /-- L5 writes the dump, holds the islands, serves recovery commands and starts the 10 s hold (R560). -/
  | moduleCycleHold
  /-- The 10 s hold ends; TRAY_CYCLE_REQ_N is asserted and the last-reset record is stored (R560). -/
  | cycleHoldExpiry
  /-- Power has not been removed 60 s after TRAY_CYCLE_REQ_N, and the module serves only START_STATUS (R568). -/
  | cycleRequestTimeout
  /-- LINK.SET_SID stores a new SID, and every port goes DOWN and retrains (R452). -/
  | linkSetSid (o : Origin) (sid : Nat)
  /-- LINK.NEIGHBOURS returns the neighbour report (R454). -/
  | linkNeighbours (o : Origin)
  /-- LINK.LLDP returns the latest LLDP frame received on a management port (R480). -/
  | linkLldp (o : Origin) (mport : Nat)
  /-- LINK.FIBRE_LENGTH records fibre lengths per pair (R100). -/
  | linkFibreLength (o : Origin) (lengths : List (Nat × Nat))
  /-- LINK.LOOPBACK places a pair in λ0 loop-back, or releases it (R80). -/
  | linkLoopback (o : Origin) (engine fibre : Nat) (on : Bool)
  /-- LINK.COMMISSION records commissioning power for the named engines (R520). `powers` holds the monitor readings by engine × 8 + colour. -/
  | linkCommission (o : Origin) (engines : Nat) (powers : List Nat)
  /-- LINK.SPARE_MODE enables or disables automatic spare cut-over (R520). -/
  | linkSpareMode (o : Origin) (enable : Bool)
  /-- LINK.BAY_RETURN warms the replaced bay, records power and moves the fibres back (R65). -/
  | linkBayReturn (o : Origin) (bay : Nat)
  /-- LINK.RING_RECORD returns an optical die's permutation record (R49). -/
  | linkRingRecord (o : Origin) (die : Nat)
  /-- PORT.WIDTH sets port widths; overlapped ports go DOWN and retrain (R86). -/
  | portWidth (o : Origin) (widths : List (Nat × Nat))
  /-- PORT.COMPAT makes a port a compatibility port, or clears it (R124). -/
  | portCompat (o : Origin) (port : Nat) (on : Bool)
  /-- PORT.MODE sets cut-through or store-and-forward per class (R176). -/
  | portMode (o : Origin) (port mask : Nat)
  /-- PORT.SAMPLE sets the ingress sampling rate (R189). -/
  | portSample (o : Origin) (port k : Nat)
  /-- PORT.STALE sets the queue and port staleness timers (R193). -/
  | portStale (o : Origin) (port queueUs portUs : Nat)
  /-- PORT.HUSK_WAIT sets HUSK_WAIT for a port and class (R227). -/
  | portHuskWait (o : Origin) (port cls us : Nat)
  /-- PORT.RETRAIN sends RETRAIN to the far end and puts the port into RESUME (R117). -/
  | portRetrain (o : Origin) (port : Nat)
  /-- PORT.LANE removes or restores lanes of a port (R521). -/
  | portLane (o : Origin) (port mask : Nat) (restore : Bool)
  /-- PORT.STATE returns a port's neighbour report entry (R521). -/
  | portState (o : Origin) (port : Nat)
  /-- TABLE.WRITE writes entries under the generation test and bucket locks (R209). `hung` says that a bucket's lock is not released. -/
  | tableWrite (o : Origin) (table slices g : Nat) (elems : List TableElem) (hung : Bool)
  /-- TABLE.READ returns table entries from an index (R522). -/
  | tableRead (o : Origin) (table slice first amount : Nat)
  /-- TABLE.PURGE removes static destination entries of a PID that are behind a generation (R210). -/
  | tablePurge (o : Origin) (slices pid g : Nat)
  /-- TABLE.PARAMS sets the routing parameters of the named slices (R197). -/
  | tableParams (o : Origin) (slices : Nat) (params : RouteParams)
  /-- TABLE.PARTITION defines, changes or deletes a partition entry through quorum (R646). -/
  | tablePartition (o : Origin) (pid : Nat) (w0 : Word) (ports : List Word)
  /-- TABLE.FENCE fences a partition in all slices, ends its work and sends any NOTIFY FENCEs (R464). -/
  | tableFence (o : Origin) (pid : Nat) (notify : List Nat)
  /-- TABLE.ADVANCE sets a fenced partition's epoch ahead (R466). -/
  | tableAdvance (o : Origin) (pid epoch : Nat)
  /-- TABLE.OPEN clears FENCED for a partition (R466). -/
  | tableOpen (o : Origin) (pid : Nat)
  /-- TABLE.ROOT_PRIORITY sets the husk root priority (R222). -/
  | tableRootPriority (o : Origin) (value : Nat)
  /-- CLASS.CREDIT_WEIGHT sets the credit weights of C1 to C4 on a port (R171). -/
  | classCreditWeight (o : Origin) (port : Nat) (weights : List Nat)
  /-- CLASS.SCHED sets scheduler weights, burst credits and overhead (R246). -/
  | classSched (o : Origin) (port : Nat) (weights credits : List Nat) (overhead : Nat)
  /-- CLASS.SHAPER sets a shaper and resets its level (R249). -/
  | classShaper (o : Origin) (port target : Nat) (params : ShaperParams)
  /-- CLASS.MARKER sets a three-colour marker and fills its buckets (R252). -/
  | classMarker (o : Origin) (port cls : Nat) (params : MarkerParams)
  /-- CLASS.PROFILE sets a drop profile (R185). -/
  | classProfile (o : Origin) (profile : Nat) (curves : List DropCurve)
  /-- CLASS.QUEUE sets a queue's profile, admission α and MARK (R172). -/
  | classQueue (o : Origin) (port cls profile a mark : Nat)
  /-- CLASS.BUDGET sets an activity's shares and LENDABLE from the next period (R256). -/
  | classBudget (o : Origin) (activity : Nat) (shares : List Nat) (lendable : Bool)
  /-- CLASS.BUDGET_READ returns the budget table (R523). -/
  | classBudgetRead (o : Origin)
  /-- LOAF.GROUP_DEFINE defines a group and returns its barrier bound (R269). -/
  | loafGroupDefine (o : Origin) (gid pid : Nat) (delivery members : List Nat)
  /-- LOAF.GROUP_DELETE deletes a group with no open recipe (R270). -/
  | loafGroupDelete (o : Origin) (gid : Nat)
  /-- LOAF.LIVE changes a group's LIVE set from an effective loaf sequence (R271). -/
  | loafLive (o : Origin) (gid se : Nat) (live : List Word)
  /-- LOAF.OPEN validates a recipe and starts its placement and reservation (R280). -/
  | loafOpen (o : Origin) (gid : Nat) (params : OpenParams)
  /-- LOAF.CLOSE sends CLOSE to the recipe's spines and drains its loafs (R304). -/
  | loafClose (o : Origin) (gid recipe grace : Nat)
  /-- LOAF.ABORT aborts a loaf with ABORT_COMMAND (R295). -/
  | loafAbortCommand (o : Origin) (gid seq : Nat)
  /-- LOAF.MEMBER_LOST aborts running loafs with ABORT_MEMBER_LOST (R294). -/
  | loafMemberLost (o : Origin) (gid member : Nat)
  /-- LOAF.SIZING sets ENDPOINT_REACH and BARRIER_LIMIT of a partition (R462). -/
  | loafSizing (o : Origin) (pid reach limit : Nat)
  /-- LOAF.KNEAD disables or enables Knead units, draining under the grace time (R305). -/
  | loafKnead (o : Origin) (high low : Nat) (enable : Bool) (grace : Nat)
  /-- LOAF.RECIPES lists the recipes of a group held at this spine (R653). -/
  | loafRecipes (o : Origin) (gid : Nat)
  /-- MILL.ALLOC allocates operand SRAM pages to an owner (R338). -/
  | millAlloc (o : Origin) (pid pages : Nat)
  /-- MILL.LOAD loads a program into a slot (R341). Each instruction is four words and each descriptor eight. -/
  | millLoad (o : Origin) (slot pid stale : Nat) (code agds : List (List Word))
  /-- MILL.RUN starts a loaded program (R342). -/
  | millRun (o : Origin) (slot : Nat)
  /-- MILL.STOP stops a running program (R525). -/
  | millStop (o : Origin) (slot : Nat)
  /-- MILL.CONTEXT configures a dispatch context and reserves its buffers (R344). -/
  | millContext (o : Origin) (context : Nat) (record : DispatchRec)
  /-- MILL.REPLICAS sets the replica list of an expert (R345). Each replica is (endpoint address, cap). -/
  | millReplicas (o : Origin) (context expert : Nat) (replicas : List (Nat × Nat))
  /-- MILL.WEIGHTS loads a router weight set from the Granary (R346). `errs` are the line errors that the read of the region meets. -/
  | millWeights (o : Origin) (set pid format d e region offset : Nat) (errs : List LineError)
  /-- MILL.RESTORE returns an excluded replica to choice (R525). -/
  | millRestore (o : Origin) (context address : Nat)
  /-- MILL.ENABLE disables the Mill under a grace time, or enables it (R357). -/
  | millEnable (o : Origin) (enable : Bool) (grace : Nat)
  /-- GRANARY.CREATE creates a region and starts its zeroing (R368). -/
  | granaryCreate (o : Origin) (rec0 : RegionRec) (stackSet extents : Nat)
  /-- GRANARY.FREE frees a region, which becomes FREEING until zeroed (R368). -/
  | granaryFree (o : Origin) (region : Nat)
  /-- GRANARY.SET changes a region's rights, through quorum for a MIRROR region (R367). -/
  | granarySet (o : Origin) (region : Nat) (rec0 : RegionRec)
  /-- GRANARY.QUERY returns a region record (R367). -/
  | granaryQuery (o : Origin) (region : Nat)
  /-- GRANARY.MIRROR_OPEN chooses and asks mirror candidates, or records a replica (R381). -/
  | granaryMirrorOpen (o : Origin) (shard owner : Nat) (tags : TagSet) (generation size : Nat) (replicas : List Nat)
  /-- GRANARY.MIRROR_COMMIT starts the mirror spine's read-back CRC check (R383). -/
  | granaryMirrorCommit (o : Origin) (shard generation : Nat) (crc : Word)
  /-- GRANARY.MIRROR_QUERY returns the mirror record (R382). -/
  | granaryMirrorQuery (o : Origin) (shard : Nat)
  /-- GRANARY.MIRROR_CLOSE frees every region of the shard and removes the record (R384). -/
  | granaryMirrorClose (o : Origin) (shard : Nat)
  /-- GRANARY.CHANNEL_BIND binds a foreground DMA channel to a partition (R386). -/
  | granaryChannelBind (o : Origin) (channel pid rate : Nat)
  /-- GRANARY.CHANNEL_SET writes a channel's state and staleness timer (R387). -/
  | granaryChannelSet (o : Origin) (channel : Nat) (setting : ChannelRec)
  /-- GRANARY.CHANNEL_START starts a channel, including one in ERROR (R393). -/
  | granaryChannelStart (o : Origin) (channel : Nat)
  /-- GRANARY.CHANNEL_STOP stops a channel under a grace time (R394). -/
  | granaryChannelStop (o : Origin) (channel grace : Nat)
  /-- GRANARY.ENABLE disables or enables the Granary (R394). -/
  | granaryEnable (o : Origin) (enable : Bool) (grace : Nat)
  /-- GRIST.LOAD loads and checks a grist program and locks its source regions (R376). -/
  | gristLoad (o : Origin) (slot : Nat) (params : GristParams)
  /-- GRIST.START starts a loaded grist program (R377). -/
  | gristStart (o : Origin) (slot : Nat)
  /-- GRIST.STOP stops a program; staged, unreleased chunks are discarded (R380). -/
  | gristStop (o : Origin) (slot : Nat)
  /-- GRIST.UNLOAD unloads a program that is not running and unlocks its regions (R376). -/
  | gristUnload (o : Origin) (slot : Nat)
  /-- GRIST.STATUS returns a grist slot's state (R527). -/
  | gristStatus (o : Origin) (slot : Nat)
  /-- WINNOW.POLICY sets a partition policy record, through quorum when DIVERSITY changes (R396). -/
  | winnowPolicy (o : Origin) (pid : Nat) (setting : Policy)
  /-- WINNOW.TAGS installs failure-domain tag sets (R397). Each entry is (KIND, identifier, tag set). -/
  | winnowTags (o : Origin) (entries : List (Nat × Nat × TagSet))
  /-- WINNOW.PIN pins a poppy set, crust pair or replica (R399). -/
  | winnowPin (o : Origin) (subject : PinSubject)
  /-- WINNOW.UNPIN removes a pin (R399). -/
  | winnowUnpin (o : Origin) (subject : PinSubject)
  /-- WINNOW.CRUST_MASK sets an engine's crust mask (R408). -/
  | winnowCrustMask (o : Origin) (engine : Nat) (mask : CrustMask)
  /-- WINNOW.LOG returns decision records from a given SEQ (R421). -/
  | winnowLog (o : Origin) (first amount : Nat)
  /-- TIME.TIE makes an UNSET spine master with time from PTP, PPS or a value (R441). -/
  | timeTie (o : Origin) (source domain t96 : Nat)
  /-- TIME.ACCEPT_STEP takes four samples and steps to a refused parent within LIMIT (R437). -/
  | timeAcceptStep (o : Origin) (limit : Nat)
  /-- TIME.THRESH sets THRESH (R436). -/
  | timeThresh (o : Origin) (ns : Nat)
  /-- TIME.ASYM sets a port's delay asymmetry (R433). -/
  | timeAsym (o : Origin) (port : Nat) (asym : Int)
  /-- TIME.PRIORITY sets TIME_PRIORITY (R439). -/
  | timePriority (o : Origin) (value : Nat)
  /-- TIME.PPS enables or disables PPS_IN discipline (R443). -/
  | timePps (o : Origin) (discipline : Bool)
  /-- TIME.LAUNCH_READ returns and removes launch timestamp entries and clears OVERFLOW (R446). -/
  | timeLaunchRead (o : Origin) (most : Nat)
  /-- TIME.STATUS returns the time state, parent, last offset and current time (R529). -/
  | timeStatus (o : Origin)
  /-- COUNTER.READ reads the named counters one after another (R593). -/
  | counterRead (o : Origin) (ids : List Nat)
  /-- COUNTER.SNAPSHOT chooses an instant T at which the named counters are latched (R599). -/
  | counterSnapshot (o : Origin) (ids : List Nat)
  /-- COUNTER.FILTER sets a filter and clears its counters (R598). -/
  | counterFilter (o : Origin) (rec0 : FilterRec)
  /-- CRUMB.READ returns bytes of the crumb region, or of the recovery log in recovery mode (R545). -/
  | crumbRead (o : Origin) (offset length : Nat)
  /-- CRUMB.DUMP writes a dump with LEVEL 0 and returns its place (R561). -/
  | crumbDump (o : Origin)
  /-- CRUMB.TRACE sets the optional trace categories and PID filter (R602). -/
  | crumbTrace (o : Origin) (categories : Nat) (pidMatch : Bool) (pid : Nat)
  /-- RESET.CONTEXT acts at L1 on a loaf, grist slot, DMA channel or command (R554). -/
  | resetContext (o : Origin) (objType a b : Nat)
  /-- RESET.ENGINE resets one engine at L2 (R552). `trains` says that a stack trains again afterwards. -/
  | resetEngine (o : Origin) (code : Word) (trains : Bool)
  /-- RESET.SLICE resets a slice with its clusters at L3 (R554). -/
  | resetSlice (o : Origin) (slice : Nat) (trains : Bool)
  /-- RESET.CHIP begins a warm start, or a cold start in recovery mode (R548). -/
  | resetChip (o : Origin)
  /-- RESET.CYCLE requests L5 (R548). -/
  | resetCycle (o : Origin)
  /-- QUORUM.LIST returns proposal records (R584). -/
  | quorumList (o : Origin)
  /-- QUORUM.APPROVE records one side's signed decision, and the second approval executes the staged body (R585). -/
  | quorumApprove (o : Origin) (proposal : Nat) (approve : Bool) (signature : Nat)
  /-- QUORUM.WITHDRAW sets a proposal WITHDRAWN (R587). -/
  | quorumWithdraw (o : Origin) (proposal : Nat)
  /-- KEY.SESSION runs ECDH and derives a signed session key (R575). -/
  | keySession (o : Origin) (pub : List Byte) (nonce : Nat)
  /-- KEY.LOAD unwraps a key into a bound slot (R577). -/
  | keyLoad (o : Origin) (session : Nat) (region : Bool) (slot counter : Nat) (wrapped : List Byte)
  /-- KEY.BIND binds or unbinds a link or region key slot, through quorum (R576). -/
  | keyBind (o : Origin) (region : Bool) (slot target direction pid : Nat)
  /-- KEY.ZEROIZE clears a slot's key and keeps its binding (R578). -/
  | keyZeroize (o : Origin) (region : Bool) (slot : Nat)
  /-- ATTEST.REPORT returns a signed attestation report over the nonce (R573). -/
  | attestReport (o : Origin) (nonce : Nat)
  /-- ATTEST.CHAIN returns the certificate chain (R570). -/
  | attestChain (o : Origin)
  /-- POWER.CAP sets the power cap from the next evaluation (R631). -/
  | powerCap (o : Origin) (watts : Nat)
  /-- POWER.STATUS returns input, power, temperatures and throttle step (R530). -/
  | powerStatus (o : Origin)
  /-- FW.CAPS returns the contract version and supported opcodes (R508). -/
  | fwCaps (o : Origin)
  /-- FW.INFO returns hardware, image and unit counts (R532). -/
  | fwInfo (o : Origin)
  /-- FW.UPDATE verifies a staged image and writes it to flash (R547). -/
  | fwUpdate (o : Origin) (length digest : Nat)
  /-- FW.STAGE writes bytes into the image staging area (R546). -/
  | fwStage (o : Origin) (offset : Nat) (bytes : List Byte)
  /-- FW.CREDIT sets a mailbox's credit (R490). -/
  | fwCredit (o : Origin) (mailbox credit : Nat)
  /-- FW.BIND_MAILBOX binds or unbinds a tenant mailbox (R485). -/
  | fwBindMailbox (o : Origin) (mailbox pid cert : Nat)
  /-- FW.CREDENTIAL adds or removes a credential table entry (R531). -/
  | fwCredential (o : Origin) (remove : Bool) (cls : CredClass) (cert : Nat)
  /-- FW.NETWORK sets a network's address, prefix and MTU for later sessions (R531). -/
  | fwNetwork (o : Origin) (network address pfxLen mtu : Nat)
  /-- FW.REG_READ reads control addresses through the debug windows (R534). -/
  | fwRegRead (o : Origin) (addr amount : Nat)
  /-- FW.REG_WRITE writes a control address through the debug windows (R534). -/
  | fwRegWrite (o : Origin) (addr : Nat) (value mask : Word)
  /-- FW.DEBUG_UNLOCK proposes unlocking a debug scope, through quorum (R588). -/
  | fwDebugUnlock (o : Origin) (scope duration : Nat)
  /-- No parent has yielded four valid samples within 10 ms of TIME.ACCEPT_STEP, so the command returns NOT_READY and changes nothing (R437). -/
  | acceptStepSampleTimeout
  /-- TIME.TIE's source window ends without a tie: fewer than 16 PTP exchanges within 16 s returns NOT_READY, and no PPS_IN edge within 2 s returns TIMEOUT (R441). -/
  | tieSourceTimeout
  /-- The 10 ms holdoff after a NEIGHBOUR_CHANGE event ends with GENERATION changed meanwhile, and the deferred event carrying the new GENERATION is raised at MB31 (R455). -/
  | neighbourChangeHoldoffEnd
  /-- The 1 ms holdoff after a SAMPLE_READY event ends with new samples written meanwhile, and SAMPLE_READY is raised at MB15 (R605). -/
  | sampleReadyHoldoffEnd
  /-- A laser bay inserted in a spare position finishes its self-test of at most 1 s and becomes an idle spare available for cut-over (R639). -/
  | baySelfTestDone (bay : Nat)
  /-- A flash or configuration-store write ends, FLASH_BUSY clears in START_STATUS and ALERT_N is driven low (R549). -/
  | flashWriteComplete
  deriving DecidableEq, Repr

end Sys2Proof
end

