-- ==== Sys2Proof/Config.lean ====
section
/-! DEFINITION. What an implementation fixes and what the spec leaves open: constants without a body, so that no proof
can see their values. -/

namespace Sys2Proof.Config

/-- A fresh 64-bit value of the entropy source (18 R569), by the number of the draw. -/
opaque entropy : Nat → Nat

/-- Whether a control address of debug window D3 names a register of the firmware's own use (16 Table 16.15). -/
opaque regAssigned : Nat → Bool

/-- Whether a control address lies in a block of key material, staging SRAM or Mill SRAM (18 R583). -/
opaque secretBlock : Nat → Bool

/-- The depth of an asynchronous crossing queue, by source × 256 + destination (01 R26). -/
opaque crossingDepth : Nat → Nat

/-- The two-pole thermal model of the heater feed-forward: die, poles, power reading (02 R54). -/
opaque thermalModel : Nat → Int × Int → Nat → Int × Int

/-- AES-256-GCM (04 R136): the ciphertext of a payload under key and nonce, and the tag over header and ciphertext. The
algorithm is a public standard; its values are not written out here. -/
opaque gcmCipher : Nat → Nat → List Byte → List Byte
opaque gcmTag : Nat → Nat → List Byte → List Byte → List Byte

/-- Core-ns that a firmware dispatch of an activity takes (07 R255 gives the unit, no rule the amount). -/
opaque fwCost : Nat → Nat

/-- What a 64-byte line of an ENCRYPTED region reads as when its key is not the one it was stored under (11 R370): the
key of storage, the key of reading, the line, and the stored line as its own key shows it. -/
opaque xtsForeign : Option Nat → Option Nat → Nat → List Byte → List Byte

/-- exp in binary32, within 1 ulp, by the fixed algorithm that 10 R348 leaves to the implementation: bits to bits. -/
opaque expF32 : Nat → Nat

/-- The code of the event that a barrier bound above BARRIER_LIMIT raises (14 R462); the event table of chapter 19 lists
none. -/
opaque boundEventCode : Nat

/-- The code of the event that SIGNAL posts (10 Table 10.4); the event table of chapter 19 lists none. -/
opaque signalEventCode : Nat

/-- The serial number of the module, 8 bytes (20 Table 20.5). -/
opaque serial : Nat

/-- The factory MAC address of a management port (15 R478). -/
opaque factoryMac : Nat → Nat

/-- The system name that LLDP carries (15 R480). -/
opaque systemName : List Byte

/-- TIME of the ESCALATION record at offset 0 of the recovery log, by the dump SEQ of the last-reset record, which holds no
time (17 R545, R560). -/
opaque lastResetTime : Nat → Nat

/-- Whether the ECDSA P-521 signature of a firmware image verifies against the fused key digest (17 R547), and the version
that the image names (16 Table 16.13), by the SHA-512 of its bytes. -/
opaque imageSigned : Nat → Bool
opaque imageMajor : Nat → Nat
opaque imageMinor : Nat → Nat
opaque imageBuild : Nat → Nat

/-- SHA-512 of the recovery loader in the boot ROM (18 R574), and the version that it reports. -/
opaque loaderDigest : Nat
opaque loaderMajor : Nat
opaque loaderMinor : Nat
opaque loaderBuild : Nat

/-- DEVICE_ID (18 R569), OWNER_ROOT (18 R571), and the three certificates of the chain (18 R570). -/
opaque deviceId : Nat
opaque ownerRoot : Nat
opaque certificate : Nat → List Byte

/-- ECDSA P-521 with SHA-512 (18 R569, R573, R585): the signature r ‖ s that the identity key makes over a message, and
whether a signature over a message verifies under the key of a certificate. -/
opaque ecdsaSign : List Byte → Nat
opaque ecdsaVerify : Nat → List Byte → Nat → Bool

/-- The P-521 operations of 18 R575: the public key of an ephemeral private key, whether 133 bytes are a public key, and the
shared secret of a private and a public key. -/
opaque ecPublic : Nat → Nat
opaque ecValid : List Byte → Bool
opaque ecdh : Nat → List Byte → Nat

end Sys2Proof.Config
end

