-- ==== Sys2Proof/Machine/Catalogue.lean ====
section
/-! DEFINITION. The command catalogue of chapter 16: opcode, issuers, default deadline, atomicity (Tables 16.1 to
16.12) and whether recovery mode serves the command (R519). -/

namespace Sys2Proof.Machine

/-- One row of the catalogue: opcode, issuers as R508 codes them, default deadline in µs, atomic, served in recovery. -/
structure CmdInfo where
  opcode : Nat
  issuers : Nat
  deadline : Nat
  atomic : Bool
  inRecovery : Bool
  deriving DecidableEq, Repr

/-- The commands of group 0x01. -/
def catalogueLink : List CmdInfo :=
  [⟨0x0101, 12, 10000, true, false⟩, ⟨0x0102, 15, 10000, false, false⟩, ⟨0x0103, 15, 10000, false, false⟩,
    ⟨0x0104, 12, 10000, true, false⟩, ⟨0x0105, 15, 200000, false, false⟩, ⟨0x0106, 3, 100000, true, false⟩,
    ⟨0x0107, 3, 1000, true, false⟩, ⟨0x0108, 3, 1000000, false, false⟩, ⟨0x0109, 3, 10000, false, false⟩]

/-- The commands of group 0x02. -/
def cataloguePort : List CmdInfo :=
  [⟨0x0201, 12, 10000, true, false⟩, ⟨0x0202, 12, 10000, true, false⟩, ⟨0x0203, 12, 1000, true, false⟩,
    ⟨0x0204, 3, 1000, true, false⟩, ⟨0x0205, 12, 1000, true, false⟩, ⟨0x0206, 12, 1000, true, false⟩,
    ⟨0x0207, 15, 10000, false, false⟩, ⟨0x0208, 15, 10000, false, false⟩, ⟨0x0209, 15, 1000, false, false⟩]

/-- The commands of group 0x03. -/
def catalogueTable : List CmdInfo :=
  [⟨0x0301, 12, 100000, true, false⟩, ⟨0x0302, 15, 100000, false, false⟩, ⟨0x0303, 12, 1000000, false, false⟩,
    ⟨0x0304, 12, 10000, true, false⟩, ⟨0x0305, 12, 10000, true, false⟩, ⟨0x0306, 12, 2000, false, false⟩,
    ⟨0x0307, 12, 2000, true, false⟩, ⟨0x0308, 12, 2000, true, false⟩, ⟨0x0309, 12, 1000, true, false⟩]

/-- The commands of group 0x04. -/
def catalogueClass : List CmdInfo :=
  [⟨0x0401, 12, 1000, true, false⟩, ⟨0x0402, 12, 1000, true, false⟩, ⟨0x0403, 12, 1000, true, false⟩,
    ⟨0x0404, 12, 1000, true, false⟩, ⟨0x0405, 12, 1000, true, false⟩, ⟨0x0406, 12, 1000, true, false⟩,
    ⟨0x0407, 3, 1000, true, false⟩, ⟨0x0408, 15, 1000, false, false⟩]

/-- The commands of group 0x05. -/
def catalogueLoaf : List CmdInfo :=
  [⟨0x0501, 12, 100000, true, false⟩, ⟨0x0502, 12, 10000, true, false⟩, ⟨0x0503, 12, 10000, true, false⟩,
    ⟨0x0504, 28, 50000, true, false⟩, ⟨0x0505, 28, 50000, false, false⟩, ⟨0x0506, 28, 1000, false, false⟩,
    ⟨0x0507, 12, 1000, false, false⟩, ⟨0x0508, 12, 10000, true, false⟩, ⟨0x0509, 3, 10000, false, false⟩,
    ⟨0x050A, 28, 10000, false, false⟩]

/-- The commands of group 0x06. -/
def catalogueMill : List CmdInfo :=
  [⟨0x0601, 28, 10000, true, false⟩, ⟨0x0602, 28, 100000, true, false⟩, ⟨0x0603, 28, 1000, false, false⟩,
    ⟨0x0604, 28, 10000, false, false⟩, ⟨0x0605, 28, 10000, true, false⟩, ⟨0x0606, 28, 10000, true, false⟩,
    ⟨0x0607, 28, 1000000, true, false⟩, ⟨0x0608, 28, 1000, true, false⟩, ⟨0x0609, 3, 10000, false, false⟩]

/-- The commands of group 0x07. -/
def catalogueGranary : List CmdInfo :=
  [⟨0x0701, 28, 10000, true, false⟩, ⟨0x0702, 28, 10000, true, false⟩, ⟨0x0703, 28, 10000, true, false⟩,
    ⟨0x0704, 31, 1000, false, false⟩, ⟨0x0705, 16, 20000, true, false⟩, ⟨0x0706, 16, 10000000, true, false⟩,
    ⟨0x0707, 28, 1000, false, false⟩, ⟨0x0708, 28, 100000, false, false⟩, ⟨0x0709, 12, 10000, true, false⟩,
    ⟨0x070A, 28, 1000, true, false⟩, ⟨0x070B, 28, 1000, false, false⟩, ⟨0x070C, 28, 10000, false, false⟩,
    ⟨0x070D, 3, 10000, false, false⟩]

/-- The commands of group 0x08. -/
def catalogueGrist : List CmdInfo :=
  [⟨0x0801, 28, 100000, true, false⟩, ⟨0x0802, 28, 1000, false, false⟩, ⟨0x0803, 28, 10000, false, false⟩,
    ⟨0x0804, 28, 1000, true, false⟩, ⟨0x0805, 28, 1000, false, false⟩]

/-- The commands of group 0x09. -/
def catalogueWinnow : List CmdInfo :=
  [⟨0x0901, 12, 10000, true, false⟩, ⟨0x0902, 12, 10000, true, false⟩, ⟨0x0903, 28, 10000, true, false⟩,
    ⟨0x0904, 28, 10000, true, false⟩, ⟨0x0905, 12, 10000, true, false⟩, ⟨0x0906, 31, 10000, false, false⟩]

/-- The commands of group 0x0A. -/
def catalogueTime : List CmdInfo :=
  [⟨0x0A01, 3, 20000000, true, false⟩, ⟨0x0A02, 3, 20000, true, false⟩, ⟨0x0A03, 3, 1000, true, false⟩,
    ⟨0x0A04, 12, 1000, true, false⟩, ⟨0x0A05, 12, 1000, true, false⟩, ⟨0x0A06, 3, 1000, true, false⟩,
    ⟨0x0A07, 28, 1000, false, false⟩, ⟨0x0A08, 31, 1000, false, false⟩]

/-- The commands of group 0x0B. -/
def catalogueCounter : List CmdInfo :=
  [⟨0x0B01, 31, 10000, false, false⟩, ⟨0x0B02, 31, 10000, false, false⟩, ⟨0x0B03, 15, 1000, true, false⟩]

/-- The commands of group 0x0C. -/
def catalogueCrumb : List CmdInfo :=
  [⟨0x0C01, 15, 100000, false, true⟩, ⟨0x0C02, 3, 1000000, false, false⟩, ⟨0x0C03, 15, 1000, true, false⟩]

/-- The commands of group 0x0D. -/
def catalogueReset : List CmdInfo :=
  [⟨0x0D01, 31, 10000, false, false⟩, ⟨0x0D02, 3, 100000, false, false⟩, ⟨0x0D03, 3, 1000000, false, false⟩,
    ⟨0x0D04, 3, 0, false, true⟩, ⟨0x0D05, 2, 0, false, true⟩]

/-- The commands of group 0x0E. -/
def catalogueQuorum : List CmdInfo :=
  [⟨0x0E01, 31, 10000, false, false⟩, ⟨0x0E02, 10, 10000, true, false⟩, ⟨0x0E03, 31, 10000, true, false⟩]

/-- The commands of group 0x0F. -/
def catalogueKey : List CmdInfo :=
  [⟨0x0F01, 16, 10000, false, false⟩, ⟨0x0F02, 16, 10000, true, false⟩, ⟨0x0F03, 12, 10000, true, false⟩,
    ⟨0x0F04, 19, 10000, true, false⟩]

/-- The commands of group 0x10. -/
def catalogueAttest : List CmdInfo :=
  [⟨0x1001, 31, 100000, false, true⟩, ⟨0x1002, 31, 10000, false, true⟩]

/-- The commands of group 0x11. -/
def cataloguePower : List CmdInfo :=
  [⟨0x1101, 3, 10000, true, false⟩, ⟨0x1102, 15, 1000, false, false⟩]

/-- The commands of group 0x12. -/
def catalogueFw : List CmdInfo :=
  [⟨0x1201, 31, 10000, false, true⟩, ⟨0x1202, 31, 1000, false, true⟩, ⟨0x1203, 3, 60000000, true, true⟩,
    ⟨0x1204, 3, 1000000, false, true⟩, ⟨0x1205, 3, 1000, true, false⟩, ⟨0x1206, 12, 10000, true, false⟩,
    ⟨0x1207, 10, 10000, true, false⟩, ⟨0x1208, 3, 10000, true, false⟩, ⟨0x1209, 15, 1000, false, false⟩,
    ⟨0x120A, 3, 1000, false, false⟩, ⟨0x120B, 3, 10000, true, false⟩]

/-- Every command of contract version 1.0, in ascending opcode. -/
def catalogue : List CmdInfo :=
  catalogueLink ++ cataloguePort ++ catalogueTable ++ catalogueClass ++ catalogueLoaf ++ catalogueMill ++ catalogueGranary ++ catalogueGrist ++ catalogueWinnow ++
    catalogueTime ++ catalogueCounter ++ catalogueCrumb ++ catalogueReset ++ catalogueQuorum ++ catalogueKey ++ catalogueAttest ++ cataloguePower ++ catalogueFw

/-- The row of an opcode. -/
def cmdInfo (op : Nat) : Option CmdInfo := catalogue.find? (fun c => c.opcode == op)

end Sys2Proof.Machine
end

