-- ==== Sys2Proof/Machine/Bits.lean ====
section
/-! DEFINITION. Bit fields, byte order and the checks and digests that the spec names: CRC-32C (03 R88), SHA-512,
HMAC and HKDF (18). -/

namespace Sys2Proof.Machine

/-- Field [hi:lo] of a word, as a number (00 R6). -/
def fld (w : Word) (hi lo : Nat) : Nat := (w.toNat / 2 ^ lo) % 2 ^ (hi + 1 - lo)

/-- A value placed in field [hi:lo]; bits beyond the field are dropped. -/
def at_ (hi lo v : Nat) : Nat := (v % 2 ^ (hi + 1 - lo)) * 2 ^ lo

/-- A word from the sum of its placed fields. -/
def wordOf (fields : List Nat) : Word := BitVec.ofNat 32 fields.sum

/-- A word holding a number. -/
def w32 (n : Nat) : Word := BitVec.ofNat 32 n

/-- A signed number as a word in two's complement (16 R510). -/
def wInt (n : Int) : Word := BitVec.ofInt 32 n

/-- One bit of a Bool. -/
def bit (b : Bool) : Nat := if b then 1 else 0

/-- Bit n of a number. -/
def testBitN (m n : Nat) : Bool := m / 2 ^ n % 2 == 1

/-- A 64-bit value as two words, the more significant first (16 R510). -/
def words64 (n : Nat) : List Word := [w32 (n / 2 ^ 32), w32 n]

/-- The four bytes of a word, most significant first (00 R5). -/
def wordBytes (w : Word) : List Byte :=
  [BitVec.ofNat 8 (w.toNat / 2 ^ 24), BitVec.ofNat 8 (w.toNat / 2 ^ 16), BitVec.ofNat 8 (w.toNat / 2 ^ 8),
    BitVec.ofNat 8 w.toNat]

/-- The bytes of a list of words. -/
def wordsBytes (ws : List Word) : List Byte := ws.flatMap wordBytes

/-- The number that big-endian bytes spell. -/
def bytesNat (bs : List Byte) : Nat := bs.foldl (fun a b => a * 256 + b.toNat) 0

/-- n bytes, most significant first, of a number. -/
def natBytes (n v : Nat) : List Byte := (List.range n).map (fun i => BitVec.ofNat 8 (v / 256 ^ (n - 1 - i)))

/-- n words, most significant first, of a number. -/
def natWords (n v : Nat) : List Word := (List.range n).map (fun i => w32 (v / 2 ^ (32 * (n - 1 - i))))

/-- Words from bytes, the last padded with zero bytes; the first argument bounds the count. -/
def bytesWordsN : Nat → List Byte → List Word
  | 0, _ => []
  | _ + 1, [] => []
  | n + 1, b :: bs =>
    w32 (bytesNat ((b :: bs).take 4 ++ List.replicate (4 - ((b :: bs).take 4).length) 0)) :: bytesWordsN n ((b :: bs).drop 4)

/-- Words from bytes, the last padded with zero bytes (16 R510). -/
def bytesWords (bs : List Byte) : List Word := bytesWordsN bs.length bs

/-- A byte string as 16 R510 encodes it: a length word, the bytes, zero padding to a word boundary. -/
def byteString (bs : List Byte) : List Word := w32 bs.length :: bytesWords bs

/-- A list as 16 R510 encodes it: a count word, then its elements. -/
def countedWords (elems : List (List Word)) : List Word := w32 elems.length :: elems.flatten

/-- One bit step of CRC-32C, reflected. -/
def crcBit (c : BitVec 32) : BitVec 32 := if c.getLsbD 0 then (c >>> 1) ^^^ 0x82F63B78#32 else c >>> 1

/-- One byte into a running CRC-32C. -/
def crcByte (c : BitVec 32) (b : Byte) : BitVec 32 :=
  let c := c ^^^ (b.zeroExtend 32)
  crcBit (crcBit (crcBit (crcBit (crcBit (crcBit (crcBit (crcBit c)))))))

/-- CRC-32C over bytes: initial and final value 0xFFFF_FFFF (03 R88). -/
def crc32c (bs : List Byte) : Word := (bs.foldl crcByte 0xFFFFFFFF#32) ^^^ 0xFFFFFFFF#32

/-- Round a quotient up. -/
def ceilDiv (a b : Nat) : Nat := (a + b - 1) / b

/-- Drop repeats, keeping first occurrences. -/
def distinct (l : List Nat) : List Nat := l.foldl (fun a n => if a.contains n then a else a ++ [n]) []

end Sys2Proof.Machine
end

