-- ==== Sys2Proof/Machine/Operands.lean ====
section
/-! DEFINITION. The fields of packets and link blocks: base header, flags, kind extensions (chapter 4), link header
(chapter 3), and the setters of the mutable fields. -/

namespace Sys2Proof.Machine

/-! Base header (04 Tables 4.1, 4.2). -/

def pVersion (p : Packet) : Nat := fld p.w0 31 28
def pKind (p : Packet) : Nat := fld p.w0 27 24
def pClass (p : Packet) : Nat := fld p.w0 23 21
def pVc (p : Packet) : Nat := fld p.w0 20 20
def pColour (p : Packet) : Nat := fld p.w0 19 18
def pCe (p : Packet) : Nat := fld p.w0 17 17
def pEnc (p : Packet) : Bool := fld p.w0 16 16 == 1
def pLength (p : Packet) : Nat := fld p.w0 15 0
def pDest (p : Packet) : Nat := fld p.w1 31 12
def pPid (p : Packet) : Nat := fld p.w1 11 0
def pSrc (p : Packet) : Nat := fld p.w2 31 12
def pHops (p : Packet) : Nat := fld p.w2 11 8
def pEntropy (p : Packet) : Nat := fld p.w2 7 0
def pEpoch (p : Packet) : Nat := fld p.w3 31 16
def pMcast (p : Packet) : Bool := fld p.w3 15 15 == 1
def pSpineDst (p : Packet) : Bool := fld p.w3 14 14 == 1
def pFirst (p : Packet) : Bool := fld p.w3 13 13 == 1
def pLast (p : Packet) : Bool := fld p.w3 12 12 == 1
def pNoSpray (p : Packet) : Bool := fld p.w3 11 11 == 1
def pSpineSrc (p : Packet) : Bool := fld p.w3 9 9 == 1

/-- A word with field [hi:lo] replaced. -/
def setFld (w : Word) (hi lo v : Nat) : Word :=
  BitVec.ofNat 32 (w.toNat - fld w hi lo * 2 ^ lo + at_ hi lo v)

def setVc (v : Nat) (p : Packet) : Packet := { p with w0 := setFld p.w0 20 20 v }
def setColour (v : Nat) (p : Packet) : Packet := { p with w0 := setFld p.w0 19 18 v }
def setCe (v : Nat) (p : Packet) : Packet := { p with w0 := setFld p.w0 17 17 v }
def setHops (v : Nat) (p : Packet) : Packet := { p with w2 := setFld p.w2 11 8 v }

/-- The trailer length: 16 bytes when encrypted, else 8 (03 R92). -/
def trailerLen (p : Packet) : Nat := if pEnc p then 16 else 8

/-- Size in bytes: header, payload and trailer (07 R250). -/
def sizeBytes (p : Packet) : Nat := 32 + pLength p + trailerLen p

/-- Cells and data slots of a packet (03 R92, 05 R163). -/
def cellsOf (p : Packet) : Nat := ceilDiv (sizeBytes p) 256

/-- The eight header words. -/
def headerWords (p : Packet) : List Word := [p.w0, p.w1, p.w2, p.w3, p.w4, p.w5, p.w6, p.w7]

/-- The header with the mutable fields VC, COLOUR, CE and HOPS at 0 (04 R127, R133). -/
def fixedHeader (p : Packet) : Packet := setHops 0 (setCe 0 (setColour 0 (setVc 0 p)))

/-- The CRC of a packet's trailer (04 R133). -/
def packetCrc (p : Packet) : Word :=
  crc32c (wordsBytes (headerWords (fixedHeader p)) ++ p.payload ++ wordBytes p.e2e)

/-! Kind extensions (04 Tables 4.4 to 4.10). -/

def xOp (p : Packet) : Nat := fld p.w4 31 24
def xTag (p : Packet) : Nat := fld p.w4 23 0
def xReplyStatus (p : Packet) : Nat := fld p.w5 31 24
def xGid (p : Packet) : Nat := fld p.w4 31 12
def xPortion (p : Packet) : Nat := fld p.w4 11 0
def xLoafSeq (p : Packet) : Nat := p.w5.toNat
def xMember (p : Packet) : Nat := fld p.w6 31 15
def xLstatus (p : Packet) : Nat := fld p.w6 14 12
def xSignature (p : Packet) : Nat := fld p.w7 31 16
def xFrag (p : Packet) : Nat := fld p.w7 15 0
def xLaunchId (p : Packet) : Nat := fld p.w4 31 16
def xTimed (p : Packet) : Bool := fld p.w4 15 15 == 1
def xCtype (p : Packet) : Nat := fld p.w4 31 24
def xCstatus (p : Packet) : Nat := fld p.w4 23 16
def xAbortGid (p : Packet) : Nat := fld p.w5 31 12
def xAbortSeq (p : Packet) : Nat := p.w6.toNat
def xContext (p : Packet) : Nat := fld p.w4 31 25
def xCombined (p : Packet) : Bool := fld p.w4 24 24 == 1
def xToken (p : Packet) : Nat := p.w5.toNat
def xExpert (p : Packet) : Nat := fld p.w6 31 22
def xSlot (p : Packet) : Nat := fld p.w6 21 19
def xGop (p : Packet) : Nat := fld p.w4 31 24
def xRegion (p : Packet) : Nat := fld p.w5 31 16
def xOffset (p : Packet) : Nat := fld p.w5 15 0 * 2 ^ 32 + p.w6.toNat
def xGstatus (p : Packet) : Nat := fld p.w7 31 24
def xReadLen (p : Packet) : Nat := fld p.w7 23 0
def xTtType (p : Packet) : Nat := fld p.w4 31 24
def xLlType (p : Packet) : Nat := fld p.w4 31 24
def xLlPort (p : Packet) : Nat := fld p.w4 10 0
def xMsgId (p : Packet) : Nat := fld p.w5 15 0

/-- Word i of a packet's payload. -/
def payloadWord (p : Packet) (i : Nat) : Word := w32 (bytesNat ((p.payload.drop (4 * i)).take 4))

/-! Link header (03 Table 3.2). -/

def bType (b : Block) : Nat := fld b.w0 31 28
def bClass (b : Block) : Nat := fld b.w0 27 25
def bVc (b : Block) : Nat := fld b.w0 24 24
def bSeq (b : Block) : Nat := fld b.w0 23 0
def bAkind (b : Block) : Nat := fld b.w1 31 30
def bAseq (b : Block) : Nat := fld b.w1 23 0
def bCrClass (b : Block) : Nat := fld b.w2 31 29
def bCrVc (b : Block) : Nat := fld b.w2 28 28
def bCrValid (b : Block) : Bool := fld b.w2 27 27 == 1
def bCrTotal (b : Block) : Nat := fld b.w2 26 15
def bSop (b : Block) : Bool := fld b.w2 14 14 == 1
def bEop (b : Block) : Bool := fld b.w2 13 13 == 1
def bLane (b : Block) : Nat := fld b.w2 12 10

/-- The CHECK of a block's header and slot (03 Table 3.1). -/
def blockCheck (w0 w1 w2 : Word) (slot : List Byte) : Word := crc32c (wordsBytes [w0, w1, w2] ++ slot)

/-- A block passes CHECK: its CRC agrees and it holds no control block (03 R84, R88). -/
def blockPasses (b : Block) : Bool := !b.control && b.check == blockCheck b.w0 b.w1 b.w2 b.slot

/-- A block that is discarded whole although it passes CHECK (03 R90). -/
def blockReserved (b : Block) : Bool :=
  decide (3 ≤ bType b) || bAkind b == 0 || bAkind b == 3 || (bCrValid b && decide (5 ≤ bCrClass b))

/-- Serial-number order over half the range of m: a lies ahead of b (03 R101). -/
def serialAhead (m a b : Nat) : Bool := decide (0 < (a + m - b % m) % m) && decide ((a + m - b % m) % m < m / 2)

/-- The key of a (class, channel): class × 2 + channel. -/
def cvKey (cls vc : Nat) : Nat := cls * 2 + vc

/-! ## Peels (15 Table 15.2) -/

def lVer (p : Peel) : Nat := fld p.w0 31 24
def lType (p : Peel) : Nat := fld p.w0 23 20
def lLast (p : Peel) : Bool := fld p.w0 19 19 == 1
def lOrdered (p : Peel) : Bool := fld p.w0 18 18 == 1
def lMailbox (p : Peel) : Nat := fld p.w0 13 8
def lSeq (p : Peel) : Nat := p.w1.toNat
def lOpcode (p : Peel) : Nat := fld p.w2 31 16
def lDeadline (p : Peel) : Nat := p.w3.toNat
def lMsgLen (p : Peel) : Nat := p.w4.toNat
def lOffset (p : Peel) : Nat := p.w5.toNat
def lSegLen (p : Peel) : Nat := fld p.w6 15 0
def lMajor (p : Peel) : Nat := fld p.w7 31 24
def lMinor (p : Peel) : Nat := fld p.w7 23 16

/-- The largest body of a peel that the device sends under a session's datagram limit (R488). -/
def segmentLimit (datagram : Nat) : Nat := Nat.max 1 (datagram - 128)

/-- How many peels a message of so many bytes takes (R488). -/
def segmentCount (len datagram : Nat) : Nat := Nat.max 1 (ceilDiv len (segmentLimit datagram))

/-- A peel of the device: type 1 RESPONSE or 2 EVENT, W1, opcode, status and credits (0 where unused), the segment's place
in its message. Reserved fields are 0, the version is 1.0 (R486, R505). -/
def devicePeel (ptype mb w1 opcode status credits boot len off : Nat) (seg : List Byte) : Peel :=
  { w0 := wordOf [at_ 31 24 1, at_ 23 20 ptype, at_ 19 19 (bit (decide (len ≤ off + seg.length))), at_ 13 8 mb],
    w1 := w32 w1, w2 := wordOf [at_ 31 16 opcode, at_ 15 8 status], w3 := 0, w4 := w32 len, w5 := w32 off,
    w6 := wordOf [at_ 31 16 credits, at_ 15 0 seg.length], w7 := wordOf [at_ 31 24 1, at_ 15 0 boot], body := seg }

/-- The words of an event record (Table 15.5). -/
def eventWords (r : EventRec) : List Word :=
  [wordOf [at_ 31 24 1, at_ 23 20 r.severity, at_ 19 19 (bit r.lost), at_ 15 8 r.island, at_ 7 0 r.block],
    wordOf [at_ 31 16 r.code, at_ 15 0 r.lostCount], w32 r.seq] ++ natWords 3 r.time ++ [wordOf [at_ 31 20 r.pid]] ++
    (List.range 9).map (fun i => w32 (r.args.getD i 0))

/-- The peels that an emission travels in: a response in segments (R488), an event peel with its whole records (R503). -/
def peelsOf : Out → List Peel
  | .response mb seq op st credits boot body (some via) =>
    let bytes := wordsBytes body
    (List.range (segmentCount bytes.length via.datagram)).map (fun i =>
      let off := i * segmentLimit via.datagram
      devicePeel 1 mb seq op st credits boot bytes.length off ((bytes.drop off).take (segmentLimit via.datagram)))
  | .eventPeel mb boot records _ =>
    let bytes := wordsBytes (records.flatMap eventWords)
    [devicePeel 2 mb ((records.head?.map (·.seq)).getD 0) 0 0 0 boot bytes.length 0 bytes]
  | _ => []

end Sys2Proof.Machine
end

