-- ==== Sys2Proof/Machine/State.lean ====
section
/-! DEFINITION. The state of the device as plain data, the reasons a command can stop, and the state after reset. -/

namespace Sys2Proof.Machine

/-- Why a command stops. -/
inductive Fault where
  /-- Raised by a command that names a unit the module does not have (00 Table 0.4, 01 R22). Safe: no such event occurs. -/
  | noSuchUnit
  deriving DecidableEq, Repr

/-- Why a command is refused. -/
inductive Refusal where
  /-- Raised by the dispatcher for a command without a meaning. Safe. -/
  | notModelled (mnemonic : String)
  deriving DecidableEq, Repr

/-- The module's supply, low-speed signals, telemetry and throttling (chapter 20). -/
structure PowerState where
  /-- VIN_42 lies above its turn-on threshold and has not fallen below 35.0 V since -/
  vinOn : Bool
  /-- every rail is in regulation -/
  rails : Bool
  /-- PWR_OK, C3 -/
  pwrOk : Bool
  /-- a shutdown that ends only when VIN_42 falls below 5 V (R625) -/
  latched : Bool
  /-- THERM_TRIP_N is low (R634) -/
  thermTrip : Bool
  /-- TRAY_CYCLE_REQ_N is low (17 R560) -/
  cycleReq : Bool
  /-- 60 s after that signal went low the supply still stood: START_STATUS alone is served (17 R568) -/
  statusOnly : Bool
  /-- ALERT_N is low: START_STATUS has changed since it was read (17 R566) -/
  alert : Bool
  /-- MOD_RST_N is asserted -/
  modRst : Bool
  /-- REFCLK shows edges -/
  refclk : Bool
  /-- BOOT_MODE and MOD_SLOT as latched at the latest cold start (R619) -/
  bootMode : Nat
  modSlot : Nat
  /-- the SMBus telemetry of Table 20.5, updated every 100 µs -/
  telemetry : Telemetry
  /-- the ALARMS bits that events set: cap unattainable, coolant ΔT -/
  capUnattainable : Bool
  coolantDelta : Bool
  /-- the depth of each throttle stage, stage 1 first (R630) -/
  depth : List Nat
  /-- evaluations in a row at which the module was under its limits (R631) -/
  underRun : Nat
  /-- evaluations in a row at which every stage stood at depth 15 over the cap (R633) -/
  fullRun : Nat
  /-- the THROTTLE event of cap unattainable has been raised for this episode (R633) -/
  capEventRaised : Bool
  /-- POWER.CAP in W, 0 for off (16 R530) -/
  cap : Nat
  deriving DecidableEq, Repr

/-- Power off, nothing latched; MOD_RST_N floats and reads as asserted (R618). -/
def PowerState.reset : PowerState :=
  { vinOn := false, rails := false, pwrOk := false, latched := false, thermTrip := false, cycleReq := false,
    statusOnly := false, alert := false, modRst := true, refclk := true, bootMode := 0, modSlot := 0,
    telemetry := ⟨0, 0, 0, 0, 0, 0, 0, 0, 0⟩,
    capUnattainable := false, coolantDelta := false, depth := [0, 0, 0, 0], underRun := 0, fullRun := 0,
    capEventRaised := false, cap := 0 }

/-- The phases of START_STATUS (17 Table 17.15). -/
inductive Phase where
  | reset | cold | warm | running | recovery | cycleHold | cycleRequested | test
  deriving DecidableEq, Repr

/-- The last-reset record of L5 (17 R560). -/
structure LastReset where
  level : Nat
  trigger : Nat
  scope : Nat
  dumpSeq : Nat
  deriving DecidableEq, Repr

/-- A recorded permutation record (02 Table 2.4): its header values, its 1,280 ring entries and its check word. -/
structure PermRecord where
  ts : Nat
  searches : Nat
  entries : List Word
  check : Word
  deriving DecidableEq, Repr

/-- The configuration store, which every level keeps (17 Table 17.10). -/
structure ConfigStore where
  sid : Option Nat
  /-- the credential table and whether its CRC-32C check holds (18 R571) -/
  credentials : List (CredClass × Nat)
  credentialsOk : Bool
  /-- static address, prefix length and MTU of networks A and B (15 R477, R478) -/
  netA : Nat × Nat × Nat
  netB : Nat × Nat × Nat
  /-- permutation record per optical die (02 R49) -/
  perm : Tab PermRecord
  /-- stacks whose training parameters are stored -/
  stackParams : List Nat
  /-- commissioning power per (engine, colour), engine × 8 + colour (02 R60) -/
  commission : Tab Nat
  /-- cut-over state: the spare that serves a bay (02 R61) -/
  cutover : Tab Nat
  /-- functions disabled by command: Knead units, the Mill, the Granary (17 R564) -/
  kneadOff : List Nat
  millOff : Bool
  granaryOff : Bool
  /-- the boot-attempt counter (17 R542) -/
  attempts : Nat
  /-- the start count (16 Table 16.13) -/
  starts : Nat
  lastReset : Option LastReset
  deriving DecidableEq, Repr

/-- An empty configuration store. -/
def ConfigStore.reset : ConfigStore :=
  { sid := none, credentials := [], credentialsOk := true, netA := (0, 0, 1280), netB := (0, 0, 1280), perm := [],
    stackParams := [], commission := [], cutover := [], kneadOff := [], millOff := false, granaryOff := false,
    attempts := 0, starts := 0, lastReset := none }

/-- One of the two copies of the configuration store in flash, with its generation and whether its CRC-32C holds
(20 R628). -/
structure StoreCopy where
  generation : Nat
  valid : Bool
  body : ConfigStore
  deriving DecidableEq, Repr

/-- A flash write in progress: which copy of the configuration store, or the image area with the FW.UPDATE of recovery
mode that waits for it (17 R547, R549; 20 R628). -/
inductive FlashWrite where
  | copy (second : Bool)
  | image (img : Image) (caller : Option Origin)
  deriving DecidableEq, Repr

/-- Starts, the flash and what the boot ROM keeps (chapter 17). -/
structure StartState where
  phase : Phase
  step : Nat
  /-- highest level since the last cold start -/
  lastLevel : Nat
  dumpValid : Bool
  /-- the configuration in use, and its two copies in flash -/
  cfg : ConfigStore
  copyA : StoreCopy
  copyB : StoreCopy
  /-- the image area of the flash -/
  flashImage : Option Image
  flashWrite : Option FlashWrite
  /-- the image that runs, and its recorded measurement (R539, R558) -/
  resident : Option Image
  measurement : Nat
  /-- the stacks have been trained in this start (R560) -/
  stacksTrained : Bool
  /-- the recovery log of R545 from offset 32, oldest first -/
  recoveryLog : List CrumbRec
  /-- the staging area of FW.STAGE: bytes by offset (R546) -/
  staging : Tab Byte
  /-- the reset trigger that the next start event reports -/
  pendingReset : Option LastReset
  deriving DecidableEq, Repr

/-- Phase RESET with nothing measured and an erased flash. -/
def StartState.reset : StartState :=
  { phase := .reset, step := 0, lastLevel := 0, dumpValid := false, cfg := ConfigStore.reset,
    copyA := { generation := 0, valid := true, body := ConfigStore.reset },
    copyB := { generation := 0, valid := false, body := ConfigStore.reset },
    flashImage := none, flashWrite := none, resident := none, measurement := 0, stacksTrained := false, recoveryLog := [], staging := [], pendingReset := none }

/-- One island's control agent and the flags of its data role (01 1.3, 1.4; 16 Table 16.14). -/
structure IslandState where
  pllLock : Bool
  dataReset : Bool
  /-- events queued toward firmware, at most 16 (R20) -/
  events : List AgentEvent
  lostCount : Nat
  lost : Bool
  /-- a crossing queue into this island refuses entries (R27) -/
  peerAbsent : Bool
  /-- accesses accepted and not answered, at most eight (R18) -/
  accesses : List RegAccess
  addrErr : Bool
  /-- firmware has marked the island unresponsive (R19) -/
  unresponsive : Bool
  deriving DecidableEq, Repr

/-- An island at reset: PLL_LOCK 0, DATA_RESET 1, nothing queued (Tables 1.6, 16.14). -/
def islandReset (_ : Nat) : IslandState :=
  { pllLock := false, dataReset := true, events := [], lostCount := 0, lost := false, peerAbsent := false,
    accesses := [], addrErr := false, unresponsive := false }

/-- One asynchronous crossing queue: entries the source holds, entries written, entries usable (01 R24 to R27). -/
structure Crossing where
  held : List Word
  queue : List Word
  usable : List Word
  deriving DecidableEq, Repr

/-- An empty crossing queue. -/
def crossingReset (_ : Nat) : Crossing := { held := [], queue := [], usable := [] }

/-- Islands, crossings and registers (chapter 1). -/
structure CtlState where
  islands : Tab IslandState
  /-- crossing queues by source × 256 + destination -/
  crossings : Tab Crossing
  /-- registers by control address (R30), but for ISLAND_INFO and AGENT_STATUS -/
  regs : Tab Word
  /-- writes that wait for the next unit boundary of their block, oldest first (R33) -/
  staged : List (Nat × Word)
  /-- accesses that firmware holds because an agent has eight outstanding (R18) -/
  held : List RegAccess
  /-- events delivered to firmware, oldest first -/
  delivered : List AgentDelivery
  deriving DecidableEq, Repr

/-- Every register 0. -/
def regReset (_ : Nat) : Word := 0

/-- Every island in reset. -/
def CtlState.reset : CtlState :=
  { islands := [], crossings := [], regs := [], staged := [], held := [], delivered := [] }

/-- What a ring is doing (02 R42, R44, R55). -/
inductive RingMode where
  | unpowered | parked | tracking | locked | unlocked
  deriving DecidableEq, Repr

/-- One micro-ring: its assigned line, its heater shift in 1/32 GHz, and what it is doing. -/
structure Ring where
  line : Nat
  shift : Nat
  failed : Bool
  mode : RingMode
  deriving DecidableEq, Repr

/-- An unpowered ring (R43), bound to no line yet. -/
def ringReset (_ : Nat) : Ring := { line := 0, shift := 0, failed := false, mode := .unpowered }

/-- What a laser bay is doing (02 2.5; 20 R638, R639). -/
inductive BayUse where
  | off | warming | active | selfTest | idle | serving (bay : Nat) | failed
  deriving DecidableEq, Repr

/-- One laser bay: fitted, its use, and the colours whose laser is off while the bay is on. -/
structure Bay where
  fitted : Bool
  use : BayUse
  darkColours : Nat
  deriving DecidableEq, Repr

/-- A bay position without a known bay, lasers off. -/
def bayReset (_ : Nat) : Bay := { fitted := false, use := .off, darkColours := 0 }

/-- The stage of a spare cut-over or of a bay return (02 Table 2.7; R65). -/
inductive CutStage where
  | warming | noticed | switching | settled
  deriving DecidableEq, Repr

/-- A cut-over in progress on a bay. -/
structure Cutover where
  spare : Nat
  stage : CutStage
  /-- Tp, as T32 -/
  pauseTime : Nat
  /-- the fibres move back from the spare to the returned bay -/
  back : Bool
  /-- the LINK.BAY_RETURN that waits for the end -/
  caller : Option Origin
  deriving DecidableEq, Repr

/-- Fade supervision of one (engine, colour): successive averages below −1.0 and −2.0 dB, the levels acted on. -/
structure Fade where
  below1 : Nat
  below2 : Nat
  suspended : Bool
  failed : Bool
  deriving DecidableEq, Repr

/-- No fade seen. -/
def fadeReset (_ : Nat) : Fade := { below1 := 0, below2 := 0, suspended := false, failed := false }

/-- One fibre pair: its recorded length in m, and its eye-safety state (02 2.6, 2.8). -/
structure FibrePair where
  length : Nat
  reduced : Bool
  probing : Bool
  /-- the latest probe's reflection lay below −20 dB; none before a probe has ended -/
  probeLow : Option Bool
  loopback : Bool
  deriving DecidableEq, Repr

/-- A fibre pair as it stands before any setting: 300 m, full emission, no loop-back (Table 2.11). -/
def fibreReset (_ : Nat) : FibrePair :=
  { length := 300, reduced := false, probing := false, probeLow := none, loopback := false }

/-- The life of a crust circuit (02 Table 2.10, R58, R77). -/
inductive CircuitPhase where
  | deferred | committed | lighting | lit | lost | tearing
  deriving DecidableEq, Repr

/-- A crust circuit, or a λ0 loop-back (`loop`), through one engine (02 R71, R75, R80). -/
structure Circuit where
  engine : Nat
  inFibre : Nat
  colour : Nat
  outFibre : Nat
  loop : Bool
  /-- EFFECTIVE as T32 -/
  effective : Nat
  phase : CircuitPhase
  /-- a tear-down is asked for or in progress -/
  tearDown : Bool
  /-- the command that asked for it and waits for the change to be applied -/
  caller : Option Origin
  deriving DecidableEq, Repr

/-- Optics (chapter 2). -/
structure OptState where
  /-- rings by ((engine × 8 + fibre) × 5 + row) × 8 + slot -/
  rings : Tab Ring
  bays : Tab Bay
  /-- cut-overs in progress by bay -/
  cutovers : Tab Cutover
  autoSpare : Bool
  /-- fade supervision by engine × 8 + colour -/
  fades : Tab Fade
  /-- fibre pairs by engine × 8 + fibre -/
  fibres : Tab FibrePair
  /-- optical die temperature in 0.01 °C, by die -/
  dieTemp : Tab Nat
  /-- heater feed-forward: the two poles of the thermal model, by die (R54) -/
  feedFwd : Tab (Int × Int)
  /-- crust circuits by identifier -/
  circuits : Tab Circuit
  /-- reference time of an engine's latest change (R74), by engine -/
  lastChange : Tab Nat
  /-- buses that wait for a search, (engine × 8 + fibre) × 2 + tx -/
  searchDue : List Nat
  partialDue : List Nat
  deriving DecidableEq, Repr

/-- A dark, unsearched optical path with automatic spare cut-over enabled (Table 2.11). -/
def OptState.reset : OptState :=
  { rings := [], bays := [], cutovers := [], autoSpare := true, fades := [], fibres := [], dieTemp := [],
    feedFwd := [], circuits := [], lastChange := [], searchDue := [], partialDue := [] }

/-- The time states (13 Table 13.3). -/
inductive TimePhase where
  | unset | acquiring | locked | holdover | master
  deriving DecidableEq, Repr

/-- The latest TIME message of a port's peer (13 Table 13.2, R439). -/
structure TimePeer where
  state : Nat
  jumpRefused : Bool
  hops : Nat
  gmPriority : Nat
  gmSid : Nat
  gmSeq : Nat
  /-- reference times of its arrival and of the latest advance of GM_SEQ -/
  arrival : Nat
  advanced : Nat
  /-- nothing has come for 1 ms; GM_SEQ has stood for 2 ms -/
  silent : Bool
  stalled : Bool
  deriving DecidableEq, Repr

/-- A TIME.ACCEPT_STEP that collects samples (13 R437). -/
structure AcceptStep where
  origin : Origin
  limit : Nat
  samples : List Int
  deriving DecidableEq, Repr

/-- A TIME.TIE that waits for its source (13 R441). -/
structure TieWait where
  origin : Origin
  source : Nat
  domain : Nat
  seconds : Nat
  offsets : List Int
  deriving DecidableEq, Repr

/-- An entry of the launch timestamp queue (13 Table 13.5). -/
structure LaunchEntry where
  launchId : Nat
  late : Bool
  stepped : Bool
  port : Nat
  seconds : Nat
  nanos : Nat
  delta : Int
  pid : Nat
  deriving DecidableEq, Repr

/-- Fabric time (chapter 13); offsets in 2^-16 ns. -/
structure TimeState where
  phase : TimePhase
  jumpRefused : Bool
  hops : Nat
  gmPriority : Nat
  gmSid : Nat
  gmSeq : Nat
  priority : Nat
  /-- THRESH in ns -/
  thresh : Nat
  /-- the frequency estimate, in 2^-24 ns, and the last 64 values of ρ, newest first -/
  fq : Int
  rhos : List Int
  lastOff : Int
  /-- samples collected in ACQUIRING -/
  samples : List Int
  parent : Option Nat
  /-- the next valid sample is the first from a new parent or grand master -/
  firstSample : Bool
  peers : Tab TimePeer
  /-- the last four SEQ sent, by port, newest first -/
  sentSeqs : Tab (List Nat)
  accept : Option AcceptStep
  tie : Option TieWait
  /-- PPS_IN discipline enabled; PPS_OUT high -/
  discipline : Bool
  ppsHigh : Bool
  launches : List LaunchEntry
  /-- partitions whose OVERFLOW flag is set -/
  overflow : List Nat
  deriving DecidableEq, Repr

/-- UNSET with the defaults of chapter 13. -/
def TimeState.reset : TimeState :=
  { phase := .unset, jumpRefused := false, hops := 0, gmPriority := 0, gmSid := 0, gmSeq := 0, priority := 128,
    thresh := 1000, fq := 0, rhos := [], lastOff := 0, samples := [], parent := none, firstSample := false,
    peers := [], sentSeqs := [], accept := none, tie := none, discipline := false, ppsHigh := false, launches := [],
    overflow := [] }

/-- Lane states (03 Table 3.8). -/
inductive LanePhase where
  | dark | acquire | delineate | verify | ready | joined
  deriving DecidableEq, Repr

/-- Why a lane left its port (03 R112, R120); `light` and `message` carry no REASON of their own; `fade` is the
suspension of 02 R60, told as an unlock. -/
inductive RemoveCause where
  | unlock | errorRate | delineation | crust | command | message | light | fade
  deriving DecidableEq, Repr

/-- One lane (03 3.7, 3.8). -/
structure Lane where
  phase : LanePhase
  acquireExpiries : Nat
  /-- the cause of the latest removal, while it holds -/
  cause : Option RemoveCause
  /-- reference times of removals for error rate within 60 s, and the lane stays out until a command (R122) -/
  errorTimes : List Nat
  stayOut : Bool
  /-- LANE ready sent by this end, and kept from the peer (R122) -/
  ownReady : Bool
  peerReady : Bool
  /-- MSG_ID of this end's unacknowledged LANE remove, and of the peer's latest one (R123) -/
  removeSent : Option Nat
  removeSeen : Option Nat
  miswired : Bool
  /-- signal, PCS lock or delineation was lost inside a PAUSE window that names the lane (R113) -/
  suspended : Bool
  /-- the lane was reported as failed -/
  failed : Bool
  deriving DecidableEq, Repr

/-- A dark lane. -/
def laneReset (_ : Nat) : Lane :=
  { phase := .dark, acquireExpiries := 0, cause := none, errorTimes := [], stayOut := false, ownReady := false,
    peerReady := false, removeSent := none, removeSeen := none, miswired := false, suspended := false,
    failed := false }

/-- Port states (03 Table 3.9). -/
inductive PortPhase where
  | down | hello | credit | up | resume
  deriving DecidableEq, Repr

/-- What the latest HELLO of a peer said (03 Table 3.6). -/
structure PeerInfo where
  role : Nat
  address : Nat
  sid : Nat
  sidValid : Bool
  v1 : Bool
  v2 : Bool
  width : Nat
  laneMask : Nat
  port : Nat
  deriving DecidableEq, Repr

/-- A DATA block sent and not acknowledged (03 R101, R105): its SEQ, class, channel, packet copy and slot number. -/
structure TxBlock where
  seq : Nat
  cls : Nat
  vc : Nat
  pkt : Nat
  slotNo : Nat
  sop : Bool
  eop : Bool
  data : List Byte
  deriving DecidableEq, Repr

/-- A packet copy whose transmission has begun (03 R93): header and payload as they go onto the link, the key and nonce
of an encrypted copy, and the next slot. -/
structure TxOpen where
  pkt : Nat
  data : List Byte
  keyed : Option (Nat × Nat)
  e2e : Word
  nextSlot : Nat
  /-- order of opening, for the oldest first rule (07 R239) -/
  order : Nat
  deriving DecidableEq, Repr

/-- An acknowledged link-local message on its way (03 R109). -/
structure LinkMsg where
  llType : Nat
  msgId : Nat
  payload : List Word
  sends : Nat
  deriving DecidableEq, Repr

/-- A PAUSE window (03 R113). -/
structure PauseWindow where
  time : Nat
  len : Nat
  lanes : Nat
  deriving DecidableEq, Repr

/-- One port: link layer, credits, replay and settings (chapters 3 and 5). -/
structure Port where
  /-- 0 when no port has this number as its lowest lane -/
  width : Nat
  phase : PortPhase
  compat : Bool
  /-- store-and-forward mask by class (05 R176) -/
  storeMask : Nat
  /-- sampling setting and generator (05 R189) -/
  sample : Option Nat
  /-- the sampling generator, 0 until its seed is drawn (05 R186, R189) -/
  sampleGen : Word
  /-- staleness timers in µs (05 R193) -/
  queueStale : Nat
  portStale : Nat
  /-- HUSK_WAIT in µs by class C0 to C4 (06 R227) -/
  huskWait : List Nat
  /-- the identity that brought the port up, and the latest HELLO -/
  identity : Option PeerInfo
  peer : Option PeerInfo
  peerSeen : Bool
  /-- TX_TIMEs of own HELLOs, TX_TIME and arrival of the peer's latest one (R110, R111) -/
  ownHellos : List Nat
  echoTime : Nat
  echoArrival : Nat
  measured : Option Nat
  mismatchTold : Bool
  /-- transmit side: next SEQ, unacknowledged blocks oldest first, position of the replay in progress -/
  txSeq : Nat
  unacked : List TxBlock
  replay : Option Nat
  /-- SEQ and reference time of the latest replay's start, and replays in a row from that SEQ (R105, R106) -/
  replayFrom : Nat
  replayTime : Nat
  replays : Nat
  /-- receive side: expected SEQ, the reorder window, and the NAK being sent with its end (R103, R104) -/
  rxNext : Nat
  window : List (Nat × Block)
  nakUntil : Nat
  nakSeq : Nat
  /-- sender credit per class × 2 + channel: latest CR_TOTAL, slots sent, totals seen since CREDIT (R95) -/
  crTotal : Tab Nat
  crSent : Tab Nat
  crSeen : List Nat
  /-- receiver credit: freed totals, commitments, targets, weights, classes active in the last 1 µs (05 R171) -/
  freed : Tab Nat
  commit : List Nat
  target : List Nat
  weights : List Nat
  active : List Nat
  /-- (class, channel) whose total must be sent (R96) -/
  crDue : List Nat
  /-- open packets on receive (bytes so far) and on transmit, by class × 2 + channel -/
  rxOpen : Tab (List Byte)
  txOpen : Tab TxOpen
  openOrder : Nat
  /-- the (class, channel) that the class scheduler chose last (07 R239) -/
  lastChosen : Option Nat
  /-- link-local: messages unacknowledged, next MSG_ID, MSG_IDs acted on, unacknowledged-once messages to send -/
  msgs : List LinkMsg
  nextMsg : Nat
  seenMsgs : List Nat
  localOut : List (Nat × Packet)
  /-- LOCAL blocks sent in the last 1 µs and its start, by lane index (R114) -/
  localSent : Tab (Nat × Nat)
  pause : Option PauseWindow
  /-- transmission is stopped by this end's own pause (02 Table 2.7 step 4) -/
  paused : Bool
  /-- C0 policer: level in bits, reference time of the latest accrual, packets held (07 R250, R251) -/
  c0Level : Nat
  c0Time : Nat
  c0Held : List Packet
  /-- wraps of SEQ since the link keys were loaded (04 R136) -/
  wraps : Nat
  /-- the port waits in DOWN for headroom after a width change (05 R167) -/
  awaitHeadroom : Bool
  /-- time transfer: next SEQ of TIME, latest TIME from the peer as (SEQ, TX_T96, arrival), ASYM in ns (13) -/
  timeSeq : Nat
  timePeer : Option (Nat × Nat × Nat)
  asym : Int
  deriving DecidableEq, Repr

/-- A port before any setting: width 8 on every pair (03 R86), state DOWN, defaults of chapters 3, 5 and 6. -/
def portReset (n : Nat) : Port :=
  { width := if n % 8 = 0 then 8 else 0, phase := .down, compat := false, storeMask := 0, sample := none,
    sampleGen := 0, queueStale := 10000, portStale := 10000, huskWait := [20, 20, 20, 20, 20], identity := none,
    peer := none, peerSeen := false, ownHellos := [], echoTime := 0, echoArrival := 0, measured := none,
    mismatchTold := false, txSeq := 0, unacked := [], replay := none, replayFrom := 0, replayTime := 0, replays := 0,
    rxNext := 0, window := [], nakUntil := 0, nakSeq := 0, crTotal := [], crSent := [], crSeen := [], freed := [],
    commit := [0, 0, 0, 0, 0], target := [0, 0, 0, 0, 0], weights := [1, 1, 1, 1], active := [], crDue := [],
    rxOpen := [], txOpen := [], openOrder := 0, lastChosen := none, msgs := [], nextMsg := 0, seenMsgs := [],
    localOut := [], localSent := [], pause := none, paused := false, c0Level := 0, c0Time := 0, c0Held := [],
    wraps := 0, awaitHeadroom := false, timeSeq := 0, timePeer := none, asym := 0 }

/-- Lanes and ports (chapter 3). -/
structure LinkState where
  lanes : Tab Lane
  ports : Tab Port
  deriving DecidableEq, Repr

/-- Where a packet's cells are charged (05 Table 5.3). -/
inductive Pool where
  | headroom | shared | knead (group : Nat) | compute | control
  deriving DecidableEq, Repr

/-- The first packet of a grist chunk on its way out: the fields its launch timestamp takes (13 Table 13.5). -/
structure Launch where
  launchId : Nat
  late : Bool
  stepped : Bool
  /-- LAUNCH_TIME as device time; none for an untimed chunk -/
  due : Option Nat
  slot : Nat
  pid : Nat
  deriving DecidableEq, Repr

/-- A packet in the shared buffer. -/
structure Stored where
  pkt : Packet
  /-- ingress port; none for a packet that the spine originated -/
  inPort : Option Nat
  /-- routing slice (06 R649) and virtual output queue source 0 to 16 (05 R180) -/
  slice : Nat
  src : Nat
  cells : Nat
  /-- cells charged to the pool and, for an ingress packet, cells still on headroom -/
  pool : Pool
  onHeadroom : Nat
  /-- the headroom charge's class × 2 + channel -/
  chargeKey : Nat
  /-- copies queued, begun or unacknowledged -/
  copies : Nat
  /-- the last slot has arrived and its check has passed; store-and-forward -/
  complete : Bool
  storeForward : Bool
  /-- the trailer check failed after a cut-through egress began (04 R135) -/
  stomp : Bool
  /-- the part of the lookup that a second lookup repeats: poppy set and mask (06 R219) -/
  set : Nat
  mask : Nat
  hopsIn : Nat
  multicast : Bool
  /-- the consumer inside the spine that takes it once it is complete (05 Table 5.2) -/
  consumer : Option Nat
  /-- the admission queue its cells are tested against (R172, R175) -/
  admitKey : Nat
  /-- its first slot writes a launch timestamp (13 R446) -/
  launch : Option Launch
  deriving DecidableEq, Repr

/-- One entry of a virtual output queue: the packet and the channel it is sent on. -/
structure Copy where
  pkt : Nat
  vc : Nat
  /-- the copy's congestion mark (06 R232) -/
  ce : Bool
  deriving DecidableEq, Repr

/-- A packet handed to a consumer inside the spine, with the cells it still holds. -/
structure Delivered where
  /-- ingress port; none for a packet of this spine's own -/
  inPort : Option Nat
  pkt : Packet
  onHeadroom : Nat
  shared : Nat
  chargeKey : Nat
  admitKey : Nat
  deriving DecidableEq, Repr

/-- A packet that an engine has made and that waits for pool room (05 R174). -/
structure Waiting where
  pkt : Packet
  slice : Nat
  deriving DecidableEq, Repr

/-- The shared buffer, its pools and the virtual output queues (chapter 5). -/
structure BufState where
  packets : Tab Stored
  nextPkt : Nat
  /-- virtual output queues by ((port × 8 + class) × 2 + channel) × 17 + source -/
  queues : Tab (List Copy)
  /-- deficit round robin: the source served last and the deficits, by (port × 8 + class) × 2 + channel (R182) -/
  drr : Tab (Nat × List Nat)
  /-- headroom cells charged by (port × 8 + class) × 2 + channel -/
  headroom : Tab Nat
  /-- shared cells charged, by (port × 8 + class), and by 2^15 + slice × 8 + class for
  multicast (05 R175); port 2048 stands for the compute port -/
  sharedQ : Tab Nat
  sharedUsed : Nat
  /-- cells left out after a failed self-test -/
  badCells : Nat
  kneadUsed : Tab Nat
  computeUsed : Nat
  controlUsed : Nat
  /-- packets of the engines that wait for room, by source 8 to 16 (Knead port, compute port), 17 control island -/
  waiting : Tab (List (Waiting × Option Launch))
  /-- queue entries in use by egress slice, and those of C0 (05 R183) -/
  entries : Tab (Nat × Nat)
  /-- queues that HUSK_WAIT has moved and whose arrivals still move, by (port × 8 + class) × 17 + source -/
  huskMoving : List Nat
  /-- firmware's inbound and outbound queues of C2 control messages (06 R231) -/
  fwIn : List Packet
  fwOut : List Packet
  /-- packets handed to a consumer inside the spine, oldest first, by consumer code (05 Table 5.2) -/
  consumers : Tab (List Delivered)
  /-- lossless copies that wait for a queue entry: packet, port, channel, source (R183) -/
  replicate : List (Nat × Nat × Nat × Nat)
  /-- (egress port, class) queues toward which injection is paused (06 R233), by
  (port × 8 + class) × 16 + source modulo 16 -/
  injPaused : List Nat
  /-- next E2E_SEQ by DEST × 8 + CLASS, DEST with its flags (04 R134) -/
  e2e : Tab Nat
  /-- reference time at which (port, class, channel) last sent a DATA block (17 Table 17.13) -/
  lastSent : Tab Nat
  deriving DecidableEq, Repr

/-- A poppy member (06 Table 6.5). LIVE is read from the port itself (R213). -/
structure Member where
  port : Nat
  weight : Nat
  deriving DecidableEq, Repr

/-- A destination entry (06 Table 6.3). -/
structure DestEntry where
  dest : Nat
  pid : Nat
  isStatic : Bool
  hit : Bool
  aged : Bool
  gen : Nat
  poppy : Nat
  mask : Nat
  deriving DecidableEq, Repr

/-- A partition entry (06 Table 6.4). -/
structure PartEntry where
  defined : Bool
  fenced : Bool
  isProtected : Bool
  learn : Bool
  epoch : Nat
  ports : Nat
  deriving DecidableEq, Repr

/-- The partition entry of a PID at a reset of the slice: PID 0x000 as R144 defines it, others undefined. -/
def partReset (pid : Nat) : PartEntry :=
  { defined := decide (pid = 0), fenced := decide (pid ≠ 0), isProtected := false, learn := false, epoch := 0,
    ports := if pid = 0 then 2 ^ 256 - 1 else 0 }

/-- A locked bucket with the contents it had before the lock (06 R206, R208). -/
structure BucketLock where
  bucket : Nat
  before : Tab DestEntry
  owner : Origin
  since : Nat
  deriving DecidableEq, Repr

/-- One slice's tables, parameters and generators (chapter 6). -/
structure Slice where
  /-- destination entries by storage index (16 R522) -/
  dest : Tab DestEntry
  poppy : Tab (List Member)
  /-- sets pinned by WINNOW.PIN -/
  pinned : List Nat
  /-- BASE of each member of a set (12 R401) -/
  base : Tab (List Nat)
  groups : Tab (Word × Word)
  bitmaps : Tab Nat
  parts : Tab PartEntry
  huskRow : Tab Word
  huskSpine : Tab Word
  params : RouteParams
  /-- GENERATION by table code, and of the destination table by PID (R209) -/
  gen : Tab Nat
  destGen : Tab Nat
  locks : List BucketLock
  deferred : List LearnMsg
  learnQueue : List LearnMsg
  /-- words whose parity is bad, and those reported since they were written, as table code × 2^20 + index: a set's
  word m lies at 65 × set + m (R238) -/
  badParity : List Nat
  toldParity : List Nat
  /-- the slice generator of R186 -/
  lfsr : Word
  sampleSeq : Nat
  deriving DecidableEq, Repr

/-- The routing parameters at reset (06 Table 6.2). -/
def paramsReset : RouteParams :=
  { rowBase := 0, rowShift := 0, spineSet := 2048, detourSet := 2049, detourHops := 4, cuckoo := false, sweep := 1000 }

/-- A slice after reset. -/
def sliceReset (_ : Nat) : Slice :=
  { dest := [], poppy := [], pinned := [], base := [], groups := [], bitmaps := [], parts := [], huskRow := [], huskSpine := [],
    params := paramsReset, gen := [], destGen := [], locks := [], deferred := [], learnQueue := [], badParity := [], toldParity := [],
    lfsr := 1, sampleSeq := 0 }

/-- Routing tables of the eight slices and the husk root priority (chapter 6). -/
structure TblState where
  slices : Tab Slice
  rootPriority : Nat
  deriving DecidableEq, Repr

/-- A shaper: parameters, token level in 2^-16 bytes, reference time of the latest accrual (07 R247, R248). -/
structure Shaper where
  params : ShaperParams
  level : Int
  time : Nat
  deriving DecidableEq, Repr

/-- A shaper that is off, its bucket full (07 Table 7.2). -/
def shaperReset (_ : Nat) : Shaper :=
  { params := { zero := false, rate := 0, burst := 65536 }, level := 65536 * 65536, time := 0 }

/-- The class scheduler of one egress port (07 Table 7.1); lists run over C1 to C7. -/
structure Sched where
  v : Nat
  f : List Nat
  weight : List Nat
  credit : List Nat
  overhead : Nat
  deriving DecidableEq, Repr

/-- A class scheduler with the defaults of Table 7.1. -/
def schedReset (_ : Nat) : Sched :=
  { v := 0, f := [0, 0, 0, 0, 0, 0, 0], weight := [64, 32, 48, 64, 16, 8, 1],
    credit := [16384, 16384, 16384, 16384, 16384, 16384, 16384], overhead := 56 }

/-- A three-colour marker with its two buckets in bits and the time of the latest accrual (07 R252). -/
structure Marker where
  params : MarkerParams
  c : Nat
  p : Nat
  time : Nat
  deriving DecidableEq, Repr

/-- A marker that is off. -/
def markerReset (_ : Nat) : Marker :=
  { params := { enable := false, cir := 0, cbs := 8240, pir := 0, pbs := 8240 }, c := 0, p := 0, time := 0 }

/-- Settings and averages of one (egress port, class) queue (05 R172, R185, R186; 06 R232). -/
structure QueueSet where
  profile : Nat
  a : Nat
  /-- MARK in cells; none stands for the default 32w -/
  mark : Option Nat
  /-- the three averages, green first, with 8 fraction bits -/
  avg : List Nat
  deriving DecidableEq, Repr

/-- The default admission exponent of a class (05 R172). -/
def defaultA (cls : Nat) : Nat := if cls ≤ 4 then 7 else if cls = 5 then 6 else if cls = 6 then 5 else 3

/-- A queue with its class's defaults; the key is port × 8 + class. -/
def queueSetReset (k : Nat) : QueueSet := { profile := 0, a := defaultA (k % 8), mark := none, avg := [0, 0, 0] }

/-- The default drop profile (05 Table 5.6); every profile starts with it (DESIGN CHOICE for 1 to 15, log 20). -/
def profileReset (_ : Nat) : List DropCurve :=
  [{ min := 8192, max := 32768, wexp := 4, pmax := 26 }, { min := 4096, max := 16384, wexp := 4, pmax := 51 },
    { min := 1024, max := 4096, wexp := 4, pmax := 128 }]

/-- A budgeted activity: its four shares and LENDABLE (07 Table 7.5). -/
structure Budget where
  shares : List Nat
  lendable : Bool
  deriving DecidableEq, Repr

/-- The default shares (07 Table 7.5), by activity 0 to 9. -/
def budgetDefaults : List Budget :=
  [{ shares := [128, 0, 0, 16], lendable := false }, { shares := [256, 320, 0, 0], lendable := true },
    { shares := [128, 64, 0, 16], lendable := false }, { shares := [0, 0, 64, 32], lendable := true },
    { shares := [16, 32, 64, 128], lendable := false }, { shares := [16, 16, 0, 32], lendable := false },
    { shares := [0, 0, 0, 64], lendable := true }, { shares := [8, 0, 0, 0], lendable := true },
    { shares := [64, 128, 0, 32], lendable := true }, { shares := [256, 320, 0, 32], lendable := true }]

/-- The use of one (activity, resource) in the period (07 R257, R258). -/
structure Gate where
  used : Nat
  /-- use beyond the allowance, deducted from the next period's -/
  overdraw : Nat
  lent : Nat
  borrowed : Nat
  deriving DecidableEq, Repr

/-- Nothing used. -/
def gateReset (_ : Nat) : Gate := { used := 0, overdraw := 0, lent := 0, borrowed := 0 }

/-- The C0 measurement of an egress port: the proof period and its cells, the excess bucket in 1/8,192 cells, and the
reference time of its latest drain (07 R263 (b), R265). -/
structure C0Meter where
  period : Nat
  cells : Nat
  bucket : Nat
  time : Nat
  deriving DecidableEq, Repr

/-- Nothing measured. -/
def c0MeterReset (_ : Nat) : C0Meter := { period := 0, cells := 0, bucket := 0, time := 0 }

/-- The gate of the lossy classes at an egress port while throttle stage 4 acts: level in 2^-16 bytes, reference time of the
latest accrual (20 Table 20.11). -/
structure LossyGate where
  level : Int
  time : Nat
  deriving DecidableEq, Repr

def lossyGateReset (_ : Nat) : LossyGate := { level := 0, time := 0 }

/-- Scheduling, shaping, marking and budgets (chapter 7). -/
structure SchedState where
  scheds : Tab Sched
  /-- shapers by port × 8 + target (0 the port shaper) -/
  shapers : Tab Shaper
  /-- the gates of stage 4 by egress port (20 R630) -/
  lossyGates : Tab LossyGate
  /-- markers by port × 8 + class -/
  markers : Tab Marker
  queueSets : Tab QueueSet
  profiles : Tab (List DropCurve)
  budgets : List Budget
  /-- shares accepted and waiting for the next period boundary (R256) -/
  nextBudgets : Option (List Budget)
  /-- gates by activity × 4 + resource; lent and not yet borrowed by resource -/
  gates : Tab Gate
  lentPool : Tab Nat
  /-- reference time of an egress port's latest C0 event (R265) -/
  c0Event : Tab Nat
  c0Meters : Tab C0Meter
  deriving DecidableEq, Repr

/-- A group (08 Table 8.1). LIVE is the set at definition and the later changes, each from its loaf sequence on. -/
structure Group where
  pid : Nat
  members : List Nat
  live : Nat
  changes : List (Nat × Nat)
  delivery : List Nat
  /-- the barrier bound lies above BARRIER_LIMIT, and this has been told (14 R462) -/
  boundTold : Bool
  deriving DecidableEq, Repr

/-- A recipe record with its portion map: the SID and the Knead unit of each portion (08 Table 8.3). -/
structure Recipe where
  recipeId : Nat
  signature : Nat
  gid : Nat
  base : Nat
  pattern : Nat
  op : Nat
  dtype : Nat
  round : Nat
  ordered : Bool
  all : Bool
  parts : Nat
  epf : Nat
  window : Nat
  elements : Nat
  root : Nat
  stale : Nat
  home : Nat
  epoch : Nat
  map : List (Nat × Nat)
  deriving DecidableEq, Repr

/-- A recipe as this spine holds it. -/
structure Held where
  recipe : Recipe
  /-- OPEN_ID under which it was opened -/
  openId : Nat
  /-- the spill region of the portions here, 0 when none -/
  spill : Nat
  /-- spines to answer CLOSED once every context here is released: SID and OPEN_ID -/
  closers : List (Nat × Nat)
  /-- a close is in progress -/
  closing : Bool
  /-- at its home, the spines that LOAF.OPEN pinned (12 R399) -/
  pinned : List Nat
  deriving DecidableEq, Repr

/-- A reservation that waits for COMMIT (08 R281), and the portion words received so far. -/
structure Reservation where
  home : Nat
  openId : Nat
  recipe : Recipe
  /-- portions of this spine with their units -/
  mine : List (Nat × Nat)
  spill : Nat
  words : Tab Word
  deriving DecidableEq, Repr

/-- A LOAF.OPEN in progress at its home (08 Table 8.6). -/
structure OpenJob where
  origin : Origin
  params : OpenParams
  recipe : Recipe
  round : Nat
  /-- spines that refused other than by collision -/
  refused : List Nat
  /-- recipe numbers and portion ranges refused by collision -/
  badIds : List Nat
  badRanges : List (Nat × Nat)
  /-- spines not yet answered, spines that reserved, and whether this round was refused -/
  waiting : List Nat
  reserved : List Nat
  failed : Bool
  committing : Bool
  deriving DecidableEq, Repr

/-- A LOAF.CLOSE in progress at the spine that accepted it (08 R304). -/
structure CloseJob where
  origin : Origin
  gid : Nat
  recipeId : Nat
  grace : Nat
  waiting : List Nat
  deriving DecidableEq, Repr

/-- One slot of a loaf context (08 R286): its fragment, the members that contributed, their combination, and once it is
complete the result payload. -/
structure KneadSlot where
  frag : Nat
  seen : List Nat
  accs : List Acc
  /-- ordered mode: the terms by member, element by element -/
  leaves : Tab (List Val)
  full : Bool
  result : List Byte
  deriving DecidableEq, Repr

/-- STATE of a loaf context (08 Table 8.8). -/
inductive LoafPhase where
  | idle | running | spilled | draining | aborting
  deriving DecidableEq, Repr

/-- A loaf context (08 Table 8.8). -/
structure LoafCtx where
  /-- its number in the table of 16,384 contexts -/
  index : Nat
  recipeId : Nat
  portion : Nat
  knead : Nat
  phase : LoafPhase
  /-- it has held no loaf yet (R285) -/
  fresh : Bool
  seq : Nat
  aborted : Bool
  lstatus : Nat
  /-- live members of the current loaf, as a mask -/
  live : Nat
  done : Nat
  slots : Tab KneadSlot
  /-- the context holds its staging in SRAM, and a spill is being written (R291) -/
  sram : Bool
  spilling : Bool
  /-- GATHER with ALL 0: fragments staged (member and length), and fragments sent to ROOT (R302) -/
  staged : Tab (Nat × Nat)
  sent : List Nat
  deriving DecidableEq, Repr

/-- LOAF.SIZING of a partition: ENDPOINT_REACH in m and BARRIER_LIMIT in ns (14 R461, R462). -/
structure Sizing where
  reach : Nat
  limit : Nat
  deriving DecidableEq, Repr

def sizingReset (_ : Nat) : Sizing := { reach := 30, limit := 0 }

/-- Groups, recipes, loaf contexts and what is in progress on them (chapter 8). -/
structure LoafState where
  groups : Tab Group
  sizing : Tab Sizing
  /-- recipes by GID × 2^16 + RECIPE_ID -/
  recipes : Tab Held
  /-- contexts by GID × 2^12 + PORTION: the context index of every slice (R283) -/
  contexts : Tab LoafCtx
  /-- reservations in order of arrival -/
  reservations : List Reservation
  opens : Tab OpenJob
  closes : Tab CloseJob
  /-- next OPEN_ID -/
  nextOpen : Nat
  /-- LOAF.KNEAD commands that disable units and wait: the caller and the units (R305) -/
  kneadJobs : List (Origin × List Nat)
  deriving DecidableEq, Repr

/-- No group defined. -/
def LoafState.reset : LoafState :=
  { groups := [], sizing := [], recipes := [], contexts := [], reservations := [], opens := [], closes := [],
    nextOpen := 0, kneadJobs := [] }

/-- A command that a mailbox has received and not yet answered (15 R492, R498). -/
structure Outstanding where
  seq : Nat
  opcode : Nat
  ordered : Bool
  cls : CredClass
  /-- reference time of receipt, and of the deadline's expiry -/
  received : Nat
  deadline : Nat
  body : List Byte
  stepsDone : Nat
  stepsTotal : Nat
  /-- a step of it runs on a control core -/
  running : Bool
  acceptedSent : Bool
  deriving DecidableEq, Repr

/-- A kept final response (15 R495). -/
structure KeptResponse where
  seq : Nat
  opcode : Nat
  status : Nat
  credits : Nat
  body : List Word
  deriving DecidableEq, Repr

/-- A command whose segments are arriving (15 R488, R489). -/
structure PartialMessage where
  seq : Nat
  opcode : Nat
  ordered : Bool
  deadline : Nat
  length : Nat
  cmajor : Nat
  cminor : Nat
  /-- received segments as (offset, bytes) -/
  segments : List (Nat × List Byte)
  session : Nat
  deriving DecidableEq, Repr

/-- One mailbox (15 15.4). -/
structure Mailbox where
  credit : Nat
  /-- tenant binding: PID and certificate fingerprint (R485) -/
  pid : Option Nat
  cert : Nat
  /-- the session that holds the mailbox (R494) -/
  session : Option Nat
  lastSeq : Option Nat
  outstanding : List Outstanding
  kept : List KeptResponse
  /-- responses that wait for a port of the network (R479) -/
  unsent : List KeptResponse
  assembling : List PartialMessage
  deriving DecidableEq, Repr

/-- The default credit of a mailbox (15 Table 15.4). -/
def defaultCredit (mb : Nat) : Nat := if 16 ≤ mb ∧ mb < 32 then 8 else 4

/-- A mailbox after a start: default credit, unbound, nothing outstanding. -/
def mailboxReset (mb : Nat) : Mailbox :=
  { credit := defaultCredit mb, pid := none, cert := 0, session := none, lastSeq := none, outstanding := [],
    kept := [], unsent := [], assembling := [] }

/-- The event queue of one event mailbox (15 R502, R503). -/
structure EventQueue where
  queue : List EventRec
  nextSeq : Nat
  /-- records discarded since the last one queued -/
  discarded : Nat
  /-- how many records at the front of the queue have been sent and not acknowledged -/
  inFlight : Nat
  /-- how many records at the front of the queue have ever been sent -/
  sent : Nat
  deriving DecidableEq, Repr

/-- An empty event queue. -/
def eventQueueReset (_ : Nat) : EventQueue := { queue := [], nextSeq := 0, discarded := 0, inFlight := 0, sent := 0 }

/-- A DTLS session (15 15.2). -/
structure Session where
  network : Nat
  cls : CredClass
  cert : Nat
  /-- the management port of the latest datagram, and the session's datagram limit -/
  port : Nat
  datagram : Nat
  deriving DecidableEq, Repr

/-- One management port (15 15.1). -/
structure MgmtPort where
  up : Bool
  lldp : List Byte
  deriving DecidableEq, Repr

/-- A management port down, with no LLDP frame received. -/
def mgmtPortReset (_ : Nat) : MgmtPort := { up := false, lldp := [] }

/-- Management networks, sessions, mailboxes and the dispatcher (chapter 15). -/
structure MgmtState where
  ports : Tab MgmtPort
  sessions : Tab Session
  nextSession : Nat
  mailboxes : Tab Mailbox
  events : Tab EventQueue
  /-- free control cores (R493) -/
  freeCores : Nat
  /-- the mailbox last served, by priority level (R493) -/
  roundRobin : List Nat
  /-- consecutive dispatches to higher priorities while a step of the level waits (R493) -/
  starved : List Nat
  deriving DecidableEq, Repr

/-- No session, nothing outstanding, four free cores. -/
def MgmtState.reset : MgmtState :=
  { ports := [], sessions := [], nextSession := 0, mailboxes := [], events := [], freeCores := 4,
    roundRobin := [0, 0, 0], starved := [0, 0, 0] }

/-- Neighbour reports (chapter 14). -/
structure FabState where
  /-- GENERATION of the neighbour report (R455) -/
  generation : Nat
  /-- a holdoff after a NEIGHBOUR_CHANGE event runs, and GENERATION when the event was raised -/
  holdoff : Bool
  told : Nat
  /-- LENGTH measured when the report last counted a change, by port -/
  measuredTold : Tab Nat
  /-- ports whose SID collision has been reported (R453) -/
  collided : List Nat
  deriving DecidableEq, Repr

/-- One replica of an expert (10 R345, R419). -/
structure Replica where
  address : Nat
  cap : Nat
  outstanding : Nat
  excluded : Bool
  deriving DecidableEq, Repr

/-- One slot of a routed token (10 R350, R353). -/
structure TokenSlot where
  expert : Nat
  gate : Nat
  /-- the replica chosen -/
  replica : Option Nat
  skipped : Bool
  /-- the cap wait of this slot has been counted -/
  waited : Bool
  /-- returned parts -/
  returned : Tab (List Byte)
  /-- the count of the replica still includes this slot -/
  counted : Bool
  deriving DecidableEq, Repr

/-- Where a token stands (10 10.5, 10.6). -/
inductive TokenPhase where
  | arriving | complete | batched | routed | dispatched
  deriving DecidableEq, Repr

/-- A token of a dispatch context. -/
structure Token where
  /-- SRC of the origin, its SPINE_SRC, TOKEN[31:2], and its ENTROPY -/
  origin : Nat
  originSpine : Bool
  ident : Nat
  entropy : Nat
  parts : Tab (List Byte)
  phase : TokenPhase
  slots : List TokenSlot
  /-- staging claimed; combined parts written -/
  claimed : Bool
  combined : List Nat
  deriving DecidableEq, Repr

/-- A dispatch context (10 10.5). -/
structure DispatchCtx where
  record : DispatchRec
  /-- replica lists and LAST, by expert -/
  replicas : Tab (List Replica)
  last : Tab Nat
  /-- tokens: arriving ones in order of arrival, complete ones in order of completion -/
  tokens : List Token
  /-- a MILL.CONTEXT that drains it waits, with the record to set -/
  draining : Option (Origin × DispatchRec)
  deriving DecidableEq, Repr

/-- A router weight set with where it came from (10 R346). -/
structure WeightSet where
  pid : Nat
  format : Nat
  d : Nat
  e : Nat
  region : Nat
  offset : Nat
  data : List Byte
  /-- a double-bit error has struck it, and it has not been reloaded (Table 10.7) -/
  bad : Bool
  deriving DecidableEq, Repr

/-- A closed router batch: its context, its tokens by (origin, TOKEN[31:2]), and the weight set as it was at close. -/
structure Batch where
  context : Nat
  tokens : List (Nat × Nat)
  weights : Option WeightSet
  deriving DecidableEq, Repr

/-- A Mill program in its slot (10 R341). -/
structure MillProgram where
  pid : Nat
  stale : Nat
  code : List (List Word)
  agds : List (List Word)
  counters : List Nat
  pc : Nat
  running : Bool
  /-- COPY instructions whose last write response is outstanding, by their words -/
  copies : List (List Word)
  deriving DecidableEq, Repr

/-- What the array works on (10 R343). -/
inductive MillWork where
  | batch (b : Batch)
  | instr (slot : Nat)
  deriving DecidableEq, Repr

/-- The Mill (chapter 10). -/
structure MillState where
  /-- pages allocated by owner, and operand SRAM bytes by owner × 2^27 + offset -/
  pages : Tab Nat
  sram : Tab Byte
  weights : Tab WeightSet
  contexts : Tab DispatchCtx
  programs : Tab MillProgram
  /-- closed batches, oldest first -/
  batches : List Batch
  work : Option MillWork
  /-- router batches in a row, and the slot served last -/
  runLength : Nat
  lastSlot : Nat
  /-- MILL.ENABLE commands that disable the Mill and wait -/
  disabling : List Origin
  deriving DecidableEq, Repr

/-- An empty Mill. -/
def MillState.reset : MillState :=
  { pages := [], sram := [], weights := [], contexts := [], programs := [], batches := [], work := none, runLength := 0,
    lastSlot := 15, disabling := [] }

/-- What a region is doing (11 Table 11.3). -/
inductive RegionPhase where
  | zeroing | ready | damaged | freeing
  deriving DecidableEq, Repr

/-- A region (11 Table 11.3). LOCKED is read from the loaded grist programs. -/
structure Region where
  kind : RegionKind
  encrypted : Bool
  epRead : Bool
  epWrite : Bool
  epPost : Bool
  pid : Nat
  keySlot : Nat
  /-- bit n set when it has extents on Gn -/
  stackSet : Nat
  phase : RegionPhase
  extents : Nat
  /-- a command named its stacks (12 R399) -/
  pinned : Bool
  deriving DecidableEq, Repr

/-- A region of the device itself, on all sixteen stacks (11 Table 11.2). -/
def ownRegion (kind : RegionKind) (extents : Nat) : Region :=
  { kind := kind, encrypted := false, epRead := false, epWrite := false, epPost := false, pid := 0, keySlot := 0,
    stackSet := 0xFFFF, phase := .ready, extents := extents, pinned := false }

/-- The firmware region and the crumb region. -/
def fixedRegions : Tab Region := [(0xFFF0, ownRegion .firmware 1024), (0xFFFF, ownRegion .crumb 2048)]

/-- An endpoint access in progress: the request, and for a READ what it sees (11 R372, R373). -/
structure Access where
  pkt : Packet
  data : List Byte
  deriving DecidableEq, Repr

/-- A mirror record (11 Table 11.8), with the size its owner named. -/
structure Mirror where
  owner : Nat
  /-- 0 FILLING, 1 COMPLETE, 2 DAMAGED, 3 REPLICA -/
  phase : Nat
  sid : Nat
  region : Nat
  generation : Nat
  prevSid : Nat
  prevRegion : Nat
  prevGeneration : Nat
  crc : Word
  replica : Nat
  size : Nat
  deriving DecidableEq, Repr

/-- A GRANARY.MIRROR_OPEN that asks its candidates (12 R415): those left, the one asked, and how many were asked. -/
structure MirrorAsk where
  origin : Origin
  pid : Nat
  shard : Nat
  owner : Nat
  tags : TagSet
  generation : Nat
  size : Nat
  replicas : List Nat
  left : List Nat
  asked : Nat
  count : Nat
  deriving DecidableEq, Repr

/-- A GRANARY.MIRROR_COMMIT whose read-back runs (11 R383). -/
structure MirrorCommit where
  origin : Origin
  key : Nat
  crc : Word
  deriving DecidableEq, Repr

/-- Channel states (11 Table 11.11). -/
inductive ChannelPhase where
  | idle | running | stopping | stopped | error
  deriving DecidableEq, Repr

/-- A request of a PUSH or PULL: its number within the descriptor, how often it was sent, whether it waits after a
NO_BUFFER reply, and whether it is answered for good. -/
structure DmaRequest where
  number : Nat
  sends : Nat
  refused : Bool
  answered : Bool
  deriving DecidableEq, Repr

/-- A descriptor in flight (11 R389): its index, the pieces moved so far by burst or request number, the pieces of a PULL
not yet written to the Granary, its requests, and its status once it has one. -/
structure InFlight where
  index : Nat
  desc : Descriptor
  pieces : Tab (List Byte)
  unwritten : List Nat
  requests : List DmaRequest
  status : Option Status
  deriving DecidableEq, Repr

/-- One DMA channel (11 11.7). -/
structure Channel where
  phase : ChannelPhase
  cfg : ChannelRec
  consumer : Nat
  /-- GB/s (Table 11.10) -/
  rate : Nat
  /-- descriptors completed since COUNT was written -/
  done : Nat
  flight : List InFlight
  /-- commands that wait for the channel to stop -/
  stopping : List Origin
  deriving DecidableEq, Repr

/-- The channel state words at reset (11 Table 11.11). -/
def channelRecReset : ChannelRec :=
  { enable := false, ringLog2 := 4, pid := 0, ringRegion := 0, ringOffset := 0, cplRegion := 0, cplOffset := 0,
    producer := 0, count := 0, stale := 1000000 }

/-- A channel at reset. -/
def channelReset (_ : Nat) : Channel :=
  { phase := .idle, cfg := channelRecReset, consumer := 0, rate := 100, done := 0, flight := [], stopping := [] }

/-- Grist program states (16 Table 16.8). -/
inductive GristPhase where
  | loaded | running | done | aborted
  deriving DecidableEq, Repr

/-- A chunk that is staged and not yet released: its entry, its packets, how many of them stand in the output pool, the
pool's source and cells (11 R377). -/
structure Chunk where
  entry : Nat
  packets : List Packet
  inPool : Nat
  source : Nat
  cells : Nat
  deriving DecidableEq, Repr

/-- A grist program in its slot (11 11.4). -/
structure Grist where
  params : GristParams
  entries : List GristEntry
  phase : GristPhase
  /-- the next entry to stage -/
  next : Nat
  staged : List Chunk
  lateCount : Nat
  deriving DecidableEq, Repr

/-- The Granary: regions, contents, errors, mirrors, DMA channels and grist programs (chapter 11). -/
structure GranState where
  regions : Tab Region
  /-- bytes by region × 2^48 + offset; an unlisted byte is 0, as cold start and zeroing leave it -/
  mem : Tab Byte
  /-- the key under which a line of region × 2^42 + line is stored; an unlisted line is stored in clear (R370) -/
  lineKeys : Tab Nat
  lostStacks : List Nat
  /-- spare extents by stack (R363) -/
  spares : Tab Nat
  /-- poisoned lines, and the reference time of each line's latest correction, as region × 2^42 + line -/
  poisoned : List Nat
  corrected : Tab Nat
  /-- extents being copied to a spare, as (region, stack, extent) -/
  retiring : List (Nat × Nat × Nat)
  /-- the line that the scrub reads next, over all stacks (R364) -/
  scrub : Nat
  writes : List Access
  reads : List Access
  /-- mirror records by PID × 2^32 + SHARD -/
  mirrors : Tab Mirror
  asks : Tab MirrorAsk
  nextAsk : Nat
  commits : List MirrorCommit
  channels : Tab Channel
  grists : Tab Grist
  /-- the command that disables the Granary and waits for its channels, and whether a grace time ran out -/
  disabling : Option (Origin × Bool)
  deriving DecidableEq, Repr

/-- The spares of a stack (11 R363). -/
def sparesReset (_ : Nat) : Nat := 256

/-- A zeroed Granary. -/
def GranState.reset : GranState :=
  { regions := fixedRegions, mem := [], lineKeys := [], lostStacks := [], spares := [], poisoned := [], corrected := [],
    retiring := [], scrub := 0, writes := [], reads := [], mirrors := [], asks := [], nextAsk := 0, commits := [],
    channels := [], grists := [], disabling := none }

/-- A snapshot that waits for its instant (19 R599). -/
structure Snapshot where
  origin : Origin
  at96 : Nat
  ids : List Nat
  deriving DecidableEq, Repr

/-- Counters, filters, crumbs, samples and the JTAG port (chapter 19). -/
structure TeleState where
  /-- event counters by counter ID; a counter at 2^64 − 1 has its OVF bit set (R591) -/
  counters : Tab Nat
  filters : Tab FilterRec
  /-- crumb records that wait for DMA channel 3, oldest first (R603) -/
  crumbQueue : List CrumbRec
  /-- records were dropped since the last one written -/
  crumbLost : Bool
  /-- CRUMB.TRACE: categories, PID_MATCH and PID (R602) -/
  traceCategories : Nat
  tracePid : Option Nat
  /-- sample records that wait to be written: the record's words and captured bytes (R605) -/
  sampleQueue : List (List Word × List Byte)
  /-- samples written since the latest SAMPLE_READY, and whether its holdoff runs -/
  sampleNew : Bool
  sampleHoldoff : Bool
  snapshots : List Snapshot
  /-- the TAP's instruction (R606) -/
  jtag : Nat
  /-- dump number of the next dump (17 R561) -/
  dumpSeq : Nat
  deriving DecidableEq, Repr

/-- Every counter 0, no filter, IDCODE selected. -/
def TeleState.reset : TeleState :=
  { counters := [], filters := [], crumbQueue := [], crumbLost := false, traceCategories := 0, tracePid := none,
    sampleQueue := [], sampleNew := false, sampleHoldoff := false, snapshots := [], jtag := 2, dumpSeq := 0 }

/-- The latest SUMMARY of a spine (12 Table 12.5), with its reference time of arrival. -/
structure Summary where
  staging : Nat
  contexts : Nat
  extents : Nat
  load : Nat
  arrival : Nat
  deriving DecidableEq, Repr

/-- A decision record (12 Table 12.6). -/
structure Decision where
  dtype : Nat
  pid : Nat
  seq : Nat
  time : Nat
  subject : Word
  result : Word
  detail : Word
  reason : Nat
  deriving DecidableEq, Repr

/-- The default policy record (12 Table 12.2). -/
def policyReset (_ : Nat) : Policy :=
  { isolate := false, diversity := 0xE, stackMask := 0xFFFF, kneadMask := 2 ^ 64 - 1, spines := [] }

/-- The default crust mask (12 Table 12.4). -/
def crustMaskReset (_ : Nat) : CrustMask := { enable := false, maxLanes := 0, pairs := 0, setUp := 150, tearDown := 50 }

/-- No tag is known. -/
def tagsReset (_ : Nat) : TagSet := { tray := 0, powerShelf := 0, coolingLoop := 0, switch := 0 }

/-- Winnow: policies, tags, masks, pins, measurements, the log (chapter 12). -/
structure WinnowState where
  policies : Tab Policy
  /-- tag sets by KIND × 2^20 + identifier (16 Table 16.9) -/
  tags : Tab TagSet
  crustMasks : Tab CrustMask
  /-- pinned crust pairs as engine × 64 + 8 × i + j with i < j -/
  crustPins : List Nat
  /-- pinned replica by context × 1024 + expert -/
  replicaPins : Tab Nat
  /-- bytes in the window by engine × 64 + 8 × i + j (R409) -/
  traffic : Tab Nat
  /-- windows in a row below CRUST_OFF, by the key of a pin -/
  lowWindows : Tab Nat
  /-- summaries by SID -/
  summaries : Tab Summary
  /-- KNEAD_LOAD of the last 10 ms, as measured at the latest summary -/
  load : Nat
  /-- the newest 65,536 decision records, oldest first, and the next SEQ -/
  log : List Decision
  nextSeq : Nat
  deriving DecidableEq, Repr

/-- Defaults, nothing measured. -/
def WinnowState.reset : WinnowState :=
  { policies := [], tags := [], crustMasks := [], crustPins := [], replicaPins := [], traffic := [], lowWindows := [],
    summaries := [], load := 0, log := [], nextSeq := 0 }

/-- A reset that escalation asks for or that is in progress (17 17.4). -/
structure Escalation where
  level : Nat
  /-- SCOPE as the dump header gives it: island, engine TYPE, INDEX -/
  scope : Nat
  trigger : Nat
  args : List Nat
  /-- the reset has begun and its scope has not returned to service -/
  active : Bool
  deriving DecidableEq, Repr

/-- Escalation: what is asked for, and when the levels acted (17 R551, R556). -/
structure RstState where
  asked : List Escalation
  /-- reference times of L2 per engine scope, L3 per scope, and L4 -/
  l2Times : Tab (List Nat)
  l3Times : Tab (List Nat)
  l4Times : List Nat
  deriving DecidableEq, Repr

/-- Elapsed reference time and device time (13 R428, R429). -/
structure ClockState where
  /-- elapsed reference time in ns -/
  ref : Nat
  /-- device time: SECONDS × 10^9 + NANOSECONDS, in units of 2^-16 ns -/
  dev : Nat
  /-- the rate correction ρ, in units of 2^-48 (DESIGN CHOICE of unit, log 6) -/
  rho : Int
  deriving DecidableEq, Repr

/-- A key session (18 R575). -/
structure KeySession where
  pid : Nat
  sk : Nat
  /-- highest COUNTER accepted (R577) -/
  counter : Option Nat
  deriving DecidableEq, Repr

/-- A link key slot: its binding and, when loaded, its keys (18 18.3, 18.4). -/
structure LinkSlot where
  port : Nat
  rx : Bool
  pid : Nat
  /-- RK as a number, and whether its port has left DOWN since it was loaded -/
  rk : Option Nat
  /-- INSTANCE of a transmit slot, LAST of a receive slot -/
  inst : Nat
  /-- the traffic key in force -/
  tk : Option Nat
  /-- receive slots: encrypted packets dropped since the port left DOWN with no instance found -/
  misses : Nat
  deriving DecidableEq, Repr

/-- A region key slot (18 R576, R577). -/
structure RegionSlot where
  region : Nat
  pid : Nat
  xk : Option Nat
  deriving DecidableEq, Repr

/-- The states of a proposal (18 Table 18.7). -/
inductive ProposalState where
  | pending | applied | expired | withdrawn | rejected | failed
  deriving DecidableEq, Repr

/-- A proposal (18 Table 18.7) with its staged body. -/
structure Proposal where
  opcode : Nat
  state : ProposalState
  opApproved : Bool
  pgApproved : Bool
  origin : Origin
  pid : Nat
  finalStatus : Nat
  created : Nat
  expiry : Nat
  nonce : Nat
  bodyDigest : Nat
  bodyLen : Nat
  staged : Staged
  deriving DecidableEq, Repr

/-- Identity, keys, proposals and debug (chapter 18). -/
structure SecState where
  sessions : Tab KeySession
  nextKeySession : Nat
  linkSlots : Tab LinkSlot
  regionSlots : Tab RegionSlot
  proposals : Tab Proposal
  nextProposal : Nat
  /-- the unlocked debug scope mask, 0 while locked (R588, R589) -/
  unlocked : Nat
  deriving DecidableEq, Repr

/-- The state of the device, and the queue of commands that wait. -/
structure State where
  /-- the module's supply, signals, telemetry and throttling (chapter 20) -/
  power : PowerState
  /-- starts, flash, configuration store (chapter 17) -/
  start : StartState
  /-- islands, crossings and registers (chapter 1) -/
  ctl : CtlState
  /-- rings, laser bays, eye safety and crust circuits (chapter 2) -/
  opt : OptState
  /-- fabric time (chapter 13) -/
  time : TimeState
  /-- lanes and ports (chapter 3) -/
  link : LinkState
  /-- the shared buffer and its queues (chapter 5) -/
  buf : BufState
  /-- routing tables (chapter 6) -/
  tbl : TblState
  /-- scheduling and budgets (chapter 7) -/
  sched : SchedState
  /-- groups, recipes and loaf contexts (chapters 8 and 9) -/
  loaf : LoafState
  /-- management ports, sessions, mailboxes, events (chapter 15) -/
  mgmt : MgmtState
  /-- neighbour reports (chapter 14) -/
  fab : FabState
  /-- the Mill and expert routing (chapter 10) -/
  mill : MillState
  /-- the Granary, its mirrors, DMA channels and grist programs (chapter 11) -/
  gran : GranState
  /-- counters, crumbs, samples, JTAG (chapter 19) -/
  tele : TeleState
  /-- placement: policies, tags, masks, pins, log (chapter 12) -/
  winnow : WinnowState
  /-- escalation in progress (chapter 17) -/
  rst : RstState
  /-- elapsed reference time and device time (chapter 13) -/
  clk : ClockState
  /-- the model's own counter: the argument of the next free value -/
  free : Nat
  /-- what the device has emitted, oldest first: the model's own record -/
  out : List Out
  /-- keys, proposals, debug (chapter 18) -/
  sec : SecState
  /-- the commands that wait, first in, first out -/
  pending : List Instr
  deriving DecidableEq, Repr

/-- The device without power: every field as the spec gives it at reset, or as the assumption log names it. -/
def State.reset : State :=
  {
    power := PowerState.reset
    start := StartState.reset
    ctl := CtlState.reset
    opt := OptState.reset
    time := TimeState.reset
    link := { lanes := [], ports := [] }
    buf := { packets := [], nextPkt := 0, queues := [], drr := [], headroom := [], sharedQ := [], sharedUsed := 0, badCells := 0, kneadUsed := [], computeUsed := 0, controlUsed := 0, waiting := [], entries := [], huskMoving := [], fwIn := [], fwOut := [], consumers := [], replicate := [], injPaused := [], e2e := [], lastSent := [] }
    tbl := { slices := [], rootPriority := 128 }
    sched := { scheds := [], shapers := [], lossyGates := [], markers := [], queueSets := [], profiles := [], budgets := budgetDefaults, nextBudgets := none, gates := [], lentPool := [], c0Event := [], c0Meters := [] }
    loaf := LoafState.reset
    mgmt := MgmtState.reset
    fab := { generation := 0, holdoff := false, told := 0, measuredTold := [], collided := [] }
    mill := MillState.reset
    gran := GranState.reset
    tele := TeleState.reset
    winnow := WinnowState.reset
    rst := { asked := [], l2Times := [], l3Times := [], l4Times := [] }
    clk := { ref := 0, dev := 0, rho := 0 }
    free := 0
    out := []
    sec := { sessions := [], nextKeySession := 1, linkSlots := [], regionSlots := [], proposals := [], nextProposal := 1, unlocked := 0 }
    pending := [] }

end Sys2Proof.Machine
end

