-- ==== Sys2Proof/Machine/Tab.lean ====
section
/-! DEFINITION. Operations on sparse tables. A partial table lists what is present; a total table leaves out every
entry that equals the default of its key, so that equal tables are equal data. -/

namespace Sys2Proof.Machine

/-- The entry at a key, if one is listed. -/
def tabGet? {α : Type} : Tab α → Nat → Option α
  | [], _ => none
  | (k, v) :: t, n => if n = k then some v else if n < k then none else tabGet? t n

/-- Write an entry, keeping the keys strictly rising. -/
def tabPut {α : Type} : Tab α → Nat → α → Tab α
  | [], n, x => [(n, x)]
  | (k, v) :: t, n, x =>
    if n = k then (n, x) :: t else if n < k then (n, x) :: (k, v) :: t else (k, v) :: tabPut t n x

/-- Remove the entry of a key. -/
def tabDel {α : Type} : Tab α → Nat → Tab α
  | [], _ => []
  | (k, v) :: t, n => if n = k then t else if n < k then (k, v) :: t else (k, v) :: tabDel t n

/-- Read a total table whose unlisted entries hold `d` of their key. -/
def tabGet {α : Type} (d : Nat → α) (t : Tab α) (n : Nat) : α := (tabGet? t n).getD (d n)

/-- Write a total table: a value equal to the default of its key removes the entry. -/
def tabSet {α : Type} [DecidableEq α] (d : Nat → α) (t : Tab α) (n : Nat) (x : α) : Tab α :=
  if x = d n then tabDel t n else tabPut t n x

/-- Change one entry of a total table. -/
def tabMod {α : Type} [DecidableEq α] (d : Nat → α) (f : α → α) (t : Tab α) (n : Nat) : Tab α :=
  tabSet d t n (f (tabGet d t n))

/-- Change every listed key of a list of keys. -/
def tabModAll {α : Type} [DecidableEq α] (d : Nat → α) (f : Nat → α → α) (ks : List Nat) (t : Tab α) : Tab α :=
  ks.foldl (fun t k => tabMod d (f k) t k) t

/-- Keep the entries that a test accepts. -/
def tabFilter {α : Type} (p : Nat → α → Bool) (t : Tab α) : Tab α := t.filter (fun e => p e.1 e.2)

/-- Map the listed entries of a partial table. -/
def tabMap {α : Type} (f : Nat → α → α) (t : Tab α) : Tab α := t.map (fun e => (e.1, f e.1 e.2))

/-- Map the listed entries of a total table. -/
def tabRemap {α : Type} [DecidableEq α] (d : Nat → α) (f : Nat → α → α) (t : Tab α) : Tab α :=
  t.foldl (fun u e => tabSet d u e.1 (f e.1 e.2)) t

/-- The keys rise strictly from a bound on. -/
def tabRisesFrom {α : Type} : Nat → Tab α → Bool
  | _, [] => true
  | b, (k, _) :: t => decide (b ≤ k) && tabRisesFrom (k + 1) t

/-- The canonical form of a partial table: keys strictly rising. -/
def tabWf {α : Type} (t : Tab α) : Bool := tabRisesFrom 0 t

/-- The canonical form of a total table: keys strictly rising and no entry equal to its default. -/
def tabTotalWf {α : Type} [DecidableEq α] (d : Nat → α) (t : Tab α) : Bool :=
  tabWf t && t.all (fun e => decide (e.2 ≠ d e.1))

/-- Update the element at an index of a list; nothing past its end. -/
def listMod {α : Type} (f : α → α) (n : Nat) (l : List α) : List α := l.modify n f

/-- Set the element at an index of a list. -/
def listSet {α : Type} (x : α) (n : Nat) (l : List α) : List α := l.set n x

end Sys2Proof.Machine
end

