-- ==== Sys2Proof/Machine/Ops.lean ====
section
/-! DEFINITION. The named operations over the state that every family uses: time, islands, ports, counters, events,
crumbs, mailboxes and the life of a command. -/

namespace Sys2Proof.Machine

/-- The outcome of an event on a unit: its effect when the unit exists, else a fault. -/
def onUnit (ok : Bool) (t : State) : Host.Outcome State Fault Refusal := if ok then .next t else .fault .noSuchUnit

/-! ## Time (13 R425, R426) -/

/-- Nanoseconds of a device time. -/
def devNs (t : Nat) : Nat := t / 65536

/-- The 96-bit T96 of a device time: SECONDS, NANOSECONDS, FRACTION. -/
def t96Of (t : Nat) : Nat := devNs t / 1000000000 * 2 ^ 48 + devNs t % 1000000000 * 2 ^ 16 + t % 65536

/-- The truncated time of a device time, in 2 ns units. -/
def t32Of (t : Nat) : Nat := devNs t / 2 % 2 ^ 32

/-- The three words of a T96. -/
def t96Words (t : Nat) : List Word := natWords 3 (t96Of t)

def now96 (s : State) : Nat := t96Of s.clk.dev
def now32 (s : State) : Nat := t32Of s.clk.dev

/-- Elapsed reference time in ns (13 R429). -/
def nowRef (s : State) : Nat := s.clk.ref

/-- A free value: the counter it is drawn with, and the state with the counter advanced. -/
def drawFree (s : State) : Nat × State := (s.free, { s with free := s.free + 1 })

/-- A seed of a generator: 1 to 2^32 − 1, from a draw of the entropy source (05 R186). -/
def seedOf (k : Nat) : Word := BitVec.ofNat 32 (1 + Config.entropy k % (2 ^ 32 - 1))

/-- Emit something. -/
def emit (o : Out) (s : State) : State := { s with out := s.out ++ [o] }

/-! ## Islands and units (01 R22; 00 Table 0.4) -/

/-- The assigned island IDs. -/
def islandIds : List Nat :=
  [0x00, 0x01] ++ (List.range 8).map (· + 0x08) ++ (List.range 32).map (· + 0x10) ++ (List.range 8).map (· + 0x30) ++
    [0x38] ++ (List.range 16).map (· + 0x40) ++ (List.range 8).map (· + 0x50)

def islandKnown (i : Nat) : Bool := islandIds.contains i

def island (s : State) (i : Nat) : IslandState := tabGet islandReset s.ctl.islands i

def modIsland (i : Nat) (f : IslandState → IslandState) (s : State) : State :=
  { s with ctl := { s.ctl with islands := tabMod islandReset f s.ctl.islands i } }

/-- Lane n's engine and cluster, its slice, its fibre and its colour (00 Table 0.4). -/
def laneEngine (l : Nat) : Nat := l / 64
def laneSlice (l : Nat) : Nat := l / 256
def laneFibre (l : Nat) : Nat := l / 8 % 8
def laneColour (l : Nat) : Nat := l % 8

/-- The lane of an engine, fibre and colour (02 R39). -/
def laneOf (e f k : Nat) : Nat := 64 * e + 8 * f + k

def laneKnown (l : Nat) : Bool := decide (l < 2048)

def lane (s : State) (l : Nat) : Lane := tabGet laneReset s.link.lanes l

def modLane (l : Nat) (f : Lane → Lane) (s : State) : State :=
  { s with link := { s.link with lanes := tabMod laneReset f s.link.lanes l } }

def port (s : State) (p : Nat) : Port := tabGet portReset s.link.ports p

def modPort (p : Nat) (f : Port → Port) (s : State) : State :=
  { s with link := { s.link with ports := tabMod portReset f s.link.ports p } }

/-- A number is a port's lowest lane under its present width (16 R521). -/
def portKnown (s : State) (p : Nat) : Bool := decide (p < 2048) && decide (0 < (port s p).width)

/-- The configured lanes of a port (03 R85). -/
def portLanes (s : State) (p : Nat) : List Nat := (List.range (port s p).width).map (p + ·)

/-- Every configured port, in ascending number. -/
def allPorts (s : State) : List Nat := (List.range 2048).filter (fun p => decide (0 < (port s p).width))

/-- The port that holds a lane: the configured port whose lanes include it (03 R85). -/
def portOfLane (s : State) (l : Nat) : Option Nat :=
  [l, l / 2 * 2, l / 4 * 4, l / 8 * 8].find? (fun p => decide (p + (port s p).width > l))

/-- The joined lanes of a port, in ascending order (03 R87). -/
def joinedLanes (s : State) (p : Nat) : List Nat :=
  (portLanes s p).filter (fun l => (lane s l).phase == .joined)

/-- Lanes of a port in READY or JOINED. -/
def readyLanes (s : State) (p : Nat) : List Nat :=
  (portLanes s p).filter (fun l => (lane s l).phase == .ready || (lane s l).phase == .joined)

def slice (s : State) (n : Nat) : Slice := tabGet sliceReset s.tbl.slices n

def modSlice (n : Nat) (f : Slice → Slice) (s : State) : State :=
  { s with tbl := { s.tbl with slices := tabMod sliceReset f s.tbl.slices n } }

def partEntry (sl : Slice) (pid : Nat) : PartEntry := tabGet partReset sl.parts pid

/-- The partition entry that firmware reads: that of slice S0, since TABLE.PARTITION writes all slices (14 R463). -/
def partition (s : State) (pid : Nat) : PartEntry := partEntry (slice s 0) pid

/-- This spine's SID (14 R451). -/
def ownSid (s : State) : Option Nat := s.start.cfg.sid

/-! ## Counters (19 R590 to R594) -/

/-- A counter ID. -/
def counterId (isl blk idx : Nat) : Nat := isl * 2 ^ 24 + blk * 2 ^ 16 + idx

/-- The value at which a counter saturates. -/
def counterMax : Nat := 2 ^ 64 - 1

def counter (s : State) (id : Nat) : Nat := tabGet (fun _ => 0) s.tele.counters id

/-- Increment without the event of R591. -/
def countQuiet (id n : Nat) (s : State) : State :=
  let c := tabSet (fun _ => 0) s.tele.counters id (Nat.min counterMax (counter s id + n))
  { s with tele := { s.tele with counters := c } }

/-! ## START_STATUS changes (17 R566) -/

/-- The phase code of START_STATUS. -/
def phaseCode : Phase → Nat
  | .reset => 0 | .cold => 1 | .warm => 2 | .running => 3 | .recovery => 4 | .cycleHold => 5 | .cycleRequested => 6
  | .test => 7

/-- START_STATUS (17 Table 17.15). -/
def startStatus (s : State) : Word :=
  wordOf [at_ 31 28 (phaseCode s.start.phase), at_ 27 24 s.start.step, at_ 23 21 s.start.lastLevel,
    at_ 20 19 s.start.cfg.attempts, at_ 18 18 (bit s.start.dumpValid), at_ 17 17 (bit s.start.cfg.sid.isSome),
    at_ 16 16 (bit s.start.flashWrite.isSome), at_ 15 0 s.start.cfg.starts]

/-- Drive ALERT_N low when START_STATUS has changed since an earlier state. -/
def alertOf (before after : State) : State :=
  if startStatus before = startStatus after then after else { after with power := { after.power with alert := true } }

/-- Change the start state, with ALERT_N following START_STATUS. -/
def modStart (f : StartState → StartState) (s : State) : State := alertOf s { s with start := f s.start }

/-- Start writing the configuration: the copy of lower generation is invalid until the write ends (20 R628). While an
image is being written, the change waits for its end. -/
def beginStoreWrite (st : StartState) : StartState :=
  match st.flashWrite with
  | some (.image _ _) => st
  | _ =>
    if st.copyA.valid && (!st.copyB.valid || decide (st.copyB.generation ≤ st.copyA.generation)) then
      { st with copyB := { st.copyB with valid := false }, flashWrite := some (.copy true) }
    else { st with copyA := { st.copyA with valid := false }, flashWrite := some (.copy false) }

/-- A copy of the configuration in use, of the next generation. -/
def freshCopy (st : StartState) : StoreCopy :=
  { generation := Nat.max st.copyA.generation st.copyB.generation + 1, valid := true, body := st.cfg }

/-- The flash write in progress ends: the copy holds the configuration in use, or the image area the image; a change that
waited for an image begins its own write (17 R549; 20 R628). -/
def completeWrite (st : StartState) : StartState :=
  match st.flashWrite with
  | some (.copy true) => { st with copyB := freshCopy st, flashWrite := none }
  | some (.copy false) => { st with copyA := freshCopy st, flashWrite := none }
  | some (.image img _) =>
    let st1 := { st with flashImage := some img, flashWrite := none }
    if (st.copyA.valid && st.copyA.body == st.cfg) || (st.copyB.valid && st.copyB.body == st.cfg) then st1
    else beginStoreWrite st1
  | none => st

/-- The configuration that a start uses: the valid copy of higher generation (20 R628). -/
def storedConfig (st : StartState) : ConfigStore :=
  if st.copyA.valid && (!st.copyB.valid || decide (st.copyB.generation ≤ st.copyA.generation)) then st.copyA.body
  else if st.copyB.valid then st.copyB.body
  else ConfigStore.reset

/-- A flash write is cut off by loss of power or MOD_RST_N: a configuration change is lost alone, an image write leaves no
valid image (17 R549; 20 R628). -/
def cutWrite (st : StartState) : StartState :=
  let st1 := match st.flashWrite with
    | some (.image _ _) => { st with flashImage := none, flashWrite := none }
    | _ => { st with flashWrite := none }
  { st1 with cfg := storedConfig st1 }

/-- Change the configuration store: the change is in force at once and its write to flash begins (17 R549). -/
def modConfig (f : ConfigStore → ConfigStore) (s : State) : State :=
  modStart (fun st => beginStoreWrite { st with cfg := f st.cfg }) s

/-- A level has acted: LAST_LEVEL keeps the highest since the last cold start (17 Table 17.15). -/
def noteLevel (lvl : Nat) (s : State) : State := modStart (fun st => { st with lastLevel := Nat.max st.lastLevel lvl }) s

/-! ## Crumb records (19 R601 to R603) -/

/-- The capacity of each resource in a proof period (07 Table 7.4). -/
def resourceCapacity : List Nat := [157286400, 204800, 13107, 32768]

/-- The depth of a throttle stage, 1 to 4 (20 R630). -/
def throttleDepth (s : State) (stage : Nat) : Nat := s.power.depth.getD (stage - 1) 0

/-- The allowance of an activity on a resource in a proof period (07 R255). Stage 2 of throttling scales the Granary
allowances of firmware DMA, sampling, scrub and Mill input and output (20 Table 20.11). -/
def allowance (s : State) (act res : Nat) : Nat :=
  let full := ((s.sched.budgets.getD act ⟨[], false⟩).shares.getD res 0) * resourceCapacity.getD res 0 / 1024
  if res = 0 ∧ (act = 4 ∨ act = 6 ∨ act = 7 ∨ act = 8) then full * (16 - throttleDepth s 2) / 16 else full

def gate (s : State) (act res : Nat) : Gate := tabGet gateReset s.sched.gates (act * 4 + res)

def modGate (act res : Nat) (f : Gate → Gate) (s : State) : State :=
  { s with sched := { s.sched with gates := tabMod gateReset f s.sched.gates (act * 4 + res) } }

/-- An activity may start an operation: its use is below its allowance, less the last period's overdraw and what it has
lent, plus what it has borrowed (07 R257). -/
def gateOpen (s : State) (act res : Nat) : Bool :=
  let g := gate s act res
  decide (g.used + g.overdraw + g.lent < allowance s act res + g.borrowed)

/-- An activity starts an operation of a size on a resource. -/
def spend (act res n : Nat) (s : State) : State := modGate act res (fun g => { g with used := g.used + n }) s

/-- Lent allowance of a resource that nobody has borrowed yet (07 R258). -/
def lentLeft (s : State) (res : Nat) : Nat := tabGet (fun _ => 0) s.sched.lentPool res

/-- An activity may start an operation: within its own allowance, or on what others lend. -/
def mayStart (s : State) (act res : Nat) : Bool := gateOpen s act res || decide (0 < lentLeft s res)

/-- Start an operation of a size, borrowing first when the own allowance is spent (07 R257, R258). -/
def startWork (act res n : Nat) (s : State) : State :=
  if gateOpen s act res then spend act res n s
  else
    let b := Nat.min n (lentLeft s res)
    spend act res n (modGate act res (fun g => { g with borrowed := g.borrowed + b })
      { s with sched := { s.sched with lentPool := tabMod (fun _ => 0) (· - b) s.sched.lentPool res } })

/-- Remove the newest optional record of a queue. -/
def dropNewestOptional (q : List CrumbRec) : Option (List CrumbRec) :=
  let r := q.reverse
  match r.findIdx? (fun c => !c.mandatory) with
  | some i => some (r.eraseIdx i).reverse
  | none => none

def crumbDropped (s : State) : State :=
  countQuiet (counterId 0 3 1) 1 { s with tele := { s.tele with crumbLost := true } }

/-- Hand a crumb record to the queue of DMA channel 3, or while no stack is trained to the log of the boot ROM and the
loader (R545, R603). -/
def pushCrumb (c : CrumbRec) (s : State) : State :=
  if !s.start.stacksTrained then { s with start := { s.start with recoveryLog := s.start.recoveryLog ++ [c] } }
  else if c.mandatory then
    if s.tele.crumbQueue.length < 4096 then
      { s with tele := { s.tele with crumbQueue := s.tele.crumbQueue ++ [c] } }
    else
      match dropNewestOptional s.tele.crumbQueue with
      | some q => crumbDropped { s with tele := { s.tele with crumbQueue := q ++ [c] } }
      | none => crumbDropped s
  else if !mayStart s 5 0 || decide (2048 ≤ s.tele.crumbQueue.length) then crumbDropped s
  else { s with tele := { s.tele with crumbQueue := s.tele.crumbQueue ++ [c] } }

/-- A mandatory record (R602). -/
def crumb (code pid arg0 arg1 : Nat) (s : State) : State :=
  pushCrumb ⟨code, 0, 0, pid, true, now96 s, arg0, arg1⟩ s

/-- An optional record of a trace category (R602). -/
def traceCrumb (cat code pid arg0 arg1 : Nat) (s : State) : State :=
  if testBitN s.tele.traceCategories cat && (s.tele.tracePid == none || s.tele.tracePid == some pid) then
    pushCrumb ⟨code, 0, 0, pid, false, now96 s, arg0, arg1⟩ s
  else s

/-- The record of a staleness expiry, by object type and identifier; all but those of a queue or a port act at L1
(R550, Table 19.5; 17 Table 17.9). -/
def staleCrumb (objType ident pid : Nat) (s : State) : State :=
  crumb 0xF001 pid objType ident (if objType < 6 then noteLevel 1 s else s)

/-- The record of a work item ended by a grace time (R564, Table 19.5). -/
def graceCrumb (objType ident pid : Nat) (s : State) : State := crumb 0xF004 pid objType ident s

/-! ## Mailboxes and events (15 15.4, 15.6; 19 R600) -/

def mailbox (s : State) (mb : Nat) : Mailbox := tabGet mailboxReset s.mgmt.mailboxes mb

def modMailbox (mb : Nat) (f : Mailbox → Mailbox) (s : State) : State :=
  { s with mgmt := { s.mgmt with mailboxes := tabMod mailboxReset f s.mgmt.mailboxes mb } }

def eventQueue (s : State) (mb : Nat) : EventQueue := tabGet eventQueueReset s.mgmt.events mb

def modEventQueue (mb : Nat) (f : EventQueue → EventQueue) (s : State) : State :=
  { s with mgmt := { s.mgmt with events := tabMod eventQueueReset f s.mgmt.events mb } }

/-- The event mailbox of a partition: the highest-numbered mailbox of MB32 to MB63 bound to it (R491). -/
def ownerMailbox (s : State) (pid : Nat) : Option Nat :=
  ((List.range 32).map (63 - ·)).find? (fun mb => (mailbox s mb).pid == some pid)

/-- Queue one record at one event mailbox (R502). -/
def queueEvent (mb : Nat) (r : EventRec) (s : State) : State :=
  let q := eventQueue s mb
  if q.queue.length < 1024 then
    let rec1 := { r with
      lost := decide (0 < q.discarded), lostCount := Nat.min 0xFFFF q.discarded, seq := q.nextSeq }
    modEventQueue mb (fun q => { q with queue := q.queue ++ [rec1], nextSeq := (q.nextSeq + 1) % 2 ^ 32, discarded := 0 }) s
  else
    countQuiet (counterId 0 1 (16 * mb + 6)) 1 (modEventQueue mb (fun q => { q with discarded := q.discarded + 1 }) s)

/-- The severity of an event code (19 Table 19.4). -/
def severityOf (code : Nat) : Nat :=
  if [0x0002, 0x0105, 0x0204, 0x0205, 0x0301, 0x0302, 0x0701, 0x0704, 0x0902].contains code then 3
  else if [0x0101, 0x0103, 0x0203, 0x0207, 0x0401, 0x0402, 0x0705, 0x0A01].contains code then 2
  else if code = 0x0903 then 4
  else if [0x0001, 0x0206, 0x0601, 0x0702, 0x0703, 0x0A02].contains code then 0
  else 1

/-- Raise an event at given mailboxes: one record each, and one mandatory crumb record (R600). -/
def raiseAt (mbs : List Nat) (code pid : Nat) (args : List Nat) (s : State) : State :=
  let r : EventRec := ⟨code, severityOf code, 0, 0, false, 0, 0, now96 s, pid, args⟩
  crumb code pid (args.getD 0 0) (args.getD 1 0) ((distinct mbs).foldl (fun s mb => queueEvent mb r s) s)

/-- Raise an event of the fabric at MB15, MB31 or both (19 Table 19.4). -/
def raise15 (code : Nat) (args : List Nat) (s : State) : State := raiseAt [15] code 0 args s
def raise31 (code : Nat) (args : List Nat) (s : State) : State := raiseAt [31] code 0 args s
def raiseBoth (code : Nat) (args : List Nat) (s : State) : State := raiseAt [15, 31] code 0 args s

/-- Raise an event for a partition's owner beside other mailboxes. A partition with no bound mailbox sends it to MB31
only, without its ARG words when it is protected (15 R491). -/
def raiseOwner (others : List Nat) (code pid : Nat) (args : List Nat) (s : State) : State :=
  match ownerMailbox s pid with
  | some mb => raiseAt (mb :: others) code pid args s
  | none => raiseAt [31] code pid (if (partition s pid).isProtected then [] else args) s

/-- Increment a counter, with the event of its first saturation (19 R591). -/
def count (id n : Nat) (s : State) : State :=
  if counter s id < counterMax ∧ counterMax ≤ counter s id + n then
    raiseBoth 0x0A01 [id] (countQuiet id n s)
  else countQuiet id n s

/-- Count a drop against a port by reason (04 R152, 19 Table 19.1). -/
def countDrop (p code : Nat) (s : State) : State := count (counterId (0x08 + p / 256) 1 (64 * (p % 256) + code)) 1 s

/-- Count an item of a lane, of a port, of a slice, of the control island's block 0x03. -/
def countLane (l item : Nat) (s : State) : State := count (counterId (0x10 + l / 64) 1 (16 * (l % 64) + item)) 1 s
def countPort (p item n : Nat) (s : State) : State := count (counterId (0x10 + p / 64) 2 (32 * (p % 64) + item)) n s
def countQueue (p cls item n : Nat) (s : State) : State :=
  count (counterId (0x08 + p / 256) 2 (64 * (p % 256) + 8 * cls + item)) n s
def countSlice (sl item : Nat) (s : State) : State := count (counterId (0x08 + sl) 3 item) 1 s
def countControl (item : Nat) (s : State) : State := count (counterId 0 3 item) 1 s
def countMgmt (p item : Nat) (s : State) : State := count (counterId 0 2 (16 * p + item)) 1 s
def countMailbox (mb item : Nat) (s : State) : State := count (counterId 0 1 (16 * mb + item)) 1 s

/-! ## Commands (15 15.5; 16 16.1) -/

/-- The code of a status (16 R512). -/
def statusCode : Status → Nat
  | .ok => 0 | .accepted => 1 | .busy => 2 | .budget => 3 | .denied => 4 | .unsupported => 5 | .invalid => 6
  | .timeout => 7 | .aborted => 8 | .quorumPending => 9 | .notReady => 10 | .conflict => 11 | .epoch => 12
  | .resource => 13 | .internal => 15

/-- The ISSUERS bit of a class (15 R508). -/
def classBit : CredClass → Nat
  | .operator => 0 | .operatorSecurity => 1 | .fabricManager => 2 | .programmeSecurity => 3 | .tenant => 4

def isTenant (o : Origin) : Bool := o.cls == .tenant

/-- A mailbox is open to a credential: its range is the class's, and a tenant mailbox is bound to the caller's
certificate (15 R490, R485, Table 15.1). -/
def mailboxOpen (o : Origin) (s : State) : Bool :=
  match o.cls with
  | .operator | .operatorSecurity => decide (o.mailbox < 16)
  | .fabricManager | .programmeSecurity => decide (16 ≤ o.mailbox) && decide (o.mailbox < 32)
  | .tenant => decide (32 ≤ o.mailbox) && decide (o.mailbox < 64) && (mailbox s o.mailbox).pid.isSome &&
      (mailbox s o.mailbox).cert == o.cert

/-- The device serves the commands of R519 alone: recovery mode, and the hold of L5 (16 R519, 17 R560). -/
def recoveryOnly (s : State) : Bool := s.start.phase == .recovery || s.start.phase == .cycleHold

/-- The device takes commands at all. -/
def listening (s : State) : Bool := s.start.phase == .running || recoveryOnly s

/-- The LOAF, MILL, GRANARY and GRIST commands, which a spine without an SID does not serve (14 R451). -/
def needsSid (op : Nat) : Bool := decide (5 ≤ op / 256) && decide (op / 256 ≤ 8)

/-- The management networks' ports: M0 to M3 on A, M4 to M7 on B (15 R476). -/
def networkPorts (n : Nat) : List Nat := (List.range 4).map (4 * n + ·)

def mgmtPort (s : State) (p : Nat) : MgmtPort := tabGet mgmtPortReset s.mgmt.ports p

/-- The port of a session's next datagram: that of its latest one, else the lowest-numbered that is up (15 R479). -/
def sessionPort (s : State) (x : Session) : Option Nat :=
  if (mgmtPort s x.port).up then some x.port else (networkPorts x.network).find? (fun p => (mgmtPort s p).up)

/-- The session that holds a mailbox (15 R494). -/
def holder (s : State) (mb : Nat) : Option (Nat × Session) :=
  (mailbox s mb).session.bind (fun k => (tabGet? s.mgmt.sessions k).map (fun x => (k, x)))

/-- Where peels of a mailbox go now. -/
def mailboxVia (s : State) (mb : Nat) : Option Via :=
  (holder s mb).bind (fun x => (sessionPort s x.2).map (fun p => ⟨x.1, p, x.2.datagram⟩))

/-- BOOT: the low 16 bits of the start count (15 Table 15.2). -/
def bootField (s : State) : Nat := s.start.cfg.starts % 65536

/-- Count frames that a management port sends (19 Table 19.1). -/
def countTx (p n : Nat) (s : State) : State := count (counterId 0 2 (16 * p + 1)) n s

def emitResponse (mb : Nat) (r : KeptResponse) (via : Option Via) (s : State) : State :=
  let s1 := emit (.response mb r.seq r.opcode r.status r.credits (bootField s) r.body via) s
  match via with
  | some v => countTx v.port (segmentCount (4 * r.body.length) v.datagram) s1
  | none => s1

/-- Send a response to the holding session; while its network has no port up the response waits (15 R479, R494). -/
def sendResponse (mb : Nat) (r : KeptResponse) (s : State) : State :=
  let via := mailboxVia s mb
  if via.isNone && (holder s mb).isSome then
    emitResponse mb r none (modMailbox mb (fun m => { m with unsent := m.unsent ++ [r] }) s)
  else emitResponse mb r via s

/-- The CREDITS field of a response: credit less the commands outstanding after it (15 R492). -/
def creditsLeft (mb : Mailbox) : Nat := mb.credit - mb.outstanding.length

/-- A masked field matches (19 R596). -/
def maskMatch (value mask x : Nat) : Bool := (value ^^^ x) &&& mask == 0

/-- Count a match in a filter's two counters. -/
def countFilter (isl blk n units bytes : Nat) (s : State) : State :=
  count (counterId isl blk (2 * n + 1)) bytes (count (counterId isl blk (2 * n)) units s)

/-- The PID that a tenant mailbox is bound to; none for another class. -/
def callerPid (o : Origin) (s : State) : Option Nat := if isTenant o then (mailbox s o.mailbox).pid else none

/-- A caller may reach an object of a partition: a tenant only its own (16 R511). -/
def mayReach (o : Origin) (pid : Nat) (s : State) : Bool := !isTenant o || (mailbox s o.mailbox).pid == some pid

/-- Filter point 3: a command that passed its first check (19 R595). -/
def filterCommand (o : Origin) (op : Nat) (s : State) : State :=
  s.tele.filters.foldl (fun s x =>
    let f := x.2
    if f.enable && f.point == 3 && testBitN f.priv (classBit o.cls) && (f.group == 0 || f.group == op / 256) &&
        (!f.pidMatch || callerPid o s == some f.pid) then countFilter 0 4 x.1 1 0 s
    else s) s

/-- The mailbox has no credit for a further command (15 R492). -/
def creditSpent (o : Origin) (s : State) : Bool :=
  decide ((mailbox s o.mailbox).credit ≤ (mailbox s o.mailbox).outstanding.length)

/-- Checks 2 to 5 of R497. -/
def admitCaller (o : Origin) (op : Nat) (s : State) : Option Status :=
  if !mailboxOpen o s then some .denied
  else if creditSpent o s then some .busy
  else
    match cmdInfo op with
    | none => some .unsupported
    | some c => if !testBitN c.issuers (classBit o.cls) then some .denied else none

/-- Check 7 of R497, and the SID (14 R451). -/
def admitMode (o : Origin) (op : Nat) (s : State) : Option Status :=
  if recoveryOnly s && (!((cmdInfo op).map (·.inRecovery)).getD false || !decide (classBit o.cls < 2)) then some .notReady
  else if needsSid op && (ownSid s).isNone then some .notReady
  else none

/-- The checks of R497 but for those of the peel itself: none when the command may run. -/
def admitCheck (o : Origin) (op : Nat) (s : State) : Option Status := (admitCaller o op s).or (admitMode o op s)

/-- A SEQ lies ahead of the last new one, or there is none yet (15 R495). -/
def seqNew (m : Mailbox) (seq : Nat) : Bool :=
  match m.lastSeq with
  | none => true
  | some l => decide (0 < (seq + 2 ^ 32 - l) % 2 ^ 32) && decide ((seq + 2 ^ 32 - l) % 2 ^ 32 < 2 ^ 31)

def outstandingOf (s : State) (o : Origin) : Option Outstanding :=
  (mailbox s o.mailbox).outstanding.find? (fun c => c.seq == o.seq)

def keptOf (s : State) (o : Origin) : Option KeptResponse := (mailbox s o.mailbox).kept.find? (fun c => c.seq == o.seq)

/-- A command answered BUSY or DENIED is counted (19 Table 19.1). -/
def countStatus (mb : Nat) (st : Status) (s : State) : State :=
  if st = .busy then countMailbox mb 1 s else if st = .denied then countMailbox mb 2 s else s

/-- A response that is not kept: a check of R497 or the SEQ turned the command away (15 R495). -/
def reject (o : Origin) (op : Nat) (st : Status) (body : List Word) (s : State) : State :=
  sendResponse o.mailbox ⟨o.seq, op, statusCode st, creditsLeft (mailbox s o.mailbox), body⟩ (countStatus o.mailbox st s)

/-- A new command takes its SEQ and is counted (15 R495; 19 Table 19.1). -/
def takeSeq (o : Origin) (s : State) : State :=
  countMailbox o.mailbox 0 (modMailbox o.mailbox (fun m => { m with lastSeq := some o.seq }) s)

/-- Free the control core of a command whose step has ended (15 R493). -/
def freeCore (ran : Bool) (s : State) : State :=
  if ran then { s with mgmt := { s.mgmt with freeCores := Nat.min 4 (s.mgmt.freeCores + 1) } } else s

/-- A step of the command runs. -/
def stepRuns (s : State) (o : Origin) : Bool := ((outstandingOf s o).map (·.running)).getD false

/-- A final response: sent, kept among the last 64, and the command no longer outstanding (15 R492, R495, R496). -/
def answer (o : Origin) (op : Nat) (st : Status) (body : List Word) (s : State) : State :=
  let ended (m : Mailbox) : Mailbox := { m with outstanding := m.outstanding.filter (fun c => !(c.seq == o.seq)) }
  let r : KeptResponse := {
    seq := o.seq, opcode := op, status := statusCode st, credits := creditsLeft (ended (mailbox s o.mailbox)), body := body }
  let s1 := modMailbox o.mailbox (fun m => { ended m with kept := (r :: m.kept).take 64 }) (freeCore (stepRuns s o) s)
  traceCrumb 4 0xF105 0 (o.mailbox * 2 ^ 26 + op) (statusCode st * 2 ^ 24 + o.seq % 2 ^ 24)
    (sendResponse o.mailbox r (countStatus o.mailbox st s1))

/-- End a command that was accepted, if it is still outstanding (15 R496, R498). -/
def finish (o : Origin) (st : Status) (body : List Word) (s : State) : State :=
  match outstandingOf s o with
  | some c => answer o c.opcode st body s
  | none => s

/-- The interim ACCEPTED (15 R496). -/
def sendAccepted (o : Origin) (op : Nat) (s : State) : State := reject o op .accepted [] s

/-- The default deadline of a command with a grace time of so many µs, in µs (16 R518). -/
def defaultDeadline (op : Nat) (grace : Option Nat) : Nat :=
  let d := ((cmdInfo op).map (·.deadline)).getD 0
  match grace with
  | none => d
  | some g => Nat.max d ((if g = 0 then 1000 else g) + 10000)

/-- The work of a command goes on after its first step: that step ends, ACCEPTED is sent unless the end comes within
1 ms (`tell` false), and the command stays outstanding. A command that came without a COMMAND peel of its own enters with
its default deadline. -/
def accept (o : Origin) (op : Nat) (grace : Option Nat) (tell : Bool) (s : State) : State :=
  let begun (c : Outstanding) : Outstanding :=
    { c with stepsDone := 1, running := false, acceptedSent := c.acceptedSent || tell, stepsTotal := 2 }
  let s1 := freeCore (stepRuns s o) s
  match outstandingOf s1 o with
  | some c =>
    let s2 := modMailbox o.mailbox (fun m => { m with
      outstanding := m.outstanding.map (fun c => if c.seq = o.seq then begun c else c) }) s1
    if c.acceptedSent || !tell then s2 else sendAccepted o op s2
  | none =>
    let c : Outstanding := {
      seq := o.seq, opcode := op, ordered := false, cls := o.cls, received := nowRef s,
      deadline := nowRef s + 1000 * defaultDeadline op grace, body := [], stepsDone := 1, stepsTotal := 2,
      running := false, acceptedSent := tell }
    let s2 := modMailbox o.mailbox (fun m => { m with outstanding := m.outstanding ++ [c] }) s1
    if tell then sendAccepted o op s2 else s2

/-- What a command's own rules give: a final status with its response words, or work that completes later. -/
inductive CmdOutcome where
  | done (st : Status) (body : List Word) (t : State)
  /-- a failure that leaves records of its own behind (12 R400) -/
  | fails (st : Status) (t : State)
  | later (t : State)
  /-- later, but within 1 ms -/
  | soon (t : State)
  /-- later, after a grace time -/
  | laterGrace (grace : Nat) (t : State)

/-- The committing step of a command: its own rules; an atomic command that does not end in OK or QUORUM_PENDING has
changed nothing (16 R513). -/
def commitCommand (o : Origin) (op : Nat) (body : State → CmdOutcome) (s : State) : State :=
  match body s with
  | .done st ws t =>
    if st = .ok ∨ st = .quorumPending ∨ ((cmdInfo op).map (·.atomic)) = some false then answer o op st ws t
    else answer o op st ws s
  | .fails st t => answer o op st [] t
  | .later t => accept o op none true t
  | .soon t => accept o op none false t
  | .laterGrace g t => accept o op (some g) true t

/-- A command by its SEQ (15 R490, R495, R497): the step of a dispatched command runs its rules; another repeat of an
outstanding SEQ is answered ACCEPTED again; a kept response is sent again; a SEQ not ahead is CONFLICT; a new command is
checked, takes its SEQ and runs its rules. A device that takes no commands does nothing. -/
def runCommand (o : Origin) (op : Nat) (body : State → CmdOutcome) (s : State) : State :=
  if !listening s then s
  else if !mailboxOpen o s then reject o op .denied [] (filterCommand o op s)
  else
    match outstandingOf s o with
    | some c =>
      if c.opcode = op ∧ c.running ∧ c.stepsDone = 0 then commitCommand o op body s else sendAccepted o c.opcode s
    | none =>
      match keptOf s o with
      | some r => sendResponse o.mailbox r s
      | none =>
        if !seqNew (mailbox s o.mailbox) o.seq then reject o op .conflict [] s
        else
          let s1 := filterCommand o op s
          match admitCheck o op s1 with
          | some st => reject o op st [] s1
          | none => commitCommand o op body (takeSeq o s1)

/-- A command that ends with a status and no response words and changes nothing. -/
def failWith (st : Status) (s : State) : CmdOutcome := .done st [] s

/-- A command that ends OK with no response words. -/
def okWith (t : State) : CmdOutcome := .done .ok [] t

end Sys2Proof.Machine
end

