-- ==== Sys2Proof/Machine/Flags.lean ====
section
/-! DEFINITION. Status words that software reads whole: ISLAND_INFO, AGENT_STATUS, the neighbour report, ALARMS and the
SMBus registers. -/

namespace Sys2Proof.Machine

/-- TYPE of an island (01 Table 1.6). -/
def islandType (i : Nat) : Nat :=
  if i = 0 then 0 else if i = 1 then 3 else if i < 0x10 then 2 else if i < 0x30 then 1 else if i < 0x38 then 4
  else if i = 0x38 then 5 else if i < 0x50 then 6 else 7

/-- The data-role clock of an island in MHz (01 Table 1.4). -/
def islandMhz (i : Nat) : Nat :=
  if i = 0 then 2000 else if i < 0x10 then 1600 else if i < 0x30 then 1250 else if i < 0x40 then 1500
  else if i < 0x50 then 1200 else 1000

/-- ISLAND_INFO (01 Table 1.6). -/
def islandInfo (s : State) (i : Nat) : Word :=
  wordOf [at_ 31 24 i, at_ 23 20 (islandType i), at_ 15 4 (islandMhz i), at_ 0 0 (bit (island s i).pllLock)]

/-- AGENT_STATUS (16 Table 16.14). -/
def agentStatus (s : State) (i : Nat) : Word :=
  let x := island s i
  wordOf [at_ 31 27 x.events.length, at_ 26 19 x.lostCount, at_ 18 18 (bit x.lost), at_ 17 17 (bit x.dataReset),
    at_ 16 16 (bit x.peerAbsent), at_ 15 12 x.accesses.length, at_ 0 0 (bit x.addrErr)]

/-- The code of a port state (14 Table 14.2). -/
def portPhaseCode : PortPhase → Nat
  | .down => 0 | .hello => 1 | .credit => 2 | .up => 3 | .resume => 4

/-- The code of a width (03 Table 3.6). -/
def widthCode (w : Nat) : Nat := if w = 1 then 0 else if w = 2 then 1 else if w = 4 then 2 else 3

/-- The fibre pair of a port, engine × 8 + fibre. -/
def portPair (p : Nat) : Nat := p / 8

def fibrePair (s : State) (k : Nat) : FibrePair := tabGet fibreReset s.opt.fibres k

def modFibre (k : Nat) (f : FibrePair → FibrePair) (s : State) : State :=
  { s with opt := { s.opt with fibres := tabMod fibreReset f s.opt.fibres k } }

/-- The length used for a port: the larger of the recorded and the measured one (03 R100). -/
def portLength (s : State) (p : Nat) : Nat :=
  Nat.max (fibrePair s (portPair p)).length ((port s p).measured.getD 0)

/-- The mask of a port's lanes that a test accepts, by lane index. -/
def laneMaskOf (s : State) (p : Nat) (f : Lane → Bool) : Nat :=
  ((portLanes s p).map (fun l => if f (lane s l) then 2 ^ (l - p) else 0)).sum

/-- A neighbour report entry (14 Table 14.2). -/
def neighbourEntry (s : State) (p : Nat) : List Word :=
  let pt := port s p
  let joined := laneMaskOf s p (fun l => l.phase == .joined)
  let held := laneMaskOf s p (fun l => l.miswired || l.stayOut)
  let w0 := wordOf [at_ 31 21 p, at_ 20 18 (portPhaseCode pt.phase), at_ 17 16 (widthCode pt.width), at_ 15 8 joined,
    at_ 7 0 held]
  let len := at_ 15 0 (portLength s p)
  let w3 := wordOf [at_ 31 16 (pt.measured.getD 0xFFFF), len]
  match pt.peer with
  | none => [w0, wordOf [at_ 31 28 0xF], 0, w3]
  | some h => [w0, wordOf [at_ 31 28 h.role, at_ 27 27 (bit h.v1), at_ 26 26 (bit h.v2), at_ 25 24 h.width,
      at_ 23 13 h.port, at_ 12 0 h.sid], wordOf [at_ 31 12 h.address, at_ 11 11 (bit h.sidValid)], w3]

/-- The code of a time state (13 Table 13.2). -/
def timePhaseCode : TimePhase → Nat
  | .unset => 0 | .acquiring => 1 | .locked => 2 | .holdover => 3 | .master => 4

/-- A die stands at or above its warning level, in 0.01 °C (20 Table 20.12). -/
def dieWarning (t : Telemetry) : Bool :=
  decide (10000 ≤ t.switchTemp) || decide (10000 ≤ t.computeTemp) || decide (9000 ≤ t.opticalTemp)

/-- A die or a stack does (R631). -/
def warningReached (t : Telemetry) : Bool := dieWarning t || decide (8800 ≤ t.stackTemp)

/-- The highest throttle stage with a depth above 0, else 0 (20 R631). -/
def throttleStep (s : State) : Nat :=
  (s.power.depth.zipIdx).foldl (fun a x => if 0 < x.1 then x.2 + 1 else a) 0

/-- ALARMS (20 Table 20.5). -/
def alarms (s : State) : Nat :=
  let t := s.power.telemetry
  at_ 15 15 (bit (decide (t.milliVolts < 35000))) + at_ 14 14 (bit (decide (85000 < t.milliAmps))) +
    at_ 13 13 (bit (dieWarning t)) + at_ 12 12 (bit s.power.capUnattainable) +
    at_ 11 11 (bit s.power.coolantDelta) + at_ 10 8 (throttleStep s)

end Sys2Proof.Machine
end

