-- ==== Sys2Proof/Machine/Route.lean ====
section
/-! DEFINITION. Tables and lookup of a slice: destination entries and their buckets, poppy sets and spraying, multicast
groups, husk entries, parity (chapter 6). -/

namespace Sys2Proof.Machine

/-! ## Parity (R238) -/

/-- A stored word passes its parity check. -/
def parityGood (sl : Slice) (table index : Nat) : Bool := !sl.badParity.contains (table * 2 ^ 20 + index)

/-- Report a parity error once per entry until the entry is rewritten. -/
def tellParity (n table index : Nat) (s : State) : State :=
  let k := table * 2 ^ 20 + index
  if (slice s n).toldParity.contains k then s
  else
    raiseBoth 0x0301 [n, table, index]
      (countSlice n (if table = 0 then 7 else if table = 1 then 8 else if table = 2 ∨ table = 3 then 9
        else if table = 4 then 10 else 11)
        (modSlice n (fun sl => { sl with toldParity := k :: sl.toldParity }) s))

/-- A rewritten entry has good parity and may be reported anew. -/
def parityRewritten (table index : Nat) (sl : Slice) : Slice :=
  let k := table * 2 ^ 20 + index
  { sl with badParity := sl.badParity.filter (· != k), toldParity := sl.toldParity.filter (· != k) }

/-! ## Partitions (R211) -/

/-- A port is a member of a partition in its slice. -/
def portInPartition (pe : PartEntry) (p : Nat) : Bool := testBitN pe.ports (p % 256)

/-! ## The destination table (R201, R206) -/

def destKeyBytes (pid dest : Nat) : List Byte := wordBytes (wordOf [at_ 31 12 dest, at_ 11 0 pid])

def hash0 (pid dest : Nat) : Nat := (crc32c (0x00#8 :: destKeyBytes pid dest)).toNat
def hash1 (pid dest : Nat) : Nat := (crc32c (0x01#8 :: destKeyBytes pid dest)).toNat

/-- The bucket number that the overflow store's lock carries. -/
def overflowBucket : Nat := 131072

/-- Storage indices of the entries of a key's buckets, and whether the overflow store is searched. -/
def destSlots (sl : Slice) (pid dest : Nat) : List Nat :=
  if sl.params.cuckoo then [hash0 pid dest % 2 ^ 18, 262144 + hash1 pid dest % 2 ^ 18]
  else (List.range 4).map (4 * (hash0 pid dest % 2 ^ 17) + ·)

/-- The bucket of a storage index. -/
def bucketOf (sl : Slice) (i : Nat) : Nat :=
  if sl.params.cuckoo then i else if i < 524288 then i / 4 else overflowBucket

def lockOf (sl : Slice) (b : Nat) : Option BucketLock := sl.locks.find? (fun l => l.bucket == b)

/-- An entry as lookups see it: a locked bucket shows the contents before the lock (R206). -/
def visibleEntry (sl : Slice) (i : Nat) : Option DestEntry :=
  match lockOf sl (bucketOf sl i) with
  | some l => tabGet? l.before i
  | none => tabGet? sl.dest i

def entryMatches (pid dest : Nat) (e : DestEntry) : Bool := e.dest == dest && e.pid == pid

/-- Where a key is stored, if it is: its storage index and its entry. -/
def destFind (sl : Slice) (pid dest : Nat) : Option (Nat × DestEntry) :=
  let inBuckets := (destSlots sl pid dest).findSome? (fun i =>
    match visibleEntry sl i with
    | some e => if entryMatches pid dest e then some (i, e) else none
    | none => none)
  match inBuckets with
  | some r => some r
  | none =>
    if sl.params.cuckoo then none
    else
      let above := match lockOf sl overflowBucket with
        | some l => l.before
        | none => sl.dest
      above.find? (fun x => decide (524288 ≤ x.1) && entryMatches pid dest x.2)

/-- The free storage index that an insertion takes in BUCKET4 (R202). -/
def bucketFree (sl : Slice) (pid dest : Nat) : Option Nat :=
  match (destSlots sl pid dest).find? (fun i => (tabGet? sl.dest i).isNone) with
  | some i => some i
  | none => ((List.range 4096).map (524288 + ·)).find? (fun i => (tabGet? sl.dest i).isNone)

/-- The other bucket of the entry that a CUCKOO2 slot holds. -/
def otherSlot (i : Nat) (e : DestEntry) : Nat :=
  if i < 262144 then 262144 + hash1 e.pid e.dest % 2 ^ 18 else hash0 e.pid e.dest % 2 ^ 18

/-- A chain of at most n relocations from an occupied slot that ends in a free one: the slots visited, free end last
(R203). -/
def relocChain (sl : Slice) : Nat → Nat → Option (List Nat)
  | 0, _ => none
  | n + 1, i =>
    match tabGet? sl.dest i with
    | none => some [i]
    | some e =>
      let j := otherSlot i e
      match tabGet? sl.dest j with
      | none => some [i, j]
      | some _ => (relocChain sl n j).map (i :: ·)

/-- Carry out the moves of a chain from its free end backward: each copies an entry to its other bucket. -/
def applyChain : List Nat → Tab DestEntry → Tab DestEntry
  | i :: j :: rest, t =>
    let t1 := applyChain (j :: rest) t
    match tabGet? t1 i with
    | some e => tabDel (tabPut t1 j e) i
    | none => t1
  | _, t => t

/-- Insert a new key: its storage index and the table with room made for it, or none when the insertion fails
(R202, R203). -/
def destMakeRoom (sl : Slice) (pid dest : Nat) : Option (Nat × Tab DestEntry) :=
  if sl.params.cuckoo then
    match destSlots sl pid dest with
    | [a, b] =>
      if (tabGet? sl.dest a).isNone then some (a, sl.dest)
      else if (tabGet? sl.dest b).isNone then some (b, sl.dest)
      else
        match relocChain sl 17 a with
        | some c => some (a, applyChain c sl.dest)
        | none => (relocChain sl 17 b).map (fun c => (b, applyChain c sl.dest))
    | _ => none
  else (bucketFree sl pid dest).map (fun i => (i, sl.dest))

/-! ## Poppy sets (R212 to R214) -/

/-- A port carries new packets: in UP with at least one joined lane (R213). -/
def portLive (s : State) (p : Nat) : Bool := (port s p).phase == .up && !(joinedLanes s p).isEmpty

def poppyMembers (sl : Slice) (set : Nat) : List Member := tabGet (fun _ => []) sl.poppy set

/-- The members of a set with their positions, without those whose words fail parity. -/
def goodMembers (sl : Slice) (set : Nat) : List (Nat × Member) :=
  if parityGood sl 1 (65 * set) then
    (((poppyMembers sl set).zipIdx).map (fun x => (x.2, x.1))).filter (fun x => parityGood sl 1 (65 * set + 1 + x.1))
  else []

/-- The candidates of a set within a mask: live members with WEIGHT above 0, in position order (R214). -/
def candidates (s : State) (sl : Slice) (set mask : Nat) : List Member :=
  ((goodMembers sl set).filter (fun x => testBitN mask x.1 && decide (0 < x.2.weight) && portLive s x.2.port)).map (·.2)

/-- Some member of a set within a mask is live. -/
def anyLive (s : State) (sl : Slice) (set mask : Nat) : Bool := !(candidates s sl set mask).isEmpty

/-- The mask of all members. -/
def allMembers : Nat := 2 ^ 64 - 1

/-- One step of the generator of 05 R186, shifting left. -/
def lfsrStep (x : Word) : Word := if x.getLsbD 31 then (x <<< 1) ^^^ 0x00400007#32 else x <<< 1

/-- n steps of the generator. -/
def lfsrSteps : Nat → Word → Word
  | 0, x => x
  | n + 1, x => lfsrSteps n (lfsrStep x)

/-- The first candidate whose running weight sum exceeds t. -/
def pickWeighted : List Member → Nat → Nat → Option Member
  | [], _, _ => none
  | m :: ms, run, t => if t < run + m.weight then some m else pickWeighted ms (run + m.weight) t

/-- Choose a member for a packet: by ENTROPY alone under NOSPRAY, else by the slice generator after 16 steps (R214). -/
def chooseMember (cs : List Member) (nospray : Bool) (entropy : Nat) (gen : Word) : Option Nat × Word :=
  if cs.isEmpty then (none, gen)
  else if nospray then ((cs[entropy % cs.length]?).map (·.port), gen)
  else
    let g := lfsrSteps 16 gen
    let t := (g.toNat % 2 ^ 16) * (cs.map (·.weight)).sum / 2 ^ 16
    ((pickWeighted cs 0 t).map (·.port), g)

/-! ## Multicast groups (R216, R217) -/

/-- The racks that a group reaches. -/
def groupRacks (sl : Slice) (g : Word × Word) : List Nat :=
  if fld g.1 30 30 = 0 then [fld g.1 29 19]
  else
    let bm := tabGet (fun _ => 0) sl.bitmaps (fld g.2 19 8)
    (List.range 2048).filter (fun r => testBitN bm r)

/-- The row route set of a rack (R198). -/
def rowSet (sl : Slice) (row : Nat) : Nat := sl.params.rowBase + row / 2 ^ sl.params.rowShift

/-- The egress port of the copy toward a rack, if the rack has a live candidate (R217). -/
def rackPort (s : State) (sl : Slice) (entropy r : Nat) : Option Nat :=
  let cs := candidates s sl (rowSet sl r) allMembers
  if cs.isEmpty then none else (cs[(entropy + r) % cs.length]?).map (·.port)

/-! ## Husk entries (R224, R226) -/

/-- The live port of a husk entry: PRIMARY, otherwise ALT. -/
def huskPort (s : State) (sl : Slice) (p : Packet) : Option Nat :=
  let (tbl, idx, e) := if pSpineDst p then (6, pDest p % 8192, tabGet (fun _ => 0) sl.huskSpine (pDest p % 8192))
    else (5, pDest p / 512, tabGet (fun _ => 0) sl.huskRow (pDest p / 512))
  if fld e 31 31 = 0 || !parityGood sl tbl idx then none
  else if portLive s (fld e 30 20) then some (fld e 30 20)
  else if fld e 19 19 = 1 && portLive s (fld e 18 8) then some (fld e 18 8)
  else none

/-! ## The lookup (R198, R220) -/

/-- Where a packet goes. -/
inductive Route where
  /-- a consumer inside the spine -/
  | own
  | group
  /-- an egress port on the adaptive channel, with the set and mask looked up -/
  | adaptive (p set mask : Nat)
  /-- an egress port on the husk lane -/
  | husk (p : Nat)
  | lost
  deriving DecidableEq, Repr

/-- A lossless class (04 Table 4.11). -/
def lossless (cls : Nat) : Bool := decide (cls ≤ 4)

/-- The fall-back of a unicast adaptive packet without a live member: a detour, the husk lane, or loss (R220). -/
def detour (s : State) (sl : Slice) (p : Packet) (hopsIn : Nat) : Route × Word :=
  let cs := candidates s sl sl.params.detourSet allMembers
  if hopsIn < sl.params.detourHops && !cs.isEmpty then
    match chooseMember cs (pNoSpray p) (pEntropy p) sl.lfsr with
    | (some q, g) => (.adaptive q sl.params.detourSet allMembers, g)
    | (none, g) => (.lost, g)
  else if lossless (pClass p) then
    match huskPort s sl p with
    | some q => (.husk q, sl.lfsr)
    | none => (.lost, sl.lfsr)
  else (.lost, sl.lfsr)

/-- Spray on a set within a mask, or fall back (R198, R220). -/
def sprayOn (s : State) (sl : Slice) (p : Packet) (hopsIn set mask : Nat) : Route × Word :=
  match chooseMember (candidates s sl set mask) (pNoSpray p) (pEntropy p) sl.lfsr with
  | (some q, g) => (.adaptive q set mask, g)
  | (none, _) => detour s sl p hopsIn

/-- The lookup of a packet in a slice: the route and the generator after it (R198). -/
def lookup (s : State) (sl : Slice) (p : Packet) : Route × Word :=
  if pSpineDst p && ownSid s == some (pDest p % 8192) then (.own, sl.lfsr)
  else if pMcast p then (.group, sl.lfsr)
  else if pVc p = 1 then
    match huskPort s sl p with
    | some q => (.husk q, sl.lfsr)
    | none => (.lost, sl.lfsr)
  else if pSpineDst p then sprayOn s sl p (pHops p) sl.params.spineSet allMembers
  else
    match destFind sl (pPid p) (pDest p) with
    | some (i, e) =>
      if parityGood sl 0 i && anyLive s sl e.poppy e.mask then sprayOn s sl p (pHops p) e.poppy e.mask
      else sprayOn s sl p (pHops p) (rowSet sl (pDest p / 512)) allMembers
    | none => sprayOn s sl p (pHops p) (rowSet sl (pDest p / 512)) allMembers

/-- A bad husk entry that a packet meets is reported (R238). -/
def huskParity (n : Nat) (p : Packet) (s : State) : State :=
  let x := if pSpineDst p then (6, pDest p % 8192) else (5, pDest p / 512)
  if parityGood (slice s n) x.1 x.2 then s else tellParity n x.1 x.2 s

/-- The side effects of a lookup on the destination table: HIT set, a bad entry reported and, when learned, removed
(R198, R238); lookups and misses counted. -/
def lookupTouch (n : Nat) (p : Packet) (s : State) : State :=
  let s := countSlice n 0 s
  if pVc p == 1 && !pMcast p then huskParity n p s
  else if pMcast p || pSpineDst p then s
  else
    match destFind (slice s n) (pPid p) (pDest p) with
    | some (i, e) =>
      if (lockOf (slice s n) (bucketOf (slice s n) i)).isSome then s
      else if parityGood (slice s n) 0 i then
        modSlice n (fun sl => { sl with dest := tabPut sl.dest i { e with hit := true } }) s
      else
        let s := tellParity n 0 i (countSlice n 1 s)
        if e.isStatic then s else modSlice n (fun sl => parityRewritten 0 i { sl with dest := tabDel sl.dest i }) s
    | none => countSlice n 1 s

end Sys2Proof.Machine
end

