-- ==== Sys2Proof/Machine/Bound.lean ====
section
/-! DEFINITION. What follows a change of a port: the neighbour report's generation and event, and the barrier bound of
the groups (14 R455, R461, R462). -/

namespace Sys2Proof.Machine

/-! ## The barrier bound (14 R461, R462) -/

/-- The racks of a group's members, and how many members each holds. -/
def memberRacks (members : List Nat) : Tab Nat := members.foldl (fun t m => tabPut t (m / 512) ((tabGet? t (m / 512)).getD 0 + 1)) []

/-- Joined lanes of the live members of a rack's row route set in a slice. -/
def rackLanes (s : State) (sl : Slice) (r : Nat) : Nat :=
  (((poppyMembers sl (rowSet sl r)).filter (fun m => portLive s m.port)).map (fun m => (joinedLanes s m.port).length)).sum

/-- The largest length in use among the members of a rack's row route set. -/
def rackLength (s : State) (sl : Slice) (r : Nat) : Nat :=
  (poppyMembers sl (rowSet sl r)).foldl (fun a m => Nat.max a (portLength s m.port)) 0

/-- T_B over the routes of one slice, in ns rounded up; 0xFFFF_FFFF when some rack has no joined lane. -/
def sliceBound (s : State) (sl : Slice) (reach n : Nat) (racks : Tab Nat) : Nat :=
  let len := reach + racks.foldl (fun a r => Nat.max a (rackLength s sl r.1)) 0
  if racks.any (fun r => rackLanes s sl r.1 == 0) then 0xFFFFFFFF
  else
    let byRack := racks.map (fun r =>
      let j := rackLanes s sl r.1
      ceilDiv (271000 * j + 980 * len * j + 3072 * r.2) (100 * j))
    byRack.foldl Nat.max (ceilDiv (81300 + 294 * len + 20 * n) 30)

/-- T_B of a group: the largest over the eight slices. -/
def barrierBound (s : State) (pid : Nat) (members : List Nat) : Nat :=
  let reach := (tabGet sizingReset s.loaf.sizing pid).reach
  Nat.min 0xFFFFFFFF (((List.range 8).map (fun i => sliceBound s (slice s i) reach members.length (memberRacks members))).foldl Nat.max 0)

/-- A partition's limit is set and a bound lies above it. -/
def boundExceeded (s : State) (pid b : Nat) : Bool :=
  let l := (tabGet sizingReset s.loaf.sizing pid).limit
  l != 0 && decide (l < b)

/-- Recompute the bounds of all groups after a port change: one event for a group that comes to lie above its limit. -/
def recheckBarriers (s : State) : State :=
  s.loaf.groups.foldl (fun s e =>
    let above := boundExceeded s e.2.pid (barrierBound s e.2.pid e.2.members)
    let s1 := { s with loaf := { s.loaf with
      groups := tabMap (fun k g => if k = e.1 then { g with boundTold := above } else g) s.loaf.groups } }
    if above && !e.2.boundTold then raise31 Config.boundEventCode [e.1] s1 else s1) s

/-! ## The neighbour report (14 R455) -/

/-- Raise NEIGHBOUR_CHANGE, or leave it to the end of the holdoff (14 R455). -/
def tellNeighbours (s : State) : State :=
  if s.fab.holdoff then s
  else raise31 0x0206 [s.fab.generation] { s with fab := { s.fab with holdoff := true, told := s.fab.generation } }

/-- A port's entry may have changed: GENERATION advances unless only MEASURED moved, by 2 m or less (14 R455), and
the bounds of the groups are computed again (R462). -/
def noteEntry (p : Nat) (before after : State) : State :=
  let a := neighbourEntry before p
  let b := neighbourEntry after p
  let ma := tabGet (fun _ => 0xFFFF) after.fab.measuredTold p
  let mb := fld (b.getD 3 0) 31 16
  let moved := !(decide (ma ≤ mb + 2) && decide (mb ≤ ma + 2))
  if a.take 3 = b.take 3 && fld (a.getD 3 0) 15 0 == fld (b.getD 3 0) 15 0 && !moved then after
  else
    recheckBarriers (tellNeighbours { after with fab := { after.fab with
      generation := (after.fab.generation + 1) % 2 ^ 32,
      measuredTold := tabSet (fun _ => 0xFFFF) after.fab.measuredTold p mb } })

end Sys2Proof.Machine
end

