-- ==== Sys2Proof/Machine/Buffer.lean ====
section
/-! DEFINITION. The shared buffer: pools and admission, headroom charges and the credit they return, virtual output
queues, random early drop and push-out, and the freeing of cells (chapter 5; 06 R232, R233). -/

namespace Sys2Proof.Machine

/-! ## Keys -/

/-- (port, class). -/
def pcKey (p cls : Nat) : Nat := p * 8 + cls
/-- (port, class, channel). -/
def pcvKey (p cls vc : Nat) : Nat := pcKey p cls * 2 + vc
/-- A virtual output queue: (port, class, channel, source). -/
def voqKey (p cls vc src : Nat) : Nat := pcvKey p cls vc * 17 + src
/-- The admission queue of multicast packets of (ingress slice, class) (R175). -/
def mcastKey (sl cls : Nat) : Nat := 2 ^ 15 + sl * 8 + cls
/-- The pseudo-port of the compute port. -/
def computePort : Nat := 2048

def zeroTab (_ : Nat) : Nat := 0

def modBuf (f : BufState → BufState) (s : State) : State := { s with buf := f s.buf }

def stored (s : State) (id : Nat) : Option Stored := tabGet? s.buf.packets id

def modStored (id : Nat) (f : Stored → Stored) (s : State) : State :=
  match stored s id with
  | some k => modBuf (fun b => { b with packets := tabPut b.packets id (f k) }) s
  | none => s

/-! ## Pools (R165, R167, R172) -/

/-- Headroom cells of all slices: 352 per configured lane and 165 per port (Table 5.3). -/
def headroomCells (s : State) : Nat := ((allPorts s).map (fun p => 352 * (port s p).width + 165)).sum

/-- Cells of the shared pool. -/
def sharedSize (s : State) : Nat := 2097152 - s.buf.badCells - headroomCells s - 65536 - 32768 - 8192

/-- Free shared cells, Sf. -/
def sharedFree (s : State) : Nat := sharedSize s - s.buf.sharedUsed

/-- The admission exponent of an admission queue: the queue's setting, or the class default for multicast and for the
compute port (R172, R175). -/
def admitA (s : State) (key : Nat) : Nat :=
  if key < 16384 then (tabGet queueSetReset s.sched.queueSets key).a else defaultA (key % 8)

/-- A cell is admitted while Q < α × Sf, α = 2^(a − 6) (R172). -/
def admits (s : State) (key : Nat) : Bool :=
  decide (tabGet zeroTab s.buf.sharedQ key * 64 < 2 ^ admitA s key * sharedFree s)

/-- Charge n cells to the shared pool under an admission queue. -/
def chargeShared (key n : Nat) (s : State) : State :=
  modBuf (fun b => { b with
    sharedUsed := b.sharedUsed + n, sharedQ := tabMod zeroTab (· + n) b.sharedQ key }) s

/-- Release n shared cells of an admission queue. -/
def releaseShared (key n : Nat) (s : State) : State :=
  modBuf (fun b => { b with
    sharedUsed := b.sharedUsed - n, sharedQ := tabMod zeroTab (· - n) b.sharedQ key }) s

/-- All n cells of a packet pass the test of R172 one after another. -/
def admitsAll : Nat → Nat → State → Bool
  | 0, _, _ => true
  | n + 1, key, s => admits s key && admitsAll n key (chargeShared key 1 s)

/-! ## Headroom charges and returned credit (R169 to R171) -/

/-- Charge n cells of (port, class, channel) to headroom. -/
def chargeHeadroom (p key n : Nat) (s : State) : State :=
  modBuf (fun b => { b with headroom := tabMod zeroTab (· + n) b.headroom (p * 16 + key) }) s

/-- One returned slot of credit: CR_TOTAL advances by one and must be sent (R170, R171; 03 R96). -/
def returnCredit (key n : Nat) (pt : Port) : Port :=
  { pt with freed := tabMod zeroTab (fun t => (t + n) % 4096) pt.freed key, crDue := distinct (pt.crDue ++ [key]) }

/-- Release of one headroom charge: withheld above the target, else returned as credit (R170, R171). -/
def releaseOne (key : Nat) (pt : Port) : Port :=
  if key % 2 = 1 then returnCredit key 1 pt
  else
    let c := key / 2
    if pt.target.getD c 0 < pt.commit.getD c 0 then { pt with commit := listMod (· - 1) c pt.commit }
    else returnCredit key 1 pt

/-- Release of n headroom charges of a port. -/
def releaseMany : Nat → Nat → Port → Port
  | 0, _, pt => pt
  | n + 1, key, pt => releaseMany n key (releaseOne key pt)

/-- Release n headroom charges of (port, class, channel). -/
def releaseHeadroom (p key n : Nat) (s : State) : State :=
  modPort p (releaseMany n key) (modBuf (fun b => { b with
    headroom := tabMod zeroTab (· - n) b.headroom (p * 16 + key) }) s)

/-- Admit up to n cells of a packet from headroom to the shared pool, one by one (R169, R173): the state and the cells
that stay on headroom. -/
def admitCells : Nat → Nat → State → State × Nat
  | 0, _, s => (s, 0)
  | n + 1, key, s =>
    if admits s key then admitCells n key (chargeShared key 1 s)
    else (s, n + 1)

/-- Test the headroom cells of an admission queue again, oldest packet first (R173). -/
def retestQueue (key : Nat) (s : State) : State :=
  (s.buf.packets.filter (fun x => x.2.admitKey == key && decide (0 < x.2.onHeadroom))).foldl (fun s x =>
    let (s1, left) := admitCells x.2.onHeadroom key s
    let moved := x.2.onHeadroom - left
    let s2 := modStored x.1 (fun k => { k with onHeadroom := left }) s1
    match x.2.inPort with
    | some p => releaseHeadroom p x.2.chargeKey moved s2
    | none => s2) s

/-- Free every cell of a stored packet and forget it (R168). -/
def freePacket (id : Nat) (s : State) : State :=
  match stored s id with
  | none => s
  | some k =>
    let s1 := modBuf (fun b => { b with
      packets := tabDel b.packets id, replicate := b.replicate.filter (fun x => x.1 != id) }) s
    match k.pool with
    | .headroom | .shared =>
      let s2 := releaseShared k.admitKey (k.cells - k.onHeadroom) s1
      let s3 := match k.inPort with
        | some p => releaseHeadroom p k.chargeKey k.onHeadroom s2
        | none => s2
      retestQueue k.admitKey s3
    | .knead g => modBuf (fun b => { b with kneadUsed := tabMod zeroTab (· - k.cells) b.kneadUsed g }) s1
    | .compute => modBuf (fun b => { b with computeUsed := b.computeUsed - k.cells }) s1
    | .control => modBuf (fun b => { b with controlUsed := b.controlUsed - k.cells }) s1

/-- One copy of a packet is gone: transmitted and acknowledged, dropped or discarded. -/
def dropCopy (id : Nat) (s : State) : State :=
  match stored s id with
  | none => s
  | some k =>
    if k.copies ≤ 1 then freePacket id s else modStored id (fun k => { k with copies := k.copies - 1 }) s

/-! ## Virtual output queues (R180 to R183; 06 R232) -/

def voq (s : State) (key : Nat) : List Copy := tabGet (fun _ => []) s.buf.queues key

def setVoq (key : Nat) (q : List Copy) (s : State) : State :=
  modBuf (fun b => { b with queues := tabSet (fun _ => []) b.queues key q }) s

/-- The queues of (port, class, channel), by source. -/
def sourceQueues (s : State) (p cls vc : Nat) : List (List Copy) := (List.range 17).map (fun src => voq s (voqKey p cls vc src))

def cellsOfCopies (s : State) (q : List Copy) : Nat :=
  (q.map (fun c => match stored s c.pkt with
    | some k => k.cells
    | none => 0)).sum

/-- Cells of an (egress port, class) queue, over all sources and both channels. -/
def queueCells (s : State) (p cls : Nat) : Nat :=
  ((sourceQueues s p cls 0 ++ sourceQueues s p cls 1).map (cellsOfCopies s)).sum

/-- Some queue of the port holds a packet. -/
def portHasQueued (s : State) (p : Nat) : Bool :=
  s.buf.queues.any (fun x => decide (p * 272 ≤ x.1) && decide (x.1 < (p + 1) * 272))

/-- The marking threshold of (egress port, class): the setting, or 32 cells a lane (06 R232). -/
def markOf (s : State) (p cls : Nat) : Nat :=
  ((tabGet queueSetReset s.sched.queueSets (pcKey p cls)).mark).getD (32 * (port s p).width)

def egressSlice (p : Nat) : Nat := p / 256

/-- A free queue entry exists for a class in an egress slice (R183). -/
def entryFree (s : State) (sl cls : Nat) : Bool :=
  let e := tabGet (fun _ => (0, 0)) s.buf.entries sl
  if cls = 0 then decide (e.1 < 4194304)
  else decide (e.1 - e.2 + Nat.max e.2 65536 < 4194304)

def modEntries (sl : Nat) (f : Nat × Nat → Nat × Nat) (s : State) : State :=
  modBuf (fun b => { b with entries := tabMod (fun _ => (0, 0)) f b.entries sl }) s

/-- A queue entry is free again. -/
def decEntry (p cls : Nat) (s : State) : State :=
  modEntries (egressSlice p) (fun e => (e.1 - 1, if cls = 0 then e.2 - 1 else e.2)) s

/-- Put a copy at the tail of its virtual output queue, marking it when the queue holds MARK cells (06 R232). -/
def enqueueCopy (id p cls vc src : Nat) (s : State) : State :=
  let mk := markOf s p cls
  let marked := decide (cls ≠ 0) && decide (0 < mk) && decide (mk ≤ queueCells s p cls)
  let key := voqKey p cls vc src
  let s1 := setVoq key (voq s key ++ [{ pkt := id, vc := vc, ce := marked }]) s
  let s2 := modEntries (egressSlice p) (fun e => (e.1 + 1, if cls = 0 then e.2 + 1 else e.2)) s1
  let n := match stored s id with
    | some k => k.cells
    | none => 0
  let s3 := countQueue p cls 1 n (countQueue p cls 0 1 s2)
  if marked then countQueue p cls 2 1 s3 else s3

/-- Enqueue a copy when an entry is free: a lossless copy otherwise waits at replication, a lossy one is dropped
(R183). -/
def placeCopy (id p cls vc src : Nat) (s : State) : State :=
  if entryFree s (egressSlice p) cls then enqueueCopy id p cls vc src s
  else
    let s1 := countSlice (egressSlice p) 14 s
    if lossless cls then modBuf (fun b => { b with replicate := b.replicate ++ [(id, p, vc, src)] }) s1
    else dropCopy id (countDrop p 0x20 s1)

/-- Give a queue entry back: the oldest lossless copy that waits for one in that egress slice takes it (R183). -/
def releaseEntry (p cls : Nat) (s : State) : State :=
  let s1 := decEntry p cls s
  match s1.buf.replicate.find? (fun x => egressSlice x.2.1 == egressSlice p) with
  | some (id, q, vc, src) =>
    match stored s1 id with
    | some k =>
      if entryFree s1 (egressSlice q) (pClass k.pkt) then
        enqueueCopy id q (pClass k.pkt) vc src (modBuf (fun b => { b with replicate := b.replicate.erase (id, q, vc, src) }) s1)
      else s1
    | none => modBuf (fun b => { b with replicate := b.replicate.erase (id, q, vc, src) }) s1
  | none => s1

/-! ## Random early drop and push-out (R185 to R188) -/

/-- The averages of a queue after a lossy header: each moves by its own WEXP, 8 fraction bits (R186). -/
def redAverages (curves : List DropCurve) (q : Nat) (avg : List Nat) : List Nat :=
  (List.zip curves avg).map (fun x =>
    ((x.2 : Int) + ((q * 256 : Nat) - x.2 : Int) / ((2 ^ x.1.wexp : Nat) : Int)).toNat)

/-- The drop probability of a colour in 1/256 (R186). -/
def redProbability (c : DropCurve) (avg : Nat) : Nat :=
  if avg < c.min * 256 then 0
  else if c.max * 256 ≤ avg then 256
  else c.pmax * (avg - c.min * 256) / ((c.max - c.min) * 256)

/-- The random early drop of a lossy packet toward a queue: whether it drops, and the state with the averages and the
egress slice's generator after it (R186). -/
def redDecide (p cls colour : Nat) (s : State) : Bool × State :=
  let qs := tabGet queueSetReset s.sched.queueSets (pcKey p cls)
  let curves := tabGet profileReset s.sched.profiles qs.profile
  let avg := redAverages curves (queueCells s p cls) qs.avg
  let pr := redProbability (curves.getD colour ⟨0, 1, 0, 0⟩) (avg.getD colour 0)
  let g := lfsrSteps 8 (slice s (egressSlice p)).lfsr
  let s1 := modSlice (egressSlice p) (fun sl => { sl with lfsr := g }) s
  let s2 := { s1 with sched := { s1.sched with
    queueSets := tabMod queueSetReset (fun q => { q with avg := avg }) s1.sched.queueSets (pcKey p cls) } }
  (decide (g.toNat % 256 < pr), s2)

/-- The last copy of a queue, over its sources, that push-out may take: a unicast packet fully stored and not begun,
the one queued last (R187). -/
def pushVictim (s : State) (p cls : Nat) : Option (Nat × Nat) :=
  let cand := (List.range 17).flatMap (fun src =>
    (voq s (voqKey p cls 0 src)).filterMap (fun c => match stored s c.pkt with
      | some k => if !k.multicast && k.complete then some (c.pkt, src) else none
      | none => none))
  cand.foldl (fun best x => match best with
    | none => some x
    | some b => if b.1 < x.1 then some x else some b) none

/-- Shared cells of a queue. -/
def sharedOf (s : State) (p cls : Nat) : Nat := tabGet zeroTab s.buf.sharedQ (pcKey p cls)

/-- The next victim for an arriving class: (port, class, packet, source) (R187). -/
def chooseVictim (s : State) (cls : Nat) : Option (Nat × Nat × Nat × Nat) :=
  ([7, 6, 5].filter (fun c => decide (cls < c))).findSome? (fun c =>
    let qs := (s.buf.sharedQ.filter (fun x => decide (x.1 < 16384) && x.1 % 8 == c)).map (fun x => x.1 / 8)
    let best := qs.foldl (fun b p => match pushVictim s p c with
      | none => b
      | some v => match b with
        | none => some (p, c, v.1, v.2)
        | some (bp, _, _, _) => if sharedOf s bp c < sharedOf s p c then some (p, c, v.1, v.2) else b) none
    best)

/-- Drop one victim: its copy leaves its queue, counted as PUSHOUT against its egress port. -/
def dropVictim (v : Nat × Nat × Nat × Nat) (s : State) : State :=
  let (p, c, id, src) := v
  let key := voqKey p c 0 src
  let s1 := setVoq key ((voq s key).filter (fun x => x.pkt != id)) s
  countDrop p 0x21 (freePacket id (releaseEntry p c (count (counterId 1 1 2) 1 s1)))

/-- Push out until Sf holds n cells or no victim remains; at most fuel victims. -/
def pushOut : Nat → Nat → Nat → State → State
  | 0, _, _, s => s
  | fuel + 1, cls, n, s =>
    if n ≤ sharedFree s then s
    else
      match chooseVictim s cls with
      | some v => pushOut fuel cls n (dropVictim v s)
      | none => s

/-- Room for a lossy packet: every cell passes R172, or push-out frees it (R186, R187). -/
def lossyRoom (key cls n : Nat) (s : State) : Bool × State :=
  if admitsAll n key s && decide (n ≤ sharedFree s) then (true, s)
  else if admits s key && decide (sharedFree s < n) then
    let s1 := pushOut s.buf.packets.length cls n s
    (decide (n ≤ sharedFree s1), s1)
  else (false, s)

/-- Store a packet's record; its cells are charged by the caller. -/
def storePacket (k : Stored) (s : State) : Nat × State :=
  let id := s.buf.nextPkt
  (id, modBuf (fun b => { b with packets := tabPut b.packets id k, nextPkt := id + 1 }) s)

/-- Charge an arriving lossless packet: every cell to headroom first, then to the shared pool as the test admits it
(R169, R173): the cells left on headroom. -/
def chargeLossless (p chargeKey admitKey n : Nat) (s : State) : State × Nat :=
  let s0 := if sharedFree s < n && admits s admitKey then pushOut s.buf.packets.length (chargeKey / 2) n s else s
  let (s1, left) := admitCells n admitKey (chargeHeadroom p chargeKey n s0)
  (releaseHeadroom p chargeKey (n - left) s1, left)

end Sys2Proof.Machine
end

