-- ==== Sys2Proof/Machine/Sha.lean ====
section
/-! DEFINITION. SHA-512 (FIPS 180-4), HMAC and HKDF over it (RFC 5869), which chapter 18 names for identities,
measurements and keys. -/

namespace Sys2Proof.Machine

/-- The round constants of SHA-512. -/
def shaK : List Nat :=
  [0x428A2F98D728AE22, 0x7137449123EF65CD, 0xB5C0FBCFEC4D3B2F, 0xE9B5DBA58189DBBC, 0x3956C25BF348B538, 0x59F111F1B605D019, 0x923F82A4AF194F9B, 0xAB1C5ED5DA6D8118, 0xD807AA98A3030242, 0x12835B0145706FBE, 0x243185BE4EE4B28C, 0x550C7DC3D5FFB4E2, 0x72BE5D74F27B896F, 0x80DEB1FE3B1696B1, 0x9BDC06A725C71235, 0xC19BF174CF692694] ++
  [0xE49B69C19EF14AD2, 0xEFBE4786384F25E3, 0x0FC19DC68B8CD5B5, 0x240CA1CC77AC9C65, 0x2DE92C6F592B0275, 0x4A7484AA6EA6E483, 0x5CB0A9DCBD41FBD4, 0x76F988DA831153B5, 0x983E5152EE66DFAB, 0xA831C66D2DB43210, 0xB00327C898FB213F, 0xBF597FC7BEEF0EE4, 0xC6E00BF33DA88FC2, 0xD5A79147930AA725, 0x06CA6351E003826F, 0x142929670A0E6E70] ++
  [0x27B70A8546D22FFC, 0x2E1B21385C26C926, 0x4D2C6DFC5AC42AED, 0x53380D139D95B3DF, 0x650A73548BAF63DE, 0x766A0ABB3C77B2A8, 0x81C2C92E47EDAEE6, 0x92722C851482353B, 0xA2BFE8A14CF10364, 0xA81A664BBC423001, 0xC24B8B70D0F89791, 0xC76C51A30654BE30, 0xD192E819D6EF5218, 0xD69906245565A910, 0xF40E35855771202A, 0x106AA07032BBD1B8] ++
  [0x19A4C116B8D2D0C8, 0x1E376C085141AB53, 0x2748774CDF8EEB99, 0x34B0BCB5E19B48A8, 0x391C0CB3C5C95A63, 0x4ED8AA4AE3418ACB, 0x5B9CCA4F7763E373, 0x682E6FF3D6B2B8A3, 0x748F82EE5DEFB2FC, 0x78A5636F43172F60, 0x84C87814A1F0AB72, 0x8CC702081A6439EC, 0x90BEFFFA23631E28, 0xA4506CEBDE82BDE9, 0xBEF9A3F7B2C67915, 0xC67178F2E372532B] ++
  [0xCA273ECEEA26619C, 0xD186B8C721C0C207, 0xEADA7DD6CDE0EB1E, 0xF57D4F7FEE6ED178, 0x06F067AA72176FBA, 0x0A637DC5A2C898A6, 0x113F9804BEF90DAE, 0x1B710B35131C471B, 0x28DB77F523047D84, 0x32CAAB7B40C72493, 0x3C9EBE0A15C9BEBC, 0x431D67C49C100D4C, 0x4CC5D4BECB3E42B6, 0x597F299CFC657E2A, 0x5FCB6FAB3AD6FAEC, 0x6C44198C4A475817]

/-- The initial hash value of SHA-512. -/
def shaInit : List Nat :=
  [0x6A09E667F3BCC908, 0xBB67AE8584CAA73B, 0x3C6EF372FE94F82B, 0xA54FF53A5F1D36F1, 0x510E527FADE682D1, 0x9B05688C2B3E6C1F, 0x1F83D9ABFB41BD6B, 0x5BE0CD19137E2179]

/-- Addition of 64-bit words. -/
def add64 (a b : Nat) : Nat := (a + b) % 2 ^ 64

/-- Rotate a 64-bit word right. -/
def rotr64 (n a : Nat) : Nat := (a / 2 ^ n) ||| (a * 2 ^ (64 - n) % 2 ^ 64)

/-- The bits of a 64-bit word inverted. -/
def not64 (a : Nat) : Nat := a ^^^ (2 ^ 64 - 1)

/-- One word of the message schedule, from the sixteen words before it, newest first. -/
def shaSched (w : List Nat) : Nat :=
  let w2 := w.getD 1 0
  let w15 := w.getD 14 0
  add64 (add64 (rotr64 19 w2 ^^^ rotr64 61 w2 ^^^ (w2 / 2 ^ 6)) (w.getD 6 0))
    (add64 (rotr64 1 w15 ^^^ rotr64 8 w15 ^^^ (w15 / 2 ^ 7)) (w.getD 15 0))

/-- The message schedule extended by n words, newest first. -/
def shaExtend : Nat → List Nat → List Nat
  | 0, w => w
  | n + 1, w => shaExtend n (shaSched w :: w)

/-- One round of the compression function. -/
def shaRound (h : List Nat) (kw : Nat × Nat) : List Nat :=
  match h with
  | [a, b, c, d, e, f, g, hh] =>
    let t1 := add64 (add64 hh (rotr64 14 e ^^^ rotr64 18 e ^^^ rotr64 41 e))
      (add64 ((e &&& f) ^^^ (not64 e &&& g)) (add64 kw.1 kw.2))
    let t2 := add64 (rotr64 28 a ^^^ rotr64 34 a ^^^ rotr64 39 a) ((a &&& b) ^^^ (a &&& c) ^^^ (b &&& c))
    [add64 t1 t2, a, b, c, add64 d t1, e, f, g]
  | _ => h

/-- One 128-byte block into the hash value. -/
def shaBlock (h : List Nat) (blk : List Byte) : List Nat :=
  let w := (List.range 16).map (fun i => bytesNat ((blk.drop (8 * i)).take 8))
  let ws := (shaExtend 64 w.reverse).reverse
  let h2 := (shaK.zip ws).foldl shaRound h
  List.zipWith add64 h h2

/-- The blocks of a padded message; the first argument bounds their count. -/
def shaBlocks : Nat → List Byte → List Nat → List Nat
  | 0, _, h => h
  | n + 1, m, h => if m.isEmpty then h else shaBlocks n (m.drop 128) (shaBlock h (m.take 128))

/-- The padding of a message: a 1 bit, zeros, and its length in bits in 16 bytes. -/
def shaPad (m : List Byte) : List Byte :=
  m ++ [0x80#8] ++ List.replicate ((239 - m.length % 128) % 128) 0 ++ natBytes 16 (8 * m.length)

/-- SHA-512 of a byte string, as 64 bytes. -/
def sha512 (m : List Byte) : List Byte :=
  let p := shaPad m
  (shaBlocks (p.length / 128 + 1) p shaInit).flatMap (natBytes 8)

/-- HMAC-SHA-512. -/
def hmac512 (key m : List Byte) : List Byte :=
  let k := if key.length > 128 then sha512 key else key
  let k := k ++ List.replicate (128 - k.length) 0
  sha512 (k.map (· ^^^ 0x5C#8) ++ sha512 (k.map (· ^^^ 0x36#8) ++ m))

/-- HKDF-SHA-512 (RFC 5869) for at most 64 bytes of output: extract, then one expansion block. -/
def hkdf512 (salt ikm info : List Byte) (len : Nat) : List Byte :=
  (hmac512 (hmac512 salt ikm) (info ++ [1#8])).take len

end Sys2Proof.Machine
end

