-- ==== Sys2Proof/Machine/TimeOps.lean ====
section
/-! DEFINITION. Election of a parent or master and the entries to the time states (13 R434, R435, R439). -/

namespace Sys2Proof.Machine

def modTime (f : TimeState → TimeState) (s : State) : State := { s with time := f s.time }

/-- The trace record of a time state change (19 Table 19.5). -/
def traceTime (old new : TimePhase) (s : State) : State :=
  if old = new then s
  else traceCrumb 5 0xF106 0 (timePhaseCode old * 256 + timePhaseCode new) ((s.time.lastOff / 65536) % 2 ^ 32).toNat s

/-- Enter a time state. -/
def setTimePhase (ph : TimePhase) (s : State) : State :=
  traceTime s.time.phase ph (modTime (fun t => { t with phase := ph }) s)

/-- ρ at entry to HOLDOVER: the mean of its last 64 values (R435). -/
def meanRho (t : TimeState) (rho : Int) : Int :=
  if t.rhos.isEmpty then rho else t.rhos.sum / (t.rhos.length : Int)

/-- Enter HOLDOVER: ρ frozen, fq kept. -/
def enterHoldover (s : State) : State :=
  setTimePhase .holdover { s with clk := { s.clk with rho := meanRho s.time s.clk.rho } }

/-- A port is a candidate (R439). -/
def isCandidate (s : State) (p : Nat) (c : TimePeer) : Bool :=
  (port s p).phase == .up && decide (nowRef s ≤ c.arrival + 1000000) && (c.state == 2 || c.state == 4) &&
    !c.jumpRefused && decide (c.hops ≤ 9) && decide (nowRef s ≤ c.advanced + 2000000) && !c.silent && !c.stalled

/-- The order of candidates: (GM_PRIORITY, GM_SID), then HOPS, then port number, as one number. -/
def candRank (p : Nat) (c : TimePeer) : Nat := ((c.gmPriority * 8192 + c.gmSid) * 16 + c.hops) * 2048 + p

/-- The best candidate. -/
def bestCandidate (s : State) : Option (Nat × TimePeer) :=
  (s.time.peers.filter (fun x => isCandidate s x.1 x.2)).foldl (fun b x => match b with
    | none => some x
    | some y => if candRank x.1 x.2 < candRank y.1 y.2 then some x else b) none

/-- The spine may be master (R439). -/
def mayBeMaster (t : TimeState) : Bool :=
  decide (t.priority < 255) &&
    (t.phase == .master || t.phase == .locked || (t.phase == .holdover && !t.jumpRefused))

/-- The spine becomes master, at ρ = 0, or goes on being it (R434, R440). -/
def becomeMaster (s : State) : State :=
  let s1 := modTime (fun t => { t with
    parent := none, hops := 0, gmPriority := t.priority, gmSid := (ownSid s).getD 0 }) s
  if s.time.phase = .master then s1 else setTimePhase .master { s1 with clk := { s1.clk with rho := 0 } }

/-- The best candidate's port becomes the parent (R434, R439). -/
def followParent (p : Nat) (c : TimePeer) (s : State) : State :=
  let sameGm := decide (s.time.gmPriority = c.gmPriority) && decide (s.time.gmSid = c.gmSid)
  let s1 := modTime (fun t => { t with
    parent := some p, firstSample := t.firstSample || !sameGm || t.phase == .holdover || t.phase == .master }) s
  match s.time.phase with
  | .unset => setTimePhase .acquiring (modTime (fun t => { t with samples := [] }) s1)
  | .master => setTimePhase .holdover s1
  | _ => s1

/-- The parent is lost (R434, R439). -/
def loseParent (s : State) : State :=
  let s1 := modTime (fun t => { t with parent := none, samples := [] }) s
  match s.time.phase with
  | .acquiring => setTimePhase .unset s1
  | .locked => enterHoldover s1
  | _ => s1

/-- The election, carried out at every TIME message and at every change of port state (R439). -/
def electParent (s : State) : State :=
  match bestCandidate s with
  | none => if mayBeMaster s.time then becomeMaster s else loseParent s
  | some (p, c) =>
    let own := s.time.priority * 8192 + (ownSid s).getD 0
    if mayBeMaster s.time && decide (own < c.gmPriority * 8192 + c.gmSid) then becomeMaster s
    else if s.time.parent = some p then s
    else followParent p c s

end Sys2Proof.Machine
end

