-- ==== Sys2Proof/Machine/LinkOps.lean ====
section
/-! DEFINITION. Changes of lane and port state: link-local messages, removal and rejoining of lanes, the entries to the
port states and what each clears, requeueing of packets, link traffic keys (chapter 3; 06 R219, R220; 18 R579). -/

namespace Sys2Proof.Machine

/-! ## Link-local messages (03 R107 to R109) -/

/-- A link-local packet of this spine (03 R107, Table 3.4); TX_TIME is stamped when its block is sent. -/
def localPacket (p llType msgId : Nat) (payload : List Word) : Packet :=
  { w0 := wordOf [at_ 31 28 2, at_ 27 24 0xF, at_ 15 0 (4 * payload.length)], w1 := 0, w2 := 0, w3 := 0,
    w4 := wordOf [at_ 31 24 llType, at_ 10 0 p], w5 := wordOf [at_ 15 0 msgId], w6 := 0, w7 := 0,
    payload := wordsBytes payload, e2e := 0 }

/-- Queue a link-local packet on given lanes of a port. -/
def queueLocal (p : Nat) (ls : List Nat) (k : Packet) (s : State) : State :=
  modPort p (fun pt => { pt with localOut := pt.localOut ++ ls.map (fun l => (l, k)) }) s

/-- Send an acknowledged message: a copy on every READY or JOINED lane, and its repeats under R109. The result names
its MSG_ID. -/
def sendMsg (p llType : Nat) (payload : List Word) (s : State) : State :=
  let pt := port s p
  let ls := readyLanes s p
  queueLocal p ls (localPacket p llType pt.nextMsg payload)
    (modPort p (fun pt => { pt with
      msgs := pt.msgs ++ [{ llType := llType, msgId := pt.nextMsg, payload := payload, sends := 1 }],
      nextMsg := (pt.nextMsg + 1) % 2 ^ 16 }) s)

/-- Send a message that is not acknowledged, on given lanes. -/
def sendOnce (p llType : Nat) (ls : List Nat) (payload : List Word) (s : State) : State :=
  let pt := port s p
  queueLocal p ls (localPacket p llType pt.nextMsg payload)
    (modPort p (fun pt => { pt with nextMsg := (pt.nextMsg + 1) % 2 ^ 16 }) s)

/-- A copy of an acknowledged message arrives: it is answered with an LL_ACK, and acted on once per MSG_ID among the
last 64 (03 R109). -/
def onMessage (p llType msgId : Nat) (act : State → State) (s : State) : State :=
  let s1 := sendOnce p 0x06 ((readyLanes s p).take 1) [wordOf [at_ 31 24 llType, at_ 15 0 msgId]] s
  if (port s p).seenMsgs.contains msgId then s1
  else act (modPort p (fun pt => { pt with seenMsgs := (msgId :: pt.seenMsgs).take 64 }) s1)

/-- The REASON code of a removal cause (03 R112). -/
def reasonCode : RemoveCause → Nat
  | .unlock => 0 | .errorRate => 1 | .delineation => 2 | .crust => 3 | .command => 4 | .message => 0 | .light => 0
  | .fade => 0

/-- The LANE payload: remove (0) or ready (1), the lanes, the reason (03 R112). -/
def laneMsg (action lanes reason : Nat) : List Word := [wordOf [at_ 31 24 action, at_ 23 16 lanes, at_ 15 8 reason]]

/-! ## The C0 policer's bucket (07 R250) -/

/-- Depth in half-bits: 32,768 bytes. -/
def c0Depth : Nat := 32768 * 8 * 2

/-- Bring a port's C0 bucket up to now: 12.5 Gb/s for each joined lane. -/
def settleC0 (p : Nat) (s : State) : State :=
  let n := (joinedLanes s p).length
  modPort p (fun pt => { pt with
    c0Level := Nat.min c0Depth (pt.c0Level + 25 * n * (nowRef s - pt.c0Time)), c0Time := nowRef s }) s

/-! ## Link traffic keys (18 R579) -/

/-- The traffic key that a root key gives for a sender and an instance. -/
def trafficKey (rk pid role ident prt inst : Nat) : Nat :=
  bytesNat (hkdf512 [] (natBytes 32 rk)
    (("IXAUX LINK".toList.map (fun c => BitVec.ofNat 8 c.toNat)) ++ natBytes 2 pid ++ natBytes 1 role ++
      natBytes 4 ident ++ natBytes 2 prt ++ natBytes 4 inst) 32)

/-- A slot when its port leaves DOWN: a loaded transmit slot takes its next instance, a receive slot searches anew. -/
def slotLeavesDown (sid p : Nat) (k : LinkSlot) : LinkSlot :=
  if k.port = p then
    match k.rk with
    | none => k
    | some rk =>
      if k.rx then { k with tk := none, misses := 0 }
      else if k.inst < 2 ^ 32 - 1 then
        { k with inst := k.inst + 1, tk := some (trafficKey rk k.pid 0 sid p (k.inst + 1)) }
      else { k with tk := none }
  else k

def deriveLinkKeys (p : Nat) (s : State) : State :=
  { s with sec := { s.sec with
    linkSlots := tabMap (fun _ k => slotLeavesDown ((ownSid s).getD 0) p k) s.sec.linkSlots } }

/-! ## Port state (03 R116 to R119, R647) -/

/-- A lane that may not rejoin: it stays out until a command restores it, or the cause that took it out holds (R122). -/
def heldOut (x : Lane) : Bool :=
  x.stayOut || x.cause == some .crust || x.cause == some .command || x.cause == some .fade

/-- Change a port's state: its counters, its trace record, its event and the neighbour report; a port that leaves DOWN
takes fresh link keys and restarts the wrap count (04 R137). -/
def changePhase (p : Nat) (new : PortPhase) (cause : Nat) (s : State) : State :=
  let old := (port s p).phase
  if old = new then s
  else
    let s1 := modPort p (fun pt => { pt with phase := new }) s
    let s2 := if new = .resume then countPort p 9 1 s1 else if new = .down then countPort p 10 1 s1 else s1
    let s3 := traceCrumb 0 0xF101 0 p (cause * 2 ^ 16 + portPhaseCode old * 256 + portPhaseCode new) s2
    let s4 := if new = .up ∨ new = .resume ∨ (new = .down ∧ (old = .up ∨ old = .resume)) then
        raise31 0x0201 [p, portPhaseCode new, cause] s3 else s3
    let s5 := if old = .down then deriveLinkKeys p (modPort p (fun pt => { pt with wraps := 0 }) s4) else s4
    noteEntry p s s5

/-- Lanes that carried data go back to READY when their port leaves UP. -/
def unjoinLanes (p : Nat) (s : State) : State :=
  (portLanes s p).foldl (fun s l => modLane l (fun x =>
    if x.phase = .joined then { x with phase := .ready, ownReady := false, peerReady := false } else x) s) s

/-- A port enters RESUME: no DATA; SEQ, credit totals and unacknowledged blocks kept (03 Table 3.9). -/
def enterResume (p cause : Nat) (s : State) : State :=
  if (port s p).phase = .up then electParent (changePhase p .resume cause (unjoinLanes p (settleC0 p s))) else s

/-- A port in DOWN with a READY lane goes to HELLO (03 Table 3.9), unless it waits for headroom (05 R167). -/
def tryHello (p : Nat) (s : State) : State :=
  if (port s p).phase = .down && !(readyLanes s p).isEmpty && !(port s p).awaitHeadroom then changePhase p .hello 0 s
  else s

/-- All ten (class, channel) keys. -/
def creditKeys : List Nat := List.range 10

/-- The target of C0 (05 R171). -/
def targetC0 (w len : Nat) : Nat := Nat.max 33 (16 * w + 9 + ceilDiv ((6000 + 98 * len) * 25 * w) 43520)

/-- The five targets of a port from its active classes (R171). -/
def creditTargets (w len : Nat) (weights active : List Nat) : List Nat :=
  let t0 := targetC0 w len
  let f := 352 * w - t0 - 132
  let wt (c : Nat) : Nat := if active.contains c then weights.getD (c - 1) 1 else 0
  let sum := wt 1 + wt 2 + wt 3 + wt 4
  t0 :: [1, 2, 3, 4].map (fun c => if active.contains c then 33 + f * wt c / sum else 33)

/-- A port enters CREDIT: the targets without an active class, and 33 slots granted to every (class, channel) (03 R97, 05 R171). -/
def enterCredit (p : Nat) (s : State) : State :=
  changePhase p .credit 0 (modPort p (fun pt => { pt with
    commit := [33, 33, 33, 33, 33], target := creditTargets pt.width (portLength s p) pt.weights [], active := [], crSeen := [], crTotal := [], crSent := [],
    freed := creditKeys.map (fun k => (k, 33)), crDue := creditKeys }) s)

/-- A port enters UP: lanes READY here and set in the peer's LANE_MASK join at once, other READY lanes announce
themselves; the C0 bucket is full and the class scheduler's times are 0 (03 R119, R122; 07 R250, Table 7.1). -/
def enterUp (p : Nat) (s : State) : State :=
  let mask := ((port s p).peer.map (·.laneMask)).getD 0
  let s1 := (portLanes s p).foldl (fun s l =>
    modLane l (fun x => if x.phase = .ready && testBitN mask (l - p) && !heldOut x then
      { x with phase := .joined, cause := none } else x) s) s
  let s2 := modPort p (fun pt => { pt with identity := pt.peer, c0Level := c0Depth, c0Time := nowRef s }) s1
  let s3 := { s2 with sched := { s2.sched with
    scheds := tabMod schedReset (fun c => { c with v := 0, f := [0, 0, 0, 0, 0, 0, 0] }) s2.sched.scheds p } }
  let s4 := changePhase p .up 0 s3
  let s5 := (portLanes s4 p).foldl (fun s l =>
    if (lane s l).phase = .ready && !heldOut (lane s l) then
      sendMsg p 0x02 (laneMsg 1 (2 ^ (l - p)) 0) (modLane l (fun x => { x with ownReady := true }) s)
    else s) s4
  electParent s5

/-! ## Packets of a port that enters DOWN (03 R118; 06 R219, R220) -/

/-- A packet found no way out: LINK_LOSS against its ingress port, or ORIGIN_LOSS in its routing slice. -/
def countLost (k : Stored) (s : State) : State :=
  match k.inPort with
  | some p => countDrop p 0x22 s
  | none => countSlice k.slice 15 s

/-- Place a copy by a route: adaptive, husk, or lost. -/
def placeRouted (id : Nat) (k : Stored) (r : Route) (s : State) : State :=
  match r with
  | .adaptive q set mask =>
    placeCopy id q (pClass k.pkt) 0 k.src (modStored id (fun k => { k with set := set, mask := mask }) s)
  | .husk q => placeCopy id q (pClass k.pkt) 1 k.src s
  | _ => dropCopy id (countLost k s)

/-- One queued copy of a port that entered DOWN: looked up again, rerouted or discarded (06 R219). -/
def requeueCopy (p cls vc : Nat) (c : Copy) (s : State) : State :=
  match stored s c.pkt with
  | none => s
  | some k =>
    if k.multicast || !lossless cls then dropCopy c.pkt (countDrop p 0x22 s)
    else
      let sl := slice s k.slice
      if vc = 1 then
        placeRouted c.pkt k (match huskPort s sl k.pkt with
          | some q => .husk q
          | none => .lost) s
      else
        let (r, g) := match chooseMember (candidates s sl k.set k.mask) (pNoSpray k.pkt) (pEntropy k.pkt) sl.lfsr with
          | (some q, g) => (Route.adaptive q k.set k.mask, g)
          | (none, _) => detour s sl k.pkt k.hopsIn
        placeRouted c.pkt k r
          (countSlice k.slice 2 (modSlice k.slice (fun x => { x with lfsr := g }) s))

/-- Every packet queued for the port, in queue order (06 R219). -/
def requeuePort (p : Nat) (s : State) : State :=
  ((List.range 8).flatMap (fun cls => (List.range 2).map (fun vc => (cls, vc)))).foldl (fun s cv =>
    (List.range 17).foldl (fun s src =>
      let key := voqKey p cv.1 cv.2 src
      let q := voq s key
      q.foldl (fun s c => requeueCopy p cv.1 cv.2 c (releaseEntry p cv.1 s)) (setVoq key [] s)) s) s

/-- Copies that were being sent or wait for acknowledgement are lost with the link: one LINK_LOSS a packet (03 R118). -/
def loseInFlight (p : Nat) (s : State) : State :=
  let pt := port s p
  let ids := distinct (pt.unacked.map (·.pkt) ++ pt.txOpen.map (fun x => x.2.pkt))
  ids.foldl (fun s id => dropCopy id (countDrop p 0x22 s)) s

/-- A packet whose last cell will not arrive: copies begun are completed with an inverted check, the others discarded
(05 R179), over zero bytes for what did not arrive. -/
def cutShort (zeroed : Bool) (id : Nat) (s : State) : State :=
  let begun := (s.link.ports.any (fun y => y.2.txOpen.any (fun o => o.2.pkt == id) || y.2.unacked.any (fun b => b.pkt == id)))
  let waits := s.buf.queues.flatMap (fun q => (q.2.filter (fun c => c.pkt == id)).map (fun _ => q.1))
  let s2 := waits.foldl (fun s key =>
    releaseEntry (key / 272) (key / 34 % 8) (setVoq key ((voq s key).filter (fun c => c.pkt != id)) s)) s
  if begun then
    let zero (o : TxOpen) : TxOpen :=
      if zeroed && o.pkt == id then
        let sent := o.data.take (256 * o.nextSlot)
        { o with data := sent ++ List.replicate (o.data.length - sent.length) 0 }
      else o
    let ports := s2.link.ports.map (fun y => (y.1, { y.2 with txOpen := tabMap (fun _ o => zero o) y.2.txOpen }))
    modStored id (fun k => { k with complete := true, stomp := true, copies := k.copies - waits.length })
      { s2 with link := { s2.link with ports := ports } }
  else freePacket id s2

/-- A packet whose last cell will not arrive (05 R179). -/
def abortArriving (id : Nat) (s : State) : State := cutShort true id s

/-- The packets that are arriving at a port. -/
def arrivingAt (s : State) (p : Nat) : Tab Stored := s.buf.packets.filter (fun x => x.2.inPort == some p && !x.2.complete)

/-- Cut-through packets whose last cell had not arrived from the port: one LINK_LOSS a packet against the ingress port
(05 R179). -/
def loseArriving (p : Nat) (s : State) : State :=
  (arrivingAt s p).foldl (fun s x => abortArriving x.1 (countDrop p 0x22 s)) s

/-- The C0 packets held at the ingress of a port are dropped (07 R251). -/
def loseHeldC0 (p : Nat) (s : State) : State :=
  let n := (port s p).c0Held
  n.foldl (fun s k => releaseHeadroom p (cvKey 0 (pVc k)) (cellsOf k) (countDrop p 0x22 s))
    (modPort p (fun pt => { pt with c0Held := [] }) s)

/-- SEQ, credit, replay and assembly state cleared (03 Table 3.9, DOWN). -/
def clearLink (pt : Port) : Port :=
  { pt with
    txSeq := 0, unacked := [], replay := none, replays := 0, rxNext := 0, window := [], nakUntil := 0, crTotal := [],
    crSent := [], crSeen := [], freed := [], commit := [0, 0, 0, 0, 0], active := [], crDue := [], rxOpen := [],
    txOpen := [], lastChosen := none, peerSeen := false, peer := none, identity := none, measured := none,
    ownHellos := [], msgs := [], localOut := [], pause := none, paused := false, mismatchTold := false,
    timePeer := none }

/-- A port enters DOWN (03 R118; 06 R219; 13 R439). -/
def enterDown (p cause : Nat) (s : State) : State :=
  let was := (port s p).phase
  if was = .down then s
  else
    let s1 := if was = .up ∨ was = .resume then loseHeldC0 p (loseArriving p (loseInFlight p s)) else s
    let s2 := (portLanes s1 p).foldl (fun s l => modLane l (fun x => { x with
      ownReady := false, peerReady := false, suspended := false, removeSent := none, removeSeen := none }) s)
      (modPort p clearLink (unjoinLanes p s1))
    let s3 := noteEntry p s (changePhase p .down cause s2)
    electParent (requeuePort p s3)

/-! ## Lanes (03 R120 to R123) -/

/-- Remove a joined lane: DATA stops, the lane trains anew or goes dark, the peer is told unless it told us, and a port
without a joined lane enters RESUME. -/
def removeLane (l : Nat) (c : RemoveCause) (s : State) : State :=
  let x := lane s l
  if x.phase ≠ .joined then s
  else
    match portOfLane s l with
    | none => s
    | some p =>
      let times := if c = .errorRate then nowRef s :: x.errorTimes.filter (fun t => decide (nowRef s < t + 60000000000))
        else x.errorTimes
      let s0 := settleC0 p s
      let msgId := (port s0 p).nextMsg
      let s1 := modLane l (fun x => { x with
        phase := if c = .light then .dark else .acquire, cause := some c, errorTimes := times,
        stayOut := x.stayOut || (c == .errorRate && decide (3 ≤ times.length)), ownReady := false, peerReady := false,
        suspended := false, removeSent := if c = .message then x.removeSent else some msgId }) s0
      let s2 := traceCrumb 1 0xF102 0 l (reasonCode c) (countLane l 7 s1)
      let s3 := if c = .message then s2 else sendMsg p 0x02 (laneMsg 0 (2 ^ (l - p)) (reasonCode c)) s2
      let s4 := if (joinedLanes s3 p).isEmpty then enterResume p 4 s3 else s3
      noteEntry p s s4

/-- A READY lane whose two LANE ready messages have been exchanged joins its port in UP, unless its removal cause holds
or it must wait for a command (03 R122). -/
def tryJoin (l : Nat) (s : State) : State :=
  let x := lane s l
  match portOfLane s l with
  | none => s
  | some p =>
    if x.phase = .ready ∧ x.ownReady ∧ x.peerReady ∧ heldOut x = false ∧ (port s p).phase = .up then
      noteEntry p s (traceCrumb 1 0xF102 0 l 0xFF
        (modLane l (fun x => { x with phase := .joined, cause := none }) (settleC0 p s)))
    else s

/-- A lane reaches READY: LANE ready goes to the peer of a port in UP; a port in DOWN goes to HELLO (03 R115, R122). -/
def laneReady (l : Nat) (s : State) : State :=
  match portOfLane s l with
  | none => s
  | some p =>
    let s1 := modLane l (fun x => { x with phase := .ready, miswired := false }) s
    let s2 := if (port s1 p).phase = .up && !heldOut (lane s1 l) then
        sendMsg p 0x02 (laneMsg 1 (2 ^ (l - p)) 0) (modLane l (fun x => { x with ownReady := true }) s1) else s1
    tryHello p (tryJoin l s2)

/-- A lane loses its light or its rings: removed when joined, else back to DARK or ACQUIRE. -/
def laneFalls (l : Nat) (c : RemoveCause) (s : State) : State :=
  if (lane s l).phase = .joined then removeLane l c s
  else
    let s1 := modLane l (fun x => { x with
      phase := if c = .light then .dark else if x.phase = .dark then .dark else .acquire, cause := some c,
      ownReady := false, peerReady := false }) s
    match portOfLane s l with
    | none => s1
    | some p => noteEntry p s s1

/-- A lane fails and is reported (19 Table 19.4): cause 0 ring, 1 laser, 2 error rate. -/
def failLane (l cause : Nat) (s : State) : State :=
  if (lane s l).failed then s
  else raiseBoth 0x0105 [l, cause] (modLane l (fun x => { x with failed := true }) (laneFalls l .unlock s))

end Sys2Proof.Machine
end

