-- ==== Sys2Proof/Machine/OptOps.lean ====
section
/-! DEFINITION. Optical operations: rings and their assignment, laser bays and cut-over, eye safety, crust circuits and
their notices (chapter 2; 20 R638, R639). -/

namespace Sys2Proof.Machine

/-! ## Rings (R42, R44) -/

/-- The place of a ring: row 0 bypass, 1 drop, 2 gate, 3 modulator, 4 add. -/
def ringKey (e f row slot : Nat) : Nat := ((e * 8 + f) * 5 + row) * 8 + slot

def ring (s : State) (k : Nat) : Ring := tabGet ringReset s.opt.rings k

def modRing (k : Nat) (f : Ring → Ring) (s : State) : State :=
  { s with opt := { s.opt with rings := tabMod ringReset f s.opt.rings k } }

def modOpt (f : OptState → OptState) (s : State) : State := { s with opt := f s.opt }

/-- The rings of one row of a pair that are bound to a colour. -/
def rowRings (s : State) (e f row k : Nat) : List Nat :=
  ((List.range 8).map (ringKey e f row)).filter (fun r =>
    (ring s r).line == k && !(ring s r).failed && (ring s r).mode != .unpowered)

/-- The drop and modulator rings of a lane. -/
def laneRings (s : State) (l : Nat) : List Nat :=
  rowRings s (laneEngine l) (laneFibre l) 1 (laneColour l) ++ rowRings s (laneEngine l) (laneFibre l) 3 (laneColour l)

/-- A ring of the lane is unlocked (R55). -/
def laneUnlocked (s : State) (l : Nat) : Bool := (laneRings s l).any (fun r => (ring s r).mode == .unlocked)

/-- Count an item of a lane, of a fibre, of an optical die (19 Table 19.1). -/
def countOptLane (l item : Nat) (s : State) : State :=
  count (counterId (0x50 + l / 256) 1 (8 * (l % 256) + item)) 1 s
def countFibre (e f item : Nat) (s : State) : State :=
  count (counterId (0x50 + e / 4) 2 (8 * (8 * (e % 4) + f) + item)) 1 s
def countDie (d item : Nat) (s : State) : State := count (counterId (0x50 + d) 3 item) 1 s

def setMode (m : RingMode) (ks : List Nat) (s : State) : State :=
  ks.foldl (fun s k => modRing k (fun r => { r with mode := m }) s) s

/-! ## Lanes taken out and given back -/

/-- A hold on a lane ends: a lane that is READY announces itself (03 R122). -/
def releaseHold (c : RemoveCause) (l : Nat) (s : State) : State :=
  if (lane s l).cause = some c then
    let s1 := modLane l (fun x => { x with cause := none }) s
    if (lane s1 l).phase = .ready then laneReady l s1 else s1
  else s

/-- Take a lane out of its port for a cause that holds: removed when joined; else held where it stands. -/
def holdLane (c : RemoveCause) (l : Nat) (s : State) : State :=
  if (lane s l).phase = .joined then removeLane l c s
  else modLane l (fun x => { x with cause := some c, ownReady := false, peerReady := false }) s

/-! ## Crust circuits (R71 to R80) -/

def circuit (s : State) (id : Nat) : Option Circuit := tabGet? s.opt.circuits id

def modCircuit (id : Nat) (f : Circuit → Circuit) (s : State) : State :=
  match circuit s id with
  | some c => modOpt (fun o => { o with circuits := tabPut o.circuits id (f c) }) s
  | none => s

/-- The bypass, gate and add rings of a circuit. -/
def circuitRings (s : State) (c : Circuit) : List Nat :=
  rowRings s c.engine c.inFibre 0 c.colour ++ rowRings s c.engine c.outFibre 2 c.colour ++
    rowRings s c.engine c.outFibre 4 c.colour

/-- The lanes a circuit takes out of their ports (R72). -/
def circuitLanes (c : Circuit) : List Nat :=
  distinct [laneOf c.engine c.inFibre c.colour, laneOf c.engine c.outFibre c.colour]

/-- A circuit occupies its lanes. -/
def circuitActive (c : Circuit) : Bool := c.phase != .deferred && c.phase != .committed

/-- The ports of a fibre pair. -/
def pairPorts (s : State) (e f : Nat) : List Nat :=
  ((List.range 8).map (fun k => laneOf e f k)).filter (fun p => portKnown s p)

/-- The address of the far end on a pair, from the latest HELLO of one of its ports. -/
def farAddress (s : State) (e f : Nat) : Nat :=
  ((pairPorts s e f).findSome? (fun p => (port s p).peer.map (·.address))).getD 0

/-- The port of a pair that carries a crust notice: one with a lane that stays in it (R75). -/
def noticePort (s : State) (c : Circuit) (f : Nat) : Option Nat :=
  (pairPorts s c.engine f).find? (fun p => (readyLanes s p).any (fun l => !(circuitLanes c).contains l))

/-- The CRUST payload (03 Table 3.7). -/
def crustPayload (action id : Nat) (c : Circuit) (peer : Nat) : List Word :=
  [wordOf [at_ 31 30 action, at_ 29 27 c.inFibre, at_ 26 24 c.colour, at_ 23 21 c.outFibre, at_ 20 16 c.engine,
    at_ 15 0 id], wordOf [at_ 31 12 peer], w32 c.effective]

/-- Send a crust notice to each far end of a circuit, and raise the CRUST event (R75; 19 Table 19.4). -/
def crustNotice (action id : Nat) (c : Circuit) (s : State) : State :=
  let s1 := (distinct [c.inFibre, c.outFibre]).foldl (fun s f =>
    match noticePort s c f with
    | some p => sendMsg p 0x04 (crustPayload action id c (farAddress s c.engine (if f = c.inFibre then c.outFibre else c.inFibre))) s
    | none => s) s
  raise31 0x0106 [c.engine, action, id] s1

/-- A circuit is lost: its rings are parked and the loss is reported (R58). -/
def loseCircuit (id : Nat) (s : State) : State :=
  match circuit s id with
  | some c =>
    if c.phase = .lit ∨ c.phase = .lighting then
      crustNotice 3 id c (modCircuit id (fun c => { c with phase := .lost }) (setMode .parked (circuitRings s c) s))
    else s
  | none => s

/-- The circuits whose bypass ring is a ring, or whose gate or add ring it is. -/
def circuitsOfRing (s : State) (k : Nat) : List Nat :=
  (s.opt.circuits.filter (fun x => (circuitRings s x.2).contains k)).map (·.1)

/-- A lane is still needed by an active circuit. -/
def laneInCircuit (s : State) (l : Nat) : Bool :=
  s.opt.circuits.any (fun x => circuitActive x.2 && (circuitLanes x.2).contains l)

/-- Each of a circuit's three rows has a ring bound to its colour, and none of these rings is unlocked. -/
def circuitWhole (s : State) (c : Circuit) : Bool :=
  !(rowRings s c.engine c.inFibre 0 c.colour).isEmpty && !(rowRings s c.engine c.outFibre 2 c.colour).isEmpty &&
    !(rowRings s c.engine c.outFibre 4 c.colour).isEmpty && (circuitRings s c).all (fun k => (ring s k).mode != .unlocked)

/-- A lost circuit whose rings are all bound and not unlocked is relit: its rings leave park (R58, R68). -/
def relight (id : Nat) (s : State) : State :=
  match circuit s id with
  | some c =>
    if c.phase = .lost ∧ (fibrePair s (c.engine * 8 + c.outFibre)).reduced = false ∧ circuitWhole s c then
      modCircuit id (fun c => { c with phase := .lighting }) (setMode .tracking (circuitRings s c) s)
    else s
  | none => s

/-! ## A ring unlocks (R55, R58) -/

/-- A ring meets the unlock criterion. -/
def unlockRing (e f row slot : Nat) (s : State) : State :=
  let k := ringKey e f row slot
  let r := ring s k
  if r.mode = .locked ∨ r.mode = .tracking then
    let l := laneOf e f r.line
    let s1 := countOptLane l 0 (modRing k (fun r => { r with mode := .unlocked }) s)
    if row = 1 ∨ row = 3 then laneFalls l .unlock s1
    else setMode .unlocked [k] ((circuitsOfRing s k).foldl (fun s id => loseCircuit id s) s1)
  else s

/-! ## Laser bays (R59 to R65) -/

def bay (s : State) (b : Nat) : Bay := tabGet bayReset s.opt.bays b

def modBay (b : Nat) (f : Bay → Bay) (s : State) : State := modOpt (fun o => { o with bays := tabMod bayReset f o.bays b }) s

/-- The bay position whose lasers feed the engines of an active position. -/
def feeder (s : State) (b : Nat) : Nat := (tabGet? s.start.cfg.cutover b).getD b

/-- The lanes of the four engines that a bay position feeds (R59). -/
def bayLanes (b : Nat) : List Nat := (List.range 256).map (256 * b + ·)

/-- The ports of those engines. -/
def bayPorts (s : State) (b : Nat) : List Nat := (bayLanes b).filter (fun p => portKnown s p)

/-- The lanes of one colour on those engines. -/
def bayColourLanes (b k : Nat) : List Nat := (bayLanes b).filter (fun l => laneColour l == k)

/-- The lower-numbered idle spare (R62). -/
def idleSpare (s : State) : Option Nat := [8, 9].find? (fun b => (bay s b).fitted && (bay s b).use == .idle)

/-- Begin the cut-over of a bay to a given spare (R61 step 1). -/
def beginCutover (b sp : Nat) (s : State) : State :=
  let c : Cutover := { spare := sp, stage := .warming, pauseTime := 0, back := false, caller := none }
  modOpt (fun o => { o with cutovers := tabPut o.cutovers b c }) (modBay sp (fun x => { x with use := .warming }) s)

/-- Start a cut-over when none runs for the bay, automatic cut-over is enabled and a spare is idle (R62). -/
def startCutover (b : Nat) (s : State) : State :=
  if !s.opt.autoSpare || (tabGet? s.opt.cutovers b).isSome then s
  else
    match idleSpare s with
    | some sp => beginCutover b sp s
    | none => s

/-- Turn a colour's laser off in a bay position. -/
def darken (b k : Nat) (s : State) : State :=
  modBay b (fun x => { x with darkColours := if testBitN x.darkColours k then x.darkColours else x.darkColours + 2 ^ k }) s

/-- Turn it on again. -/
def brighten (b k : Nat) (s : State) : State :=
  modBay b (fun x => { x with darkColours := if testBitN x.darkColours k then x.darkColours - 2 ^ k else x.darkColours }) s

def fade (s : State) (e k : Nat) : Fade := tabGet fadeReset s.opt.fades (e * 8 + k)

def modFade (e k : Nat) (f : Fade → Fade) (s : State) : State :=
  modOpt (fun o => { o with fades := tabMod fadeReset f o.fades (e * 8 + k) }) s

/-- Raise LASER_FADE and count it (19 Table 19.4). -/
def fadeEvent (b k level : Nat) (s : State) : State := countDie b 0 (raise15 0x0101 [b, k, level] s)

/-- Send the pause notice on every port of a bay's engines (R61 step 3; 03 R112). -/
def sendPause (b tp : Nat) (s : State) : State :=
  (bayPorts s b).foldl (fun s p =>
    if (readyLanes s p).isEmpty then s
    else sendMsg p 0x03 [w32 tp, wordOf [at_ 31 16 20000, at_ 15 8 (2 ^ (port s p).width - 1)]] s) s

/-! ## The search (R46, R47, R51) -/

/-- Rows of a bus in the order its light meets them (Table 2.2). -/
def busRows (tx : Bool) : List Nat := if tx then [2, 3, 4] else [0, 1]

/-- The smallest shift in the assignment window at which a ring meets a line (Table 2.3; units of 1/32 GHz). -/
def windowShift (seen : List SeenLine) (k : Nat) : Option Nat :=
  ((seen.filter (fun x => x.line == k && decide (680 * 32 ≤ x.shift) && decide (x.shift ≤ 1520 * 32))).map (·.shift)).foldl
    (fun b x => match b with
      | none => some x
      | some y => some (Nat.min x y)) none

/-- The largest shift of a rotation, if every ring of the bus takes its line in the window; rings in bus order. -/
def rotationMax (seen : List (List SeenLine)) (r : Nat) : Option Nat :=
  (seen.zipIdx).foldl (fun b x => match b, windowShift x.1 ((x.2 % 8 + r) % 8) with
    | some m, some v => some (Nat.max m v)
    | _, _ => none) (some 0)

/-- The rotation with the smallest maximum shift; of equal ones the lowest. -/
def bestRotation (seen : List (List SeenLine)) : Option Nat :=
  ((List.range 8).foldl (fun b r => match rotationMax seen r with
    | none => b
    | some m => match b with
      | none => some (m, r)
      | some (m0, r0) => if m < m0 then some (m, r) else some (m0, r0)) none).map (·.2)

/-- The free line of lowest shift in the window that a ring meets. -/
def lowestFree (seen : List SeenLine) (taken : List Nat) : Option (Nat × Nat) :=
  ((List.range 8).filter (fun k => !taken.contains k)).foldl (fun b k => match windowShift seen k with
    | none => b
    | some v => match b with
      | none => some (k, v)
      | some (k0, v0) => if v < v0 then some (k, v) else some (k0, v0)) none

/-- The assignment of one row without a rotation: rings in slot order (R46); none is FAILED. -/
def slotOrder : List (List SeenLine) → List Nat → List (Option (Nat × Nat))
  | [], _ => []
  | r :: rs, taken =>
    match lowestFree r taken with
    | some (k, v) => some (k, v) :: slotOrder rs (k :: taken)
    | none => none :: slotOrder rs taken

/-- The (line, shift) of every ring of a bus, rings in bus order, row by row (R46). -/
def assignBus (seen : List (List SeenLine)) : List (Option (Nat × Nat)) :=
  match bestRotation seen with
  | some r => (seen.zipIdx).map (fun x =>
      let k := (x.2 % 8 + r) % 8
      (windowShift x.1 k).map (fun v => (k, v)))
  | none => (List.range (ceilDiv seen.length 8)).flatMap (fun i => slotOrder ((seen.drop (8 * i)).take 8) [])

/-- The ring keys of a bus in the same order. -/
def busRings (e f : Nat) (tx : Bool) : List Nat := (busRows tx).flatMap (fun row => (List.range 8).map (ringKey e f row))

/-- The row of a ring key. -/
def rowOfKey (k : Nat) : Nat := k / 8 % 5

/-- What a ring does after a search: drop and modulator rings track their lines, gates of a reduced fibre stay on
theirs, the others are parked (R44, R66). -/
def modeAfter (reduced : Bool) (row : Nat) : RingMode :=
  if row = 1 ∨ row = 3 then .tracking else if row = 2 ∧ reduced then .tracking else .parked

/-- The shift predicted at a temperature from the record's TS: less 14 GHz/K times the change (R47). -/
def predicted (shift ts temp : Nat) : Int := (shift : Int) - 448 * ((temp : Int) - (ts : Int)) / 100

/-- The entries of a die's record from its rings (Table 2.4). -/
def recordEntries (s : State) (d : Nat) : List Word :=
  (List.range 4).flatMap (fun e => (List.range 8).flatMap (fun f => (List.range 5).flatMap (fun row =>
    (List.range 8).map (fun slot =>
      let r := ring s (ringKey (4 * d + e) f row slot)
      wordOf [at_ 31 29 row, at_ 28 27 e, at_ 26 24 f, at_ 23 21 slot, at_ 20 18 r.line, at_ 17 17 (bit r.failed),
        at_ 15 0 r.shift]))))

/-- The words of a record but its CHECK. -/
def recordBody (d : Nat) (r : PermRecord) : List Word :=
  [wordOf [at_ 31 24 1, at_ 18 16 d, at_ 15 0 0x500], wordOf [at_ 31 16 r.ts], w32 r.searches] ++ r.entries

def recordCheck (d : Nat) (r : PermRecord) : Word := crc32c (wordsBytes (recordBody d r))

def die (e : Nat) : Nat := e / 4

def busNumber (e f : Nat) (tx : Bool) : Nat := (e * 8 + f) * 2 + bit tx

/-- The buses of a die. -/
def dieBuses (d : Nat) : List Nat := (List.range 64).map (64 * d + ·)

/-- Write the record of a die once no bus of it waits for a search (R46, R49, R51). -/
def writeRecord (d temp : Nat) (s : State) : State :=
  if (s.opt.searchDue ++ s.opt.partialDue).any (fun b => (dieBuses d).contains b) then s
  else
    let old := tabGet? s.start.cfg.perm d
    let r : PermRecord := ⟨temp, ((old.map (·.searches)).getD 0 + 1) % 2 ^ 32, recordEntries s d, 0⟩
    modConfig (fun c => { c with perm := tabPut c.perm d { r with check := recordCheck d r } }) s

/-- Bring the shifts of the other rings of a die from one TS to another. -/
def rebase (d ts temp : Nat) (but : List Nat) (s : State) : State :=
  modOpt (fun o => { o with rings := tabRemap ringReset (fun k r =>
    if k / 1280 = d ∧ ¬but.contains k then { r with shift := (predicted r.shift ts temp).toNat } else r) o.rings }) s

/-- The colours that no ring of a row is bound to. -/
def missingLines (s : State) (e f row : Nat) : List Nat :=
  (List.range 8).filter (fun k => (rowRings s e f row k).isEmpty)

/-- Report the lanes whose drop or modulator ring is FAILED, and take back the report of those that have both (R48). -/
def failLanes (e f : Nat) (s : State) : State :=
  (List.range 8).foldl (fun s k =>
    let l := laneOf e f k
    if (missingLines s e f 1).contains k || (missingLines s e f 3).contains k then failLane l 0 s
    else modLane l (fun x => { x with failed := false }) s) s

/-- A bus's rings are bound anew: circuits through it are lost, and relit once whole again (R58); its lanes fall until their
rings lock. -/
def bindBus (e f : Nat) (tx : Bool) (temp : Nat) (full : Bool) (found : List (Option (Nat × Nat)))
    (s : State) : State :=
  let keys := busRings e f tx
  let s0 := (s.opt.circuits.filter (fun x => (circuitRings s x.2).any keys.contains)).foldl (fun s x => loseCircuit x.1 s) s
  let ts := ((tabGet? s0.start.cfg.perm (die e)).map (·.ts)).getD temp
  let red := (fibrePair s0 (e * 8 + f)).reduced
  let s1 := (List.zip keys found).foldl (fun s x =>
    modRing x.1 (fun _ => match x.2 with
      | some (k, v) => { line := k, shift := v, failed := false, mode := modeAfter red (rowOfKey x.1) }
      | none => { line := 0, shift := 0, failed := true, mode := .parked }) s) (rebase (die e) ts temp keys s0)
  let s2 := (List.range 8).foldl (fun s k => countOptLane (laneOf e f k) 1 s) s1
  let s3 := (if full then busRows tx else []).foldl (fun s row =>
    (missingLines s e f row).foldl (fun s k => countOptLane (laneOf e f k) 2 s) s) s2
  let s4 := modOpt (fun o => { o with
    dieTemp := tabSet (fun _ => 0) o.dieTemp (die e) temp,
    searchDue := o.searchDue.filter (· != busNumber e f tx),
    partialDue := o.partialDue.filter (· != busNumber e f tx) }) s3
  let both := !s4.opt.searchDue.contains (busNumber e f true) && !s4.opt.searchDue.contains (busNumber e f false)
  let s5 := writeRecord (die e) temp (if both then failLanes e f s4 else s4)
  (s5.opt.circuits.filter (fun x => (circuitRings s5 x.2).any keys.contains)).foldl (fun s x => relight x.1 s) s5

end Sys2Proof.Machine
end

