-- ==== Sys2Proof/Machine/Link.lean ====
section
/-! DEFINITION. Training of lanes and ports, link-local messages, HELLO (chapter 3, R109 to R123, R647). -/

namespace Sys2Proof.Machine

/-- A lane of a cluster in service stands in a phase. -/
def laneIn (s : State) (l : Nat) (ph : LanePhase) : Bool :=
  (lane s l).phase == ph && !(island s (0x10 + l / 64)).dataReset

def setLanePhase (l : Nat) (ph : LanePhase) (s : State) : State := modLane l (fun x => { x with phase := ph }) s

/-! ## Lane training (R115) -/

/-- Received power reaches signal detect: DARK to ACQUIRE, with no ring of the lane unlocked. -/
def execSignalDetect (lane : Nat) (s : State) : Host.Outcome State Fault Refusal :=
  onUnit (laneKnown lane)
    (if laneIn s lane .dark && !laneUnlocked s lane then setLanePhase lane .acquire s else s)

/-- ACQUIRE has found CDR, alignment-marker and FEC lock. -/
def execAcquireLock (lane : Nat) (s : State) : Host.Outcome State Fault Refusal :=
  onUnit (laneKnown lane) (if laneIn s lane .acquire then setLanePhase lane .delineate s else s)

/-- ACQUIRE has lasted 60 µs: back to DARK. The report after three expiries is the counter ACQUIRE_EXPIRED. -/
def execAcquireTimeout (lane : Nat) (s : State) : Host.Outcome State Fault Refusal :=
  onUnit (laneKnown lane)
    (if laneIn s lane .acquire then
      countLane lane 8 (modLane lane (fun x => { x with phase := .dark, acquireExpiries := x.acquireExpiries + 1 }) s)
    else s)

/-- Eight blocks in a row pass CHECK at one word position (R91). -/
def execDelineationLock (lane : Nat) (s : State) : Host.Outcome State Fault Refusal :=
  onUnit (laneKnown lane) (if laneIn s lane .delineate then setLanePhase lane .verify s else s)

/-- DELINEATE has lasted 10 µs: back to ACQUIRE. -/
def execDelineateTimeout (lane : Nat) (s : State) : Host.Outcome State Fault Refusal :=
  onUnit (laneKnown lane) (if laneIn s lane .delineate then setLanePhase lane .acquire s else s)

/-- A lane is named by a PAUSE whose window covers now (R113); times in 2 ns units modulo 2^32. -/
def pauseCovers (s : State) (l : Nat) : Bool :=
  match portOfLane s l with
  | none => false
  | some p =>
    match (port s p).pause with
    | none => false
    | some w => testBitN w.lanes (l - p) &&
        decide ((now32 s + 2 ^ 32 + 500 - w.time) % 2 ^ 32 ≤ 500 + w.len / 2 + 50000)

/-- A lane loses its signal, its PCS lock or its delineation: not removed inside a PAUSE window (R113). -/
def loseSignal (l : Nat) (c : RemoveCause) (s : State) : State :=
  if laneIn s l .joined && pauseCovers s l then modLane l (fun x => { x with suspended := true }) s
  else laneFalls l c s

/-- Four blocks in a row fail CHECK (R91, R120). -/
def execDelineationLoss (lane : Nat) (s : State) : Host.Outcome State Fault Refusal :=
  onUnit (laneKnown lane)
    (if laneIn s lane .dark || laneIn s lane .acquire || laneIn s lane .delineate then s
    else loseSignal lane .delineation (countLane lane 6 s))

/-- A lane loses light (R121; 02 R66). -/
def execLightLost (lane : Nat) (s : State) : Host.Outcome State Fault Refusal :=
  onUnit (laneKnown lane) (loseSignal lane .light s)

/-- Too many uncorrectable codewords or symbol errors in 1 ms (R120, R122): a third removal within 60 s keeps the lane
out and reports it. -/
def execLaneErrorRate (lane : Nat) (s : State) : Host.Outcome State Fault Refusal :=
  onUnit (laneKnown lane)
    (if laneIn s lane .joined then
      let s1 := removeLane lane .errorRate s
      if (Machine.lane s1 lane).stayOut then failLane lane 2 s1 else s1
    else s)

/-- A lane has been clean for its VERIFY interval; `received` is the LANE field it receives (R115). A lane kept in its
port by a PAUSE window is whole again. -/
def execVerifyPass (lane received : Nat) (s : State) : Host.Outcome State Fault Refusal :=
  onUnit (laneKnown lane)
    (match portOfLane s lane with
    | none => s
    | some p =>
      if laneIn s lane .joined then modLane lane (fun x => { x with suspended := false }) s
      else if !laneIn s lane .verify then s
      else if received = lane - p then
        noteEntry p s (laneReady lane (modLane lane (fun x => { x with acquireExpiries := 0 }) s))
      else if (Machine.lane s lane).miswired then s
      else
        noteEntry p s (raiseBoth 0x0204 [p, lane - p, received] (modLane lane (fun x => { x with miswired := true }) s)))

/-! ## Messages (R109, R112, R113, R117, R122, R123) -/

/-- LANE ready for one lane: kept, unless it must be discarded (R122, R123). -/
def laneReadyRx (msgId l : Nat) (s : State) : State :=
  let x := lane s l
  let stale := match x.removeSeen with
    | some m => serialAhead 65536 m msgId
    | none => false
  if x.removeSent.isSome || stale then s
  else tryJoin l (modLane l (fun x => { x with peerReady := true }) s)

/-- LANE remove for one lane: both directions of a lane are removed together (R121 to R123). -/
def laneRemoveRx (msgId l : Nat) (s : State) : State :=
  let s1 := modLane l (fun x => { x with removeSeen := some msgId, peerReady := false }) s
  if laneIn s l .joined || laneIn s l .ready then laneFalls l .message s1 else s1

/-- A LANE message: ACTION 0 remove, 1 ready, others reserved. -/
def execLaneMessageRx (port msgId action lanes : Nat) (s : State) : Host.Outcome State Fault Refusal :=
  onUnit (portKnown s port)
    (onMessage port 0x02 msgId (fun s =>
      ((portLanes s port).filter (fun l => testBitN lanes (l - port))).foldl (fun s l =>
        if action = 0 then laneRemoveRx msgId l s else if action = 1 then laneReadyRx msgId l s else s) s) s)

/-- A PAUSE: its window suppresses removal of the lanes it names (R113). -/
def execPauseRx (port msgId time len lanes : Nat) (s : State) : Host.Outcome State Fault Refusal :=
  onUnit (portKnown s port)
    (onMessage port 0x03 msgId (modPort port (fun pt => { pt with pause := some { time := time, len := len, lanes := lanes } })) s)

/-- The PAUSE window ends: a named lane that has not trained again is removed (R113). -/
def execPauseWindowEnd (port : Nat) (s : State) : Host.Outcome State Fault Refusal :=
  onUnit (portKnown s port)
    (match (Machine.port s port).pause with
    | none => s
    | some w =>
      ((portLanes s port).filter (fun l => testBitN w.lanes (l - port) && (lane s l).suspended)).foldl
        (fun s l => removeLane l .light s) (modPort port (fun pt => { pt with pause := none }) s))

/-- A RETRAIN message: RESUME from UP; a port already there acknowledges (R117). -/
def execRetrainRx (port msgId : Nat) (s : State) : Host.Outcome State Fault Refusal :=
  onUnit (portKnown s port) (onMessage port 0x05 msgId (enterResume port 2) s)

/-- An LL_ACK ends the repeats of its message; an acknowledged LANE remove no longer bars LANE ready (R109, R123). -/
def execLlAckRx (port llType msgId : Nat) (s : State) : Host.Outcome State Fault Refusal :=
  let s1 := modPort port (fun pt => { pt with
    msgs := pt.msgs.filter (fun m => !(m.llType == llType && m.msgId == msgId)),
    localOut := pt.localOut.filter (fun x => !(xLlType x.2 == llType && xMsgId x.2 == msgId)) }) s
  onUnit (portKnown s port)
    (if llType = 2 then
      (portLanes s port).foldl (fun s l =>
        modLane l (fun x => { x with removeSent := if x.removeSent = some msgId then none else x.removeSent }) s) s1
    else s1)

/-- Repeat one message, or give it up after eight sends with an event (R109). -/
def retryMsg (p : Nat) (m : LinkMsg) (s : State) : State :=
  if m.sends < 8 then
    queueLocal p (readyLanes s p) (localPacket p m.llType m.msgId m.payload)
      (modPort p (fun pt => { pt with msgs := pt.msgs.map (fun x =>
        if x.msgId = m.msgId then { x with sends := x.sends + 1 } else x) }) s)
  else
    raise31 0x0203 [p, m.llType, m.msgId]
      (countPort p 11 1 (modPort p (fun pt => { pt with msgs := pt.msgs.filter (fun x => x.msgId != m.msgId) }) s))

/-- 2 µs have passed: every unacknowledged message is repeated (R109). -/
def execLlRetryTick (port : Nat) (s : State) : Host.Outcome State Fault Refusal :=
  onUnit (portKnown s port) ((Machine.port s port).msgs.foldl (fun s m => retryMsg port m s) s)

/-! ## HELLO (R110, R111, R116, R119, R451, R453) -/

/-- The HELLO payload; ECHO_DELAY is stamped when the block leaves (Table 3.6). -/
def helloPayload (s : State) (p : Nat) : List Word :=
  let pt := port s p
  let mask := laneMaskOf s p (fun l => l.phase == .ready || l.phase == .joined)
  [wordOf [at_ 27 24 1, at_ 23 23 1, at_ 22 22 (bit pt.compat), at_ 21 20 (widthCode pt.width),
      at_ 19 19 (bit (pt.peerSeen && (ownSid s).isSome)), at_ 18 18 (bit (pt.phase == .resume)), at_ 15 8 mask],
    0, wordOf [at_ 31 19 ((ownSid s).getD 0), at_ 18 18 (bit (ownSid s).isSome)], w32 pt.echoTime, 0,
    wordOf [at_ 31 16 (fibrePair s (portPair p)).length], wordOf [at_ 23 0 pt.rxNext]]

/-- The HELLO interval elapses: one on each READY or JOINED lane of a port in HELLO, UP or RESUME. -/
def execHelloTick (port : Nat) (s : State) : Host.Outcome State Fault Refusal :=
  let ph := (Machine.port s port).phase
  onUnit (portKnown s port)
    (if ph = .hello ∨ ph = .up ∨ ph = .resume then sendOnce port 0x01 (readyLanes s port) (helloPayload s port) s else s)

/-- A port has stayed in HELLO: an event (R647). -/
def execHelloWait (port : Nat) (s : State) : Host.Outcome State Fault Refusal :=
  onUnit (portKnown s port) (if (Machine.port s port).phase = .hello then raise31 0x0202 [port, 0] s else s)

/-- What a HELLO packet says of its sender. -/
def helloPeer (k : Packet) : PeerInfo :=
  let p0 := payloadWord k 0
  let p2 := payloadWord k 2
  { role := fld p0 31 28, address := fld (payloadWord k 1) 31 12, sid := fld p2 31 19, sidValid := fld p2 18 18 == 1,
    v1 := fld p0 22 22 == 1, v2 := fld p0 23 23 == 1, width := fld p0 21 20, laneMask := fld p0 15 8, port := xLlPort k }

/-- A HELLO is valid: a defined ROLE, link layer version 1, all seven words (Table 3.6). -/
def helloValid (k : Packet) : Bool :=
  decide (28 ≤ k.payload.length) && decide (fld (payloadWord k 0) 31 28 ≤ 2) && fld (payloadWord k 0) 27 24 == 1

/-- The length that a HELLO measures, when its ECHO_TIME is one of ours (R111); times in 2 ns units. -/
def helloLength (pt : Port) (k : Packet) (arrival : Nat) : Option Nat :=
  let echo := (payloadWord k 3).toNat
  if pt.ownHellos.contains echo then
    some (ceilDiv (10 * ((arrival + 2 ^ 33 - echo - (payloadWord k 4).toNat) % 2 ^ 32)) 49)
  else none

/-- The peer names another spine, leaf or endpoint than the one that brought the port up (R117). -/
def identityChanged (pt : Port) (h : PeerInfo) : Bool :=
  match pt.identity with
  | some i => i.address != h.address || i.sid != h.sid || i.sidValid != h.sidValid || i.role != h.role
  | none => false

/-- The peer's SID is our own (R453). -/
def sidCollides (s : State) (h : PeerInfo) : Bool := h.role == 0 && h.sidValid && ownSid s == some h.sid

/-- Both ends accept one header version (R124). -/
def versionShared (pt : Port) (h : PeerInfo) : Bool := h.v2 || (pt.compat && h.v1)

/-- A HELLO in HELLO: collision, version mismatch, or on to CREDIT when every condition of Table 3.9 holds. -/
def helloInHello (p : Nat) (h : PeerInfo) (seen : Bool) (s : State) : State :=
  let pt := port s p
  if sidCollides s h then
    let s1 := modPort p (fun pt => { pt with peerSeen := false }) s
    if s.fab.collided.contains p then s1
    else raise31 0x0205 [p, h.sid] { s1 with fab := { s1.fab with collided := p :: s1.fab.collided } }
  else
    let s1 := { s with fab := { s.fab with collided := s.fab.collided.filter (· != p) } }
    if !versionShared pt h then
      if pt.mismatchTold then s1
      else raise31 0x0202 [p, 1] (modPort p (fun pt => { pt with mismatchTold := true }) s1)
    else if seen && h.width == widthCode pt.width && (ownSid s).isSome &&
        (match pt.measured with
          | some m => decide (m ≤ 2100)
          | none => false) then enterCredit p s1
    else s1

/-- Acknowledge every block before a SEQ: its copies end with their EOP (R105; 05 R168). -/
def ackUpTo (p aseq : Nat) (s : State) : State :=
  let pt := port s p
  let gone := pt.unacked.filter (fun b => serialAhead (2 ^ 24) aseq b.seq)
  if serialAhead (2 ^ 24) aseq pt.txSeq || gone.isEmpty then s
  else
    let rest := pt.unacked.filter (fun b => !serialAhead (2 ^ 24) aseq b.seq)
    let s1 := modPort p (fun pt => { pt with
      unacked := rest,
      replay := if rest.isEmpty then none else pt.replay.map (fun i => i - gone.length),
      replays := if serialAhead (2 ^ 24) aseq pt.replayFrom then 0 else pt.replays }) s
    gone.foldl (fun s b => if b.eop then dropCopy b.pkt s else s) s1

/-- Begin a replay at a position of the unacknowledged blocks (R105, R106). -/
def startReplay (p idx seq : Nat) (s : State) : State :=
  countPort p 6 1 (modPort p (fun pt => { pt with
    replay := some idx, replayTime := nowRef s, replayFrom := seq,
    replays := if pt.replays ≠ 0 ∧ pt.replayFrom = seq then pt.replays + 1 else 1 }) s)

/-- A HELLO with RESUME arrives in RESUME: UP, replaying from the peer's RX_NEXT (Table 3.9). -/
def resumePort (p rxNext : Nat) (s : State) : State :=
  let s1 := ackUpTo p rxNext s
  let s2 := match (port s1 p).unacked with
    | b :: _ => startReplay p 0 b.seq s1
    | [] => s1
  enterUp p (modPort p (fun pt => { pt with replays := 0 }) s2)

/-- What a valid HELLO leaves in the port whatever its state: the far end, the echo of its time, a measured length (R100,
R107). -/
def recordHello (port : Nat) (pkt : Packet) (arrival : Nat) (s : State) : State :=
  let pt := Machine.port s port
  modPort port (fun x => { x with
    peer := some (helloPeer pkt), peerSeen := true, echoTime := pkt.w6.toNat, echoArrival := arrival,
    measured := (helloLength pt pkt arrival).or x.measured }) s

/-- A HELLO arrives on a READY or JOINED lane; `arrival` is its time at the receive fibre face in 2 ns units. -/
def execHelloRx (port : Nat) (pkt : Packet) (arrival : Nat) (s : State) : Host.Outcome State Fault Refusal :=
  let pt := Machine.port s port
  let h := helloPeer pkt
  let seen := fld (payloadWord pkt 0) 19 19 == 1
  onUnit (portKnown s port)
    (if pt.phase = .down || !helloValid pkt then s
    else
      let s1 := recordHello port pkt arrival s
      let s2 := match pt.phase with
        | .hello => helloInHello port h seen s1
        | .up => if identityChanged pt h then tryHello port (enterDown port 5 s1) else s1
        | .resume =>
          if fld (payloadWord pkt 0) 18 18 == 1 && seen then resumePort port (fld (payloadWord pkt 6) 23 0) s1 else s1
        | _ => s1
      noteEntry port s s2)

/-! ## Port timers (Table 3.9) -/

/-- CREDIT has lasted 20 µs. -/
def execCreditTimeout (port : Nat) (s : State) : Host.Outcome State Fault Refusal :=
  onUnit (portKnown s port)
    (if (Machine.port s port).phase = .credit then tryHello port (enterDown port 9 s) else s)

/-- RESUME has lasted 10 ms. -/
def execResumeTimeout (port : Nat) (s : State) : Host.Outcome State Fault Refusal :=
  onUnit (portKnown s port)
    (if (Machine.port s port).phase = .resume then tryHello port (enterDown port 7 s) else s)

/-- Eight replays from one SEQ without progress: RESUME (R106). -/
def execReplayLimit (port : Nat) (s : State) : Host.Outcome State Fault Refusal :=
  onUnit (portKnown s port) (if 8 ≤ (Machine.port s port).replays then enterResume port 1 s else s)

end Sys2Proof.Machine
end

