-- ==== Sys2Proof/Machine/Watch.lean ====
section
/-! DEFINITION. Traffic filters (19 R595, R596) and what asks for a reset: scopes, merging and absorption of triggers
(17 R551 to R556). -/

namespace Sys2Proof.Machine

/-! ## Filters -/

/-- The fields that every packet point applies: class, partition, master. -/
def filterPacket (f : FilterRec) (p : Packet) : Bool :=
  testBitN f.classes (pClass p) && (!f.pidMatch || f.pid == pPid p) && maskMatch f.srcValue f.srcMask (pSrc p)

/-- Points 0 and 1: a packet in a slice. -/
def filterSlice (point sl : Nat) (p : Packet) (s : State) : State :=
  s.tele.filters.foldl (fun s x =>
    let f := x.2
    if f.enable && f.point == point && testBitN f.slices sl && filterPacket f p && testBitN f.kinds (pKind p) &&
        maskMatch f.destValue f.destMask (pDest p) then countFilter (8 + sl) 5 x.1 1 (pLength p) s
    else s) s

/-- The command codes of a Granary access (04 Table 4.10). -/
def gopRead : Nat := 2

/-- Point 2: a Granary request; READ counts READ_LEN (R596). -/
def filterGranary (p : Packet) (s : State) : State :=
  s.tele.filters.foldl (fun s x =>
    let f := x.2
    if f.enable && f.point == 2 && filterPacket f p && maskMatch (f.destValue / 16) (f.destMask / 16) (xRegion p) then
      countFilter 0 4 x.1 1 (if xGop p = gopRead then xReadLen p else pLength p) s
    else s) s

/-! ## Scopes (17 Tables 17.7, 17.8) -/

/-- The island of an engine. -/
def engineIsland (typ idx : Nat) : Nat :=
  if typ = 1 then 0x30 + idx / 8 else if typ = 2 then 0x38 else if typ = 3 then 0x40 + idx / 2
  else if typ = 4 then 0x40 + idx else if typ = 5 then 0x50 + idx / 32 else 0x10 + idx / 64

/-- SCOPE of an engine: island, TYPE, INDEX. -/
def engineScope (typ idx : Nat) : Nat := engineIsland typ idx * 2 ^ 24 + typ * 2 ^ 16 + idx

/-- SCOPE of an island. -/
def islandScope (i : Nat) : Nat := i * 2 ^ 24

def scopeIsland (scope : Nat) : Nat := scope / 2 ^ 24
def scopeType (scope : Nat) : Nat := scope / 2 ^ 16 % 256
def scopeIndex (scope : Nat) : Nat := scope % 2 ^ 16

/-- The slice whose scope an island belongs to. -/
def sliceOfIsland (i : Nat) : Option Nat :=
  if 0x08 ≤ i ∧ i < 0x10 then some (i - 8) else if 0x10 ≤ i ∧ i < 0x30 then some ((i - 0x10) / 4) else none

/-- The islands of the L3 scope of an island (Table 17.8). -/
def l3Islands (i : Nat) : List Nat :=
  match sliceOfIsland i with
  | some n => [8 + n, 0x10 + 4 * n, 0x11 + 4 * n, 0x12 + 4 * n, 0x13 + 4 * n]
  | none => [i]

/-- The island that names an L3 scope. -/
def l3Home (i : Nat) : Nat := (l3Islands i).headD i

/-- Two scopes overlap. -/
def scopesOverlap (la sa lb sb : Nat) : Bool :=
  if 4 ≤ la || 4 ≤ lb then true
  else if la = 2 && lb = 2 then sa == sb
  else
    let ia := if la = 3 then l3Islands (scopeIsland sa) else [scopeIsland sa]
    let ib := if lb = 3 then l3Islands (scopeIsland sb) else [scopeIsland sb]
    ia.any ib.contains

/-- A trigger of L2 or above (R556): absorbed by a reset of the same or a higher level that is in progress over its
scope; it ends a lower one; asked for together with another over the same scope, the higher level acts and names the
other trigger in its ARG words. -/
def escalate (lvl scope trigger : Nat) (args : List Nat) (s : State) : State :=
  let above (e : Escalation) : Bool := scopesOverlap lvl scope e.level e.scope
  if s.rst.asked.any (fun e => e.active && above e && decide (lvl ≤ e.level)) then countControl 11 s
  else
    let kept := s.rst.asked.filter (fun e => !(e.active && above e))
    let new : Escalation := { level := lvl, scope := scope, trigger := trigger, args := args, active := false }
    match kept.find? above with
    | none => { s with rst := { s.rst with asked := kept ++ [new] } }
    | some e =>
      if lvl ≤ e.level then
        { s with rst := { s.rst with asked := kept.map (fun x => if x = e then { x with args := x.args ++ [trigger] } else x) } }
      else
        let up : Escalation := { new with args := args ++ [e.trigger] }
        { s with rst := { s.rst with asked := (kept.filter (fun x => !above x)) ++ [up] } }

/-- An island whose L3 is L4: the crossbar and control islands (Table 17.8). -/
def escalateIsland (i trigger : Nat) (args : List Nat) (s : State) : State :=
  if i ≤ 1 then escalate 4 0 trigger args s else escalate 3 (islandScope (l3Home i)) trigger args s

end Sys2Proof.Machine
end

