-- ==== Sys2Proof/Machine/Blocks.lean ====
section
/-! DEFINITION. Link blocks: what a lane sends at each block time, what arrives in DATA, IDLE and LOCAL blocks, sequence,
acknowledgement, replay and credit (chapter 3; 05 R170, R171, R178, R182; 07 R239 to R249, R265; 13 R446). -/

namespace Sys2Proof.Machine

/-! ## Receiving -/

/-- Round-trip time of a port in ns, rounded up (R98). -/
def rttNs (s : State) (p : Nat) : Nat := 600 + ceilDiv (98 * portLength s p) 10

/-- The receiver NAKs its expected SEQ for 200 ns and discards what it holds ahead of it (R104). -/
def startNak (p : Nat) (s : State) : State :=
  countPort p 4 1 (modPort p (fun pt => { pt with nakSeq := pt.rxNext, nakUntil := nowRef s + 200, window := [] }) s)

/-- A NAK arrives: replay from its SEQ, unless a replay from there began less than RTT ago (R105, R119). -/
def nakReceived (p seq : Nat) (s : State) : State :=
  let pt := port s p
  let s1 := countPort p 5 1 s
  match pt.unacked.findIdx? (fun b => b.seq == seq) with
  | none => s1
  | some i =>
    if pt.replays ≠ 0 ∧ pt.replayFrom = seq ∧ nowRef s < pt.replayTime + rttNs s p then s1 else startReplay p i seq s1

/-- The acknowledgement and NAK of a block (R105); a NAK in RESUME is ignored (R119). -/
def applyAck (p : Nat) (b : Block) (s : State) : State :=
  let s1 := ackUpTo p (bAseq b) s
  if bAkind b = 2 ∧ (port s p).phase ≠ .resume then nakReceived p (bAseq b) s1 else s1

/-- The credit total of a block: ignored in DOWN, HELLO and RESUME; the tenth in CREDIT brings the port up (R95, R116). -/
def applyCredit (p : Nat) (b : Block) (s : State) : State :=
  let ph := (port s p).phase
  if bCrValid b && (ph == .credit || ph == .up) then
    let k := cvKey (bCrClass b) (bCrVc b)
    let s1 := modPort p (fun pt => { pt with
      crTotal := tabSet zeroTab pt.crTotal k (bCrTotal b),
      crSeen := if pt.phase = .credit then distinct (pt.crSeen ++ [k]) else pt.crSeen }) s
    if ph = .credit ∧ (port s1 p).crSeen.length = 10 then enterUp p s1 else s1
  else s

/-- What every block does on arrival: counted; a failing one NAKs on a joined lane; a reserved one is discarded
(R90, R104). None: the block goes no further. -/
def arrive (l p : Nat) (b : Block) (s : State) : State × Bool :=
  let s1 := countLane l 1 s
  if !blockPasses b then
    let s2 := countLane l 5 s1
    let ph := (port s p).phase
    (if (lane s l).phase = .joined ∧ (ph = .up ∨ ph = .credit) then startNak p s2 else s2, false)
  else if blockReserved b then (countLane l 9 s1, false)
  else (s1, true)

/-- Acknowledgement and credit of a block. -/
def applyFields (p : Nat) (b : Block) (s : State) : State := applyCredit p b (applyAck p b s)

/-- An IDLE block arrives. -/
def execIdleBlockRx (lane : Nat) (block : Block) (s : State) : Host.Outcome State Fault Refusal :=
  onUnit (laneKnown lane)
    (match portOfLane s lane with
    | none => s
    | some p =>
      let (s1, ok) := arrive lane p block s
      if ok && bType block == 0 then applyFields p block s1 else s1)

/-- The open packet of (port, class, channel) is discarded with what the buffer holds of it (R93). -/
def discardOpen (p key : Nat) (s : State) : State :=
  ((arrivingAt s p).filter (fun x => x.2.chargeKey == key)).foldl (fun s x => abortArriving x.1 s)
    (countPort p 8 1 (modPort p (fun pt => { pt with rxOpen := tabDel pt.rxOpen key }) s))

/-- One slot in order: begins, continues or ends a packet of its (class, channel) (R92, R93). -/
def deliverSlot (p : Nat) (b : Block) (s : State) : State :=
  let key := cvKey (bClass b) (bVc b)
  let openBytes := tabGet? (port s p).rxOpen key
  if !bSop b && openBytes.isNone then countPort p 8 1 s
  else
    let s1 := if bSop b && openBytes.isSome then discardOpen p key s else s
    let bytes := if bSop b then b.slot else openBytes.getD [] ++ b.slot
    let act := bClass b
    let s2 := modPort p (fun pt => { pt with
      rxOpen := if bEop b then tabDel pt.rxOpen key else tabPut pt.rxOpen key bytes,
      active := if pt.active.contains act then pt.active else act :: pt.active }) s1
    if bEop b then countPort p 1 (bytesNat ((bytes.drop 2).take 2)) (countPort p 0 1 s2) else s2

/-- Deliver the expected block, then those held behind it; the first argument bounds the count. -/
def deliverRun : Nat → Nat → Block → State → State
  | 0, p, b, s => modPort p (fun pt => { pt with rxNext := (pt.rxNext + 1) % 2 ^ 24 }) (deliverSlot p b s)
  | n + 1, p, b, s =>
    let s1 := modPort p (fun pt => { pt with rxNext := (pt.rxNext + 1) % 2 ^ 24 }) (deliverSlot p b s)
    match (port s1 p).window.find? (fun x => x.1 == (port s1 p).rxNext) with
    | some x => deliverRun n p x.2 (modPort p (fun pt => { pt with window := pt.window.filter (fun y => y.1 != x.1) }) s1)
    | none => s1

/-- A DATA block in sequence, ahead of it, or behind it (R103, R104). -/
def sequenceBlock (p : Nat) (b : Block) (s : State) : State :=
  let pt := port s p
  if bSeq b = pt.rxNext then deliverRun 64 p b s
  else if serialAhead (2 ^ 24) (bSeq b) pt.rxNext then
    if pt.window.any (fun x => x.1 == bSeq b) then s
    else
      let s1 := modPort p (fun pt => { pt with window := pt.window ++ [(bSeq b, b)] }) s
      if 64 ≤ (port s1 p).window.length then startNak p s1 else s1
  else countPort p 7 1 s

/-- A DATA block arrives: accepted only in CREDIT or UP on a lane in READY or JOINED (R648). -/
def execDataBlockRx (lane : Nat) (block : Block) (s : State) : Host.Outcome State Fault Refusal :=
  onUnit (laneKnown lane)
    (match portOfLane s lane with
    | none => s
    | some p =>
      let (s1, ok) := arrive lane p block s
      let ph := (port s p).phase
      let lp := (Machine.lane s lane).phase
      if !ok || bType block != 1 then s1
      else if (ph = .credit ∨ ph = .up) ∧ (lp = .ready ∨ lp = .joined) then
        sequenceBlock p block (applyFields p block s1)
      else countLane lane 9 s1)

/-- The packet that fills a LOCAL block, and the CRC of its trailer. -/
def localContent (b : Block) : Packet × Word :=
  let w (i : Nat) : Word := w32 (bytesNat ((b.slot.drop (4 * i)).take 4))
  let n := fld (w 0) 15 0
  let k : Packet := {
    w0 := w 0, w1 := w 1, w2 := w 2, w3 := w 3, w4 := w 4, w5 := w 5, w6 := w 6, w7 := w 7,
    payload := (b.slot.drop 32).take n, e2e := w32 (bytesNat ((b.slot.drop (32 + n)).take 4)) }
  (k, w32 (bytesNat ((b.slot.drop (36 + n)).take 4)))

/-- A LOCAL packet is passed on: its trailer passes, its kind is 0xF or 0x9, its type is defined, its payload fits
(R107, R108; 13 R431). -/
def localGood (b : Block) : Bool :=
  let (k, crc) := localContent b
  decide (pLength k ≤ 216) && packetCrc k == crc &&
    (if pKind k = 0xF then decide (1 ≤ xLlType k) && decide (xLlType k ≤ 6)
     else pKind k == 9 && xTtType k == 1)

/-- A LOCAL block arrives: its packet goes on to its own step, or is discarded and counted. -/
def execLocalBlockRx (lane : Nat) (block : Block) (s : State) : Host.Outcome State Fault Refusal :=
  onUnit (laneKnown lane)
    (match portOfLane s lane with
    | none => s
    | some p =>
      let (s1, ok) := arrive lane p block s
      if !ok || bType block != 2 then s1
      else
        let s2 := applyFields p block s1
        if localGood block then s2 else countPort p 12 1 s2)

/-- Block E has not arrived 40 ns after a block ahead of it (R104). -/
def execNakGapTimeout (port : Nat) (s : State) : Host.Outcome State Fault Refusal :=
  onUnit (portKnown s port) (if (Machine.port s port).window.isEmpty then s else startNak port s)

/-- ASEQ has not advanced for RTT + 1 µs: replay from the oldest unacknowledged block (R106). -/
def execAckTimeoutReplay (port : Nat) (s : State) : Host.Outcome State Fault Refusal :=
  onUnit (portKnown s port)
    (match (Machine.port s port).unacked with
    | b :: _ => if (Machine.port s port).phase = .up then startReplay port 0 b.seq s else s
    | [] => s)

/-! ## Credit a receiver grants (R96, R97; 05 R171) -/

/-- Every credit total is to be repeated. -/
def execCreditRepeatTick (port : Nat) (s : State) : Host.Outcome State Fault Refusal :=
  onUnit (portKnown s port)
    (if (Machine.port s port).phase = .credit ∨ (Machine.port s port).phase = .up then
      modPort port (fun pt => { pt with crDue := distinct (pt.crDue ++ creditKeys) }) s
    else s)

/-- Every 1 µs the targets follow the classes whose cells arrived in it. -/
def execCreditTargetTick (port : Nat) (s : State) : Host.Outcome State Fault Refusal :=
  let len := portLength s port
  onUnit (portKnown s port)
    (modPort port (fun pt => { pt with target := creditTargets pt.width len pt.weights pt.active, active := [] }) s)

/-- One class's grant toward its target. -/
def grantOne (c : Nat) (pt : Port) : Port :=
  let k := pt.commit.getD c 0
  let room := 352 * pt.width - pt.commit.sum
  let g := Nat.min (pt.target.getD c 0 - k) room
  if 0 < g then returnCredit (cvKey c 0) g { pt with commit := pt.commit.set c (k + g) } else pt

/-- Every 200 ns uncommitted headroom is granted, C0 first. -/
def execCreditGrantTick (port : Nat) (s : State) : Host.Outcome State Fault Refusal :=
  onUnit (portKnown s port)
    (if (Machine.port s port).phase = .credit ∨ (Machine.port s port).phase = .up then
      modPort port (fun pt => [0, 1, 2, 3, 4].foldl (fun pt c => grantOne c pt) pt) s
    else s)

/-! ## Sending: what may go -/

/-- The sender holds a credit of (class, channel), or the class needs none (R94, R95). -/
def hasCredit (pt : Port) (cls vc : Nat) : Bool :=
  !lossless cls ||
    decide ((tabGet zeroTab pt.crTotal (cvKey cls vc) + 4096 - tabGet zeroTab pt.crSent (cvKey cls vc) % 4096) % 4096 ≠ 0)

/-- The transmit key slot of a port and partition that is bound, loaded and has a traffic key (04 R139; 18 R579). -/
def txKey (s : State) (p pid : Nat) : Option Nat :=
  (s.sec.linkSlots.find? (fun x => x.2.port == p && !x.2.rx && x.2.pid == pid && x.2.rk.isSome)).bind (fun x => x.2.tk)

/-- A FENCE of this spine's own, which R146 and R147 let pass (14 R465). -/
def ownFence (s : State) (k : Packet) : Bool :=
  pKind k == 5 && xCtype k == 2 && pSpineSrc k && some (pSrc k) == ownSid s

/-- Why a copy is dropped at egress: FENCED_EGRESS, VERSION_EGRESS, NO_KEY, in this order (04 R152). -/
def egressDrop (s : State) (p : Nat) (k : Packet) : Option Nat :=
  let pe := partEntry (slice s (egressSlice p)) (pPid k)
  if !ownFence s k && (pe.fenced || (pVersion k == 2 && pEpoch k != pe.epoch)) then some 0x19
  else if pVersion k == 1 && !(port s p).compat then some 0x1A
  else if pEnc k && (txKey s p (pPid k)).isNone then some 0x18
  else none

/-- Drop the copies at the front of one queue that may not leave. -/
def purgeQueue (key : Nat) : List Copy → State → State
  | [], s => s
  | c :: cs, s =>
    let p := key / 272
    match stored s c.pkt with
    | none => purgeQueue key cs (setVoq key cs s)
    | some k =>
      match egressDrop s p k.pkt with
      | some code => purgeQueue key cs (dropCopy c.pkt (countDrop p code (releaseEntry p (key / 34 % 8) (setVoq key cs s))))
      | none => s

/-- Do so at every queue of a port. -/
def purgePort (p : Nat) (s : State) : State :=
  (s.buf.queues.filter (fun x => x.1 / 272 == p)).foldl (fun s x => purgeQueue x.1 x.2 s) s

/-- The head of a queue when its first cell may be read (05 R176). -/
def readyHead (s : State) (p cls vc src : Nat) : Option (Copy × Stored) :=
  match voq s (voqKey p cls vc src) with
  | c :: _ => match stored s c.pkt with
    | some k => if k.complete || !k.storeForward then some (c, k) else none
    | none => none
  | [] => none

/-- Deficit round robin among the sources: the source that sends next and the deficits after it has (05 R182). -/
def drrPick (s : State) (p cls vc : Nat) : Option (Nat × Nat × List Nat) :=
  let (cur, defs) := tabGet (fun _ => (0, [])) s.buf.drr (pcvKey p cls vc)
  let size (src : Nat) : Option Nat := (readyHead s p cls vc src).map (fun x => x.2.cells)
  let order := (List.range 17).map (fun i => (cur + 1 + i) % 17)
  let full := (List.range 17).map (fun i => defs.getD i 0)
  match size cur with
  | some n =>
    if n ≤ full.getD cur 0 then some (cur, cur, full.set cur (full.getD cur 0 - n))
    else
      (order.find? (fun x => (size x).isSome)).map (fun x => (x, x, full.set x (full.getD x 0 + 33 - (size x).getD 0)))
  | none => (order.find? (fun x => (size x).isSome)).map (fun x => (x, x, full.set x (full.getD x 0 + 33 - (size x).getD 0)))

def txOpenOf (s : State) (p cls vc : Nat) : Option TxOpen := tabGet? (port s p).txOpen (cvKey cls vc)

/-- Slots of an open copy. -/
def openSlots (o : TxOpen) : Nat := ceilDiv (o.data.length + (if o.keyed.isSome then 16 else 8)) 256

/-- The next cell of an open copy is readable: the last one only when the packet is complete (05 R178). -/
def slotReadable (s : State) (o : TxOpen) : Bool :=
  match stored s o.pkt with
  | some k => k.complete || decide (o.nextSlot + 1 < openSlots o)
  | none => false

/-- An open packet that can send its next slot. -/
def openReady (s : State) (p cls vc : Nat) : Bool :=
  match txOpenOf s p cls vc with
  | some o => slotReadable s o && hasCredit (port s p) cls vc
  | none => false

/-- The channel on which a class can begin a packet, husk lane first (05 R182; R240). -/
def beginnable (s : State) (p cls : Nat) : Option Nat :=
  [1, 0].find? (fun vc => (txOpenOf s p cls vc).isNone && hasCredit (port s p) cls vc && (drrPick s p cls vc).isSome)

/-- A C0 packet waits at the head of its queue, or open, without credit (07 R265). -/
def c0Waits (s : State) (p : Nat) : Bool :=
  [0, 1].any (fun vc => !hasCredit (port s p) 0 vc &&
    ((List.range 17).any (fun src => (readyHead s p 0 vc src).isSome) || (txOpenOf s p 0 vc).isSome))

/-! ## Shapers (07 R247 to R249) -/

def shaper (s : State) (p t : Nat) : Shaper := tabGet shaperReset s.sched.shapers (p * 8 + t)

/-- The level of a shaper at a reference time: RATE in Mb/s is RATE × 1,024 / 125 units a ns. -/
def shaperLevel (x : Shaper) (now : Nat) : Int :=
  if x.params.rate = 0 then (x.params.burst * 65536 : Nat)
  else min ((x.params.burst * 65536 : Nat) : Int) (x.level + ((x.params.rate * (now - x.time) * 1024 / 125 : Nat) : Int))

def shaperAllows (s : State) (p t : Nat) : Bool := decide (0 ≤ shaperLevel (shaper s p t) (nowRef s))

/-- Charge a packet's scheduled length. -/
def chargeShaper (p t bytes : Nat) (s : State) : State :=
  let f (x : Shaper) : Shaper :=
    if x.params.rate = 0 then { x with level := shaperLevel x (nowRef s), time := nowRef s }
    else { x with level := shaperLevel x (nowRef s) - ((bytes * 65536 : Nat) : Int), time := nowRef s }
  { s with sched := { s.sched with shapers := tabMod shaperReset f s.sched.shapers (p * 8 + t) } }

/-! ## Stage 4 of throttling (20 R630) -/

def lossyGate (s : State) (p : Nat) : LossyGate := tabGet lossyGateReset s.sched.lossyGates p

/-- The level of a port's gate: (16 − d)/16 of 25 bytes a ns for each joined lane, at most 65,536 bytes. -/
def lossyLevel (s : State) (p : Nat) : Int :=
  let rate := (16 - throttleDepth s 4) * (joinedLanes s p).length * 25 * 65536 / 16
  min (65536 * 65536) ((lossyGate s p).level + ((rate * (nowRef s - (lossyGate s p).time) : Nat) : Int))

/-- C5 to C7 may begin a packet at a port. -/
def lossyAllows (s : State) (p cls : Nat) : Bool := cls < 5 || throttleDepth s 4 == 0 || decide (0 ≤ lossyLevel s p)

/-- A lossy packet's scheduled length is taken from the gate while the stage acts. -/
def chargeLossy (p cls bytes : Nat) (s : State) : State :=
  if cls < 5 || throttleDepth s 4 == 0 then s
  else
    let g : LossyGate := { level := lossyLevel s p - ((bytes * 65536 : Nat) : Int), time := nowRef s }
    { s with sched := { s.sched with lossyGates := tabPut s.sched.lossyGates p g } }

/-! ## The class scheduler (07 R242 to R246) -/

def sched (s : State) (p : Nat) : Sched := tabGet schedReset s.sched.scheds p

def modSched (p : Nat) (f : Sched → Sched) (s : State) : State :=
  { s with sched := { s.sched with scheds := tabMod schedReset f s.sched.scheds p } }

/-- a is earlier than b (R245). -/
def vtEarlier (a b : Nat) : Bool :=
  decide (1 ≤ (b + 2 ^ 48 - a % 2 ^ 48) % 2 ^ 48) && decide ((b + 2 ^ 48 - a % 2 ^ 48) % 2 ^ 48 < 2 ^ 47)

/-- An eligible class: its channel and the scheduled length of its head (R240, R243). -/
def eligible (s : State) (p cls : Nat) : Option (Nat × Nat) :=
  if shaperAllows s p cls && shaperAllows s p 0 && lossyAllows s p cls then
    (beginnable s p cls).bind (fun vc => (drrPick s p cls vc).bind (fun d =>
      (readyHead s p cls vc d.1).map (fun x => (vc, pLength x.2.pkt + (sched s p).overhead))))
  else none

/-- The tag of a class whose head has a scheduled length (R244). -/
def vtTag (sc : Sched) (cls lb : Nat) : Nat :=
  (sc.f.getD (cls - 1) 0 + ceilDiv (lb * 65536) (sc.weight.getD (cls - 1) 1)) % 2 ^ 48

/-- The classes that are eligible, with channel, length and tag. -/
def tagged (s : State) (p : Nat) : List (Nat × Nat × Nat × Nat) :=
  [1, 2, 3, 4, 5, 6, 7].filterMap (fun c => (eligible s p c).map (fun x => (c, x.1, x.2, vtTag (sched s p) c x.2)))

/-- The class with the earliest tag, lower number on a tie. -/
def earliest (l : List (Nat × Nat × Nat × Nat)) : Option (Nat × Nat × Nat × Nat) :=
  l.foldl (fun b x => match b with
    | none => some x
    | some y => if vtEarlier x.2.2.2 y.2.2.2 then some x else some y) none

/-- V and F after a class has been chosen (R244). -/
def vtAfter (sc : Sched) (el : List Nat) (c tag : Nat) : Sched :=
  { sc with
    v := tag,
    f := (sc.f.zipIdx).map (fun x =>
      if x.2 + 1 = c then tag
      else if el.contains (x.2 + 1) then x.1
      else
        let low := (tag + 2 ^ 60 - sc.credit.getD x.2 0 * 65536 / sc.weight.getD x.2 1) % 2 ^ 48
        if vtEarlier x.1 low then low else x.1) }

/-! ## C0 measurement (07 R265) -/

/-- Raise the C0 event when none was raised within the last second. -/
def c0Event (p what : Nat) (s : State) : State :=
  match tabGet? s.sched.c0Event p with
  | some t =>
    if nowRef s < t + 1000000000 then s
    else raise31 0x0207 [p, what] { s with sched := { s.sched with c0Event := tabPut s.sched.c0Event p (nowRef s) } }
  | none => raise31 0x0207 [p, what] { s with sched := { s.sched with c0Event := tabPut s.sched.c0Event p (nowRef s) } }

/-- One C0 cell toward an egress port: the period's count and the bucket of the shorter intervals, 50 cells a joined lane
in 8,192 ns. -/
def c0Measure (p : Nat) (s : State) : State :=
  let n := (joinedLanes s p).length
  let per := devNs s.clk.dev / 8192
  let m := tabGet c0MeterReset s.sched.c0Meters p
  let cells := if m.period = per then m.cells + 1 else 1
  let level := m.bucket - 50 * n * (nowRef s - m.time) + 8192
  let m1 : C0Meter := { period := per, cells := cells, bucket := level, time := nowRef s }
  let s1 := { s with sched := { s.sched with c0Meters := tabSet c0MeterReset s.sched.c0Meters p m1 } }
  let above := bit (decide (cells = 50 * n + 1)) + bit (decide (16 * n * 8192 < level))
  if 0 < above then c0Event p 0 (countQueue p 0 7 above s1) else s1

/-! ## Launch timestamps (13 R446) -/

/-- The first copy of a chunk's FIRST packet leaves: one entry, or the partition's OVERFLOW flag and an event. -/
def launchStamp (p id : Nat) (s : State) : State :=
  match (stored s id).bind (·.launch) with
  | none => s
  | some x =>
    let s1 := modStored id (fun k => { k with launch := none }) s
    let now := devNs s.clk.dev
    let delta : Int := match x.due with
      | some d => max (-32767) (min 32767 ((now : Int) - (devNs d : Int)))
      | none => 0
    let en : LaunchEntry := {
      launchId := x.launchId, late := x.late, stepped := x.stepped, port := p,
      seconds := now / 1000000000 % 2 ^ 32, nanos := now % 1000000000, delta := delta, pid := x.pid }
    if s1.time.launches.length < 256 then modTime (fun t => { t with launches := t.launches ++ [en] }) s1
    else
      raiseOwner [] 0x0402 x.pid [x.slot] (modTime (fun t => { t with
        overflow := if t.overflow.contains x.pid then t.overflow else x.pid :: t.overflow }) s1)

/-! ## Sending a block (R88, R89, R96, R104) -/

/-- Credit fields of a block: the first total that must be sent, in CREDIT and UP. -/
def creditFields (pt : Port) : List Nat × List Nat :=
  if pt.phase = .credit ∨ pt.phase = .up then
    match pt.crDue with
    | k :: rest => ([at_ 31 29 (k / 2), at_ 28 28 k, at_ 27 27 1, at_ 26 15 (tabGet zeroTab pt.freed k)], rest)
    | [] => ([], [])
  else ([], pt.crDue)

/-- Send one block on a lane. -/
def sendBlock (l p : Nat) (head : List Nat) (flags : List Nat) (slot : List Byte) (s : State) : State :=
  let pt := port s p
  let (cr, due) := creditFields pt
  let w0 := wordOf head
  let w1 := if nowRef s < pt.nakUntil then wordOf [at_ 31 30 2, at_ 23 0 pt.nakSeq] else wordOf [at_ 31 30 1, at_ 23 0 pt.rxNext]
  let w2 := wordOf (cr ++ flags ++ [at_ 12 10 (l - p)])
  let data := slot ++ List.replicate (256 - slot.length) 0
  let b : Block := { w0 := w0, w1 := w1, w2 := w2, slot := data, check := blockCheck w0 w1 w2 data, control := false }
  emit (.block l b) (countLane l 0 (modPort p (fun pt => { pt with crDue := due }) s))

def sendIdle (l p : Nat) (s : State) : State := sendBlock l p [0] [] [] s

/-- The block of a TxBlock. -/
def sendData (l p : Nat) (b : TxBlock) (s : State) : State :=
  sendBlock l p [at_ 31 28 1, at_ 27 25 b.cls, at_ 24 24 b.vc, at_ 23 0 b.seq]
    [at_ 14 14 (bit b.sop), at_ 13 13 (bit b.eop)] b.data s

/-- The trailer of an open copy, inverted when the packet is stomped (04 R133, R135, R138). -/
def openTrailer (o : TxOpen) (stomp : Bool) : List Byte :=
  let w (i : Nat) : Word := w32 (bytesNat ((o.data.drop (4 * i)).take 4))
  let k : Packet := {
    w0 := w 0, w1 := w 1, w2 := w 2, w3 := w 3, w4 := w 4, w5 := w 5, w6 := w 6, w7 := w 7,
    payload := o.data.drop 32, e2e := o.e2e }
  match o.keyed with
  | some (key, n) =>
    let t := Config.gcmTag key n (wordsBytes (headerWords (fixedHeader k))) k.payload
    if stomp then t.map (fun x => ~~~x) else t
  | none => wordBytes o.e2e ++ wordBytes (if stomp then ~~~(packetCrc k) else packetCrc k)

/-- Send the next slot of an open copy: a new SEQ, the credit spent, the block held until acknowledged (R94, R101,
R105). -/
def sendSlot (l p cls vc : Nat) (s : State) : State :=
  match txOpenOf s p cls vc with
  | none => s
  | some o =>
    let pt := port s p
    let n := openSlots o
    let stomp := match stored s o.pkt with
      | some k => k.stomp
      | none => false
    let b : TxBlock := {
      seq := pt.txSeq, cls := cls, vc := vc, pkt := o.pkt, slotNo := o.nextSlot,
      sop := decide (o.nextSlot = 0), eop := decide (o.nextSlot + 1 = n),
      data := ((o.data ++ openTrailer o stomp).drop (256 * o.nextSlot)).take 256 }
    let key := cvKey cls vc
    let o1 : TxOpen := { o with nextSlot := o.nextSlot + 1 }
    let s1 := modPort p (fun pt => { pt with
      txSeq := (pt.txSeq + 1) % 2 ^ 24, wraps := if pt.txSeq = 2 ^ 24 - 1 then pt.wraps + 1 else pt.wraps,
      unacked := pt.unacked ++ [b],
      crSent := if lossless cls then tabMod zeroTab (fun x => (x + 1) % 4096) pt.crSent key else pt.crSent,
      txOpen := if b.eop then tabDel pt.txOpen key else tabPut pt.txOpen key o1 }) s
    let s2 := if b.sop then launchStamp p o.pkt s1 else s1
    let s3 := if b.eop then countPort p 3 (o.data.length - 32) (countPort p 2 1 s2) else s2
    let s4 := if cls = 0 then c0Measure p s3 else s3
    sendData l p b (modBuf (fun x => { x with lastSent := tabSet zeroTab x.lastSent (pcvKey p cls vc) (nowRef s) }) s4)

/-- Begin the copy at the head of a source's queue (R93; 05 R164, R182; 04 R127, R136). -/
def beginCopy (p cls vc : Nat) (s : State) : State :=
  match drrPick s p cls vc with
  | none => s
  | some (src, cur, defs) =>
    match readyHead s p cls vc src with
    | none => s
    | some (c, k) =>
      let pt := port s p
      let q := (voq s (voqKey p cls vc src)).drop 1
      let out := setVc vc (if c.ce then setCe 1 k.pkt else k.pkt)
      let keyed := if pEnc out then
          (txKey s p (pPid out)).map (fun tk => (tk, out.w1.toNat * 2 ^ 64 + pt.wraps * 2 ^ 24 + pt.txSeq)) else none
      let body := match keyed with
        | some (tk, n) => Config.gcmCipher tk n out.payload
        | none => out.payload
      let o : TxOpen := {
        pkt := c.pkt, data := wordsBytes (headerWords out) ++ body, keyed := keyed, e2e := out.e2e, nextSlot := 0,
        order := pt.openOrder }
      let d := if q.isEmpty then defs.set src 0 else defs
      let s1 := modBuf (fun b => { b with drr := tabPut b.drr (pcvKey p cls vc) (cur, d) })
        (releaseEntry p cls (setVoq (voqKey p cls vc src) q s))
      filterSlice 1 (egressSlice p) out
        (modPort p (fun pt => { pt with txOpen := tabPut pt.txOpen (cvKey cls vc) o, openOrder := pt.openOrder + 1 }) s1)

/-- New DATA may be numbered (R101). -/
def windowOpen (pt : Port) : Bool := decide (pt.unacked.length < 65536)

/-- A replay block goes next: its class, if a replay is in progress. -/
def replayNext (pt : Port) : Option TxBlock := pt.replay.bind (fun i => pt.unacked[i]?)

/-- Send the next block of the replay in progress. -/
def sendReplay (l p : Nat) (b : TxBlock) (s : State) : State :=
  sendData l p b (modPort p (fun pt => { pt with
    replay := pt.replay.bind (fun i => if i + 1 < pt.unacked.length then some (i + 1) else none) }) s)

/-! ## LOCAL blocks (R107, R114; 13 R432) -/

/-- An acknowledged message (Table 3.5). -/
def isAcked (k : Packet) : Bool := pKind k == 0xF && decide (2 ≤ xLlType k) && decide (xLlType k ≤ 5)

/-- The LOCAL packet that a lane sends next, and its place. -/
def localNext (pt : Port) (l : Nat) : Option (Nat × Packet) :=
  let mine := (pt.localOut.zipIdx).filter (fun x => x.1.1 == l)
  match mine.find? (fun x => isAcked x.1.2) with
  | some x => some (x.2, x.1.2)
  | none => (mine.head?).map (fun x => (x.2, x.1.2))

/-- A lane in a port may send another LOCAL block: at most one in 16 over 1 µs, five, but for a lane in READY. -/
def localAllowed (s : State) (p l : Nat) : Bool :=
  let (t, n) := tabGet (fun _ => (0, 0)) (port s p).localSent (l - p)
  (lane s l).phase == .ready || decide (t + 1000 ≤ nowRef s) || decide (n < 5)

/-- Write bytes over a payload from an offset. -/
def patch (bs : List Byte) (off : Nat) (new : List Byte) : List Byte := bs.take off ++ new ++ bs.drop (off + new.length)

/-- Stamp a LOCAL packet as it leaves: TX_TIME; ECHO_DELAY of a HELLO; TX_T96 of a TIME message. -/
def stampLocal (s : State) (p : Nat) (k : Packet) : Packet :=
  let k1 := { k with w6 := w32 (now32 s) }
  if pKind k = 0xF ∧ xLlType k = 1 then
    { k1 with payload := patch k.payload 16 (wordBytes (w32 (now32 s + 2 ^ 32 - (port s p).echoArrival))) }
  else if pKind k = 9 then { k1 with payload := patch k.payload 12 (wordsBytes (t96Words s.clk.dev)) }
  else k1

/-- Send a LOCAL packet. -/
def sendLocal (l p i : Nat) (k : Packet) (s : State) : State :=
  let k1 := stampLocal s p k
  let now := nowRef s
  let s1 := modPort p (fun pt => { pt with
    localOut := pt.localOut.eraseIdx i,
    ownHellos := if pKind k = 0xF ∧ xLlType k = 1 then (now32 s :: pt.ownHellos).take 64 else pt.ownHellos,
    localSent := tabMod (fun _ => (0, 0)) (fun x => if x.1 + 1000 ≤ now then (now, 1) else (x.1, x.2 + 1)) pt.localSent (l - p) }) s
  sendBlock l p [at_ 31 28 2] []
    (wordsBytes (headerWords k1) ++ k1.payload ++ wordBytes k1.e2e ++ wordBytes (packetCrc k1)) s1

/-! ## The service order (07 R239) -/

/-- Step 1: C0, husk lane first. -/
def serveC0 (s : State) (p : Nat) : Option (Nat × Bool) :=
  match [1, 0].find? (fun vc => openReady s p 0 vc) with
  | some 1 => some (1, false)
  | o =>
    match beginnable s p 0 with
    | some 1 => some (1, true)
    | b => match o with
      | some vc => some (vc, false)
      | none => b.map (fun vc => (vc, true))

/-- Step 4: the oldest open C1 to C7 packet that can send. -/
def oldestOpen (s : State) (p : Nat) : Option Nat :=
  (((port s p).txOpen.filter (fun x => decide (2 ≤ x.1) && openReady s p (x.1 / 2) (x.1 % 2))).foldl (fun b x => match b with
    | none => some x
    | some y => if x.2.order < y.2.order then some x else some y) none).map (·.1)

/-- Steps 3 and 4: the key of the open packet to continue. -/
def continueKey (s : State) (p : Nat) : Option Nat :=
  match (port s p).lastChosen with
  | some k => if decide (2 ≤ k) && openReady s p (k / 2) (k % 2) then some k else oldestOpen s p
  | none => oldestOpen s p

/-- Step 5: the class scheduler begins a packet. -/
def scheduleNew (p : Nat) (s : State) : Option (Nat × Nat × State) :=
  let l := tagged s p
  match earliest l with
  | none => none
  | some (c, vc, lb, tag) =>
    let s1 := modSched p (fun sc => vtAfter sc (l.map (·.1)) c tag) s
    let s2 := chargeLossy p c lb (chargeShaper p 0 lb (chargeShaper p c lb s1))
    some (c, vc, modPort p (fun pt => { pt with lastChosen := some (cvKey c vc) }) (beginCopy p c vc s2))

/-- A slot of a joined lane of a port in UP. -/
def serveSlot (l p : Nat) (s0 : State) : State :=
  let s1 := purgePort p s0
  let s := if c0Waits s1 p then c0Event p 1 (countQueue p 0 6 1 s1) else s1
  let pt := port s p
  let loc := if localAllowed s p l then localNext pt l else none
  match replayNext pt with
  | some b =>
    if b.cls = 0 then sendReplay l p b s
    else
      match loc with
      | some (i, k) => sendLocal l p i k s
      | none => sendReplay l p b s
  | none =>
    match (if windowOpen pt then serveC0 s p else none) with
    | some (vc, fresh) => sendSlot l p 0 vc (if fresh then beginCopy p 0 vc s else s)
    | none =>
      match loc with
      | some (i, k) => sendLocal l p i k s
      | none =>
        if !windowOpen pt then sendIdle l p s
        else
          match continueKey s p with
          | some key => sendSlot l p (key / 2) (key % 2) s
          | none =>
            match scheduleNew p s with
            | some (c, vc, t) => sendSlot l p c vc t
            | none => sendIdle l p s

/-- A block time of a lane: it sends what its state and its port's allow (R88, R102, Tables 3.8, 3.9). Nothing leaves a
dark lane, a fibre of reduced emission, or a port whose spine has paused (02 R66, R61). -/
def execBlockSlot (lane : Nat) (s : State) : Host.Outcome State Fault Refusal :=
  onUnit (laneKnown lane)
    (match portOfLane s lane with
    | none => s
    | some p =>
      let ph := (Machine.lane s lane).phase
      if ph = .dark || (fibrePair s (lane / 8)).reduced || (port s p).paused then s
      else if ph = .joined && (port s p).phase == .up then serveSlot lane p s
      else if ph = .joined || ph = .ready then
        match (if localAllowed s p lane then localNext (port s p) lane else none) with
        | some (i, k) => sendLocal lane p i k s
        | none => sendIdle lane p s
      else sendIdle lane p s)

end Sys2Proof.Machine
end

