-- ==== Sys2Proof/Machine/PortCmd.lean ====
section
/-! DEFINITION. The PORT group of commands (16 Table 16.2; 03 R85, R86, R117, R120, R122, R124; 05 R167, R176, R189,
R193; 06 R227). -/

namespace Sys2Proof.Machine

/-- A (port, width) of PORT.WIDTH is one that R85 allows. -/
def widthGood (x : Nat × Nat) : Bool := [1, 2, 4, 8].contains x.2 && x.1 % x.2 == 0 && decide (x.1 < 2048)

/-- The lanes that two ports occupy meet. -/
def portsMeet (a b : Nat × Nat) : Bool := decide (a.1 < b.1 + b.2) && decide (b.1 < a.1 + a.2)

/-- No two elements of a list of ports meet. -/
def noneMeet : List (Nat × Nat) → Bool
  | [] => true
  | x :: xs => !xs.any (portsMeet x) && noneMeet xs

/-- A port that exists no longer: no width and the settings of a port that was never set. -/
def closedPort (p : Nat) : Port := { portReset p with width := 0 }

/-- The ports that a change of lanes [n, n + w) to width w leaves in place of the old ones: port n itself, and the lanes of
a wider port outside them as further ports of width w, so that every lane keeps a port (log 71). -/
def newPorts (old : List (Nat × Nat)) (x : Nat × Nat) : List Nat :=
  distinct (x.1 :: (old.filter (portsMeet x)).flatMap (fun q => (List.range (q.2 / x.2)).map (fun i => q.1 + i * x.2)))

/-- One element of PORT.WIDTH: the ports it overlaps go to DOWN, the new ones train from DOWN, those of a slice whose
headroom grew once the shared pool has shrunk (03 R86; 05 R167). -/
def setWidth (s : State) (x : Nat × Nat) : State :=
  if (port s x.1).width = x.2 then s
  else
    let pair := (List.range 8).map (x.1 / 8 * 8 + ·)
    let old := (pair.filter (portKnown s)).map (fun p => (p, (port s p).width))
    let gone := (old.filter (portsMeet x)).map (·.1)
    let news := newPorts old x
    let before := headroomCells s
    let s1 := gone.foldl (fun s p => modPort p (fun _ => closedPort p) (enterDown p 6 s)) s
    let s2 := news.foldl (fun s p => modPort p (fun _ => { closedPort p with width := x.2 }) s) s1
    let wait := decide (before < headroomCells s2) && decide (sharedSize s2 < s2.buf.sharedUsed)
    let s3 := tellNeighbours { s2 with fab := { s2.fab with generation := (s2.fab.generation + 1) % 2 ^ 32 } }
    news.foldl (fun s p => tryHello p (modPort p (fun pt => { pt with awaitHeadroom := wait }) s)) (recheckBarriers s3)

/-- PORT.WIDTH. -/
def execPortWidth (o : Origin) (widths : List (Nat × Nat)) (s : State) : Host.Outcome State Fault Refusal :=
  .next (runCommand o 0x0201 (fun s =>
    if !widths.all widthGood || !noneMeet widths then failWith .invalid s else okWith (widths.foldl setWidth s)) s)

/-- A command on one port: INVALID when the number is not a port's lowest lane (16 R521). -/
def onPort (p : Nat) (f : State → CmdOutcome) (s : State) : CmdOutcome :=
  if portKnown s p then f s else failWith .invalid s

/-- PORT.COMPAT (03 R124). -/
def execPortCompat (o : Origin) (port : Nat) (on : Bool) (s : State) : Host.Outcome State Fault Refusal :=
  .next (runCommand o 0x0202 (onPort port (fun s => okWith (modPort port (fun p => { p with compat := on }) s))) s)

/-- PORT.MODE: the store-and-forward mask by class (05 R176). -/
def execPortMode (o : Origin) (port mask : Nat) (s : State) : Host.Outcome State Fault Refusal :=
  .next (runCommand o 0x0203 (onPort port (fun s =>
    if 256 ≤ mask then failWith .invalid s else okWith (modPort port (fun p => { p with storeMask := mask }) s))) s)

/-- PORT.SAMPLE: 0xFF turns sampling off (05 R189). -/
def execPortSample (o : Origin) (port k : Nat) (s : State) : Host.Outcome State Fault Refusal :=
  .next (runCommand o 0x0204 (onPort port (fun s =>
    if k = 0xFF then okWith (modPort port (fun p => { p with sample := none }) s)
    else if 20 < k then failWith .invalid s
    else okWith (modPort port (fun p => { p with sample := some k }) s))) s)

/-- A staleness timer from its parameter: 0 takes the default of 10 ms (05 R193; 15 R507). -/
def staleUs (us : Nat) : Nat := if us = 0 then 10000 else us

def staleGood (us : Nat) : Bool := decide (100 ≤ us) && decide (us ≤ 60000000)

/-- PORT.STALE. -/
def execPortStale (o : Origin) (port queueUs portUs : Nat) (s : State) : Host.Outcome State Fault Refusal :=
  .next (runCommand o 0x0205 (onPort port (fun s =>
    if !staleGood (staleUs queueUs) || !staleGood (staleUs portUs) then failWith .invalid s
    else okWith (modPort port (fun p => { p with queueStale := staleUs queueUs, portStale := staleUs portUs }) s))) s)

/-- PORT.HUSK_WAIT: 0 takes the default of 20 µs (06 R227; 15 R507). -/
def execPortHuskWait (o : Origin) (port cls us : Nat) (s : State) : Host.Outcome State Fault Refusal :=
  .next (runCommand o 0x0206 (onPort port (fun s =>
    let v := if us = 0 then 20 else us
    if 4 < cls ∨ 10000 < v then failWith .invalid s
    else okWith (modPort port (fun p => { p with huskWait := listSet v cls p.huskWait }) s))) s)

/-- PORT.RETRAIN: RESUME, with a RETRAIN message to the far end (03 R117). -/
def execPortRetrain (o : Origin) (port : Nat) (s : State) : Host.Outcome State Fault Refusal :=
  .next (runCommand o 0x0207 (onPort port (fun s =>
    match (Machine.port s port).phase with
    | .up => okWith (enterResume port 3 (sendMsg port 0x05 [] s))
    | .resume => okWith s
    | _ => failWith .conflict s)) s)

/-- The lanes of a port that a mask names, by lane index. -/
def maskLanes (s : State) (p mask : Nat) : List Nat := (portLanes s p).filter (fun l => testBitN mask (l - p))

/-- What keeps a lane out beyond a command: an unlocked ring, a suspended colour, a crust circuit (03 R122). -/
def causeHolds (s : State) (l : Nat) : Bool :=
  laneUnlocked s l || laneInCircuit s l || (lane s l).cause == some .fade || (lane s l).cause == some .crust

/-- A lane that a command or three error-rate removals held out may rejoin; one that is READY announces itself. -/
def restoreLane (s : State) (l : Nat) : State :=
  if heldOut (lane s l) then
    let s1 := modLane l (fun x => { x with stayOut := false, errorTimes := [], cause := none }) s
    if (lane s1 l).phase = .ready then laneReady l s1 else s1
  else s

/-- PORT.LANE: remove lanes, or restore them unless their cause still holds (03 R120, R122). -/
def execPortLane (o : Origin) (port mask : Nat) (restore : Bool) (s : State) : Host.Outcome State Fault Refusal :=
  .next (runCommand o 0x0208 (onPort port (fun s =>
    let ls := maskLanes s port mask
    if mask = 0 ∨ 2 ^ (Machine.port s port).width ≤ mask then failWith .invalid s
    else if (Machine.port s port).phase = .down then failWith .conflict s
    else if !restore then okWith (ls.foldl (fun s l => holdLane .command l s) s)
    else if ls.any (causeHolds s) then failWith .conflict s
    else okWith (ls.foldl (fun s l => noteEntry port s (restoreLane s l)) s))) s)

/-- PORT.STATE. -/
def execPortState (o : Origin) (port : Nat) (s : State) : Host.Outcome State Fault Refusal :=
  .next (runCommand o 0x0209 (onPort port (fun s => .done .ok (neighbourEntry s port) s)) s)

end Sys2Proof.Machine
end

