-- ==== Sys2Proof/Machine/ClassCmd.lean ====
section
/-! DEFINITION. The CLASS group of commands (16 Table 16.4; 05 R171, R172, R185; 06 R232; 07 R242 to R252, R256). -/

namespace Sys2Proof.Machine

def modSchedState (f : SchedState → SchedState) (s : State) : State := { s with sched := f s.sched }

/-- Values with the defaults of a list in place of 0 (15 R507). -/
def filled (values defaults : List Nat) : List Nat := (List.zip values defaults).map (fun x => if x.1 = 0 then x.2 else x.1)

/-- CLASS.CREDIT_WEIGHT: W of C1 to C4, 1 to 15 (05 R171). -/
def execClassCreditWeight (o : Origin) (port : Nat) (weights : List Nat) (s : State) : Host.Outcome State Fault Refusal :=
  .next (runCommand o 0x0401 (onPort port (fun s =>
    let ws := filled weights [1, 1, 1, 1]
    if weights.length ≠ 4 ∨ ws.any (fun w => decide (15 < w)) then failWith .invalid s
    else okWith (modPort port (fun p => { p with weights := ws }) s))) s)

/-- CLASS.SCHED: for the next tag computed; F and V stay (07 R242, R246). -/
def execClassSched (o : Origin) (port : Nat) (weights credits : List Nat) (overhead : Nat) (s : State) : Host.Outcome State Fault Refusal :=
  .next (runCommand o 0x0402 (onPort port (fun s =>
    let ws := filled weights (schedReset 0).weight
    if weights.length ≠ 7 ∨ credits.length ≠ 7 ∨ ws.any (fun w => decide (255 < w)) ∨
        credits.any (fun c => decide (1048576 < c)) ∨ 1023 < overhead then failWith .invalid s
    else okWith (modSchedState (fun x => { x with
      scheds := tabMod schedReset (fun c => { c with weight := ws, credit := credits, overhead := overhead }) x.scheds port }) s))) s)

/-- The level of a shaper after a change: BURST, or 0 under RESET_MODE ZERO; one that is off holds BURST (07 R248, R249). -/
def shaperStart (p : ShaperParams) : Int := if p.zero && p.rate != 0 then 0 else (p.burst : Int) * 65536

/-- CLASS.SHAPER: a change of a parameter sets the level; a repeat of the same parameters changes nothing (07 R249). -/
def execClassShaper (o : Origin) (port target : Nat) (params : ShaperParams) (s : State) : Host.Outcome State Fault Refusal :=
  .next (runCommand o 0x0403 (onPort port (fun s =>
    let p : ShaperParams := { params with burst := if params.burst = 0 then 65536 else params.burst }
    if 7 < target ∨ 2 ^ 21 ≤ p.rate ∨ p.burst < 256 ∨ 2 ^ 24 ≤ p.burst then failWith .invalid s
    else okWith (modSchedState (fun x => { x with
      shapers := tabMod shaperReset (fun old =>
        if old.params = p then old else { params := p, level := shaperStart p, time := nowRef s }) x.shapers (port * 8 + target) }) s))) s)

/-- CLASS.MARKER: an accepted change fills both buckets (07 R252). -/
def execClassMarker (o : Origin) (port cls : Nat) (params : MarkerParams) (s : State) : Host.Outcome State Fault Refusal :=
  .next (runCommand o 0x0404 (onPort port (fun s =>
    if cls < 5 ∨ 7 < cls ∨ 2 ^ 21 ≤ params.cir ∨ 2 ^ 21 ≤ params.pir ∨ params.pir < params.cir ∨ params.cbs < 8240 ∨
        params.pbs < 8240 ∨ 2 ^ 24 ≤ params.cbs ∨ 2 ^ 24 ≤ params.pbs then failWith .invalid s
    else okWith (modSchedState (fun x => { x with
      markers := tabSet markerReset x.markers (port * 8 + cls)
        { params := params, c := 8 * params.cbs, p := 8 * params.pbs, time := nowRef s } }) s))) s)

/-- One colour of a profile is within Table 5.5. -/
def curveGood (c : DropCurve) : Bool :=
  decide (c.min < c.max) && decide (c.max < 2 ^ 21) && decide (c.wexp ≤ 15) && decide (c.pmax ≤ 255)

/-- CLASS.PROFILE: green, yellow, red (05 R185). -/
def execClassProfile (o : Origin) (profile : Nat) (curves : List DropCurve) (s : State) : Host.Outcome State Fault Refusal :=
  .next (runCommand o 0x0405 (fun s =>
    if 15 < profile ∨ curves.length ≠ 3 ∨ !curves.all curveGood then failWith .invalid s
    else okWith (modSchedState (fun x => { x with profiles := tabSet profileReset x.profiles profile curves }) s)) s)

/-- CLASS.QUEUE: the drop profile, the admission exponent, the marking threshold with 0 for off (05 R172, R185; 06
R232). -/
def execClassQueue (o : Origin) (port cls profile a mark : Nat) (s : State) : Host.Outcome State Fault Refusal :=
  .next (runCommand o 0x0406 (onPort port (fun s =>
    if 7 < cls ∨ 15 < profile ∨ (cls < 5 ∧ profile ≠ 0) ∨ 9 < a ∨ 2097151 < mark then failWith .invalid s
    else okWith (modSchedState (fun x => { x with
      queueSets := tabMod queueSetReset (fun q => { q with profile := profile, a := a, mark := some mark }) x.queueSets (pcKey port cls) })
      s))) s)

/-- The budgets that the next period will have. -/
def comingBudgets (s : State) : List Budget := s.sched.nextBudgets.getD s.sched.budgets

/-- The sum of a resource's shares. -/
def shareSum (bs : List Budget) (res : Nat) : Nat := (bs.map (fun b => b.shares.getD res 0)).sum

/-- CLASS.BUDGET: for the next period; shares of a resource above 1,024 in sum are refused (07 R256). -/
def execClassBudget (o : Origin) (activity : Nat) (shares : List Nat) (lendable : Bool) (s : State) : Host.Outcome State Fault Refusal :=
  .next (runCommand o 0x0407 (fun s =>
    let bs := listSet { shares := shares, lendable := lendable } activity (comingBudgets s)
    if 9 < activity ∨ shares.length ≠ 4 then failWith .invalid s
    else if (List.range 4).any (fun r => decide (1024 < shareSum bs r)) then failWith .budget s
    else okWith (modSchedState (fun x => { x with nextBudgets := some bs }) s)) s)

/-- CLASS.BUDGET_READ: the shares in force. -/
def execClassBudgetRead (o : Origin) (s : State) : Host.Outcome State Fault Refusal :=
  .next (runCommand o 0x0408 (fun s =>
    .done .ok (s.sched.budgets.flatMap (fun b => b.shares.map w32 ++ [w32 (bit b.lendable)])) s) s)

end Sys2Proof.Machine
end

