-- ==== Sys2Proof/Machine/Optics.lean ====
section
/-! DEFINITION. The optical events of chapter 2 and the laser bay events of 20 R638, R639. -/

namespace Sys2Proof.Machine

def pairKnown (e f : Nat) : Bool := decide (e < 32) && decide (f < 8)

/-! ## Searches and heater loops -/

/-- A full search of a bus completes: its rings are bound by rotation or in slot order, and the die's record is written
once no bus of the die waits (R46, R48, R49). `seen` lists, ring by ring in bus order, the lines met. -/
def execRingSearchFull (engine fibre : Nat) (tx : Bool) (temp : Nat) (seen : List (List SeenLine)) (s : State) :
    Host.Outcome State Fault Refusal :=
  onUnit (pairKnown engine fibre)
    (bindBus engine fibre tx temp true
      (assignBus ((List.range (8 * (busRows tx).length)).map (fun i => seen.getD i []))) s)

/-- What a partial search finds for one ring: a failed one, or a line within the window about its predicted place (R45). -/
def ringFound (s : State) (engine temp : Nat) (found : List (Option Nat)) (x : Nat × Nat) : Bool :=
  let ts := ((tabGet? s.start.cfg.perm (die engine)).map (·.ts)).getD temp
  (ring s x.1).failed ||
    match found.getD x.2 none with
    | some v => decide ((v : Int) ≤ predicted (ring s x.1).shift ts temp + 1920) &&
        decide (predicted (ring s x.1).shift ts temp ≤ (v : Int) + 1920) && decide (v ≤ 57600)
    | none => false

/-- A partial search keeps the assignment of every ring found within ±60 GHz of its predicted shift and inside the
heater range; otherwise the bus alone is searched in full (R47, R51). -/
def execRingSearchPartial (engine fibre : Nat) (tx : Bool) (temp : Nat) (found : List (Option Nat)) (s : State) :
    Host.Outcome State Fault Refusal :=
  let keys := busRings engine fibre tx
  let n := busNumber engine fibre tx
  onUnit (pairKnown engine fibre)
    (if keys.zipIdx.all (ringFound s engine temp found) then
      bindBus engine fibre tx temp false
        ((keys.zipIdx).map (fun x => if (ring s x.1).failed then none
          else (found.getD x.2 none).map (fun v => ((ring s x.1).line, v)))) s
    else
      modOpt (fun o => { o with
        partialDue := o.partialDue.filter (· != n), searchDue := distinct (o.searchDue ++ [n]) }) s)

/-- The locked rings of a die that its temperature puts out of their tuning range (R54). -/
def ringsOut (s : State) (d temp ts : Nat) : Tab Ring :=
  s.opt.rings.filter (fun x => x.1 / 1280 == d && (x.2.mode == .locked || x.2.mode == .tracking) &&
    (decide (predicted x.2.shift ts temp < 0) || decide (57600 < predicted x.2.shift ts temp)))

/-- The die temperature leaves the tracking window: rings that can no longer be held unlock, and their buses wait for a
full search (R52). -/
def execDieTempOutOfWindow (d temp : Nat) (s : State) : Host.Outcome State Fault Refusal :=
  let s1 := modOpt (fun o => { o with dieTemp := tabSet (fun _ => 0) o.dieTemp d temp }) s
  onUnit (decide (d < 8))
    (match tabGet? s.start.cfg.perm d with
    | none => s1
    | some r =>
      if temp ≤ r.ts + 2000 ∧ r.ts ≤ temp + 2000 then s1
      else
        let out := ringsOut s d temp r.ts
        let s2 := out.foldl (fun s x => unlockRing (x.1 / 320) (x.1 / 40 % 8) (rowOfKey x.1) (x.1 % 8) s) s1
        modOpt (fun o => { o with
          searchDue := distinct (o.searchDue ++
            out.map (fun x => busNumber (x.1 / 320) (x.1 / 40 % 8) (decide (2 ≤ rowOfKey x.1)))) }) s2)

/-- Power telemetry reaches every optical control island (R54). -/
def execPowerTelemetry (reading : Nat) (s : State) : Host.Outcome State Fault Refusal :=
  .next (modOpt (fun o => { o with
    feedFwd := tabModAll (fun _ => ((0 : Int), (0 : Int))) (fun d x => Config.thermalModel d x reading) (List.range 8)
      o.feedFwd }) s)

/-- A ring sample meets the unlock criterion (R55, R58). -/
def execRingUnlock (engine fibre row slot : Nat) (s : State) : Host.Outcome State Fault Refusal :=
  onUnit (pairKnown engine fibre && decide (row < 5) && decide (slot < 8)) (unlockRing engine fibre row slot s)

/-- An unlocked ring comes back within the lock criterion (R55, R58). -/
def execRingRelock (engine fibre row slot : Nat) (s : State) : Host.Outcome State Fault Refusal :=
  let k := ringKey engine fibre row slot
  onUnit (pairKnown engine fibre && decide (row < 5) && decide (slot < 8))
    (match (ring s k).mode with
    | .tracking => setMode .locked [k] s
    | .unlocked =>
      if row = 1 ∨ row = 3 then setMode .locked [k] s
      else if row = 2 ∧ (fibrePair s (engine * 8 + fibre)).reduced then setMode .locked [k] s
      else (circuitsOfRing s k).foldl (fun s id => relight id s) (setMode .parked [k] s)
    | _ => s)

/-- A lane has not rejoined 500 µs after unlock: its buses wait for a partial search (R56). -/
def execLaneRejoinTimeout (lane : Nat) (s : State) : Host.Outcome State Fault Refusal :=
  onUnit (laneKnown lane)
    (if (Machine.lane s lane).phase = .joined then s
    else
      modOpt (fun o => { o with
        partialDue := distinct (o.partialDue ++
          [busNumber (laneEngine lane) (laneFibre lane) false, busNumber (laneEngine lane) (laneFibre lane) true]) }) s)

/-! ## Laser fade and cut-over -/

/-- A 10 µs monitor sample is tested against −2.5 dB and −4.0 dB (R60). -/
def execLaserMonitorSample (m : FadeLevel) (s : State) : Host.Outcome State Fault Refusal :=
  let b := die m.engine
  let lanes := bayColourLanes b m.colour
  let f := fade s m.engine m.colour
  let s1 := if m.level ≤ -250 ∧ f.suspended = false then
      startCutover b (lanes.foldl (fun s l => holdLane .fade l s)
        (fadeEvent b m.colour 2 (modFade m.engine m.colour (fun f => { f with suspended := true }) s)))
    else s
  let s2 := if m.level ≤ -400 ∧ f.failed = false then
      darken (feeder s1 b) m.colour (lanes.foldl (fun s l => failLane l 1 s)
        (fadeEvent b m.colour 3 (modFade m.engine m.colour (fun f => { f with failed := true }) s1)))
    else s1
  onUnit (decide (m.engine < 32) && decide (m.colour < 8))
    (if (tabGet? s.start.cfg.commission (m.engine * 8 + m.colour)).isNone then s else s2)

/-- One 100 ms average: the counts of averages in a row below −1.0 and −2.0 dB, and their events (R60). -/
def fadeAverage (m : FadeLevel) (s : State) : State :=
  if (tabGet? s.start.cfg.commission (m.engine * 8 + m.colour)).isNone then s
  else
    let f := fade s m.engine m.colour
    let n1 := if m.level < -100 then Nat.min 6 (f.below1 + 1) else 0
    let n2 := if m.level < -200 then Nat.min 6 (f.below2 + 1) else 0
    let s1 := modFade m.engine m.colour (fun f => { f with below1 := n1, below2 := n2 }) s
    let s2 := if n1 = 5 then fadeEvent (die m.engine) m.colour 0 s1 else s1
    if n2 = 5 then fadeEvent (die m.engine) m.colour 1 s2 else s2

/-- The bays for which a colour's fifth average in a row lies below 2 dB (R61). -/
def baysFaded (s : State) (levels : List FadeLevel) : List Nat :=
  let s1 := levels.foldl (fun s m => fadeAverage m s) s
  (List.range 8).filter (fun b =>
    levels.any (fun m => die m.engine == b && (fade s1 m.engine m.colour).below2 == 5 && (fade s m.engine m.colour).below2 == 4))

/-- The 100 ms averages complete: alarms, and cut-over of every bay that has met −2.0 dB, lower bays first (R60 to
R62). -/
def execLaserFadeAverage (levels : List FadeLevel) (s : State) : Host.Outcome State Fault Refusal :=
  let s1 := levels.foldl (fun s m => fadeAverage m s) s
  onUnit (levels.all (fun m => decide (m.engine < 32) && decide (m.colour < 8)))
    ((baysFaded s levels).foldl (fun s b => startCutover b s) s1)

/-- The cut-over that a warming bay position serves: the bay it concerns. -/
def cutoverOf (s : State) (pos : Nat) : Option (Nat × Cutover) :=
  s.opt.cutovers.find? (fun x => x.2.stage == .warming && (if x.2.back then x.1 == pos else x.2.spare == pos))

/-- A bay position has warmed and locked every line: the pause notice goes out; a returned bay's new commissioning power
is recorded (R61 step 3, R65). -/
def execSpareLocked (pos : Nat) (powers : List Nat) (s : State) : Host.Outcome State Fault Refusal :=
  onUnit (decide (pos < 10))
    (match cutoverOf s pos with
    | none => s
    | some (b, c) =>
      let tp := (now32 s + 50000) % 2 ^ 32
      let c1 : Cutover := { c with stage := .noticed, pauseTime := tp }
      let s1 := if c.back then
          modConfig (fun g => { g with
            commission := (List.range 32).foldl (fun t i => tabPut t (32 * b + i) (powers.getD i 0)) g.commission }) s
        else s
      sendPause b tp (modOpt (fun o => { o with cutovers := tabPut o.cutovers b c1 }) s1))

/-- A bay that did not lock has failed, and the cut-over to or from it ends. -/
def dropCutover (b pos : Nat) (s : State) : State :=
  modBay pos (fun x => { x with use := .failed }) (modOpt (fun o => { o with cutovers := tabDel o.cutovers b }) s)

/-- A bay position has not locked within 200 ms (R63). -/
def execSpareLockTimeout (pos : Nat) (s : State) : Host.Outcome State Fault Refusal :=
  onUnit (decide (pos < 10))
    (match cutoverOf s pos with
    | none => s
    | some (b, c) =>
      let s1 := dropCutover b pos s
      let abandon (s : State) : State := countDie b 2 (raise15 0x0102 [b, c.spare, 1] s)
      if c.back then
        match c.caller with
        | some o => finish o .timeout [] (abandon s1)
        | none => abandon s1
      else
        let s2 := raise15 0x0102 [b, pos, 2] s1
        match idleSpare s2 with
        | some sp => beginCutover b sp s2
        | none => abandon s2)

/-- The pause time arrives: transmission stops on every lane of the four engines (R61 steps 4, 5). -/
def execCutoverPauseTime (bay : Nat) (s : State) : Host.Outcome State Fault Refusal :=
  onUnit (decide (bay < 8))
    (match tabGet? s.opt.cutovers bay with
    | some c =>
      if c.stage = .noticed then
        let c1 : Cutover := { c with stage := .switching }
        (bayPorts s bay).foldl (fun s p => modPort p (fun pt => { pt with paused := true }) s)
          (modOpt (fun o => { o with cutovers := tabPut o.cutovers bay c1 }) s)
      else s
    | none => s)

/-- Every fade of a bay's engines ends: its lanes may train and rejoin. -/
def endFades (b : Nat) (s : State) : State :=
  let dark := (List.range 32).filter (fun i => (fade s (4 * b + i / 8) (i % 8)).failed)
  let s1 := dark.foldl (fun s i =>
    (bayColourLanes b (i % 8)).foldl (fun s l => modLane l (fun x => { x with failed := false }) s) s) s
  let s2 := (List.range 32).foldl (fun s i => modFade (4 * b + i / 8) (i % 8) (fun _ => fadeReset 0) s) s1
  (bayLanes b).foldl (fun s l => releaseHold .fade l s) s2

/-- The optical switch has settled: the spare, or the returned bay, feeds the engines; transmission resumes (R61 step 6,
R65). -/
def execCutoverSwitchSettled (bay : Nat) (s : State) : Host.Outcome State Fault Refusal :=
  onUnit (decide (bay < 8))
    (match tabGet? s.opt.cutovers bay with
    | some c =>
      if c.stage = .switching then
        let c1 : Cutover := { c with stage := .settled }
        let s1 := modOpt (fun o => { o with cutovers := tabPut o.cutovers bay c1 }) s
        let s2 := if c.back then
            modBay bay (fun x => { x with use := .active })
              (modConfig (fun g => { g with cutover := tabDel g.cutover bay }) s1)
          else
            modBay c.spare (fun x => { x with use := .serving bay })
              (modConfig (fun g => { g with cutover := tabPut g.cutover bay c.spare }) s1)
        endFades bay ((bayPorts s bay).foldl (fun s p => modPort p (fun pt => { pt with paused := false }) s) s2)
      else s
    | none => s)

/-- The bay that feeds no longer goes dark: the spare back to idle, or the replaced one off (R61, R65). -/
def leaveBay (bay : Nat) (c : Cutover) (s : State) : State :=
  if c.back then modBay c.spare (fun x => { x with use := .idle }) s
  else
    ((bay :: [8, 9]).filter (fun b => b != c.spare && (b == bay || (Machine.bay s b).use == .serving bay))).foldl
      (fun s b => modBay b (fun x => { x with use := .off }) s) s

/-- The suspended lanes have rejoined: what fed the engines before is powered down, a returned bay's spare is idle again,
and the cut-over is reported (R61 step 7, R65). -/
def execCutoverComplete (bay : Nat) (s : State) : Host.Outcome State Fault Refusal :=
  onUnit (decide (bay < 8))
    (match tabGet? s.opt.cutovers bay with
    | some c =>
      if c.stage = .settled then
        let s1 := modOpt (fun o => { o with cutovers := tabDel o.cutovers bay }) s
        let s2 := leaveBay bay c s1
        let s3 := countDie bay 1 (raise15 0x0102 [bay, c.spare, 0] s2)
        match c.caller with
        | some o => finish o .ok [] s3
        | none => s3
      else s
    | none => s)

/-- The bay position that a bay feeds now. -/
def bayFeeds (s : State) (bay : Nat) : Option Nat :=
  let x := Machine.bay s bay
  if bay < 8 then (if x.use = .active ∧ feeder s bay = bay then some bay else none)
  else match x.use with
    | .serving b => some b
    | _ => none

/-- A bay latch opens: its lasers go off; the lanes it fed are removed and cut-over may start (20 R638). -/
def execBayInterlockOpen (bay : Nat) (s : State) : Host.Outcome State Fault Refusal :=
  let s1 := modBay bay (fun x => { x with fitted := false, use := .off }) s
  onUnit (decide (bay < 10))
    (match bayFeeds s bay with
    | some b => startCutover b ((bayLanes b).foldl (fun s l => holdLane .fade l s) s1)
    | none => s1)

/-- A bay is inserted, its lasers off; in a spare position it tests itself (20 R639). -/
def execBayInserted (bay : Nat) (s : State) : Host.Outcome State Fault Refusal :=
  onUnit (decide (bay < 10))
    (modBay bay (fun _ => { fitted := true, use := if bay < 8 then .off else .selfTest, darkColours := 0 }) s)

/-- The self-test of an inserted spare ends (20 R639). -/
def execBaySelfTestDone (bay : Nat) (s : State) : Host.Outcome State Fault Refusal :=
  onUnit (decide (bay < 10))
    (if (Machine.bay s bay).use = .selfTest then modBay bay (fun x => { x with use := .idle }) s else s)

/-! ## Eye safety (R66 to R68) -/

/-- The colours of a transmit fibre whose gate ring is FAILED or does not reach the diverted state. -/
def ungatedColours (s : State) (e f : Nat) : List Nat :=
  (List.range 8).filter (fun k => ((rowRings s e f 2 k).filter (fun r => (ring s r).mode != .unlocked)).isEmpty)

/-- The gate rings of a fibre. -/
def gateRings (s : State) (e f : Nat) : List Nat := (List.range 8).flatMap (fun k => rowRings s e f 2 k)

/-- An open fibre: its gated light is off within the limit, its circuits are lost, its ungated colours go dark (R66,
R67). -/
def openFibre (engine fibre : Nat) (s : State) : State :=
  let bad := ungatedColours s engine fibre
  let s1 := modFibre (engine * 8 + fibre) (fun x => { x with reduced := true, probing := false, probeLow := none }) s
  let s2 := (s.opt.circuits.filter (fun x => x.2.engine == engine && x.2.outFibre == fibre)).foldl
    (fun s x => loseCircuit x.1 s) s1
  let s3 := setMode .tracking ((gateRings s engine fibre).filter (fun r => (ring s r).mode != .unlocked)) s2
  let s4 := bad.foldl (fun s c => darken (feeder s (die engine)) c s) s3
  (List.range 8).foldl (fun s c => laneFalls (laneOf engine fibre c) .light s) s4

/-- Receive power is low and back-reflection high: the fibre's emission is reduced, crust circuits that leave on it are
parked (R66). -/
def execOpenFibreDetect (engine fibre : Nat) (s : State) : Host.Outcome State Fault Refusal :=
  onUnit (pairKnown engine fibre)
    (if (fibrePair s (engine * 8 + fibre)).reduced then s
    else raiseBoth 0x0103 [engine, fibre, 0] (countFibre engine fibre 0 (openFibre engine fibre s)))

/-- High back-reflection alone is reported (R66). -/
def execBackReflectionHigh (engine fibre : Nat) (s : State) : Host.Outcome State Fault Refusal :=
  onUnit (pairKnown engine fibre) (raise15 0x0104 [engine, fibre] (countFibre engine fibre 2 s))

/-- A reduced fibre emits its λ0 probe (R67). -/
def execEyeSafetyProbe (engine fibre : Nat) (s : State) : Host.Outcome State Fault Refusal :=
  onUnit (pairKnown engine fibre)
    (if (fibrePair s (engine * 8 + fibre)).reduced then
      countFibre engine fibre 1 (modFibre (engine * 8 + fibre) (fun x => { x with probing := true }) s)
    else s)

/-- The probe ends with its measurement: whether the reflection lay below −20 dB (R67). -/
def execEyeSafetyProbeEnd (engine fibre : Nat) (low : Bool) (s : State) : Host.Outcome State Fault Refusal :=
  onUnit (pairKnown engine fibre)
    (if (fibrePair s (engine * 8 + fibre)).probing then
      modFibre (engine * 8 + fibre) (fun x => { x with probing := false, probeLow := some low }) s
    else s)

/-- A colour is kept off by another reduced fibre of the bay's engines, or by its own fade. -/
def stillDark (s : State) (d k : Nat) : Bool :=
  (List.range 4).any (fun e => (fade s (4 * d + e) k).failed || (List.range 8).any (fun f =>
    (fibrePair s ((4 * d + e) * 8 + f)).reduced && (ungatedColours s (4 * d + e) f).contains k))

/-- Light returns to a fibre: its gates park, dark colours light again, its circuits relight (R70, R71). -/
def restoreFibre (engine fibre : Nat) (s : State) : State :=
  let bad := ungatedColours s engine fibre
  let s1 := setMode .parked (gateRings s engine fibre) (modFibre (engine * 8 + fibre) (fun x => { x with reduced := false }) s)
  let s2 := bad.foldl (fun s c => if stillDark s (die engine) c then s else brighten (feeder s (die engine)) c s) s1
  (s.opt.circuits.filter (fun x => x.2.engine == engine && x.2.outFibre == fibre)).foldl (fun s x => relight x.1 s) s2

/-- Receive power has held for 1 ms and the latest probe read low: full emission returns (R68). -/
def execEyeSafetyRestore (engine fibre : Nat) (s : State) : Host.Outcome State Fault Refusal :=
  onUnit (pairKnown engine fibre)
    (if (fibrePair s (engine * 8 + fibre)).reduced ∧ (fibrePair s (engine * 8 + fibre)).probeLow = some true then
      raiseBoth 0x0103 [engine, fibre, 1] (restoreFibre engine fibre s)
    else s)

/-! ## Crust circuits (R74 to R77) -/

/-- The circuits of an engine in a phase. -/
def circuitsIn (s : State) (e : Nat) (f : Circuit → Bool) : Tab Circuit :=
  s.opt.circuits.filter (fun x => x.2.engine == e && f x.2)

/-- The change asked for is answered (R74). -/
def answerChange (c : Circuit) (s : State) : State :=
  match c.caller with
  | some o => finish o .ok [] s
  | none => s

/-- The engine's deferred circuits are committed and those to be torn down begin to be, all for one effective time, and
the callers are answered (R76 to R78). -/
def applyChanges (engine : Nat) (s : State) : State :=
  let eff := (now32 s + 500000) % 2 ^ 32
  let change (notice : Nat) (ph : CircuitPhase) (s : State) (x : Nat × Circuit) : State :=
    let c : Circuit := { x.2 with phase := ph, effective := eff, caller := none }
    answerChange x.2 (crustNotice notice x.1 c (modCircuit x.1 (fun _ => c) s))
  let s1 := (circuitsIn s engine (fun c => c.phase == .deferred)).foldl (change 0 .committed) s
  (circuitsIn s engine (fun c => c.tearDown && c.phase != .tearing && c.phase != .deferred && c.phase != .committed)).foldl
    (change 1 .tearing) s1

/-- The engine's deferred changes are committed as one set: EFFECTIVE is 1 ms ahead and notices go out (R74, R76). -/
def execCrustChangeApply (engine : Nat) (s : State) : Host.Outcome State Fault Refusal :=
  let ups := circuitsIn s engine (fun c => c.phase == .deferred)
  let downs := circuitsIn s engine (fun c => c.tearDown && c.phase != .tearing && c.phase != .deferred && c.phase != .committed)
  onUnit (decide (engine < 32))
    (if ups.isEmpty && downs.isEmpty then s
    else modOpt (fun o => { o with lastChange := tabPut o.lastChange engine (nowRef s) }) (applyChanges engine s))

/-- A committed circuit takes its lanes and begins to light, or is lost at a fibre under eye safety (R79). -/
def lightCircuit (engine : Nat) (x : Nat × Circuit) (s : State) : State :=
  let s1 := (circuitLanes x.2).foldl (fun s l => holdLane .crust l s) s
  if (fibrePair s (engine * 8 + x.2.outFibre)).reduced then
    crustNotice 3 x.1 x.2 (modCircuit x.1 (fun c => { c with phase := .lost }) s1)
  else modCircuit x.1 (fun c => { c with phase := .lighting }) (setMode .tracking (circuitRings s x.2) s1)

/-- A circuit is torn down: its rings park and its lanes come back (R80). -/
def endCircuit (engine : Nat) (x : Nat × Circuit) (s : State) : State :=
  let s1 := modOpt (fun o => { o with circuits := tabDel o.circuits x.1 })
    (setMode .parked (circuitRings s x.2) s)
  let s2 := if x.2.loop then
      modFibre (engine * 8 + x.2.inFibre) (fun p => { p with loopback := false }) s1 else s1
  ((circuitLanes x.2).filter (fun l => !laneInCircuit s2 l)).foldl (fun s l => releaseHold .crust l s) s2

/-- EFFECTIVE arrives: lanes leave their ports and rings leave park, or rings are parked and lanes given back (R76,
R77). -/
def execCrustEffective (engine : Nat) (s : State) : Host.Outcome State Fault Refusal :=
  let ups := circuitsIn s engine (fun c => c.phase == .committed)
  let downs := circuitsIn s engine (fun c => c.phase == .tearing)
  let s1 := ups.foldl (fun s x => lightCircuit engine x s) s
  let s2 := downs.foldl (fun s x => endCircuit engine x s) s1
  onUnit (decide (engine < 32)) s2

/-- A circuit's rings are locked: it is lit, and lit notices go out (R76). -/
def execCrustLit (circuit : Nat) (s : State) : Host.Outcome State Fault Refusal :=
  .next (match Machine.circuit s circuit with
  | some c =>
    if c.phase = .lighting ∧ (circuitRings s c).all (fun k => (ring s k).mode != .unlocked) then
      crustNotice 2 circuit c (modCircuit circuit (fun c => { c with phase := .lit }) (setMode .locked (circuitRings s c) s))
    else s
  | none => s)

end Sys2Proof.Machine
end

