-- ==== Sys2Proof/Machine/Inject.lean ====
section
/-! DEFINITION. Packets that the spine originates: their header, their wait for pool room, the pause toward a full queue
(04 R134, R650; 05 R174; 06 R231, R233, R649), and the placing of copies. -/

namespace Sys2Proof.Machine

/-! ## Copies of a packet -/

/-- The distinct egress ports of a multicast packet, in ascending rack order, and the racks without a live candidate
(06 R217). -/
def groupPorts (s : State) (sl : Slice) (k : Packet) : List Nat × Nat :=
  match tabGet? sl.groups (pDest k % 65536) with
  | none => ([], 0)
  | some g =>
    let rs := (groupRacks sl g).map (rackPort s sl (pEntropy k))
    (distinct (rs.filterMap id), (rs.filter Option.isNone).length)

/-- The key under which a moved queue is remembered (06 R227). -/
def huskMoveKey (p cls src : Nat) : Nat := pcKey p cls * 17 + src

/-- Place one adaptive copy: on arrival it moves to the husk lane while its queue's move lasts (06 R227). -/
def placeAdaptive (id p cls src : Nat) (s : State) : State :=
  if s.buf.huskMoving.contains (huskMoveKey p cls src) then
    match (stored s id).bind (fun k => if k.multicast then none else huskPort s (slice s k.slice) k.pkt) with
    | some q => countQueue p cls 3 1 (placeCopy id q cls 1 src s)
    | none => placeCopy id p cls 0 src s
  else placeCopy id p cls 0 src s

/-! ## Origination -/

/-- The header words of an originated packet (04 R650): kind, class, destination with its flags, partition, entropy and
epoch; FIRST and LAST as given. -/
structure Origination where
  kind : Nat
  cls : Nat
  dest : Nat
  mcast : Bool
  spineDst : Bool
  pid : Nat
  epoch : Nat
  entropy : Nat
  first : Bool
  last : Bool
  nospray : Bool
  ext : List Word
  payload : List Byte

/-- The packet of an origination; ENC follows its partition (04 R136, R139). -/
def madePacket (s : State) (o : Origination) : Packet :=
  { w0 := wordOf [at_ 31 28 2, at_ 27 24 o.kind, at_ 23 21 o.cls, at_ 16 16 (bit (partition s o.pid).isProtected),
      at_ 15 0 o.payload.length],
    w1 := wordOf [at_ 31 12 o.dest, at_ 11 0 o.pid],
    w2 := wordOf [at_ 31 12 ((ownSid s).getD 0), at_ 7 0 o.entropy],
    w3 := wordOf [at_ 31 16 o.epoch, at_ 15 15 (bit o.mcast), at_ 14 14 (bit o.spineDst), at_ 13 13 (bit o.first),
      at_ 12 12 (bit o.last), at_ 11 11 (bit o.nospray), at_ 9 9 1],
    w4 := o.ext.getD 0 0, w5 := o.ext.getD 1 0, w6 := o.ext.getD 2 0, w7 := o.ext.getD 3 0,
    payload := o.payload, e2e := 0 }

/-- The key of E2E_SEQ: destination with its flags, and class (04 R134). -/
def e2eKey (k : Packet) : Nat := (pDest k * 4 + 2 * bit (pMcast k) + bit (pSpineDst k)) * 8 + pClass k

/-- Number an originated packet. -/
def numbered (k : Packet) (s : State) : Packet × State :=
  let n := tabGet zeroTab s.buf.e2e (e2eKey k)
  ({ k with e2e := w32 n },
    modBuf (fun b => { b with e2e := tabSet zeroTab b.e2e (e2eKey k) ((n + 1) % 2 ^ 32) }) s)

/-- Sources of injected packets: 8 to 15 the Knead ports, 16 the compute port, 17 the control island. -/
def kneadSource (g : Nat) : Nat := 8 + g
def computeSource : Nat := 16
def controlSource : Nat := 17

/-- The lowest-numbered slice whose data role is not in reset (06 R649). -/
def liveSlice (s : State) : Nat := ((List.range 8).find? (fun n => !(island s (8 + n)).dataReset)).getD 0

/-- The routing slice of an injected packet. -/
def sourceSlice (s : State) (src : Nat) : Nat := if src < 16 then src - 8 else liveSlice s

/-- The virtual output queue source: packets of the control island count as their slice's (05 R180). -/
def voqSource (src sl : Nat) : Nat := if src = controlSource then sl else src

/-! ## The pause of R233 -/

/-- The mark that the pause uses, its off value standing for 32 cells a lane. -/
def pauseMark (s : State) (p cls : Nat) : Nat := if markOf s p cls = 0 then 32 * (port s p).width else markOf s p cls

/-- Bring the pause of a source toward (port, class) up to date: it begins at twice the mark and ends at the mark. -/
def notePause (src p cls : Nat) (s : State) : State :=
  let k := pcKey p cls * 16 + src % 16
  let n := queueCells s p cls
  let on := s.buf.injPaused.contains k
  if cls = 0 ∨ src = controlSource then s
  else if !on && decide (2 * pauseMark s p cls ≤ n) then
    countQueue p cls 4 1 (modBuf (fun b => { b with injPaused := k :: b.injPaused }) s)
  else if on && decide (n ≤ pauseMark s p cls) then
    modBuf (fun b => { b with injPaused := b.injPaused.filter (· != k) }) s
  else s

def isPaused (s : State) (src p cls : Nat) : Bool :=
  cls != 0 && src != controlSource && s.buf.injPaused.contains (pcKey p cls * 16 + src % 16)

/-! ## Room (05 R174) -/

/-- Room in the source's own pool. -/
def ownPool (s : State) (src n : Nat) : Option Pool :=
  if src = controlSource then (if s.buf.controlUsed + n ≤ 8192 then some .control else none)
  else if src = computeSource then (if s.buf.computeUsed + n ≤ 32768 then some .compute else none)
  else if tabGet zeroTab s.buf.kneadUsed (src - 8) + n ≤ 8192 then some (.knead (src - 8)) else none

/-- Charge a pool. -/
def chargePool (pool : Pool) (key n : Nat) (s : State) : State :=
  match pool with
  | .control => modBuf (fun b => { b with controlUsed := b.controlUsed + n }) s
  | .compute => modBuf (fun b => { b with computeUsed := b.computeUsed + n }) s
  | .knead g => modBuf (fun b => { b with kneadUsed := tabMod zeroTab (· + n) b.kneadUsed g }) s
  | _ => chargeShared key n s

/-- The pool an injected packet takes: its own, else the shared pool under R172. -/
def findPool (s : State) (src key n : Nat) : Option Pool :=
  match ownPool s src n with
  | some p => some p
  | none => if admitsAll n key s && decide (n ≤ sharedFree s) then some .shared else none

/-- The consumer inside the spine of a packet's kind (05 Table 5.2): 0 Knead, 3 Mill, 4 Granary, 5 DMA, 6 ABORT,
7 other C2 control messages, 8 requests, 9 what firmware discards. -/
def consumerOf (k : Packet) : Nat :=
  match pKind k with
  | 0x2 => 0
  | 0x7 => if xCombined k then 9 else 0
  | 0x6 => 3
  | 0x8 => 4
  | 0x1 => 5
  | 0x5 => if xCtype k = 1 then 6 else if xCtype k = 2 then 9 else 7
  | 0x0 => 8
  | _ => 9

/-- Hand a packet to a consumer's queue. -/
def deliverTo (c : Nat) (d : Delivered) (s : State) : State :=
  modBuf (fun b => { b with consumers := tabPut b.consumers c ((tabGet? b.consumers c).getD [] ++ [d]) }) s

/-- Store an injected packet and queue its copies. -/
def storeInjected (src : Nat) (w : Waiting) (pool : Pool) (admitKey : Nat) (dests : List (Nat × Nat)) (set mask : Nat)
    (launch : Option Launch) (s : State) : State :=
  let n := cellsOf w.pkt
  let k : Stored := {
    pkt := w.pkt, inPort := none, slice := w.slice, src := voqSource src w.slice, cells := n, pool := pool,
    onHeadroom := 0, chargeKey := 0, copies := dests.length, complete := true, storeForward := true, stomp := false,
    set := set, mask := mask, hopsIn := 0, multicast := pMcast w.pkt, consumer := none, admitKey := admitKey,
    launch := launch }
  let (id, s1) := storePacket k (chargePool pool admitKey n s)
  dests.foldl (fun s d => if d.2 = 0 then placeAdaptive id d.1 (pClass w.pkt) k.src s
    else placeCopy id d.1 (pClass w.pkt) 1 k.src s) s1

/-- ORIGIN_LOSS for each rack without a live candidate (06 R217). -/
def countRacksLost (sl n : Nat) (s : State) : State := if n = 0 then s else count (counterId (0x08 + sl) 3 15) n s

/-- What an attempt to inject gives. -/
inductive Injected where
  | sent (t : State)
  /-- held by the pause of R233 -/
  | paused
  /-- neither pool admits it -/
  | full

/-- Queue a packet's copies to ports, held back by a pause or for want of room; `s` is the state before routing. -/
def injectTo (src : Nat) (w : Waiting) (launch : Option Launch) (s : State) (ps : List Nat) (vc key set mask : Nat)
    (s1 : State) : Injected :=
  if ps.any (fun p => isPaused s src p (pClass w.pkt)) then .paused
  else
    match findPool s src key (cellsOf w.pkt) with
    | none => .full
    | some pool => .sent (ps.foldl (fun s p => notePause src p (pClass w.pkt) s)
        (storeInjected src w pool key (ps.map (fun p => (p, vc))) set mask launch s1))

/-- Route a packet and queue its copies when it finds room; nothing changes otherwise. -/
def tryInject (src : Nat) (w : Waiting) (launch : Option Launch) (s : State) : Injected :=
  let cls := pClass w.pkt
  let sl := slice s w.slice
  let (r, g) := lookup s sl w.pkt
  let s1 := modSlice w.slice (fun x => { x with lfsr := g }) (lookupTouch w.slice w.pkt s)
  match r with
  | .own => .sent (deliverTo (consumerOf w.pkt) ⟨none, w.pkt, 0, 0, 0, 0⟩ s1)
  | .lost => .sent (countSlice w.slice 15 s1)
  | .adaptive p set mask => injectTo src w launch s [p] 0 (pcKey p cls) set mask s1
  | .husk p => injectTo src w launch s [p] 1 (pcKey p cls) 0 0 s1
  | .group =>
    let (ps, lost) := groupPorts s sl w.pkt
    let s2 := countRacksLost w.slice lost s1
    if ps.isEmpty then .sent s2 else injectTo src w launch s ps 0 (mcastKey w.slice cls) 0 0 s2

def waitingOf (s : State) (src : Nat) : List (Waiting × Option Launch) := tabGet (fun _ => []) s.buf.waiting src

def setWaiting (src : Nat) (l : List (Waiting × Option Launch)) (s : State) : State :=
  modBuf (fun b => { b with waiting := tabSet (fun _ => []) b.waiting src l }) s

/-- The first packet of an engine that can go: packets held by a pause are set aside, one that waits for room holds the
later ones behind it (05 R174). -/
def injectFirst (src : Nat) : List (Waiting × Option Launch) → List (Waiting × Option Launch) → State → Option State
  | _, [], _ => none
  | aside, w :: ws, s =>
    match tryInject src w.1 w.2 s with
    | .sent t => some (setWaiting src (aside ++ ws) t)
    | .paused => injectFirst src (aside ++ [w]) ws s
    | .full => none

def injectNext (src : Nat) (s : State) : Option State := injectFirst src [] (waitingOf s src) s

/-- Bring the pauses toward an engine's queues up to date as the queues fall. -/
def refreshPauses (src : Nat) (s : State) : State :=
  (s.buf.injPaused.filter (fun k => k % 16 == src % 16)).foldl (fun s k => notePause src (k / 128) (k / 16 % 8) s) s

/-- Originate a packet with its launch record: numbered, put behind the engine's other packets, and queued at once when
it can go. -/
def originateAt (src sl : Nat) (k : Packet) (l : Option Launch) (s : State) : State :=
  let (k1, s1) := numbered k s
  let s2 := setWaiting src (waitingOf s1 src ++ [(⟨k1, sl⟩, l)]) s1
  (injectNext src s2).getD s2

def originate (src : Nat) (k : Packet) (s : State) : State := originateAt src (sourceSlice s src) k none s

/-! ## Control messages (06 R231) -/

/-- Room for one control packet. -/
def controlRoom (s : State) (k : Packet) : Bool := decide (s.buf.controlUsed + cellsOf k ≤ 8192)

/-- Send a C2 control message: into the reserve pool, else firmware's outbound queue of 4,096, else discarded and
counted. -/
def sendControl (k : Packet) (s : State) : State :=
  if s.buf.fwOut.isEmpty && (waitingOf s controlSource).isEmpty && controlRoom s k then originate controlSource k s
  else if s.buf.fwOut.length < 4096 then modBuf (fun b => { b with fwOut := b.fwOut ++ [k] }) s
  else countControl 7 s

/-- A control message from this spine to another: CTYPE, extension words, payload (04 Table 4.8), in PID 0x000. -/
def spineControl (s : State) (cls ctype dest : Nat) (ext : List Word) (payload : List Byte) : Packet :=
  let o : Origination := {
    kind := 5, cls := cls, dest := dest, mcast := false, spineDst := true, pid := 0, epoch := 0, entropy := 0,
    first := true, last := true, nospray := false, ext := (wordOf [at_ 31 24 ctype] ||| ext.getD 0 0) :: ext.drop 1,
    payload := payload }
  madePacket s o

end Sys2Proof.Machine
end

