-- ==== Sys2Proof/Machine/Forward.lean ====
section
/-! DEFINITION. A packet's way through a slice: header checks, policing, lookup, admission and queueing, trailer check,
learning, sampling, and the timers of queues and tables (chapters 4 to 7). -/

namespace Sys2Proof.Machine

/-! ## Header checks (04 R130, R142 to R151, R645, Table 4.12) -/

/-- Header version 1 accepted at a port as R129 allows. -/
def isV1 (k : Packet) : Bool := pVersion k == 1

/-- A kind, or an enumerated field that Ixaux reads, is reserved or does not travel in DATA. -/
def badKind (k : Packet) : Bool :=
  decide (9 ≤ pKind k) || (isV1 k && decide (6 ≤ pKind k)) ||
    (pKind k == 5 && !(decide (1 ≤ xCtype k) && decide (xCtype k ≤ 4))) ||
    (pKind k == 8 && !([1, 2, 3, 0x81, 0x82, 0x83].contains (xGop k)))

/-- The classes that a kind may travel in (R645, Table 4.3). -/
def kindClasses (k : Packet) : List Nat :=
  match pKind k with
  | 0 => [2, 5, 6, 7]
  | 1 => [3, 5, 6, 7]
  | 2 => [0, 1]
  | 3 => [0, 1]
  | 4 => [4, 6]
  | 5 => if xCtype k ≤ 2 then [0] else [2]
  | 6 => [2]
  | 7 => [3]
  | 8 => if xGop k < 0x80 then [2, 5] else [3, 5]
  | _ => []

/-- Flags as they count: a version-1 packet has none (R129). -/
def fMcast (k : Packet) : Bool := !isV1 k && pMcast k
def fSpineDst (k : Packet) : Bool := !isV1 k && pSpineDst k
def fSpineSrc (k : Packet) : Bool := !isV1 k && pSpineSrc k

/-- The flags, or the bits they require to be 0, are inconsistent (R142). -/
def badAddress (k : Packet) : Bool :=
  (fMcast k && fSpineDst k) || (fMcast k && decide (2 ^ 16 ≤ pDest k)) || (fSpineDst k && decide (2 ^ 13 ≤ pDest k)) ||
    (fSpineSrc k && decide (2 ^ 13 ≤ pSrc k))

/-- The group of a multicast packet does not serve it (R142; 06 R238). -/
def badGroup (sl : Slice) (k : Packet) : Bool :=
  fMcast k &&
    (match tabGet? sl.groups (pDest k % 65536) with
    | none => true
    | some g => fld g.1 31 31 == 0 || fld g.2 31 20 != pPid k || [0, 1, 2, 6, 7, 8].contains (pKind k) ||
        !parityGood sl 2 (pDest k % 65536) || (fld g.1 30 30 == 1 && !parityGood sl 3 (fld g.2 19 8)))

/-- The reason at which the header checks drop a packet, in the order of Table 4.12. -/
def headerDrop (s : State) (p : Nat) (k : Packet) (slots : Nat) : Option Nat :=
  let sl := slice s (p / 256)
  let pe := partEntry sl (pPid k)
  let d := (pEpoch k + 65536 - pe.epoch) % 65536
  if !(pVersion k == 2 || (isV1 k && (port s p).compat)) then some 0x01
  else if badKind k then some 0x02
  else if 8192 < pLength k || slots != cellsOf k then some 0x03
  else if !(kindClasses k).contains (pClass k) then some 0x04
  else if 5 ≤ pClass k && pVc k == 1 then some 0x05
  else if pColour k = 3 then some 0x06
  else if badAddress k then some 0x07
  else if pHops k = 15 then some 0x08
  else if pPid k = 0xFFF || !pe.defined || !portInPartition pe p || !parityGood sl 4 (pPid k) then some 0x09
  else if pEnc k != pe.isProtected then some 0x0A
  else if pe.fenced then some 0x0B
  else if !isV1 k && decide (32768 ≤ d) then some 0x0C
  else if !isV1 k && decide (1 ≤ d) then some 0x0D
  else if badGroup sl k then some 0x0E
  else none

/-- Parity errors that the header checks meet are reported (06 R238). -/
def headerParity (p : Nat) (k : Packet) (s : State) : State :=
  let n := p / 256
  let s1 := if parityGood (slice s n) 4 (pPid k) then s else tellParity n 4 (pPid k) s
  if !fMcast k then s1
  else if !parityGood (slice s1 n) 2 (pDest k % 65536) then tellParity n 2 (pDest k % 65536) s1
  else
    match tabGet? (slice s1 n).groups (pDest k % 65536) with
    | some g => if fld g.1 30 30 = 1 && !parityGood (slice s1 n) 3 (fld g.2 19 8) then tellParity n 3 (fld g.2 19 8) s1 else s1
    | none => s1

/-- The cells of a dropped arriving packet go back at once: a lossless one's credit returns (05 R168, R169). -/
def returnCells (p : Nat) (k : Packet) (s : State) : State :=
  if lossless (pClass k) then
    releaseHeadroom p (cvKey (pClass k) (pVc k)) (cellsOf k) (chargeHeadroom p (cvKey (pClass k) (pVc k)) (cellsOf k) s)
  else s

/-! ## Markers (07 R252) -/

/-- A marker after accrual: rates in Mb/s, buckets in bits, RATE / 1,000 bits a ns. -/
def markerSettle (m : Marker) (now : Nat) : Marker :=
  { m with
    c := Nat.min (m.params.cbs * 8) (m.c + m.params.cir * (now - m.time) / 1000),
    p := Nat.min (m.params.pbs * 8) (m.p + m.params.pir * (now - m.time) / 1000), time := now }

/-- The colour-aware two-rate three-colour marker of RFC 2698. -/
def markPacket (m : Marker) (colour bits : Nat) : Nat × Marker :=
  if colour = 2 || decide (m.p < bits) then (2, m)
  else if colour = 1 || decide (m.c < bits) then (1, { m with p := m.p - bits })
  else (0, { m with p := m.p - bits, c := m.c - bits })

/-- Colour a lossy packet; C0 to C4 leave with COLOUR 0 (R252, R253). -/
def colourPacket (p : Nat) (k : Packet) (s : State) : Packet × State :=
  if lossless (pClass k) then (setColour 0 k, s)
  else
    let key := pcKey p (pClass k)
    let m := tabGet markerReset s.sched.markers key
    if m.params.enable then
      let (c, m1) := markPacket (markerSettle m (nowRef s)) (pColour k) (8 * sizeBytes k)
      (setColour c k, { s with sched := { s.sched with markers := tabSet markerReset s.sched.markers key m1 } })
    else (k, s)

/-! ## Storing and queueing -/

/-- The record of an arriving packet. -/
def arrivingRecord (s : State) (p : Nat) (k : Packet) : Stored :=
  { pkt := setHops (pHops k + 1) k, inPort := some p, slice := p / 256, src := p / 256, cells := cellsOf k,
    pool := .shared, onHeadroom := 0, chargeKey := cvKey (pClass k) (pVc k), copies := 0, complete := false,
    storeForward := testBitN (port s p).storeMask (pClass k), stomp := false, set := 0, mask := 0, hopsIn := pHops k,
    multicast := fMcast k, consumer := none, admitKey := 0, launch := none }

/-- The egress has more joined lanes than the ingress (05 R177). -/
def widens (s : State) (p q : Nat) : Bool := decide ((joinedLanes s p).length < (joinedLanes s q).length)

/-- What became of a packet at its header: the reason of a drop, and the egress port chosen. -/
structure Fate where
  code : Nat
  out : Option Nat

/-- Drop a lossy packet toward a queue for reason RED. -/
def dropRed (q : Nat) (s : State) : State := countDrop q 0x20 s

/-- Count bytes forwarded between two fibre pairs of one engine (12 R409). -/
def noteTraffic (p q : Nat) (k : Packet) (s : State) : State :=
  if p / 64 = q / 64 then
    { s with winnow := { s.winnow with
      traffic := tabMod (fun _ => 0) (· + sizeBytes k) s.winnow.traffic (p / 64 * 64 + 8 * (p / 8 % 8) + q / 8 % 8) } }
  else s

/-- Store a unicast packet for an egress port and channel: lossless on headroom and then the shared pool, lossy under
random early drop and push-out (05 R169, R173, R186). -/
def storeUnicast (p q vc set mask : Nat) (k : Packet) (s : State) : State × Fate :=
  let cls := pClass k
  let key := pcKey q cls
  let n := cellsOf k
  let r : Stored := { arrivingRecord s p k with
    admitKey := key, copies := 1, set := set, mask := mask, storeForward := (arrivingRecord s p k).storeForward || widens s p q }
  let place (id : Nat) (s : State) : State :=
    noteTraffic p q k (if vc = 0 then placeAdaptive id q cls r.src s else placeCopy id q cls 1 r.src s)
  if lossless cls then
    let (s1, left) := chargeLossless p r.chargeKey key n s
    let (id, s2) := storePacket { r with onHeadroom := left, pool := .headroom } s1
    (place id s2, { code := 0, out := some q })
  else
    let (drop, s1) := redDecide q cls (pColour k) s
    if drop then (dropRed q s1, { code := 0x20, out := some q })
    else
      let (ok, s2) := lossyRoom key cls n s1
      if ok then
        let (id, s3) := storePacket r (chargeShared key n s2)
        (place id s3, { code := 0, out := some q })
      else (dropRed q s2, { code := 0x20, out := some q })

/-- Store a multicast packet once and queue a copy for each egress port (05 R175, R184; 06 R217). -/
def storeMulticast (p : Nat) (k : Packet) (s : State) : State × Fate :=
  let cls := pClass k
  let n := cellsOf k
  let sl := slice s (p / 256)
  let (ps, lost) := groupPorts s sl k
  let s0 := if lost = 0 then s else count (counterId (0x08 + p / 256) 1 (64 * (p % 256) + 0x22)) lost s
  let key := mcastKey (p / 256) cls
  let vc := pVc k
  let r0 := arrivingRecord s p k
  let r (cs : Nat) (qs : List Nat) : Stored :=
    { r0 with admitKey := key, copies := cs, storeForward := r0.storeForward || qs.any (widens s p) }
  let queue (id : Nat) (qs : List Nat) (s : State) : State :=
    qs.foldl (fun s q => noteTraffic p q k (placeCopy id q cls vc r0.src s)) s
  if ps.isEmpty then (returnCells p k s0, { code := 0x22, out := none })
  else if lossless cls then
    let (s1, left) := chargeLossless p r0.chargeKey key n s0
    let (id, s2) := storePacket { r ps.length ps with onHeadroom := left, pool := .headroom } s1
    (queue id ps s2, { code := 0, out := none })
  else
    let (s1, kept) := ps.foldl (fun (x : State × List Nat) q =>
      let (drop, t) := redDecide q cls (pColour k) x.1
      if drop then (dropRed q t, x.2) else (t, x.2 ++ [q])) (s0, [])
    if kept.isEmpty then (s1, { code := 0x20, out := none })
    else
      let (ok, s2) := lossyRoom key cls n s1
      if ok then
        let (id, s3) := storePacket (r kept.length kept) (chargeShared key n s2)
        (queue id kept s3, { code := 0, out := none })
      else (kept.foldl (fun s q => dropRed q s) s2, { code := 0x20, out := none })

/-- Store a packet for a consumer inside the spine (05 R160, R177): Knead and firmware packets on headroom, those of the
compute port under the admission of its queue. -/
def storeOwn (p : Nat) (k : Packet) (s : State) : State × Fate :=
  let cls := pClass k
  let n := cellsOf k
  let c := consumerOf k
  let key := pcKey computePort cls
  let r0 := arrivingRecord s p k
  let r : Stored := { r0 with pkt := k, admitKey := key, consumer := some c, storeForward := true }
  if c = 3 ∨ c = 4 ∨ c = 5 then
    if lossless cls then
      let (s1, left) := chargeLossless p r.chargeKey key n s
      let (_, s2) := storePacket { r with onHeadroom := left, pool := .headroom } s1
      (s2, { code := 0, out := none })
    else
      let (ok, s1) := lossyRoom key cls n s
      if ok then
        let (_, s2) := storePacket r (chargeShared key n s1)
        (s2, { code := 0, out := none })
      else (countDrop p 0x20 s1, { code := 0x20, out := none })
  else if lossless cls then
    let (_, s1) := storePacket { r with onHeadroom := n, pool := .headroom } (chargeHeadroom p r.chargeKey n s)
    (s1, { code := 0, out := none })
  else
    let (_, s1) := storePacket { r with cells := 0 } s
    (s1, { code := 0, out := none })

/-- Route a packet that has passed its checks (06 R198, R220, R226). -/
def routePacket (p : Nat) (k : Packet) (s : State) : State × Fate :=
  let n := p / 256
  let k1 := if isV1 k then { k with w3 := 0 } else k
  let (r, g) := lookup s (slice s n) k1
  let s1 := modSlice n (fun x => { x with lfsr := g }) (lookupTouch n k1 s)
  match r with
  | .own => storeOwn p k s1
  | .group => storeMulticast p k s1
  | .adaptive q set mask =>
    let s2 := if set = (slice s n).params.detourSet ∧ pVc k = 0 ∧ (slice s n).params.detourSet ≠ (slice s n).params.spineSet
      then countSlice n 2 s1 else s1
    storeUnicast p q 0 set mask k s2
  | .husk q => storeUnicast p q 1 0 0 k s1
  | .lost => (returnCells p k (countDrop p 0x22 s1), { code := 0x22, out := none })

/-! ## Sampling (05 R189 to R191) -/

/-- The bytes of a packet as received, its trailer included. -/
def packetBytes (k : Packet) : List Byte := wordsBytes (headerWords k) ++ k.payload ++ wordBytes k.e2e ++ wordBytes (packetCrc k)

/-- The sample record of a packet (Table 5.7). -/
def sampleRecord (s : State) (p : Nat) (k : Packet) (f : Fate) : List Word × List Byte :=
  let hideIt := pEnc k || (partEntry (slice s (p / 256)) (pPid k)).isProtected
  let n := if hideIt then 32 else Nat.min 128 (sizeBytes k)
  ([wordOf [at_ 31 24 1, at_ 23 16 f.code, at_ 15 8 n],
    wordOf [at_ 31 21 p, at_ 20 10 (f.out.getD 0), at_ 9 9 (bit f.out.isSome), at_ 8 8 (bit (fMcast k)), at_ 7 5 (p / 256)],
    w32 (now32 s), w32 (slice s (p / 256)).sampleSeq], (packetBytes k).take n)

/-- The generator of a port, seeded from the entropy source at its first use since a start (R189). -/
def sampleSeed (p : Nat) (s : State) : Word × State :=
  if (port s p).sampleGen = 0 then let (k, s1) := drawFree s; (seedOf k, s1) else ((port s p).sampleGen, s)

/-- The port's generator takes 32 steps; a selected packet yields a record, or a counted discard. -/
def samplePacket (p : Nat) (k : Packet) (f : Fate) (s : State) : State :=
  match (port s p).sample with
  | none => s
  | some bits =>
    let (seed, s0) := sampleSeed p s
    let g := lfsrSteps 32 seed
    let s1 := modPort p (fun pt => { pt with sampleGen := g }) s0
    if g.toNat % 2 ^ bits ≠ 0 then s1
    else
      let r := sampleRecord s1 p k f
      let s2 := modSlice (p / 256) (fun x => { x with sampleSeq := (x.sampleSeq + 1) % 2 ^ 32 }) s1
      if mayStart s2 6 3 then
        startWork 6 3 (Config.fwCost 6) { s2 with tele := { s2.tele with sampleQueue := s2.tele.sampleQueue ++ [r] } }
      else countSlice (p / 256) 13 s2

/-! ## Arrival -/

/-- A C0 packet passes the policer: its tokens are taken (07 R250, R251). -/
def policed (p : Nat) (k : Packet) (s : State) : Option State :=
  let s1 := settleC0 p s
  if 16 * sizeBytes k ≤ (port s1 p).c0Level then
    some (modPort p (fun pt => { pt with c0Level := pt.c0Level - 16 * sizeBytes k }) s1)
  else none

/-- A packet header is present in its slice (04 R152): checks, filters, policing, colour, lookup, admission, queueing and
sampling. `slots` is the number of data slots up to EOP. -/
def execPacketHeaderRx (port : Nat) (pkt : Packet) (slots : Nat) (s : State) : Host.Outcome State Fault Refusal :=
  let s0 := filterSlice 0 (port / 256) pkt (headerParity port pkt s)
  onUnit (portKnown s port)
    (match headerDrop s port pkt slots with
    | some code => samplePacket port pkt { code := code, out := none } (returnCells port pkt (countDrop port code s0))
    | none =>
      let (k, s1) := colourPacket port pkt s0
      if pClass k = 0 then
        let hold := modPort port (fun pt => { pt with c0Held := pt.c0Held ++ [k] })
          (countQueue port 0 5 1 (chargeHeadroom port (cvKey 0 (pVc k)) (cellsOf k) (settleC0 port s1)))
        if !(Machine.port s1 port).c0Held.isEmpty then samplePacket port pkt { code := 0, out := none } hold
        else
          match policed port k s1 with
          | none => samplePacket port pkt { code := 0, out := none } hold
          | some s2 =>
            let (s3, f) := routePacket port k s2
            samplePacket port pkt f s3
      else
        let (s2, f) := routePacket port k s1
        samplePacket port pkt f s2)

/-- A held C0 packet's tokens suffice: it goes on from ingress (07 R251). -/
def execC0PolicerRelease (port : Nat) (s : State) : Host.Outcome State Fault Refusal :=
  onUnit (portKnown s port)
    (match (Machine.port s port).c0Held with
    | [] => s
    | k :: rest =>
      match policed port k s with
      | none => s
      | some s1 =>
        let key := port * 16 + cvKey 0 (pVc k)
        let s2 := modBuf (fun b => { b with headroom := tabMod zeroTab (· - cellsOf k) b.headroom key })
          (modPort port (fun pt => { pt with c0Held := rest }) s1)
        (routePacket port k s2).1)

/-! ## Learning (06 R204, R207, R234, R235) -/

/-- The position of a port in a set. -/
def memberIndex (sl : Slice) (set p : Nat) : Option Nat := (poppyMembers sl set).findIdx? (fun m => m.port == p)

/-- The update of R234 to an unlocked key; failed insertions are counted by the caller. -/
def learnInto (sl : Slice) (m : LearnMsg) (i : Nat) : Option Slice :=
  let set := rowSet sl (m.src / 512)
  let found := match destFind sl m.pid m.src with
    | some (j, e) => if parityGood sl 0 j || e.isStatic then some (j, e) else none
    | none => none
  let sl0 := match destFind sl m.pid m.src with
    | some (j, e) => if !parityGood sl 0 j && !e.isStatic then parityRewritten 0 j { sl with dest := tabDel sl.dest j } else sl
    | none => sl
  match found with
  | some (j, e) =>
    if e.isStatic then some sl0
    else if e.poppy = set then
      some { sl0 with dest := tabPut sl0.dest j { e with mask := e.mask ||| 2 ^ i, hit := true, aged := false } }
    else some { sl0 with dest := tabPut sl0.dest j { e with poppy := set, mask := 2 ^ i, hit := true, aged := false } }
  | none =>
    match destMakeRoom sl0 m.pid m.src with
    | none => none
    | some (j, t) =>
      let e : DestEntry := {
        dest := m.src, pid := m.pid, isStatic := false, hit := true, aged := false,
        gen := tabGet zeroTab sl.destGen m.pid, poppy := set, mask := 2 ^ i }
      some (parityRewritten 0 j { sl0 with dest := tabPut t j e })

/-- A bucket that the key may lie in is locked. -/
def keyLocked (sl : Slice) (pid dest : Nat) : Bool :=
  sl.locks.any (fun l => l.bucket == overflowBucket && !sl.params.cuckoo ||
    ((destSlots sl pid dest).map (bucketOf sl)).contains l.bucket)

/-- Apply a learned fact in a slice: ignored by a slice whose set lacks the port; deferred while a bucket is locked. -/
def learn (n : Nat) (m : LearnMsg) (s : State) : State :=
  let sl := slice s n
  match memberIndex sl (rowSet sl (m.src / 512)) m.port with
  | none => s
  | some i =>
    if keyLocked sl m.pid m.src then
      if sl.deferred.length < 256 then modSlice n (fun x => { x with deferred := x.deferred ++ [m] }) s
      else countSlice n 4 s
    else
      match learnInto sl m i with
      | some sl1 => modSlice n (fun _ => sl1) s
      | none => countSlice n 3 s

/-- Learning from a packet whose trailer has passed, and the messages to the other slices (R234, R235). -/
def learnFrom (p : Nat) (k : Packet) (hopsIn : Nat) (s : State) : State :=
  let n := p / 256
  let sl := slice s n
  if fMcast k || fSpineSrc k || pVc k != 0 || hopsIn != 1 || !(partEntry sl (pPid k)).learn ||
      (memberIndex sl (rowSet sl (pSrc k / 512)) p).isNone then s
  else
    let m : LearnMsg := { pid := pPid k, src := pSrc k, port := p }
    ((List.range 8).filter (· != n)).foldl (fun s i =>
      if (slice s i).learnQueue.length < 1024 then modSlice i (fun x => { x with learnQueue := x.learnQueue ++ [m] }) s
      else countSlice i 5 s) (learn n m s)

/-- The oldest learning message of a slice is applied within the sweeper and learning share (R235). -/
def execLearnMsgRx (slice : Nat) (s : State) : Host.Outcome State Fault Refusal :=
  onUnit (decide (slice < 8))
    (match (Machine.slice s slice).learnQueue with
    | [] => s
    | m :: rest =>
      if mayStart s 3 2 then learn slice m (startWork 3 2 1 (modSlice slice (fun x => { x with learnQueue := rest }) s)) else s)

/-! ## The packet's end (04 R135, R138; 18 R580) -/

/-- The receive slot of a port and partition that is loaded. -/
def rxSlot (s : State) (p pid : Nat) : Option (Nat × LinkSlot) :=
  s.sec.linkSlots.find? (fun x => x.2.port == p && x.2.rx && x.2.pid == pid && x.2.rk.isSome)

def modLinkSlot (n : Nat) (f : LinkSlot → LinkSlot) (s : State) : State :=
  { s with sec := { s.sec with linkSlots := tabMap (fun k x => if k = n then f x else x) s.sec.linkSlots } }

/-- An encrypted packet's check: under the instance in force, or one of the sixteen after LAST when none is (R580).
`inst` is the instance under which the tag verifies. The result says whether the packet passes. -/
def instanceCheck (p : Nat) (k : Packet) (verdict : TrailerVerdict) (inst : Nat) (s : State) : State × Bool :=
  match rxSlot s p (pPid k) with
  | none => (s, false)
  | some (n, x) =>
    if x.tk.isSome then (s, verdict = .pass && inst == x.inst)
    else if verdict = .pass && decide (x.inst < inst) && decide (inst ≤ x.inst + 16) then
      let h := (port s p).peer
      let ident := match h with
        | some i => if i.role = 0 then i.sid else i.address
        | none => 0
      let tk := trafficKey (x.rk.getD 0) x.pid ((h.map (·.role)).getD 0) ident ((h.map (·.port)).getD 0) inst
      (modLinkSlot n (fun y => { y with inst := inst, tk := some tk, misses := 0 }) s, true)
    else
      let s1 := modLinkSlot n (fun y => { y with misses := y.misses + 1 }) s
      (if x.misses + 1 = 64 then raiseOwner [31] 0x0902 x.pid [p, x.pid] s1 else s1, false)

/-- A packet's last slot has arrived and its trailer or tag is checked: it is complete, or dropped, or its begun copies
are stomped. A packet for a consumer goes to its queue. -/
def execPacketTrailerCheck (id : Nat) (verdict : TrailerVerdict) (inst : Nat) (s : State) : Host.Outcome State Fault Refusal :=
  .next (match stored s id with
  | none => s
  | some k =>
    match k.inPort with
    | none => s
    | some p =>
      if k.complete then s
      else
        let (s1, ok) := if pEnc k.pkt then instanceCheck p k.pkt verdict inst s else (s, verdict = .pass)
        if !ok then
          cutShort false id (countDrop p (if verdict = .inverted then 0x11 else if pEnc k.pkt then 0x12 else 0x10) s1)
        else
          let s2 := learnFrom p k.pkt k.hopsIn (modStored id (fun x => { x with complete := true }) s1)
          match k.consumer with
          | none => s2
          | some c =>
            let x := (stored s2 id).getD k
            let d : Delivered := {
              inPort := some p, pkt := x.pkt, onHeadroom := x.onHeadroom, shared := x.cells - x.onHeadroom,
              chargeKey := x.chargeKey, admitKey := x.admitKey }
            deliverTo c d (modBuf (fun b => { b with packets := tabDel b.packets id }) s2))

/-- The cells of a packet that a consumer has taken are freed (05 R168, R169). -/
def releaseDelivered (d : Delivered) (s : State) : State :=
  let s1 := releaseShared d.admitKey (if d.admitKey = 0 then 0 else d.shared) s
  let s2 := match d.inPort with
    | some p => releaseHeadroom p d.chargeKey d.onHeadroom s1
    | none => s1
  retestQueue d.admitKey s2

/-- The packets that wait for a consumer. -/
def consumerQueue (s : State) (c : Nat) : List Delivered := tabGet (fun _ => []) s.buf.consumers c

/-- Take the oldest packet of a consumer, freeing its cells. -/
def takeDelivered (c : Nat) (s : State) : Option (Delivered × State) :=
  match consumerQueue s c with
  | [] => none
  | d :: rest => some (d, releaseDelivered d (modBuf (fun b => { b with consumers := tabSet (fun _ => []) b.consumers c rest }) s))

/-- A contribution or expert return is written into staging SRAM, and its headroom charge is released (05 R162). -/
def execStagingWrite (s : State) : Host.Outcome State Fault Refusal :=
  .next (match takeDelivered 0 s with
  | none => s
  | some (d, s1) => deliverTo (if pKind d.pkt = 2 then 1 else 2) ⟨d.inPort, d.pkt, 0, 0, 0, 0⟩ s1)

/-- Enough shared cells are free for a grown headroom: the slice's waiting ports leave DOWN (05 R167). -/
def execHeadroomFilled (slice : Nat) (s : State) : Host.Outcome State Fault Refusal :=
  onUnit (decide (slice < 8))
    (if s.buf.sharedUsed ≤ sharedSize s then
      ((allPorts s).filter (fun p => p / 256 == slice && (port s p).awaitHeadroom)).foldl (fun s p =>
        tryHello p (modPort p (fun pt => { pt with awaitHeadroom := false }) s)) s
    else s)

/-! ## Staleness and the husk lane (05 R193; 06 R227) -/

/-- A port has made no progress: a crumb record, and L2 for the port, which is held in DOWN until its reset trains it (R193;
17 Table 17.7). -/
def stalePort (p objType ident : Nat) (s : State) : State :=
  enterDown p 8 (escalate 2 (engineScope 6 p) 0x0004 [p] (staleCrumb objType ident 0 s))

/-- The sender of (port, class, channel) holds no credit (03 R95). -/
def creditless (s : State) (p cls vc : Nat) : Bool :=
  tabGet zeroTab (port s p).crTotal (cvKey cls vc) % 4096 == tabGet zeroTab (port s p).crSent (cvKey cls vc) % 4096

/-- A queue holds a packet, its sender no credit, and its timer has run. -/
def execQueueStalenessExpiry (port cls vc : Nat) (s : State) : Host.Outcome State Fault Refusal :=
  onUnit (portKnown s port && decide (cls < 5) && decide (vc < 2))
    (if !(sourceQueues s port cls vc).all (·.isEmpty) && creditless s port cls vc then
      stalePort port 6 (port * 16 + cls * 2 + vc) s
    else s)

/-- A port in UP with queued packets has sent no DATA block for its timer. -/
def execPortStalenessExpiry (port : Nat) (s : State) : Host.Outcome State Fault Refusal :=
  onUnit (portKnown s port)
    (if (Machine.port s port).phase = .up ∧ portHasQueued s port then stalePort port 7 port s else s)

/-- One packet of a queue that moves to the husk lane: to its own husk port, or it stays. -/
def moveCopy (p cls src : Nat) (s : State) (c : Copy) : State :=
  let key := voqKey p cls 0 src
  match stored s c.pkt with
  | none => s
  | some k =>
    if k.multicast then setVoq key (voq s key ++ [c]) s
    else
      match huskPort s (slice s k.slice) k.pkt with
      | none => setVoq key (voq s key ++ [c]) s
      | some q => countQueue p cls 3 1 (placeCopy c.pkt q cls 1 k.src (releaseEntry p cls s))

/-- A lossless head has stood for HUSK_WAIT without adaptive credit: its whole queue moves, in order; without a live
husk port it stays (R227). -/
def execHuskWaitExpiry (port cls src : Nat) (s : State) : Host.Outcome State Fault Refusal :=
  let key := voqKey port cls 0 src
  onUnit (portKnown s port && decide (cls < 5) && decide (src < 17))
    (match (voq s key).head?.bind (fun c => stored s c.pkt) with
    | none => s
    | some k =>
      if !creditless s port cls 0 || k.multicast then s
      else
        let s1 := huskParity k.slice k.pkt s
        if (huskPort s1 (slice s1 k.slice) k.pkt).isSome then
          modBuf (fun b => { b with huskMoving := distinct (huskMoveKey port cls src :: b.huskMoving) })
            ((voq s1 key).foldl (fun s c => moveCopy port cls src s c) (setVoq key [] s1))
        else s1)

/-- The egress has held adaptive credit for 1 µs: arrivals stop moving (R227). -/
def execHuskMoveEnd (port cls : Nat) (s : State) : Host.Outcome State Fault Refusal :=
  onUnit (portKnown s port && decide (cls < 5))
    (modBuf (fun b => { b with huskMoving := b.huskMoving.filter (fun k => k / 17 != pcKey port cls) }) s)

/-! ## Locks and the sweeper (06 R206 to R208, R236) -/

/-- Release a bucket's lock and apply the learning deferred for keys that are no longer locked, in order. -/
def unlockBucket (n b : Nat) (s : State) : State :=
  let s1 := modSlice n (fun x => { x with locks := x.locks.filter (fun l => l.bucket != b) }) s
  let ready := (slice s1 n).deferred.filter (fun m => !keyLocked (slice s1 n) m.pid m.src)
  let s2 := modSlice n (fun x => { x with deferred := x.deferred.filter (fun m => keyLocked x m.pid m.src) }) s1
  ready.foldl (fun s m => learn n m s) s2

/-- A bucket holds again what it held when its lock was taken (R208). -/
def restoreBucket (slice bucket : Nat) (l : BucketLock) (s : State) : State :=
  modSlice slice (fun x => { x with
    dest := (x.dest.filter (fun e => bucketOf x e.1 != bucket)).foldl (fun t e => tabPut t e.1 e.2)
      (l.before.filter (fun e => bucketOf x e.1 == bucket)) }) s

/-- A bucket has stayed locked for 100 µs: the contents before the lock return, and the command ends TIMEOUT. -/
def execBucketLockTimeout (slice bucket : Nat) (s : State) : Host.Outcome State Fault Refusal :=
  onUnit (decide (slice < 8))
    (match lockOf (Machine.slice s slice) bucket with
    | none => s
    | some l =>
      let s1 := restoreBucket slice bucket l s
      finish l.owner .timeout [] (noteLevel 1 (raise31 0x0302 [slice, bucket] (unlockBucket slice bucket s1))))

/-- One visit of the sweeper. -/
def sweepEntry (e : DestEntry) : Option DestEntry :=
  if e.isStatic then some e
  else if e.hit then some { e with hit := false }
  else if e.aged then none
  else some { e with aged := true }

/-- A SWEEP interval elapses: every unlocked learned entry is visited; `late` says that the pass did not finish in
time. -/
def execSweepTick (slice : Nat) (late : Bool) (s : State) : Host.Outcome State Fault Refusal :=
  let s1 := modSlice slice (fun x => { x with
    dest := x.dest.filterMap (fun e =>
      if (lockOf x (bucketOf x e.1)).isSome then some e else (sweepEntry e.2).map (fun v => (e.1, v))) }) s
  onUnit (decide (slice < 8)) (if late then raise31 0x0303 [slice] (countSlice slice 6 s1) else s1)

end Sys2Proof.Machine
end

