-- ==== Sys2Proof/Machine/GranOps.lean ====
section
/-! DEFINITION. The Granary's regions, lines and errors: striping, reads and writes of bytes, poison, correction and
retirement, and the free extents of each stack (chapter 11). -/

namespace Sys2Proof.Machine

def modGran (f : GranState → GranState) (s : State) : State := { s with gran := f s.gran }

/-- The set bits of a mask below n, in ascending order. -/
def maskBits (n m : Nat) : List Nat := (List.range n).filter (testBitN m)

def region (s : State) (r : Nat) : Option Region := tabGet? s.gran.regions r

def modRegion (r : Nat) (f : Region → Region) (s : State) : State :=
  match region s r with
  | some x => modGran (fun g => { g with regions := tabPut g.regions r (f x) }) s
  | none => s

/-- Bytes of an extent, of a stripe unit, of a line. -/
def extentBytes : Nat := 2097152
def stripeBytes : Nat := 4096

/-- The size of a region in bytes. -/
def regionSize (x : Region) : Nat := x.extents * extentBytes

/-- The stack of a byte of a region, and the offset in that stack's part (R369). -/
def placeOf (x : Region) (o : Nat) : Nat × Nat :=
  let ss := maskBits 16 x.stackSet
  let n := Nat.max 1 ss.length
  let u := o / stripeBytes
  (ss.getD (u % n) 0, u / n * stripeBytes + o % stripeBytes)

/-- The key of a line: region × 2^42 + line. -/
def lineKey (r ln : Nat) : Nat := r * 2 ^ 42 + ln

/-- The lines that a range touches. -/
def rangeLines (o n : Nat) : List Nat := if n = 0 then [] else (List.range ((o + n - 1) / 64 - o / 64 + 1)).map (o / 64 + ·)

/-- The pieces of a range by stripe unit: stack and bytes. -/
def rangeStripes (x : Region) (o n : Nat) : List (Nat × Nat) :=
  if n = 0 then []
  else
    (List.range ((o + n - 1) / stripeBytes - o / stripeBytes + 1)).map (fun i =>
      let lo := Nat.max o ((o / stripeBytes + i) * stripeBytes)
      let hi := Nat.min (o + n) ((o / stripeBytes + i + 1) * stripeBytes)
      ((placeOf x lo).1, hi - lo))

/-- A counter of a Granary island's block 1. -/
def countStack (g item n : Nat) (s : State) : State := count (counterId (0x40 + g) 1 item) n s

/-- BYTES_READ or BYTES_WRITTEN over a range. -/
def countRange (item : Nat) (x : Region) (o n : Nat) (s : State) : State :=
  (rangeStripes x o n).foldl (fun s p => countStack p.1 item p.2 s) s

/-! ## Bytes (R361, R370) -/

/-- The key that a region's lines are read and written under: that of its key slot, while the slot is bound to it; none in
clear. -/
def regionKey (s : State) (r : Nat) (x : Region) : Option Nat :=
  if x.encrypted then (tabGet? s.sec.regionSlots x.keySlot).bind (fun k => if k.region = r then k.xk else none) else none

/-- An ENCRYPTED region whose slot has no key (R370). -/
def keyMissing (s : State) (r : Nat) (x : Region) : Bool := x.encrypted && (regionKey s r x).isNone

/-- The byte key of a region and offset. -/
def memKey (r o : Nat) : Nat := r * 2 ^ 48 + o

/-- One stored byte. -/
def granByte (s : State) (r o : Nat) : Byte := tabGet (fun _ => 0) s.gran.mem (memKey r o)

/-- The 64 stored bytes of a line. -/
def storedLine (s : State) (r ln : Nat) : List Byte := (List.range 64).map (fun i => granByte s r (64 * ln + i))

/-- A line as the region's own key shows it. -/
def readLine (s : State) (r : Nat) (key : Option Nat) (ln : Nat) : List Byte :=
  let tag := tabGet? s.gran.lineKeys (lineKey r ln)
  if tag = key then storedLine s r ln
  else ((Config.xtsForeign tag key (lineKey r ln) (storedLine s r ln)) ++ List.replicate 64 0).take 64

/-- Read a range of a region. -/
def readBytes (s : State) (r o n : Nat) : List Byte :=
  let key := (region s r).bind (regionKey s r)
  (((rangeLines o n).flatMap (readLine s r key)).drop (o % 64)).take n

/-- Store one whole line under a key. -/
def putLine (r : Nat) (key : Option Nat) (ln : Nat) (bs : List Byte) (g : GranState) : GranState :=
  { g with
    mem := (bs.zipIdx).foldl (fun m x => tabSet (fun _ => 0) m (memKey r (64 * ln + x.2)) x.1) g.mem,
    lineKeys := match key with
      | some k => tabPut g.lineKeys (lineKey r ln) k
      | none => tabDel g.lineKeys (lineKey r ln) }

/-- A line with some of its bytes replaced by those of a range that begins at o. -/
def patchLine (old : List Byte) (ln o : Nat) (bs : List Byte) : List Byte :=
  (old.zipIdx).map (fun x => if o ≤ 64 * ln + x.2 then (bs[64 * ln + x.2 - o]?).getD x.1 else x.1)

/-- A range covers a line whole. -/
def coversLine (o n ln : Nat) : Bool := decide (o ≤ 64 * ln) && decide (64 * ln + 64 ≤ o + n)

/-- Write a range of a region, line by line; a line written whole is poisoned no longer (R361, R362, R373). -/
def writeBytes (r o : Nat) (bs : List Byte) (s : State) : State :=
  let key := (region s r).bind (regionKey s r)
  (rangeLines o bs.length).foldl (fun s ln =>
    let line := patchLine (readLine s r key ln) ln o bs
    modGran (fun g => { putLine r key ln line g with
      poisoned := if coversLine o bs.length ln then g.poisoned.filter (· != lineKey r ln) else g.poisoned }) s) s

/-- The bytes that a write charges: 128 for a line written in part (R361). -/
def writeCost (o n : Nat) : Nat := ((rangeLines o n).map (fun ln => if coversLine o n ln then 64 else 128)).sum

/-- Zero a region: every byte, in clear. -/
def zeroRegion (r : Nat) (s : State) : State :=
  modGran (fun g => { g with
    mem := g.mem.filter (fun e => e.1 / 2 ^ 48 != r), lineKeys := g.lineKeys.filter (fun e => e.1 / 2 ^ 42 != r),
    poisoned := g.poisoned.filter (fun k => k / 2 ^ 42 != r), corrected := g.corrected.filter (fun e => e.1 / 2 ^ 42 != r) }) s

/-! ## Rights and state (R367, R371, R376) -/

/-- A region is named by a loaded grist program. -/
def regionLocked (s : State) (r : Nat) : Bool := s.gran.grists.any (fun x => x.2.entries.any (fun e => e.region == r))

/-- A line of a range lies on a lost stack. -/
def onLostStack (s : State) (x : Region) (o n : Nat) : Bool :=
  (rangeLines o n).any (fun ln => s.gran.lostStacks.contains (placeOf x (64 * ln)).1)

/-- A line of a range is poisoned. -/
def rangePoisoned (s : State) (r o n : Nat) : Bool := (rangeLines o n).any (fun ln => s.gran.poisoned.contains (lineKey r ln))

/-- The Granary is disabled by command, or its disabling is in progress (R371, R394). -/
def granaryOff (s : State) : Bool := s.start.cfg.granaryOff

/-! ## Line errors (R362, R363, Table 11.9) -/

/-- The mirrors of this home whose current generation lies in a region of this spine become DAMAGED. -/
def damageMirrors (r : Nat) (s : State) : State :=
  (s.gran.mirrors.filter (fun m => m.2.region == r && some m.2.sid == ownSid s && decide (m.2.phase < 2))).foldl (fun s m =>
    raiseOwner [] 0x0704 (m.1 / 2 ^ 32) [m.1 % 2 ^ 32]
      (modGran (fun g => { g with mirrors := tabPut g.mirrors m.1 { m.2 with phase := 2 } }) s)) s

/-- The extent of a line: region, stack, extent of that stack's part. -/
def extentOf (x : Region) (r ln : Nat) : Nat × Nat × Nat :=
  let (g, o) := placeOf x (64 * ln)
  (r, g, o / extentBytes)

/-- Retire the extent of a line, or tell that the stack has no spare left (R363). -/
def retireExtent (x : Region) (r ln : Nat) (s : State) : State :=
  let e := extentOf x r ln
  if s.gran.retiring.contains e then s
  else if (s.gran.retiring.filter (fun y => y.2.1 == e.2.1)).length < tabGet sparesReset s.gran.spares e.2.1 then
    modGran (fun g => { g with retiring := g.retiring ++ [e] }) s
  else raise15 0x0705 [e.2.1] s

/-- 24 hours in ns. -/
def dayNs : Nat := 86400000000000

/-- A correctable error: corrected and counted; the second of a line within 24 hours retires its extent. -/
def correctLine (x : Region) (r ln : Nat) (s : State) : State :=
  let k := lineKey r ln
  let again := match tabGet? s.gran.corrected k with
    | some t => decide (nowRef s ≤ t + dayNs)
    | none => false
  let s1 := countStack (placeOf x (64 * ln)).1 2 1 (modGran (fun g => { g with corrected := tabPut g.corrected k (nowRef s) }) s)
  if again then retireExtent x r ln s1 else s1

/-- An uncorrectable error: the line is poisoned, counted and told. -/
def poisonLine (x : Region) (r ln : Nat) (s : State) : State :=
  let s1 := countStack (placeOf x (64 * ln)).1 3 1
    (modGran (fun g => { g with poisoned := distinct (lineKey r ln :: g.poisoned) }) s)
  damageMirrors r (raiseOwner [15] 0x0701 x.pid [r, 64 * ln / 2 ^ 32, 64 * ln % 2 ^ 32] s1)

/-- The errors that the reading of a range met. -/
def meetErrors (r o n : Nat) (errs : List LineError) (s : State) : State :=
  match region s r with
  | none => s
  | some x =>
    (errs.filter (fun e => (rangeLines o n).contains e.line)).foldl (fun s e =>
      if e.fatal then poisonLine x r e.line s else correctLine x r e.line s) s

/-- Every region with an extent on a lost stack becomes DAMAGED, and the mirrors there (R365, Table 11.9). -/
def loseStack (g : Nat) (s : State) : State :=
  let s1 := modGran (fun x => { x with lostStacks := distinct (g :: x.lostStacks) }) s
  (s1.gran.regions.filter (fun e => testBitN e.2.stackSet g && decide (e.1 < 0xFFF0))).foldl (fun s e =>
    damageMirrors e.1 (modRegion e.1 (fun x => { x with phase := .damaged }) s)) s1

/-! ## Room (R366, R412, R413) -/

/-- Extents of a stack that a region may take: all but spares, the firmware and the crumb region, and the regions. -/
def freeExtents (s : State) (g : Nat) : Nat :=
  65536 - 256 - ((s.gran.regions.filter (fun e => testBitN e.2.stackSet g)).map (fun e =>
    e.2.extents / Nat.max 1 (maskBits 16 e.2.stackSet).length)).sum

def policy (s : State) (pid : Nat) : Policy := tabGet policyReset s.winnow.policies pid

/-- A stack holds an extent of another partition's region whose owner's ISOLATE is as given; `any` takes every owner. -/
def holdsOther (s : State) (g pid : Nat) (any : Bool) : Bool :=
  s.gran.regions.any (fun e => testBitN e.2.stackSet g && e.2.pid != pid && e.2.kind != .crumb && e.2.kind != .firmware &&
    (any || (policy s e.2.pid).isolate))

/-- The stacks eligible for a region of a partition (R412). -/
def eligibleStacks (s : State) (pid : Nat) : List Nat :=
  (maskBits 16 (policy s pid).stackMask).filter (fun g =>
    !s.gran.lostStacks.contains g && !holdsOther s g pid (policy s pid).isolate)

/-- Put a stack in order of free extents, the lower number first on a tie. -/
def insertStack (s : State) (g : Nat) : List Nat → List Nat
  | [] => [g]
  | x :: xs => if freeExtents s x < freeExtents s g then g :: x :: xs else x :: insertStack s g xs

/-- The mask of a list of bits. -/
def maskOf (l : List Nat) : Nat := (l.map (2 ^ ·)).sum

/-- Winnow's choice of stacks (R413). -/
def chooseStacks (s : State) (pid extents : Nat) : Option Nat :=
  let el := eligibleStacks s pid
  let sorted := el.foldl (fun l g => insertStack s g l) []
  ([16, 8, 4, 2, 1].find? (fun n => decide (extents % n = 0) &&
    decide (n ≤ (el.filter (fun g => decide (extents / n ≤ freeExtents s g))).length))).map (fun n => maskOf (sorted.take n))

/-- Enter a region: its extents are zeroed before its first access (R368). -/
def addRegion (r : Nat) (x : Region) (s : State) : State := modGran (fun g => { g with regions := tabPut g.regions r x }) s

/-- The lowest region ID without a region among so many from one on. -/
def freeIdFrom (s : State) (lo : Nat) : Nat → Option Nat
  | 0 => none
  | n + 1 => if (region s lo).isNone then some lo else freeIdFrom s (lo + 1) n

/-- The lowest free identifier of a range (Table 11.2). -/
def freeRegionId (s : State) (lo hi : Nat) : Option Nat := freeIdFrom s lo (hi + 1 - lo)

/-- Free a region: its extents come back once they are zeroed (R368). -/
def freeRegion (r : Nat) (s : State) : State := modRegion r (fun x => { x with phase := .freeing }) s

end Sys2Proof.Machine
end

