-- ==== Sys2Proof/Machine/WinnowOps.lean ====
section
/-! DEFINITION. Winnow's records and measures: the decision log and its events, freshness, diversity, the outage of the
Mill island (chapter 12). -/

namespace Sys2Proof.Machine

def modWinnow (f : WinnowState → WinnowState) (s : State) : State := { s with winnow := f s.winnow }

/-- A counter of the Mill island's block 2. -/
def countWinnow (item : Nat) (s : State) : State := count (counterId 0x38 2 item) 1 s

/-- Write a decision record; a full log loses its oldest (R421). -/
def writeDecision (dtype pid : Nat) (subject result detail : Word) (reason : Nat) (s : State) : State :=
  let d : Decision := {
    dtype := dtype, pid := pid, seq := s.winnow.nextSeq, time := now32 s, subject := subject, result := result,
    detail := detail, reason := reason }
  let full := decide (65536 ≤ s.winnow.log.length)
  let s1 := modWinnow (fun w => { w with
    log := (if full then w.log.drop 1 else w.log) ++ [d], nextSeq := (w.nextSeq + 1) % 2 ^ 32 }) s
  if full then countWinnow 0 s1 else s1

/-- SEQ of the record written last. -/
def lastDecision (s : State) : Nat := (s.winnow.nextSeq + 2 ^ 32 - 1) % 2 ^ 32

/-- No choice lies within the limits: a NO_CHOICE record, and its event at MB31 and, for a mirror or a recipe, at the
partition's owner (R400, R422). -/
def noChoice (pid : Nat) (subject : Word) (reason : Nat) (toOwner : Bool) (s : State) : State :=
  let s1 := countWinnow 1 (writeDecision 7 pid subject 0 0 reason s)
  if toOwner then raiseOwner [31] 0x0801 pid [7, lastDecision s1] s1 else raise31 0x0801 [7, lastDecision s1] s1

/-- Winnow makes no decision while the Mill island is in reset or its PLL is unlocked (R423). -/
def winnowDown (s : State) : Bool := (island s 0x38).dataReset || !(island s 0x38).pllLock

/-- A summary is fresh for 30 ms (R418). -/
def freshSummary (s : State) (sid : Nat) : Option Summary :=
  match tabGet? s.winnow.summaries sid with
  | some x => if nowRef s ≤ x.arrival + 30000000 then some x else none
  | none => none

/-- Two tag sets are diverse in every type that a mask names: tray, power shelf, cooling loop, switch from bit 3 down
(R398). -/
def diverse (mask : Nat) (a b : TagSet) : Bool :=
  let ok (x y : Nat) : Bool := x != 0 && y != 0 && x != y
  (!testBitN mask 3 || ok a.tray b.tray) && (!testBitN mask 2 || ok a.powerShelf b.powerShelf) &&
    (!testBitN mask 1 || ok a.coolingLoop b.coolingLoop) && (!testBitN mask 0 || ok a.switch b.switch)

/-- The installed tag set of a spine and of an endpoint (R397). -/
def spineTags (s : State) (sid : Nat) : TagSet := tabGet tagsReset s.winnow.tags sid
def endpointTags (s : State) (ea : Nat) : TagSet := tabGet tagsReset s.winnow.tags (2 ^ 20 + ea)

/-- Choose and record the stacks of a new region; none, with its record, when none qualifies (R413, R421). -/
def placeRegion (r pid extents : Nat) (s : State) : Option Nat × State :=
  match chooseStacks s pid extents with
  | some m => (some m, writeDecision 3 pid (wordOf [at_ 31 16 r]) (wordOf [at_ 15 0 m]) 0 0 s)
  | none => (none, noChoice pid (wordOf [at_ 31 16 r]) 2 false s)

/-- Spines that share a collective spine set with this one (R418). -/
def partners (s : State) : List Nat :=
  match ownSid s with
  | none => []
  | some me => (distinct ((s.winnow.policies.filter (fun p => p.2.spines.contains me)).flatMap (·.2.spines))).filter (· != me)

end Sys2Proof.Machine
end

