-- ==== Sys2Proof/Machine/DmaOps.lean ====
section
/-! DEFINITION. DMA channels: rings, descriptors in flight, completion in order, requests to endpoints, stopping
(11 R386 to R394). -/

namespace Sys2Proof.Machine

def channel (s : State) (c : Nat) : Channel := tabGet channelReset s.gran.channels c

def modChannel (c : Nat) (f : Channel → Channel) (s : State) : State :=
  modGran (fun g => { g with channels := tabMod channelReset f g.channels c }) s

/-- A counter of a channel: DESCRIPTORS, BYTES, TIMEOUTS, RESENDS, ERRORS, REPLY_DISCARDS. -/
def countChannel (c item n : Nat) (s : State) : State := count (counterId (0x40 + c / 2) 2 (16 * (c % 2) + item)) n s

/-- The activity that a channel's work is budgeted under; none for foreground (Table 11.10). -/
def channelActivity (c : Nat) : Option Nat :=
  if c < 3 then some 4 else if c = 3 then some 5 else if c < 8 then some 8 else if c < 24 then some 1 else none

/-- The activity may start an operation on the Granary. -/
def channelMay (s : State) (c : Nat) : Bool :=
  match channelActivity c with
  | some a => mayStart s a 0
  | none => true

def channelSpend (c n : Nat) (s : State) : State :=
  match channelActivity c with
  | some a => startWork a 0 n s
  | none => s

/-- Indices are free-running over 17 bits (R387). -/
def ringMod : Nat := 2 ^ 17

/-- Entries posted and not yet executed. -/
def ringLoad (ch : Channel) : Nat := (ch.cfg.producer + ringMod - ch.consumer) % ringMod

/-- Offset of ring entry i in the ring at a base offset. -/
def ringOffset (base log2 i : Nat) : Nat := base + 32 * (i % 2 ^ log2)

/-- The words of a descriptor or a grist entry. -/
def entryWords (bs : List Byte) : List Word := bytesWords (bs.take 32 ++ List.replicate (32 - bs.length) 0)

/-- A descriptor from its 32 bytes (Table 11.12). -/
def descriptorOf (bs : List Byte) : Descriptor :=
  let w := entryWords bs
  let x (i : Nat) : Word := w.getD i 0
  let op := fld (x 0) 23 16
  let n := (x 1).toNat
  { own := fld (x 0) 31 31 == 1, fence := fld (x 0) 30 30 == 1, c5 := fld (x 0) 29 29 == 1, op := op, length := n,
    source := (x 2).toNat * 2 ^ 32 + (x 3).toNat, target := (x 4).toNat * 2 ^ 32 + (x 5).toNat, ea := fld (x 6) 31 12,
    user := (x 7).toNat,
    reserved := fld (x 0) 28 24 != 0 || fld (x 0) 15 0 != 0 || fld (x 6) 11 0 != 0 || op == 0 || decide (5 < op) ||
      n == 0 || decide (2 ^ 30 < n) }

/-- A Granary reference: region and offset (R388). -/
def refRegion (r : Nat) : Nat := r / 2 ^ 48
def refOffset (r : Nat) : Nat := r % 2 ^ 48

/-- The descriptor reads, or writes, a range of the Granary. -/
def readsGranary (d : Descriptor) : Bool := d.op == 1 || d.op == 2 || d.op == 5
def writesGranary (d : Descriptor) : Bool := d.op == 1 || d.op == 3 || d.op == 4

/-- A reference within the channel's rights: its partition's region, the right of its direction, the range inside, and
for a write no loaded program's source (R389). -/
def refAllowed (s : State) (pid r n : Nat) (write : Bool) : Bool :=
  match region s (refRegion r) with
  | none => false
  | some x =>
    x.pid == pid && (if write then x.epWrite && !regionLocked s (refRegion r) else x.epRead) &&
      decide (refOffset r + n ≤ regionSize x)

/-- What a reference meets: NOT_READY, a lost stack, or nothing. -/
def refStatus (s : State) (r n : Nat) : Option Status :=
  match region s (refRegion r) with
  | none => some .denied
  | some x =>
    if x.phase = .zeroing || x.phase = .freeing || keyMissing s (refRegion r) x then some .notReady
    else if onLostStack s x (refOffset r) n then some .internal
    else none

/-- The status at which a descriptor ends before it starts, and whether the channel goes to ERROR. -/
def startStatus0 (s : State) (pid : Nat) (d : Descriptor) : Option (Status × Bool) :=
  if !d.own || d.reserved then some (.invalid, true)
  else if (readsGranary d && !refAllowed s pid d.source d.length false) ||
      (writesGranary d && !refAllowed s pid d.target d.length true) then some (.denied, true)
  else
    let a := if readsGranary d then refStatus s d.source d.length else none
    let b := if writesGranary d then refStatus s d.target d.length else none
    match a, b with
    | some x, _ => some (x, false)
    | none, some x => some (x, false)
    | none, none => none

/-- The size of a piece: 4 KiB bursts, 8,192-byte requests. -/
def pieceBytes (d : Descriptor) : Nat := if d.op = 2 ∨ d.op = 3 then 8192 else 4096

def pieceCount (d : Descriptor) : Nat := ceilDiv d.length (pieceBytes d)

/-- Offset and length of piece i. -/
def pieceAt (d : Descriptor) (i : Nat) : Nat × Nat :=
  (i * pieceBytes d, Nat.min (pieceBytes d) (d.length - i * pieceBytes d))

/-! ## Stopping (R394) -/

/-- The commands that wait for a channel's stop are answered. -/
def answerStops (c : Nat) (st : Status) (s : State) : State :=
  let os := (channel s c).stopping
  os.foldl (fun s o => finish o st [] s) (modChannel c (fun x => { x with stopping := [] }) s)

/-- The disabling of the Granary completes once no channel is stopping. -/
def settleDisable (s : State) : State :=
  match s.gran.disabling with
  | none => s
  | some (o, late) =>
    if s.gran.channels.any (fun e => e.2.phase == .stopping) then s
    else finish o (if late then .aborted else .ok) [] (modGran (fun g => { g with disabling := none }) s)

/-- A stopping channel with nothing in flight is STOPPED. -/
def settleStop (c : Nat) (s : State) : State :=
  if (channel s c).phase = .stopping && (channel s c).flight.isEmpty then
    settleDisable (answerStops c .ok (modChannel c (fun x => { x with phase := .stopped }) s))
  else s

/-! ## Completion (R389, R391) -/

/-- The completion record of a descriptor (Table 11.13). -/
def completionRecord (s : State) (ch : Channel) (f : InFlight) (st : Status) : List Word :=
  let crc := if st = .ok then (crc32c (f.pieces.flatMap (·.2))) else 0
  [wordOf [at_ 31 31 ((f.index / 2 ^ ch.cfg.ringLog2 + 1) % 2), at_ 23 16 (statusCode st)], w32 f.index, w32 f.desc.user, crc,
    w32 (now32 s), 0, 0, 0]

/-- Clear OWN of a descriptor in its ring. -/
def clearOwn (ch : Channel) (i : Nat) (s : State) : State :=
  let o := ringOffset ch.cfg.ringOffset ch.cfg.ringLog2 i
  let b := (readBytes s ch.cfg.ringRegion o 1).getD 0 0
  writeBytes ch.cfg.ringRegion o [b &&& 0x7F#8] s

/-- Write one descriptor's completion record, clear its OWN, count it, and raise the end-of-count event. -/
def writeCompletion (c : Nat) (f : InFlight) (st : Status) (s : State) : State :=
  let ch := channel s c
  let s1 := writeBytes ch.cfg.cplRegion (ringOffset ch.cfg.cplOffset ch.cfg.ringLog2 f.index)
    (wordsBytes (completionRecord s ch f st)) s
  let s2 := clearOwn ch f.index s1
  let s3 := countChannel c 0 1 s2
  let s4 := if st = .ok then countChannel c 1 f.desc.length s3
    else countChannel c 4 1 (if st = .timeout then countChannel c 2 1 s3 else s3)
  let n := ch.done + 1
  let s5 := modChannel c (fun x => { x with done := n }) s4
  if ch.cfg.count ≠ 0 ∧ n = ch.cfg.count then
    raiseOwner [] 0x0703 ch.cfg.pid [c, ch.cfg.count]
      (modChannel c (fun x => { x with phase := if x.phase = .running then .idle else x.phase, done := 0 }) s5)
  else s5

/-- Completion records in descriptor order: the front of the flight, as far as it has a status; at most n records. -/
def retireFlight : Nat → Nat → State → State
  | 0, c, s => settleStop c s
  | n + 1, c, s =>
    match (channel s c).flight with
    | [] => settleStop c s
    | f :: rest =>
      match f.status with
      | none => s
      | some st => retireFlight n c (writeCompletion c f st (modChannel c (fun x => { x with flight := rest }) s))

/-- Give a descriptor in flight its status, and write the records that can be written. -/
def completeDesc (c i : Nat) (st : Status) (s : State) : State :=
  let s1 := modChannel c (fun x => { x with
    flight := x.flight.map (fun f => if f.index = i && f.status.isNone then { f with status := some st } else f) }) s
  retireFlight ((channel s1 c).flight.length + 1) c s1

def modFlight (c i : Nat) (f : InFlight → InFlight) (s : State) : State :=
  modChannel c (fun x => { x with flight := x.flight.map (fun y => if y.index = i then f y else y) }) s

/-- Every descriptor in flight completes with a status, each with a record of its grace time when one ran out. -/
def failFlight (c : Nat) (st : Status) (grace : Bool) (s : State) : State :=
  let s1 := (channel s c).flight.foldl (fun s f =>
    if f.status.isNone && grace then graceCrumb 2 (c * 2 ^ 17 + f.index) (channel s c).cfg.pid s else s) s
  let s2 := modChannel c (fun x => { x with flight := x.flight.map (fun f => { f with status := some (f.status.getD st) }) }) s1
  retireFlight ((channel s2 c).flight.length + 1) c s2

/-- No new descriptor starts; the channel is STOPPED once nothing is in flight. -/
def stopChannel (c : Nat) (o : Option Origin) (s : State) : State :=
  settleStop c (modChannel c (fun x => { x with
    phase := .stopping, stopping := x.stopping ++ (match o with
      | some y => [y]
      | none => []) }) s)

/-- The grace time passes: descriptors in flight complete ABORTED, the channel is STOPPED, its commands end ABORTED. -/
def graceChannel (c : Nat) (s : State) : State :=
  if (channel s c).phase = .stopping then
    let s1 := modGran (fun g => { g with disabling := g.disabling.map (fun d => (d.1, true)) }) s
    let os := (channel s1 c).stopping
    let s2 := os.foldl (fun s o => finish o .aborted [] s) (modChannel c (fun x => { x with stopping := [] }) s1)
    failFlight c .aborted true s2
  else s

/-! ## Requests to endpoints (R390) -/

/-- The request packet of piece i. -/
def dmaRequest (s : State) (c : Nat) (pid : Nat) (d : Descriptor) (i : Nat) (retx : Bool) : Packet :=
  let (o, n) := pieceAt d i
  let push := decide (d.op = 2)
  let addr := if push then d.target + o else d.source + o
  let og : Origination := {
    kind := 0, cls := if d.c5 then 5 else 2, dest := d.ea, mcast := false, spineDst := false, pid := pid,
    epoch := (partition s pid).epoch, entropy := 0, first := true, last := true, nospray := false,
    ext := [wordOf [at_ 31 24 (if push then 1 else 2), at_ 23 19 c, at_ 18 0 i], w32 (addr / 2 ^ 32), w32 addr,
      w32 (if push then 0 else n)],
    payload := if push then readBytes s (refRegion d.source) (refOffset d.source + o) n else [] }
  let k := madePacket s og
  if retx then { k with w3 := setFld k.w3 10 10 1 } else k

/-- Send request i of a descriptor in flight, or end it TIMEOUT after eight sends. -/
def sendRequest (c i : Nat) (f : InFlight) (retx : Bool) (s : State) : State :=
  match f.requests.find? (fun r => r.number == i) with
  | none => s
  | some r =>
    if 8 ≤ r.sends then completeDesc c f.index .timeout s
    else
      let upd := f.requests.map (fun x => if x.number = i then { x with sends := x.sends + 1, refused := false } else x)
      let s1 := modFlight c f.index (fun y => { y with requests := upd }) s
      let s2 := if retx then countChannel c 3 1 s1 else s1
      originate computeSource (dmaRequest s2 c (channel s2 c).cfg.pid f.desc i retx) s2

/-- The request that a reply's number names: the oldest descriptor in flight that waits for it. -/
def requestOf (ch : Channel) (n : Nat) : Option (InFlight × DmaRequest) :=
  ch.flight.findSome? (fun f =>
    if f.status.isSome then none
    else (f.requests.find? (fun r => r.number % 2 ^ 19 == n && !r.answered)).map (fun r => (f, r)))

/-- A PUSH or PULL is whole: every reply OK, every Granary write acknowledged. -/
def settleRequests (c i : Nat) (s : State) : State :=
  match (channel s c).flight.find? (fun f => f.index == i) with
  | none => s
  | some f => if f.requests.all (·.answered) && f.unwritten.isEmpty then completeDesc c i .ok s else s

/-- The channels of a fenced partition stop with a grace time of 0 (R394). -/
def fenceChannels (pid : Nat) (s : State) : State :=
  (s.gran.channels.filter (fun e => e.2.cfg.pid == pid && (e.2.phase == .running || e.2.phase == .stopping))).foldl (fun s e =>
    graceChannel e.1 (stopChannel e.1 none s)) s

end Sys2Proof.Machine
end

