-- ==== Sys2Proof/Machine/Num.lean ====
section
/-! DEFINITION. The arithmetic of chapters 9 and 10: decoding every format exactly, exact sums and products, rounding,
encoding, MX blocks and conversion. -/

namespace Sys2Proof.Machine

/-! ## Formats (09 R307, Table 9.1) -/

/-- The format of a DTYPE code; none for a reserved code. -/
def formatOf (code : Nat) : Option Format :=
  match code with
  | 0x00 => some ⟨8, .raw, false⟩
  | 0x01 => some ⟨8, .int true, false⟩
  | 0x02 => some ⟨16, .int true, false⟩
  | 0x03 => some ⟨32, .int true, false⟩
  | 0x04 => some ⟨64, .int true, false⟩
  | 0x05 => some ⟨8, .int false, false⟩
  | 0x06 => some ⟨16, .int false, false⟩
  | 0x07 => some ⟨32, .int false, false⟩
  | 0x08 => some ⟨64, .int false, false⟩
  | 0x10 => some ⟨8, .float 4 3 7 1, false⟩
  | 0x11 => some ⟨8, .float 5 2 15 2, false⟩
  | 0x12 => some ⟨16, .float 5 10 15 2, false⟩
  | 0x13 => some ⟨16, .float 8 7 127 2, false⟩
  | 0x14 => some ⟨32, .float 8 23 127 2, false⟩
  | 0x15 => some ⟨64, .float 11 52 1023 2, false⟩
  | 0x20 => some ⟨8, .float 4 3 7 1, true⟩
  | 0x21 => some ⟨8, .float 5 2 15 2, true⟩
  | 0x22 => some ⟨6, .float 2 3 1 0, true⟩
  | 0x23 => some ⟨6, .float 3 2 3 0, true⟩
  | 0x24 => some ⟨4, .float 2 1 1 0, true⟩
  | 0x25 => some ⟨8, .mxint, true⟩
  | _ => none

/-- IEEE 754 binary32. -/
def fp32 : Format := ⟨32, .float 8 23 127 2, false⟩

def zeroVal : Val := .fin false 0 0

/-- A two's complement number of n bits. -/
def signedOf (n b : Nat) : Int := if 2 ^ (n - 1) ≤ b then (b : Int) - 2 ^ n else b

/-- A signed integer times a power of two as a value; zero is +0. -/
def valOfInt (i : Int) (e : Int) : Val := .fin (decide (i < 0)) i.natAbs e

/-- The value of one element's bits (R308), without its block's scale. -/
def decodeElem (f : Format) (b : Nat) : Val :=
  match f.kind with
  | .raw => .fin false b 0
  | .int s => if s then valOfInt (signedOf f.bits b) 0 else .fin false b 0
  | .mxint => valOfInt (signedOf 8 b) (-6)
  | .float eb mb bias top =>
    let neg := decide (2 ^ (eb + mb) ≤ b)
    let e := b / 2 ^ mb % 2 ^ eb
    let m := b % 2 ^ mb
    if top = 2 && e = 2 ^ eb - 1 then (if m = 0 then .inf neg else .nan)
    else if top = 1 && e = 2 ^ eb - 1 && m = 2 ^ mb - 1 then .nan
    else if e = 0 then .fin neg m (1 - (bias : Int) - mb)
    else .fin neg (2 ^ mb + m) ((e : Int) - bias - mb)

/-- A value scaled by the E8M0 byte of its block (R309). -/
def scaleVal (scale : Nat) (v : Val) : Val :=
  if scale = 0xFF then .nan
  else
    match v with
    | .fin n m e => .fin n m (e + scale - 127)
    | x => x

/-- The element bits at position i of packed bytes, most significant bit first (08 R276). -/
def elemBits (w : Nat) (bs : List Byte) (i : Nat) : Nat :=
  let lo := i * w / 8
  let hi := (i * w + w + 7) / 8
  bytesNat ((bs.drop lo).take (hi - lo)) / 2 ^ (8 * hi - (i * w + w)) % 2 ^ w

/-- Pack elements of a width into bytes, most significant bit first. -/
def packElems (w : Nat) (es : List Nat) : List Byte :=
  let g := if w = 6 then 4 else if w = 4 then 2 else 1
  let groups := ceilDiv es.length g
  (List.range groups).flatMap (fun j =>
    natBytes (g * w / 8) (((es.drop (j * g)).take g ++ List.replicate (g - ((es.drop (j * g)).take g).length) 0).foldl
      (fun a x => a * 2 ^ w + x % 2 ^ w) 0))

/-! ## Exact arithmetic -/

/-- Two signed magnitudes on a common exponent. -/
def alignInt (n : Bool) (m : Nat) (e base : Int) : Int :=
  let x : Int := (m * 2 ^ (e - base).toNat : Nat)
  if n then -x else x

/-- The exact sum of values, by the rules of IEEE 754 for specials; an exactly zero sum is −0 only when every term is −0,
or under rounding toward −∞ unless every term is +0 (R318, R321). -/
def sumVals (mode : Nat) (vs : List Val) : Val :=
  if vs.contains .nan || (vs.contains (.inf false) && vs.contains (.inf true)) then .nan
  else if vs.contains (.inf false) then .inf false
  else if vs.contains (.inf true) then .inf true
  else
    let base := vs.foldl (fun (b : Int) v => match v with
      | .fin _ _ e => if e < b then e else b
      | _ => b) 0
    let total := vs.foldl (fun (t : Int) v => match v with
      | .fin n m e => t + alignInt n m e base
      | _ => t) 0
    if total = 0 then
      let zero (neg : Bool) : Bool := vs.all (fun v => match v with
        | .fin n m _ => m == 0 && n == neg
        | _ => false)
      .fin (zero true || (mode == 2 && !zero false)) 0 0
    else valOfInt total base

/-- The exact product of two values (R323). -/
def mulVals (a b : Val) : Val :=
  match a, b with
  | .nan, _ => .nan
  | _, .nan => .nan
  | .inf n, .inf m => .inf (n != m)
  | .inf n, .fin m x _ => if x = 0 then .nan else .inf (n != m)
  | .fin n x _, .inf m => if x = 0 then .nan else .inf (n != m)
  | .fin n x e, .fin m y f => .fin (n != m) (x * y) (e + f)

/-- A numerator over a denominator: the magnitude mag × 2^e / d. -/
def fracOf (mag : Nat) (e : Int) (d : Nat) : Nat × Nat := (mag * 2 ^ e.toNat, d * 2 ^ (-e).toNat)

/-- ⌊log2 (n / d)⌋ for n, d above 0. -/
def flog2 (n d : Nat) : Int :=
  let k : Int := (Nat.log2 n : Int) - Nat.log2 d
  if n * 2 ^ (-k).toNat < d * 2 ^ k.toNat then k - 1 else k

/-! ## Rounding (R319, R322) -/

/-- n / d in units of 2^u as a whole number, rounded; `neg` is the sign, `draw` the draw of R322. -/
def roundUnits (mode draw : Nat) (neg : Bool) (n d : Nat) (u : Int) : Nat :=
  let a := n * 2 ^ (-u).toNat
  let b := d * 2 ^ u.toNat
  let q := a / b
  let r := a % b
  let up := match mode with
    | 0 => decide (b < 2 * r) || (decide (2 * r = b) && q % 2 == 1)
    | 1 => false
    | 2 => neg && decide (0 < r)
    | _ => decide (draw < r * 2 ^ 32 / b)
  if up then q + 1 else q

/-- The draw of R322. -/
def kneadDraw (gid seq elem : Nat) : Nat :=
  let x := (gid * 2 ^ 32 + seq) % 2 ^ 64
  let x := x ^^^ (elem * 0x9E3779B97F4A7C15 % 2 ^ 64)
  let x := ((x ^^^ (x / 2 ^ 30)) * 0xBF58476D1CE4E5B9) % 2 ^ 64
  let x := ((x ^^^ (x / 2 ^ 27)) * 0x94D049BB133111EB) % 2 ^ 64
  let x := x ^^^ (x / 2 ^ 31)
  x / 2 ^ 32

/-- Canonical NaN bits of a format (Table 9.1). -/
def nanBits (f : Format) : Nat :=
  match f.kind with
  | .float eb mb _ top => if top = 1 then 2 ^ (eb + mb) - 1 else (2 ^ eb - 1) * 2 ^ mb + 2 ^ (mb - 1)
  | _ => 0

/-- Sign bit, exponent and mantissa of q × 2^u in a float format; q × 2^u lies on the format's grid. -/
def floatBits (eb mb bias : Nat) (neg : Bool) (q : Nat) (u : Int) : Nat :=
  let s := if neg then 2 ^ (eb + mb) else 0
  if q < 2 ^ mb then s + q
  else
    let k := Nat.log2 q
    s + (u + k + bias).toNat * 2 ^ mb + (q / 2 ^ (k - mb) - 2 ^ mb)

/-- The largest finite magnitude of a float format as whole units of its top binade, and the exponent of those units. -/
def maxFinite (eb mb bias top : Nat) : Nat × Int :=
  let e : Int := if top = 2 then (2 ^ eb - 2 : Nat) - (bias : Int) else (2 ^ eb - 1 : Nat) - (bias : Int)
  (if top = 1 then 2 ^ (mb + 1) - 2 else 2 ^ (mb + 1) - 1, e - mb)

/-- n / d exceeds q × 2^u. -/
def exceeds (n d q : Nat) (u : Int) : Bool := decide (q * 2 ^ u.toNat * d < n * 2 ^ (-u).toNat)

/-- Exponent of the last place of a float format at the magnitude n / d. -/
def lastPlace (mb bias : Nat) (n d : Nat) : Int :=
  let k := flog2 n d
  let emin : Int := 1 - bias
  (if k < emin then emin else k) - mb

/-- How a finite magnitude beyond the largest finite value is delivered. -/
inductive OverflowRule where
  /-- Table 9.6, and IEEE 754 at the nodes of the ordered mode -/
  | table
  /-- the largest finite value (R330) -/
  | saturate
  deriving DecidableEq, Repr

/-- Encode a finite magnitude n / d with a sign in a float format: the bits, and whether the exact magnitude exceeds the
largest finite value (R320, R330). -/
def encodeFloat (eb mb bias top : Nat) (rule : OverflowRule) (mode draw : Nat) (neg : Bool) (n d : Nat) : Nat × Bool :=
  let s := if neg then 2 ^ (eb + mb) else 0
  if n = 0 then (s, false)
  else
    let u := lastPlace mb bias n d
    let q := roundUnits mode draw neg n d u
    let (mq, mu) := maxFinite eb mb bias top
    let above := exceeds n d mq mu
    let maxBits := floatBits eb mb bias neg mq mu
    let infBits := s + (2 ^ eb - 1) * 2 ^ mb
    if above then
      if rule = .saturate || top ≠ 2 then (maxBits, true)
      else if exceeds (q * 2 ^ u.toNat) (2 ^ (-u).toNat) mq mu then
        (if mode = 1 || (mode = 2 && !neg) then maxBits else infBits, true)
      else (maxBits, true)
    else (floatBits eb mb bias neg q u, false)

/-- Encode a value in a scalar format: the bits, and whether the result is counted as an overflow. -/
def encodeVal (f : Format) (rule : OverflowRule) (mode draw : Nat) (v : Val) : Nat × Bool :=
  match f.kind, v with
  | .float _ _ _ _, .nan => (nanBits f, false)
  | .float eb mb _ top, .inf n =>
    (if top = 2 then (if n then 2 ^ (eb + mb) else 0) + (2 ^ eb - 1) * 2 ^ mb else nanBits f, false)
  | .float eb mb bias top, .fin n m e =>
    let (a, b) := fracOf m e 1
    encodeFloat eb mb bias top rule mode draw n a b
  | _, .fin n m e =>
    let (a, b) := fracOf m e 1
    let q := roundUnits mode draw n a b 0
    (((if n then -(q : Int) else q) % (2 ^ f.bits : Nat)).toNat, false)
  | _, _ => (0, false)

/-- A value rounded to a float format and read back. -/
def roundVal (f : Format) (mode : Nat) (v : Val) : Val := decodeElem f (encodeVal f .table mode 0 v).1

/-- A value divided by a count, rounded once to a format (R318, R324). -/
def divEncode (f : Format) (mode draw : Nat) (v : Val) (l : Nat) : Nat × Bool :=
  match f.kind, v with
  | .float eb mb bias top, .fin n m e =>
    let (a, b) := fracOf m e l
    encodeFloat eb mb bias top .table mode draw n a b
  | .int _, .fin n m e =>
    let (a, b) := fracOf m e l
    let q := roundUnits mode draw n a b 0
    (((if n then -(q : Int) else q) % (2 ^ f.bits : Nat)).toNat, false)
  | _, x => encodeVal f .table mode draw x

/-! ## Comparison (R325, R326) -/

/-- A finite value as a signed number on an exponent, with −0 just below +0: twice the number, less one for −0. -/
def orderKey (base : Int) (n : Bool) (m : Nat) (e : Int) : Int :=
  if m = 0 then (if n then -1 else 0) else 2 * alignInt n m e base

/-- a orders below b; neither is a NaN. −0 orders below +0. -/
def valLess (a b : Val) : Bool :=
  match a, b with
  | .inf true, .inf true => false
  | .inf true, _ => true
  | _, .inf true => false
  | .inf false, _ => false
  | _, .inf false => true
  | .fin n x e, .fin m y f =>
    let base := if e < f then e else f
    decide (orderKey base n x e < orderKey base m y f)
  | _, _ => false

/-! ## MX blocks (R310) -/

/-- emax of an MX element format. -/
def mxEmax (f : Format) : Int :=
  match f.kind with
  | .float eb _ bias top => if top = 2 then (2 ^ eb - 2 : Nat) - (bias : Int) else (2 ^ eb - 1 : Nat) - (bias : Int)
  | _ => 0

/-- The larger of two fractions. -/
def fracMax (x y : Nat × Nat) : Nat × Nat := if x.1 * y.2 < y.1 * x.2 then y else x

/-- A result of a block before encoding: a NaN or an infinity, or a sign and a fraction. -/
inductive Exact where
  | special
  | num (neg : Bool) (n d : Nat)

/-- The exact value of a Val over a divisor. -/
def exactOf (v : Val) (l : Nat) : Exact :=
  match v with
  | .fin n m e => let (a, b) := fracOf m e l; .num n a b
  | _ => .special

/-- One element of an MX block: its bits and whether it was capped. -/
def mxElem (f : Format) (mode draw : Nat) (x : Int) (neg : Bool) (n d : Nat) : Nat × Bool :=
  let n' := n * 2 ^ (-x).toNat
  let d' := d * 2 ^ x.toNat
  match f.kind with
  | .float eb mb bias top =>
    if n = 0 then (if neg then 2 ^ (eb + mb) else 0, false)
    else
      let u := lastPlace mb bias n' d'
      let q := roundUnits mode draw neg n' d' u
      let (mq, mu) := maxFinite eb mb bias top
      if exceeds (q * 2 ^ u.toNat) (2 ^ (-u).toNat) mq mu then (floatBits eb mb bias neg mq mu, true)
      else (floatBits eb mb bias neg q u, false)
  | _ =>
    let q := roundUnits mode draw neg n' d' (-6)
    let lim := if neg then 128 else 127
    let c := Nat.min q lim
    (((if neg then -(c : Int) else c) % 256).toNat, decide (lim < q))

/-- A block of results with their draws: the element bits, the scale byte, and how many were capped. -/
def mxBlock (f : Format) (mode : Nat) (xs : List (Exact × Nat)) : List Nat × Nat × Nat :=
  let special := xs.any (fun x => match x.1 with
    | .special => true
    | _ => false)
  if special then (xs.map (fun _ => 0), 0xFF, 0)
  else
    let m := xs.foldl (fun a x => match x.1 with
      | .num _ n d => fracMax a (n, d)
      | _ => a) (0, 1)
    let x : Int := if m.1 = 0 then -127
      else
        let e := flog2 m.1 m.2 - mxEmax f
        if e < -127 then -127 else if 127 < e then 127 else e
    let es := xs.map (fun y => match y.1 with
      | .num neg n d => mxElem f mode y.2 x neg n d
      | .special => (0, false))
    (es.map (·.1), (x + 127).toNat, (es.filter (·.2)).length)

/-- Cut a list into pieces of n; the first argument bounds their number. -/
def chunksN {α : Type} : Nat → Nat → List α → List (List α)
  | 0, _, _ => []
  | _ + 1, _, [] => []
  | k + 1, n, l => l.take n :: chunksN k n (l.drop n)

def chunks {α : Type} (n : Nat) (l : List α) : List (List α) := chunksN l.length n l

/-! ## Vectors (08 R276) -/

/-- Elements of an MX vector with their padding. -/
def padded (f : Format) (n : Nat) : Nat := if f.mx then ceilDiv n 32 * 32 else n

/-- Bytes of n elements. -/
def vecBytes (f : Format) (n : Nat) : Nat :=
  if f.mx then padded f n * f.bits / 8 + padded f n / 32 else n * f.bits / 8

/-- The values of n elements laid out with the scales behind the packed elements. -/
def decodeVec (f : Format) (n : Nat) (bs : List Byte) : List Val :=
  (List.range n).map (fun i =>
    let v := decodeElem f (elemBits f.bits bs i)
    if f.mx then scaleVal (bs.getD (padded f n * f.bits / 8 + i / 32) 0).toNat v else v)

/-- Encode exact results of an MX format with their draws; the count of capped elements. -/
def encodeMx (f : Format) (mode : Nat) (xs : List (Exact × Nat)) : List Byte × Nat :=
  let blocks := (chunks 32 xs).map (mxBlock f mode)
  let elems := blocks.flatMap (fun b => b.1 ++ List.replicate (32 - b.1.length) 0)
  (packElems f.bits elems ++ blocks.map (fun b => BitVec.ofNat 8 b.2.1), (blocks.map (·.2.2)).sum)

/-! ## Conversion (R328 to R330) -/

/-- A delivery format is allowed for a source format (Table 9.7). -/
def convertible (src dst : Nat) : Bool :=
  src == dst || (
    if [0x20, 0x21, 0x22, 0x23, 0x24].contains src then [0x10, 0x11, 0x12, 0x13].contains dst
    else if src == 0x25 then [0x12, 0x13].contains dst
    else if [0x10, 0x11].contains src then [0x12, 0x13].contains dst
    else if src == 0x12 then [0x13, 0x10, 0x11].contains dst
    else if src == 0x13 then [0x12, 0x10, 0x11].contains dst
    else src == 0x14 && [0x12, 0x13].contains dst)

/-- Convert values to a scalar format: the bytes and the saturations counted. -/
def convertVals (dst : Format) (vs : List Val) : List Byte × Nat :=
  let es := vs.map (fun v => encodeVal dst .saturate 0 0 v)
  (packElems dst.bits (es.map (·.1)), (es.filter (·.2)).length)

/-! ## binary32 steps (10 R335, R347, R348) -/

/-- The value of binary32 bits. -/
def f32 (b : Nat) : Val := decodeElem fp32 b

/-- Round a value to binary32 bits, to nearest. -/
def toF32 (v : Val) : Nat := (encodeVal fp32 .table 0 0 v).1

def addF32 (a b : Nat) : Nat := toF32 (sumVals 0 [f32 a, f32 b])
def mulF32 (a b : Nat) : Nat := toF32 (mulVals (f32 a) (f32 b))
def negF32 (a : Nat) : Nat := a ^^^ 2 ^ 31

/-- Division rounded to nearest, by IEEE 754. -/
def divF32 (a b : Nat) : Nat :=
  match f32 a, f32 b with
  | .nan, _ => nanBits fp32
  | _, .nan => nanBits fp32
  | .inf _, .inf _ => nanBits fp32
  | .inf n, .fin m _ _ => toF32 (.inf (n != m))
  | .fin n _ _, .inf m => toF32 (.fin (n != m) 0 0)
  | .fin n x e, .fin m y f =>
    if y = 0 then (if x = 0 then nanBits fp32 else toF32 (.inf (n != m)))
    else
      let (p, q) := fracOf x (e - f) y
      (encodeFloat 8 23 127 2 .table 0 0 (n != m) p q).1

end Sys2Proof.Machine
end

