-- ==== Sys2Proof/Machine/GristOps.lean ====
section
/-! DEFINITION. Grist programs: entries, launch times, packets of a chunk, staging room, release and ends
(11 R375 to R380; 13 R444). -/

namespace Sys2Proof.Machine

def grist (s : State) (n : Nat) : Option Grist := tabGet? s.gran.grists n

def modGrist (n : Nat) (f : Grist → Grist) (s : State) : State :=
  match grist s n with
  | some g => modGran (fun x => { x with grists := tabPut x.grists n (f g) }) s
  | none => s

/-- An entry from its 32 bytes (Table 11.5). -/
def gristEntryOf (bs : List Byte) : GristEntry :=
  let w := entryWords bs
  let x (i : Nat) : Word := w.getD i 0
  { region := fld (x 0) 31 16, offset := fld (x 0) 15 0 * 2 ^ 32 + (x 1).toNat, length := (x 2).toNat,
    mcast := fld (x 3) 31 31 == 1, dest := fld (x 3) 19 0, launchS := (x 4).toNat, launchNs := (x 5).toNat,
    launchId := fld (x 6) 31 16, srcFmt := fld (x 6) 15 8, dlvFmt := fld (x 6) 7 0,
    reserved := fld (x 3) 30 20 != 0 || (x 7).toNat != 0 }

/-- The entry has a launch time (Table 11.5). -/
def timedEntry (e : GristEntry) : Bool := e.launchS != 0 || e.launchNs != 0

/-- The launch time of an entry as device time: its SECONDS taken nearest to the present. -/
def launchDev (s : State) (e : GristEntry) : Nat :=
  let now := devNs s.clk.dev / 1000000000
  let base := now - now % 2 ^ 32 + e.launchS
  let sec := if now + 2 ^ 31 < base then base - 2 ^ 32 else if base + 2 ^ 31 ≤ now then base + 2 ^ 32 else base
  (sec * 1000000000 + e.launchNs) * 65536

/-- Bytes of the smallest piece of a source format: an element, or a block with its scale (R375, R376). -/
def sourceUnit (f : Format) : Nat := if f.mx then 32 * f.bits / 8 + 1 else Nat.max 1 (f.bits / 8)

/-- The channel of a program slot, and the activity that its reads draw on (Table 11.10). -/
def gristChannel (n : Nat) : Nat := 8 + n % 16
def gristActivity (g : Grist) : Nat := if g.params.sow = 1 then 9 else 1

/-- A counter of the island of the slot's channel. -/
def countGrist (n item k : Nat) (s : State) : State := countStack (gristChannel n / 2) item k s

/-! ## The packets of a chunk (R377, R378) -/

/-- The values of an MX source stored block-interleaved. -/
def gristBlockVals (f : Format) (bs : List Byte) : List Val :=
  let n := sourceUnit f
  (chunks n bs).flatMap (fun b => (List.range 32).map (fun i =>
    scaleVal (b.getD (n - 1) 0).toNat (decodeElem f (elemBits f.bits b i))))

/-- The values of a source. -/
def gristVals (f : Format) (bs : List Byte) : List Val :=
  if f.mx then gristBlockVals f bs
  else (List.range (bs.length * 8 / f.bits)).map (fun i => decodeElem f (elemBits f.bits bs i))

/-- Whole blocks as a packet carries them: packed elements, then the scale bytes (08 R276). -/
def packetBlocks (f : Format) (bs : List Byte) : List Byte :=
  let bl := chunks (sourceUnit f) bs
  bl.flatMap (fun b => b.take (sourceUnit f - 1)) ++ bl.map (fun b => b.getD (sourceUnit f - 1) 0)

/-- The payloads of a chunk, and the saturations counted. -/
def chunkPayloads (src dst : Nat) (bs : List Byte) : List (List Byte) × Nat :=
  match formatOf src, formatOf dst with
  | some f, some g =>
    if src = dst then
      let n := 8192 / sourceUnit f * sourceUnit f
      ((chunks n bs).map (fun p => if f.mx then packetBlocks f p else p), 0)
    else
      let (out, sat) := convertVals g (gristVals f bs)
      let n := 8192 / sourceUnit g * sourceUnit g
      (chunks n out, sat)
  | _, _ => ([], 0)

/-- The packets of entry i of a program from the bytes read (R378). -/
def chunkPackets (s : State) (g : Grist) (i : Nat) (e : GristEntry) (payloads : List (List Byte)) : List Packet :=
  (payloads.zipIdx).map (fun p =>
    let og : Origination := {
      kind := 4, cls := g.params.cls, dest := e.dest, mcast := e.mcast, spineDst := false, pid := g.params.pid,
      epoch := g.params.epoch, entropy := g.params.entropy, first := decide (p.2 = 0),
      last := decide (p.2 + 1 = payloads.length), nospray := true,
      ext := [wordOf [at_ 31 16 e.launchId, at_ 15 15 (bit (timedEntry e))],
        w32 (if timedEntry e then t32Of (launchDev s e) else 0), w32 i, wordOf [at_ 31 24 e.dlvFmt]],
      payload := p.1 }
    madePacket s og)

/-- The source of a chunk's packets: the Knead port of its conversion group, or the compute port (R377). -/
def chunkSource (n : Nat) (e : GristEntry) : Nat := if e.srcFmt = e.dlvFmt then computeSource else kneadSource (n % 8)

/-- Free cells of an injection source's own pool (05 R174). -/
def poolRoom (s : State) (src : Nat) : Nat :=
  if src = controlSource then 8192 - s.buf.controlUsed
  else if src = computeSource then 32768 - s.buf.computeUsed
  else 8192 - tabGet zeroTab s.buf.kneadUsed (src - 8)

/-- The packets at the front of a list that fit in a number of cells: how many, and their cells. -/
def fitting : Nat → List Packet → Nat × Nat
  | _, [] => (0, 0)
  | room, k :: ks =>
    if cellsOf k ≤ room then
      let (n, c) := fitting (room - cellsOf k) ks
      (n + 1, c + cellsOf k)
    else (0, 0)

/-- Take cells of, or give them back to, an injection source's pool. -/
def usePool (src n : Nat) (give : Bool) (s : State) : State :=
  let f (x : Nat) : Nat := if give then x - n else x + n
  if src = computeSource then modBuf (fun b => { b with computeUsed := f b.computeUsed }) s
  else modBuf (fun b => { b with kneadUsed := tabMod zeroTab f b.kneadUsed (src - 8) }) s

/-- Discard the chunks of a program that are staged and not released. -/
def dropStaged (n : Nat) (s : State) : State :=
  match grist s n with
  | none => s
  | some g => modGrist n (fun x => { x with staged := [] }) (g.staged.foldl (fun s c => usePool c.source c.cells true s) s)

/-- A program ends ABORTED; staged, unreleased chunks are discarded (Table 11.7). -/
def abortGrist (n : Nat) (s : State) : State := modGrist n (fun g => { g with phase := .aborted }) (dropStaged n s)

/-! ## Release (R379; 13 R444, R438) -/

/-- Release a staged chunk: its packets go to their queues in order; the first one carries the launch record. -/
def releaseChunk (n : Nat) (g : Grist) (c : Chunk) (late stepped : Bool) (s : State) : State :=
  let e := g.entries.getD c.entry ⟨0, 0, 0, false, 0, 0, 0, 0, 0, 0, false⟩
  let due := if timedEntry e then some (launchDev s e) else none
  let l : Launch := {
    launchId := e.launchId, late := late, stepped := stepped, due := due, slot := n, pid := g.params.pid }
  let s1 := usePool c.source c.cells true s
  let s2 := modGrist n (fun x => { x with
    staged := x.staged.filter (fun y => y.entry != c.entry), lateCount := x.lateCount + bit late }) s1
  let s3 := if late then countGrist n 6 1 s2 else s2
  let delta : Int := match due with
    | some d => (devNs s.clk.dev : Int) - (devNs d : Int)
    | none => 0
  let s4 := traceCrumb 3 0xF104 g.params.pid e.launchId (wInt delta).toNat s3
  (c.packets.zipIdx).foldl (fun s p =>
    originateAt c.source (sourceSlice s c.source) p.1 (if p.2 = 0 then some l else none) s) s4

/-- A step of device time releases every held chunk at once (13 R438). -/
def releaseHeld (s : State) : State :=
  s.gran.grists.foldl (fun s x =>
    x.2.staged.foldl (fun s c => releaseChunk x.1 x.2 c (decide (c.inPool < c.packets.length)) true s) s) s

/-- Programs of a fenced partition end ABORTED. -/
def fenceGrists (pid : Nat) (s : State) : State :=
  (s.gran.grists.filter (fun x => x.2.params.pid == pid && x.2.phase == .running)).foldl (fun s x => abortGrist x.1 s) s

end Sys2Proof.Machine
end

