-- ==== Sys2Proof/Machine/Grist.lean ====
section
/-! DEFINITION. The steps of grist programs (11 11.4) and the commands of group 0x08 (16 R527). -/

namespace Sys2Proof.Machine

/-! ## Steps -/

/-- A chunk may be read now: fewer than four are staged, and its launch time less LEAD has come (R377). -/
def mayStage (s : State) (g : Grist) (e : GristEntry) : Bool :=
  g.phase == .running && decide (g.staged.length < 4) && !granaryOff s && mayStart s (gristActivity g) 0 &&
    mayStart s (gristActivity g) 1 &&
    (!timedEntry e || decide (launchDev s e ≤ s.clk.dev + g.params.lead * 1000 * 65536))

/-- The next entry's chunk is read, converted, cut into packets and staged in the pool as far as it fits; a stack lost or a
poisoned line aborts the program, and a chunk whose time is due or that has none is released at once (R377, R378). -/
def stageChunk (slot : Nat) (g : Grist) (e : GristEntry) (errors : List LineError) (s : State) : State :=
  let s0 := meetErrors e.region e.offset e.length errors (startWork (gristActivity g) 0 e.length s)
  let lost := match region s0 e.region with
    | some x => onLostStack s0 x e.offset e.length
    | none => true
  if lost || rangePoisoned s0 e.region e.offset e.length then abortGrist slot (countGrist slot 7 1 s0)
  else
    let (pays, sat) := chunkPayloads e.srcFmt e.dlvFmt (readBytes s0 e.region e.offset e.length)
    let ks := chunkPackets s0 g g.next e pays
    let src := chunkSource slot e
    let (n, cells) := fitting (poolRoom s0 src) ks
    let c : Chunk := {
      entry := g.next, packets := ks, inPool := n, source := src, cells := cells }
    let s1 := if e.srcFmt = e.dlvFmt then s0
      else
        let s' := count (counterId (0x30 + slot % 8) 2 0) ((pays.map List.length).sum) s0
        if sat = 0 then s' else count (counterId (0x30 + slot % 8) 2 1) sat s'
    let s2 := usePool src cells false (startWork (gristActivity g) 1 ((ks.map cellsOf).sum)
      (modGrist slot (fun x => { x with next := x.next + 1, staged := x.staged ++ [c] }) s1))
    let passed := timedEntry e && decide (launchDev s2 e ≤ s2.clk.dev)
    if !timedEntry e || passed then releaseChunk slot g c passed false s2 else s2

/-- The next chunk is read, converted and written into its output pool (R377, R378, R380). A chunk without a launch time,
or whose launch time has passed, is released at once. -/
def execGristChunkStage (slot : Nat) (errors : List LineError) (s : State) : Host.Outcome State Fault Refusal :=
  onUnit (decide (slot < 64))
    (match grist s slot with
    | none => s
    | some g =>
      match g.entries[g.next]? with
      | none => s
      | some e =>
        if !mayStage s g e then s
        else stageChunk slot g e errors s)

/-- The launch time of the oldest staged chunk has come: it is released; one that is not fully staged is late (R379). -/
def execGristLaunch (slot : Nat) (s : State) : Host.Outcome State Fault Refusal :=
  onUnit (decide (slot < 64))
    (match grist s slot with
    | none => s
    | some g =>
      match g.staged with
      | [] => s
      | c :: _ =>
        match g.entries[c.entry]? with
        | none => s
        | some e =>
          if g.phase = .running ∧ launchDev s e ≤ s.clk.dev then
            releaseChunk slot g c (decide (c.inPool < c.packets.length)) false s
          else s)

/-- A packet of a program's last chunk is still on its way out. -/
def gristPending (s : State) (g : Grist) : Bool :=
  let mine (k : Packet) : Bool := pKind k == 4 && pPid k == g.params.pid && pSpineSrc k && pClass k == g.params.cls &&
    decide (k.w6.toNat < g.entries.length)
  s.buf.packets.any (fun p => p.2.inPort.isNone && mine p.2.pkt) || s.buf.waiting.any (fun w => w.2.any (fun x => mine x.1.pkt))

/-- The last chunk is released and every packet transmitted: DONE, and the owner is told (Table 11.7). -/
def execGristDone (slot : Nat) (s : State) : Host.Outcome State Fault Refusal :=
  onUnit (decide (slot < 64))
    (match grist s slot with
    | none => s
    | some g =>
      if g.phase = .running ∧ g.next = g.entries.length ∧ g.staged = [] ∧ gristPending s g = false then
        raiseOwner [] 0x0702 g.params.pid [slot] (modGrist slot (fun x => { x with phase := .done }) s)
      else s)

/-- The staleness timer runs out: ABORTED, with a crumb record; the reset of the slot is L1 (Table 11.7). -/
def execGristStalenessExpiry (slot : Nat) (s : State) : Host.Outcome State Fault Refusal :=
  onUnit (decide (slot < 64))
    (match grist s slot with
    | none => s
    | some g => if g.phase = .running then abortGrist slot (staleCrumb 1 slot g.params.pid s) else s)

/-! ## Commands -/

/-- The caller's PID reaches a slot's program. -/
def slotReach (o : Origin) (s : State) (g : Grist) : Bool := mayReach o g.params.pid s

/-- A partition's EPOCH test (16 R516). -/
def epochBad (s : State) (pid epoch : Nat) : Bool := (partition s pid).epoch != epoch || (partition s pid).fenced

/-- One entry passes the checks of R376 that concern it alone. -/
def entryGood (s : State) (pid : Nat) (e : GristEntry) : Bool :=
  match region s e.region, formatOf e.srcFmt, formatOf e.dlvFmt with
  | some x, some f, some _ =>
    x.pid == pid && x.phase == .ready && decide (e.offset + e.length ≤ regionSize x) && decide (1 ≤ e.length) &&
      decide (e.length ≤ 67108864) && decide (e.length % sourceUnit f = 0) && convertible e.srcFmt e.dlvFmt &&
      decide (e.launchNs < 1000000000) && !e.reserved &&
      (!e.mcast || (decide (e.dest < 65536) && (List.range 8).all (fun n =>
        match tabGet? (slice s n).groups e.dest with
        | some w => fld w.1 31 31 == 1 && fld w.2 31 20 == pid
        | none => false)))
  | _, _, _ => false

/-- Launch times never fall, entries that launch when ready exempt. -/
def timesRise : Option (Nat × Nat) → List GristEntry → Bool
  | _, [] => true
  | prev, e :: es =>
    if timedEntry e then
      (match prev with
      | some p => decide (p.1 < e.launchS) || (decide (p.1 = e.launchS) && decide (p.2 ≤ e.launchNs))
      | none => true) && timesRise (some (e.launchS, e.launchNs)) es
    else timesRise prev es

/-- The parameters of GRIST.LOAD are within their ranges (Table 11.6). -/
def gristParamsGood (slot : Nat) (p : GristParams) : Bool :=
  decide (slot < 64) && decide (p.pid < 0xFFF) && (p.cls == 4 || p.cls == 6) && decide (p.entropy ≤ 0x100) && decide (1 ≤ p.count) &&
    decide (p.count ≤ 65536) && decide (1 ≤ p.lead) && decide (p.lead ≤ 1000) && decide (p.sow ≤ 1) && decide (10 ≤ p.stale) &&
    decide (p.stale ≤ 60000000)

/-- GRIST.LOAD: every entry is read and checked, and the program is a copy (R376). ENTROPY 0x100 leaves the choice to
Ixaux, which takes the slot number (log 86). -/
def execGristLoad (o : Origin) (slot : Nat) (params : GristParams) (s : State) : Host.Outcome State Fault Refusal :=
  .next (runCommand o 0x0801 (fun s =>
    if !gristParamsGood slot params then failWith .invalid s
    else if (ownSid s).isNone || granaryOff s then failWith .notReady s
    else if !mayReach o params.pid s || (isTenant o && params.sow == 1) then failWith .denied s
    else if (grist s slot).isSome then failWith .conflict s
    else if epochBad s params.pid params.epoch then failWith .epoch s
    else
      match region s params.region with
      | none => failWith .invalid s
      | some x =>
        if x.pid ≠ params.pid ∨ x.phase ≠ .ready ∨ regionSize x < params.offset + 32 * params.count then failWith .invalid s
        else
          let es := (List.range params.count).map (fun i => gristEntryOf (readBytes s params.region (params.offset + 32 * i) 32))
          if !es.all (entryGood s params.pid) || !timesRise none es then failWith .invalid s
          else
            let p := if params.entropy = 0x100 then { params with entropy := slot } else params
            let g : Grist := {
              params := p, entries := es, phase := .loaded, next := 0, staged := [], lateCount := 0 }
            okWith (modGran (fun x => { x with grists := tabPut x.grists slot g }) s)) s)

/-- A slot's program, or the status that its lack or its owner gives. -/
def withGrist (o : Origin) (slot : Nat) (f : Grist → CmdOutcome) (s : State) : CmdOutcome :=
  if 64 ≤ slot then failWith .invalid s
  else if (ownSid s).isNone then failWith .notReady s
  else
    match grist s slot with
    | none => failWith .invalid s
    | some g => if slotReach o s g then f g else failWith .denied s

/-- GRIST.START (R377, 13 R445). -/
def execGristStart (o : Origin) (slot : Nat) (s : State) : Host.Outcome State Fault Refusal :=
  .next (runCommand o 0x0802 (fun s => withGrist o slot (fun g =>
    if g.phase = .running then failWith .conflict s
    else if (partition s g.params.pid).fenced then failWith .epoch s
    else if g.entries.any timedEntry && (s.time.phase == .unset || s.time.phase == .acquiring) then failWith .notReady s
    else okWith (modGrist slot (fun x => { x with phase := .running, next := 0, staged := [] }) s)) s) s)

/-- GRIST.STOP: no chunk begins release; staged, unreleased chunks are discarded (Table 11.7). The program is LOADED
again (log 86). -/
def execGristStop (o : Origin) (slot : Nat) (s : State) : Host.Outcome State Fault Refusal :=
  .next (runCommand o 0x0803 (fun s => withGrist o slot (fun g =>
    okWith (if g.phase = .running then modGrist slot (fun x => { x with phase := .loaded }) (dropStaged slot s) else s)) s) s)

/-- GRIST.UNLOAD (R376, Table 11.7). -/
def execGristUnload (o : Origin) (slot : Nat) (s : State) : Host.Outcome State Fault Refusal :=
  .next (runCommand o 0x0804 (fun s => withGrist o slot (fun g =>
    if g.phase = .running then failWith .conflict s
    else okWith (modGran (fun x => { x with grists := tabDel x.grists slot }) s)) s) s)

/-- The STATE code of a program (16 Table 16.8). -/
def gristPhaseCode : GristPhase → Nat
  | .loaded => 0 | .running => 1 | .done => 2 | .aborted => 3

/-- GRIST.STATUS. -/
def execGristStatus (o : Origin) (slot : Nat) (s : State) : Host.Outcome State Fault Refusal :=
  .next (runCommand o 0x0805 (fun s => withGrist o slot (fun g =>
    .done .ok [w32 (gristPhaseCode g.phase), w32 g.next, w32 g.lateCount] s) s) s)

end Sys2Proof.Machine
end

