-- ==== Sys2Proof/Machine/QuorumOps.lean ====
section
/-! DEFINITION. Proposals: staging, the words of a staged body, the end of a proposal (18 18.6; 16 R515). -/

namespace Sys2Proof.Machine

def modSec (f : SecState → SecState) (s : State) : State := { s with sec := f s.sec }

/-- A value of n 64-bit draws from the entropy source, the first draw the most significant (18 R569). -/
def drawWide : Nat → State → Nat × State
  | 0, s => (0, s)
  | n + 1, s =>
    let (k, s1) := drawFree s
    let (v, s2) := drawWide n s1
    (Config.entropy k % 2 ^ 64 * 2 ^ (64 * n) + v, s2)

/-- The nonces of 64 bytes. -/
def drawNonce (s : State) : Nat × State := drawWide 8 s

/-- A key of 32 bytes. -/
def drawKey (s : State) : Nat × State := drawWide 4 s

/-- W0 of a region record as a command gives it (11 Table 11.3). -/
def regionWord (r : RegionRec) : Word :=
  wordOf [at_ 30 28 r.kind, at_ 27 27 (bit r.encrypted), at_ 26 26 (bit r.epRead), at_ 25 25 (bit r.epWrite),
    at_ 24 24 (bit r.epPost), at_ 23 12 r.pid]

/-- A policy record with its spine words (12 Table 12.2). -/
def policyWords (pid : Nat) (p : Policy) : List Word :=
  [wordOf [at_ 31 20 pid, at_ 19 19 (bit p.isolate), at_ 18 15 p.diversity], wordOf [at_ 31 16 p.stackMask],
    w32 (p.kneadMask / 2 ^ 32), w32 p.kneadMask, wordOf [at_ 31 18 p.spines.length]] ++
    p.spines.map (fun x => wordOf [at_ 31 19 x])

/-- The words of a staged body, as its command carries them (16 R510). -/
def stagedWords : Staged → List Word
  | .tablePartition pid w0 ports => [w32 pid, w32 w0] ++ ports
  | .keyBind region slot target direction pid => [w32 (bit region), w32 slot, w32 target, w32 direction, w32 pid]
  | .debugUnlock scope duration => [w32 scope, w32 duration]
  | .fwUpdate length digest => w32 length :: natWords 16 digest
  | .granarySet region rec0 => [w32 region, regionWord rec0]
  | .winnowPolicy pid policy => policyWords pid policy

/-- The opcode of a staged body. -/
def stagedOpcode : Staged → Nat
  | .tablePartition _ _ _ => 0x0305
  | .keyBind _ _ _ _ _ => 0x0F03
  | .debugUnlock _ _ => 0x120B
  | .fwUpdate _ _ => 0x1203
  | .granarySet _ _ => 0x0703
  | .winnowPolicy _ _ => 0x0901

/-- The partition that a staged body concerns (Table 18.7 W2). -/
def stagedPid (s : State) : Staged → Nat
  | .tablePartition pid _ _ => pid
  | .keyBind _ _ _ _ pid => pid
  | .debugUnlock _ _ => 0
  | .fwUpdate _ _ => 0
  | .granarySet region _ => ((tabGet? s.gran.regions region).map (·.pid)).getD 0
  | .winnowPolicy pid _ => pid

/-- SHA-512 of a staged body. -/
def stagedDigest (b : Staged) : Nat := bytesNat (sha512 (wordsBytes (stagedWords b)))

/-- The proposals that wait for approval. -/
def pendingProposals (s : State) : List (Nat × Proposal) := s.sec.proposals.filter (fun p => p.2.state == .pending)

/-- The life of a proposal: 600 s (R584). -/
def proposalLife : Nat := 600000000000

/-- The next proposal of a protected command (R584). -/
def stageProposal (o : Origin) (b : Staged) (s : State) : State :=
  let (nonce, s1) := drawNonce s
  let p : Proposal := {
    opcode := stagedOpcode b, state := .pending, opApproved := false, pgApproved := false, origin := o,
    pid := stagedPid s b, finalStatus := 0, created := s.clk.dev, expiry := nowRef s + proposalLife, nonce := nonce,
    bodyDigest := stagedDigest b, bodyLen := 4 * (stagedWords b).length, staged := b }
  modSec (fun x => { x with proposals := tabPut x.proposals x.nextProposal p, nextProposal := x.nextProposal + 1 }) s1

/-- Stage a protected command: QUORUM_PENDING with PROPOSAL_ID, or BUSY at 64 pending ones (R584; 16 R515). -/
def propose (o : Origin) (b : Staged) (s : State) : CmdOutcome :=
  if 64 ≤ (pendingProposals s).length then failWith .busy s
  else .done .quorumPending [w32 s.sec.nextProposal] (stageProposal o b s)

/-- The event mailbox of the mailbox that issued a command (15 Table 15.4). -/
def issuerMailbox (o : Origin) (s : State) : Nat :=
  if o.mailbox < 16 then 15 else if o.mailbox < 32 then 31
  else (((mailbox s o.mailbox).pid).bind (ownerMailbox s)).getD 31

def proposalCode : ProposalState → Nat
  | .pending => 0 | .applied => 1 | .expired => 2 | .withdrawn => 3 | .rejected => 4 | .failed => 5

/-- A proposal ends: its state, its final status, one QUORUM_RESULT event at each distinct mailbox (R586). -/
def endProposal (id : Nat) (st : ProposalState) (final : Nat) (s : State) : State :=
  match tabGet? s.sec.proposals id with
  | none => s
  | some p =>
    raiseAt [issuerMailbox p.origin s, 15, 31] 0x0901 p.pid [id, proposalCode st, final]
      (modSec (fun x => { x with proposals := tabPut x.proposals id { p with state := st, finalStatus := final } }) s)

end Sys2Proof.Machine
end

