-- ==== Sys2Proof/Machine/Dma.lean ====
section
/-! DEFINITION. The steps of the DMA channels (11 11.7; 05 R161). -/

namespace Sys2Proof.Machine

/-- The descriptor at CONSUMER. -/
def nextDescriptor (s : State) (ch : Channel) : Descriptor :=
  descriptorOf (readBytes s ch.cfg.ringRegion (ringOffset ch.cfg.ringOffset ch.cfg.ringLog2 ch.consumer) 32)

/-- A channel may take a descriptor: running, enabled, one posted, fewer than four in flight, its FENCE satisfied, the
Granary enabled, and its activity within its allowance (R389, R257). -/
def mayTake (s : State) (c : Nat) : Bool :=
  let ch := channel s c
  ch.phase == .running && ch.cfg.enable && decide (0 < ringLoad ch) && decide (ch.flight.length < 4) &&
    (!(nextDescriptor s ch).fence || ch.flight.isEmpty) && !granaryOff s && channelMay s c

/-- The channel takes its next descriptor: one that cannot run completes at once, a PUSH or PULL sends its requests, any
other starts with its first burst (R387 to R389). -/
def takeDescriptor (channel : Nat) (ch : Channel) (d : Descriptor) (s : State) : State :=
  let f : InFlight := {
    index := ch.consumer, desc := d, pieces := [], unwritten := [], requests := [], status := none }
  let s1 := modChannel channel (fun x => { x with
    flight := x.flight ++ [f], consumer := (x.consumer + 1) % ringMod }) s
  match startStatus0 s ch.cfg.pid d with
  | some (st, err) =>
    completeDesc channel ch.consumer st
      (if err then modChannel channel (fun x => { x with phase := .error }) s1 else s1)
  | none =>
    let s2 := channelSpend channel (pieceAt d 0).2 s1
    if d.op = 2 ∨ d.op = 3 then
      let rs := (List.range (pieceCount d)).map (fun i => (⟨i, 0, false, false⟩ : DmaRequest))
      let s3 := modFlight channel ch.consumer (fun x => { x with requests := rs }) s2
      (List.range (pieceCount d)).foldl (fun s i =>
        match (Machine.channel s channel).flight.find? (fun x => x.index == ch.consumer) with
        | some x => sendRequest channel i x false s
        | none => s) s3
    else s2

/-- A channel takes the descriptor at CONSUMER and starts it, or goes to ERROR (R389). The requests of a PUSH or PULL are
sent; the bursts of the others follow one by one. -/
def execDmaDescriptorStart (channel : Nat) (s : State) : Host.Outcome State Fault Refusal :=
  let ch := Machine.channel s channel
  let d := nextDescriptor s ch
  onUnit (decide (channel < 32))
    (if mayTake s channel then takeDescriptor channel ch d s else s)

/-- The bytes of burst i of a COPY, ZERO or CHECK. -/
def burstBytes (s : State) (d : Descriptor) (i : Nat) : List Byte :=
  let (o, n) := pieceAt d i
  if d.op = 4 then List.replicate n 0 else readBytes s (refRegion d.source) (refOffset d.source + o) n

/-- The next burst of a COPY, ZERO or CHECK is read, written and acknowledged (R389); a CHECK has only the reading. -/
def nextBurst (c : Nat) (f : InFlight) (errs : List LineError) (s : State) : State :=
  let i := f.pieces.length
  let (o, n) := pieceAt f.desc i
  let s0 := if readsGranary f.desc then meetErrors (refRegion f.desc.source) (refOffset f.desc.source + o) n errs s else s
  if readsGranary f.desc && rangePoisoned s0 (refRegion f.desc.source) (refOffset f.desc.source + o) n then
    completeDesc c f.index .internal s0
  else
    let bs := burstBytes s0 f.desc i
    let s1 := if writesGranary f.desc then writeBytes (refRegion f.desc.target) (refOffset f.desc.target + o) bs s0 else s0
    let s2 := channelSpend c n (modFlight c f.index (fun x => { x with pieces := x.pieces ++ [(i, bs)] }) s1)
    if i + 1 = pieceCount f.desc then completeDesc c f.index .ok s2 else s2

/-- A write response of a descriptor arrives; with the last one its completion record is written in order. -/
def execDmaWriteResponse (channel index : Nat) (errors : List LineError) (s : State) : Host.Outcome State Fault Refusal :=
  onUnit (decide (channel < 32))
    (match (Machine.channel s channel).flight.find? (fun f => f.index == index && f.status.isNone) with
    | none => s
    | some f =>
      if f.desc.op = 3 then
        match f.unwritten with
        | [] => s
        | i :: rest =>
          let bs := (tabGet? f.pieces i).getD []
          settleRequests channel index (channelSpend channel bs.length
            (modFlight channel index (fun x => { x with unwritten := rest })
              (writeBytes (refRegion f.desc.target) (refOffset f.desc.target + (pieceAt f.desc i).1) bs s)))
      else if f.desc.op = 2 then s
      else if channelMay s channel then nextBurst channel f errors s
      else s)

/-- Change one request of a descriptor in flight. -/
def markRequest (c : Nat) (f : InFlight) (r : DmaRequest) (g : DmaRequest → DmaRequest) (s : State) : State :=
  modFlight c f.index (fun y => { y with
    requests := y.requests.map (fun x => if x.number = r.number then g x else x) }) s

/-- An OK reply: the request is answered; a PULL's bytes wait for their write, a PUSH's count for the digest (R390). -/
def takeReply (c : Nat) (f : InFlight) (r : DmaRequest) (k : Packet) (s : State) : State :=
  let bs := if f.desc.op = 3 then k.payload.take (pieceAt f.desc r.number).2 else readBytes s (refRegion f.desc.source)
    (refOffset f.desc.source + (pieceAt f.desc r.number).1) (pieceAt f.desc r.number).2
  modFlight c f.index (fun y => { y with
    pieces := tabPut y.pieces r.number bs,
    unwritten := if f.desc.op = 3 then y.unwritten ++ [r.number] else y.unwritten })
    (markRequest c f r (fun x => { x with answered := true }) s)

/-- A reply addressed to this spine reaches the channel in its TAG, or is discarded (R161, R390). -/
def execReplyRx (s : State) : Host.Outcome State Fault Refusal :=
  .next (match takeDelivered 5 s with
  | none => s
  | some (dl, s1) =>
    let k := dl.pkt
    let c := xTag k / 2 ^ 19
    match requestOf (channel s1 c) (xTag k % 2 ^ 19) with
    | none => countChannel c 5 1 s1
    | some (f, r) =>
      match xReplyStatus k with
      | 0 => settleRequests c f.index (takeReply c f r k s1)
      | 1 => completeDesc c f.index .denied s1
      | 2 => completeDesc c f.index .unsupported s1
      | 3 => markRequest c f r (fun x => { x with refused := true }) s1
      | 4 => completeDesc c f.index .invalid s1
      | _ => s1)

/-- Act on an unanswered request of a descriptor. -/
def onRequest (c index number : Nat) (refused : Bool) (s : State) : State :=
  match (channel s c).flight.find? (fun f => f.index == index && f.status.isNone) with
  | none => s
  | some f =>
    if f.requests.any (fun r => r.number == number && !r.answered && r.refused == refused && decide (0 < r.sends)) then
      sendRequest c number f true s
    else s

/-- A request has had no reply for 100 µs: it is sent again with RETX, or after eight sends the descriptor ends
TIMEOUT. -/
def execDmaRequestTimeout (channel index number : Nat) (s : State) : Host.Outcome State Fault Refusal :=
  onUnit (decide (channel < 32)) (onRequest channel index number false s)

/-- 10 µs after a NO_BUFFER reply the request is retried. -/
def execDmaNoBufferRetry (channel index number : Nat) (s : State) : Host.Outcome State Fault Refusal :=
  onUnit (decide (channel < 32)) (onRequest channel index number true s)

/-- A descriptor's staleness timer runs out: TIMEOUT, ERROR, a crumb record; the reset of the channel is L1 (R393). -/
def execDmaDescriptorStaleness (channel index : Nat) (s : State) : Host.Outcome State Fault Refusal :=
  let ch := Machine.channel s channel
  onUnit (decide (channel < 32))
    (if ch.flight.any (fun f => f.index == index && f.status.isNone) then
      completeDesc channel index .timeout (modChannel channel (fun x => { x with
        phase := if x.phase = .running then .error else x.phase }) (staleCrumb 2 (channel * 2 ^ 17 + index) ch.cfg.pid s))
    else s)

/-- The grace time of a stop passes (R394). -/
def execDmaGraceExpiry (channel : Nat) (s : State) : Host.Outcome State Fault Refusal :=
  onUnit (decide (channel < 32)) (graceChannel channel s)

end Sys2Proof.Machine
end

