-- ==== Sys2Proof/Machine/Granary.lean ====
section
/-! DEFINITION. The steps of the Granary: endpoint access, zeroing, scrub, retirement, mirror read-back (11 11.1 to
11.5). -/

namespace Sys2Proof.Machine

/-! ## Endpoint access (R371, R372, R392) -/

/-- GOP codes (04 Table 4.10). -/
def gopWrite : Nat := 1
def gopPost : Nat := 3

/-- The response to a request (R372). -/
def granResponse (s : State) (k : Packet) (st : Status) (data : List Byte) : Packet :=
  let og : Origination := {
    kind := 8, cls := if pClass k = 2 then 3 else 5, dest := pSrc k, mcast := false, spineDst := pSpineSrc k, pid := pPid k,
    epoch := (partition s (pPid k)).epoch, entropy := pEntropy k, first := true, last := true, nospray := false,
    ext := [wordOf [at_ 31 24 (xGop k + 0x80), at_ 23 0 (xTag k)], k.w5, k.w6, wordOf [at_ 31 24 (statusCode st)]],
    payload := data }
  madePacket s og

def respond (k : Packet) (st : Status) (data : List Byte) (s : State) : State :=
  originate computeSource (granResponse s k st data) s

/-- The bytes that a request touches. -/
def accessLength (k : Packet) : Nat := if xGop k = gopRead then xReadLen k else pLength k

/-- The descriptors of a POST. -/
def postDescs (k : Packet) : List (List Byte) := chunks 32 k.payload

/-- The channel that a POST names. -/
def postChannel (k : Packet) : Nat := k.w6.toNat

/-- The checks of a POST, in the order of R392. -/
def postStatus (s : State) (k : Packet) : Status :=
  let c := postChannel k
  let ch := channel s c
  let n := pLength k / 32
  if c < 24 ∨ 31 < c ∨ ch.cfg.pid ≠ pPid k then .denied
  else if xRegion k ≠ ch.cfg.ringRegion ∨ pLength k % 32 ≠ 0 ∨ n = 0 ∨ 256 < n ∨
      (postDescs k).any (fun d => !(descriptorOf d).own) then .invalid
  else if 2 ^ ch.cfg.ringLog2 < ringLoad ch + n then .busy
  else .ok

/-- The right that a request needs. -/
def accessRight (x : Region) (k : Packet) : Bool :=
  if xGop k = gopRead then x.epRead else if xGop k = gopWrite then x.epWrite else x.epPost

/-- The checks of Table 11.4, in order. -/
def accessStatus (s : State) (k : Packet) : Status :=
  match region s (xRegion k) with
  | none => .invalid
  | some x =>
    let n := accessLength k
    let shape := if xGop k = gopWrite then (if n = 0 then Status.invalid else .ok)
      else if xGop k = gopRead then (if pLength k ≠ 0 ∨ n = 0 ∨ 8192 < n then .invalid else .ok)
      else postStatus s k
    if x.pid ≠ pPid k ∨ accessRight x k = false then .denied
    else if shape ≠ .ok then shape
    else if xGop k ≠ gopPost ∧ regionSize x < xOffset k + n then .invalid
    else if x.phase = .zeroing ∨ x.phase = .freeing ∨ keyMissing s (xRegion k) x = true then .notReady
    else if xGop k = gopWrite ∧ regionLocked s (xRegion k) = true then .conflict
    else if granaryOff s then .aborted
    else if xGop k ≠ gopPost ∧ onLostStack s x (xOffset k) n = true then .internal
    else if xGop k = gopRead ∧ rangePoisoned s (xRegion k) (xOffset k) n = true then .internal
    else .ok

/-- A WRITE to a MIRROR region: a mirror write (R374). -/
def mirrorWrite (s : State) (k : Packet) : Bool :=
  xGop k == gopWrite && (match region s (xRegion k) with
    | some x => x.kind == .mirror
    | none => false)

/-- Write the descriptors of a POST at PRODUCER, which then advances in one step (R392). -/
def postAll (k : Packet) (s : State) : State :=
  let c := postChannel k
  let ch := channel s c
  let s1 := ((postDescs k).zipIdx).foldl (fun s d =>
    writeBytes ch.cfg.ringRegion (ringOffset ch.cfg.ringOffset ch.cfg.ringLog2 (ch.cfg.producer + d.2)) d.1 s) s
  modChannel c (fun x => { x with cfg := { x.cfg with producer := (x.cfg.producer + (postDescs k).length) % ringMod } }) s1

/-- A request at the Granary: checked, and carried out when it passes. Its response follows when its lines are
acknowledged or read; a refused request and a POST are answered at once. -/
def serveAccess (k : Packet) (s : State) : State :=
  let st := accessStatus s k
  if st ≠ .ok then respond k st [] s
  else if xGop k = gopWrite then
    let s1 := writeBytes (xRegion k) (xOffset k) k.payload s
    let s2 := match region s (xRegion k) with
      | some x => countRange 1 x (xOffset k) (pLength k) s1
      | none => s1
    let s3 := if mirrorWrite s k then startWork 0 0 (writeCost (xOffset k) (pLength k)) s2 else s2
    modGran (fun g => { g with writes := g.writes ++ [⟨k, []⟩] }) s3
  else if xGop k = gopRead then
    let s1 := match region s (xRegion k) with
      | some x => countRange 0 x (xOffset k) (xReadLen k) s
      | none => s
    modGran (fun g => { g with reads := g.reads ++ [⟨k, readBytes s (xRegion k) (xOffset k) (xReadLen k)⟩] }) s1
  else respond k .ok [] (postAll k s)

/-- The first request that may go: one behind a mirror write of its own class that waits for the mirror-write allowance
waits too (R374). -/
def nextAccess (s : State) : List Nat → List Delivered → Option Nat
  | _, [] => none
  | held, d :: ds =>
    let c := pClass d.pkt
    if held.contains c then (nextAccess s held ds).map (· + 1)
    else if mirrorWrite s d.pkt && accessStatus s d.pkt == .ok && !mayStart s 0 0 then (nextAccess s (c :: held) ds).map (· + 1)
    else some 0

/-- A Granary access request is checked and carried out (R371 to R374). -/
def execGranaryAccessRx (s : State) : Host.Outcome State Fault Refusal :=
  let q := consumerQueue s 4
  .next (match nextAccess s [] q with
  | none => s
  | some i =>
    match q[i]? with
    | none => s
    | some d =>
      let s1 := releaseDelivered d (modBuf (fun b => { b with consumers := tabSet (fun _ => []) b.consumers 4 (q.eraseIdx i) }) s)
      if 0x80 ≤ xGop d.pkt then s1 else serveAccess d.pkt (filterGranary d.pkt s1))

/-- Every line of a WRITE is acknowledged: WRITE_DONE (R372). -/
def execGranaryWriteDone (index : Nat) (s : State) : Host.Outcome State Fault Refusal :=
  .next (match s.gran.writes[index]? with
  | none => s
  | some a => respond a.pkt .ok [] (modGran (fun g => { g with writes := g.writes.eraseIdx index }) s))

/-- A read's answer: the errors that its lines met are counted and recorded, and data with an error that could not be
corrected answers INTERNAL (R362, R371). -/
def answerRead (a : Access) (errors : List LineError) (s : State) : State :=
  let n := xReadLen a.pkt
  let mine := errors.filter (fun e => (rangeLines (xOffset a.pkt) n).contains e.line)
  let s1 := meetErrors (xRegion a.pkt) (xOffset a.pkt) n mine s
  if mine.any (·.fatal) then respond a.pkt .internal [] s1 else respond a.pkt .ok a.data s1

/-- The lines of a READ are read: READ_DATA, or INTERNAL when a line is beyond correction (R362, R371, R372). -/
def execGranaryReadDone (index : Nat) (errors : List LineError) (s : State) : Host.Outcome State Fault Refusal :=
  .next (match s.gran.reads[index]? with
  | none => s
  | some a =>
    answerRead a errors (modGran (fun g => { g with reads := g.reads.eraseIdx index }) s))

/-! ## Lines and extents -/

/-- The copy of a retired extent is complete: the spare replaces it (R363). The copy drew on the firmware DMA share. -/
def execExtentRetireDone (region stack extent : Nat) (s : State) : Host.Outcome State Fault Refusal :=
  let e := (region, stack, extent)
  onUnit (decide (stack < 16))
    (if s.gran.retiring.contains e ∧ mayStart s 4 0 = true then
      countStack stack 4 1 (startWork 4 0 (2 * extentBytes) (modGran (fun g => { g with
        retiring := g.retiring.erase e, spares := tabMod sparesReset (· - 1) g.spares stack }) s))
    else s)

/-- Lines of a stack, and of all stacks. -/
def stackLines : Nat := 2 ^ 31

/-- The scrub reads its next line under its share (R364, R257). `error` names the line of a region whose place the scrub
has reached and that it finds in error. -/
def execScrubLine (error : Option (Nat × LineError)) (s : State) : Host.Outcome State Fault Refusal :=
  .next (if mayStart s 7 0 then
    let s1 := startWork 7 0 64 (countStack (s.gran.scrub / stackLines % 16) 5 1
      (modGran (fun g => { g with scrub := (g.scrub + 1) % (16 * stackLines) }) s))
    match error with
    | none => s1
    | some (r, e) => meetErrors r (64 * e.line) 64 [e] s1
  else s)

/-- A region's extents are zeroed: a new region is READY, a freed one is gone (R368). -/
def execRegionZeroed (region : Nat) (s : State) : Host.Outcome State Fault Refusal :=
  .next (match Machine.region s region with
  | none => s
  | some x =>
    if (x.phase = .zeroing ∨ x.phase = .freeing) ∧ mayStart s 4 0 = true then
      let s1 := startWork 4 0 (regionSize x) (zeroRegion region s)
      if x.phase = .zeroing then modRegion region (fun y => { y with phase := .ready }) s1
      else modGran (fun g => { g with regions := tabDel g.regions region }) s1
    else s)

/-! ## Mirror read-back (R383) -/

/-- The CRC of the first n bytes of a region. -/
def regionCrc (s : State) (r n : Nat) : Word := crc32c (readBytes s r 0 n)

/-- The read-back of a mirror written: its CRC must be the one computed on writing; then the record changes over, and a
replaced copy of this spine's own is freed (R382, R383). -/
def checkMirror (c : MirrorCommit) (m : Mirror) (remote : Word) (s : State) : State :=
  let here := some m.sid == ownSid s
  let s2 := if here then startWork 0 0 m.size s else s
  let crc := if here then regionCrc s2 m.region m.size else remote
  if here && rangePoisoned s2 m.region 0 m.size then finish c.origin .internal [] s2
  else if crc ≠ c.crc then finish c.origin .invalid [] s2
  else
    let m1 : Mirror := { m with phase := 1, crc := crc, prevSid := 0, prevRegion := 0, prevGeneration := 0 }
    let s3 := modGran (fun g => { g with mirrors := tabPut g.mirrors c.key m1 }) s2
    let s4 := if m.prevRegion ≠ 0 ∧ some m.prevSid = ownSid s3 then freeRegion m.prevRegion s3 else s3
    finish c.origin .ok [] s4

/-- The oldest read-back of a mirror region ends. The CRC is that of the region's bytes when it lies here, else the one
that the mirror spine found (`remote`). -/
def execMirrorReadbackDone (remote : Word) (s : State) : Host.Outcome State Fault Refusal :=
  .next (match s.gran.commits with
  | [] => s
  | c :: rest =>
    let s1 := modGran (fun g => { g with commits := rest }) s
    match tabGet? s1.gran.mirrors c.key with
    | none => finish c.origin .invalid [] s1
    | some m => if some m.sid == ownSid s1 && !mayStart s 0 0 then s else checkMirror c m remote s1)

end Sys2Proof.Machine
end

