-- ==== Sys2Proof/Machine/Knead.lean ====
section
/-! DEFINITION. The combining of a Knead slot: fragments and their payloads, terms, accumulators, the ordered fold, and
the one result of a slot (08 R275, R276; 09 R311 to R327). -/

namespace Sys2Proof.Machine

/-! ## Patterns and operations (08 Table 8.2) -/

def patAllReduce : Nat := 0
def patReduceScatter : Nat := 1
def patBarrier : Nat := 2
def patBcast : Nat := 3
def patGather : Nat := 4

def opSum : Nat := 1
def opMean : Nat := 2
def opWsum : Nat := 3
def opMax : Nat := 4
def opMin : Nat := 5
def opArgmax : Nat := 6
def opArgmin : Nat := 7
def opBand : Nat := 8
def opBor : Nat := 9
def opBxor : Nat := 10
def opProd : Nat := 11

def isArg (op : Nat) : Bool := op == 6 || op == 7
def isBitwise (op : Nat) : Bool := op == 8 || op == 9 || op == 10
def isSumOp (op : Nat) : Bool := op == 1 || op == 2 || op == 3

/-- The format of a recipe; RAW for a code that admission refuses. -/
def recipeFormat (rc : Recipe) : Format := (formatOf rc.dtype).getD ⟨8, .raw, false⟩

/-! ## Fragments (08 R275, R276) -/

/-- Fragments of one member's block: ⌈COUNT / EPF⌉. -/
def blockFrags (rc : Recipe) : Nat := if rc.pattern = patBarrier then 1 else ceilDiv rc.elements (Nat.max 1 rc.epf)

/-- F for a group of n members. -/
def recipeFrags (rc : Recipe) (n : Nat) : Nat := if rc.pattern = patGather then n * blockFrags rc else blockFrags rc

/-- Fragments of the portion at a position, per loaf: those g with g mod P the position. -/
def portionFrags (rc : Recipe) (n pos : Nat) : Nat := (recipeFrags rc n + rc.parts - 1 - pos) / Nat.max 1 rc.parts

/-- g of a fragment of a portion. -/
def fragIndex (rc : Recipe) (portion frag : Nat) : Nat := frag * rc.parts + (portion - rc.base)

/-- Elements of fragment g. -/
def fragElems (rc : Recipe) (g : Nat) : Nat :=
  if rc.pattern = patBarrier then 0
  else
    let f := if rc.pattern = patGather then g % Nat.max 1 (blockFrags rc) else g
    Nat.min rc.epf (rc.elements - f * rc.epf)

/-- Bytes of the value of an ARGMAX or ARGMIN pair. -/
def pairValueBytes (f : Format) : Nat := if f.bits = 64 then 8 else 4

/-- Bytes of n elements of a recipe, without the prefix of WSUM. -/
def elemsBytes (rc : Recipe) (n : Nat) : Nat :=
  if isArg rc.op then n * (pairValueBytes (recipeFormat rc) + 4) else vecBytes (recipeFormat rc) n

/-- LENGTH of a contribution with fragment g. -/
def fragLength (rc : Recipe) (g : Nat) : Nat :=
  if rc.pattern = patBarrier then 0
  else elemsBytes rc (fragElems rc g) + (if rc.op = opWsum then 8 else 0)

/-- Cut a list into pieces of n bytes each. -/
def slicesOf (n k : Nat) (bs : List Byte) : List (List Byte) := (List.range k).map (fun i => (bs.drop (i * n)).take n)

/-- The (value bits, index) pairs of a payload. -/
def decodePairs (f : Format) (n : Nat) (bs : List Byte) : List (Nat × Nat) :=
  let v := pairValueBytes f
  (slicesOf (v + 4) n bs).map (fun p => (bytesNat (p.take v) % 2 ^ f.bits, bytesNat (p.drop v)))

/-- The payload of a fragment as it is delivered unchanged: zero in the padding positions of a partial last block
(R276, R309). -/
def cleanPadding (f : Format) (n : Nat) (bs : List Byte) : List Byte :=
  if f.mx then
    packElems f.bits ((List.range n).map (elemBits f.bits bs) ++ List.replicate (padded f n - n) 0) ++
      bs.drop (padded f n * f.bits / 8)
  else bs

/-! ## Accumulators (09 R311, R312, Table 9.3) -/

/-- Exponent of the weight of a register's least significant bit (Table 9.2). -/
def lsbExp (f : Format) (wsum : Bool) : Int :=
  let base : Int := match f.kind with
    | .float _ mb bias _ => 1 - (bias : Int) - mb
    | .mxint => -6
    | _ => 0
  base - (if f.mx then 127 else 0) - (if wsum then 149 else 0)

/-- A, the bytes of an accumulator element (Tables 9.2, 9.4). -/
def accBytes (f : Format) (op : Nat) : Nat :=
  if isArg op then 16
  else if !isSumOp op then (if f.bits = 64 then 16 else 8)
  else if op = opWsum then 80
  else if f.mx then 40
  else
    match f.kind with
    | .float 11 _ _ _ => 272
    | .float 8 _ _ _ => 40
    | .float _ 10 _ _ => 16
    | .float _ _ _ _ => 8
    | _ => if f.bits = 64 then 16 else 8

/-- An empty accumulator: register 0 and the initial tag; all ones for BAND. -/
def accInit (f : Format) (op : Nat) : Acc :=
  { reg := 0, nan := false, pinf := false, ninf := false, allNz := true, allPz := true, best := none, index := 0,
    bits := if op = opBand then 2 ^ f.bits - 1 else 0 }

/-- Add a term into the register at its own weight, and update the tag (R315, R323). -/
def addTerm (lsb : Int) (v : Val) (a : Acc) : Acc :=
  match v with
  | .nan => { a with nan := true, allNz := false, allPz := false }
  | .inf n => { a with pinf := a.pinf || !n, ninf := a.ninf || n, allNz := false, allPz := false }
  | .fin n m e =>
    { a with
      reg := a.reg + alignInt n m e lsb, allNz := a.allNz && (m == 0 && n), allPz := a.allPz && (m == 0 && !n) }

/-- The value chosen by MAX or MIN of two; a NaN gives a NaN (R325). -/
def chooseVal (max : Bool) (a b : Val) : Val :=
  match a, b with
  | .nan, _ => .nan
  | _, .nan => .nan
  | _, _ => if (if max then valLess a b else valLess b a) then b else a

/-- A pair beats the pair chosen so far (R326). -/
def pairBeats (max : Bool) (v : Val) (i : Nat) (best : Val) (j : Nat) : Bool :=
  match v, best with
  | .nan, .nan => decide (i < j)
  | .nan, _ => true
  | _, .nan => false
  | _, _ =>
    if (if max then valLess best v else valLess v best) then true
    else if (if max then valLess v best else valLess best v) then false
    else decide (i < j)

/-- Fold one element of a contribution into its accumulator: the value, the index of a pair, the element bits. -/
def accStep (f : Format) (op : Nat) (v : Val) (i bits : Nat) (a : Acc) : Acc :=
  if isSumOp op then addTerm (lsbExp f (op == opWsum)) v a
  else if isArg op then
    match a.best with
    | none => { a with best := some v, index := i }
    | some b => if pairBeats (op == opArgmax) v i b a.index then { a with best := some v, index := i } else a
  else if isBitwise op then
    { a with bits := if op = opBand then a.bits &&& bits else if op = opBor then a.bits ||| bits else a.bits ^^^ bits }
  else
    match a.best with
    | none => { a with best := some v }
    | some b => { a with best := some (chooseVal (op == opMax) b v) }

/-- One element of a contribution: its term, the index of a pair, its bits. -/
def contributionElems (rc : Recipe) (n : Nat) (payload : List Byte) : List (Val × Nat × Nat) :=
  let f := recipeFormat rc
  if isArg rc.op then (decodePairs f n payload).map (fun p => (decodeElem f p.1, p.2, p.1))
  else if rc.op = opWsum then
    let w := decodeElem fp32 (bytesNat (payload.take 4))
    (decodeVec f n (payload.drop 8)).map (fun v => (mulVals w v, 0, 0))
  else if isBitwise rc.op then (List.range n).map (fun k => (zeroVal, 0, elemBits f.bits payload k))
  else (decodeVec f n payload).map (fun v => (v, 0, 0))

/-- The leaves of a contribution in the ordered mode: a WSUM product is rounded once to the format (R318). -/
def contributionLeaves (rc : Recipe) (n : Nat) (payload : List Byte) : List Val :=
  (contributionElems rc n payload).map (fun x => if rc.op = opWsum then roundVal (recipeFormat rc) rc.round x.1 else x.1)

/-! ## The ordered fold (09 R317, R318) -/

/-- The largest power of two below n, for n above 1. -/
def splitPoint (n : Nat) : Nat := 2 ^ Nat.log2 (n - 1)

/-- The fold over member order; the first argument bounds its depth. -/
def foldOrdered {α : Type} (node : α → α → α) : Nat → List α → Option α
  | 0, _ => none
  | _ + 1, [x] => some x
  | d + 1, l =>
    match foldOrdered node d (l.take (splitPoint l.length)), foldOrdered node d (l.drop (splitPoint l.length)) with
    | some a, some b => some (node a b)
    | _, _ => none

/-- A node of the fold: the operation of IEEE 754 in the format, and whether finite operands overflowed to an infinity. -/
def orderedNode (rc : Recipe) (a b : Val × Bool) : Val × Bool :=
  let f := recipeFormat rc
  let exact := if rc.op = opProd then mulVals a.1 b.1 else sumVals rc.round [a.1, b.1]
  let r := roundVal f rc.round exact
  let finite : Val → Bool := fun v => match v with
    | .fin _ _ _ => true
    | _ => false
  let overflow := finite a.1 && finite b.1 && !(finite r)
  (r, a.2 || b.2 || overflow)

/-! ## The result of a slot (09 R310, R315, R320 to R327) -/

/-- What a result adds to the counters of its Knead unit: FP_OVERFLOW, MX_SATURATE, INT_WRAP. -/
structure KneadCounts where
  overflow : Nat
  saturate : Nat
  wrap : Nat

/-- The value that tag and register give (R321, R323). -/
def registerValue (f : Format) (rc : Recipe) (a : Acc) : Val :=
  if a.nan || (a.pinf && a.ninf) then .nan
  else if a.pinf then .inf false
  else if a.ninf then .inf true
  else if a.reg = 0 then .fin (a.allNz || (!a.allPz && rc.round == 2)) 0 0
  else valOfInt a.reg (lsbExp f (rc.op == opWsum))

/-- The exact value of one element before its rounding. -/
def elementValue (f : Format) (rc : Recipe) (a : Acc) : Val :=
  if isSumOp rc.op then registerValue f rc a
  else if isBitwise rc.op then .fin false a.bits 0
  else a.best.getD zeroVal

/-- An exact sum lies outside the range of an integer format. -/
def intWraps (f : Format) (v : Val) : Bool :=
  match f.kind, v with
  | .int sg, .fin n m e =>
    let x := alignInt n m e 0
    if sg then decide (x < -(2 ^ (f.bits - 1) : Nat)) || decide ((2 ^ (f.bits - 1) : Nat) ≤ x)
    else decide (x < 0) || decide ((2 ^ f.bits : Nat) ≤ x)
  | _, _ => false

/-- The divisor of a result: the live count under MEAN. -/
def divisorOf (rc : Recipe) (live : Nat) : Nat := if rc.op = opMean then Nat.max 1 live else 1

/-- A scalar element's bits and whether it overflowed. -/
def scalarResult (f : Format) (rc : Recipe) (live draw : Nat) (v : Val) : Nat × Bool :=
  if rc.op = opMean then divEncode f rc.round draw v (divisorOf rc live)
  else encodeVal f .table rc.round draw v

/-- The result payload in the exact mode. `g` is the fragment, `live` the live count. -/
def exactResult (rc : Recipe) (gid seq g live : Nat) (accs : List Acc) : List Byte × KneadCounts :=
  let f := recipeFormat rc
  let vals := (accs.zipIdx).map (fun x => (elementValue f rc x.1, kneadDraw gid seq (g * rc.epf + x.2)))
  if isArg rc.op then
    let v := pairValueBytes f
    ((List.zip vals accs).flatMap (fun x => natBytes v (encodeVal f .table 0 0 x.1.1).1 ++ natBytes 4 x.2.index), ⟨0, 0, 0⟩)
  else if f.mx then
    let (bs, sat) := encodeMx f rc.round (vals.map (fun x => (exactOf x.1 (divisorOf rc live), x.2)))
    (bs, ⟨0, sat, 0⟩)
  else
    let es := vals.map (fun x => scalarResult f rc live x.2 x.1)
    let wraps := (vals.filter (fun x => isSumOp rc.op && rc.op != opMean && intWraps f x.1)).length
    (packElems f.bits (es.map (·.1)), ⟨(es.filter (·.2)).length, 0, wraps⟩)

/-- The result payload in the ordered mode: leaves by member in ascending order. -/
def orderedResult (rc : Recipe) (n live : Nat) (leaves : Tab (List Val)) : List Byte × KneadCounts :=
  let f := recipeFormat rc
  let es := (List.range n).map (fun k =>
    let ys := leaves.map (fun l => ((l.2)[k]?.getD zeroVal, false))
    let (v, above) := (foldOrdered (orderedNode rc) (ys.length + 1) ys).getD (zeroVal, false)
    ((scalarResult f rc live 0 v).1, above))
  (packElems f.bits (es.map (·.1)), ⟨(es.filter (·.2)).length, 0, 0⟩)

/-! ## Slots (08 R286, R287) -/

/-- A free slot. -/
def slotInit (rc : Recipe) (frag g : Nat) : KneadSlot :=
  { frag := frag, seen := [],
    accs := if rc.op = 0 || rc.ordered then [] else List.replicate (fragElems rc g) (accInit (recipeFormat rc) rc.op),
    leaves := [], full := false, result := [] }

/-- A contribution goes into its slot. -/
def slotAdd (rc : Recipe) (g member : Nat) (payload : List Byte) (sl : KneadSlot) : KneadSlot :=
  let n := fragElems rc g
  let sl1 := { sl with seen := sl.seen ++ [member] }
  if rc.op = 0 then sl1
  else if rc.ordered then { sl1 with leaves := tabPut sl1.leaves member (contributionLeaves rc n payload) }
  else { sl1 with accs := (List.zip (contributionElems rc n payload) sl1.accs).map (fun x =>
    accStep (recipeFormat rc) rc.op x.1.1 x.1.2.1 x.1.2.2 x.2) }

/-- Arrivals at which a slot completes (Table 8.9). -/
def slotThreshold (rc : Recipe) (live : Nat) : Nat := if rc.pattern = patBcast ∨ rc.pattern = patGather then 1 else live

/-- The result of a complete slot; a fragment of BCAST or GATHER is the contribution itself. -/
def slotResult (rc : Recipe) (gid seq g live : Nat) (payload : List Byte) (sl : KneadSlot) : List Byte × KneadCounts :=
  if rc.pattern = patBarrier then ([], ⟨0, 0, 0⟩)
  else if rc.op = 0 then (cleanPadding (recipeFormat rc) (fragElems rc g) payload, ⟨0, 0, 0⟩)
  else if rc.ordered then orderedResult rc (fragElems rc g) live sl.leaves
  else exactResult rc gid seq g live sl.accs

/-! ## Spill images (09 R312, R313, R332) -/

/-- The tag byte of Table 9.3. -/
def tagByte (a : Acc) : Nat :=
  at_ 7 7 (bit a.nan) + at_ 6 6 (bit a.pinf) + at_ 5 5 (bit a.ninf) + at_ 4 4 (bit a.allNz) + at_ 3 3 (bit a.allPz)

/-- The number that an accumulator's register bytes hold: the two's complement register of the sums; else the bits of the
value chosen, with the index of a pair below them. -/
def registerNumber (f : Format) (op : Nat) (a : Acc) : Int :=
  if isSumOp op then a.reg
  else if isBitwise op then a.bits
  else if isArg op then (((encodeVal f .table 0 0 (a.best.getD zeroVal)).1 * 2 ^ 32 + a.index : Nat) : Int)
  else ((match a.best with
    | some v => if f.mx then (encodeVal ⟨56, .float 11 44 1023 2, false⟩ .table 0 0 v).1 else (encodeVal f .table 0 0 v).1
    | none => 0 : Nat) : Int)

/-- The A-byte image of an accumulator element. FP64 sums keep the carry out of 2^1037 in the extension of the tag
word. -/
def accImage (f : Format) (op : Nat) (a : Acc) : List Byte :=
  let n := accBytes f op
  if n = 272 then
    let ext := (a.reg / (2 : Int) ^ 2112) % 2 ^ 16
    natBytes 8 (tagByte a * 2 ^ 56 + ext.toNat * 2 ^ 40) ++ natBytes 264 (a.reg % (2 : Int) ^ 2112).toNat
  else
    natBytes 1 (tagByte a) ++ natBytes (n - 1) ((registerNumber f op a) % (2 : Int) ^ (8 * (n - 1))).toNat

/-- The images of a slot, one accumulator element after another. -/
def slotImage (rc : Recipe) (sl : KneadSlot) : List Byte := sl.accs.flatMap (accImage (recipeFormat rc) rc.op)

end Sys2Proof.Machine
end

