-- ==== Sys2Proof/Machine/LoafOps.lean ====
section
/-! DEFINITION. Groups, recipes and contexts: staging sizes and room, notices between spines, aborts, release and close
(chapter 8). -/

namespace Sys2Proof.Machine

def modLoaf (f : LoafState → LoafState) (s : State) : State := { s with loaf := f s.loaf }

def ctxKey (gid portion : Nat) : Nat := gid * 4096 + portion
def recipeKey (gid rid : Nat) : Nat := gid * 65536 + rid

def group (s : State) (gid : Nat) : Option Group := tabGet? s.loaf.groups gid
def held (s : State) (gid rid : Nat) : Option Held := tabGet? s.loaf.recipes (recipeKey gid rid)
def loafCtx (s : State) (key : Nat) : Option LoafCtx := tabGet? s.loaf.contexts key

def modCtx (key : Nat) (f : LoafCtx → LoafCtx) (s : State) : State :=
  match loafCtx s key with
  | some c => modLoaf (fun l => { l with contexts := tabPut l.contexts key (f c) }) s
  | none => s

def modHeld (gid rid : Nat) (f : Held → Held) (s : State) : State :=
  match held s gid rid with
  | some h => modLoaf (fun l => { l with recipes := tabPut l.recipes (recipeKey gid rid) (f h) }) s
  | none => s

/-- Members of a group; 0 for an undefined one. -/
def groupSize (s : State) (gid : Nat) : Nat := ((group s gid).map (·.members.length)).getD 0

/-- The LIVE set of a group for a loaf: that of the last change whose sequence the loaf is not behind (R271). -/
def liveFor (g : Group) (seq : Nat) : Nat :=
  ((g.changes.filter (fun c => !serialAhead (2 ^ 32) c.1 seq)).getLast?.map (·.2)).getD g.live

/-- A counter of a Knead unit (19 Table 19.1). -/
def countKnead (u item n : Nat) (s : State) : State := count (counterId (0x30 + u / 8) 1 (32 * (u % 8) + item)) n s

/-! ## Staging (R278, Table 8.5) -/

/-- B: a bit per member, in units of 256 bytes. -/
def bitmapBytes (n : Nat) : Nat := ceilDiv (ceilDiv n 8) 256 * 256

/-- Staging in Knead SRAM of one portion. -/
def sramNeed (rc : Recipe) (n : Nat) : Nat :=
  if rc.pattern = patBarrier then bitmapBytes n
  else if rc.op = 0 then 0
  else if rc.ordered then 262144
  else rc.window * (rc.epf * accBytes (recipeFormat rc) rc.op + bitmapBytes n)

/-- Granary bytes of the portion at a position. -/
def spillNeed (rc : Recipe) (n pos : Nat) : Nat :=
  if rc.pattern = patBarrier then bitmapBytes n
  else if rc.pattern = patGather ∧ !rc.all then portionFrags rc n pos * elemsBytes rc rc.epf
  else if rc.op = 0 then 0
  else if rc.ordered then rc.window * (ceilDiv n 2 * rc.epf * ((recipeFormat rc).bits / 8) + bitmapBytes n)
  else sramNeed rc n

/-- Knead SRAM of a group of units, in bytes (01 Table 1.6). -/
def groupSram : Nat := 16777216

/-- Staging that a dispatch context reserves in its group (10 R345). -/
def dispatchStaging (r : DispatchRec) : Nat :=
  r.inflight * r.k * r.d * (((formatOf r.retFmt).map (·.bits)).getD 0 / 8)

/-- Units and bytes of the loaf contexts that hold SRAM and of the reservations. -/
def unitsReserved (s : State) : List (Nat × Nat) :=
  (s.loaf.contexts.filterMap (fun e =>
    if e.2.sram then (held s (e.1 / 4096) e.2.recipeId).map (fun h => (e.2.knead, sramNeed h.recipe (groupSize s (e.1 / 4096))))
    else none)) ++
  s.loaf.reservations.flatMap (fun r => r.mine.map (fun m => (m.2, sramNeed r.recipe (groupSize s r.recipe.gid))))

/-- SRAM in use of group g, given more units and bytes. -/
def sramUsed (s : State) (more : List (Nat × Nat)) (g : Nat) : Nat :=
  (((unitsReserved s ++ more).filter (fun x => x.1 / 8 == g)).map (·.2)).sum +
    ((s.mill.contexts.filter (fun c => c.2.record.enable && c.2.record.knead / 8 == g)).map (fun c => dispatchStaging c.2.record)).sum

/-- Free SRAM of a group. -/
def sramFree (s : State) (g : Nat) : Nat := groupSram - sramUsed s [] g

/-- A Knead unit can take work: enabled, its island in service (R305; 17 R564). -/
def kneadUsable (s : State) (u : Nat) : Bool := !s.start.cfg.kneadOff.contains u && !(island s (0x30 + u / 8)).dataReset

/-- Loaf contexts in use or reserved. -/
def contextsUsed (s : State) : Nat := s.loaf.contexts.length + (s.loaf.reservations.map (·.mine.length)).sum

/-- The lowest free context number. -/
def freeContext (s : State) : Nat :=
  ((List.range 16384).find? (fun i => !s.loaf.contexts.any (fun e => e.2.index == i))).getD 0

/-! ## Recipe records (Table 8.3) -/

def recipeWords (rc : Recipe) : List Word :=
  [wordOf [at_ 31 16 rc.recipeId, at_ 15 0 rc.signature], wordOf [at_ 31 12 rc.gid, at_ 11 0 rc.base],
    wordOf [at_ 31 28 rc.pattern, at_ 27 24 rc.op, at_ 23 16 rc.dtype, at_ 15 14 rc.round, at_ 13 13 (bit rc.ordered),
      at_ 12 12 (bit rc.all), at_ 11 0 (rc.parts - 1)],
    wordOf [at_ 31 18 rc.epf, at_ 17 14 (rc.window - 1)], w32 (rc.elements / 2 ^ 32), w32 rc.elements,
    wordOf [at_ 31 15 rc.root], w32 rc.stale, wordOf [at_ 31 19 rc.home], wordOf [at_ 31 16 rc.epoch]]

def portionWord (m : Nat × Nat) : Word := wordOf [at_ 31 19 m.1, at_ 18 13 m.2]

/-- The record that words spell, its portion map still empty. -/
def recipeOf (ws : List Word) : Recipe :=
  let w (i : Nat) : Word := ws.getD i 0
  { recipeId := fld (w 0) 31 16, signature := fld (w 0) 15 0, gid := fld (w 1) 31 12, base := fld (w 1) 11 0,
    pattern := fld (w 2) 31 28, op := fld (w 2) 27 24, dtype := fld (w 2) 23 16, round := fld (w 2) 15 14,
    ordered := fld (w 2) 13 13 == 1, all := fld (w 2) 12 12 == 1, parts := fld (w 2) 11 0 + 1, epf := fld (w 3) 31 18,
    window := fld (w 3) 17 14 + 1, elements := (w 4).toNat * 2 ^ 32 + (w 5).toNat, root := fld (w 6) 31 15,
    stale := (w 7).toNat, home := fld (w 8) 31 19, epoch := fld (w 9) 31 16, map := [] }

/-- SIGNATURE (R277). -/
def recipeSignature (rc : Recipe) : Nat :=
  let c := crc32c (natBytes 1 (rc.pattern * 16 + rc.op) ++ natBytes 1 rc.dtype ++ natBytes 2 rc.recipeId ++
    natBytes 8 rc.elements ++ natBytes 2 rc.epoch ++ natBytes 2 0)
  fld c 31 16 ^^^ fld c 15 0

/-- The SIDs of a portion map, each once. -/
def mapSids (rc : Recipe) : List Nat := distinct (rc.map.map (·.1))

/-! ## Notices (Table 8.7) -/

/-- Send a recipe notice to a spine. -/
def sendNotice (dest ntype openId gid collision rid entries : Nat) (ws : List Word) (s : State) : State :=
  sendControl (spineControl s 2 3 dest [] (wordsBytes ([wordOf [at_ 31 24 ntype, at_ 23 0 openId],
    wordOf [at_ 31 12 gid, at_ 0 0 collision], wordOf [at_ 31 16 rid, at_ 15 0 entries]] ++ ws))) s

def noticeType (k : Packet) : Nat := fld (payloadWord k 0) 31 24
def noticeOpen (k : Packet) : Nat := fld (payloadWord k 0) 23 0
def noticeGid (k : Packet) : Nat := fld (payloadWord k 1) 31 12
def noticeCollision (k : Packet) : Bool := fld (payloadWord k 1) 0 0 == 1
def noticeRecipe (k : Packet) : Nat := fld (payloadWord k 2) 31 16
def noticeEntries (k : Packet) : Nat := fld (payloadWord k 2) 15 0
def noticeWords (k : Packet) (i n : Nat) : List Word := (List.range n).map (fun j => payloadWord k (3 + i + j))

/-- The SID of a message's sender. -/
def senderSid (k : Packet) : Nat := pSrc k % 8192

/-- The oldest C2 control message of firmware's inbound queue, when it passes a test. -/
def takeControl (p : Packet → Bool) (s : State) : Option (Packet × State) :=
  match s.buf.fwIn with
  | k :: rest => if p k then some (k, modBuf (fun b => { b with fwIn := rest }) s) else none
  | [] => none

def takeNotice (ntype : Nat) (s : State) : Option (Packet × State) :=
  takeControl (fun k => xCtype k == 3 && noticeType k == ntype) s

/-! ## Release and close (R281, R283, R304) -/

/-- A spill region is freed and zeroed at release (11 R385). -/
def freeSpill (r : Nat) (s : State) : State := if r = 0 then s else freeRegion r s

/-- The contexts of a recipe here, by key. -/
def recipeContexts (s : State) (gid rid : Nat) : List (Nat × LoafCtx) :=
  s.loaf.contexts.filter (fun e => e.1 / 4096 == gid && e.2.recipeId == rid)

/-- A spine of a close counts as closed when it has no fresh summary; this spine needs none (R304). -/
def closeSilent (s : State) (sid : Nat) : Bool := ownSid s != some sid && (freshSummary s sid).isNone

/-- End a close when every spine of its map is closed or without a fresh summary. -/
def settleClose (jid : Nat) (s : State) : State :=
  match tabGet? s.loaf.closes jid with
  | none => s
  | some j =>
    let left := j.waiting.filter (fun x => !closeSilent s x)
    if left.isEmpty then
      finish j.origin .ok []
        (traceCrumb 2 0xF103 ((group s j.gid).map (·.pid) |>.getD 0) j.gid (j.recipeId * 65536)
          (modLoaf (fun l => { l with closes := tabDel l.closes jid }) s))
    else s

/-- A spine has closed for a close job. -/
def closedBy (jid sid : Nat) (s : State) : State :=
  settleClose jid (modLoaf (fun l => { l with
    closes := tabMap (fun k j => if k = jid then { j with waiting := j.waiting.filter (· != sid) } else j) l.closes }) s)

/-- Answer CLOSED to those who asked, this spine's own job included. -/
def answerClosers (gid rid : Nat) (cs : List (Nat × Nat)) (s : State) : State :=
  cs.foldl (fun s c =>
    if ownSid s = some c.1 then closedBy c.2 c.1 s else sendNotice c.1 0x17 c.2 gid 0 rid 0 [] s) s

/-- Drop a recipe that holds no context any longer. -/
def dropRecipe (gid rid : Nat) (s : State) : State :=
  match held s gid rid with
  | none => s
  | some h =>
    answerClosers gid rid h.closers
      (freeSpill h.spill (modLoaf (fun l => { l with recipes := tabDel l.recipes (recipeKey gid rid) }) s))

/-- A closing recipe whose last context is released is dropped and answered. -/
def settleRecipe (gid rid : Nat) (s : State) : State :=
  match held s gid rid with
  | some h => if h.closing && (recipeContexts s gid rid).isEmpty then dropRecipe gid rid s else s
  | none => s

/-- Release one context. -/
def releaseCtx (key : Nat) (s : State) : State :=
  match loafCtx s key with
  | none => s
  | some c => settleRecipe (key / 4096) c.recipeId (modLoaf (fun l => { l with contexts := tabDel l.contexts key }) s)

/-- Release every context of a recipe at once and drop it. -/
def releaseRecipe (gid rid : Nat) (s : State) : State :=
  dropRecipe gid rid (modLoaf (fun l => { l with
    contexts := l.contexts.filter (fun e => !(e.1 / 4096 == gid && e.2.recipeId == rid)) }) s)

/-- A context's loaf is in progress, or its gathered fragments are still to be sent. -/
def loafRunning (c : LoafCtx) : Bool := c.phase != .idle || !c.staged.isEmpty

/-- Contexts with a running loaf on a set of units. -/
def runningOn (s : State) (units : List Nat) : List (Nat × LoafCtx) :=
  s.loaf.contexts.filter (fun e => units.contains e.2.knead && loafRunning e.2)

/-- LOAF.KNEAD commands whose units have come to rest complete OK. -/
def settleKnead (s : State) : State :=
  (s.loaf.kneadJobs.filter (fun j => (runningOn s j.2).isEmpty)).foldl (fun s j =>
    finish j.1 .ok [] (modLoaf (fun l => { l with kneadJobs := l.kneadJobs.filter (fun x => x.1 != j.1) }) s)) s

/-- A context of a closing recipe that is idle, and has no gathered fragments left to send, is released; a disabling command
that waited for it may end. -/
def releaseIdle (key : Nat) (s : State) : State :=
  match loafCtx s key with
  | none => s
  | some c =>
    settleKnead (if ((held s (key / 4096) c.recipeId).map (·.closing)).getD false && c.phase == .idle && c.staged.isEmpty then
      releaseCtx key s else s)

/-- The loaf of a context has ended: the context is idle, or released when its recipe is closing (R289, R304). Gathered
fragments stay until they are sent; an abort discards everything. -/
def endLoaf (key lstatus : Nat) (aborted : Bool) (s : State) : State :=
  releaseIdle key (modCtx key (fun c => { c with
    phase := .idle, lstatus := lstatus, aborted := aborted, slots := [], spilling := false,
    staged := if aborted then [] else c.staged, sent := if aborted then [] else c.sent }) s)

/-! ## Aborts (R294 to R296) -/

/-- Contexts here that an abort of (GID, LOAF_SEQ) acts on. -/
def abortTargets (s : State) (gid seq : Nat) : List (Nat × LoafCtx) :=
  s.loaf.contexts.filter (fun e => e.1 / 4096 == gid && !e.2.fresh && e.2.seq == seq && !e.2.aborted)

/-- The ABORT of a loaf (04 Table 4.8): in PID 0x000 to a spine, in the group's partition to members. -/
def abortPacket (s : State) (gid seq status dest pid epoch : Nat) (mcast spine : Bool) : Packet :=
  let o : Origination := {
    kind := 5, cls := 0, dest := dest, mcast := mcast, spineDst := spine, pid := pid, epoch := epoch, entropy := 0,
    first := true, last := true, nospray := false,
    ext := [wordOf [at_ 31 24 1, at_ 23 16 status], wordOf [at_ 31 12 gid], w32 seq], payload := [] }
  madePacket s o

/-- ABORT to every other spine of the map and to every member (R295). -/
def sendAborts (gid seq status : Nat) (rc : Recipe) (g : Group) (s : State) : State :=
  let spines := (mapSids rc).filter (fun x => ownSid s != some x)
  let s1 := spines.foldl (fun s x => originate controlSource (abortPacket s gid seq status x 0 0 false true) s) s
  if g.delivery.isEmpty then
    g.members.foldl (fun s m => originate controlSource (abortPacket s gid seq status m g.pid rc.epoch false false) s) s1
  else g.delivery.foldl (fun s d => originate controlSource (abortPacket s gid seq status d g.pid rc.epoch true false) s) s1

/-- Detect the abort of a loaf: once per (GID, LOAF_SEQ), with a crumb record and the count of the detecting unit. The
FENCE of a partition sends nothing (R297). -/
def abortLoaf (gid seq status : Nat) (s : State) : State :=
  match abortTargets s gid seq with
  | [] => s
  | (k, c) :: rest =>
    let s1 := crumb 0xF003 (((group s gid).map (·.pid)).getD 0) (gid * 4096 + status) seq
      (countKnead c.knead (8 + status) 1 s)
    let s2 := ((k, c) :: rest).foldl (fun s e => endLoaf e.1 status true s) s1
    match held s gid c.recipeId, group s gid with
    | some h, some g => if status = 4 then s2 else sendAborts gid seq status h.recipe g s2
    | _, _ => s2

/-- Abort the loaf that a context runs. -/
def abortCtx (key status : Nat) (s : State) : State :=
  match loafCtx s key with
  | some c => if loafRunning c then abortLoaf (key / 4096) c.seq status s else s
  | none => s

/-- Begin closing a recipe here: idle contexts are released at once, running loafs drain (R304). -/
def closeHere (gid rid : Nat) (closers : List (Nat × Nat)) (s : State) : State :=
  let s1 := modHeld gid rid (fun h => { h with closing := true, closers := h.closers ++ closers }) s
  let s2 := (recipeContexts s1 gid rid).foldl (fun s e =>
    if e.2.phase ≠ .idle then modCtx e.1 (fun c => { c with phase := .draining, spilling := false }) s
    else if loafRunning e.2 then s
    else modLoaf (fun l => { l with contexts := tabDel l.contexts e.1 }) s) s1
  settleRecipe gid rid s2

/-- The fence of a partition: its loafs end ABORT_EPOCH and its recipes close, with no message (R298). -/
def fenceLoafs (pid : Nat) (s : State) : State :=
  let mine := fun (gid : Nat) => ((group s gid).map (·.pid)) == some pid
  let s1 := ((s.loaf.contexts.filter (fun e => mine (e.1 / 4096) && loafRunning e.2))).foldl (fun s e => abortCtx e.1 4 s) s
  let s2 := (s1.loaf.recipes.filter (fun e => mine (e.1 / 65536))).foldl (fun s e => releaseRecipe (e.1 / 65536) (e.1 % 65536) s) s1
  let gone := s2.loaf.reservations.filter (fun r => mine r.recipe.gid)
  modLoaf (fun l => { l with reservations := l.reservations.filter (fun r => !mine r.recipe.gid) })
    (gone.foldl (fun s r => freeSpill r.spill s) s2)

end Sys2Proof.Machine
end

