-- ==== Sys2Proof/Machine/Loaf.lean ====
section
/-! DEFINITION. Running a loaf: contributions, slots and their results, gathering, spill and restore, staleness, aborts
from other spines, staging errors (chapters 8 and 9). -/

namespace Sys2Proof.Machine

/-! ## Spill space of a context (R278, R385, R312) -/

/-- The position of a portion in its recipe. -/
def portionPos (rc : Recipe) (portion : Nat) : Nat := portion - rc.base

/-- Offset of a portion's part of the spill region: the parts of this spine's lower portions come before it. -/
def spillOffset (s : State) (rc : Recipe) (portion : Nat) : Nat :=
  (((recipeContexts s rc.gid rc.recipeId).filter (fun e => decide (e.2.portion < portion))).map
    (fun e => spillNeed rc (groupSize s rc.gid) (portionPos rc e.2.portion))).sum

/-- The bitmap of a slot's members, in B bytes, member 0 in the most significant bit. -/
def seenBitmap (n : Nat) (seen : List Nat) : List Byte :=
  (List.range (bitmapBytes n)).map (fun i =>
    BitVec.ofNat 8 (((List.range 8).map (fun b => if seen.contains (8 * i + b) then 2 ^ (7 - b) else 0)).sum))

/-- What a spill writes: offset within the portion's part, and bytes, slot by slot. In the ordered mode the slots stand in
the Granary already and only their bitmaps are shown here. -/
def spillImages (rc : Recipe) (n : Nat) (c : LoafCtx) : List (Nat × List Byte) :=
  let b := bitmapBytes n
  if rc.pattern = patBarrier then c.slots.map (fun e => (0, seenBitmap n e.2.seen))
  else if rc.op = 0 then []
  else if rc.ordered then
    let a := ceilDiv n 2 * rc.epf * ((recipeFormat rc).bits / 8)
    c.slots.map (fun e => (e.1 * (a + b) + a, seenBitmap n e.2.seen))
  else
    let a := rc.epf * accBytes (recipeFormat rc) rc.op
    c.slots.flatMap (fun e => [(e.1 * (a + b), slotImage rc e.2), (e.1 * (a + b) + a, seenBitmap n e.2.seen)])

/-- The SRAM of a context's group has room for its slots. -/
def sramRoom (s : State) (rc : Recipe) (c : LoafCtx) : Bool :=
  c.sram || decide (sramNeed rc (groupSize s rc.gid) ≤ sramFree s (c.knead / 8))

/-- The spill share lets an operation on the Granary start (07 Table 7.5). -/
def spillMay (s : State) : Bool := mayStart s 2 0

/-- Restore the slots of a SPILLED context, reading its images: an uncorrectable error aborts the loaf with ABORT_PARITY
(R291; 09 R331). -/
def restoreSlots (key : Nat) (rc : Recipe) (spill : Nat) (errs : List LineError) (s : State) : State :=
  match loafCtx s key with
  | none => s
  | some c =>
    let n := groupSize s rc.gid
    let o := spillOffset s rc c.portion
    let len := spillNeed rc n (portionPos rc c.portion)
    let s1 := meetErrors spill o len errs (startWork 2 0 len s)
    if rangePoisoned s1 spill o len then abortCtx key 7 s1
    else modCtx key (fun c => { c with sram := true, phase := if c.phase = .spilled then .running else c.phase }) s1

/-! ## Contributions (R285, R286, R288) -/

/-- The defects that abort the loaf with ABORT_MISMATCH (R288). -/
def mismatched (rc : Recipe) (n : Nat) (c : LoafCtx) (k : Packet) : Bool :=
  let g := fragIndex rc c.portion (xFrag k)
  let slotNo := if rc.pattern = patGather ∧ !rc.all ∨ rc.pattern = patBarrier then xFrag k else xFrag k % rc.window
  let clash := match tabGet? c.slots slotNo with
    | some sl => (sl.frag == xFrag k && sl.seen.contains (xMember k)) || (sl.frag != xFrag k && !sl.full)
    | none => false
  xSignature k != rc.signature || !testBitN c.live (xMember k) ||
    decide (portionFrags rc n (portionPos rc c.portion) ≤ xFrag k) || clash || (tabGet? c.staged g).isSome ||
    pLength k != fragLength rc g || pClass k != (if rc.pattern = patBarrier then 0 else 1) ||
    (rc.pattern == patBcast && xMember k != rc.root) ||
    (rc.pattern == patGather && xMember k != g / Nat.max 1 (blockFrags rc))

/-- The number of live members of a loaf. -/
def liveCount (n live : Nat) : Nat := (maskBits n live).length

/-- Combine an accepted contribution in its slot; at the threshold the slot is complete and its result is formed. -/
def combine (key : Nat) (rc : Recipe) (n : Nat) (k : Packet) (s : State) : State :=
  match loafCtx s key with
  | none => s
  | some c =>
    let g := fragIndex rc c.portion (xFrag k)
    let slotNo := if rc.pattern = patBarrier then 0 else xFrag k % rc.window
    let live := liveCount n c.live
    let old := match tabGet? c.slots slotNo with
      | some sl => if sl.frag = xFrag k then sl else slotInit rc (xFrag k) g
      | none => slotInit rc (xFrag k) g
    let sl := slotAdd rc g (xMember k) k.payload old
    let s1 := countKnead c.knead 0 (pLength k) s
    if slotThreshold rc live ≤ sl.seen.length then
      let (bs, cnt) := slotResult rc rc.gid c.seq g live k.payload sl
      let s2 := countKnead c.knead 6 cnt.wrap (countKnead c.knead 5 cnt.saturate
        (countKnead c.knead 4 cnt.overflow (countKnead c.knead 1 1 s1)))
      modCtx key (fun x => { x with
        slots := tabPut x.slots slotNo { sl with full := true, result := bs, accs := [], leaves := [] } }) s2
    else modCtx key (fun x => { x with slots := tabPut x.slots slotNo sl }) s1

/-- GATHER with ALL 0: the fragment is written into the Granary staging, and is complete (R302). -/
def stageGather (key : Nat) (rc : Recipe) (n spill : Nat) (k : Packet) (s : State) : State :=
  match loafCtx s key with
  | none => s
  | some c =>
    let g := fragIndex rc c.portion (xFrag k)
    let bs := cleanPadding (recipeFormat rc) (fragElems rc g) k.payload
    let o := spillOffset s rc c.portion + xFrag k * elemsBytes rc rc.epf
    let s1 := startWork 2 0 (writeCost o bs.length) (writeBytes spill o bs (countKnead c.knead 1 1 (countKnead c.knead 0 (pLength k) s)))
    let s2 := modCtx key (fun x => { x with staged := tabPut x.staged g (xMember k, bs.length), done := x.done + 1 }) s1
    if c.done + 1 = portionFrags rc n (portionPos rc c.portion) then endLoaf key 0 false s2 else s2

/-- A contribution of the current loaf: combined, or the loaf aborts. -/
def accept1 (key : Nat) (h : Held) (k : Packet) (errs : List LineError) (s : State) : State :=
  let rc := h.recipe
  let n := groupSize s rc.gid
  match loafCtx s key with
  | none => s
  | some c =>
    if mismatched rc n c k then abortCtx key 2 s
    else
      let s1 := modCtx key (fun x => { x with spilling := false }) s
      let s2 := if !c.sram && sramRoom s1 rc c then restoreSlots key rc h.spill errs s1
        else if !c.sram then startWork 2 0 (sramNeed rc n) s1 else s1
      if ((loafCtx s2 key).map (fun x => x.seq == c.seq && x.phase != .idle)).getD false then
        if rc.pattern = patGather ∧ !rc.all then stageGather key rc n h.spill k s2 else combine key rc n k s2
      else s2

/-- A new loaf begins at a context: its sequence, its live set, its slots cleared (R285). -/
def beginLoaf (key : Nat) (h : Held) (seq : Nat) (s : State) : State :=
  match loafCtx s key, group s h.recipe.gid with
  | some c, some g =>
    let room := sramRoom s h.recipe c
    modCtx key (fun x => { x with
      phase := if room then .running else .spilled, sram := room, fresh := false, seq := seq, aborted := false,
      live := liveFor g seq, done := 0, slots := [], spilling := false, staged := [], sent := [] }) s
  | _, _ => s

/-- What a context does with a contribution (Table of R285). -/
inductive Relation where
  | behind | current | begins | abandons
  deriving DecidableEq, Repr

def relationOf (closing : Bool) (c : LoafCtx) (seq : Nat) : Relation :=
  if c.fresh then .begins
  else if seq = c.seq then (if c.phase = .idle || c.aborted then .behind else .current)
  else if closing || !serialAhead (2 ^ 32) seq c.seq then .behind
  else
    match c.phase with
    | .idle => .begins
    | .running => .abandons
    | .spilled => .abandons
    | .draining => .behind
    | .aborting => .behind

/-- The slot of a contribution still holds an earlier fragment whose results are not written (R289). -/
def slotHeld (rc : Recipe) (c : LoafCtx) (k : Packet) : Bool :=
  match tabGet? c.slots (xFrag k % Nat.max 1 rc.window) with
  | some sl => sl.full && sl.frag != xFrag k && rc.pattern != patBarrier
  | none => false

/-- The unit of a context is disabled by command: a new loaf is aborted at its first contribution (R305). -/
def startLoaf (key : Nat) (h : Held) (k : Packet) (errs : List LineError) (s : State) : State :=
  let s1 := beginLoaf key h (xLoafSeq k) s
  match loafCtx s1 key with
  | some c => if s1.start.cfg.kneadOff.contains c.knead then abortCtx key 5 s1 else accept1 key h k errs s1
  | none => s1

/-- The slice whose copy of the context index a delivered packet meets. -/
def deliveredSlice (s : State) (d : Delivered) : Nat := (d.inPort.map (· / 256)).getD (liveSlice s)

/-- A delivered contribution waits while the spill share holds back an operation that its context needs on the Granary, or
while the slot it needs is held (R289, R302; 07 Table 7.5). -/
def mustWait (s : State) (h : Held) (c : LoafCtx) (k : Packet) : Bool :=
  ((!c.sram || (h.recipe.pattern == patGather && !h.recipe.all)) && !spillMay s) ||
    (c.seq == xLoafSeq k && slotHeld h.recipe c k)

/-- A contribution in staging SRAM reaches its context. One whose slots lie in the Granary waits for the spill share,
and one whose slot is held until its results are written waits for that. -/
def execContributionRx (errs : List LineError) (s : State) : Host.Outcome State Fault Refusal :=
  .next (match takeDelivered 1 s with
  | none => s
  | some (d, s1) =>
    let k := d.pkt
    let key := ctxKey (xGid k) (xPortion k)
    match loafCtx s key with
    | none => countSlice (deliveredSlice s d) 12 s1
    | some c =>
      match held s (xGid k) c.recipeId with
      | none => countSlice (deliveredSlice s d) 12 s1
      | some h =>
        if mustWait s h c k then s
        else
          match relationOf h.closing c (xLoafSeq k) with
          | .behind => countKnead c.knead 2 1 s1
          | .current => accept1 key h k errs s1
          | .begins => startLoaf key h k errs s1
          | .abandons => startLoaf key h k errs (countKnead c.knead 3 1 s1))

/-! ## Results (R287, R289, R290) -/

/-- A result packet: LSTATUS DONE; `member` and unicast, or a delivery group. -/
def resultPacket (s : State) (g : Group) (rc : Recipe) (portion seq frag : Nat) (mcast : Bool) (dest member : Nat)
    (payload : List Byte) : Packet :=
  let o : Origination := {
    kind := 3, cls := if rc.pattern = patBarrier then 0 else 1, dest := dest, mcast := mcast, spineDst := false,
    pid := g.pid, epoch := rc.epoch, entropy := (portion + frag) % 256, first := true, last := true, nospray := false,
    ext := [wordOf [at_ 31 12 rc.gid, at_ 11 0 portion], w32 seq, wordOf [at_ 31 15 member],
      wordOf [at_ 31 16 rc.signature, at_ 15 0 frag]],
    payload := payload }
  madePacket s o

/-- The packets that carry a payload to every member. -/
def toEveryMember (s : State) (g : Group) (rc : Recipe) (portion seq frag : Nat) (payload : List Byte) : List Packet :=
  if g.delivery.isEmpty then
    (g.members.zipIdx).map (fun m => resultPacket s g rc portion seq frag false m.1 m.2 payload)
  else g.delivery.map (fun d => resultPacket s g rc portion seq frag true d 0 payload)

/-- The result packets of a completed slot (Table 8.9). -/
def slotPackets (s : State) (g : Group) (rc : Recipe) (portion seq : Nat) (sl : KneadSlot) : List Packet :=
  if rc.pattern = patReduceScatter then
    let frags := recipeFrags rc g.members.length
    let owner := fragIndex rc portion sl.frag * g.members.length / Nat.max 1 frags
    resultPacket s g rc portion seq sl.frag false (g.members.getD owner 0) owner sl.result ::
      toEveryMember s g rc portion seq sl.frag []
  else toEveryMember s g rc portion seq sl.frag sl.result

/-- A result finds no live egress for some member (R220, R217). -/
def resultLost (s : State) (sl : Nat) (k : Packet) : Bool :=
  match (lookup s (slice s sl) k).1 with
  | .lost => true
  | .group => decide (0 < (groupPorts s (slice s sl) k).2)
  | _ => false

/-- A full slot's result goes out; a result that finds no way ends the loaf with ABORT_MEMBER_LOST, and the last fragment's
result ends it complete (R289, R290). -/
def writeResult (gid portion slot : Nat) (c : LoafCtx) (sl : KneadSlot) (h : Held) (g : Group) (s : State) : State :=
  let key := ctxKey gid portion
  let src := kneadSource (c.knead / 8)
  let ks := slotPackets s g h.recipe portion c.seq sl
  let lost := ks.any (resultLost s (sourceSlice s src))
  let s1 := ks.foldl (fun s k => originate src k s) s
  if lost then abortCtx key 1 s1
  else
    let s2 := modCtx key (fun x => { x with slots := tabDel x.slots slot, done := x.done + 1 }) s1
    if c.done + 1 = portionFrags h.recipe g.members.length (portionPos h.recipe portion) then endLoaf key 0 false s2
    else s2

/-- A completed slot's results go into the output pool and the slot is freed; the last one ends the loaf. -/
def execSlotResultWritten (gid portion slot : Nat) (s : State) : Host.Outcome State Fault Refusal :=
  let key := ctxKey gid portion
  .next (match loafCtx s key with
  | none => s
  | some c =>
    match tabGet? c.slots slot, held s gid c.recipeId, group s gid with
    | some sl, some h, some g =>
      if !sl.full || !(waitingOf s (kneadSource (c.knead / 8))).isEmpty then s
      else writeResult gid portion slot c sl h g s
    | _, _, _ => s)

/-- An injected result packet that found no live egress aborts its loaf (R290). -/
def lostResult (k : Packet) (s : State) : State :=
  if pKind k = 3 then
    match loafCtx s (ctxKey (xGid k) (xPortion k)) with
    | some c => if c.seq = xLoafSeq k ∧ !c.fresh ∧ !c.aborted then abortLoaf (xGid k) c.seq 1 s else s
    | none => s
  else s

/-- The packet that left a source's waiting list between `s` and `t`, where it is a result without a way, ends its loaf
(R290). -/
def reportLost (source : Nat) (s t : State) : State :=
  match (waitingOf s source).find? (fun w => !(waitingOf t source).contains w) with
  | some w => if resultLost s w.1.slice w.1.pkt then lostResult w.1.pkt t else t
  | none => t

/-- A waiting injected packet finds room and is queued, or is lost to its loaf; pauses follow their queues (05 R174;
06 R233). -/
def execInjectionWrite (source : Nat) (s : State) : Host.Outcome State Fault Refusal :=
  let s1 := refreshPauses source s
  onUnit (decide (8 ≤ source) && decide (source ≤ 17))
    (match injectNext source s1 with
    | none => s1
    | some t => reportLost source s1 t)

/-! ## Gathering to one member (R302) -/

/-- The contexts of a GATHER here that hold fragments of one loaf; none until every one of them is complete. -/
def gatherReady (s : State) (gid rid : Nat) (rc : Recipe) (n : Nat) : List (Nat × LoafCtx) :=
  let cs := (recipeContexts s gid rid).filter (fun e => !e.2.staged.isEmpty)
  match cs with
  | [] => []
  | c :: _ =>
    if cs.all (fun e => e.2.seq == c.2.seq && e.2.done == portionFrags rc n (portionPos rc e.2.portion)) &&
        (recipeContexts s gid rid).all (fun e => !e.2.staged.isEmpty || portionFrags rc n (portionPos rc e.2.portion) == 0) then cs
    else []

/-- The lowest fragment not yet sent, with its context. -/
def nextGather (cs : List (Nat × LoafCtx)) : Option (Nat × LoafCtx × Nat × Nat) :=
  let all := cs.flatMap (fun e => (e.2.staged.filter (fun f => !e.2.sent.contains f.1)).map (fun f => (e.1, e.2, f.1, f.2.2)))
  all.foldl (fun b x => match b with
    | none => some x
    | some y => if x.2.2.1 < y.2.2.1 then some x else b) none

/-- Acknowledge every staged fragment of a context to its contributor, and forget them. -/
def acknowledgeGather (g : Group) (rc : Recipe) (e : Nat × LoafCtx) (s : State) : State :=
  releaseIdle e.1 (modCtx e.1 (fun x => { x with staged := [], sent := [] })
    (e.2.staged.foldl (fun s f =>
      originate computeSource (resultPacket s g rc e.2.portion e.2.seq (f.1 / rc.parts) false (g.members.getD f.2.1 0) f.2.1 []) s) s))

/-- The next fragment of a gathered result is read from the spill region and sent; after the last one every portion is
acknowledged (R302). -/
def sendGather (gid recipe : Nat) (errs : List LineError) (h : Held) (g : Group) (x : Nat × LoafCtx × Nat × Nat)
    (s : State) : State :=
  let (key, c, frag, len) := x
  let rc := h.recipe
  let o := spillOffset s rc c.portion + frag / rc.parts * elemsBytes rc rc.epf
  let s1 := meetErrors h.spill o len errs (startWork 2 0 len s)
  if rangePoisoned s1 h.spill o len then abortLoaf gid c.seq 7 s1
  else
    let k := resultPacket s1 g rc c.portion c.seq (frag / rc.parts) false (g.members.getD rc.root 0) rc.root
      (readBytes s1 h.spill o len)
    let s2 := originate computeSource k s1
    if resultLost s1 (sourceSlice s1 computeSource) k then abortLoaf gid c.seq 1 s2
    else
      let s3 := modCtx key (fun x => { x with sent := x.sent ++ [frag] }) s2
      if (nextGather (gatherReady s3 gid recipe rc g.members.length)).isNone then
        (gatherReady s3 gid recipe rc g.members.length).foldl (fun s e => acknowledgeGather g rc e s) s3
      else s3

/-- The next staged fragment goes to ROOT; after the last one every contributor is acknowledged. -/
def execGatherSend (gid recipe : Nat) (errs : List LineError) (s : State) : Host.Outcome State Fault Refusal :=
  .next (match held s gid recipe, group s gid with
  | some h, some g =>
    let rc := h.recipe
    let cs := gatherReady s gid recipe rc g.members.length
    match nextGather cs with
    | none => s
    | some x => if !(waitingOf s computeSource).isEmpty || !spillMay s then s else sendGather gid recipe errs h g x s
  | _, _ => s)

/-! ## Spill, restore, staleness (R291, R292, R332) -/

/-- 100 µs have passed without a contribution: a RUNNING context begins to write its slots. -/
def execSpillIdleTimeout (gid portion : Nat) (s : State) : Host.Outcome State Fault Refusal :=
  .next (match loafCtx s (ctxKey gid portion) with
  | some c =>
    let bearing := ((held s gid c.recipeId).map (fun h => decide (0 < sramNeed h.recipe (groupSize s gid)))).getD false
    if c.phase = .running ∧ bearing then modCtx (ctxKey gid portion) (fun x => { x with spilling := true }) s else s
  | none => s)

/-- The slot images of a spill are written to the recipe's spill region, each charged to the spill share (R291). -/
def writeSpill (h : Held) (o : Nat) (imgs : List (Nat × List Byte)) (s : State) : State :=
  imgs.foldl (fun s i => startWork 2 0 (writeCost (o + i.1) i.2.length) (writeBytes h.spill (o + i.1) i.2 s)) s

/-- The last slot image is written: the context is SPILLED and its SRAM counts as free. -/
def execSpillComplete (gid portion : Nat) (s : State) : Host.Outcome State Fault Refusal :=
  let key := ctxKey gid portion
  .next (match loafCtx s key with
  | some c =>
    match held s gid c.recipeId with
    | some h =>
      if c.phase = .running && c.spilling && spillMay s then
        let imgs := spillImages h.recipe (groupSize s gid) c
        countKnead c.knead 8 1 (modCtx key (fun x => { x with phase := .spilled, sram := false, spilling := false })
          (writeSpill h (spillOffset s h.recipe portion) imgs s))
      else s
    | none => s
  | none => s)

/-- The SRAM of a SPILLED context is free: its slots are restored. -/
def execSpillRestore (gid portion : Nat) (errs : List LineError) (s : State) : Host.Outcome State Fault Refusal :=
  let key := ctxKey gid portion
  .next (match loafCtx s key with
  | some c =>
    match held s gid c.recipeId with
    | some h =>
      if !c.sram && c.phase != .idle && sramRoom s h.recipe c && spillMay s then restoreSlots key h.recipe h.spill errs s else s
    | none => s
  | none => s)

/-- The staleness timer of a context expires. -/
def execLoafStalenessExpiry (gid portion : Nat) (s : State) : Host.Outcome State Fault Refusal :=
  let key := ctxKey gid portion
  .next (match loafCtx s key with
  | some c =>
    if c.phase = .idle then s
    else abortCtx key 3 (staleCrumb 0 key (((group s gid).map (·.pid)).getD 0) s)
  | none => s)

/-- The oldest ABORT from another spine (R296). -/
def execAbortRx (s : State) : Host.Outcome State Fault Refusal :=
  .next (match takeDelivered 6 s with
  | none => s
  | some (d, s1) =>
    match abortTargets s1 (xAbortGid d.pkt) (xAbortSeq d.pkt) with
    | [] => countControl 9 s1
    | ts => ts.foldl (fun s e => endLoaf e.1 (xCstatus d.pkt % 8) true s) s1)

/-- A word of staging SRAM is in error: corrected and counted, or fatal to the loaf whose context it belongs to. -/
def execStagingSramError (unit : Nat) (context : Option Nat) (double : Bool) (s : State) : Host.Outcome State Fault Refusal :=
  onUnit (decide (unit < 64))
    (if !double then countKnead unit 7 1 s
    else
      match context.bind (loafCtx s) with
      | some _ => abortCtx (context.getD 0) 7 s
      | none => count (counterId (0x30 + unit / 8) 2 2) 1 s)

end Sys2Proof.Machine
end

