-- ==== Sys2Proof/Machine/Notices.lean ====
section
/-! DEFINITION. Opening and closing recipes: reservation at a spine, placement and rounds at the home, the recipe notices
and their timers (08 8.3, 8.10; 12 12.3). -/

namespace Sys2Proof.Machine

/-! ## Reservation (R279, R281, R653; 12 R406) -/

/-- Knead units of a mask, in ascending number. -/
def unitsOf (mask : Nat) : List Nat := maskBits 64 mask

/-- Bytes reserved on one unit. -/
def unitLoad (s : State) (more : List (Nat × Nat)) (u : Nat) : Nat :=
  (((unitsReserved s ++ more).filter (fun x => x.1 == u)).map (·.2)).sum

/-- The unit for the next portion: usable, in the mask, its group with room, the least reserved, the lower number on a
tie. -/
def chooseUnit (s : State) (mask need : Nat) (more : List (Nat × Nat)) : Option Nat :=
  let ok := (unitsOf mask).filter (fun u => kneadUsable s u && decide (sramUsed s more (u / 8) + need ≤ groupSram))
  ok.foldl (fun b u => match b with
    | none => some u
    | some v => if unitLoad s more u < unitLoad s more v then some u else b) none

/-- Units for portions in ascending order; none when one finds no room. -/
def assignUnits (s : State) (mask need : Nat) : List Nat → List (Nat × Nat) → Option (List (Nat × Nat))
  | [], _ => some []
  | p :: ps, more =>
    match chooseUnit s mask need more with
    | none => none
    | some u => (assignUnits s mask need ps (more ++ [(u, need)])).map ((p, u) :: ·)

/-- The recipe number, or a portion, is held or reserved for the group here (R653). -/
def collides (s : State) (rc : Recipe) (portions : List Nat) : Bool :=
  (held s rc.gid rc.recipeId).isSome ||
    s.loaf.reservations.any (fun r => r.recipe.gid == rc.gid &&
      (r.recipe.recipeId == rc.recipeId || r.mine.any (fun m => portions.contains m.1))) ||
    portions.any (fun p => (loafCtx s (ctxKey rc.gid p)).isSome)

/-- Place a spill region under the next free ID. -/
def placeSpill (pid ext : Nat) (id : Option Nat) (s : State) : Option Nat × State :=
  match id with
  | none => (none, s)
  | some r =>
    match placeRegion r pid ext s with
    | (none, s1) => (none, s1)
    | (some m, s1) =>
      let x : Region := {
        kind := .spill, encrypted := false, epRead := false, epWrite := false, epPost := false, pid := pid, keySlot := 0,
        stackSet := m, phase := .ready, extents := ext, pinned := false }
      (some r, addRegion r x s1)

/-- The spill region of a reservation: none needed (0), placed, or refused. -/
def reserveSpill (rc : Recipe) (pid n : Nat) (portions : List Nat) (s : State) : Option Nat × State :=
  let bytes := (portions.map (fun p => spillNeed rc n (portionPos rc p))).sum
  if bytes = 0 then (some 0, s) else placeSpill pid (ceilDiv bytes extentBytes) (freeRegionId s 0xE000 0xFFEF) s

/-- Serve one RESERVE: everything at once, or a refusal. -/
def serveReserve (home opened : Nat) (rc : Recipe) (portions : List Nat) (s : State) : State :=
  let refuse (collision : Nat) (s : State) : State := sendNotice home 0x12 opened rc.gid collision rc.recipeId 0 [] s
  match group s rc.gid with
  | none => refuse 0 s
  | some g =>
    if collides s rc portions then refuse 1 s
    else if (partition s g.pid).fenced || winnowDown s || decide (1024 < portions.length) ||
        decide (16384 < contextsUsed s + portions.length) then refuse 0 s
    else
      let n := g.members.length
      match assignUnits s (policy s g.pid).kneadMask (sramNeed rc n) portions [] with
      | none => refuse 0 s
      | some mine =>
        match reserveSpill rc g.pid n portions s with
        | (none, s1) => refuse 0 s1
        | (some r, s1) =>
          let res : Reservation := { home := home, openId := opened, recipe := rc, mine := mine, spill := r, words := [] }
          sendNotice home 0x11 opened rc.gid 0 rc.recipeId mine.length
            (mine.map (fun m => wordOf [at_ 31 20 m.1, at_ 19 14 m.2]))
            (modLoaf (fun l => { l with reservations := l.reservations ++ [res] }) s1)

/-- The oldest RESERVE. -/
def execReserveRx (s : State) : Host.Outcome State Fault Refusal :=
  .next (match takeNotice 0x10 s with
  | none => s
  | some (k, s1) =>
    serveReserve (senderSid k) (noticeOpen k) (recipeOf (noticeWords k 0 10))
      ((noticeWords k 10 (noticeEntries k)).map (fun w => fld w 31 20)) s1)

/-- Drop the reservation of an open, freeing its spill space. -/
def dropReservation (home opened : Nat) (s : State) : State :=
  modLoaf (fun l => { l with reservations := l.reservations.filter (fun r => !(r.home == home && r.openId == opened)) })
    ((s.loaf.reservations.filter (fun r => r.home == home && r.openId == opened)).foldl (fun s r => freeSpill r.spill s) s)

def findReservation (s : State) (home opened : Nat) : Option Reservation :=
  s.loaf.reservations.find? (fun r => r.home == home && r.openId == opened)

/-- A reservation has waited 10 ms for COMMIT or RELEASE. -/
def execReservationExpiry (home opened : Nat) (s : State) : Host.Outcome State Fault Refusal :=
  .next (match findReservation s home opened with
  | some r => raise31 0x0501 [r.recipe.gid, r.recipe.recipeId] (dropReservation home opened s)
  | none => s)

/-- The contexts of a committed reservation become valid and idle. -/
def commitContexts (r : Reservation) (s : State) : State :=
  r.mine.foldl (fun s m =>
    let c : LoafCtx := {
      index := freeContext s, recipeId := r.recipe.recipeId, portion := m.1, knead := m.2, phase := .idle, fresh := true,
      seq := 0, aborted := false, lstatus := 0, live := 0, done := 0, slots := [], sram := true, spilling := false,
      staged := [], sent := [] }
    modLoaf (fun l => { l with contexts := tabPut l.contexts (ctxKey r.recipe.gid m.1) c }) s) s

/-- The portion words a reservation holds once a COMMIT's words are laid in, from the first portion it names (R279). -/
def commitWords (k : Packet) (r : Reservation) : Tab Word :=
  ((noticeWords k 11 (noticeEntries k)).zipIdx).foldl (fun t x => tabPut t ((payloadWord k 13).toNat + x.2) x.1) r.words

/-- The last COMMIT makes the reservation a held recipe, its contexts ready, and answers COMMITTED (R279). -/
def commitRecipe (k : Packet) (r : Reservation) (s : State) : State :=
  let home := senderSid k
  let opened := noticeOpen k
  let ws := commitWords k r
  let rc := { r.recipe with map := ws.map (fun w => (fld w.2 31 19, fld w.2 18 13)) }
  let h : Held := {
    recipe := rc, openId := opened, spill := r.spill, closers := [], closing := false, pinned := [] }
  let s2 := modLoaf (fun l => { l with
    reservations := l.reservations.filter (fun x => !(x.home == home && x.openId == opened)),
    recipes := tabPut l.recipes (recipeKey rc.gid rc.recipeId) h }) s
  sendNotice home 0x14 opened rc.gid 0 rc.recipeId 0 [] (commitContexts { r with words := ws, recipe := rc } s2)

/-- The oldest COMMIT: its portion words are kept; with the last of them the recipe is held and COMMITTED is answered. -/
def execCommitRx (s : State) : Host.Outcome State Fault Refusal :=
  .next (match takeNotice 0x13 s with
  | none => s
  | some (k, s1) =>
    let home := senderSid k
    let opened := noticeOpen k
    match findReservation s1 home opened with
    | none => sendNotice home 0x12 opened (noticeGid k) 0 (noticeRecipe k) 0 [] s1
    | some r =>
      if (commitWords k r).length < r.recipe.parts then
        modLoaf (fun l => { l with
          reservations := l.reservations.map
            (fun x => if x.home = home ∧ x.openId = opened then { r with words := commitWords k r } else x) }) s1
      else commitRecipe k r s1)

/-- The recipe opened here under a home's OPEN_ID. -/
def openedHere (s : State) (home opened gid rid : Nat) : Bool :=
  match held s gid rid with
  | some h => h.recipe.home == home && h.openId == opened
  | none => false

/-- The oldest RELEASE: the open's reservation or recipe is dropped, or the notice counted. -/
def execReleaseRx (s : State) : Host.Outcome State Fault Refusal :=
  .next (match takeNotice 0x15 s with
  | none => s
  | some (k, s1) =>
    let home := senderSid k
    if (findReservation s1 home (noticeOpen k)).isSome then dropReservation home (noticeOpen k) s1
    else if openedHere s1 home (noticeOpen k) (noticeGid k) (noticeRecipe k) then
      releaseRecipe (noticeGid k) (noticeRecipe k) s1
    else countControl 10 s1)

/-! ## The home's own view (R405, Table 12.5) -/

/-- Free staging in bytes, over the groups with a usable unit. -/
def freeStaging (s : State) : Nat :=
  ((List.range 8).map (fun g => if (List.range 8).any (fun i => kneadUsable s (8 * g + i)) then sramFree s g else 0)).sum

/-- This spine's state as the summary it would send now. -/
def ownSummary (s : State) : Summary :=
  { staging := freeStaging s / 4096, contexts := 16384 - contextsUsed s,
    extents := (((List.range 16).filter (fun g => !s.gran.lostStacks.contains g)).map (freeExtents s)).sum,
    load := s.winnow.load, arrival := nowRef s }

/-- What a decision knows of a spine. -/
def summaryOf (s : State) (sid : Nat) : Option Summary := if ownSid s = some sid then some (ownSummary s) else freshSummary s sid

/-- Insert by ascending KNEAD_LOAD, then ascending SID. -/
def insertSpine (x : Nat × Nat) : List (Nat × Nat) → List (Nat × Nat)
  | [] => [x]
  | y :: ys => if x.1 < y.1 ∨ (x.1 = y.1 ∧ x.2 < y.2) then x :: y :: ys else y :: insertSpine x ys

/-- The candidates of a placement round. -/
def candidateSpines (s : State) (pid : Nat) (j : OpenJob) : List Nat :=
  if !j.params.pins.isEmpty then j.params.pins
  else
    (((policy s pid).spines.filterMap (fun x => match summaryOf s x with
      | some y => if 1 ≤ y.contexts ∧ 1 ≤ y.staging ∧ !j.refused.contains x then some (y.load, x) else none
      | none => none)).foldl (fun l x => insertSpine x l) []).map (·.2)

/-- Ranges of portion numbers of a group that the home knows to be in use or refused (R653). -/
def usedRanges (s : State) (gid opened : Nat) (bad : List (Nat × Nat)) : List (Nat × Nat) :=
  (s.loaf.recipes.filterMap (fun e =>
    if e.1 / 65536 = gid ∧ ownSid s = some e.2.recipe.home then some (e.2.recipe.base, e.2.recipe.parts) else none)) ++
  (s.loaf.contexts.filterMap (fun e => if e.1 / 4096 = gid then some (e.2.portion, 1) else none)) ++
  (s.loaf.reservations.flatMap (fun r => if r.recipe.gid = gid then r.mine.map (fun m => (m.1, 1)) else [])) ++
  (s.loaf.opens.filterMap (fun e =>
    if e.2.recipe.gid = gid ∧ e.1 ≠ opened then some (e.2.recipe.base, e.2.recipe.parts) else none)) ++ bad

def usedIds (s : State) (gid opened : Nat) (bad : List Nat) : List Nat :=
  (s.loaf.recipes.filterMap (fun e => if e.1 / 65536 = gid then some (e.1 % 65536) else none)) ++
  (s.loaf.reservations.filterMap (fun r => if r.recipe.gid = gid then some r.recipe.recipeId else none)) ++
  (s.loaf.opens.filterMap (fun e => if e.2.recipe.gid = gid ∧ e.1 ≠ opened then some e.2.recipe.recipeId else none)) ++ bad

/-- The free runs of portion numbers: start and length, in ascending order. -/
def freeRuns (used : List (Nat × Nat)) : List (Nat × Nat) :=
  (((List.range 4096).map (fun i => used.any (fun r => decide (r.1 ≤ i) && decide (i < r.1 + r.2)))).zipIdx.foldl (fun a x =>
    if x.1 then (a.1, none)
    else
      match a.2 with
      | none => (a.1 ++ [(x.2, 1)], some ())
      | some _ => (a.1.dropLast ++ (a.1.getLast?.map (fun r => (r.1, r.2 + 1))).toList, some ())) (([] : List (Nat × Nat)), (none : Option Unit))).1

/-- Release the spines that reserved in a round. -/
def releaseSpines (opened : Nat) (rc : Recipe) (sids : List Nat) (s : State) : State :=
  sids.foldl (fun s x => sendNotice x 0x15 opened rc.gid 0 rc.recipeId 0 [] s) s

def modOpen (opened : Nat) (f : OpenJob → OpenJob) (s : State) : State :=
  modLoaf (fun l => { l with opens := tabMap (fun k j => if k = opened then f j else j) l.opens }) s

/-- End an open without a recipe. -/
def failOpen (opened : Nat) (st : Status) (s : State) : State :=
  match tabGet? s.loaf.opens opened with
  | some j => finish j.origin st [] (modLoaf (fun l => { l with opens := tabDel l.opens opened }) s)
  | none => s

/-- P of a round: the pinned one, else as R405 computes it. -/
def choosePortions (j : OpenJob) (n cands longest : Nat) : Nat :=
  if j.params.pinP ≠ 0 then j.params.pinP
  else Nat.min (recipeFrags j.recipe n) (Nat.min (64 * cands) longest)

/-- The parts of R275 and R405 that depend on P. -/
def portionsInvalid (rc : Recipe) (n p cands : Nat) : Bool :=
  let f := recipeFrags rc n
  decide (f < p) || decide (65536 < ceilDiv f (Nat.max 1 p)) || decide (1024 * cands < p) || decide (4096 < p)

/-- One placement round of an open: candidates, P, numbers, RESERVE to each spine (R405, Table 8.6 step 2). -/
def placeRound (opened : Nat) (s : State) : State :=
  match tabGet? s.loaf.opens opened with
  | none => s
  | some j =>
    let pid := ((group s j.recipe.gid).map (·.pid)).getD 0
    let n := groupSize s j.recipe.gid
    let subject := wordOf [at_ 31 12 j.recipe.gid]
    let cands := candidateSpines s pid j
    let runs := freeRuns (usedRanges s j.recipe.gid opened j.badRanges)
    let p := choosePortions j n cands.length (runs.foldl (fun a r => Nat.max a r.2) 0)
    let ids := usedIds s j.recipe.gid opened j.badIds
    let reason := if (policy s pid).spines.any (fun x => (summaryOf s x).isSome) then 2 else 5
    if cands.isEmpty then failOpen opened .resource (noChoice pid subject reason true s)
    else if p ≠ 0 && portionsInvalid j.recipe n p cands.length then failOpen opened .invalid s
    else
      match runs.find? (fun r => decide (0 < p) && decide (p ≤ r.2)),
          (List.range 65536).find? (fun i => !ids.contains i) with
      | some run, some rid =>
        let used := cands.take (Nat.min cands.length p)
        let rc0 := { j.recipe with
          recipeId := rid, base := run.1, parts := p, epoch := (partition s pid).epoch,
          map := (List.range p).map (fun i => (used.getD (i % used.length) 0, 0)) }
        let rc := { rc0 with signature := recipeSignature rc0 }
        let s1 := writeDecision 1 pid subject (wordOf [at_ 31 16 rid, at_ 12 0 p]) (w32 used.length)
          (if j.params.pins.isEmpty && j.params.pinP == 0 then 0 else 4) s
        let s2 := modOpen opened (fun x => { x with recipe := rc, waiting := used, reserved := [], failed := false }) s1
        used.foldl (fun s x =>
          let mine := ((rc.map.zipIdx).filter (fun m => m.1.1 == x)).map (fun m => rc.base + m.2)
          sendNotice x 0x10 opened rc.gid 0 rid mine.length (recipeWords rc ++ mine.map (fun m => wordOf [at_ 31 20 m])) s) s2
      | _, _ => failOpen opened .resource (noChoice pid subject 2 true s)

/-- COMMIT to every spine of the map, in notices of at most 2,032 portion words. -/
def sendCommits (opened : Nat) (rc : Recipe) (s : State) : State :=
  let ws := rc.map.map portionWord
  (mapSids rc).foldl (fun s x =>
    ((chunks 2032 ws).zipIdx).foldl (fun s c =>
      sendNotice x 0x13 opened rc.gid 0 rc.recipeId c.1.length (recipeWords rc ++ [w32 (2032 * c.2)] ++ c.1) s) s) s

/-- Every spine of a round has answered: commit, or release and try again, three rounds in all (Table 8.6). -/
def settleRound (opened : Nat) (s : State) : State :=
  match tabGet? s.loaf.opens opened with
  | none => s
  | some j =>
    if !j.waiting.isEmpty || j.committing then s
    else if j.failed then
      let s1 := releaseSpines opened j.recipe j.reserved s
      if j.round = 2 then failOpen opened .resource s1
      else placeRound opened (modOpen opened (fun x => { x with round := x.round + 1 }) s1)
    else
      sendCommits opened j.recipe (modOpen opened (fun x => { x with committing := true, waiting := mapSids j.recipe }) s)

/-- An opening after a spine's RESERVED: the spine no longer waited for, and the units it named for its portions noted
(R279). -/
def noteReserved (sid : Nat) (units : List (Nat × Nat)) (x : OpenJob) : OpenJob :=
  { x with
    waiting := x.waiting.filter (· != sid), reserved := x.reserved ++ [sid],
    recipe := { x.recipe with map := (x.recipe.map.zipIdx).map (fun m =>
      if m.1.1 = sid then (sid, ((units.find? (fun u => u.1 == x.recipe.base + m.2)).map (·.2)).getD m.1.2)
      else m.1) } }

/-- The oldest RESERVED: recorded with its units, or released because it came too late. -/
def execReservedRx (s : State) : Host.Outcome State Fault Refusal :=
  .next (match takeNotice 0x11 s with
  | none => s
  | some (k, s1) =>
    let sid := senderSid k
    let opened := noticeOpen k
    let late := sendNotice sid 0x15 opened (noticeGid k) 0 (noticeRecipe k) 0 [] s1
    match tabGet? s1.loaf.opens opened with
    | none => late
    | some j =>
      if j.committing || !j.waiting.contains sid || j.recipe.recipeId != noticeRecipe k then late
      else
        let units := (noticeWords k 0 (noticeEntries k)).map (fun w => (fld w 31 20, fld w 19 14))
        settleRound opened (modOpen opened (noteReserved sid units) s1))

/-- A spine has refused an open, by collision or otherwise. -/
def refuseBy (opened sid : Nat) (collision : Bool) (s : State) : State :=
  settleRound opened (modOpen opened (fun x => { x with
    waiting := x.waiting.filter (· != sid), failed := true,
    refused := if collision then x.refused else x.refused ++ [sid],
    badIds := if collision then x.badIds ++ [x.recipe.recipeId] else x.badIds,
    badRanges := if collision then x.badRanges ++ [(x.recipe.base, x.recipe.parts)] else x.badRanges }) s)

/-- The oldest REFUSED: the round fails; in answer to COMMIT the open ends RESOURCE. -/
def execRefusedRx (s : State) : Host.Outcome State Fault Refusal :=
  .next (match takeNotice 0x12 s with
  | none => s
  | some (k, s1) =>
    let sid := senderSid k
    let opened := noticeOpen k
    match tabGet? s1.loaf.opens opened with
    | none => s1
    | some j =>
      if !j.waiting.contains sid || j.recipe.recipeId != noticeRecipe k then s1
      else if j.committing then failOpen opened .resource (releaseSpines opened j.recipe (mapSids j.recipe) s1)
      else refuseBy opened sid (noticeCollision k) s1)

/-- 5 ms after RESERVE a spine has not answered. -/
def execReserveAnswerTimeout (opened sid : Nat) (s : State) : Host.Outcome State Fault Refusal :=
  .next (match tabGet? s.loaf.opens opened with
  | some j => if !j.committing && j.waiting.contains sid then refuseBy opened sid false s else s
  | none => s)

/-- Every spine has answered COMMITTED: the opening ends, the recipe stands with its pins, and the command answers OK with
the recipe and its portions (R279). -/
def openComplete (opened : Nat) (j : OpenJob) (s : State) : State :=
  let rc := j.recipe
  let pins := j.params.pins
  let s2 := modLoaf (fun l => { l with opens := tabDel l.opens opened }) s
  let s3 := match held s2 rc.gid rc.recipeId with
    | some _ => modHeld rc.gid rc.recipeId (fun h => { h with pinned := pins }) s2
    | none =>
      let h : Held := {
        recipe := rc, openId := opened, spill := 0, closers := [], closing := false, pinned := pins }
      modLoaf (fun l => { l with recipes := tabPut l.recipes (recipeKey rc.gid rc.recipeId) h }) s2
  finish j.origin .ok (recipeWords rc ++ rc.map.map portionWord)
    (traceCrumb 2 0xF103 (((group s3 rc.gid).map (·.pid)).getD 0) rc.gid (rc.recipeId * 65536 + rc.parts) s3)

/-- The oldest COMMITTED: with the last one the open completes with the recipe record. -/
def execCommittedRx (s : State) : Host.Outcome State Fault Refusal :=
  .next (match takeNotice 0x14 s with
  | none => s
  | some (k, s1) =>
    let opened := noticeOpen k
    match tabGet? s1.loaf.opens opened with
    | none => s1
    | some j =>
      if !j.committing then s1
      else
        let left := j.waiting.filter (· != senderSid k)
        if !left.isEmpty then modOpen opened (fun x => { x with waiting := left }) s1
        else openComplete opened j s1)

/-- 5 ms after COMMIT some COMMITTED is missing. -/
def execCommitTimeout (opened : Nat) (s : State) : Host.Outcome State Fault Refusal :=
  .next (match tabGet? s.loaf.opens opened with
  | some j => if j.committing then failOpen opened .timeout (releaseSpines opened j.recipe (mapSids j.recipe) s) else s
  | none => s)

/-! ## Closing (R304) -/

/-- The oldest CLOSE: the contexts here drain; a recipe not held is answered at once. -/
def execCloseRx (s : State) : Host.Outcome State Fault Refusal :=
  .next (match takeNotice 0x16 s with
  | none => s
  | some (k, s1) =>
    let sid := senderSid k
    match held s1 (noticeGid k) (noticeRecipe k) with
    | none => sendNotice sid 0x17 (noticeOpen k) (noticeGid k) 0 (noticeRecipe k) 0 [] s1
    | some h =>
      let again := h.closers.contains (sid, noticeOpen k)
      closeHere (noticeGid k) (noticeRecipe k) (if again then [] else [(sid, noticeOpen k)]) s1)

/-- The oldest CLOSED. -/
def execClosedRx (s : State) : Host.Outcome State Fault Refusal :=
  .next (match takeNotice 0x17 s with
  | none => s
  | some (k, s1) => closedBy (noticeOpen k) (senderSid k) s1)

/-- CLOSE to every other spine that a job waits for. -/
def sendCloses (jid : Nat) (s : State) : State :=
  match tabGet? s.loaf.closes jid with
  | none => s
  | some j => (j.waiting.filter (fun x => ownSid s != some x)).foldl (fun s x =>
      sendNotice x 0x16 jid j.gid 0 j.recipeId 0 [w32 j.grace] s) s

/-- A command of a mailbox is still outstanding. -/
def stillOutstanding (s : State) (o : Origin) : Bool := (mailbox s o.mailbox).outstanding.any (fun c => c.seq == o.seq)

/-- Every 5 ms CLOSE is repeated, until every spine has closed or the command has ended. -/
def execCloseRepeatTick (job : Nat) (s : State) : Host.Outcome State Fault Refusal :=
  .next (match tabGet? s.loaf.closes job with
  | none => s
  | some j =>
    if !stillOutstanding s j.origin then modLoaf (fun l => { l with closes := tabDel l.closes job }) s
    else sendCloses job (settleClose job s))

/-! ## Disabled units and grace times (R304, R305) -/

/-- Abort the loafs of some contexts at the end of a grace time, each with its crumb record. -/
def graceAbort (cs : List (Nat × LoafCtx)) (s : State) : State :=
  cs.foldl (fun s e =>
    match loafCtx s e.1 with
    | some c =>
      if c.seq = e.2.seq ∧ loafRunning c then
        abortLoaf (e.1 / 4096) c.seq 6 (graceCrumb 0 e.1 (((group s (e.1 / 4096)).map (·.pid)).getD 0) s)
      else s
    | none => s) s

/-- A Knead reset's grace ends: what still runs on the engine is aborted, and the command answers OK where nothing did,
else ABORTED (R305). -/
def expireKnead (j : Origin × List Nat) (s : State) : State :=
  let s1 := modLoaf (fun l => { l with kneadJobs := l.kneadJobs.filter (fun x => x.1 != j.1) }) s
  let rest := (runningOn s1 j.2).isEmpty
  finish j.1 (if rest then .ok else .aborted) [] (graceAbort (runningOn s1 j.2) s1)

/-- A grace time ends with loafs still running: they abort with ABORT_COMMAND, and a disabling command ends ABORTED. -/
def execLoafGraceExpiry (target : LoafGrace) (s : State) : Host.Outcome State Fault Refusal :=
  .next (match target with
  | .close gid recipe =>
    if ((held s gid recipe).map (·.closing)).getD false then
      graceAbort ((recipeContexts s gid recipe).filter (fun e => loafRunning e.2)) s
    else s
  | .knead mb seq =>
    match s.loaf.kneadJobs.find? (fun j => j.1.mailbox == mb && j.1.seq == seq) with
    | none => s
    | some j => expireKnead j s)

end Sys2Proof.Machine
end

