-- ==== Sys2Proof/Machine/LoafCmd.lean ====
section
/-! DEFINITION. The LOAF group of commands, and the barrier bound of a group (08; 14 R461, R462; 16 Table 16.5). -/

namespace Sys2Proof.Machine

/-! ## Groups (R268 to R271) -/

/-- A group of this GID has an open recipe here. -/
def hasRecipe (s : State) (gid : Nat) : Bool :=
  s.loaf.recipes.any (fun e => e.1 / 65536 == gid) || s.loaf.reservations.any (fun r => r.recipe.gid == gid) ||
    s.loaf.opens.any (fun e => e.2.recipe.gid == gid)

/-- What a delivery group is in a slice: its entry's form, row, bitmap and partition; none when undefined. -/
def deliveryForm (sl : Slice) (d : Nat) : Option (Nat × Nat × Nat × Nat) :=
  match tabGet? sl.groups d with
  | some g =>
    if fld g.1 31 31 = 0 then none
    else if fld g.1 30 30 = 0 then some (0, fld g.1 29 19, 0, fld g.2 31 20)
    else some (1, fld g.1 18 10, tabGet zeroTab sl.bitmaps (fld g.2 19 8), fld g.2 31 20)
  | none => none

/-- An address lies in a delivery group (R269). -/
def inDelivery (f : Nat × Nat × Nat × Nat) (a : Nat) : Bool :=
  if f.1 = 0 then a / 512 == f.2.1 else a % 512 == f.2.1 && testBitN f.2.2.1 (a / 512)

/-- The delivery groups serve: defined alike in all slices, of the partition, each member in exactly one (R269). -/
def deliveryOk (s : State) (pid : Nat) (delivery members : List Nat) : Bool :=
  let forms := delivery.map (fun d => (List.range 8).map (fun i => deliveryForm (slice s i) d))
  let same := forms.all (fun fs => fs.all (fun f => f.isSome && f == fs.getD 0 none && (f.map (·.2.2.2)) == some pid))
  let fs := forms.filterMap (fun x => x.getD 0 none)
  delivery.isEmpty || (same && members.all (fun a => (fs.filter (fun f => inDelivery f a)).length == 1))

/-- No address appears twice. -/
def noRepeat (l : List Nat) : Bool := (distinct l).length == l.length

/-- LOAF.GROUP_DEFINE. -/
def execLoafGroupDefine (o : Origin) (gid pid : Nat) (delivery members : List Nat) (s : State) : Host.Outcome State Fault Refusal :=
  .next (runCommand o 0x0501 (fun s =>
    let n := members.length
    if 2 ^ 20 ≤ gid ∨ pid = 0 ∨ 0xFFF ≤ pid ∨ !(partition s pid).defined ∨ n = 0 ∨ 131072 < n ∨ 64 < delivery.length ∨
        members.any (fun m => decide (2 ^ 20 ≤ m)) then failWith .invalid s
    else if hasRecipe s gid then failWith .conflict s
    else if !noRepeat members || !deliveryOk s pid delivery members then failWith .invalid s
    else
      let b := barrierBound s pid members
      if boundExceeded s pid b then failWith .resource s
      else
        let g : Group := {
          pid := pid, members := members, live := 2 ^ n - 1, changes := [], delivery := delivery, boundTold := false }
        .done .ok [w32 b] (modLoaf (fun l => { l with groups := tabPut l.groups gid g }) s)) s)

/-- LOAF.GROUP_DELETE. -/
def execLoafGroupDelete (o : Origin) (gid : Nat) (s : State) : Host.Outcome State Fault Refusal :=
  .next (runCommand o 0x0502 (fun s =>
    if (group s gid).isNone then failWith .invalid s
    else if hasRecipe s gid then failWith .conflict s
    else okWith (modLoaf (fun l => { l with groups := tabDel l.groups gid }) s)) s)

/-- The mask that LIVE words spell: member 0 in bit 31 of the first. -/
def liveMask (n : Nat) (ws : List Word) : Nat :=
  maskOf ((List.range n).filter (fun i => ((ws.getD (i / 32) 0).toNat / 2 ^ (31 - i % 32)) % 2 == 1))

/-- LOAF.LIVE. -/
def execLoafLive (o : Origin) (gid se : Nat) (live : List Word) (s : State) : Host.Outcome State Fault Refusal :=
  .next (runCommand o 0x0503 (fun s =>
    match group s gid with
    | none => failWith .invalid s
    | some g =>
      if live.length ≠ ceilDiv g.members.length 32 ∨ 2 ^ 32 ≤ se then failWith .invalid s
      else
        let g1 := { g with changes := g.changes ++ [(se, liveMask g.members.length live)] }
        okWith (modLoaf (fun l => { l with groups := tabPut l.groups gid g1 }) s)) s)

/-! ## Opening (R272 to R280) -/

/-- The default EPF: the largest multiple of 32 whose payload fits 8,192 bytes (Table 8.4). -/
def defaultEpf (rc : Recipe) : Nat :=
  ((List.range 511).map (fun i => 32 * (511 - i))).find? (fun n =>
    decide (elemsBytes rc n + (if rc.op = opWsum then 8 else 0) ≤ 8192)) |>.getD 0

/-- The formats that an operation accepts in its mode (09 Tables 9.2, 9.4). -/
def formatsOk (op dtype : Nat) (ordered : Bool) : Bool :=
  match formatOf dtype with
  | none => false
  | some f =>
    let isInt := match f.kind with
      | .int _ => true
      | _ => false
    if op = 0 then true
    else if dtype = 0 then false
    else if ordered then [0x12, 0x13, 0x14, 0x15].contains dtype
    else if op = 1 ∨ op = 2 then true
    else if op = 3 then !isInt && dtype != 0x15
    else if op = 4 ∨ op = 5 then true
    else if isArg op then !f.mx
    else isBitwise op && isInt

/-- The rules of R273, R314 and R318 on pattern, operation, mode, format and rounding. -/
def comboOk (p : OpenParams) : Bool :=
  decide (p.pattern ≤ 4) && decide (p.round ≤ 3) && formatsOk p.op p.dtype p.ordered &&
    (if p.pattern ≤ 1 then decide (1 ≤ p.op) && decide (p.op ≤ 11) else p.op == 0) &&
    (!p.ordered || [1, 2, 3, 11].contains p.op) && (p.op != opProd || p.ordered) && !(p.ordered && p.round == 3)

/-- The recipe that parameters ask for, before its placement. -/
def openRecipe (s : State) (gid : Nat) (p : OpenParams) : Recipe :=
  let rc : Recipe := {
    recipeId := 0, signature := 0, gid := gid, base := 0, pattern := p.pattern, op := p.op, dtype := p.dtype,
    round := p.round, ordered := p.ordered, all := p.all, parts := 0, epf := p.epf, window := p.window,
    elements := p.elements, root := p.root, stale := if p.stale = 0 then 1000000 else p.stale,
    home := (ownSid s).getD 0, epoch := 0, map := [] }
  if p.epf = 0 then { rc with epf := defaultEpf rc } else rc

/-- The refusals of R275, R276 and the ranges of Table 8.3. -/
def openInvalid (rc : Recipe) (p : OpenParams) (n : Nat) : Bool :=
  !comboOk p || decide (16 < p.window) || p.window == 0 || rc.epf % 32 != 0 || decide (2 ^ 14 ≤ rc.epf) ||
    (rc.pattern != patBarrier && (rc.epf == 0 || decide (8192 < elemsBytes rc rc.epf + (if rc.op = opWsum then 8 else 0)))) ||
    decide (2 ^ 64 ≤ rc.elements) || ((rc.pattern == patBcast || rc.pattern == patGather) && decide (n ≤ rc.root)) ||
    !(decide (10 ≤ rc.stale) && decide (rc.stale ≤ 60000000)) || recipeFrags rc n == 0 ||
    (rc.pattern == patReduceScatter && recipeFrags rc n % n != 0) ||
    (p.pinP != 0 && (decide (recipeFrags rc n < p.pinP) || decide (65536 < ceilDiv (recipeFrags rc n) p.pinP) ||
      decide (4096 < p.pinP)))

/-- LOAF.OPEN: refused at once (R275, R276), or the first round of placement asks the map's switches (R279, R280). -/
def execLoafOpen (o : Origin) (gid : Nat) (params : OpenParams) (s : State) : Host.Outcome State Fault Refusal :=
  let s1 := runCommand o 0x0504 (fun s =>
    match group s gid with
    | none => failWith .invalid s
    | some g =>
      let rc := openRecipe s gid params
      if !mayReach o g.pid s then failWith .denied s
      else if openInvalid rc params g.members.length ||
          params.pins.any (fun x => !(policy s g.pid).spines.contains x) then failWith .invalid s
      else if winnowDown s then failWith .notReady s
      else if (partition s g.pid).fenced then failWith .epoch s
      else if (policy s g.pid).spines.isEmpty then failWith .resource s
      else
        let j : OpenJob := {
          origin := o, params := params, recipe := rc, round := 0, refused := [], badIds := [], badRanges := [],
          waiting := [], reserved := [], failed := false, committing := false }
        .later (modLoaf (fun l => { l with
          opens := tabPut l.opens l.nextOpen j, nextOpen := (l.nextOpen + 1) % 2 ^ 24 }) s)) s
  .next (if s1.loaf.nextOpen = s.loaf.nextOpen then s1 else placeRound s.loaf.nextOpen s1)

/-! ## Closing, aborting, disabling -/

/-- A close that began goes to the map's switches and takes effect here; the fabric manager's close of a recipe with a
spine gone aborts the running loaf first (R301). -/
def beginClose (o : Origin) (jid gid recipe : Nat) (s : State) : State :=
  let gone := ((held s gid recipe).map (fun h => (mapSids h.recipe).any (closeSilent s))).getD false
  let s2 := if gone && !isTenant o then
      (recipeContexts s gid recipe).foldl (fun s e => abortCtx e.1 6 s) s
    else s
  let s3 := sendCloses jid s2
  settleClose jid (closeHere gid recipe (((ownSid s3).map (fun x => (x, jid))).toList) s3)

/-- LOAF.CLOSE (R301, R304). -/
def execLoafClose (o : Origin) (gid recipe grace : Nat) (s : State) : Host.Outcome State Fault Refusal :=
  let s1 := runCommand o 0x0505 (fun s =>
    match group s gid, held s gid recipe with
    | some g, some h =>
      if !mayReach o g.pid s then failWith .denied s
      else if 1000000 < grace then failWith .invalid s
      else if isTenant o && ownSid s != some h.recipe.home then failWith .denied s
      else
        let j : CloseJob := {
          origin := o, gid := gid, recipeId := recipe, grace := grace,
          waiting := distinct (mapSids h.recipe ++ (ownSid s).toList) }
        .laterGrace grace (modLoaf (fun l => { l with
          closes := tabPut l.closes l.nextOpen j, nextOpen := (l.nextOpen + 1) % 2 ^ 24 }) s)
    | _, _ => failWith .invalid s) s
  .next (if s1.loaf.nextOpen = s.loaf.nextOpen then s1 else beginClose o s.loaf.nextOpen gid recipe s1)

/-- LOAF.ABORT. -/
def execLoafAbortCommand (o : Origin) (gid seq : Nat) (s : State) : Host.Outcome State Fault Refusal :=
  .next (runCommand o 0x0506 (fun s =>
    match group s gid with
    | none => failWith .invalid s
    | some g =>
      if !mayReach o g.pid s then failWith .denied s
      else if (abortTargets s gid seq).any (fun e => loafRunning e.2) then okWith (abortLoaf gid seq 6 s)
      else failWith .invalid s) s)

/-- Abort every running loaf of a group. -/
def abortGroup (gid status : Nat) (s : State) : State :=
  (s.loaf.contexts.filter (fun e => e.1 / 4096 == gid && loafRunning e.2)).foldl (fun s e => abortCtx e.1 status s) s

/-- LOAF.MEMBER_LOST. -/
def execLoafMemberLost (o : Origin) (gid member : Nat) (s : State) : Host.Outcome State Fault Refusal :=
  .next (runCommand o 0x0507 (fun s =>
    if member < groupSize s gid then okWith (abortGroup gid 1 s) else failWith .invalid s) s)

/-- LOAF.SIZING. -/
def execLoafSizing (o : Origin) (pid reach limit : Nat) (s : State) : Host.Outcome State Fault Refusal :=
  .next (runCommand o 0x0508 (fun s =>
    if 2100 < reach ∨ (limit ≠ 0 ∧ (limit < 1000 ∨ 1000000000 < limit)) ∨ 0xFFF ≤ pid ∨ !(partition s pid).defined then
      failWith .invalid s
    else
      let x : Sizing := { reach := reach, limit := limit }
      okWith (modLoaf (fun l => { l with sizing := tabSet sizingReset l.sizing pid x }) s)) s)

/-- LOAF.KNEAD: units disabled, waiting for their loafs, or enabled again (R305; 17 R564). -/
def execLoafKnead (o : Origin) (high low : Nat) (enable : Bool) (grace : Nat) (s : State) : Host.Outcome State Fault Refusal :=
  let units := unitsOf (high * 2 ^ 32 + low)
  let s1 := runCommand o 0x0509 (fun s =>
    if 2 ^ 32 ≤ high ∨ 2 ^ 32 ≤ low ∨ 1000000 < grace then failWith .invalid s
    else if enable then okWith (modConfig (fun c => { c with kneadOff := c.kneadOff.filter (fun u => !units.contains u) }) s)
    else
      let s1 := modConfig (fun c => { c with kneadOff := distinct (c.kneadOff ++ units) }) s
      if (runningOn s1 units).isEmpty then okWith s1
      else .laterGrace grace (modLoaf (fun l => { l with kneadJobs := l.kneadJobs ++ [(o, units)] }) s1)) s
  .next s1

/-- LOAF.RECIPES. -/
def execLoafRecipes (o : Origin) (gid : Nat) (s : State) : Host.Outcome State Fault Refusal :=
  .next (runCommand o 0x050A (fun s =>
    match group s gid with
    | none => failWith .invalid s
    | some g =>
      if !mayReach o g.pid s then failWith .denied s
      else .done .ok (countedWords ((s.loaf.recipes.filter (fun e => e.1 / 65536 == gid)).map
        (fun e => [w32 (e.1 % 65536), w32 e.2.recipe.home]))) s) s)

end Sys2Proof.Machine
end

