-- ==== Sys2Proof/Machine/MillOps.lean ====
section
/-! DEFINITION. The Mill: dispatch contexts and tokens, router gates, address generation, the array's arithmetic, programs
(chapter 10). -/

namespace Sys2Proof.Machine

def modMill (f : MillState → MillState) (s : State) : State := { s with mill := f s.mill }

def dctx (s : State) (c : Nat) : Option DispatchCtx := tabGet? s.mill.contexts c

def modDctx (c : Nat) (f : DispatchCtx → DispatchCtx) (s : State) : State :=
  match dctx s c with
  | some x => modMill (fun m => { m with contexts := tabPut m.contexts c (f x) }) s
  | none => s

/-- A counter of the Mill's block 1 (19 Table 19.1). -/
def countMill (item n : Nat) (s : State) : State := count (counterId 0x38 1 item) n s

/-- Bytes of a scalar format's element. -/
def fmtBytes (code : Nat) : Nat := ((formatOf code).map (·.bits)).getD 0 / 8

/-- Parts of a token of d elements, and the length of part j (R351). -/
def partsOf (d fmt : Nat) : Nat := ceilDiv (d * fmtBytes fmt) 8192
def partLen (d fmt j : Nat) : Nat := Nat.min 8192 (d * fmtBytes fmt - 8192 * j)

/-! ## Allocation (R338, R345, R346) -/

/-- Bytes of a page. -/
def pageBytes : Nat := 65536

/-- Bytes allocated to an owner. -/
def millBytes (s : State) (pid : Nat) : Nat := tabGet zeroTab s.mill.pages pid * pageBytes

def tokenBuffer (r : DispatchRec) : Nat := 2 * r.batch * r.d * fmtBytes r.actFmt

def weightBytes (fmt d e : Nat) : Nat := d * e * fmtBytes fmt + 4 * e

/-- Bytes that an owner's token buffers and weight sets occupy, but for one context and one set; a replaced set counts
until its last batch has ended. -/
def millOccupied (s : State) (pid : Nat) (butCtx butSet : Option Nat) : Nat :=
  ((s.mill.contexts.filter (fun c => c.2.record.enable && c.2.record.pid == pid && some c.1 != butCtx)).map
    (fun c => tokenBuffer c.2.record)).sum +
  ((s.mill.weights.filter (fun w => w.2.pid == pid && some w.1 != butSet)).map (fun w => w.2.data.length)).sum +
  ((s.mill.batches.filterMap (·.weights)).filter (fun w => w.pid == pid && !s.mill.weights.any (fun x => x.2 == w))
    |>.map (·.data.length)).sum

/-- The end of an owner's program data: one past the highest byte that is listed. -/
def programEnd (s : State) (pid : Nat) : Nat :=
  (s.mill.sram.filter (fun e => e.1 / 2 ^ 27 == pid)).foldl (fun a e => Nat.max a (e.1 % 2 ^ 27 + 1)) 0

/-! ## Tokens (R349 to R353) -/

/-- A token is named by its origin and TOKEN[31:2]. -/
def tokenIs (origin ident : Nat) (t : Token) : Bool := t.origin == origin && t.ident == ident

def findToken (s : State) (c origin ident : Nat) : Option Token := (dctx s c).bind (fun x => x.tokens.find? (tokenIs origin ident))

def modToken (c origin ident : Nat) (f : Token → Token) (s : State) : State :=
  modDctx c (fun x => { x with tokens := x.tokens.map (fun t => if tokenIs origin ident t then f t else t) }) s

/-- The Knead unit of a token (R353). -/
def tokenUnit (r : DispatchRec) (ident : Nat) : Nat := r.knead + ident % Nat.max 1 r.kcount

/-- A packet of the spine for a token: Table 10.6. -/
def expertPacket (s : State) (c : Nat) (r : DispatchRec) (kind cls dest : Nat) (spine combined : Bool) (t : Token)
    (part expert slot gate : Nat) (payload : List Byte) : Packet :=
  let o : Origination := {
    kind := kind, cls := cls, dest := dest, mcast := false, spineDst := spine, pid := r.pid, epoch := r.epoch,
    entropy := t.entropy, first := true, last := true, nospray := false,
    ext := [wordOf [at_ 31 25 c, at_ 24 24 (bit combined)], w32 (t.ident * 4 + part),
      wordOf [at_ 31 22 expert, at_ 21 19 slot], w32 gate],
    payload := payload }
  madePacket s o

/-- The failure return of a token: combined part 0 of LENGTH 0 (R353). -/
def failureReturn (c : Nat) (r : DispatchRec) (t : Token) (s : State) : State :=
  originate computeSource (expertPacket s c r 7 3 t.origin t.originSpine true t 0 0 0 0 []) s

def modReplicas (c expert : Nat) (f : List Replica → List Replica) (s : State) : State :=
  modDctx c (fun x => { x with replicas := tabMap (fun e l => if e = expert then f l else l) x.replicas }) s

/-- A replica's count falls by one slot (12 R419). -/
def dropCount (c : Nat) (sl : TokenSlot) (s : State) : State :=
  match sl.replica with
  | some a =>
    if sl.counted then
      modReplicas c sl.expert (fun l => l.map (fun r => if r.address = a then { r with outstanding := r.outstanding - 1 } else r)) s
    else s
  | none => s

/-- A program's and a token's remains have gone: commands that waited for that complete (R344, R357). -/
def settleMill (s : State) : State :=
  let s1 := s.mill.contexts.foldl (fun s e =>
    match e.2.draining with
    | some (o, r) =>
      if e.2.tokens.isEmpty then finish o .ok [] (modDctx e.1 (fun x => { x with record := r, draining := none }) s) else s
    | none => s) s
  if s1.mill.contexts.all (fun e => e.2.tokens.isEmpty) && s1.mill.programs.all (fun p => !p.2.running) then
    s1.mill.disabling.foldl (fun s o => finish o .ok [] s) (modMill (fun m => { m with disabling := [] }) s1)
  else s1

/-- Remove a token, giving back its counts; its staging is free with it. -/
def removeToken (c : Nat) (t : Token) (s : State) : State :=
  settleMill (modDctx c (fun x => { x with tokens := x.tokens.filter (fun y => !tokenIs t.origin t.ident y) })
    (t.slots.foldl (fun s sl => dropCount c sl s) s))

/-- A token fails: its staging is released and its origin is told (R353). -/
def failToken (c origin ident : Nat) (s : State) : State :=
  match findToken s c origin ident, dctx s c with
  | some t, some x => removeToken c t (failureReturn c x.record t s)
  | _, _ => s

/-- A token is discarded without any packet. -/
def discardToken (c origin ident : Nat) (s : State) : State :=
  match findToken s c origin ident with
  | some t => removeToken c t s
  | none => s

/-- Fail every token of a context that a test accepts. -/
def failTokens (c : Nat) (p : Token → Bool) (s : State) : State :=
  match dctx s c with
  | some x => (x.tokens.filter p).foldl (fun s t => failToken c t.origin t.ident s) s
  | none => s

/-- Close a batch of the oldest complete tokens (R349); it uses the weight set as it is now (R346). -/
def closeBatch (c : Nat) (s : State) : State :=
  match dctx s c with
  | none => s
  | some x =>
    let ts := (x.tokens.filter (fun t => t.phase == .complete)).take x.record.batch
    if ts.isEmpty then s
    else
      let keys := ts.map (fun t => (t.origin, t.ident))
      let b : Batch := { context := c, tokens := keys, weights := tabGet? s.mill.weights x.record.weightSet }
      modMill (fun m => { m with batches := m.batches ++ [b] })
        (modDctx c (fun y => { y with tokens := y.tokens.map (fun t =>
          if keys.contains (t.origin, t.ident) then { t with phase := .batched } else t) }) s)

/-! ## The array's arithmetic (R335, R336, R337) -/

/-- k indices per k-step of a pair of formats; 0 for FP32, which takes four k-steps per index (Table 10.1). -/
def kPerStep (code : Nat) : Nat :=
  if code = 0x12 ∨ code = 0x13 then 1 else if code = 0x24 then 4 else if code = 0x14 then 0 else 2

/-- The input formats of Table 10.1. -/
def millFormat (code : Nat) : Bool :=
  [0x10, 0x11, 0x12, 0x13, 0x14, 0x20, 0x21, 0x22, 0x23, 0x24, 0x25].contains code

/-- The products of one k-step are summed exactly and added to the accumulator with one rounding (R335). -/
def accumulate (per : Nat) (acc : Nat) (products : List Val) : Nat :=
  (chunks (Nat.max 1 per) products).foldl (fun a ps => toF32 (sumVals 0 (f32 a :: ps))) acc

/-- k-steps of k indices. -/
def kSteps (per k : Nat) : Nat := if per = 0 then 4 * k else ceilDiv k per

/-- The height of a band (R337). -/
def bandOf (d : Nat) : Nat := ([1, 2, 4, 8].find? (fun b => decide (ceilDiv d 32 ≤ b))).getD 8

/-- Passes of a tile (R337). -/
def passesOf (m n : Nat) : Nat :=
  if n ≤ 128 then ceilDiv (ceilDiv m 256) (8 / bandOf n)
  else if m ≤ 128 then ceilDiv (ceilDiv n 256) (8 / bandOf m)
  else ceilDiv m 256 * ceilDiv n 256

/-- Count the k-steps of a tile and the idle cycles that throttling put between them (20 Table 20.11). -/
def countSteps (m n per k : Nat) (s : State) : State :=
  let steps := passesOf m n * kSteps per k
  let d := throttleDepth s 1
  let s1 := countMill 12 steps s
  if d = 0 then s1 else countMill 13 (steps * d / (16 - d)) s1

/-! ## Gates (R347, R348) -/

/-- exp in binary32; the values at infinities and NaN are exact. -/
def expOf (a : Nat) : Nat :=
  match f32 a with
  | .nan => nanBits fp32
  | .inf false => toF32 (.inf false)
  | .inf true => 0
  | _ => Config.expF32 a

def oneF32 : Nat := 0x3F800000
def subF32 (a b : Nat) : Nat := addF32 a (negF32 b)

/-- 1 / (1 + exp(−a)). -/
def sigmoidF32 (a : Nat) : Nat :=
  match f32 a with
  | .nan => nanBits fp32
  | _ => divF32 oneF32 (addF32 oneF32 (expOf (negF32 a)))

/-- Sum of binary32 numbers in their order. -/
def sumF32 : List Nat → Nat
  | [] => 0
  | x :: xs => xs.foldl addF32 x

/-- a is a higher score than b; +0 equals −0. -/
def scoreAbove (a b : Nat) : Bool :=
  match f32 a, f32 b with
  | .fin _ 0 _, .fin _ 0 _ => false
  | x, y => valLess y x

/-- Insert an expert by descending score, the lower index first on equal scores. -/
def insertScore (x : Nat × Nat) : List (Nat × Nat) → List (Nat × Nat)
  | [] => [x]
  | y :: ys => if scoreAbove x.2 y.2 then x :: y :: ys else y :: insertScore x ys

/-- The K experts with the highest scores: (expert, score), slot 0 first. -/
def topK (k : Nat) (scores : List Nat) : List (Nat × Nat) :=
  (((scores.zipIdx).map (fun x => (x.2, x.1))).foldl (fun l x => insertScore x l) []).take k

/-- Insert by ascending expert. -/
def insertExpert (x : Nat × Nat) : List (Nat × Nat) → List (Nat × Nat)
  | [] => [x]
  | y :: ys => if x.1 < y.1 then x :: y :: ys else y :: insertExpert x ys

def byExpert (l : List (Nat × Nat)) : List (Nat × Nat) := l.foldl (fun a x => insertExpert x a) []

/-- The gates of the selected experts, slot by slot, from the values that the gates use: all experts' and the selected
ones' (R348). -/
def gatesOf (mode scale : Nat) (all : List Nat) (selected : List (Nat × Nat)) : List Nat :=
  let vmax := (selected.head?.map (·.2)).getD 0
  let e (v : Nat) : Nat := expOf (subF32 v vmax)
  let raw : List Nat := match mode with
    | 0 =>
      let sum := sumF32 ((byExpert selected).map (fun x => e x.2))
      selected.map (fun x => divF32 (e x.2) sum)
    | 1 =>
      let sum := sumF32 (all.map e)
      selected.map (fun x => divF32 (e x.2) sum)
    | 2 => selected.map (fun x => sigmoidF32 x.2)
    | _ =>
      let sum := sumF32 ((byExpert selected).map (fun x => sigmoidF32 x.2))
      selected.map (fun x => divF32 (sigmoidF32 x.2) sum)
  raw.map (fun g => mulF32 g scale)

/-- The value of an element of packed scalars. -/
def packedVal (fmt : Nat) (bs : List Byte) (i : Nat) : Val :=
  match formatOf fmt with
  | some f => decodeElem f (elemBits f.bits bs i)
  | none => zeroVal

/-- The activation of a token, its parts in order. -/
def activation (t : Token) : List Byte := t.parts.flatMap (·.2)

/-- The logits of a token (R347): one column of weights per expert. -/
def logits (r : DispatchRec) (w : WeightSet) (act : List Byte) : List Nat :=
  let per := Nat.min (kPerStep r.actFmt) (kPerStep w.format)
  (List.range w.e).map (fun e =>
    accumulate per 0 ((List.range w.d).map (fun d =>
      mulVals (packedVal r.actFmt act d) (packedVal w.format w.data (d * w.e + e)))))

/-- The bias of an expert. -/
def biasOf (w : WeightSet) (e : Nat) : Nat := bytesNat ((w.data.drop (w.d * w.e * fmtBytes w.format + 4 * e)).take 4)

/-- Route a token of a batch: its slots, or none when a score is not finite. -/
def routeSlots (r : DispatchRec) (w : WeightSet) (act : List Byte) : Option (List TokenSlot) :=
  let z := logits r w act
  let v := (z.zipIdx).map (fun x => addF32 x.1 (biasOf w x.2))
  if v.any (fun x => match f32 x with
      | .fin _ _ _ => false
      | _ => true) then none
  else
    let sel := topK r.k v
    let used := if r.biasSelect then sel.map (fun x => (x.1, z.getD x.1 0)) else sel
    let gates := gatesOf r.gateMode r.gateScale (if r.biasSelect then z else v) used
    some ((List.zip sel gates).map (fun x => ⟨x.1.1, x.2, none, false, false, [], false⟩))

/-! ## Address generation (R339, R340, Table 10.3) -/

/-- A signed field [hi:lo]. -/
def sfld (w : Word) (hi lo : Nat) : Int := signedOf (hi + 1 - lo) (fld w hi lo)

/-- Word i of an AGD. -/
def agdWord (a : List Word) (i : Nat) : Word := a.getD i 0

def agdMode (a : List Word) : Nat := fld (agdWord a 0) 31 30
def agdBase (a : List Word) : Nat := fld (agdWord a 0) 26 0
def strideA (a : List Word) : Int := sfld (agdWord a 1) 31 8
def strideB (a : List Word) : Int := sfld (agdWord a 2) 31 8
def strideC (a : List Word) : Int := sfld (agdWord a 3) 31 8

/-- Bit address of element (p, q) of a strided operand of a given element width. -/
def stridedBit (a : List Word) (bits p q : Nat) : Int := agdBase a * 8 + (p * strideA a + q * strideB a) * bits

/-- Where element (i, kk) of a convolution stands: its channel, y and x, when it lies inside the input. -/
def convPlace (a : List Word) (i kk : Nat) : Option (Nat × Nat × Nat) :=
  let ow := Nat.max 1 (fld (agdWord a 5) 31 16)
  let tapsX := Nat.max 1 (fld (agdWord a 5) 7 0)
  let tapsY := Nat.max 1 (fld (agdWord a 5) 15 8)
  let y : Int := (i / ow) * fld (agdWord a 6) 31 28 + (kk / tapsX % tapsY) * fld (agdWord a 6) 23 20 - (fld (agdWord a 6) 15 8 : Int)
  let x : Int := (i % ow) * fld (agdWord a 6) 27 24 + (kk % tapsX) * fld (agdWord a 6) 19 16 - (fld (agdWord a 6) 7 0 : Int)
  if 0 ≤ y ∧ y < fld (agdWord a 4) 31 16 ∧ 0 ≤ x ∧ x < fld (agdWord a 4) 15 0 then
    some (kk / (tapsY * tapsX), y.toNat, x.toNat)
  else none

/-- Bit address of an element of operand A, B or C; none for a padding element of a convolution. -/
def elemBit (a : List Word) (bits p q : Nat) : Option Int :=
  if agdMode a = 0 then some (stridedBit a bits p q)
  else (convPlace a p q).map (fun c => agdBase a * 8 + (c.1 * strideA a + c.2.1 * strideB a + c.2.2 * strideC a) * bits)

/-- A range of bits lies inside an allocation. -/
def bitsInside (limit : Nat) (b : Int) (n : Nat) : Bool := decide (0 ≤ b) && decide (b + n ≤ limit * 8)

/-- Byte address of the scale of element (p, q) of an MX operand. -/
def scaleAt (a : List Word) (p q : Nat) : Int := fld (agdWord a 7) 26 0 + p * strideC a + (q / 32 : Nat)

/-- Every element of an operand of a format lies inside the allocation. -/
def operandInside (limit : Nat) (a : List Word) (f : Format) (rows cols : Nat) : Bool :=
  (List.range rows).all (fun p => (List.range cols).all (fun q =>
    (match elemBit a f.bits p q with
    | some b => bitsInside limit b f.bits
    | none => true) && (!f.mx || bitsInside limit (scaleAt a p q * 8) 8)))

/-- A byte of an owner's operand SRAM. -/
def sramByte (s : State) (pid o : Nat) : Byte := tabGet (fun _ => 0) s.mill.sram (pid * 2 ^ 27 + o)

def setSram (pid o : Nat) (v : Byte) (s : State) : State :=
  modMill (fun m => { m with sram := tabSet (fun _ => 0) m.sram (pid * 2 ^ 27 + o) v }) s

/-- Bits at a bit address, most significant first. -/
def sramBits (s : State) (pid bits : Nat) (b : Nat) : Nat :=
  bytesNat ((List.range ((b + bits + 7) / 8 - b / 8)).map (fun i => sramByte s pid (b / 8 + i))) /
    2 ^ (8 * ((b + bits + 7) / 8) - (b + bits)) % 2 ^ bits

/-- The value of an element of an operand. -/
def operandVal (s : State) (pid : Nat) (a : List Word) (f : Format) (p q : Nat) : Val :=
  match elemBit a f.bits p q with
  | none => zeroVal
  | some b =>
    let v := decodeElem f (sramBits s pid f.bits b.toNat)
    if f.mx then scaleVal (sramByte s pid (scaleAt a p q).toNat).toNat v else v

/-- Write whole bytes of an element at a bit address that is a multiple of 8. -/
def putElem (pid : Nat) (b : Int) (bytes : List Byte) (s : State) : State :=
  (bytes.zipIdx).foldl (fun s x => setSram pid (b.toNat / 8 + x.2) x.1 s) s

/-! ## Instructions (R341, R342, Table 10.4) -/

def insOp (i : List Word) : Nat := fld (i.getD 0 0) 31 24
def insA (i : List Word) : Nat := fld (i.getD 0 0) 15 8
def insB (i : List Word) : Nat := fld (i.getD 0 0) 7 0
def insC (i : List Word) : Nat := fld (i.getD 1 0) 31 24
def insFmtA (i : List Word) : Nat := fld (i.getD 1 0) 23 16
def insFmtB (i : List Word) : Nat := fld (i.getD 1 0) 15 8
def insFmtC (i : List Word) : Nat := fld (i.getD 1 0) 7 0
def insRows (i : List Word) : Nat := fld (i.getD 2 0) 31 16 + 1
def insCols (i : List Word) : Nat := fld (i.getD 2 0) 15 0 + 1
def insK (i : List Word) : Nat := fld (i.getD 3 0) 31 16 + 1
def insAcc (i : List Word) : Bool := fld (i.getD 0 0) 23 23 == 1
def insVop (i : List Word) : Nat := fld (i.getD 0 0) 22 16
def insImm (i : List Word) : Nat := (i.getD 3 0).toNat
def insCounter (i : List Word) : Nat := fld (i.getD 0 0) 3 0

/-- A VOP that takes two operands. -/
def vopBinary (v : Nat) : Bool := decide (v ≤ 1)

/-- The formats that a result takes: the scalar floating formats. -/
def resultFormat (code : Nat) : Bool := [0x10, 0x11, 0x12, 0x13, 0x14, 0x15].contains code

/-- An operand's descriptor serves it: MX operands strided along packed columns; convolution for operand A alone, without
MX (R340). -/
def operandOk (agds : List (List Word)) (n fmt : Nat) (isA : Bool) : Bool :=
  match agds[n]?, formatOf fmt with
  | some a, some f =>
    millFormat fmt && agdMode a != 3 && (agdMode a == 0 || (isA && !f.mx)) &&
      (!f.mx || (strideB a == 1 && strideA a % 32 == 0))
  | _, _ => false

/-- The descriptor of a result: strided. -/
def resultOk (agds : List (List Word)) (n fmt : Nat) : Bool :=
  match agds[n]? with
  | some a => agdMode a == 0 && resultFormat fmt
  | none => false

/-- An instruction may be loaded: its opcode and VOP known, reserved fields 0, operands as R334, R340 and Table 10.4
allow. -/
def instrOk (agds : List (List Word)) (i : List Word) : Bool :=
  let w (n : Nat) : Word := i.getD n 0
  decide (i.length = 4) &&
  (match insOp i with
  | 0 => w 0 == 0 && w 1 == 0 && w 2 == 0 && w 3 == 0
  | 1 =>
    fld (w 0) 22 16 == 0 && fld (w 3) 15 0 == 0 && operandOk agds (insA i) (insFmtA i) true &&
      operandOk agds (insB i) (insFmtB i) false && resultOk agds (insC i) (insFmtC i) &&
      (!insAcc i || insFmtC i == 0x14) &&
      (!(((formatOf (insFmtA i)).map (·.mx)).getD false || ((formatOf (insFmtB i)).map (·.mx)).getD false) || insK i % 32 == 0)
  | 2 =>
    fld (w 0) 23 23 == 0 && decide (insVop i ≤ 7) && operandOk agds (insA i) (insFmtA i) true &&
      (if vopBinary (insVop i) then operandOk agds (insB i) (insFmtB i) false else insB i == 0) &&
      resultOk agds (insC i) (insFmtC i) && (insVop i != 7 || (decide (1 ≤ insImm i) && decide (insImm i ≤ 8)))
  | 3 =>
    fld (w 0) 22 16 == 0 && fld (w 0) 7 4 == 0 && decide (1 ≤ (w 1).toNat) && decide ((w 1).toNat ≤ 67108864) &&
      (agds[insA i]?).isSome
  | 4 => fld (w 0) 23 4 == 0 && w 2 == 0 && w 3 == 0
  | 5 => fld (w 0) 23 23 == 0 && fld (w 0) 21 4 == 0 && w 2 == 0 && w 3 == 0
  | _ => false)

/-- Every element that an MMA or VEC touches lies in the owner's allocation (R342). -/
def arrayReach (limit : Nat) (agds : List (List Word)) (i : List Word) : Bool :=
  let a (n : Nat) : List Word := agds.getD n []
  let f (n : Nat) : Format := (formatOf n).getD ⟨8, .raw, false⟩
  if insOp i = 1 then
    operandInside limit (a (insA i)) (f (insFmtA i)) (insRows i) (insK i) &&
      operandInside limit (a (insB i)) (f (insFmtB i)) (insK i) (insCols i) &&
      operandInside limit (a (insC i)) (f (insFmtC i)) (insRows i) (insCols i)
  else
    operandInside limit (a (insA i)) (f (insFmtA i)) (insRows i) (insCols i) &&
      (!vopBinary (insVop i) || operandInside limit (a (insB i)) (f (insFmtB i)) (insRows i) (insCols i)) &&
      (if insVop i = 7 then
        operandInside limit (a (insC i)) ⟨8 * (pairValueBytes (f (insFmtC i)) + 4), .raw, false⟩ (insRows i) (Nat.min (insImm i) (insCols i))
      else operandInside limit (a (insC i)) (f (insFmtC i)) (insRows i) (insCols i))

/-- A result in its format: rounded to nearest, by the saturation and special-value rules of R330. -/
def resultBytes (fmt : Nat) (v : Val) : List Byte := (convertVals ((formatOf fmt).getD fp32) [v]).1

/-- The effect of an MMA: every element of C from its row of A and its column of B. -/
def runMma (pid : Nat) (agds : List (List Word)) (i : List Word) (s : State) : State :=
  let a := agds.getD (insA i) []
  let b := agds.getD (insB i) []
  let c := agds.getD (insC i) []
  let fa := (formatOf (insFmtA i)).getD fp32
  let fb := (formatOf (insFmtB i)).getD fp32
  let fc := (formatOf (insFmtC i)).getD fp32
  let per := Nat.min (kPerStep (insFmtA i)) (kPerStep (insFmtB i))
  let cells := (List.range (insRows i)).flatMap (fun p => (List.range (insCols i)).map (fun q =>
    let at0 := stridedBit c fc.bits p q
    let start := if insAcc i then sramBits s pid 32 at0.toNat else 0
    let ps := (List.range (insK i)).map (fun k => mulVals (operandVal s pid a fa p k) (operandVal s pid b fb k q))
    (at0, resultBytes (insFmtC i) (f32 (accumulate per start ps)))))
  countSteps (insRows i) (insCols i) per (insK i) (cells.foldl (fun s x => putElem pid x.1 x.2 s) s)

/-- SOFTMAX of a row of binary32 numbers. -/
def softmaxF32 (l : List Nat) : List Nat :=
  let m := l.foldl (fun a x => if scoreAbove x a then x else a) (l.headD 0)
  let es := l.map (fun x => expOf (subF32 x m))
  es.map (fun e => divF32 e (sumF32 es))

/-- The k pairs of TOPK: position and value, the best first, by the order of ARGMAX (09 R326). -/
def topPairs : Nat → List (Nat × Val) → List (Nat × Val)
  | 0, _ => []
  | k + 1, l =>
    match l.foldl (fun (b : Option (Nat × Val)) x => match b with
      | none => some x
      | some y => if pairBeats true x.2 x.1 y.2 y.1 then some x else b) none with
    | none => []
    | some x => x :: topPairs k (l.filter (fun y => y.1 != x.1))

/-- One row of a VEC: the values of its result elements. -/
def vecRow (vop imm : Nat) (as bs : List Val) : List Val :=
  match vop with
  | 0 => (List.zip as bs).map (fun x => sumVals 0 [x.1, x.2])
  | 1 => (List.zip as bs).map (fun x => mulVals x.1 x.2)
  | 2 => as.map (fun x => mulVals x (f32 imm))
  | 3 => as
  | 4 => as.map (fun x => match x with
    | .nan => .nan
    | v => if valLess zeroVal v then v else zeroVal)
  | 5 => as.map (fun x => f32 (sigmoidF32 (toF32 x)))
  | _ => (softmaxF32 (as.map toF32)).map f32

/-- The effect of a VEC, row by row. -/
def runVec (pid : Nat) (agds : List (List Word)) (i : List Word) (s : State) : State :=
  let a := agds.getD (insA i) []
  let b := agds.getD (insB i) []
  let c := agds.getD (insC i) []
  let fa := (formatOf (insFmtA i)).getD fp32
  let fb := (formatOf (insFmtB i)).getD fp32
  let fc := (formatOf (insFmtC i)).getD fp32
  let cells := (List.range (insRows i)).flatMap (fun p =>
    let as := (List.range (insCols i)).map (operandVal s pid a fa p)
    let bs := if vopBinary (insVop i) then (List.range (insCols i)).map (operandVal s pid b fb p) else []
    if insVop i = 7 then
      let v := pairValueBytes fc
      ((topPairs (insImm i) ((as.zipIdx).map (fun x => (x.2, x.1)))).zipIdx).map (fun x =>
        (stridedBit c (8 * (v + 4)) p x.2,
          natBytes v (bytesNat (resultBytes (insFmtC i) x.1.2)) ++ natBytes 4 x.1.1))
    else ((vecRow (insVop i) (insImm i) as bs).zipIdx).map (fun x =>
      (stridedBit c fc.bits p x.2, resultBytes (insFmtC i) x.1)))
  cells.foldl (fun s x => putElem pid x.1 x.2 s) s

/-! ## Programs (R341, R342, R355, R357) -/

def millProgram (s : State) (slot : Nat) : Option MillProgram := tabGet? s.mill.programs slot

def modProgram (slot : Nat) (f : MillProgram → MillProgram) (s : State) : State :=
  match millProgram s slot with
  | some p => modMill (fun m => { m with programs := tabPut m.programs slot (f p) }) s
  | none => s

/-- A program ends: PROGRAM_END with its status at the owner's event mailbox (R525). After END its COPYs in flight still
complete; a program that ends otherwise drops them. -/
def endProgram (slot : Nat) (st : Status) (s : State) : State :=
  match millProgram s slot with
  | some p =>
    if p.running then
      settleMill (raiseOwner [] 0x0601 p.pid [slot, statusCode st]
        (modProgram slot (fun x => { x with running := false, copies := if st = .ok then x.copies else [] }) s))
    else s
  | none => s

/-- The region part that a COPY names lies in a ready region of the owner (R342). -/
def copyReach (s : State) (p : MillProgram) (i : List Word) : Bool :=
  let r := fld (i.getD 2 0) 31 16
  let o := fld (i.getD 2 0) 15 0 * 2 ^ 32 + (i.getD 3 0).toNat
  let n := (i.getD 1 0).toNat
  (match region s r with
  | some x => x.pid == p.pid && decide (o + n ≤ regionSize x) && x.phase == .ready && !keyMissing s r x &&
      !(fld (i.getD 0 0) 23 23 == 1 && regionLocked s r)
  | none => false) && decide (agdBase (p.agds.getD (insA i) []) + n ≤ millBytes s p.pid)

/-- Data moved by a COPY: from the Granary into operand SRAM or the other way (R342). -/
def runCopy (p : MillProgram) (i : List Word) (s : State) : State :=
  let r := fld (i.getD 2 0) 31 16
  let o := fld (i.getD 2 0) 15 0 * 2 ^ 32 + (i.getD 3 0).toNat
  let n := (i.getD 1 0).toNat
  let base := agdBase (p.agds.getD (insA i) [])
  if fld (i.getD 0 0) 23 23 = 0 then putElem p.pid (8 * base) (readBytes s r o n) s
  else writeBytes r o ((List.range n).map (fun j => sramByte s p.pid (base + j))) s

/-- Add to a trigger counter of a program. -/
def bumpCounter (slot c n : Nat) (s : State) : State :=
  modProgram slot (fun p => { p with counters := listMod (fun x => (x + n) % 2 ^ 32) c p.counters }) s

/-- The fence of a partition: contexts discard everything without a packet and set ENABLE 0, programs end ABORTED
(Table 10.7). -/
def fenceMill (pid : Nat) (s : State) : State :=
  let s1 := (s.mill.contexts.filter (fun c => c.2.record.pid == pid)).foldl (fun s c =>
    modDctx c.1 (fun x => { x with record := { x.record with enable := false } })
      (c.2.tokens.foldl (fun s t => discardToken c.1 t.origin t.ident s)
        (modMill (fun m => { m with
          batches := m.batches.filter (fun b => b.context != c.1),
          work := match m.work with
            | some (.batch b) => if b.context = c.1 then none else m.work
            | w => w }) s))) s
  (s1.mill.programs.filter (fun p => p.2.pid == pid)).foldl (fun s p => endProgram p.1 .aborted s) s1

/-- A replica's endpoint is down: it is excluded and the tokens outstanding at it fail; the tokens of an origin that is
down are discarded (Table 10.7). -/
def endpointDownMill (address : Nat) (s : State) : State :=
  s.mill.contexts.foldl (fun s c =>
    let hits := (c.2.replicas.map (fun e => (e.2.filter (fun r => r.address == address && !r.excluded)).length)).sum
    let s1 := modDctx c.1 (fun x => { x with replicas := tabMap (fun _ l => l.map (fun r =>
      if r.address = address then { r with excluded := true } else r)) x.replicas })
      (if hits = 0 then s else countMill 8 hits s)
    let s2 := failTokens c.1 (fun t => t.slots.any (fun sl => sl.replica == some address && sl.counted)) s1
    (c.2.tokens.filter (fun t => t.origin == address && !t.originSpine)).foldl (fun s t => discardToken c.1 t.origin t.ident s) s2) s

end Sys2Proof.Machine
end

