-- ==== Sys2Proof/Machine/Mill.lean ====
section
/-! DEFINITION. The steps of the Mill and of expert routing (10 10.4 to 10.7; 12 R419), and ENDPOINT_DOWN. -/

namespace Sys2Proof.Machine

/-! ## Dispatches (R349, R352, R357, R359) -/

/-- A dispatch is dropped as DISPATCH_INVALID (R352). -/
def dispatchInvalid (x : DispatchCtx) (k : Packet) : Bool :=
  let r := x.record
  !r.enable || pPid k != r.pid || pEpoch k != r.epoch || xExpert k != 0 || xSlot k != 0 || k.w7 != 0 || xCombined k ||
    decide (partsOf r.d r.actFmt ≤ xToken k % 4) || pLength k != partLen r.d r.actFmt (xToken k % 4)

/-- Bytes of the token buffer in use: the parts of tokens whose dispatches are not written. -/
def bufferUsed (x : DispatchCtx) : Nat := (x.tokens.map (fun t => (t.parts.map (·.2.length)).sum)).sum

/-- A part joins its token; a token with all its parts is complete and stands last among the complete ones. -/
def addPart (c : Nat) (r : DispatchRec) (k : Packet) (s : State) : State :=
  let id := xToken k / 4
  let fresh : Token := {
    origin := pSrc k, originSpine := pSpineSrc k, ident := id, entropy := pEntropy k, parts := [], phase := .arriving,
    slots := [], claimed := false, combined := [] }
  let old := (findToken s c (pSrc k) id).getD fresh
  let t := { old with parts := tabPut old.parts (xToken k % 4) k.payload }
  let whole := decide (t.parts.length = partsOf r.d r.actFmt)
  let t1 := if whole then { t with phase := .complete } else t
  let place (ts : List Token) : List Token :=
    if whole || (findToken s c (pSrc k) id).isNone then (ts.filter (fun y => !tokenIs (pSrc k) id y)) ++ [t1]
    else ts.map (fun y => if tokenIs (pSrc k) id y then t1 else y)
  modDctx c (fun x => { x with tokens := place x.tokens }) s

/-- A batch that is full closes. -/
def closeFull (c : Nat) (s : State) : State :=
  match dctx s c with
  | some x => if x.record.batch ≤ (x.tokens.filter (fun t => t.phase == .complete)).length then closeBatch c s else s
  | none => s

/-- The token that a DISPATCH packet names, before any of its parts is held (R349, R352). -/
def tokenOf (k : Packet) : Token :=
  { origin := pSrc k, originSpine := pSpineSrc k, ident := xToken k / 4, entropy := pEntropy k, parts := [],
    phase := .arriving, slots := [], claimed := false, combined := [] }

/-- The oldest dispatch at the Mill: checked, then buffered when the buffer has room. -/
def execDispatchRx (s : State) : Host.Outcome State Fault Refusal :=
  .next (match takeDelivered 3 s with
  | none => s
  | some (d, s1) =>
    let k := d.pkt
    let c := xContext k
    match dctx s1 c with
    | none => countMill 6 1 s1
    | some x =>
      if dispatchInvalid x k then countMill 6 1 s1
      else
        match findToken s1 c (pSrc k) (xToken k / 4) with
        | some t =>
          if t.phase ≠ .arriving ∨ (tabGet? t.parts (xToken k % 4)).isSome then countMill 7 1 s1
          else if tokenBuffer x.record < bufferUsed x + pLength k then s
          else closeFull c (addPart c x.record k s1)
        | none =>
          if s1.start.cfg.millOff || x.draining.isSome then
            countMill 9 1 (failureReturn c x.record (tokenOf k) s1)
          else if tokenBuffer x.record < bufferUsed x + pLength k then s
          else closeFull c (addPart c x.record k s1))

/-- BATCH_WAIT has passed since the first complete token. -/
def execBatchWaitExpiry (context : Nat) (s : State) : Host.Outcome State Fault Refusal :=
  onUnit (decide (context < 128)) (closeBatch context s)

/-! ## The array (R342, R343, R347) -/

/-- A program's next instruction may issue. -/
def programReady (s : State) (slot : Nat) : Bool :=
  match millProgram s slot with
  | some p =>
    let i := p.code.getD p.pc []
    p.running && !s.start.cfg.millOff && (insOp i != 4 || decide ((i.getD 1 0).toNat ≤ p.counters.getD (insCounter i) 0))
  | none => false

/-- The next ready program in round robin after the slot served last. -/
def nextProgram (s : State) : Option Nat :=
  ((List.range 16).map (fun i => (s.mill.lastSlot + 1 + i) % 16)).find? (programReady s)

/-- A program ends ABORTED at an access outside its owner's regions or allocation, with its crumb record (R342). -/
def accessFault (slot : Nat) (s : State) : State := endProgram slot .aborted s

/-- Issue one instruction of a program: END, COPY, WAIT and SIGNAL take effect at once, MMA and VEC occupy the array. -/
def issueInstr (slot : Nat) (s : State) : State :=
  match millProgram s slot with
  | none => s
  | some p =>
    let i := p.code.getD p.pc []
    let s1 := modMill (fun m => { m with lastSlot := slot, runLength := 0 }) s
    let step (s : State) : State := modProgram slot (fun x => { x with pc := x.pc + 1 }) s
    match insOp i with
    | 0 => endProgram slot .ok s1
    | 3 => if copyReach s p i then step (modProgram slot (fun x => { x with copies := x.copies ++ [i] }) s1) else accessFault slot s1
    | 4 => step s1
    | 5 =>
      let s2 := bumpCounter slot (insCounter i) (i.getD 1 0).toNat (step s1)
      if fld (i.getD 0 0) 22 22 = 1 then raiseOwner [] Config.signalEventCode p.pid [slot, insCounter i] s2 else s2
    | _ =>
      if arrayReach (millBytes s p.pid) p.agds i then step (modMill (fun m => { m with work := some (.instr slot) }) s1)
      else accessFault slot s1

/-- At an instruction boundary the Mill issues: closed batches first, after eight of them one instruction of a ready
program, then the ready programs in round robin. -/
def execMillInstructionIssue (s : State) : Host.Outcome State Fault Refusal :=
  .next (if s.mill.work.isSome || (island s 0x38).dataReset then s
  else
    match s.mill.batches, nextProgram s with
    | b :: rest, none => modMill (fun m => { m with batches := rest, work := some (.batch b), runLength := m.runLength + 1 }) s
    | b :: rest, some slot =>
      if 8 ≤ s.mill.runLength then issueInstr slot s
      else modMill (fun m => { m with batches := rest, work := some (.batch b), runLength := m.runLength + 1 }) s
    | [], some slot => issueInstr slot s
    | [], none => s)

/-- The result of a batch for one token: its slots, or its failure. -/
def routeToken (b : Batch) (r : DispatchRec) (key : Nat × Nat) (s : State) : State :=
  match findToken s b.context key.1 key.2 with
  | none => s
  | some t =>
    match b.weights with
    | none => failToken b.context key.1 key.2 s
    | some w =>
      if w.bad || w.d != r.d || w.e != r.e || !kneadUsable s (tokenUnit r key.2) && !s.start.cfg.kneadOff.contains (tokenUnit r key.2) then
        failToken b.context key.1 key.2 s
      else
        match routeSlots r w (activation t) with
        | none => countMill 0 1 (failToken b.context key.1 key.2 s)
        | some sl => modToken b.context key.1 key.2 (fun x => { x with slots := sl, phase := .routed }) s

/-- Reload a weight set that a double-bit error struck from its recorded region (Table 10.7). -/
def reloadBad (s : State) : State :=
  (s.mill.weights.filter (fun w => w.2.bad)).foldl (fun s w =>
    modMill (fun m => { m with weights := tabPut m.weights w.1 { w.2 with
      bad := false, data := readBytes s w.2.region w.2.offset (weightBytes w.2.format w.2.d w.2.e) } }) s) s

/-- A batch's router multiplication ends: its steps counted, its tokens routed, weights found bad loaded again (R346,
R347). -/
def routeBatch (b : Batch) (d : DispatchRec) (s : State) : State :=
  let per := Nat.min (kPerStep d.actFmt) (kPerStep ((b.weights.map (·.format)).getD 0x14))
  reloadBad (b.tokens.foldl (fun s k => routeToken b d k s) (countSteps b.tokens.length d.e per d.d s))

/-- The router MMA of a batch completes: scores, selection and gates of each token. -/
def execRouterMmaDone (s : State) : Host.Outcome State Fault Refusal :=
  .next (match s.mill.work with
  | some (.batch b) =>
    let s1 := modMill (fun m => { m with work := none }) s
    match dctx s1 b.context with
    | none => s1
    | some x => routeBatch b x.record s1
  | _ => s)

/-- The effect of an issued MMA or VEC; a program of a disabled Mill ends ABORTED after it (R343, R357). -/
def runIssued (slot : Nat) (p : MillProgram) (i : List Word) (s : State) : State :=
  let s2 := if insOp i = 1 then runMma p.pid p.agds i s else runVec p.pid p.agds i s
  if s2.start.cfg.millOff then endProgram slot .aborted s2 else s2

/-- An MMA or VEC writes its last result. -/
def execMmaDone (s : State) : Host.Outcome State Fault Refusal :=
  .next (match s.mill.work with
  | some (.instr slot) =>
    let s1 := modMill (fun m => { m with work := none }) s
    match millProgram s1 slot with
    | none => s1
    | some p =>
      if !p.running then s1 else runIssued slot p (p.code.getD (p.pc - 1) []) s1
  | _ => s)

/-- A COPY's transfer: an access fault where its range lies out of reach or is poisoned, else the bytes move and its counter
rises (R342). The COPY is no longer in flight either way. -/
def finishCopy (slot index : Nat) (p : MillProgram) (i : List Word) (errs : List LineError) (s : State) : State :=
  let r := fld (i.getD 2 0) 31 16
  let o := fld (i.getD 2 0) 15 0 * 2 ^ 32 + (i.getD 3 0).toNat
  let n := (i.getD 1 0).toNat
  let s1 := meetErrors r o n errs (startWork 8 0 n (modProgram slot (fun x => { x with copies := x.copies.eraseIdx index }) s))
  let read := fld (i.getD 0 0) 23 23 == 0
  if !copyReach s1 p i || (read && rangePoisoned s1 r o n) then accessFault slot s1
  else bumpCounter slot (insCounter i) 1 (runCopy p i s1)

/-- The last write response of a COPY arrives: its data has moved, its counter rises, the program's END or not. -/
def execMillCopyDone (slot index : Nat) (errs : List LineError) (s : State) : Host.Outcome State Fault Refusal :=
  onUnit (decide (slot < 16))
    (match millProgram s slot with
    | none => s
    | some p =>
      match p.copies[index]? with
      | none => s
      | some i =>
        if !mayStart s 8 0 then s else finishCopy slot index p i errs s)

/-- A program's staleness timer expires. -/
def execProgramStalenessExpiry (slot : Nat) (s : State) : Host.Outcome State Fault Refusal :=
  onUnit (decide (slot < 16))
    (match millProgram s slot with
    | some p => if p.running then endProgram slot .aborted (staleCrumb 3 slot p.pid s) else s
    | none => s)

/-! ## Replica choice and dispatch (R350; 12 R419) -/

/-- Replicas of an expert by list position, those dropped that are excluded or at their cap. -/
def choiceCands (x : DispatchCtx) (expert : Nat) (pin : Option Nat) : List (Nat × Replica) :=
  (((tabGet (fun _ => []) x.replicas expert).zipIdx).map (fun r => (r.2, r.1))).filter (fun r =>
    (match pin with
    | some a => r.2.address == a
    | none => true) && !r.2.excluded && decide (r.2.outstanding < r.2.cap))

/-- The smallest load, the first in list order after LAST on a tie. -/
def leastLoaded (last : Option Nat) (cands : List (Nat × Replica)) : Option (Nat × Replica) :=
  let turn := match last with
    | some l => cands.filter (fun (r : Nat × Replica) => decide (l < r.1)) ++ cands.filter (fun (r : Nat × Replica) => decide (r.1 ≤ l))
    | none => cands
  let load (r : Replica) : Nat := r.outstanding * 65536 / Nat.max 1 r.cap
  turn.foldl (fun b r => match b with
    | none => some r
    | some y => if load r.2 < load y.2 then some r else b) none

/-- A counter of a (context, expert, replica position). -/
def countReplica (c expert pos item : Nat) (s : State) : State :=
  count (counterId 0x38 (0x80 + c) (4 * (16 * expert + pos) + item)) 1 s

def modSlot (c origin ident slot : Nat) (f : TokenSlot → TokenSlot) (s : State) : State :=
  modToken c origin ident (fun t => { t with slots := listMod f slot t.slots }) s

/-- Tokens that hold staging. -/
def claimedTokens (x : DispatchCtx) : Nat := (x.tokens.filter (·.claimed)).length

/-- A claimed token's slot takes the least loaded replica that has room; with none, the slot is skipped where the record
says SKIP, else it waits and the full replicas are counted once (R350; 12 R419). -/
def chooseReplica (context origin ident slot : Nat) (x : DispatchCtx) (sl : TokenSlot) (s : State) : State :=
  let s1 := modToken context origin ident (fun y => { y with claimed := true }) s
  let pin := tabGet? s.winnow.replicaPins (context * 1024 + sl.expert)
  match leastLoaded (tabGet? x.last sl.expert) (choiceCands x sl.expert pin) with
  | some (pos, r) =>
    countReplica context sl.expert pos 0
      (modSlot context origin ident slot (fun y => { y with replica := some r.address, counted := true })
        (modReplicas context sl.expert (fun l => listMod (fun q => { q with outstanding := q.outstanding + 1 }) pos l)
          (modDctx context (fun y => { y with last := tabPut y.last sl.expert pos }) s1)))
  | none =>
    if x.record.skip then
      countMill 2 1 (modSlot context origin ident slot (fun y => { y with skipped := true }) s1)
    else if sl.waited then s1
    else
      let full := ((tabGet (fun _ => []) x.replicas sl.expert).zipIdx).filter (fun r => decide (r.1.cap ≤ r.1.outstanding))
      full.foldl (fun s r => countReplica context sl.expert r.2 1 s)
        (modSlot context origin ident slot (fun y => { y with waited := true }) s1)

/-- Winnow's choice for one slot of a routed token that holds, or can claim, its staging; with no candidate the slot
waits or is skipped. -/
def execReplicaChoice (context origin ident slot : Nat) (s : State) : Host.Outcome State Fault Refusal :=
  onUnit (decide (context < 128))
    (match dctx s context, findToken s context origin ident with
    | some x, some t =>
      match t.slots[slot]? with
      | none => s
      | some sl =>
        if t.phase ≠ .routed ∨ sl.replica.isSome ∨ sl.skipped ∨ winnowDown s then s
        else if !t.claimed && decide (x.record.inflight ≤ claimedTokens x) then s
        else chooseReplica context origin ident slot x sl s
    | _, _ => s)

/-- The combined parts of a token whose slots were all skipped hold +0 (R353). -/
def sendZeros (c : Nat) (r : DispatchRec) (t : Token) (s : State) : State :=
  (List.range (partsOf r.d r.retFmt)).foldl (fun s j =>
    originate (kneadSource (tokenUnit r t.ident / 8))
      (expertPacket s c r 7 3 t.origin t.originSpine true t j 0 0 0 (List.replicate (partLen r.d r.retFmt j) 0)) s) s

/-- Every part of a token goes to the replica of every slot that is not skipped (R350, R351). -/
def sendExperts (context : Nat) (d : DispatchRec) (t : Token) (s : State) : State :=
  ((t.slots.zipIdx).filter (fun sl => !sl.1.skipped)).foldl (fun s sl =>
    t.parts.foldl (fun s p =>
      originate computeSource (expertPacket s context d 6 2 (sl.1.replica.getD 0) false false t p.1 sl.1.expert
        sl.2 sl.1.gate p.2) s) s) s

/-- A routed token whose slots are all chosen or skipped: its dispatches are written into the compute output pool and it
leaves the token buffer. -/
def execTokenDispatch (context origin ident : Nat) (s : State) : Host.Outcome State Fault Refusal :=
  onUnit (decide (context < 128))
    (match dctx s context, findToken s context origin ident with
    | some x, some t =>
      if t.phase ≠ .routed ∨ !t.claimed ∨ !t.slots.all (fun sl => sl.skipped || sl.replica.isSome) ∨
          !(waitingOf s computeSource).isEmpty then s
      else if t.slots.all (·.skipped) then removeToken context t (sendZeros context x.record t s)
      else
        modToken context origin ident (fun y => { y with phase := .dispatched, parts := [] })
          (sendExperts context x.record t s)
    | _, _ => s)

/-! ## Returns (R352, R353) -/

/-- The element of a combined part: the exact weighted sum, rounded once (R353; 09 R315). -/
def combineElem (fmt : Nat) (terms : List (Nat × Val)) : Nat × Bool :=
  encodeVal ((formatOf fmt).getD fp32) .table 0 0 (sumVals 0 (terms.map (fun x => mulVals (f32 x.1) x.2)))

/-- Combined part j from the returns of the slots that were not skipped. -/
def combinePart (r : DispatchRec) (slots : List TokenSlot) (j : Nat) : List Byte × Nat :=
  let live := slots.filter (fun sl => !sl.skipped)
  let n := partLen r.d r.retFmt j / Nat.max 1 (fmtBytes r.retFmt)
  let es := (List.range n).map (fun i =>
    combineElem r.retFmt (live.map (fun sl => (sl.gate, packedVal r.retFmt ((tabGet? sl.returned j).getD []) i))))
  (packElems (8 * fmtBytes r.retFmt) (es.map (·.1)), (es.filter (·.2)).length)

/-- Combine part j when every slot that counts has returned it; the last combined part ends the token. -/
def tryCombine (c origin ident j : Nat) (s : State) : State :=
  match dctx s c, findToken s c origin ident with
  | some x, some t =>
    if (t.slots.filter (fun sl => !sl.skipped)).all (fun sl => (tabGet? sl.returned j).isSome) then
      let u := tokenUnit x.record ident
      let (bs, above) := combinePart x.record t.slots j
      let s1 := originate (kneadSource (u / 8))
        (expertPacket s c x.record 7 3 t.origin t.originSpine true t j 0 0 0 bs) (countKnead u 4 above s)
      let done := t.combined ++ [j]
      if done.length = partsOf x.record.d x.record.retFmt then removeToken c { t with combined := done } s1
      else modToken c origin ident (fun y => { y with combined := done }) s1
    else s
  | _, _ => s

/-- The slot of a token that a return matches: its replica, its expert, its rank. -/
def returnMatches (t : Token) (k : Packet) : Bool :=
  match t.slots[xSlot k]? with
  | some sl => sl.replica == some (pSrc k) && sl.expert == xExpert k && !sl.skipped && !pSpineSrc k
  | none => false

/-- A returned part is staged at its slot; the slot's last part takes the replica's count down (R353; 12 R419). -/
def holdReturn (c : Nat) (d : DispatchRec) (t : Token) (sl : TokenSlot) (k : Packet) (s : State) : State :=
  let sl1 := { sl with returned := tabPut sl.returned (xToken k % 4) k.payload }
  let whole := decide (sl1.returned.length = partsOf d.d d.retFmt)
  let s2 := countKnead (tokenUnit d t.ident) 0 (pLength k) (if whole then dropCount c sl s else s)
  modSlot c t.origin t.ident (xSlot k) (fun _ => if whole then { sl1 with counted := false } else sl1) s2

/-- The oldest expert return in staging SRAM. -/
def execExpertReturnRx (s : State) : Host.Outcome State Fault Refusal :=
  .next (match takeDelivered 2 s with
  | none => s
  | some (d, s1) =>
    let k := d.pkt
    let c := xContext k
    match dctx s1 c with
    | none => countMill 3 1 s1
    | some x =>
      let ts := x.tokens.filter (fun t => t.phase == .dispatched && t.ident == xToken k / 4)
      let j := xToken k % 4
      match ts.find? (fun t => returnMatches t k) with
      | none => countMill (if ts.isEmpty then 3 else 4) 1 s1
      | some t =>
        if partsOf x.record.d x.record.retFmt ≤ j ∨ pLength k ≠ partLen x.record.d x.record.retFmt j then countMill 4 1 s1
        else
          match t.slots[xSlot k]? with
          | none => countMill 4 1 s1
          | some sl =>
            if (tabGet? sl.returned j).isSome then countMill 5 1 s1
            else
              tryCombine c t.origin t.ident j (holdReturn c x.record t sl k s1))

/-- A token's staleness timer expires. -/
def execTokenStalenessExpiry (context origin ident : Nat) (s : State) : Host.Outcome State Fault Refusal :=
  onUnit (decide (context < 128))
    (match dctx s context, findToken s context origin ident with
    | some x, some _ =>
      failToken context origin ident (countMill 1 1 (staleCrumb 4 (context * 2 ^ 32 + ident * 4) x.record.pid s))
    | _, _ => s)

/-! ## Grace and errors (R356, R357) -/

/-- Every token that a dispatch context still holds fails at the end of its grace time (R357). -/
def graceTokens (c : Nat) (s : State) : State :=
  match dctx s c with
  | some x => x.tokens.foldl (fun s t =>
      failToken c t.origin t.ident (graceCrumb 4 (c * 2 ^ 32 + t.ident * 4) x.record.pid s)) s
  | none => s

/-- The grace time of a disabled Mill ends: its tokens fail, its programs end ABORTED, and the commands that wait for it
answer ABORTED (R357). -/
def graceMill (s : State) : State :=
  let waiting := s.mill.disabling
  let s1 := modMill (fun m => { m with disabling := [] }) s
  let s2 := s1.mill.contexts.foldl (fun s c => graceTokens c.1 s) s1
  let s3 := s2.mill.programs.foldl (fun s p =>
    if p.2.running then endProgram p.1 .aborted (graceCrumb 3 p.1 p.2.pid s) else s) s2
  waiting.foldl (fun s o => finish o .aborted [] s) s3

/-- The grace time of a draining context ends: its tokens fail, its record is replaced, and the command that waits for it
answers ABORTED (R357). -/
def graceContext (c : Nat) (s : State) : State :=
  match (dctx s c).bind (·.draining) with
  | some (o, r) =>
    finish o .aborted [] (modDctx c (fun x => { x with record := r })
      (graceTokens c (modDctx c (fun x => { x with draining := none }) s)))
  | none => s

/-- A grace time ends: the remaining tokens fail, the remaining programs end ABORTED, each with its crumb record. -/
def execMillGraceExpiry (context : Option Nat) (s : State) : Host.Outcome State Fault Refusal :=
  .next (match context with
  | some c => graceContext c s
  | none => if s.mill.disabling.isEmpty then s else graceMill s)

/-- Mark a weight set as struck, in its slot and where closed batches hold it. -/
def strikeWeights (n : Nat) (s : State) : State :=
  match tabGet? s.mill.weights n with
  | none => s
  | some w =>
    let hit (b : Batch) : Batch := if b.weights = some w then { b with weights := some { w with bad := true } } else b
    modMill (fun m => { m with
      weights := tabPut m.weights n { w with bad := true }, batches := m.batches.map hit,
      work := m.work.map (fun x => match x with
        | .batch b => .batch (hit b)
        | y => y) }) s

/-- An error in the Mill's SRAM: corrected and counted, or fatal to what the word belongs to. -/
def execMillSramError (hit : SramUse) (double : Bool) (s : State) : Host.Outcome State Fault Refusal :=
  .next (if !double then countMill 10 1 s
  else
    let s1 := countMill 11 1 s
    match hit with
    | .nothing => s1
    | .weightSet n => strikeWeights n s1
    | .token c i =>
      match (dctx s1 c).bind (fun x => x.tokens[i]?) with
      | some t => failToken c t.origin t.ident s1
      | none => s1
    | .program slot => endProgram slot .aborted s1)

/-! ## ENDPOINT_DOWN (08 R300; Table 10.7) -/

/-- The running loafs of every group that an endpoint belongs to end with ABORT_MEMBER_LOST (08 R294, R300). -/
def abortGroupsOf (a : Nat) (s : State) : State :=
  let gids := (s.loaf.groups.filter (fun g => g.2.members.contains a)).map (·.1)
  (s.loaf.contexts.filter (fun e => gids.contains (e.1 / 4096) && loafRunning e.2)).foldl (fun s e => abortCtx e.1 1 s) s

/-- The oldest ENDPOINT_DOWN: running loafs of groups that include the endpoint abort, its expert tokens fail. -/
def execEndpointDownRx (s : State) : Host.Outcome State Fault Refusal :=
  .next (match takeNotice 1 s with
  | none => s
  | some (k, s1) =>
    endpointDownMill (noticeGid k) (abortGroupsOf (noticeGid k) s1))

end Sys2Proof.Machine
end

