-- ==== Sys2Proof/Machine/ResetOps.lean ====
section
/-! DEFINITION. What a reset does to the islands and engines it holds (01 R27; 17 Tables 17.7, 17.8, 17.10; 10 Table
10.7; 11 R365; 18 Table 18.4). -/

namespace Sys2Proof.Machine

def modCtl (f : CtlState → CtlState) (s : State) : State := { s with ctl := f s.ctl }

def modRst (f : RstState → RstState) (s : State) : State := { s with rst := f s.rst }

def modTele (f : TeleState → TeleState) (s : State) : State := { s with tele := f s.tele }

/-- Count an item of an island's own block (19 Table 19.1). -/
def countIsland (i item n : Nat) (s : State) : State := if n = 0 then s else count (counterId i 0 item) n s

/-! ## Islands -/

/-- The key of the crossing queue between two islands. -/
def crossKey (src dst : Nat) : Nat := src * 256 + dst

/-- Snapshots that name a counter of an island in reset end INTERNAL (19 R599). -/
def failSnapshots (is : List Nat) (s : State) : State :=
  let hit (x : Snapshot) : Bool := x.ids.any (fun id => is.contains (id / 2 ^ 24))
  (s.tele.snapshots.filter hit).foldl (fun s x => finish x.origin .internal [] s)
    (modTele (fun t => { t with snapshots := t.snapshots.filter (fun x => !hit x) }) s)

/-- The data role of one island enters reset: what its incoming queues hold is discarded and counted by the senders
(01 R27). -/
def holdIsland (i : Nat) (s : State) : State :=
  let s1 := s.ctl.crossings.foldl (fun s c =>
    if c.1 % 256 = i then countIsland (c.1 / 256) 2 (c.2.queue.length + c.2.usable.length) s else s) s
  modIsland i (fun x => { x with dataReset := true, peerAbsent := true })
    (modCtl (fun c => { c with crossings := c.crossings.foldl (fun t e =>
      if e.1 % 256 = i then tabSet crossingReset t e.1 { e.2 with queue := [], usable := [] } else t) c.crossings }) s1)

def holdIslands (is : List Nat) (s : State) : State := is.foldl (fun s i => holdIsland i s) (failSnapshots is s)

/-- The data role of an island leaves reset. -/
def releaseIsland (i : Nat) (s : State) : State := modIsland i (fun x => { x with dataReset := false, peerAbsent := false }) s

/-- Set to 0 the counters that a test on (block, index) of an island names (17 Table 17.10). -/
def zeroCounters (i : Nat) (p : Nat → Nat → Bool) (s : State) : State :=
  modTele (fun t => { t with counters := t.counters.filter (fun c =>
    !(c.1 / 2 ^ 24 == i && p (c.1 / 2 ^ 16 % 256) (c.1 % 2 ^ 16))) }) s

/-! ## Engines -/

/-- Staged work of a Knead unit that reset zeroes: contributions and expert returns that wait in its staging. -/
def dropStagedAt (u : Nat) (s : State) : State :=
  let keepC (d : Delivered) : Bool := ((loafCtx s (ctxKey (xGid d.pkt) (xPortion d.pkt))).map (·.knead)) != some u
  let keepR (d : Delivered) : Bool :=
    ((dctx s (xContext d.pkt)).map (fun x => tokenUnit x.record (xToken d.pkt / 4))) != some u
  modBuf (fun b => { b with
    consumers := tabMod (fun _ => []) (·.filter keepC) (tabMod (fun _ => []) (·.filter keepR) b.consumers 2) 1 }) s

/-- Loafs of contexts that a test accepts abort ABORT_RESOURCE. -/
def abortContexts (p : Nat × LoafCtx → Bool) (s : State) : State :=
  (s.loaf.contexts.filter p).foldl (fun s e => abortCtx e.1 5 s) s

/-- A Knead unit is cleared: its loafs abort, its staged tokens fail, commands that disable it end ABORTED (R564). -/
def clearKnead (u : Nat) (s : State) : State :=
  let s1 := (s.loaf.kneadJobs.filter (fun j => j.2.contains u)).foldl (fun s j => finish j.1 .aborted [] s)
    (modLoaf (fun l => { l with kneadJobs := l.kneadJobs.filter (fun j => !j.2.contains u) }) s)
  let s2 := abortContexts (fun e => e.2.knead == u) (dropStagedAt u s1)
  let s3 := s2.mill.contexts.foldl (fun s c =>
    failTokens c.1 (fun t => t.claimed && tokenUnit c.2.record t.ident == u) s) s2
  zeroCounters (0x30 + u / 8) (fun b x => b == 1 && x / 32 == u % 8) s3

/-- The Mill is cleared: every token fails, programs end ABORTED; contexts and replica lists stay, weight sets come from
their regions (10 Table 10.7). -/
def clearMill (s : State) : State :=
  let s1 := s.mill.disabling.foldl (fun s o => finish o .aborted [] s) (modMill (fun m => { m with disabling := [] }) s)
  let s2 := s1.mill.contexts.foldl (fun s c => failTokens c.1 (fun _ => true) s) s1
  let s3 := s2.mill.programs.foldl (fun s p => endProgram p.1 .aborted s) s2
  let s4 := modMill (fun m => { m with
    sram := [], batches := [], work := none, runLength := 0, lastSlot := 15,
    weights := tabMap (fun _ w => { w with bad := true }) m.weights }) s3
  zeroCounters 0x38 (fun b _ => b == 1 || decide (0x80 ≤ b)) (reloadBad s4)

/-- A DMA channel is cleared: its descriptors complete INTERNAL, the channel goes to ERROR, a command that disables it
ends ABORTED (Table 17.7; R564). -/
def clearChannel (c : Nat) (s : State) : State :=
  let s1 := match s.gran.disabling with
    | some (o, _) =>
      if (channel s c).phase = .stopping then finish o .aborted [] (modGran (fun g => { g with disabling := none }) s) else s
    | none => s
  let s2 := failFlight c .internal false (answerStops c .aborted s1)
  zeroCounters (0x40 + c / 2) (fun b x => b == 2 && x / 16 == c % 2) (modChannel c (fun x => { x with phase := .error }) s2)

/-- A range of a region touches a stack. -/
def rangeOnStack (s : State) (g r o n : Nat) : Bool :=
  match region s r with
  | some x => (rangeStripes x o n).any (fun y => y.1 == g)
  | none => false

/-- A descriptor reads or writes a stack. -/
def descOnStack (s : State) (g : Nat) (d : Descriptor) : Bool :=
  readsGranary d && rangeOnStack s g (refRegion d.source) (refOffset d.source) d.length ||
    writesGranary d && rangeOnStack s g (refRegion d.target) (refOffset d.target) d.length

/-- A region has extents on a stack. -/
def regionOnStack (s : State) (g r : Nat) : Bool := ((region s r).map (fun x => testBitN x.stackSet g)).getD false

/-- A Granary controller is cleared: what is in flight at its stack fails, its region keys are gone, its stack's contents
stay unless the stack fails to train (11 R365; 18 Table 18.4). -/
def clearStack (g : Nat) (trains : Bool) (s : State) : State :=
  let hit (a : Access) : Bool := rangeOnStack s g (xRegion a.pkt) (xOffset a.pkt) (accessLength a.pkt)
  let s1 := modGran (fun x => { x with
    writes := x.writes.filter (fun a => !hit a), reads := x.reads.filter (fun a => !hit a) }) s
  let s2 := (s.gran.writes.filter hit ++ s.gran.reads.filter hit).foldl (fun s a => respond a.pkt .internal [] s) s1
  let s3 := s2.gran.channels.foldl (fun s c =>
    (c.2.flight.filter (fun f => f.status.isNone && descOnStack s g f.desc)).foldl (fun s f =>
      completeDesc c.1 f.index .internal s) s) s2
  let s4 := abortContexts (fun e => match held s3 (e.1 / 4096) e.2.recipeId with
    | some h => h.spill != 0 && regionOnStack s3 g h.spill && (e.2.spilling || e.2.phase == .spilled || !e.2.staged.isEmpty)
    | none => false) s3
  let s5 := { s4 with sec := { s4.sec with
    regionSlots := tabMap (fun _ k => if regionOnStack s4 g k.region then { k with xk := none } else k) s4.sec.regionSlots } }
  zeroCounters (0x40 + g) (fun b _ => b == 1) (if trains then s5 else loseStack g s5)

/-- A lane group is cleared: its lanes are removed, its rings wait to be relocked or searched, its circuits are lost
(Table 17.7). `k` is 8 × engine + fibre. -/
def clearGroup (k : Nat) (s : State) : State :=
  let e := k / 8
  let f := k % 8
  let s1 := (List.range 40).foldl (fun s n => unlockRing e f (n / 8) (n % 8) s) s
  let s2 := (List.range 8).foldl (fun s c => if (lane s (8 * k + c)).phase = .dark then s else laneFalls (8 * k + c) .unlock s) s1
  let s3 := modOpt (fun o => { o with partialDue := distinct (o.partialDue ++ [2 * k, 2 * k + 1]) }) s2
  zeroCounters (0x50 + die e) (fun b x => b == 1 && x / 8 / 8 == k % 32 || b == 2 && x / 8 == k % 32) s3

/-- A port is cleared: DOWN, then it trains (03 Table 3.10). -/
def clearPort (p : Nat) (s : State) : State :=
  tryHello p (zeroCounters (0x10 + p / 64) (fun b x => b == 2 && x / 32 == p % 64) (enterDown p 0x0A s))

/-- An engine exists (Table 17.7). -/
def engineKnown (s : State) (typ idx : Nat) : Bool :=
  typ == 1 && decide (idx < 64) || typ == 2 && idx == 0 || typ == 3 && decide (idx < 32) || typ == 4 && decide (idx < 16) ||
    typ == 5 && decide (idx < 256) || typ == 6 && portKnown s idx

/-- Clear one engine; `trains` says that a stack trains afterwards. -/
def clearEngine (typ idx : Nat) (trains : Bool) (s : State) : State :=
  if typ = 1 then clearKnead idx s else if typ = 2 then clearMill s else if typ = 3 then clearChannel idx s
  else if typ = 4 then clearStack idx trains s else if typ = 5 then clearGroup idx s else clearPort idx s

/-- The engines that an island's L2 resets (Table 17.8): TYPE and INDEX. -/
def islandEngines (s : State) (i : Nat) : List (Nat × Nat) :=
  if 0x10 ≤ i ∧ i < 0x30 then ((allPorts s).filter (fun p => p / 64 == i - 0x10)).map (fun p => (6, p))
  else if 0x08 ≤ i ∧ i < 0x10 then ((allPorts s).filter (fun p => p / 256 == i - 0x08)).map (fun p => (6, p))
  else if 0x30 ≤ i ∧ i < 0x38 then (List.range 8).map (fun u => (1, 8 * (i - 0x30) + u))
  else if i = 0x38 then [(2, 0)]
  else if 0x40 ≤ i ∧ i < 0x50 then [(4, i - 0x40), (3, 2 * (i - 0x40)), (3, 2 * (i - 0x40) + 1)]
  else if 0x50 ≤ i ∧ i < 0x58 then (List.range 32).map (fun k => (5, 32 * (i - 0x50) + k))
  else []

/-! ## Islands with their contents -/

/-- A cluster in reset: its ports are DOWN, its lanes dark, the link keys of its ports gone (01 R27; 18 Table 18.4). -/
def clearCluster (k : Nat) (s : State) : State :=
  let s1 := ((allPorts s).filter (fun p => p / 64 == k)).foldl (fun s p => enterDown p 0x0A s) s
  let s2 := (List.range 64).foldl (fun s n => modLane (64 * k + n) (fun x => { x with
    phase := .dark, acquireExpiries := 0, ownReady := false, peerReady := false, removeSent := none, removeSeen := none,
    suspended := false }) s) s1
  { s2 with sec := { s2.sec with linkSlots := tabMap (fun _ x =>
      if x.port / 64 = k then { x with rk := none, inst := 0, tk := none, misses := 0 } else x) s2.sec.linkSlots } }

/-- A slice's tables after L3: rewritten from firmware's shadow, learned entries lost (Table 17.10). -/
def restoreSlice (n : Nat) (s : State) : State :=
  modSlice n (fun x => { x with
    dest := (x.locks.foldl (fun t l => (t.filter (fun e => bucketOf x e.1 != l.bucket)).foldl (fun t e => tabPut t e.1 e.2)
      (l.before.filter (fun e => bucketOf x e.1 == l.bucket))) x.dest).filter (fun e => e.2.isStatic),
    locks := [], deferred := [], learnQueue := [], badParity := [], toldParity := [] }) s

/-- Exchanges of KEY.SESSION in progress end INTERNAL, and the session keys are gone (17 R553; 18 Table 18.4). -/
def endKeySessions (s : State) : State :=
  let s1 := s.mgmt.mailboxes.foldl (fun s m =>
    (m.2.outstanding.filter (fun c => c.opcode == 0x0F01 && c.running)).foldl (fun s c =>
      answer ⟨m.1, c.cls, c.seq, m.2.cert⟩ 0x0F01 .internal [] s) s) s
  { s1 with sec := { s1.sec with sessions := [] } }

/-- What the reset of one island clears and restores at L3. -/
def clearIsland (i : Nat) (trains : Bool) (s : State) : State :=
  let s1 := if 0x10 ≤ i ∧ i < 0x30 then clearCluster (i - 0x10) s
    else if 0x08 ≤ i ∧ i < 0x10 then restoreSlice (i - 0x08) s
    else (islandEngines s i).foldl (fun s e => clearEngine e.1 e.2 trains s) s
  let s2 := if 0x30 ≤ i ∧ i < 0x38 then
      modLoaf (fun l => { l with contexts := tabMap (fun _ c =>
        if c.knead / 8 = i - 0x30 ∧ !loafRunning c then { c with fresh := true, slots := [] } else c) l.contexts }) s1
    else if i = 0x38 then endKeySessions s1
    else s1
  zeroCounters i (fun _ _ => true) s2

/-! ## The whole device -/

/-- What every start clears, L4 included: links, buffer, tables, scheduling, loafs, the Mill, time, circuits, sessions,
mailboxes, events, counters (Table 17.10; 14 R474; 15 R500). The crossbar's device time counts from 0 (13 R428). -/
def clearChip (s : State) : State :=
  { s with
    ctl := { State.reset.ctl with
             islands := tabRemap islandReset (fun n x => { islandReset n with pllLock := x.pllLock }) s.ctl.islands }
    opt := { s.opt with
             circuits := [], lastChange := [], fades := [],
             fibres := tabRemap fibreReset (fun _ f => { f with
               reduced := false, probing := false, probeLow := none, loopback := false }) s.opt.fibres }
    time := State.reset.time
    link := State.reset.link
    buf := { State.reset.buf with badCells := s.buf.badCells }
    tbl := State.reset.tbl
    sched := State.reset.sched
    loaf := State.reset.loaf
    mgmt := State.reset.mgmt
    fab := State.reset.fab
    mill := State.reset.mill
    gran := { s.gran with
              writes := [], reads := [], asks := [], commits := [], channels := [], grists := [], disabling := none,
              corrected := [], scrub := 0, nextAsk := 0 }
    tele := { State.reset.tele with jtag := s.tele.jtag, dumpSeq := s.tele.dumpSeq }
    winnow := { State.reset.winnow with policies := s.winnow.policies, log := s.winnow.log, nextSeq := s.winnow.nextSeq }
    rst := { s.rst with asked := [], l2Times := [], l3Times := [] }
    clk := { s.clk with dev := 0, rho := 0 }
    power := { s.power with
               depth := [0, 0, 0, 0], underRun := 0, fullRun := 0, capEventRaised := false, capUnattainable := false,
               coolantDelta := false, cap := 0 }
    sec := { State.reset.sec with
             linkSlots := tabMap (fun _ x => { x with rk := none, inst := 0, tk := none, misses := 0 }) s.sec.linkSlots,
             regionSlots := tabMap (fun _ x => { x with xk := none }) s.sec.regionSlots } }

/-- Every island's data role in reset, with its PLL as it is. -/
def holdAll (s : State) : State :=
  { s with ctl := { s.ctl with
      islands := tabRemap islandReset (fun _ x => { x with dataReset := true, peerAbsent := true }) s.ctl.islands } }

/-- Every laser off and every ring unpowered: the ring bindings are lost with the heaters' power (02 R43). -/
def darkOptics (s : State) : State :=
  modOpt (fun o => { o with
    rings := [], cutovers := [], circuits := [], searchDue := [], partialDue := [],
    bays := tabRemap bayReset (fun _ b => { b with use := .off, darkColours := 0 }) o.bays }) s

/-- What no start after MOD_RST_N, a cycle, or loss of power keeps beside the flash (Table 17.10): the Granary, the keys'
bindings, the measurement, the numbering of dumps. -/
def clearAll (s : State) : State :=
  let s1 := clearChip s
  { s1 with
    opt := { State.reset.opt with bays := tabRemap bayReset (fun _ b => { b with use := .off, darkColours := 0 }) s1.opt.bays }
    gran := State.reset.gran
    tele := { State.reset.tele with jtag := s1.tele.jtag }
    winnow := State.reset.winnow
    rst := State.reset.rst
    clk := State.reset.clk
    sec := State.reset.sec
    ctl := State.reset.ctl
    buf := State.reset.buf }

end Sys2Proof.Machine
end

