-- ==== Sys2Proof/Machine/Records.lean ====
section
/-! DEFINITION. The records that debug windows and dumps show: loaf contexts (08 Table 8.8), channel state (11 Table
11.11), proposals (18 Table 18.7), and the sections of a dump (17 Table 17.13). -/

namespace Sys2Proof.Machine

def loafPhaseCode : LoafPhase → Nat
  | .idle => 0 | .running => 1 | .spilled => 2 | .draining => 3 | .aborting => 4

/-- A loaf context (08 Table 8.8). -/
def loafCtxWords (s : State) (key : Nat) (c : LoafCtx) : List Word :=
  match held s (key / 4096) c.recipeId with
  | none => List.replicate 8 0
  | some h =>
    let rc := h.recipe
    let n := groupSize s rc.gid
    [wordOf [at_ 31 31 1, at_ 30 28 (loafPhaseCode c.phase), at_ 19 0 rc.gid],
      wordOf [at_ 31 20 c.portion, at_ 19 14 c.knead, at_ 13 10 (rc.window - 1), at_ 9 9 (bit c.aborted)],
      w32 c.seq,
      wordOf [at_ 31 16 rc.signature, at_ 15 0 (portionFrags rc n (portionPos rc c.portion) - 1)],
      wordOf [at_ 31 28 rc.pattern, at_ 27 24 rc.op, at_ 23 16 rc.dtype, at_ 15 14 rc.round, at_ 13 13 (bit rc.ordered),
        at_ 12 12 (bit rc.all)],
      wordOf [at_ 31 14 (liveCount n c.live)],
      wordOf [at_ 31 16 rc.recipeId, at_ 15 0 h.spill],
      wordOf [at_ 31 15 c.done, at_ 14 12 c.lstatus]]

def channelPhaseCode : ChannelPhase → Nat
  | .idle => 0 | .running => 1 | .stopping => 2 | .stopped => 3 | .error => 4

/-- Channel state (11 Table 11.11). -/
def channelWords (ch : Channel) : List Word :=
  let c := ch.cfg
  [wordOf [at_ 31 31 (bit c.enable), at_ 30 28 (channelPhaseCode ch.phase), at_ 27 23 c.ringLog2, at_ 11 0 c.pid],
    wordOf [at_ 31 16 c.ringRegion, at_ 15 0 (c.ringOffset / 2 ^ 32)], w32 c.ringOffset,
    wordOf [at_ 31 16 c.cplRegion, at_ 15 0 (c.cplOffset / 2 ^ 32)], w32 c.cplOffset,
    wordOf [at_ 16 0 c.producer], wordOf [at_ 16 0 ch.consumer], w32 c.count]

/-- EXPIRY of a proposal as device time, as known at acceptance. -/
def expiryDev (p : Proposal) : Nat := p.created + proposalLife * 65536

/-- A proposal record (18 Table 18.7). -/
def proposalWords (id : Nat) (p : Proposal) : List Word :=
  [w32 id,
    wordOf [at_ 31 16 p.opcode, at_ 15 13 (proposalCode p.state), at_ 12 12 (bit p.opApproved), at_ 11 11 (bit p.pgApproved),
      at_ 5 0 p.origin.mailbox],
    wordOf [at_ 31 20 p.pid, at_ 7 0 p.finalStatus]] ++ t96Words p.created ++ t96Words (expiryDev p) ++
    natWords 16 p.nonce ++ natWords 16 p.bodyDigest ++ [w32 p.bodyLen, 0, 0]

/-! ## Dump sections -/

/-- A section: TYPE, ISLAND, PID, bytes per record, and the records. -/
structure Section where
  type : Nat
  island : Nat
  pid : Nat
  recBytes : Nat
  records : List (List Word)
  deriving DecidableEq, Repr

/-- µs of a span of reference time. -/
def spanUs (a b : Nat) : Nat := Nat.min (2 ^ 32 - 1) ((b - a) / 1000)

/-- Split records by partition into sections of one type, partitions in ascending order. -/
def sectionsByPid (type isl bytes : Nat) (rs : List (Nat × List Word)) : List Section :=
  let pids := (List.range 4096).filter (fun p => rs.any (fun r => r.1 == p))
  pids.map (fun p => ⟨type, isl, p, bytes, (rs.filter (fun r => r.1 == p)).map (·.2)⟩)

/-- 0x01: ISLAND_INFO and AGENT_STATUS of every island. -/
def agentRecords (s : State) : List (List Word) := islandIds.map (fun i => [islandInfo s i, agentStatus s i])

/-- 0x03: the queues that hold something. -/
def queueRecords (s : State) : List (List Word) :=
  (allPorts s).flatMap (fun p => (List.range 16).filterMap (fun k =>
    let cls := k / 2
    let vc := k % 2
    let cells := ((sourceQueues s p cls vc).map (cellsOfCopies s)).sum
    let pt := port s p
    let credit := (tabGet zeroTab pt.crTotal (cvKey cls vc) + 4096 - tabGet zeroTab pt.crSent (cvKey cls vc)) % 4096
    if cells = 0 then none
    else some [wordOf [at_ 31 21 p, at_ 20 18 cls, at_ 17 17 vc], w32 cells, w32 (if lossless cls then credit else 0),
      w32 (spanUs (tabGet zeroTab s.buf.lastSent (pcvKey p cls vc)) (nowRef s))]))

/-- The partition of a group. -/
def groupPid (s : State) (gid : Nat) : Nat := ((group s gid).map (·.pid)).getD 0

/-- 0x05: trigger counters. A loaf slot counts its arrivals toward its threshold, a Mill program's counter toward that of
the WAIT it stands at, a grist program its staged chunks toward four. -/
def triggerRecords (s : State) : List (Nat × List Word) :=
  let rec3 (pid ctx src n th : Nat) : Nat × List Word := (pid, [wordOf [at_ 31 18 ctx, at_ 17 16 src], w32 n, w32 th, 0])
  s.loaf.contexts.flatMap (fun e => match held s (e.1 / 4096) e.2.recipeId with
    | some h => e.2.slots.map (fun x => rec3 (groupPid s (e.1 / 4096)) e.2.index 0 x.2.seen.length
        (slotThreshold h.recipe (liveCount (groupSize s h.recipe.gid) e.2.live)))
    | none => []) ++
  s.mill.programs.flatMap (fun e => if e.2.running then
      (e.2.counters.zipIdx.filter (fun x => decide (0 < x.1))).map (fun x =>
        let i := e.2.code.getD e.2.pc []
        rec3 e.2.pid e.1 1 x.1 (if insOp i = 4 ∧ insCounter i = x.2 then insImm i else 0))
    else []) ++
  s.gran.grists.map (fun e => rec3 e.2.params.pid e.1 2 e.2.staged.length 4)

/-- 0x07: bucket locks. -/
def lockRecords (s : State) : List (List Word) :=
  (List.range 8).flatMap (fun n => (slice s n).locks.map (fun l =>
    [wordOf [at_ 31 29 n, at_ 28 28 (bit (decide (l.bucket = overflowBucket))),
      at_ 27 0 (if l.bucket = overflowBucket then 0 else l.bucket)], w32 (spanUs l.since (nowRef s))]))

/-- 0x09: tokens. -/
def tokenRecords (s : State) : List (Nat × List Word) :=
  s.mill.contexts.flatMap (fun c => c.2.tokens.map (fun t => (c.2.record.pid,
    [wordOf [at_ 31 25 c.1], w32 (4 * t.ident), wordOf [at_ 31 12 t.origin, at_ 11 0 c.2.record.pid],
      wordOf [at_ 31 24 (t.slots.filter (·.counted)).length]])))

/-- 0x0A: commands, under the partition their mailbox is bound to. -/
def commandRecords (s : State) : List (Nat × List Word) :=
  s.mgmt.mailboxes.flatMap (fun m => m.2.outstanding.map (fun c => (m.2.pid.getD 0,
    [wordOf [at_ 31 26 m.1, at_ 15 0 c.opcode], w32 c.seq, w32 c.stepsDone, w32 (spanUs (nowRef s) c.deadline)])))

/-- 0x0B: grist slots. -/
def gristRecords (s : State) : List (Nat × List Word) :=
  s.gran.grists.map (fun e => (e.2.params.pid,
    [wordOf [at_ 31 26 e.1, at_ 25 24 (gristPhaseCode e.2.phase), at_ 23 12 e.2.params.pid], w32 e.2.next, w32 e.2.lateCount, 0]))

/-- A channel that has been used. -/
def usedChannels (s : State) : List (Nat × Channel) := s.gran.channels

/-- The sections of a dump, those of hardware alone when firmware does not run; only objects in use. The firmware log of
type 0x0C has no content in the model. -/
def dumpSections (hw : Bool) (s : State) : List Section :=
  let whole (type isl bytes : Nat) (rs : List (List Word)) : List Section := if rs.isEmpty then [] else [⟨type, isl, 0, bytes, rs⟩]
  let h1 := whole 0x01 0 8 (agentRecords s) ++ whole 0x02 0 16 ((allPorts s).map (neighbourEntry s)) ++
    whole 0x03 0 16 (queueRecords s) ++
    sectionsByPid 0x04 0x38 32 (s.loaf.contexts.map (fun e => (groupPid s (e.1 / 4096), loafCtxWords s e.1 e.2))) ++
    sectionsByPid 0x05 0x38 16 (triggerRecords s)
  let q := if hw then [] else sectionsByPid 0x06 0 176 (s.sec.proposals.map (fun e => (e.2.pid, proposalWords e.1 e.2)))
  let h2 := whole 0x07 0 8 (lockRecords s) ++
    sectionsByPid 0x08 0 32 ((usedChannels s).map (fun e => (e.2.cfg.pid, channelWords e.2)))
  let f := if hw then [] else sectionsByPid 0x09 0 16 (tokenRecords s) ++ sectionsByPid 0x0A 0 16 (commandRecords s) ++
    sectionsByPid 0x0B 0 16 (gristRecords s)
  h1 ++ q ++ h2 ++ f

/-- Bytes of a section. -/
def sectionBytes (x : Section) : Nat := x.recBytes * x.records.length

/-- Keep the sections that fit: header, directory and sections within 64 MiB. -/
def fitSections : Nat → List Section → List Section
  | _, [] => []
  | room, x :: xs => if sectionBytes x + 16 ≤ room then x :: fitSections (room - sectionBytes x - 16) xs else fitSections room xs

/-- The directory entries, sections laid out from an offset (Table 17.12). -/
def directory : Nat → List Section → List Word
  | _, [] => []
  | off, x :: xs =>
    [wordOf [at_ 31 24 x.type, at_ 23 16 x.island, at_ 11 0 x.pid], w32 off, w32 (sectionBytes x),
      wordOf [at_ 31 12 x.records.length, at_ 11 0 x.recBytes]] ++ directory (off + sectionBytes x) xs

/-- The words of a dump (17 Tables 17.11, 17.12): level, trigger, scope, ARG words. -/
def dumpWords (hw : Bool) (lvl trigger scope : Nat) (args : List Nat) (s : State) : List Word :=
  let all := dumpSections hw s
  let kept := fitSections (2 ^ 26 - 64) all
  let base := 64 + 16 * kept.length
  let len := base + (kept.map sectionBytes).sum
  let head := [wordOf [at_ 31 24 1, at_ 23 21 lvl, at_ 20 20 (bit hw), at_ 19 19 (bit (decide (kept.length < all.length))),
      at_ 15 0 kept.length],
    wordOf [at_ 31 16 trigger, at_ 15 0 s.start.cfg.starts], w32 s.tele.dumpSeq] ++ t96Words s.clk.dev ++
    [w32 scope, w32 len] ++ (List.range 6).map (fun i => w32 (args.getD i 0)) ++ [0]
  let body := directory base kept ++ kept.flatMap (fun x => x.records.flatten)
  head ++ [crc32c (wordsBytes (head ++ [0] ++ body))] ++ body

/-- Offset of dump slot SEQ mod 16 in the crumb region (R561). -/
def dumpOffset (seq : Nat) : Nat := 0xC0000000 + seq % 16 * 2 ^ 26

/-- Write a dump: to its slot of the crumb region when the stacks have been trained in this start (R560 to R563). -/
def writeDump (hw : Bool) (lvl trigger scope : Nat) (args : List Nat) (s : State) : State :=
  if s.start.stacksTrained then
    let ws := dumpWords hw lvl trigger scope args s
    let s1 := writeBytes 0xFFFF (dumpOffset s.tele.dumpSeq) (wordsBytes ws) s
    modStart (fun st => { st with dumpValid := true })
      (countControl 4 (modTele (fun t => { t with dumpSeq := (t.dumpSeq + 1) % 2 ^ 32 }) s1))
  else modStart (fun st => { st with dumpValid := false }) s

end Sys2Proof.Machine
end

