-- ==== Sys2Proof/Machine/Reset.lean ====
section
/-! DEFINITION. Escalation: L2 and L3 resets, overruns, dumps that run late, watchdogs (17 17.4 to 17.7). -/

namespace Sys2Proof.Machine

/-- A reset begins: its dump, unless that has run out of time, its record and its event (R551; 19 R600, R602). -/
def beginReset (e : Escalation) (s : State) : State :=
  let seq := s.tele.dumpSeq
  let s1 := if e.active then s else writeDump false e.level e.trigger e.scope e.args s
  raiseBoth 0x0002 [e.level, e.trigger, e.scope, seq] (noteLevel e.level s1)

/-- The reset asked for at a level over a scope. -/
def askedFor (s : State) (lvl scope : Nat) : Option Escalation :=
  s.rst.asked.find? (fun e => e.level == lvl && e.scope == scope)

/-- Take an escalation off the list. -/
def dropAsked (e : Escalation) (s : State) : State :=
  modRst (fun r => { r with asked := r.asked.filter (fun x => !(x.level == e.level && x.scope == e.scope)) }) s

/-- Times of a list that lie within a span of now. -/
def recentTimes (s : State) (span : Nat) (ts : List Nat) : List Nat := ts.filter (fun t => decide (nowRef s < t + span))

/-- L2 of one engine, if asked for: the third within 60 s goes to L3 instead (Tables 17.6, 17.7). -/
def resetEngine (typ idx : Nat) (trains : Bool) (s : State) : State :=
  let scope := engineScope typ idx
  match askedFor s 2 scope with
  | none => s
  | some e =>
    let recent := recentTimes s 60000000000 (tabGet (fun _ => []) s.rst.l2Times scope)
    if 2 ≤ recent.length then escalateIsland (scopeIsland scope) 0x0007 [e.trigger] (dropAsked e s)
    else
      clearEngine typ idx trains (modRst (fun r => { r with
        l2Times := tabSet (fun _ => []) r.l2Times scope (nowRef s :: recent) }) (dropAsked e (beginReset e s)))

/-- L2 of an engine; `trains` says that a stack trains again afterwards. -/
def execEngineReset (typ idx : Nat) (trains : Bool) (s : State) : Host.Outcome State Fault Refusal :=
  onUnit (engineKnown s typ idx) (resetEngine typ idx trains s)

/-- The islands of a scope return to service. -/
def returnScope (is : List Nat) (s : State) : State :=
  is.foldl (fun s i => modIsland i (fun x => { x with unresponsive := false, accesses := [] }) (releaseIsland i s)) s

/-- L3 of the scope that an island belongs to, if asked for: the third within 10 min goes to L4 instead. The scope returns
when every PLL of it is locked; until then the reset stays in progress (Tables 17.6, 17.8). -/
def resetScope (i : Nat) (trains : Bool) (s : State) : State :=
  let scope := islandScope (l3Home i)
  match askedFor s 3 scope with
  | none => s
  | some e =>
    let recent := recentTimes s 600000000000 (tabGet (fun _ => []) s.rst.l3Times scope)
    if 2 ≤ recent.length then escalate 4 0 0x0007 [e.trigger] (dropAsked e s)
    else
      let is := l3Islands i
      let s1 := modRst (fun r => { r with l3Times := tabSet (fun _ => []) r.l3Times scope (nowRef s :: recent) })
        (holdIslands is (dropAsked e (beginReset e s)))
      let s2 := is.reverse.foldl (fun s i => clearIsland i trains s) s1
      if is.all (fun i => (island s2 i).pllLock) then returnScope is s2
      else modRst (fun r => { r with asked := r.asked ++ [{ e with active := true }] }) s2

def execScopeReset (isl : Nat) (trains : Bool) (s : State) : Host.Outcome State Fault Refusal :=
  onUnit (islandKnown isl) (resetScope isl trains s)

/-- An L1 action has not ended within 1 ms: L2 of the engine that holds the object (Table 17.9, 0x0003). -/
def execL1Overrun (typ idx objType ident : Nat) (s : State) : Host.Outcome State Fault Refusal :=
  onUnit (engineKnown s typ idx) (escalate 2 (engineScope typ idx) 0x0003 [objType, ident] s)

/-- An L2 has not ended in time: L3 of the engine's island (0x0008). -/
def execL2Overrun (typ idx : Nat) (s : State) : Host.Outcome State Fault Refusal :=
  onUnit (engineKnown s typ idx)
    (match askedFor s 2 (engineScope typ idx) with
    | none => s
    | some e => escalateIsland (engineIsland typ idx) 0x0008 [e.trigger] (dropAsked e s))

/-- An L3 has not ended in time: L4 (0x0008). -/
def execL3Overrun (isl : Nat) (s : State) : Host.Outcome State Fault Refusal :=
  onUnit (islandKnown isl)
    (match askedFor s 3 (islandScope (l3Home isl)) with
    | none => s
    | some e => escalate 4 0 0x0008 [e.trigger] (dropAsked e s))

/-- A dump has not completed within 10 ms: the oldest reset that waits goes on without it (R563). -/
def execDumpTimeout (s : State) : Host.Outcome State Fault Refusal :=
  .next (match s.rst.asked.find? (fun e => !e.active) with
  | none => s
  | some e =>
    modStart (fun st => { st with dumpValid := false })
      (modRst (fun r => { r with asked := r.asked.map (fun x => if x = e then { x with active := true } else x) }) s))

/-- The control-core watchdog: the hardware writes its dump, and a warm start follows (R555). -/
def execWatchdogExpiry (core : Nat) (s : State) : Host.Outcome State Fault Refusal :=
  onUnit (decide (core < 4))
    (if s.start.phase = .running then
      let s1 := writeDump true 4 0x0009 0 [core] s
      let s2 := escalate 4 0 0x0009 [core] s1
      modRst (fun r => { r with asked := r.asked.map (fun x =>
        if x.level = 4 ∧ x.trigger = 0x0009 then { x with active := true } else x) }) s2
    else s)

/-- An uncorrectable error in protected SRAM (Table 17.9, 0x000A). -/
def execProtectedSramError (s : State) : Host.Outcome State Fault Refusal :=
  .next (if s.start.phase = .running then escalate 4 0 0x000A [] s else s)

end Sys2Proof.Machine
end

