-- ==== Sys2Proof/Machine/Start.lean ====
section
/-! DEFINITION. Starts: loss of power, MOD_RST_N, cold and warm start, L5 (chapter 17; 20 20.4, 20.5). -/

namespace Sys2Proof.Machine

def modPower (f : PowerState → PowerState) (s : State) : State := { s with power := f s.power }

/-- Every island in reset with nothing kept but the flash (17 R538, R559): phase RESET. -/
def coldHold (s : State) : State :=
  modStart (fun st => { cutWrite st with
    phase := .reset, step := 0, lastLevel := 0, dumpValid := false, resident := none, measurement := 0,
    stacksTrained := false, recoveryLog := [], staging := [], pendingReset := none }) (clearAll s)

/-- The rails go off: no signal is driven (20 R618, R625). -/
def dropPower (s : State) : State :=
  modPower (fun p => { p with
    vinOn := false, rails := false, pwrOk := false, cycleReq := false, statusOnly := false, alert := false }) (coldHold s)

/-- A cold start is triggered: step 1 (17 Table 17.1). -/
def beginCold (s : State) : State := modStart (fun st => { st with phase := .cold, step := 1 }) s

/-! ## Common steps -/

/-- Change the configuration store in a step of a start that ends with the write (17 Tables 17.2, 17.4). -/
def storeNow (f : ConfigStore → ConfigStore) (s : State) : State :=
  modStart (fun st => completeWrite (beginStoreWrite { st with cfg := f st.cfg })) s

/-- Every PLL locked; the islands of a list leave reset. -/
def lockIslands (release : List Nat) (s : State) : State :=
  islandIds.foldl (fun s i => modIsland i (fun x =>
    { x with pllLock := true, dataReset := !release.contains i, peerAbsent := !release.contains i }) s) s

/-- The islands of a list leave reset, every other enters it; the PLLs stay as they are. -/
def releaseOnly (release : List Nat) (s : State) : State :=
  islandIds.foldl (fun s i => modIsland i (fun x =>
    { x with dataReset := !release.contains i, peerAbsent := !release.contains i }) s) s

/-- The management ports of a start: up, all eight or those of network A. -/
def mgmtUp (n : Nat) (s : State) : State :=
  { s with mgmt := { s.mgmt with
      ports := (List.range n).foldl (fun t p => tabMod mgmtPortReset (fun x => { x with up := true }) t p) s.mgmt.ports } }

/-- The start event (19 Table 19.4): kind, start count, and the reset that led to it. -/
def startEvent (kind : Nat) (r : Option LastReset) (s : State) : State :=
  let x := r.getD ⟨0, 0, 0, 0⟩
  raiseBoth 0x0001 [kind, s.start.cfg.starts, x.level * 2 ^ 16 + x.trigger, x.scope, x.dumpSeq] s

/-- Recovery mode: the loader on network A, everything else dark (R545). -/
def enterRecovery (s : State) : State :=
  let r := s.start.cfg.lastReset
  startEvent 2 r (mgmtUp 4 (modStart (fun st => { st with phase := .recovery, step := 0, stacksTrained := false })
    (lockIslands [0] s)))

/-- Failures that the SRAM self-test finds: cells left out, Knead groups and the Mill disabled as by command (Table 17.3). -/
def sramOutcome (o : StartOutcome) (s : State) : State :=
  let units := (o.badKneadGroups.filter (fun g => decide (g < 8))).flatMap (fun g => (List.range 8).map (8 * g + ·))
  let s1 := modBuf (fun b => { b with badCells := o.badCells }) s
  if units.isEmpty && !o.badMill then s1
  else storeNow (fun c => { c with kneadOff := distinct (c.kneadOff ++ units), millOff := c.millOff || o.badMill }) s1

/-- The image area holds an image that verifies. -/
def goodImage (st : StartState) : Option Image := st.flashImage.filter (fun i => i.signed)

/-- Every start seeds the generator of each egress slice (05 R186). -/
def seedSlices (s : State) : State :=
  (List.range 8).foldl (fun s n =>
    let (k, s1) := drawFree s
    modSlice n (fun x => { x with lfsr := seedOf k }) s1) s

/-- Load the flash image: the resident image and its measurement (R539 steps 4, 5). -/
def loadImage (i : Image) (s : State) : State := modStart (fun st => { st with resident := some i, measurement := i.digest }) s

/-- A start fails: the boot ROM requests L5 (R544). -/
def failStart (step : Nat) (s : State) : State :=
  escalate 5 0 0x000C [] (modStart (fun st => { st with step := step }) s)

/-! ## Cold start -/

/-- An idle spare takes the place of a bay that does not lock, else its lanes are failed (Table 17.3, step 8). -/
def replaceBay (b : Nat) (s : State) : State :=
  match idleSpare s with
  | some sp =>
    countDie b 1 (raise15 0x0102 [b, sp, 0] (storeNow (fun c => { c with cutover := tabPut c.cutover b sp })
      (modBay sp (fun x => { x with use := .serving b }) s)))
  | none => (bayLanes b).foldl (fun s l => failLane l 1 s) s

/-- Laser bays warm up and lock: a bay that a spare serves stays off; an active one lights or is replaced (step 8). -/
def warmBays (o : StartOutcome) (s : State) : State :=
  let good (b : Nat) : Bool := o.baysFitted.contains b && !o.badBays.contains b
  let spareOf (b : Nat) : Option Nat := (tabGet? s.start.cfg.cutover b).filter good
  let s1 := (List.range 10).foldl (fun s b => modBay b (fun _ => {
    fitted := o.baysFitted.contains b,
    use := if b < 8 then (if (spareOf b).isSome then .off else if good b then .active else if o.baysFitted.contains b then .failed else .off)
      else match (List.range 8).find? (fun a => spareOf a == some b) with
        | some a => .serving a
        | none => if good b then .idle else if o.baysFitted.contains b then .failed else .off,
    darkColours := 0 }) s) s
  let s2 := ((List.range 8).filter (fun b => (spareOf b).isNone && good b && (tabGet? s.start.cfg.cutover b).isSome)).foldl
    (fun s b => storeNow (fun c => { c with cutover := tabDel c.cutover b }) s) s1
  ((List.range 8).filter (fun b => (spareOf b).isNone && !good b)).foldl (fun s b => replaceBay b s) s2

/-- The commissioning powers are captured at the first cold start with every bay fitted (02 Table 2.11). -/
def commissionPowers (o : StartOutcome) (s : State) : State :=
  if s.start.cfg.commission.isEmpty && (List.range 10).all o.baysFitted.contains then
    storeNow (fun c => { c with commission := (List.range 256).map (fun i => (i, o.powers.getD i 0)) }) s
  else s

/-- Steps 6 to 12: self-tests, stacks, bays, the searches that become due, ports in DOWN, sessions, the start event. -/
def coldRun (o : StartOutcome) (s : State) : State :=
  if o.protectedSramError then failStart 6 s
  else
    let bad := o.badStacks.filter (fun g => decide (g < 16))
    let s1 := sramOutcome o s
    let s2 := storeNow (fun c => { c with stackParams := (List.range 16).filter (fun g => !bad.contains g) })
      (modStart (fun st => { st with stacksTrained := true }) s1)
    let s3 := modGran (fun g => { g with lostStacks := bad }) s2
    let s4 := commissionPowers o (warmBays o (seedSlices (lockIslands islandIds s3)))
    let s5 := modOpt (fun x => { x with
      searchDue := List.range 512,
      dieTemp := (List.range 8).foldl (fun t d => tabSet (fun _ => 0) t d (o.dieTemps.getD d 0)) x.dieTemp }) s4
    let r := s5.start.cfg.lastReset
    let s6 := storeNow (fun c => { c with attempts := 0, lastReset := none }) (mgmtUp 8 s5)
    startEvent 0 r (modStart (fun st => { st with phase := .running, step := 0 }) s6)

/-- Steps 1 to 3 of a cold start: nothing volatile is left, the straps are sampled, the attempt and the start are counted
(Table 17.2; R541). -/
def coldPrepared (o : StartOutcome) (s : State) : State :=
  storeNow (fun c => { c with attempts := Nat.min 3 (c.attempts + 1), starts := c.starts + 1 })
    (modStart (fun st => { st with stacksTrained := false, recoveryLog := [], staging := [] })
      (modPower (fun p => { p with bootMode := o.bootMode % 4, modSlot := o.modSlot % 64 }) (clearAll s)))

/-- A cold start may run: triggered, with supply and reference, and no L5 asked for. -/
def coldReady (s : State) : Bool :=
  s.start.phase == .cold && s.power.pwrOk && s.power.refclk && !s.power.modRst && (askedFor s 5 0).isNone

/-- A cold start, once triggered and with the reference present (Table 17.2). -/
def execColdStart (o : StartOutcome) (s : State) : Host.Outcome State Fault Refusal :=
  .next (if !coldReady s then s
  else
    let s2 := coldPrepared o s
    if s.start.cfg.attempts = 3 ∨ o.bootMode % 4 = 1 ∨ o.bootMode % 4 = 3 then enterRecovery s2
    else if o.bootMode % 4 = 2 then modStart (fun st => { st with phase := .test, step := 0 }) (lockIslands [] s2)
    else
      match goodImage s2.start with
      | none => enterRecovery (storeNow (fun c => { c with attempts := 3 }) s2)
      | some i => coldRun o (loadImage i s2))

/-! ## Warm start -/

/-- The rings of a die come back: relocked from a good record near its temperature, else searched (02 R50, R51). -/
def returnRings (d temp : Nat) (s : State) : State :=
  let buses := dieBuses d
  match tabGet? s.start.cfg.perm d with
  | some r =>
    if r.check ≠ recordCheck d r then modOpt (fun o => { o with searchDue := o.searchDue ++ buses }) s
    else if temp ≤ r.ts + 500 ∧ r.ts ≤ temp + 500 then
      modOpt (fun o => { o with rings := tabRemap ringReset (fun k x =>
        if k / 1280 = d ∧ !x.failed then { x with mode := modeAfter false (rowOfKey k) } else x) o.rings }) s
    else modOpt (fun o => { o with partialDue := o.partialDue ++ buses }) s
  | none => modOpt (fun o => { o with searchDue := o.searchDue ++ buses }) s

/-- Pending proposals are lost and counted (18 R587). -/
def countLostProposals (n : Nat) (s : State) : State := if n = 0 then s else count (counterId 0 3 5) n s

/-- Steps 5 to 10 of a warm start. -/
def warmRun (o : StartOutcome) (r : LastReset) (lost : Nat) (s : State) : State :=
  let bad := o.badStacks.filter (fun g => decide (g < 16))
  let s1 := bad.foldl (fun s g => loseStack g s) (sramOutcome o s)
  let s2 := (List.range 8).foldl (fun s d => returnRings d (o.dieTemps.getD d 0) s) (seedSlices (lockIslands islandIds
    (modOpt (fun x => { x with searchDue := [], partialDue := [], cutovers := [] }) s1)))
  let s3 := modOpt (fun x => { x with
    dieTemp := (List.range 8).foldl (fun t d => tabSet (fun _ => 0) t d (o.dieTemps.getD d 0)) x.dieTemp }) s2
  let s4 := storeNow (fun c => { c with attempts := 0 }) (mgmtUp 8 s3)
  startEvent 1 (some r) (countLostProposals lost (modStart (fun st => { st with phase := .running, step := 0 }) s4))

/-- What a warm start clears first: its time is kept, the dump is written, the islands are held (Table 17.4). -/
def warmPrepared (e : Escalation) (s : State) : State :=
  let s1 := modRst (fun x => { x with l4Times := nowRef s :: recentTimes s 3600000000000 s.rst.l4Times }) (beginReset e s)
  modStart (fun st => { st with phase := .warm, step := 2, staging := [], recoveryLog := [] }) (holdAll (clearChip s1))

/-- An L4 that is asked for runs the warm start; the fourth within an hour goes to L5 (Tables 17.4, 17.6). -/
def execWarmStart (o : StartOutcome) (s : State) : Host.Outcome State Fault Refusal :=
  .next (match askedFor s 4 0 with
  | none => s
  | some e =>
    if 3 ≤ (recentTimes s 3600000000000 s.rst.l4Times).length then escalate 5 0 0x0007 [e.trigger] (dropAsked e s)
    else
      let s2 := warmPrepared e s
      if s2.start.cfg.attempts = 3 then failStart 3 s2
      else
        let s3 := storeNow (fun c => { c with attempts := Nat.min 3 (c.attempts + 1), starts := c.starts + 1 }) s2
        let r : LastReset := ⟨4, e.trigger, e.scope, s.tele.dumpSeq⟩
        if o.residentOk then warmRun o r (pendingProposals s).length s3
        else
          match goodImage s3.start with
          | none => enterRecovery (storeNow (fun c => { c with attempts := 3 }) (clearAll s3))
          | some i => warmRun o r (pendingProposals s).length (loadImage i s3))

/-- The attempt and the start are counted, at step 3 of a start (17 R541, R542). -/
def countStart (s : State) : State :=
  storeNow (fun c => { c with attempts := Nat.min 3 (c.attempts + 1), starts := c.starts + 1 }) s

/-- A start does not complete in time: the boot ROM requests L5 (R541, R544). `step` is the step it had reached; from
step 3 on the attempt is counted; after step 7 of a cold start the stacks have been trained. -/
def execStartTimeout (step : Nat) (s : State) : Host.Outcome State Fault Refusal :=
  .next (if s.start.phase = .cold then
    let s1 := if 3 < step then countStart s else s
    failStart step (modStart (fun st => { st with stacksTrained := decide (7 < step) }) s1)
  else match askedFor s 4 0 with
    | some e =>
      let s1 := warmPrepared e s
      failStart step (if 3 < step then countStart s1 else s1)
    | none => s)

/-! ## L5 -/

/-- The module cycle's hold: lasers and rings dark, every block but the stacks' memory and network A's sessions lost, the
loader's ports up, the reset remembered for the record after the cycle (R560). -/
def holdModule (e : Escalation) (s : State) : State :=
  let seq := s.tele.dumpSeq
  let s1 := beginReset e s
  let net := s1.mgmt.sessions.filter (fun x => x.2.network == 0)
  let s2 := modStart (fun st => { st with
    phase := .cycleHold, step := 0, pendingReset := some ⟨5, e.trigger, e.scope, seq⟩ }) (darkOptics (clearChip s1))
  mgmtUp 4 (releaseOnly (0 :: (List.range 16).map (0x40 + ·)) { s2 with mgmt := { s2.mgmt with
    sessions := net, nextSession := s1.mgmt.nextSession,
    mailboxes := tabRemap mailboxReset (fun n m => { mailboxReset n with
      session := m.session.filter (fun k => net.any (fun x => x.1 == k)) }) s1.mgmt.mailboxes } })

/-- L5: the dump, then every island but the control island and the Granary controllers in reset, lasers off, and the
commands of recovery on network A (R560). -/
def execModuleCycleHold (s : State) : Host.Outcome State Fault Refusal :=
  .next (match askedFor s 5 0 with
  | none => s
  | some e =>
    holdModule e s)

/-- CYCLE_REQ after the hold: the reset enters the configuration store, every island is held, the sessions end (R560; 20
R617). -/
def requestCycle (s : State) : State :=
  let s1 := modPower (fun p => { p with cycleReq := true }) s
  let s2 := modConfig (fun c => { c with lastReset := s.start.pendingReset }) s1
  modStart (fun st => { st with phase := .cycleRequested }) (holdAll { s2 with mgmt := State.reset.mgmt })

/-- The hold ends: the tray controller is asked for a power cycle and the last-reset record is stored (R560 steps 4, 5). -/
def execCycleHoldExpiry (s : State) : Host.Outcome State Fault Refusal :=
  .next (if s.start.phase = .cycleHold then
    requestCycle s
  else s)

/-- 60 s later the supply still stands: everything stays as it is, and START_STATUS alone is served (R568). -/
def execCycleRequestTimeout (s : State) : Host.Outcome State Fault Refusal :=
  .next (if s.start.phase = .cycleRequested then holdAll (darkOptics (modPower (fun p => { p with statusOnly := true }) s))
  else s)

/-- The flash write in progress ends (17 R549; 20 R628). -/
def execFlashWriteComplete (s : State) : Host.Outcome State Fault Refusal :=
  let s1 := modStart completeWrite s
  .next (match s.start.flashWrite with
  | some (.image _ (some o)) => finish o .ok [] (modConfig (fun c => { c with attempts := 0 }) s1)
  | _ => s1)

end Sys2Proof.Machine
end

