-- ==== Sys2Proof/Machine/Control.lean ====
section
/-! DEFINITION. Control agents, register accesses, crossings, island PLLs (chapter 1; 16 R533 to R535) and the JTAG port
(19 19.8). -/

namespace Sys2Proof.Machine

/-! ## Agent events (R20) -/

/-- An event enters the agent's queue of 16, or is counted as lost. -/
def pushAgentEvent (i : Nat) (e : AgentEvent) (s : State) : State :=
  if (island s i).events.length < 16 then modIsland i (fun x => { x with events := x.events ++ [e] }) s
  else countIsland i 1 1 (modIsland i (fun x => { x with lostCount := Nat.min 255 (x.lostCount + 1), lost := true }) s)

/-- The agent delivers its oldest event with the lost count and flag, which delivery clears. -/
def execAgentEventDelivery (isl : Nat) (s : State) : Host.Outcome State Fault Refusal :=
  onUnit (islandKnown isl)
    (match (island s isl).events with
    | [] => s
    | e :: es =>
      let x := island s isl
      modCtl (fun c => { c with delivered := c.delivered ++ [⟨isl, e, x.lostCount, x.lost⟩] })
        (modIsland isl (fun x => { x with events := es, lostCount := 0, lost := false }) s))

/-! ## PLLs (R29) -/

/-- A PLL loses lock: the data role is held in reset, the event is reported, and every engine of the island is at fault
at L2. A slice treats the ports of a reset cluster as down (R27). -/
def execPllUnlock (isl : Nat) (s : State) : Host.Outcome State Fault Refusal :=
  onUnit (islandKnown isl)
    (if (island s isl).pllLock then
      let s1 := countIsland isl 3 1 (modIsland isl (fun x => { x with pllLock := false }) s)
      let s2 := holdIslands [isl] (pushAgentEvent isl ⟨0, 0x0005, 0⟩ s1)
      let s3 := if 0x10 ≤ isl ∧ isl < 0x30 then clearCluster (isl - 0x10) s2 else s2
      (islandEngines s isl).foldl (fun s e => escalate 2 (engineScope e.1 e.2) 0x0005 [isl] s) s3
    else s)

/-- The PLL relocks: firmware releases the island. A reset of its scope that waited for this ends. -/
def execPllRelock (isl : Nat) (s : State) : Host.Outcome State Fault Refusal :=
  onUnit (islandKnown isl)
    (if (island s isl).pllLock || s.start.phase != .running then s
    else
      let s1 := modIsland isl (fun x => { x with pllLock := true }) s
      match s1.rst.asked.find? (fun e => e.level == 3 && e.active && (l3Islands (scopeIsland e.scope)).contains isl) with
      | some e =>
        let is := l3Islands (scopeIsland e.scope)
        if is.all (fun i => (island s1 i).pllLock) then returnScope is (dropAsked e s1) else s1
      | none => releaseIsland isl s1)

/-- 1 ms has passed without lock: L3. -/
def execPllRelockTimeout (isl : Nat) (s : State) : Host.Outcome State Fault Refusal :=
  onUnit (islandKnown isl) (if (island s isl).pllLock || s.start.phase != .running then s else escalateIsland isl 0x0005 [isl] s)

/-! ## Register accesses -/

def addrIsland (a : Nat) : Nat := a / 2 ^ 24
def addrBlock (a : Nat) : Nat := a / 2 ^ 16 % 256
def addrReg (a : Nat) : Nat := a / 4 % 2 ^ 14

/-- The debug window of an address (Table 16.15). -/
def windowOf (a : Nat) : Nat :=
  if addrBlock a = 0 ∧ addrReg a < 2 then 0
  else if addrIsland a = 0x38 ∧ 0x10 ≤ addrBlock a ∧ addrBlock a < 0x18 then 1
  else if 0x40 ≤ addrIsland a ∧ addrIsland a < 0x50 ∧ addrBlock a = 1 ∧ addrReg a < 16 then 2
  else 3

/-- Context of a D1 address, and the word of its record. -/
def ctxAddress (a : Nat) : Nat × Nat := ((addrBlock a - 0x10) * 2048 + addrReg a / 8, addrReg a % 8)

/-- The value of a register; none for an address error (R31). -/
def readRegister (s : State) (a : Nat) : Option Word :=
  let i := addrIsland a
  if !islandKnown i || a % 4 != 0 || decide (2 ^ 32 ≤ a) then none
  else if windowOf a = 0 then some (if addrReg a = 0 then islandInfo s i else agentStatus s i)
  else if windowOf a = 1 then
    some (match s.loaf.contexts.find? (fun e => e.2.index == (ctxAddress a).1) with
      | some e => (loafCtxWords s e.1 e.2).getD (ctxAddress a).2 0
      | none => 0)
  else if windowOf a = 2 then
    some ((channelWords (channel s (2 * (i - 0x40) + addrReg a / 8))).getD (addrReg a % 8) 0)
  else if Config.regAssigned a then some (tabGet regReset s.ctl.regs a)
  else none

/-- An access ends in an address error: the flag, and the count (R31, R533). -/
def addressError (i : Nat) (s : State) : State :=
  if islandKnown i then countIsland i 0 1 (modIsland i (fun x => { x with addrErr := true }) s) else s

/-- Carry out one access at an agent: a read answers the value, a write to a register of firmware's own use waits for the
next unit boundary of its block (R17, R31, R33); the read-only words of the windows take no write. -/
def doAccess (a : RegAccess) (s : State) : State :=
  let i := addrIsland a.addr
  match readRegister s a.addr with
  | none => emit (.access i a.addr 0 true) (addressError i s)
  | some v =>
    match a.write with
    | none => emit (.access i a.addr v.toNat false) s
    | some (w, m) =>
      let s1 := if windowOf a.addr = 3 then
          modCtl (fun c => { c with staged := c.staged ++ [(a.addr, (w &&& m) ||| (v &&& ~~~m))] }) s
        else if windowOf a.addr = 0 ∧ addrReg a.addr = 1 ∧ (w &&& m).getLsbD 0 then
          modIsland i (fun x => { x with addrErr := false }) s
        else s
      emit (.access i a.addr 0 false) s1

/-- Firmware sends accesses to an agent: eight outstanding at most, the others wait at firmware (R18). -/
def sendAccesses (i : Nat) (sent : List RegAccess) (s : State) : State :=
  let mine := s.ctl.held.filter (fun a => addrIsland a.addr == i) ++ sent
  let room := 8 - (island s i).accesses.length
  modCtl (fun c => { c with held := c.held.filter (fun a => addrIsland a.addr != i) ++ mine.drop room })
    (modIsland i (fun x => { x with accesses := x.accesses ++ mine.take room }) s)

/-- The agent executes its oldest access. -/
def execControlAgentAccess (isl : Nat) (sent : List RegAccess) (s : State) : Host.Outcome State Fault Refusal :=
  onUnit (islandKnown isl)
    (let s1 := sendAccesses isl sent s
    match (island s1 isl).accesses with
    | [] => s1
    | a :: as => sendAccesses isl [] (doAccess a (modIsland isl (fun x => { x with accesses := as }) s1)))

/-- A staged write takes effect at its unit boundary. An update by hardware in the same cycle is overridden; without a
write it stands (R21, R33). -/
def execRegisterWrite (addr : Nat) (hw : Option Word) (s : State) : Host.Outcome State Fault Refusal :=
  onUnit (islandKnown (addrIsland addr))
    (match s.ctl.staged.find? (fun x => x.1 == addr) with
    | some (_, v) => modCtl (fun c => { c with
        regs := tabSet regReset c.regs addr v, staged := c.staged.erase (addr, v) }) s
    | none => match hw with
      | some v => if Config.regAssigned addr then modCtl (fun c => { c with regs := tabSet regReset c.regs addr v }) s else s
      | none => s)

/-- A write of 1 to ADDR_ERR; `coincident` says that hardware sets it in the same cycle, which then stands (00 R10). -/
def execAddrErrClear (isl : Nat) (coincident : Bool) (s : State) : Host.Outcome State Fault Refusal :=
  onUnit (islandKnown isl)
    (if coincident then addressError isl s else modIsland isl (fun x => { x with addrErr := false }) s)

/-- An access has not been answered for 10 µs (R19). -/
def execAgentTimeout (isl addr : Nat) (s : State) : Host.Outcome State Fault Refusal :=
  onUnit (islandKnown isl)
    (if (island s isl).accesses.any (fun a => a.addr == addr) then
      escalateIsland isl 0x0006 [isl, addr]
        (crumb 0xF002 0 isl addr (modIsland isl (fun x => { x with unresponsive := true }) s))
    else s)

/-! ## Crossings (R24 to R27) -/

def crossing (s : State) (k : Nat) : Crossing := tabGet crossingReset s.ctl.crossings k

/-- The source writes an entry, if it has one, and the oldest entry of the queue becomes usable; a full queue leaves
entries with the source, a queue into an island in reset refuses them. -/
def execCrossingDelivery (src dst : Nat) (entry : Option Word) (s : State) : Host.Outcome State Fault Refusal :=
  onUnit (islandKnown src && islandKnown dst)
    (if (island s dst).dataReset then s
    else
      let k := crossKey src dst
      let x := crossing s k
      let all := x.held ++ entry.toList
      let room := Nat.max 1 (Config.crossingDepth k) - x.queue.length
      let q := x.queue ++ all.take room
      modCtl (fun c => { c with crossings := tabSet crossingReset c.crossings k {
        held := all.drop room, queue := q.drop 1, usable := x.usable ++ q.take 1 } }) s)

/-! ## JTAG -/

/-- Instructions that act as an assertion of MOD_RST_N (19 R609). -/
def disturbs (code : Nat) : Bool := code == 0x00 || code == 0x03 || code == 0x04 || code == 0x05 || code == 0x06

/-- A public instruction of Table 19.6. -/
def publicInstruction (code : Nat) : Bool := disturbs code || code == 0x01 || code == 0x02 || code == 0xFF

/-- The device leaves a disturbing instruction: a cold start begins. -/
def leaveTest (s : State) : State := if disturbs s.tele.jtag && !s.power.modRst then beginCold s else s

/-- An instruction is loaded: a private one is BYPASS while debug is locked (19 R606, R609; 18 R588). -/
def execJtagInstructionLoad (code : Nat) (s : State) : Host.Outcome State Fault Refusal :=
  .next (if !s.power.pwrOk ∨ 256 ≤ code then s
  else if disturbs code then
    modStart (fun st => { st with phase := .test }) (modTele (fun t => { t with jtag := code }) (coldHold s))
  else
    let c := if publicInstruction code || testBitN s.sec.unlocked 3 then code else 0xFF
    modTele (fun t => { t with jtag := c }) (leaveTest s))

/-- Test-Logic-Reset selects IDCODE (19 R607). -/
def execJtagTestLogicReset (s : State) : Host.Outcome State Fault Refusal :=
  .next (if !s.power.pwrOk then s else modTele (fun t => { t with jtag := 2 }) (leaveTest s))

end Sys2Proof.Machine
end

