-- ==== Sys2Proof/Machine/Mirror.lean ====
section
/-! DEFINITION. Asking for a mirror: candidates, asks and answers, replicas (11 11.5; 12 12.6, Table 12.5). -/

namespace Sys2Proof.Machine

/-- A mirror record's key: PID and SHARD. -/
def mirrorKey (pid shard : Nat) : Nat := pid * 2 ^ 32 + shard

/-- FTYPE of a FIRMWARE payload. -/
def firmwareType (k : Packet) : Nat := fld (payloadWord k 0) 31 24

/-- Send a FIRMWARE payload to a spine (R417). -/
def sendFirmware (dest : Nat) (ws : List Word) (s : State) : State :=
  sendControl (spineControl s 2 4 dest [] (wordsBytes ws)) s

/-- Take the front message when it is a FIRMWARE payload of a type. -/
def takeFirmware (ftype : Nat) (s : State) : Option (Packet × State) :=
  takeControl (fun k => xCtype k == 4 && firmwareType k == ftype) s

/-- Insert by descending free extents, then ascending SID. -/
def insertRoom (x : Nat × Nat) : List (Nat × Nat) → List (Nat × Nat)
  | [] => [x]
  | y :: ys => if y.1 < x.1 ∨ (y.1 = x.1 ∧ x.2 < y.2) then x :: y :: ys else y :: insertRoom x ys

/-- The spines that may mirror a shard, in the order in which they are asked (R414). -/
def mirrorCandidates (s : State) (pid shard : Nat) (tags : TagSet) : List Nat :=
  let rows := (policy s pid).spines.filterMap (fun x =>
    if diverse (policy s pid).diversity tags (spineTags s x) then (summaryOf s x).map (fun y => (y.extents, x)) else none)
  let sorted := (rows.foldl (fun l x => insertRoom x l) []).map (·.2)
  match tabGet? s.gran.mirrors (mirrorKey pid shard) with
  | some m => if sorted.contains m.sid && m.phase != 3 then m.sid :: sorted.filter (· != m.sid) else sorted
  | none => sorted

/-- The record of a new generation: the previous COMPLETE generation stays named (11 R383). -/
def nextMirror (s : State) (a : MirrorAsk) (phase sid region replica : Nat) : Mirror :=
  let fresh : Mirror := {
    owner := a.owner, phase := phase, sid := sid, region := region, generation := a.generation, prevSid := 0,
    prevRegion := 0, prevGeneration := 0, crc := 0, replica := replica, size := a.size }
  match tabGet? s.gran.mirrors (mirrorKey a.pid a.shard) with
  | none => fresh
  | some m =>
    if m.phase = 1 then { fresh with prevSid := m.sid, prevRegion := m.region, prevGeneration := m.generation }
    else { fresh with prevSid := m.prevSid, prevRegion := m.prevRegion, prevGeneration := m.prevGeneration }

/-- A damaged current generation that lies here is freed when a new one takes its place. -/
def dropDamaged (a : MirrorAsk) (s : State) : State :=
  match tabGet? s.gran.mirrors (mirrorKey a.pid a.shard) with
  | some m => if m.phase = 2 ∧ some m.sid = ownSid s then freeRegion m.region s else s
  | none => s

/-- Enter the new generation's record. -/
def enterMirror (a : MirrorAsk) (phase sid region replica : Nat) (s : State) : State :=
  let m := nextMirror s a phase sid region replica
  modGran (fun g => { g with mirrors := tabPut g.mirrors (mirrorKey a.pid a.shard) m }) (dropDamaged a s)

/-- No spine grants: the first diverse replica, or none (R416). -/
def mirrorReplica (a : MirrorAsk) (s : State) : State :=
  match a.replicas.find? (fun r => diverse (policy s a.pid).diversity a.tags (endpointTags s r)) with
  | some r =>
    let s1 := writeDecision 4 a.pid (w32 a.shard) 0 (wordOf [at_ 31 12 r]) 0 (enterMirror a 3 0 0 r s)
    finish a.origin .ok [w32 1, 0, 0, w32 r] (raise31 0x0801 [4, lastDecision s1] s1)
  | none => finish a.origin .resource [] (noChoice a.pid (w32 a.shard) 3 true s)

/-- Ask the next candidate, at most three in all, or fall back to a replica (R415). A command that has ended asks nobody. -/
def askNext (id : Nat) (s : State) : State :=
  match tabGet? s.gran.asks id with
  | none => s
  | some a =>
    let drop (s : State) : State := modGran (fun g => { g with asks := tabDel g.asks id }) s
    if !stillOutstanding s a.origin then drop s
    else
      match a.left with
      | [] => mirrorReplica a (drop s)
      | x :: rest =>
        if 3 ≤ a.count then mirrorReplica a (drop s)
        else
          let a1 := { a with left := rest, asked := x, count := a.count + 1 }
          sendFirmware x [wordOf [at_ 31 24 2, at_ 23 0 id], w32 a.shard, wordOf [at_ 31 12 a.owner, at_ 11 0 a.pid],
            w32 (a.size / 2 ^ 32), w32 a.size, 0] (modGran (fun g => { g with asks := tabPut g.asks id a1 }) s)

/-- Answer a MIRROR_ASK: MIRROR_GRANT (3) with the region, or MIRROR_DENY (4). -/
def answerAsk (k : Packet) (ftype region : Nat) (s : State) : State :=
  let id := fld (payloadWord k 0) 23 0
  sendFirmware (senderSid k)
    [wordOf [at_ 31 24 ftype, at_ 23 0 id], payloadWord k 1, payloadWord k 2, 0, 0, wordOf [at_ 31 16 region]] s

/-- Place a MIRROR region under the next free ID and grant it, or deny. -/
def grantMirror (k : Packet) (pid ext : Nat) (id : Option Nat) (s : State) : State :=
  match id with
  | none => answerAsk k 4 0 s
  | some r =>
    match placeRegion r pid ext s with
    | (none, s2) => answerAsk k 4 0 s2
    | (some m, s2) =>
      let x : Region := {
        kind := .mirror, encrypted := false, epRead := true, epWrite := true, epPost := false, pid := pid, keySlot := 0,
        stackSet := m, phase := .zeroing, extents := ext, pinned := false }
      answerAsk k 3 r (addRegion r x s2)

/-- The size that a MIRROR_ASK names. -/
def mirrorSize (k : Packet) : Nat := (payloadWord k 3).toNat * 2 ^ 32 + (payloadWord k 4).toNat

/-- What refuses a MIRROR_ASK before any room is looked for: a partition not defined or fenced, size 0, or Winnow out of
action (12 R414, R415, R423). -/
def mirrorRefused (k : Packet) (s : State) : Bool :=
  let pid := fld (payloadWord k 2) 11 0
  !(partition s pid).defined || (partition s pid).fenced || mirrorSize k == 0 || winnowDown s

/-- A MIRROR_ASK arrives at a candidate: a MIRROR region is created, or the ask is denied. -/
def execMirrorAskRx (s : State) : Host.Outcome State Fault Refusal :=
  .next (match takeFirmware 2 s with
  | none => s
  | some (k, s1) =>
    if mirrorRefused k s1 then answerAsk k 4 0 s1
    else grantMirror k (fld (payloadWord k 2) 11 0) (ceilDiv (mirrorSize k) extentBytes) (freeRegionId s1 1 0xDFFF) s1)

/-- The ask that an answer belongs to: it must come from the spine that was asked. -/
def askOf (k : Packet) (s : State) : Option (Nat × MirrorAsk) :=
  let id := fld (payloadWord k 0) 23 0
  (tabGet? s.gran.asks id).bind (fun a =>
    if a.asked = senderSid k ∧ a.shard = (payloadWord k 1).toNat then some (id, a) else none)

/-- A grant enters the mirror, records the decision and answers OK with MIRROR 0, the spine and its region (R381; 12 R415,
R421). -/
def mirrorGranted (a : MirrorAsk) (r : Nat) (s : State) : State :=
  let s3 := writeDecision 4 a.pid (w32 a.shard) (wordOf [at_ 31 19 a.asked]) 0 0 (enterMirror a 0 a.asked r 0 s)
  finish a.origin .ok [w32 0, w32 a.asked, w32 r, 0] s3

/-- A MIRROR_GRANT arrives: the command ends in mode SPINE. -/
def execMirrorGrantRx (s : State) : Host.Outcome State Fault Refusal :=
  .next (match takeFirmware 3 s with
  | none => s
  | some (k, s1) =>
    match askOf k s1 with
    | none => s1
    | some (id, a) =>
      let s2 := modGran (fun g => { g with asks := tabDel g.asks id }) s1
      if !stillOutstanding s2 a.origin then s2
      else
        mirrorGranted a (fld (payloadWord k 5) 31 16) s2)

/-- A MIRROR_DENY arrives: the next candidate is asked. -/
def execMirrorDenyRx (s : State) : Host.Outcome State Fault Refusal :=
  .next (match takeFirmware 4 s with
  | none => s
  | some (k, s1) =>
    match askOf k s1 with
    | none => s1
    | some (id, _) => askNext id s1)

/-- 5 ms pass without an answer: as a MIRROR_DENY. -/
def execMirrorAskTimeout (ask : Nat) (s : State) : Host.Outcome State Fault Refusal := .next (askNext ask s)

end Sys2Proof.Machine
end

