-- ==== Sys2Proof/Machine/Firmware.lean ====
section
/-! DEFINITION. Firmware's own packets: requests answered, packets discarded, the queues of C2 control messages
(05 R652; 06 R231). -/

namespace Sys2Proof.Machine

/-- The class of the reply to a request (04 Table 4.3). -/
def replyClass (cls : Nat) : Nat := if cls = 2 then 3 else cls

/-- The UNSUPPORTED_OP reply to a request (05 R652). -/
def unsupportedReply (s : State) (k : Packet) : Packet :=
  let o : Origination := {
    kind := 1, cls := replyClass (pClass k), dest := pSrc k, mcast := false, spineDst := pSpineSrc k, pid := pPid k,
    epoch := (partition s (pPid k)).epoch, entropy := pEntropy k, first := true, last := true, nospray := false,
    ext := [k.w4, wordOf [at_ 31 24 2], 0, 0], payload := [] }
  madePacket s o

/-- The oldest request addressed to the spine is answered. -/
def execSpineRequestRx (s : State) : Host.Outcome State Fault Refusal :=
  .next (match takeDelivered 8 s with
  | none => s
  | some (d, s1) => startWork 4 3 (Config.fwCost 4) (originate controlSource (unsupportedReply s1 d.pkt) s1))

/-- The oldest packet that firmware discards is counted. -/
def execSpinePacketDiscard (s : State) : Host.Outcome State Fault Refusal :=
  .next (match takeDelivered 9 s with
  | none => s
  | some (_, s1) => countControl 8 (startWork 4 3 (Config.fwCost 4) s1))

/-- The NTYPE and FTYPE codes that are not reserved (08 Table 8.7; 12 Table 12.5). -/
def knownNotice (t : Nat) : Bool := t == 1 || (decide (0x10 ≤ t) && decide (t ≤ 0x17))
def knownFirmware (t : Nat) : Bool := decide (1 ≤ t) && decide (t ≤ 4)

/-- The oldest C2 control message enters the inbound queue of 8,192, or is discarded: a full queue, a reserved code. -/
def execFirmwareControlRx (s : State) : Host.Outcome State Fault Refusal :=
  .next (match takeDelivered 7 s with
  | none => s
  | some (d, s1) =>
    let k := d.pkt
    if 8192 ≤ s1.buf.fwIn.length then countControl 6 s1
    else if xCtype k = 3 ∧ knownNotice (noticeType k) = false then countControl 10 s1
    else if xCtype k = 4 ∧ knownFirmware (firmwareType k) = false then countWinnow 2 s1
    else modBuf (fun b => { b with fwIn := b.fwIn ++ [k] }) s1)

/-- The oldest outbound message goes into the control reserve pool once it has room. -/
def execFwOutboundDrain (s : State) : Host.Outcome State Fault Refusal :=
  .next (match s.buf.fwOut with
  | [] => s
  | k :: rest =>
    if (waitingOf s controlSource).isEmpty && controlRoom s k then
      originate controlSource k (modBuf (fun b => { b with fwOut := rest }) s)
    else s)

end Sys2Proof.Machine
end

