-- ==== Sys2Proof/Machine/MgmtOps.lean ====
section
/-! DEFINITION. Operations of the management side: frames, sessions, segments, the receipt of a command, the dispatcher
(15 15.1 to 15.6). -/

namespace Sys2Proof.Machine

def modMgmt (f : MgmtState → MgmtState) (s : State) : State := { s with mgmt := f s.mgmt }

/-! ## Frames -/

/-- An Ethernet frame without its frame check sequence. -/
def ethFrame (dst src etype : Nat) (payload : List Byte) : List Byte :=
  natBytes 6 dst ++ natBytes 6 src ++ natBytes 2 etype ++ payload

/-- The 16-bit words of an even number of bytes, the first argument bounding the count. -/
def halfwords : Nat → List Byte → List Nat
  | 0, _ => []
  | _, [] => []
  | n + 1, b :: bs => (b.toNat * 256 + (bs.headD 0).toNat) :: halfwords n (bs.drop 1)

/-- The Internet checksum: the complement of the one's complement sum (PRESUMED from RFC 4443, log 40). -/
def inetChecksum (bs : List Byte) : Nat :=
  let t := (halfwords bs.length bs).sum
  65535 - (if t = 0 then 0 else (t - 1) % 65535 + 1)

/-- An ICMPv6 message in a frame: the checksum covers the pseudo-header. -/
def icmpFrame (dstMac srcMac dst src typ code : Nat) (rest : List Byte) : List Byte :=
  let body (sum : Nat) : List Byte := natBytes 1 typ ++ natBytes 1 code ++ natBytes 2 sum ++ rest
  let len := (body 0).length
  let sum := inetChecksum (natBytes 16 src ++ natBytes 16 dst ++ natBytes 4 len ++ natBytes 4 58 ++ body 0)
  ethFrame dstMac srcMac 0x86DD
    (natBytes 4 0x60000000 ++ natBytes 2 len ++ natBytes 1 58 ++ natBytes 1 255 ++ natBytes 16 src ++ natBytes 16 dst ++ body sum)

/-- The link-local address of a port, by modified EUI-64 from its factory MAC address (R478). -/
def linkLocal (p : Nat) : Nat :=
  let mac := Config.factoryMac p % 2 ^ 48
  0xFE80 * 2 ^ 112 + ((mac / 2 ^ 24) ^^^ 0x020000) * 2 ^ 40 + 0xFFFE * 2 ^ 24 + mac % 2 ^ 24

/-- The network of a management port: 0 for A, 1 for B (R476). -/
def networkOf (p : Nat) : Nat := p / 4

/-- Static address, prefix length and MTU of a network (R477, R478). -/
def netConfig (s : State) (n : Nat) : Nat × Nat × Nat := if n = 0 then s.start.cfg.netA else s.start.cfg.netB

/-- An address that a port answers on: its link-local one and its network's static one (R478). -/
def ownAddress (s : State) (p a : Nat) : Bool := a == linkLocal p || (a != 0 && a == (netConfig s (networkOf p)).1)

/-- Send a frame on a port that is up. -/
def sendFrame (p : Nat) (bytes : List Byte) (s : State) : State :=
  if (mgmtPort s p).up then countTx p 1 (emit (.frame p bytes) s) else s

/-- Text as bytes. -/
def textBytes (t : String) : List Byte := t.toList.map (fun c => BitVec.ofNat 8 c.toNat)

/-- Decimal digits of a number; the first argument bounds their count. -/
def decimalN : Nat → Nat → List Byte
  | 0, _ => []
  | n + 1, v => (if v < 10 then [] else decimalN n (v / 10)) ++ [BitVec.ofNat 8 (48 + v % 10)]

def decimal (v : Nat) : List Byte := decimalN 10 v

/-- An LLDP TLV. -/
def tlv (typ : Nat) (value : List Byte) : List Byte := natBytes 2 (typ * 512 + value.length) ++ value

/-- The LLDP frame of a port (R480). TLV codes and subtypes are those of IEEE 802.1AB (PRESUMED, log 40). -/
def lldpFrame (s : State) (p : Nat) : List Byte :=
  let sid := match ownSid s with
    | some n => decimal n
    | none => textBytes "none"
  ethFrame 0x0180C200000E (Config.factoryMac p) 0x88CC
    (tlv 1 (natBytes 1 4 ++ natBytes 6 (Config.factoryMac 0)) ++ tlv 2 (natBytes 1 7 ++ textBytes "M" ++ decimal p) ++
      tlv 3 (natBytes 2 120) ++ tlv 5 Config.systemName ++
      tlv 8 (natBytes 1 17 ++ natBytes 1 2 ++ natBytes 16 (netConfig s (networkOf p)).1 ++ natBytes 1 1 ++ natBytes 4 0 ++ natBytes 1 0) ++
      tlv 6 (textBytes "ZW-IX2048-A SID=" ++ sid ++ textBytes " SLOT=" ++ decimal s.power.modSlot) ++ tlv 0 [])

/-! ## Sessions -/

/-- The class that a certificate maps to on a network (R483; 18 R571): by the credential table, or while that is empty or
damaged by the key that OWNER_ROOT names. -/
def classOf (s : State) (net cert : Nat) (ownerRoot : Bool) : Option CredClass :=
  let c := s.start.cfg
  if c.credentialsOk && !c.credentials.isEmpty then
    ((c.credentials.find? (fun e => e.2 == cert)).map (·.1)).filter (fun k => decide (classBit k < 2) == (net == 0))
  else if ownerRoot then some (if net = 0 then .operatorSecurity else .programmeSecurity)
  else none

/-- Sessions of a network. -/
def sessionsOn (s : State) (net : Nat) : Nat := (s.mgmt.sessions.filter (fun x => x.2.network == net)).length

/-- Close a session: its mailboxes are held by none (R500). -/
def closeSession (k : Nat) (s : State) : State :=
  modMgmt (fun m => { m with
    sessions := tabDel m.sessions k,
    mailboxes := tabRemap mailboxReset (fun _ b => if b.session = some k then { b with session := none, unsent := [] } else b)
      m.mailboxes }) s

/-- Send the responses of a mailbox that wait. -/
def flushUnsent (mb : Nat) (s : State) : State :=
  (mailbox s mb).unsent.foldl (fun s r => sendResponse mb r s) (modMailbox mb (fun m => { m with unsent := [] }) s)

/-- A session takes a mailbox over: responses not yet sent and events not acknowledged go to it (R494). -/
def bindMailbox (mb k : Nat) (s : State) : State :=
  if (mailbox s mb).session = some k then s
  else flushUnsent mb (modEventQueue mb (fun q => { q with inFlight := 0 }) (modMailbox mb (fun m => { m with session := some k }) s))

/-- A datagram of a session arrives on a port of its network (R479). -/
def datagramArrives (k mport : Nat) (s : State) : Option (Session × State) :=
  match tabGet? s.mgmt.sessions k with
  | none => none
  | some x =>
    if (mgmtPort s mport).up && networkOf mport == x.network && listening s then
      let y := { x with port := mport }
      some (y, countMgmt mport 0 (modMgmt (fun m => { m with sessions := tabPut m.sessions k y }) s))
    else none

/-- A peel is discarded and counted. -/
def discardPeel (mport : Nat) (s : State) : State := countMgmt mport 4 s

/-! ## Receipt of a command -/

/-- The word of a command's body that holds GRACE (16 R518). -/
def graceWord (op : Nat) : Option Nat :=
  if op = 0x0505 then some 2 else if op = 0x0509 then some 3
  else if op = 0x0609 ∨ op = 0x070C ∨ op = 0x070D then some 1 else none

/-- GRACE of a command that takes it. -/
def graceOf (op : Nat) (body : List Byte) : Option Nat := (graceWord op).map (fun i => ((bytesWords body).getD i 0).toNat)

/-- The command of a peel's header and the session that sent it. -/
def peelOrigin (x : Session) (p : Peel) : Origin := ⟨lMailbox p, x.cls, lSeq p, x.cert⟩

/-- Check 6 of R497, with the GRACE rule of 16 R518 and the longer body of R507. -/
def bodyCheck (p : Peel) (body : List Byte) (form : BodyForm) : Option Status :=
  let d := lDeadline p
  let least := match graceOf (lOpcode p) body with
    | none => 100
    | some g => (if g = 0 then 1000 else g) + 1000
  if d ≠ 0 ∧ d < least then some .invalid
  else
    match form with
    | .good => none
    | .malformed => some .invalid
    | .extra => some .unsupported

/-- A command that passed every check becomes outstanding; its deadline runs from now (R492, R498). -/
def enterCommand (o : Origin) (p : Peel) (body : List Byte) (s : State) : State :=
  let us := if lDeadline p = 0 then defaultDeadline (lOpcode p) (graceOf (lOpcode p) body) else lDeadline p
  let c : Outstanding := {
    seq := o.seq, opcode := lOpcode p, ordered := lOrdered p, cls := o.cls, received := nowRef s,
    deadline := nowRef s + 1000 * us, body := body, stepsDone := 0, stepsTotal := 1, running := false,
    acceptedSent := false }
  modMailbox o.mailbox (fun m => { m with outstanding := m.outstanding ++ [c] }) (takeSeq o s)

/-- The body of UNSUPPORTED for a major version (R505). -/
def versionBody : List Word := [wordOf [at_ 31 24 1, at_ 23 16 1]]

/-- A response to the session that asked, whatever session holds the mailbox. -/
def rejectTo (via : Via) (o : Origin) (op : Nat) (st : Status) (body : List Word) (s : State) : State :=
  emitResponse o.mailbox ⟨o.seq, op, statusCode st, creditsLeft (mailbox s o.mailbox), body⟩ (some via) s

/-- A whole command has arrived (R494, R495, R497). -/
def receiveCommand (via : Via) (x : Session) (p : Peel) (body : List Byte) (form : BodyForm) (s : State) : State :=
  let o := peelOrigin x p
  let op := lOpcode p
  if lMajor p ≠ 1 then rejectTo via o op .unsupported versionBody s
  else if !mailboxOpen o s then rejectTo via o op .denied [] (filterCommand o op s)
  else
    let s1 := bindMailbox o.mailbox via.session s
    match outstandingOf s1 o with
    | some c => sendAccepted o c.opcode s1
    | none =>
      match keptOf s1 o with
      | some r => sendResponse o.mailbox r s1
      | none =>
        if !seqNew (mailbox s1 o.mailbox) o.seq then reject o op .conflict [] s1
        else
          let s2 := filterCommand o op s1
          match ((admitCaller o op s2).or (bodyCheck p body form)).or (admitMode o op s2) with
          | some st => reject o op st [] s2
          | none => enterCommand o p body s2

/-- The message that a segment starts. -/
def startMessage (k : Nat) (p : Peel) : PartialMessage :=
  { seq := lSeq p, opcode := lOpcode p, ordered := lOrdered p, deadline := lDeadline p, length := lMsgLen p,
    cmajor := lMajor p, cminor := lMinor p, segments := [], session := k }

/-- A segment does not fit its message (R488, R489). -/
def segmentBad (k : Nat) (a : PartialMessage) (p : Peel) : Bool :=
  let lo := lOffset p
  let hi := lo + p.body.length
  { startMessage k p with segments := a.segments } != a || lSegLen p != p.body.length ||
    decide (lMsgLen p < hi) || decide (1048576 < lMsgLen p) || (p.body.isEmpty && lMsgLen p != 0) ||
    lLast p != decide (hi = lMsgLen p) ||
    a.segments.any (fun e => decide (e.1 < hi) && decide (lo < e.1 + e.2.length))

/-- Insert a segment in ascending offset. -/
def addSegment (p : Peel) (l : List (Nat × List Byte)) : List (Nat × List Byte) :=
  l.filter (fun e => decide (e.1 < lOffset p)) ++ [(lOffset p, p.body)] ++ l.filter (fun e => decide (lOffset p < e.1))

/-- Messages of a mailbox but for one. -/
def dropMessage (mb k seq : Nat) (s : State) : State :=
  modMailbox mb (fun m => { m with assembling := m.assembling.filter (fun a => !(a.session == k && a.seq == seq)) }) s

/-- A segment of a command arrives at a mailbox open to its sender, or with a version not served. -/
def assemble (via : Via) (x : Session) (p : Peel) (form : BodyForm) (s : State) : State :=
  let k := via.session
  let mb := lMailbox p
  let a := ((mailbox s mb).assembling.find? (fun a => a.session == k && a.seq == lSeq p)).getD (startMessage k p)
  if segmentBad k a p then discardPeel via.port s
  else
    let segs := addSegment p a.segments
    let s1 := dropMessage mb k (lSeq p) s
    if ((segs.map (fun e => e.2.length)).sum) = lMsgLen p then receiveCommand via x p (segs.flatMap (·.2)) form s1
    else modMailbox mb (fun m => { m with assembling := m.assembling ++ [{ a with segments := segs }] }) s1

/-! ## The dispatcher (R493) -/

/-- The priority level of a mailbox (Table 15.4). -/
def levelOf (mb : Nat) : Nat := if mb < 16 then 0 else if mb < 32 then 1 else 2

/-- The command of a mailbox whose step waits: the first that has not begun, and if ORDERED only alone. -/
def waitingStep (m : Mailbox) : Option Outstanding :=
  match m.outstanding.find? (fun c => !c.running && c.stepsDone == 0) with
  | none => none
  | some c => if c.ordered && (m.outstanding.head?.map (·.seq)) != some c.seq then none else some c

/-- The waiting steps, by mailbox in ascending number. -/
def waitingSteps (s : State) : List (Nat × Outstanding) :=
  s.mgmt.mailboxes.filterMap (fun e => (waitingStep e.2).map (fun c => (e.1, c)))

/-- The oldest of some waiting steps. -/
def oldestStep (l : List (Nat × Outstanding)) : Option (Nat × Outstanding) :=
  l.foldl (fun a x =>
    match a with
    | none => some x
    | some y => if x.2.received < y.2.received then some x else some y) none

/-- The next mailbox of a level after the one last served. -/
def nextInTurn (last : Nat) (l : List (Nat × Outstanding)) : Option (Nat × Outstanding) :=
  (l.find? (fun x => decide (last < x.1))).or l.head?

/-- The step that the next dispatch takes: of a level that seven dispatches in a row have passed over, the oldest; else
the highest priority's in turn. -/
def chooseStep (s : State) : Option (Nat × Outstanding) :=
  let w := waitingSteps s
  let at1 (l : Nat) : List (Nat × Outstanding) := w.filter (fun x => levelOf x.1 == l)
  match [0, 1, 2].find? (fun l => decide (7 ≤ s.mgmt.starved.getD l 0) && !(at1 l).isEmpty) with
  | some l => oldestStep (at1 l)
  | none =>
    match [0, 1, 2].find? (fun l => !(at1 l).isEmpty) with
    | none => none
    | some l => nextInTurn (s.mgmt.roundRobin.getD l 0) (at1 l)

/-- The counts of the levels after a dispatch to a level. -/
def starvedAfter (w : List (Nat × Outstanding)) (lvl : Nat) (old : List Nat) : List Nat :=
  [0, 1, 2].map (fun l =>
    if l = lvl || !(w.any (fun x => levelOf x.1 == l)) then 0
    else if lvl < l then old.getD l 0 + 1 else old.getD l 0)

/-- Dispatch a step to a free control core. -/
def dispatchStep (s : State) : State :=
  if s.mgmt.freeCores = 0 ∨ !listening s then s
  else
    match chooseStep s with
    | none => s
    | some (mb, c) =>
      let starved := starvedAfter (waitingSteps s) (levelOf mb) s.mgmt.starved
      modMailbox mb (fun m => { m with
        outstanding := m.outstanding.map (fun x => if x.seq = c.seq then { x with running := true } else x) })
        (modMgmt (fun m => { m with
          freeCores := m.freeCores - 1, starved := starved, roundRobin := listSet mb (levelOf mb) m.roundRobin }) s)

/-! ## Events (R503) -/

/-- Send the records of an event mailbox that are due: whole records in one peel, at most 64 in flight. -/
def sendEvents (mb : Nat) (s : State) : State :=
  match mailboxVia s mb with
  | none => s
  | some via =>
    let q := eventQueue s mb
    let n := Nat.min (64 - q.inFlight) (segmentLimit via.datagram / 64)
    let due := (q.queue.drop q.inFlight).take n
    if due.isEmpty then s
    else
      countTx via.port 1 (emit (.eventPeel mb (bootField s) due via)
        (modEventQueue mb (fun q => { q with
          inFlight := q.inFlight + due.length, sent := Nat.max q.sent (q.inFlight + due.length) })
          (countQuiet (counterId 0 1 (16 * mb + 5)) due.length s)))

/-- How an EVENT_ACK's SEQ stands to the queue: none when it names a record not yet sent, else how many records leave. -/
def ackedRecords (q : EventQueue) (seq : Nat) : Option Nat :=
  let front := ((q.queue.head?).map (·.seq)).getD q.nextSeq
  let d := (seq + 2 ^ 32 - front) % 2 ^ 32
  if 2 ^ 31 ≤ d then some 0 else if d < q.sent then some (d + 1) else none

end Sys2Proof.Machine
end

