-- ==== Sys2Proof/Machine/FwCmd.lean ====
section
/-! DEFINITION. The FW group of commands (16 Tables 16.12, 16.13, 16.15; 15 R485, R508; 17 R546, R547; 18 R571, R583,
R588). -/

namespace Sys2Proof.Machine

/-- FW.CAPS: every opcode with its issuers, in ascending order, whoever asks (15 R508, R509). -/
def execFwCaps (o : Origin) (s : State) : Host.Outcome State Fault Refusal :=
  .next (runCommand o 0x1201 (fun s =>
    .done .ok ([wordOf [at_ 31 24 1, at_ 15 0 catalogue.length], wordOf [at_ 31 16 1]] ++
      catalogue.map (fun c => wordOf [at_ 31 16 c.opcode, at_ 7 0 c.issuers])) s) s)

/-- The version of what runs: the resident image, or in recovery mode the loader. -/
def runningVersion (s : State) : Nat × Nat × Nat :=
  match s.start.resident with
  | some i => if s.start.phase = .recovery then (Config.loaderMajor, Config.loaderMinor, Config.loaderBuild)
    else (i.major, i.minor, i.build)
  | none => (Config.loaderMajor, Config.loaderMinor, Config.loaderBuild)

/-- The measurement of what runs (18 Table 18.1, R574). -/
def runningMeasurement (s : State) : Nat := if s.start.phase = .recovery then Config.loaderDigest else s.start.measurement

/-- FW.INFO (16 Table 16.13). -/
def execFwInfo (o : Origin) (s : State) : Host.Outcome State Fault Refusal :=
  .next (runCommand o 0x1202 (fun s =>
    let v := runningVersion s
    .done .ok ([wordOf [at_ 31 16 1, at_ 15 8 v.1, at_ 7 0 v.2.1], w32 v.2.2, w32 s.start.cfg.starts,
      wordOf [at_ 31 31 (bit (s.start.phase == .recovery)), at_ 30 30 (bit (ownSid s).isSome), at_ 12 0 ((ownSid s).getD 0)],
      wordOf [at_ 31 16 2048, at_ 15 8 64, at_ 7 0 16], wordOf [at_ 31 16 16384, at_ 15 8 128, at_ 7 0 16],
      wordOf [at_ 31 16 1536, at_ 15 8 64, at_ 7 0 32]] ++ natWords 16 (runningMeasurement s)) s) s)

/-! ## Firmware images (17 R546, R547) -/

/-- The largest image. -/
def imageMax : Nat := 12582912

/-- The first bytes of the staging area. -/
def stagedBytes (s : State) (n : Nat) : List Byte := (List.range n).map (fun i => tabGet (fun _ => (0 : Byte)) s.start.staging i)

/-- The image that the staged bytes are. -/
def stagedImage (length digest : Nat) : Image :=
  { length := length, digest := digest, signed := Config.imageSigned digest, major := Config.imageMajor digest,
    minor := Config.imageMinor digest, build := Config.imageBuild digest }

/-- Steps 1 and 2 of R547: none when the image may be written. -/
def updateCheck (s : State) (length digest : Nat) : Option Status :=
  if imageMax < length then some .invalid
  else if bytesNat (sha512 (stagedBytes s length)) ≠ digest then some .conflict
  else
    match s.start.flashWrite with
    | some (.image _ _) => some .conflict
    | _ => if Config.imageSigned digest then none else some .invalid

/-- Step 3 begins: the image goes to flash, after a write of the configuration store that is in progress. -/
def writeImage (img : Image) (caller : Option Origin) (s : State) : State :=
  modStart (fun st => { completeWrite st with flashWrite := some (.image img caller) }) s

/-- FW.UPDATE: a quorum proposal, or in recovery mode at once (16 R515, R519). -/
def execFwUpdate (o : Origin) (length digest : Nat) (s : State) : Host.Outcome State Fault Refusal :=
  .next (runCommand o 0x1203 (fun s =>
    match updateCheck s length digest with
    | some st => failWith st s
    | none =>
      if s.start.phase = .recovery then .later (writeImage (stagedImage length digest) (some o) s)
      else propose o (.fwUpdate length digest) s) s)

/-- FW.STAGE: bytes into the staging area. -/
def execFwStage (o : Origin) (offset : Nat) (bytes : List Byte) (s : State) : Host.Outcome State Fault Refusal :=
  .next (runCommand o 0x1204 (fun s =>
    if 1048568 < bytes.length ∨ imageMax < offset + bytes.length then failWith .invalid s
    else okWith (modStart (fun st => { st with
      staging := (bytes.zipIdx).foldl (fun t x => tabSet (fun _ => (0 : Byte)) t (offset + x.2) x.1) st.staging }) s)) s)

/-! ## Mailboxes, credentials, networks (15 R485, R492; 18 R571) -/

/-- FW.CREDIT: 0 takes the default of the mailbox (15 R507, Table 15.4). -/
def execFwCredit (o : Origin) (mailbox credit : Nat) (s : State) : Host.Outcome State Fault Refusal :=
  .next (runCommand o 0x1205 (fun s =>
    if 64 ≤ mailbox ∨ 16 < credit then failWith .invalid s
    else okWith (modMailbox mailbox (fun m => { m with credit := if credit = 0 then defaultCredit mailbox else credit }) s)) s)

/-- FW.BIND_MAILBOX: PID 0xFFF unbinds (15 R485). -/
def execFwBindMailbox (o : Origin) (mailbox pid cert : Nat) (s : State) : Host.Outcome State Fault Refusal :=
  .next (runCommand o 0x1206 (fun s =>
    if mailbox < 32 ∨ 64 ≤ mailbox ∨ pid = 0 ∨ 0xFFF < pid then failWith .invalid s
    else if !(Machine.mailbox s mailbox).outstanding.isEmpty then failWith .conflict s
    else okWith (modMailbox mailbox (fun m =>
      if pid = 0xFFF then { m with pid := none, cert := 0 } else { m with pid := some pid, cert := cert }) s)) s)

/-- The network of a class (15 Table 15.1). -/
def classNetwork : CredClass → Nat
  | .operator | .operatorSecurity => 0
  | .fabricManager | .programmeSecurity | .tenant => 1

def securityClass (c : CredClass) : Bool := c == .operatorSecurity || c == .programmeSecurity

/-- The credential table as it counts: one that fails its check holds nothing (18 R571). -/
def credentials (s : State) : List (CredClass × Nat) :=
  if s.start.cfg.credentialsOk then s.start.cfg.credentials else []

/-- Store a credential table; its check is computed anew. -/
def setCredentials (cs : List (CredClass × Nat)) (s : State) : State :=
  modConfig (fun c => { c with credentials := cs, credentialsOk := true }) s

/-- FW.CREDENTIAL: each security class changes the classes of its own network (16 Table 16.12). -/
def execFwCredential (o : Origin) (remove : Bool) (cls : CredClass) (cert : Nat) (s : State) : Host.Outcome State Fault Refusal :=
  .next (runCommand o 0x1207 (fun s =>
    let cs := credentials s
    if classNetwork cls ≠ classNetwork o.cls then failWith .denied s
    else if remove then
      if !cs.contains (cls, cert) then failWith .invalid s
      else if securityClass cls && (cs.filter (fun e => e.1 == cls)).length == 1 then failWith .conflict s
      else okWith (setCredentials (cs.filter (fun e => e != (cls, cert))) s)
    else if cs.contains (cls, cert) then okWith s
    else if cs.any (fun e => e.2 == cert) then failWith .conflict s
    else if 256 ≤ cs.length then failWith .resource s
    else okWith (setCredentials (cs ++ [(cls, cert)]) s)) s)

/-- FW.NETWORK: for sessions opened after it; MTU 0 takes the default of 1,280 (15 R477, R478). -/
def execFwNetwork (o : Origin) (network address pfxLen mtu : Nat) (s : State) : Host.Outcome State Fault Refusal :=
  .next (runCommand o 0x1208 (fun s =>
    let m := if mtu = 0 then 1280 else mtu
    if 1 < network ∨ 2 ^ 128 ≤ address ∨ 128 < pfxLen ∨ m < 1280 ∨ 9000 < m then failWith .invalid s
    else okWith (modConfig (fun c =>
      if network = 0 then { c with netA := (address, pfxLen, m) } else { c with netB := (address, pfxLen, m) }) s)) s)

/-! ## Registers and debug (16 R533, R534; 18 R583, R588) -/

/-- The SCOPE bit of an island's debug window D3: switch die, compute die, optical control (18 R588). -/
def scopeBit (i : Nat) : Nat := if i < 0x30 then 0 else if i < 0x50 then 1 else 2

/-- What an access to an address meets before it is carried out: DENIED, or INVALID for an address error (R534). -/
def accessStatus0 (s : State) (a : Nat) : Option Status :=
  if windowOf a == 3 && (Config.secretBlock a || !testBitN s.sec.unlocked (scopeBit (addrIsland a))) then some .denied
  else if (readRegister s a).isNone then some .invalid
  else none

/-- The state after a refused access: an address error is flagged at its island (R31, R533). -/
def accessRefused (a : Nat) (st : Status) (s : State) : State := if st = .invalid then addressError (addrIsland a) s else s

/-- FW.REG_READ: words from a control address on (R534). -/
def execFwRegRead (o : Origin) (addr amount : Nat) (s : State) : Host.Outcome State Fault Refusal :=
  .next (runCommand o 0x1209 (fun s =>
    let as := (List.range amount).map (fun i => addr + 4 * i)
    if amount = 0 ∨ 256 < amount then failWith .invalid s
    else
      match as.findSome? (fun a => (accessStatus0 s a).map (fun st => (a, st))) with
      | some (a, st) => .done st [] (accessRefused a st s)
      | none => .done .ok (as.map (fun a => (readRegister s a).getD 0)) s) s)

/-- FW.REG_WRITE: ADDR_ERR by writing 1, or a register of D3 under an unlock, from the next unit boundary on (R33, R534). -/
def execFwRegWrite (o : Origin) (addr : Nat) (value mask : Word) (s : State) : Host.Outcome State Fault Refusal :=
  .next (runCommand o 0x120A (fun s =>
    match accessStatus0 s addr with
    | some st => .done st [] (accessRefused addr st s)
    | none =>
      let v := (readRegister s addr).getD 0
      if windowOf addr = 3 then
        okWith (modCtl (fun c => { c with staged := c.staged ++ [(addr, (value &&& mask) ||| (v &&& ~~~mask))] }) s)
      else if windowOf addr = 0 ∧ addrReg addr = 1 ∧ (value &&& mask).getLsbD 0 then
        okWith (modIsland (addrIsland addr) (fun x => { x with addrErr := false }) s)
      else failWith .denied s) s)

/-- FW.DEBUG_UNLOCK: a quorum proposal (18 R588; 16 R515). -/
def execFwDebugUnlock (o : Origin) (scope duration : Nat) (s : State) : Host.Outcome State Fault Refusal :=
  .next (runCommand o 0x120B (fun s =>
    if scope = 0 ∨ 16 ≤ scope ∨ duration = 0 ∨ 86400 < duration then failWith .invalid s
    else propose o (.debugUnlock scope duration) s) s)

end Sys2Proof.Machine
end

