-- ==== Sys2Proof/Machine/MillCmd.lean ====
section
/-! DEFINITION. The MILL group of commands (10; 12 R420; 16 Table 16.6). -/

namespace Sys2Proof.Machine

/-- A partition that a Mill object may belong to: the fabric or a defined PID. -/
def ownerKnown (s : State) (pid : Nat) : Bool := decide (pid < 0xFFF) && (partition s pid).defined

/-- MILL.ALLOC: pages of 64 KiB for an owner, 1,536 in all (R338). -/
def execMillAlloc (o : Origin) (pid pages : Nat) (s : State) : Host.Outcome State Fault Refusal :=
  .next (runCommand o 0x0601 (fun s =>
    if 1536 < pages ∨ !ownerKnown s pid then failWith .invalid s
    else if !mayReach o pid s then failWith .denied s
    else
      let others := ((s.mill.pages.filter (fun e => e.1 != pid)).map (·.2)).sum
      if pages * pageBytes < millOccupied s pid none none ∨ pages * pageBytes < programEnd s pid then failWith .conflict s
      else if 1536 < others + pages then failWith .resource s
      else .done .ok [w32 pages] (modMill (fun m => { m with pages := tabSet zeroTab m.pages pid pages }) s)) s)

/-- MILL.LOAD: a program replaces what its slot holds; every instruction and descriptor is checked (R340, R341). -/
def execMillLoad (o : Origin) (slot pid stale : Nat) (code agds : List (List Word)) (s : State) :
    Host.Outcome State Fault Refusal :=
  let timer := if stale = 0 then 1000000 else stale
  .next (runCommand o 0x0602 (fun s =>
    if 16 ≤ slot ∨ !ownerKnown s pid ∨ timer < 10 ∨ 60000000 < timer ∨ code.isEmpty ∨ 4096 < code.length ∨
        256 < agds.length ∨ !code.all (instrOk agds) then failWith .invalid s
    else if !mayReach o pid s ||
        !(((millProgram s slot).map (fun p => mayReach o p.pid s)).getD true) then failWith .denied s
    else if ((millProgram s slot).map (·.running)).getD false then failWith .conflict s
    else
      let p : MillProgram := {
        pid := pid, stale := timer, code := code, agds := agds, counters := List.replicate 16 0, pc := 0,
        running := false, copies := [] }
      okWith (modMill (fun m => { m with programs := tabPut m.programs slot p }) s)) s)

/-- A slot's program for a caller, or the status that its lack or its owner gives. -/
def withProgram (o : Origin) (slot : Nat) (f : MillProgram → CmdOutcome) (s : State) : CmdOutcome :=
  match millProgram s slot with
  | none => failWith .invalid s
  | some p => if mayReach o p.pid s then f p else failWith .denied s

/-- MILL.RUN: counters at 0, the program begins (R341 to R343, R357; 16 R516). -/
def execMillRun (o : Origin) (slot : Nat) (s : State) : Host.Outcome State Fault Refusal :=
  .next (runCommand o 0x0603 (fun s => withProgram o slot (fun p =>
    if s.start.cfg.millOff then failWith .notReady s
    else if (partition s p.pid).fenced then failWith .epoch s
    else if p.running then failWith .conflict s
    else okWith (modProgram slot (fun x => { x with
      counters := List.replicate 16 0, pc := 0, running := true }) s)) s) s)

/-- MILL.STOP: the program ends ABORTED. -/
def execMillStop (o : Origin) (slot : Nat) (s : State) : Host.Outcome State Fault Refusal :=
  .next (runCommand o 0x0604 (fun s => withProgram o slot (fun p =>
    if p.running then okWith (endProgram slot .aborted s) else failWith .conflict s) s) s)

/-- The formats of activations and returns, and of router weights (Table 10.5, R346). -/
def expertFormat (code : Nat) : Bool := [0x12, 0x13, 0x10, 0x11].contains code

/-- A dispatch context record is within Table 10.5 and R344. -/
def contextOk (context : Nat) (r : DispatchRec) : Bool :=
  decide (context < 128) && decide (1 ≤ r.pid) && decide (r.pid < 0xFFF) && decide (r.weightSet < 256) && decide (32 ≤ r.d) &&
    decide (r.d ≤ 16384) && r.d % 32 == 0 && decide (1 ≤ r.e) && decide (r.e ≤ 1024) && decide (1 ≤ r.k) &&
    decide (r.k ≤ 8) && decide (r.k ≤ r.e) && expertFormat r.actFmt && expertFormat r.retFmt && decide (r.gateMode < 4) &&
    decide (1 ≤ r.batch) && decide (r.batch ≤ 256) && decide (r.batchWait < 2 ^ 24) && decide (1 ≤ r.inflight) &&
    decide (r.inflight ≤ 1024) && decide (1 ≤ r.kcount) && decide (r.kcount ≤ 8) && decide (r.gateScale < 2 ^ 32) &&
    decide (10 ≤ r.stale) && decide (r.stale ≤ 60000000)

/-- Free staging of a group beside what one context holds. -/
def stagingBeside (s : State) (context g : Nat) : Nat :=
  sramFree s g + (match dctx s context with
  | some x => if x.record.enable && x.record.knead / 8 == g then dispatchStaging x.record else 0
  | none => 0)

/-- First units of KCOUNT units that lie in one group and in the partition's mask, lowest first in each group. -/
def maskedUnits (s : State) (r : DispatchRec) : List Nat :=
  (List.range 8).filterMap (fun g => ((List.range 8).map (8 * g + ·)).find? (fun u =>
    decide (u % 8 + r.kcount ≤ 8) && (List.range r.kcount).all (fun i =>
      testBitN (policy s r.pid).kneadMask (u + i) && kneadUsable s (u + i))))

/-- Winnow's choice of KNEAD for a context (12 R420). -/
def chooseKnead (s : State) (context : Nat) (r : DispatchRec) : Option Nat :=
  ((maskedUnits s r).filter (fun u => decide (dispatchStaging r ≤ stagingBeside s context (u / 8)))).foldl (fun b u =>
    match b with
    | none => some u
    | some v => if stagingBeside s context (v / 8) < stagingBeside s context (u / 8) then some u else b) none

/-- The context's own PID, for a caller's reach of what stands there. -/
def contextReach (o : Origin) (context : Nat) (s : State) : Bool :=
  ((dctx s context).map (fun x => mayReach o x.record.pid s)).getD true

/-- Set the record of a context that holds no token; replica lists stay. -/
def setContext (context : Nat) (r : DispatchRec) (s : State) : State :=
  let fresh : DispatchCtx := { record := r, replicas := [], last := [], tokens := [], draining := none }
  let x := match dctx s context with
    | some y => if y.record.pid = r.pid then { y with record := r } else fresh
    | none => fresh
  modMill (fun m => { m with contexts := tabPut m.contexts context x }) s

/-- MILL.CONTEXT: set-up reserves the token buffer and the staging; ENABLE 0 drains (R344, R345, R420). -/
def execMillContext (o : Origin) (context : Nat) (record : DispatchRec) (s : State) : Host.Outcome State Fault Refusal :=
  .next (runCommand o 0x0605 (fun s =>
    if !contextOk context record then failWith .invalid s
    else if !mayReach o record.pid s || !contextReach o context s then failWith .denied s
    else if (partition s record.pid).epoch ≠ record.epoch ∨ (partition s record.pid).fenced then failWith .epoch s
    else
      let tokens := ((dctx s context).map (fun x => !x.tokens.isEmpty)).getD false
      let busy := ((dctx s context).map (fun x => x.draining.isSome)).getD false
      if busy then failWith .conflict s
      else if !record.enable then
        let keep := { record with knead := ((dctx s context).map (·.record.knead)).getD 0 }
        if tokens then .later (modDctx context (fun x => { x with draining := some (o, keep) }) s)
        else okWith (setContext context keep s)
      else if tokens then failWith .conflict s
      else if winnowDown s then failWith .notReady s
      else if millBytes s record.pid < millOccupied s record.pid (some context) none + tokenBuffer record then failWith .resource s
      else
        let subject := wordOf [at_ 31 25 context]
        match chooseKnead s context record with
        | none => .fails .resource (noChoice record.pid subject (if (maskedUnits s record).isEmpty then 1 else 2) false s)
        | some u => okWith (writeDecision 5 record.pid subject (w32 u) 0 0 (setContext context { record with knead := u } s))) s)

/-- MILL.REPLICAS: the replica list of one expert (R345); a pinned replica may not drop out (12 R399). -/
def execMillReplicas (o : Origin) (context expert : Nat) (replicas : List (Nat × Nat)) (s : State) :
    Host.Outcome State Fault Refusal :=
  .next (runCommand o 0x0606 (fun s =>
    match dctx s context with
    | none => failWith .invalid s
    | some x =>
      if !mayReach o x.record.pid s then failWith .denied s
      else if x.record.e ≤ expert ∨ replicas.isEmpty ∨ 16 < replicas.length ∨
          replicas.any (fun r => decide (2 ^ 20 ≤ r.1) || r.2 == 0 || decide (255 < r.2)) ∨
          !noRepeat (replicas.map (·.1)) then failWith .invalid s
      else if !x.tokens.isEmpty then failWith .conflict s
      else if (tabGet? s.winnow.replicaPins (context * 1024 + expert)).any (fun a => !replicas.any (fun r => r.1 == a)) then
        failWith .conflict s
      else
        let l := replicas.map (fun (r : Nat × Nat) => ({ address := r.1, cap := r.2, outstanding := 0, excluded := false } : Replica))
        okWith (modDctx context (fun y => { y with
          replicas := tabPut y.replicas expert l, last := tabDel y.last expert }) s)) s)

/-- A router weight set takes the bytes that stand in a region. -/
def loadWeights (set pid format d e region offset : Nat) (s : State) : State :=
  let w : WeightSet := {
    pid := pid, format := format, d := d, e := e, region := region, offset := offset,
    data := readBytes s region offset (weightBytes format d e), bad := false }
  modMill (fun m => { m with weights := tabPut m.weights set w }) s

/-- MILL.WEIGHTS: a router weight set is read from a region of its owner (R346). -/
def execMillWeights (o : Origin) (set pid format d e region offset : Nat) (errs : List LineError) (s : State) :
    Host.Outcome State Fault Refusal :=
  .next (runCommand o 0x0607 (fun s =>
    if 256 ≤ set ∨ !ownerKnown s pid ∨ !expertFormat format ∨ d < 32 ∨ 16384 < d ∨ d % 32 ≠ 0 ∨ e = 0 ∨ 1024 < e then
      failWith .invalid s
    else if !mayReach o pid s || !(((tabGet? s.mill.weights set).map (fun w => mayReach o w.pid s)).getD true) then
      failWith .denied s
    else
      let n := weightBytes format d e
      match Machine.region s region with
      | none => failWith .invalid s
      | some x =>
        if x.pid ≠ pid ∨ x.phase ≠ .ready ∨ regionSize x < offset + n ∨ keyMissing s region x then failWith .invalid s
        else if millBytes s pid < millOccupied s pid none (some set) + n +
            ((s.mill.batches.filterMap (·.weights)).filter (fun w => some w == tabGet? s.mill.weights set)
              |>.map (·.data.length)).sum then failWith .resource s
        else
          let s1 := meetErrors region offset n errs (startWork 8 0 n s)
          if rangePoisoned s1 region offset n then .fails .internal s1
          else okWith (loadWeights set pid format d e region offset s1)) s)

/-- MILL.RESTORE: a replica that was excluded is chosen again (Table 10.7). -/
def execMillRestore (o : Origin) (context address : Nat) (s : State) : Host.Outcome State Fault Refusal :=
  .next (runCommand o 0x0608 (fun s =>
    match dctx s context with
    | none => failWith .invalid s
    | some x =>
      if !mayReach o x.record.pid s then failWith .denied s
      else if !x.replicas.any (fun e => e.2.any (fun r => r.address == address)) then failWith .invalid s
      else okWith (modDctx context (fun y => { y with replicas := tabMap (fun _ l => l.map (fun r =>
        if r.address = address then { r with excluded := false } else r)) y.replicas }) s)) s)

/-- An instruction of a program is on the array. -/
def onArray (s : State) (slot : Nat) : Bool :=
  match s.mill.work with
  | some (.instr n) => n == slot
  | _ => false

/-- The Mill is disabled: programs that are not on the array end. -/
def stopPrograms (s : State) : State :=
  let s1 := modConfig (fun c => { c with millOff := true }) s
  (s1.mill.programs.filter (fun p => p.2.running && !onArray s1 p.1)).foldl (fun s p => endProgram p.1 .aborted s) s1

/-- MILL.ENABLE: disabling refuses new work, ends programs at their instruction boundary, and waits for tokens (R357; 17
R564). -/
def execMillEnable (o : Origin) (enable : Bool) (grace : Nat) (s : State) : Host.Outcome State Fault Refusal :=
  .next (runCommand o 0x0609 (fun s =>
    if 1000000 < grace then failWith .invalid s
    else if enable then okWith (modConfig (fun c => { c with millOff := false }) s)
    else
      let s2 := stopPrograms s
      if s2.mill.contexts.all (fun c => c.2.tokens.isEmpty) && s2.mill.programs.all (fun p => !p.2.running) then okWith s2
      else .laterGrace grace (modMill (fun m => { m with disabling := m.disabling ++ [o] }) s2)) s)

end Sys2Proof.Machine
end

