-- ==== Sys2Proof/Machine/GranCmd.lean ====
section
/-! DEFINITION. The GRANARY group of commands (11; 16 Table 16.7). -/

namespace Sys2Proof.Machine

/-! ## Regions (R366 to R368) -/

/-- The kind of a code that a command may create. -/
def kindOf : Nat → Option RegionKind
  | 0 => some .general | 1 => some .weights | 2 => some .mirror | 3 => some .ring | _ => none

/-- The KIND code of a region. -/
def kindCode : RegionKind → Nat
  | .general => 0 | .weights => 1 | .mirror => 2 | .ring => 3 | .spill => 4 | .crumb => 5 | .firmware => 6

def regionPhaseCode : RegionPhase → Nat
  | .zeroing => 0 | .ready => 1 | .damaged => 2 | .freeing => 3

/-- A region record (Table 11.3). -/
def regionWords (s : State) (r : Nat) (x : Region) : List Word :=
  [wordOf [at_ 31 31 1, at_ 30 28 (kindCode x.kind), at_ 27 27 (bit x.encrypted), at_ 26 26 (bit x.epRead),
      at_ 25 25 (bit x.epWrite), at_ 24 24 (bit x.epPost), at_ 23 12 x.pid, at_ 11 0 x.keySlot],
    wordOf [at_ 31 16 r, at_ 15 0 x.stackSet],
    wordOf [at_ 31 29 (regionPhaseCode x.phase), at_ 28 28 (bit (regionLocked s r))], w32 x.extents]

/-- The region that a record asks for. -/
def newRegion (kind : RegionKind) (c : RegionRec) (stackSet extents : Nat) (pinned : Bool) : Region :=
  { kind := kind, encrypted := c.encrypted, epRead := c.epRead, epWrite := c.epWrite, epPost := c.epPost, pid := c.pid,
    keySlot := 0, stackSet := stackSet, phase := .zeroing, extents := extents, pinned := pinned }

/-- GRANARY.CREATE: Winnow chooses the stacks, or the command pins them (12 R399, R413). -/
def execGranaryCreate (o : Origin) (rec0 : RegionRec) (stackSet extents : Nat) (s : State) : Host.Outcome State Fault Refusal :=
  .next (runCommand o 0x0701 (fun s =>
    match kindOf rec0.kind with
    | none => failWith .invalid s
    | some kind =>
      if extents = 0 ∨ 2 ^ 16 ≤ stackSet ∨ !ownerKnown s rec0.pid then failWith .invalid s
      else if !mayReach o rec0.pid s then failWith .denied s
      else
        match freeRegionId s 1 0xDFFF with
        | none => failWith .resource s
        | some r =>
          if stackSet = 0 then
            if winnowDown s then failWith .notReady s
            else
              match placeRegion r rec0.pid extents s with
              | (none, s1) => .fails .resource s1
              | (some m, s1) => .done .ok [w32 r] (addRegion r (newRegion kind rec0 m extents false) s1)
          else
            let gs := maskBits 16 stackSet
            if gs.any (fun g => !testBitN (policy s rec0.pid).stackMask g) || extents % gs.length != 0 then failWith .invalid s
            else if gs.any (fun g => !(eligibleStacks s rec0.pid).contains g ||
                decide (freeExtents s g < extents / gs.length)) then failWith .resource s
            else
              .done .ok [w32 r] (writeDecision 3 rec0.pid (wordOf [at_ 31 16 r]) (wordOf [at_ 15 0 stackSet]) 0 4
                (addRegion r (newRegion kind rec0 stackSet extents true) s))) s)

/-- A region that commands created, for a caller. -/
def withRegion (o : Origin) (r : Nat) (f : Region → CmdOutcome) (s : State) : CmdOutcome :=
  match region s r with
  | none => failWith .invalid s
  | some x =>
    if r = 0 ∨ 0xE000 ≤ r then failWith .invalid s
    else if mayReach o x.pid s then f x else failWith .denied s

/-- The descriptors that a channel's ring has posted and the channel has not taken. -/
def postedDescs (s : State) (ch : Channel) : List Descriptor :=
  (List.range (Nat.min (ringLoad ch) (2 ^ ch.cfg.ringLog2))).map (fun i => nextDescriptor s { ch with consumer := (ch.consumer + i) % ringMod })

/-- A descriptor names a region. -/
def descNames (r : Nat) (d : Descriptor) : Bool :=
  (readsGranary d && refRegion d.source == r) || (writesGranary d && refRegion d.target == r)

/-- A descriptor in flight, one posted under OWN, or a weight set, names a region (R368). -/
def regionNamed (s : State) (r : Nat) : Bool :=
  regionLocked s r || s.mill.weights.any (fun w => w.2.region == r) ||
    s.gran.channels.any (fun c => c.2.flight.any (fun f => descNames r f.desc) ||
      (postedDescs s c.2).any (fun d => d.own && descNames r d))

/-- GRANARY.FREE. -/
def execGranaryFree (o : Origin) (region : Nat) (s : State) : Host.Outcome State Fault Refusal :=
  .next (runCommand o 0x0702 (fun s => withRegion o region (fun x =>
    if x.phase = .freeing ∨ regionNamed s region = true then failWith .conflict s
    else okWith (freeRegion region s)) s) s)

/-- Set the rights of a region (R367). -/
def setRights (r : Nat) (c : RegionRec) (s : State) : State :=
  modRegion r (fun x => { x with encrypted := c.encrypted, epRead := c.epRead, epWrite := c.epWrite, epPost := c.epPost }) s

/-- The checks of a change of rights: the region stands, and a LOCKED region keeps its contents' encryption. -/
def rightsConflict (s : State) (r : Nat) (x : Region) (c : RegionRec) : Bool :=
  x.phase == .freeing || (regionLocked s r && x.encrypted != c.encrypted)

/-- GRANARY.SET: at once, or through a quorum on a MIRROR region (16 R515). -/
def execGranarySet (o : Origin) (region : Nat) (rec0 : RegionRec) (s : State) : Host.Outcome State Fault Refusal :=
  .next (runCommand o 0x0703 (fun s => withRegion o region (fun x =>
    if rightsConflict s region x rec0 then failWith .conflict s
    else if x.kind = .mirror then propose o (.granarySet region rec0) s
    else okWith (setRights region rec0 s)) s) s)

/-- GRANARY.QUERY. -/
def execGranaryQuery (o : Origin) (region : Nat) (s : State) : Host.Outcome State Fault Refusal :=
  .next (runCommand o 0x0704 (fun s =>
    match Machine.region s region with
    | none => failWith .invalid s
    | some x => if mayReach o x.pid s then .done .ok (regionWords s region x) s else failWith .denied s) s)

/-! ## Mirrors (R381 to R384) -/

/-- GRANARY.MIRROR_OPEN: this spine becomes the mirror's home and asks its candidates. -/
def execGranaryMirrorOpen (o : Origin) (shard owner : Nat) (tags : TagSet) (generation size : Nat) (replicas : List Nat)
    (s : State) : Host.Outcome State Fault Refusal :=
  let s1 := runCommand o 0x0705 (fun s =>
    match callerPid o s with
    | none => failWith .denied s
    | some pid =>
      let key := mirrorKey pid shard
      if 2 ^ 32 ≤ shard ∨ 2 ^ 20 ≤ owner ∨ 2 ^ 32 ≤ generation ∨ size = 0 ∨ 2 ^ 64 ≤ size ∨ 8 < replicas.length ∨
          replicas.any (fun r => decide (2 ^ 20 ≤ r)) then failWith .invalid s
      else if winnowDown s then failWith .notReady s
      else if (partition s pid).fenced then failWith .epoch s
      else if (policy s pid).spines.isEmpty then failWith .resource s
      else if !((ownSid s).map (fun x => (policy s pid).spines.contains x)).getD false then failWith .invalid s
      else if ((tabGet? s.gran.mirrors key).map (fun m => m.phase == 0)).getD false ||
          s.gran.asks.any (fun a => a.2.pid == pid && a.2.shard == shard) then failWith .conflict s
      else
        let a : MirrorAsk := {
          origin := o, pid := pid, shard := shard, owner := owner, tags := tags, generation := generation, size := size,
          replicas := replicas, left := mirrorCandidates s pid shard tags, asked := 0, count := 0 }
        .later (modGran (fun g => { g with
          asks := tabPut g.asks g.nextAsk a, nextAsk := (g.nextAsk + 1) % 2 ^ 24 }) s)) s
  .next (if s1.gran.nextAsk = s.gran.nextAsk then s1 else askNext s.gran.nextAsk s1)

/-- The mirror record that a caller names by SHARD: of its own partition, or the one of lowest PID for the fabric manager. -/
def findMirror (o : Origin) (shard : Nat) (s : State) : Option (Nat × Mirror) :=
  match callerPid o s with
  | some pid => (tabGet? s.gran.mirrors (mirrorKey pid shard)).map (fun m => (mirrorKey pid shard, m))
  | none => s.gran.mirrors.find? (fun e => e.1 % 2 ^ 32 == shard)

/-- GRANARY.MIRROR_COMMIT: the read-back begins. -/
def execGranaryMirrorCommit (o : Origin) (shard generation : Nat) (crc : Word) (s : State) : Host.Outcome State Fault Refusal :=
  .next (runCommand o 0x0706 (fun s =>
    match findMirror o shard s with
    | none => failWith .invalid s
    | some (key, m) =>
      if m.generation ≠ generation ∨ m.phase ≠ 0 then failWith .conflict s
      else .later (modGran (fun g => { g with commits := g.commits ++ [⟨o, key, crc⟩] }) s)) s)

/-- A mirror record (Table 11.8). -/
def mirrorWords (key : Nat) (m : Mirror) : List Word :=
  [w32 key, wordOf [at_ 31 12 m.owner, at_ 11 0 (key / 2 ^ 32)],
    wordOf [at_ 31 29 m.phase, at_ 28 16 m.sid, at_ 15 0 m.region], w32 m.generation, wordOf [at_ 31 16 m.prevRegion],
    w32 m.prevGeneration, m.crc, wordOf [at_ 31 12 m.replica]]

/-- GRANARY.MIRROR_QUERY. -/
def execGranaryMirrorQuery (o : Origin) (shard : Nat) (s : State) : Host.Outcome State Fault Refusal :=
  .next (runCommand o 0x0707 (fun s =>
    match findMirror o shard s with
    | none => failWith .invalid s
    | some (key, m) => .done .ok (mirrorWords key m) s) s)

/-- Free a mirror's region when it lies on this spine. -/
def freeMirrorRegion (sid r : Nat) (s : State) : State := if r ≠ 0 ∧ some sid = ownSid s then freeRegion r s else s

/-- GRANARY.MIRROR_CLOSE: the record is removed and the shard's regions here are freed. -/
def execGranaryMirrorClose (o : Origin) (shard : Nat) (s : State) : Host.Outcome State Fault Refusal :=
  .next (runCommand o 0x0708 (fun s =>
    match findMirror o shard s with
    | none => failWith .invalid s
    | some (key, m) =>
      okWith (freeMirrorRegion m.prevSid m.prevRegion (freeMirrorRegion m.sid m.region
        (modGran (fun g => { g with mirrors := tabDel g.mirrors key }) s)))) s)

/-! ## Channels (R386, R387, R393, R394) -/

/-- A channel stands still: its setting may change. -/
def channelRests (s : State) (c : Nat) : Bool := (channel s c).phase == .idle || (channel s c).phase == .stopped

/-- A tenant reaches only channels 24 to 31 bound to its PID. -/
def channelReach (o : Origin) (c : Nat) (s : State) : Bool :=
  !isTenant o || (decide (24 ≤ c) && mayReach o (channel s c).cfg.pid s)

/-- GRANARY.CHANNEL_BIND: a bound channel starts from the reset values of Table 11.11. -/
def execGranaryChannelBind (o : Origin) (channel pid rate : Nat) (s : State) : Host.Outcome State Fault Refusal :=
  .next (runCommand o 0x0709 (fun s =>
    if channel < 24 ∨ 32 ≤ channel ∨ (pid ≠ 0xFFF ∧ (!ownerKnown s pid ∨ rate = 0 ∨ 1200 < rate)) then failWith .invalid s
    else if !channelRests s channel then failWith .conflict s
    else
      okWith (modChannel channel (fun x => { x with
        cfg := { channelRecReset with pid := pid }, phase := .idle, consumer := 0, done := 0,
        rate := if pid = 0xFFF then 100 else rate }) s)) s)

/-- The fields of a channel setting are within their ranges. -/
def channelRecGood (c : ChannelRec) : Bool :=
  decide (4 ≤ c.ringLog2) && decide (c.ringLog2 ≤ 16) && decide (c.pid ≤ 0xFFF) && decide (c.ringRegion < 2 ^ 16) &&
    decide (c.ringOffset < 2 ^ 48) && c.ringOffset % 32 == 0 && decide (c.cplRegion < 2 ^ 16) &&
    decide (c.cplOffset < 2 ^ 48) && c.cplOffset % 32 == 0 && decide (c.producer < ringMod) && decide (c.count < 2 ^ 32) &&
    decide (10 ≤ c.stale) && decide (c.stale ≤ 60000000)

/-- GRANARY.CHANNEL_SET. -/
def execGranaryChannelSet (o : Origin) (channel : Nat) (setting : ChannelRec) (s : State) : Host.Outcome State Fault Refusal :=
  let x := if setting.stale = 0 then { setting with stale := 1000000 } else setting
  .next (runCommand o 0x070A (fun s =>
    if 32 ≤ channel ∨ !channelRecGood x then failWith .invalid s
    else if !channelReach o channel s || !mayReach o x.pid s then failWith .denied s
    else if !channelRests s channel then failWith .conflict s
    else okWith (modChannel channel (fun y => { y with cfg := x, done := 0 }) s)) s)

/-- A ring lies in a RING region of the channel's partition (R387). -/
def ringGood (s : State) (pid r o log2 : Nat) : Bool :=
  match region s r with
  | some x => x.kind == .ring && x.pid == pid && decide (o + 32 * 2 ^ log2 ≤ regionSize x)
  | none => false

/-- GRANARY.CHANNEL_START. -/
def execGranaryChannelStart (o : Origin) (channel : Nat) (s : State) : Host.Outcome State Fault Refusal :=
  .next (runCommand o 0x070B (fun s =>
    if 32 ≤ channel then failWith .invalid s
    else if !channelReach o channel s then failWith .denied s
    else
      let ch := Machine.channel s channel
      let c := ch.cfg
      if !ringGood s c.pid c.ringRegion c.ringOffset c.ringLog2 || !ringGood s c.pid c.cplRegion c.cplOffset c.ringLog2 then
        failWith .invalid s
      else if granaryOff s || !c.enable || ch.phase == .stopping then failWith .notReady s
      else okWith (modChannel channel (fun x => { x with phase := .running }) s)) s)

/-- GRANARY.CHANNEL_STOP. -/
def execGranaryChannelStop (o : Origin) (channel grace : Nat) (s : State) : Host.Outcome State Fault Refusal :=
  .next (runCommand o 0x070C (fun s =>
    if 32 ≤ channel ∨ 1000000 < grace then failWith .invalid s
    else if !channelReach o channel s then failWith .denied s
    else if (Machine.channel s channel).flight.isEmpty then
      okWith (modChannel channel (fun x => { x with phase := .stopped }) s)
    else .laterGrace grace (stopChannel channel (some o) s)) s)

/-- The Granary is disabled: every channel that runs stops. -/
def stopChannels (s : State) : State :=
  let s1 := modConfig (fun c => { c with granaryOff := true }) s
  (s1.gran.channels.filter (fun e => e.2.phase == .running)).foldl (fun s e => stopChannel e.1 none s) s1

/-- GRANARY.ENABLE: disabling stops every channel that runs. -/
def execGranaryEnable (o : Origin) (enable : Bool) (grace : Nat) (s : State) : Host.Outcome State Fault Refusal :=
  .next (runCommand o 0x070D (fun s =>
    if 1000000 < grace then failWith .invalid s
    else if s.gran.disabling.isSome then failWith .notReady s
    else if enable then okWith (modConfig (fun c => { c with granaryOff := false }) s)
    else
      let s2 := stopChannels s
      if s2.gran.channels.any (fun e => e.2.phase == .stopping) then
        .laterGrace grace (modGran (fun g => { g with disabling := some (o, false) }) s2)
      else okWith s2) s)

end Sys2Proof.Machine
end

