-- ==== Sys2Proof/Machine/Winnow.lean ====
section
/-! DEFINITION. Winnow's own steps and the WINNOW group of commands (chapter 12; 16 Table 16.9). -/

namespace Sys2Proof.Machine

/-! ## Spray weights (R401 to R404) -/

/-- Cells queued for a port in classes C1 to C7. -/
def portQueued (s : State) (p : Nat) : Nat := ((List.range 7).map (fun i => queueCells s p (i + 1))).sum

/-- The weight that Winnow writes to a member (R402). -/
def nextWeight (s : State) (m : Member) (base : Nat) : Nat :=
  let c := (port s m.port).width
  let j := (joinedLanes s m.port).length
  let q := portQueued s m.port
  let f := if q < 64 * c then 16 else if q < 128 * c then 8 else if q < 256 * c then 4 else 1
  let t := Nat.max 1 (base * j * f / (16 * c))
  if m.weight < t then Nat.min t (2 * m.weight) else t

/-- The members of a set with their weights of this 1 µs point. -/
def nextMembers (s : State) (ms : List Member) (base : List Nat) : List Member :=
  (ms.zipIdx).map (fun x =>
    let b := base.getD x.2 0
    if portLive s x.1.port && decide (0 < b) then { x.1 with weight := nextWeight s x.1 b } else x.1)

/-- One set of one slice. -/
def weighSet (n set : Nat) (s : State) : State :=
  let sl := slice s n
  let ms := poppyMembers sl set
  let ms1 := nextMembers s ms (tabGet (fun _ => []) sl.base set)
  if sl.pinned.contains set || ms1 == ms then s
  else count (counterId (0x08 + n) 4 set) 1
    (modSlice n (fun x => { x with poppy := tabSet (fun _ => []) x.poppy set ms1 }) s)

/-- Weigh the members of every poppy set of every slice once (R402). -/
def weighAll (s : State) : State :=
  (List.range 8).foldl (fun s n => ((slice s n).poppy.map (·.1)).foldl (fun s set => weighSet n set s) s) s

/-- Every 1 µs: the weights of every set of every slice (R402). -/
def execWinnowWeightTick (s : State) : Host.Outcome State Fault Refusal :=
  .next (if winnowDown s then s
  else weighAll s)

/-! ## Crust circuits (R408 to R411) -/

/-- The key of a pair of fibre pairs of an engine, the lower first. -/
def pairKey (e i j : Nat) : Nat := e * 64 + 8 * Nat.min i j + Nat.max i j

def crustMask (s : State) (e : Nat) : CrustMask := tabGet crustMaskReset s.winnow.crustMasks e

/-- A mask permits a circuit pair (R408). -/
def maskPermits (m : CrustMask) (i j : Nat) : Bool := m.enable && testBitN m.pairs (8 * i + j) && testBitN m.pairs (8 * j + i)

/-- The larger of a pair's two byte counts in the window. -/
def pairBytes (s : State) (e i j : Nat) : Nat :=
  Nat.max (tabGet zeroTab s.winnow.traffic (e * 64 + 8 * i + j)) (tabGet zeroTab s.winnow.traffic (e * 64 + 8 * j + i))

/-- Bytes of a 100 ms window against a rate in Gb/s: bytes × 80 b/s. -/
def rateReaches (bytes gbps : Nat) : Bool := decide (gbps * 1000000000 ≤ 80 * bytes)

/-- The pairs of fibre pairs of an engine, lower i first, then lower j. -/
def fibrePairs : List (Nat × Nat) :=
  (List.range 8).flatMap (fun i => ((List.range 8).filter (fun j => decide (i < j))).map (fun j => (i, j)))

/-- The circuits between two fibre pairs of an engine that are not being torn down. -/
def pairCircuits (s : State) (e i j : Nat) : Tab Circuit :=
  s.opt.circuits.filter (fun x => x.2.engine == e && !x.2.loop && !x.2.tearDown &&
    ((x.2.inFibre == i && x.2.outFibre == j) || (x.2.inFibre == j && x.2.outFibre == i)))

/-- Lanes of an engine that are out of their ports for circuits, or will be (R72). -/
def lanesOut (s : State) (e : Nat) : List Nat :=
  distinct ((s.opt.circuits.filter (fun x => x.2.engine == e)).flatMap (fun x => circuitLanes x.2))

/-- A circuit between two pairs, not yet committed. -/
def newCircuit (e i j : Nat) (loop : Bool) (caller : Option Origin) : Circuit :=
  { engine := e, inFibre := i, colour := (j + 8 - i) % 8, outFibre := j, loop := loop, effective := 0, phase := .deferred,
    tearDown := false, caller := caller }

/-- The lowest free circuit identifier. -/
def freeCircuit (s : State) : Nat :=
  ((List.range (s.opt.circuits.length + 1)).find? (fun n => (circuit s n).isNone)).getD 0

def addCircuit (c : Circuit) (s : State) : State :=
  modOpt (fun o => { o with circuits := tabPut o.circuits (freeCircuit s) c }) s

/-- A circuit's colour has a ring that is powered and not FAILED in the bypass row of its input pair and in the gate and
add rows of its output pair (R48, R73). -/
def circuitRinged (s : State) (c : Circuit) : Bool :=
  [(c.inFibre, 0), (c.outFibre, 2), (c.outFibre, 4)].all (fun x => !(rowRings s c.engine x.1 x.2 c.colour).isEmpty)

/-- New circuits obey R72 and R73: no ring FAILED, a lane left in a port of each pair, at most 300 m of fibre between two
pairs, at most 32 lanes of the engine out. -/
def circuitsFit (s : State) (cs : List Circuit) : Bool :=
  cs.all (fun c =>
    let out := distinct (lanesOut s c.engine ++ cs.flatMap circuitLanes)
    circuitRinged s c && decide (out.length ≤ 32) &&
      [c.inFibre, c.outFibre].all (fun f => (List.range 8).any (fun k => !out.contains (laneOf c.engine f k))) &&
      (c.loop || decide ((fibrePair s (c.engine * 8 + c.inFibre)).length + (fibrePair s (c.engine * 8 + c.outFibre)).length ≤ 300)))

/-- Bytes of the window that a fibre pair exchanged with the pairs of its engine other than one, in the busier direction. -/
def otherTraffic (s : State) (e f but : Nat) : Nat :=
  let others := (List.range 8).filter (· != but)
  Nat.max ((others.map (fun x => tabGet zeroTab s.winnow.traffic (e * 64 + 8 * f + x))).sum)
    ((others.map (fun x => tabGet zeroTab s.winnow.traffic (e * 64 + 8 * x + f))).sum)

/-- A candidate pair joins the change set (R410). -/
def candidateFits (s : State) (e i j : Nat) : Bool :=
  let cs := [newCircuit e i j false none, newCircuit e j i false none]
  let out := distinct (lanesOut s e ++ cs.flatMap circuitLanes)
  circuitsFit s cs && decide (out.length ≤ (crustMask s e).maxLanes) &&
    [(i, j), (j, i)].all (fun x =>
      let left := ((List.range 8).filter (fun k => (lane s (laneOf e x.1 k)).phase == .joined && !out.contains (laneOf e x.1 k))).length
      decide (80 * otherTraffic s e x.1 x.2 ≤ left * 180 * 1000000000))

/-- Insert a candidate: pinned first, then the larger rate; equals keep their order. -/
def insertPair (s : State) (e : Nat) (x : Nat × Nat) : List (Nat × Nat) → List (Nat × Nat)
  | [] => [x]
  | y :: ys =>
    let pin (z : Nat × Nat) : Nat := bit (s.winnow.crustPins.contains (pairKey e z.1 z.2))
    if pin y < pin x ∨ (pin x = pin y ∧ pairBytes s e y.1 y.2 < pairBytes s e x.1 x.2) then x :: y :: ys
    else y :: insertPair s e x ys

/-- The record and the event of a crust change (R421, R422). -/
def crustDecision (e i j action id : Nat) (s : State) : State :=
  let pinned := s.winnow.crustPins.contains (pairKey e i j)
  let s1 := writeDecision 2 0 (wordOf [at_ 31 27 e, at_ 26 24 i, at_ 23 21 j]) (wordOf [at_ 31 30 action, at_ 15 0 id])
    (w32 (pairBytes s e i j * 80 / 1000000000)) (if pinned then 4 else 0) s
  raise31 0x0801 [2, lastDecision s1] s1

/-- Set up one pair of circuits, recorded under the circuit of colour (j − i) mod 8. -/
def setUpPair (e : Nat) (s : State) (x : Nat × Nat) : State :=
  if candidateFits s e x.1 x.2 then
    let id := freeCircuit s
    crustDecision e x.1 x.2 0 id
      (addCircuit (newCircuit e x.2 x.1 false none) (addCircuit (newCircuit e x.1 x.2 false none) s))
  else s

/-- Tear down the circuits of a pair. -/
def tearDownPair (e : Nat) (s : State) (x : Nat × Nat) : State :=
  let cs := pairCircuits s e x.1 x.2
  let id := ((cs.find? (fun c => c.2.inFibre == x.1)).map (·.1)).getD 0
  crustDecision e x.1 x.2 1 id
    (cs.foldl (fun s c =>
      if c.2.phase = .deferred then modOpt (fun o => { o with circuits := tabDel o.circuits c.1 }) s
      else modCircuit c.1 (fun y => { y with tearDown := true }) s) s)

/-- An earlier set of the engine is between commitment and its end. -/
def changeRunning (s : State) (e : Nat) : Bool :=
  s.opt.circuits.any (fun x => x.2.engine == e && (x.2.phase == .committed || x.2.phase == .lighting || x.2.phase == .tearing))

/-- Windows in a row below CRUST_OFF, of each pair in a circuit. -/
def countLow (e : Nat) (s : State) : State :=
  fibrePairs.foldl (fun s x =>
    let k := pairKey e x.1 x.2
    let low := !rateReaches (pairBytes s e x.1 x.2) (crustMask s e).tearDown
    let n := if (pairCircuits s e x.1 x.2).isEmpty || !low then 0 else tabGet zeroTab s.winnow.lowWindows k + 1
    modWinnow (fun w => { w with lowWindows := tabSet zeroTab w.lowWindows k n }) s) s

/-- The change set of one engine at the end of a window (R410, R411). -/
def formChanges (e : Nat) (s : State) : State :=
  if changeRunning s e then s
  else
    let pinned (x : Nat × Nat) : Bool := s.winnow.crustPins.contains (pairKey e x.1 x.2)
    let permitted (x : Nat × Nat) : Bool := maskPermits (crustMask s e) x.1 x.2
    let inCircuit (x : Nat × Nat) : Bool := !(pairCircuits s e x.1 x.2).isEmpty
    let downs := fibrePairs.filter (fun x => inCircuit x && !pinned x &&
      (!permitted x || decide (10 ≤ tabGet zeroTab s.winnow.lowWindows (pairKey e x.1 x.2))))
    let ups := fibrePairs.filter (fun x => permitted x && !inCircuit x &&
      (pinned x || rateReaches (pairBytes s e x.1 x.2) (crustMask s e).setUp))
    (ups.foldl (fun l x => insertPair s e x l) []).foldl (setUpPair e) (downs.foldl (tearDownPair e) s)

/-- Form the change set of every engine at a window's end (R410). -/
def formAll (s : State) : State := (List.range 32).foldl (fun s e => formChanges e (countLow e s)) s

/-- The end of a 100 ms window. -/
def execCrustWindowEnd (s : State) : Host.Outcome State Fault Refusal :=
  let s1 := if winnowDown s then s else formAll s
  .next (modWinnow (fun w => { w with traffic := [] }) s1)

/-! ## Summaries (R417, R418) -/

/-- The SUMMARY payload. -/
def summaryWords (x : Summary) : List Word :=
  [wordOf [at_ 31 24 1], wordOf [at_ 31 16 (Nat.min 0xFFFF x.staging), at_ 15 0 (Nat.min 0xFFFF x.contexts)],
    wordOf [at_ 31 12 (Nat.min 0xFFFFF x.extents)], wordOf [at_ 31 24 x.load], 0, 0]

/-- Mirrors at a spine that has fallen silent are DAMAGED (11 Table 11.9). -/
def loseMirrors (s : State) : State :=
  (s.gran.mirrors.filter (fun m => decide (m.2.phase < 2) && closeSilent s m.2.sid)).foldl (fun s m =>
    raiseOwner [] 0x0704 (m.1 / 2 ^ 32) [m.1 % 2 ^ 32]
      (modGran (fun g => { g with mirrors := tabPut g.mirrors m.1 { m.2 with phase := 2 } }) s)) s

/-- Every 10 ms: a SUMMARY to every spine that shares a collective spine set. -/
def execSummaryTick (load : Nat) (s : State) : Host.Outcome State Fault Refusal :=
  let s1 := loseMirrors (modWinnow (fun w => { w with load := Nat.min 255 load }) s)
  .next ((partners s1).foldl (fun s x => sendFirmware x (summaryWords (ownSummary s1)) s) s1)

/-- A SUMMARY arrives. -/
def execSummaryRx (s : State) : Host.Outcome State Fault Refusal :=
  .next (match takeFirmware 1 s with
  | none => s
  | some (k, s1) =>
    let x : Summary := {
      staging := fld (payloadWord k 1) 31 16, contexts := fld (payloadWord k 1) 15 0,
      extents := fld (payloadWord k 2) 31 12, load := fld (payloadWord k 3) 31 24, arrival := nowRef s1 }
    modWinnow (fun w => { w with summaries := tabPut w.summaries (senderSid k) x }) s1)

/-! ## Commands (16 Table 16.9) -/

/-- A policy record is within Table 12.2. -/
def policyGood (p : Policy) : Bool :=
  decide (p.diversity < 16) && decide (p.stackMask < 2 ^ 16) && decide (p.kneadMask < 2 ^ 64) &&
    decide (p.spines.length ≤ 8192) && p.spines.all (fun x => decide (x < 8192)) && noRepeat p.spines

/-- A policy would exclude a pinned choice: a recipe's spine list, a region's stacks (R399). -/
def policyExcludes (s : State) (pid : Nat) (p : Policy) : Bool :=
  s.loaf.recipes.any (fun e => ((group s (e.1 / 65536)).map (·.pid)) == some pid && e.2.pinned.any (fun x => !p.spines.contains x)) ||
    s.gran.regions.any (fun e => e.2.pid == pid && e.2.pinned && (maskBits 16 e.2.stackSet).any (fun g =>
      !testBitN p.stackMask g || (p.isolate && holdsOther s g pid true)))

def setPolicy (pid : Nat) (p : Policy) (s : State) : State :=
  modWinnow (fun w => { w with policies := tabSet policyReset w.policies pid p }) s

/-- The checks of WINNOW.POLICY: none when it may go on. -/
def policyCheck (s : State) (pid : Nat) (p : Policy) : Option Status :=
  if !ownerDefined s pid || !policyGood p then some .invalid
  else if policyExcludes s pid p then some .conflict
  else none
where
  /-- The fabric or a defined partition. -/
  ownerDefined (s : State) (pid : Nat) : Bool := decide (pid < 0xFFF) && (partition s pid).defined

/-- WINNOW.POLICY: a change of DIVERSITY goes to a quorum (R396; 16 R515). -/
def execWinnowPolicy (o : Origin) (pid : Nat) (setting : Policy) (s : State) : Host.Outcome State Fault Refusal :=
  .next (runCommand o 0x0901 (fun s =>
    match policyCheck s pid setting with
    | some st => failWith st s
    | none =>
      if setting.diversity ≠ (policy s pid).diversity then propose o (.winnowPolicy pid setting) s
      else okWith (setPolicy pid setting s)) s)

/-- A tag entry is within its ranges (Table 12.3). -/
def tagGood (e : Nat × Nat × TagSet) : Bool :=
  ((e.1 == 0 && decide (e.2.1 < 8192)) || (e.1 == 1 && decide (e.2.1 < 2 ^ 20))) && decide (e.2.2.tray < 65536) &&
    decide (e.2.2.powerShelf < 65536) && decide (e.2.2.coolingLoop < 65536) && decide (e.2.2.switch < 65536)

/-- WINNOW.TAGS. -/
def execWinnowTags (o : Origin) (entries : List (Nat × Nat × TagSet)) (s : State) : Host.Outcome State Fault Refusal :=
  .next (runCommand o 0x0902 (fun s =>
    if !entries.all tagGood then failWith .invalid s
    else okWith (modWinnow (fun w => { w with
      tags := entries.foldl (fun t e => tabSet tagsReset t (e.1 * 2 ^ 20 + e.2.1) e.2.2) w.tags }) s)) s)

/-- The record of a pin change: its partition and its subject (R421). -/
def pinRecord (s : State) : PinSubject → Nat × Word
  | .poppySet set _ => (0, w32 set)
  | .crustPair e i j => (0, wordOf [at_ 31 27 e, at_ 26 24 i, at_ 23 21 j])
  | .replica c _ _ => (((dctx s c).map (·.record.pid)).getD 0, wordOf [at_ 31 25 c])

/-- A pin change is logged. -/
def logPin (before : State) (p : PinSubject) (s : State) : State :=
  let (pid, subject) := pinRecord before p
  writeDecision 6 pid subject 0 0 4 s

/-- What a caller may pin: a tenant replicas of its own contexts alone (16 R528). -/
def pinDenied (o : Origin) (s : State) : PinSubject → Bool
  | .replica c _ _ => !(((dctx s c).map (fun x => mayReach o x.record.pid s)).getD true)
  | _ => isTenant o

/-- The subject exists and lies within the mask or the replica list (R399, R411). -/
def pinGood (s : State) : PinSubject → Bool
  | .poppySet set slices => decide (set < 4096) && decide (slices < 256)
  | .crustPair e i j => decide (e < 32) && decide (i < 8) && decide (j < 8) && i != j && maskPermits (crustMask s e) i j
  | .replica c e a => ((dctx s c).map (fun x => decide (e < x.record.e) &&
      (tabGet (fun _ => []) x.replicas e).any (fun r => r.address == a))).getD false

/-- Set a pin. -/
def setPin (p : PinSubject) (s : State) : State :=
  match p with
  | .poppySet set slices => (maskBits 8 slices).foldl (fun s n => modSlice n (fun x => { x with pinned := distinct (x.pinned ++ [set]) }) s) s
  | .crustPair e i j => modWinnow (fun w => { w with crustPins := distinct (w.crustPins ++ [pairKey e i j]) }) s
  | .replica c e a => modWinnow (fun w => { w with replicaPins := tabPut w.replicaPins (c * 1024 + e) a }) s

/-- Another replica is pinned for the same expert. -/
def pinConflict (s : State) : PinSubject → Bool
  | .replica c e a => ((tabGet? s.winnow.replicaPins (c * 1024 + e)).map (fun x => x != a)).getD false
  | _ => false

/-- WINNOW.PIN. -/
def execWinnowPin (o : Origin) (subject : PinSubject) (s : State) : Host.Outcome State Fault Refusal :=
  .next (runCommand o 0x0903 (fun s =>
    if pinDenied o s subject then failWith .denied s
    else if !pinGood s subject then failWith .invalid s
    else if pinConflict s subject then failWith .conflict s
    else okWith (logPin s subject (setPin subject s))) s)

/-- The subject of an UNPIN exists. -/
def unpinGood (s : State) : PinSubject → Bool
  | .poppySet set slices => decide (set < 4096) && decide (slices < 256)
  | .crustPair e i j => s.winnow.crustPins.contains (pairKey e i j) && decide (i < 8) && decide (j < 8)
  | .replica c e a => tabGet? s.winnow.replicaPins (c * 1024 + e) == some a && decide (e < 1024)

/-- Clear a pin. -/
def clearPin (p : PinSubject) (s : State) : State :=
  match p with
  | .poppySet set slices => (maskBits 8 slices).foldl (fun s n => modSlice n (fun x => { x with pinned := x.pinned.filter (· != set) }) s) s
  | .crustPair e i j => modWinnow (fun w => { w with crustPins := w.crustPins.filter (· != pairKey e i j) }) s
  | .replica c e _ => modWinnow (fun w => { w with replicaPins := tabDel w.replicaPins (c * 1024 + e) }) s

/-- WINNOW.UNPIN. -/
def execWinnowUnpin (o : Origin) (subject : PinSubject) (s : State) : Host.Outcome State Fault Refusal :=
  .next (runCommand o 0x0904 (fun s =>
    if pinDenied o s subject then failWith .denied s
    else if !unpinGood s subject then failWith .invalid s
    else okWith (logPin s subject (clearPin subject s))) s)

/-- WINNOW.CRUST_MASK: a mask that excludes a pinned pair is a CONFLICT (R399, R408). -/
def execWinnowCrustMask (o : Origin) (engine : Nat) (mask : CrustMask) (s : State) : Host.Outcome State Fault Refusal :=
  .next (runCommand o 0x0905 (fun s =>
    if 32 ≤ engine ∨ 32 < mask.maxLanes ∨ 2 ^ 64 ≤ mask.pairs ∨ 65536 ≤ mask.setUp ∨ mask.setUp ≤ mask.tearDown then
      failWith .invalid s
    else if fibrePairs.any (fun x => s.winnow.crustPins.contains (pairKey engine x.1 x.2) && !maskPermits mask x.1 x.2) then
      failWith .conflict s
    else okWith (modWinnow (fun w => { w with crustMasks := tabSet crustMaskReset w.crustMasks engine mask }) s)) s)

/-- A decision record (Table 12.6). -/
def decisionWords (d : Decision) : List Word :=
  [wordOf [at_ 31 28 d.dtype, at_ 23 12 d.pid], w32 d.seq, w32 d.time, d.subject, d.result, d.detail, wordOf [at_ 31 24 d.reason], 0]

/-- WINNOW.LOG: records from a SEQ on; a tenant sees its own partition's (R421). -/
def execWinnowLog (o : Origin) (first amount : Nat) (s : State) : Host.Outcome State Fault Refusal :=
  .next (runCommand o 0x0906 (fun s =>
    if amount = 0 ∨ 256 < amount ∨ 2 ^ 32 ≤ first then failWith .invalid s
    else
      let rs := (s.winnow.log.filter (fun d => decide ((d.seq + 2 ^ 32 - first) % 2 ^ 32 < 2 ^ 31) && mayReach o d.pid s)).take amount
      .done .ok (countedWords (rs.map decisionWords)) s) s)

end Sys2Proof.Machine
end

