-- ==== Sys2Proof/Machine/LinkCmd.lean ====
section
/-! DEFINITION. The LINK group of commands (16 Table 16.1; 02 2.4 to 2.9; 14 14.1, 14.2). -/

namespace Sys2Proof.Machine

/-- The spine holds something that its SID names (14 R452). -/
def sidHeld (s : State) : Bool :=
  !s.loaf.contexts.isEmpty || !s.gran.mirrors.isEmpty || s.gran.regions.any (fun r => r.2.kind == .mirror) ||
    !s.gran.grists.isEmpty || s.mill.contexts.any (fun c => c.2.record.enable)

/-- A port goes to DOWN and trains again (03 R117). -/
def retrain (cause p : Nat) (s : State) : State := tryHello p (enterDown p cause s)

/-- LINK.SET_SID (14 R450 to R452). -/
def execLinkSetSid (o : Origin) (sid : Nat) (s : State) : Host.Outcome State Fault Refusal :=
  .next (runCommand o 0x0101 (fun s =>
    if 8192 ≤ sid then failWith .invalid s
    else if sidHeld s then failWith .conflict s
    else okWith ((allPorts s).foldl (fun s p => retrain 0x0A p s) (modConfig (fun c => { c with sid := some sid }) s))) s)

/-- A tag set's two words (12 Table 12.3). -/
def tagWords (t : TagSet) : List Word :=
  [wordOf [at_ 31 16 t.tray, at_ 15 0 t.powerShelf], wordOf [at_ 31 16 t.coolingLoop, at_ 15 0 t.switch]]

/-- The header of the neighbour report (14 Table 14.1). -/
def reportHead (s : State) : List Word :=
  let sid := (ownSid s).getD 0
  let tags := match ownSid s with
    | some x => spineTags s x
    | none => tagsReset 0
  [wordOf [at_ 31 24 1, at_ 23 23 (bit (ownSid s).isSome), at_ 12 0 sid],
    wordOf [at_ 31 24 s.tbl.rootPriority, at_ 23 16 s.time.priority, at_ 15 10 s.power.modSlot,
      at_ 9 7 (timePhaseCode s.time.phase)], w32 s.fab.generation, w32 (now32 s)] ++ tagWords tags ++
    [wordOf [at_ 11 0 (allPorts s).length], 0]

/-- LINK.NEIGHBOURS: the report, ports in ascending number (14 R454). -/
def execLinkNeighbours (o : Origin) (s : State) : Host.Outcome State Fault Refusal :=
  .next (runCommand o 0x0102 (fun s => .done .ok (reportHead s ++ (allPorts s).flatMap (neighbourEntry s)) s) s)

/-- LINK.LLDP: the latest frame received on a management port (15 R480). -/
def execLinkLldp (o : Origin) (mport : Nat) (s : State) : Host.Outcome State Fault Refusal :=
  .next (runCommand o 0x0103 (fun s =>
    if 8 ≤ mport then failWith .invalid s else .done .ok (byteString (mgmtPort s mport).lldp) s) s)

/-- LINK.FIBRE_LENGTH: the recorded length of each port's pair, in m (02 Table 2.11; 03 R100). -/
def execLinkFibreLength (o : Origin) (lengths : List (Nat × Nat)) (s : State) : Host.Outcome State Fault Refusal :=
  .next (runCommand o 0x0104 (fun s =>
    if lengths.any (fun x => !portKnown s x.1 || decide (2100 < x.2)) then failWith .invalid s
    else okWith (lengths.foldl (fun s x =>
      let k := portPair x.1
      (pairPorts s (k / 8) (k % 8)).foldl (fun t p => noteEntry p s t) (modFibre k (fun f => { f with length := x.2 }) s)) s)) s)

/-- The circuits that loop a pair back. -/
def loopCircuits (s : State) (e f : Nat) : Tab Circuit :=
  s.opt.circuits.filter (fun c => c.2.loop && c.2.engine == e && c.2.inFibre == f && !c.2.tearDown)

/-- LINK.LOOPBACK: a λ0 loop-back joins, or leaves, the engine's set of crust changes; done when it is applied (02 R74,
R80). -/
def execLinkLoopback (o : Origin) (engine fibre : Nat) (on : Bool) (s : State) : Host.Outcome State Fault Refusal :=
  .next (runCommand o 0x0105 (fun s =>
    let cs := loopCircuits s engine fibre
    if !pairKnown engine fibre then failWith .invalid s
    else if on then
      let c := newCircuit engine fibre fibre true (some o)
      if !cs.isEmpty then okWith s
      else if !circuitsFit s [c] then failWith .resource s
      else .later (addCircuit c (modFibre (engine * 8 + fibre) (fun p => { p with loopback := true }) s))
    else
      match cs with
      | [] => okWith s
      | (id, c) :: _ =>
        if c.phase = .deferred then
          let s1 := modOpt (fun x => { x with circuits := tabDel x.circuits id })
            (modFibre (engine * 8 + fibre) (fun p => { p with loopback := false }) s)
          okWith (match c.caller with
            | some w => finish w .ok [] s1
            | none => s1)
        else .later (modCircuit id (fun c => { c with tearDown := true, caller := some o }) s)) s)

/-- The bay position that feeds an engine is fitted and locked. -/
def bayLocked (s : State) (e : Nat) : Bool :=
  let b := bay s (feeder s (e / 4))
  b.fitted && (match b.use with
    | .active | .serving _ => true
    | _ => false)

/-- LINK.COMMISSION: the monitor readings of the named engines become their commissioning powers (02 R60). `powers` holds
the readings by engine × 8 + colour. -/
def execLinkCommission (o : Origin) (engines : Nat) (powers : List Nat) (s : State) : Host.Outcome State Fault Refusal :=
  .next (runCommand o 0x0106 (fun s =>
    let es := (List.range 32).filter (testBitN engines)
    if es.any (fun e => !bayLocked s e) then failWith .notReady s
    else okWith (modConfig (fun c => { c with
      commission := (es.flatMap (fun e => (List.range 8).map (8 * e + ·))).foldl (fun t i => tabPut t i (powers.getD i 0))
        c.commission }) s)) s)

/-- LINK.SPARE_MODE (02 Table 2.11). -/
def execLinkSpareMode (o : Origin) (enable : Bool) (s : State) : Host.Outcome State Fault Refusal :=
  .next (runCommand o 0x0107 (fun s => okWith (modOpt (fun x => { x with autoSpare := enable }) s)) s)

/-- LINK.BAY_RETURN: the replaced bay warms and the fibres move back (02 R65). -/
def execLinkBayReturn (o : Origin) (bay : Nat) (s : State) : Host.Outcome State Fault Refusal :=
  .next (runCommand o 0x0108 (fun s =>
    if 8 ≤ bay then failWith .invalid s
    else
      match tabGet? s.start.cfg.cutover bay, tabGet? s.opt.cutovers bay with
      | some sp, none =>
        let c : Cutover := { spare := sp, stage := .warming, pauseTime := 0, back := true, caller := some o }
        .later (modOpt (fun x => { x with cutovers := tabPut x.cutovers bay c }) (modBay bay (fun x => { x with use := .warming }) s))
      | _, _ => failWith .conflict s) s)

/-- LINK.RING_RECORD: the permutation record of an optical die (02 Table 2.4). -/
def execLinkRingRecord (o : Origin) (die : Nat) (s : State) : Host.Outcome State Fault Refusal :=
  .next (runCommand o 0x0109 (fun s =>
    match tabGet? s.start.cfg.perm die with
    | none => failWith .invalid s
    | some r =>
      let body := recordBody die r
      .done .ok (body.take 3 ++ r.check :: body.drop 3) s) s)

end Sys2Proof.Machine
end

