-- ==== Sys2Proof/Machine/Mgmt.lean ====
section
/-! DEFINITION. The events of the management networks: handshakes, peels, the dispatcher, deadlines, events, LLDP,
Neighbor Discovery, echo (chapter 15). -/

namespace Sys2Proof.Machine

/-! ## Sessions -/

/-- A handshake with a certificate; `ok` says that the handshake itself succeeds under R482, `ownerRoot` that the
certificate chains to the key of OWNER_ROOT. -/
def execDtlsHandshake (mport cert : Nat) (ok ownerRoot : Bool) (s : State) : Host.Outcome State Fault Refusal :=
  onUnit (decide (mport < 8)) (
    if !(mgmtPort s mport).up || !listening s then s
    else
      let net := networkOf mport
      let s1 := countMgmt mport 0 s
      match (classOf s net cert ownerRoot).filter (fun _ => ok && decide (sessionsOn s net < 32)) with
      | none => countMgmt mport 3 s1
      | some c =>
        let x : Session := { network := net, cls := c, cert := cert, port := mport, datagram := (netConfig s net).2.2 }
        modMgmt (fun m => { m with sessions := tabPut m.sessions m.nextSession x, nextSession := m.nextSession + 1 }) s1)

/-- 120 s without a datagram (R484). -/
def execSessionIdleTimeout (session : Nat) (s : State) : Host.Outcome State Fault Refusal := .next (closeSession session s)

/-- A Packet Too Big lowers the session's datagram size, down to 1,280 (R478). -/
def execPacketTooBigRx (session mtu : Nat) (s : State) : Host.Outcome State Fault Refusal :=
  .next (modMgmt (fun m => { m with
    sessions := tabMap (fun k x => if k = session then { x with datagram := Nat.max 1280 (Nat.min x.datagram mtu) } else x)
      m.sessions }) s)

/-! ## Commands -/

/-- A COMMAND peel in a session. A peel to a mailbox that is not open to its sender is answered at once (R490); `form` is
the whole body against the command's table. -/
def execCommandPeelRx (session mport : Nat) (peel : Peel) (form : BodyForm) (s : State) : Host.Outcome State Fault Refusal :=
  onUnit (decide (mport < 8)) (
    match datagramArrives session mport s with
    | none => s
    | some (x, s1) =>
      let via : Via := ⟨session, mport, x.datagram⟩
      if lVer peel ≠ 1 ∨ lType peel ≠ 0 then discardPeel mport s1
      else if lMajor peel = 1 ∧ !mailboxOpen (peelOrigin x peel) s1 then receiveCommand via x peel [] form s1
      else assemble via x peel form s1)

/-- 1 s after the first segment of a command some are missing (R489). -/
def execSegmentTimeout (mailbox session seq : Nat) (s : State) : Host.Outcome State Fault Refusal :=
  .next (if (Machine.mailbox s mailbox).assembling.any (fun a => a.session == session && a.seq == seq) then
    countMailbox mailbox 4 (dropMessage mailbox session seq s)
  else s)

/-- The dispatcher takes the next step. -/
def execCommandStepDispatch (s : State) : Host.Outcome State Fault Refusal := .next (dispatchStep s)

/-- What a command asked for and has not completed is given up: an atomic command has applied nothing (R498). -/
def abandonWork (mb seq : Nat) (s : State) : State :=
  let mine (o : Origin) : Bool := o.mailbox == mb && o.seq == seq
  let s1 := (s.loaf.opens.filter (fun e => mine e.2.origin)).foldl (fun s e =>
    releaseSpines e.1 e.2.recipe (if e.2.committing then mapSids e.2.recipe else distinct (e.2.reserved ++ e.2.waiting))
      (modLoaf (fun l => { l with opens := tabDel l.opens e.1 }) s)) s
  let s2 := modTele (fun t => { t with snapshots := t.snapshots.filter (fun x => !mine x.origin) }) s1
  let s3 := { s2 with
    time := { s2.time with
      accept := s2.time.accept.filter (fun a => !mine a.origin), tie := s2.time.tie.filter (fun a => !mine a.origin) },
    gran := { s2.gran with
      asks := s2.gran.asks.filter (fun e => !mine e.2.origin), commits := s2.gran.commits.filter (fun c => !mine c.origin) } }
  modMill (fun m => { m with
    contexts := tabMap (fun _ c => { c with draining := c.draining.filter (fun d => !mine d.1) }) m.contexts }) s3

/-- A command ends at L1: its crumb record, TIMEOUT with STEPS_DONE and STEPS_TOTAL (R498; 17 R551). -/
def expireCommand (mb seq : Nat) (s : State) : State :=
  match (mailbox s mb).outstanding.find? (fun c => c.seq == seq) with
  | none => s
  | some c =>
    let o : Origin := ⟨mb, c.cls, seq, 0⟩
    let s1 := staleCrumb 5 (mb * 2 ^ 26 + c.opcode) ((callerPid o s).getD 0) s
    answer o c.opcode .timeout [w32 c.stepsDone, w32 c.stepsTotal] (countMailbox mb 3 (abandonWork mb seq s1))

/-- A command's deadline expires; RESET.CHIP and RESET.CYCLE have none (16 Table 16.11). -/
def execCommandDeadlineExpiry (mailbox seq : Nat) (s : State) : Host.Outcome State Fault Refusal :=
  .next (if (Machine.mailbox s mailbox).outstanding.any (fun c => c.seq == seq && decide (c.received < c.deadline)) then
    expireCommand mailbox seq s
  else s)

/-- 1 ms after its command's deadline a step has not ended: L2 of the engine that holds it (R498; 17 Table 17.9). -/
def execStepOverrun (typ idx mailbox seq : Nat) (s : State) : Host.Outcome State Fault Refusal :=
  onUnit (engineKnown s typ idx) (
    match (Machine.mailbox s mailbox).kept.find? (fun r => r.seq == seq && r.status == statusCode .timeout) with
    | some r => escalate 2 (engineScope typ idx) 0x0003 [5, mailbox * 2 ^ 26 + r.opcode] s
    | none => s)

/-! ## Events -/

/-- An EVENT_ACK in a session (R490, R494, R503). -/
def execEventAckRx (session mport : Nat) (peel : Peel) (s : State) : Host.Outcome State Fault Refusal :=
  onUnit (decide (mport < 8)) (
    match datagramArrives session mport s with
    | none => s
    | some (x, s1) =>
      let mb := lMailbox peel
      if lVer peel ≠ 1 ∨ lType peel ≠ 3 ∨ !mailboxOpen (peelOrigin x peel) s1 then discardPeel mport s1
      else
        match ackedRecords (eventQueue s1 mb) (lSeq peel) with
        | none => discardPeel mport s1
        | some n =>
          bindMailbox mb session (modEventQueue mb (fun q => { q with
            queue := q.queue.drop n, inFlight := q.inFlight - n, sent := q.sent - n }) s1))

/-- Records that wait are sent to the holding session. -/
def execEventSend (mailbox : Nat) (s : State) : Host.Outcome State Fault Refusal := .next (sendEvents mailbox s)

/-- 100 ms without an acknowledgement: sent again from the oldest. -/
def execEventResendTimeout (mailbox : Nat) (s : State) : Host.Outcome State Fault Refusal :=
  .next (if (eventQueue s mailbox).inFlight = 0 then s
  else sendEvents mailbox (modEventQueue mailbox (fun q => { q with inFlight := 0 }) s))

/-! ## Ports (R478 to R480) -/

/-- LLDP is due on a port. -/
def execLldpTick (mport : Nat) (s : State) : Host.Outcome State Fault Refusal :=
  onUnit (decide (mport < 8)) (sendFrame mport (lldpFrame s mport) s)

/-- An LLDP frame is recorded. -/
def execLldpRx (mport : Nat) (frame : List Byte) (s : State) : Host.Outcome State Fault Refusal :=
  onUnit (decide (mport < 8)) (
    if (mgmtPort s mport).up then
      countMgmt mport 0 (modMgmt (fun m => { m with ports := tabMod mgmtPortReset (fun p => { p with lldp := frame }) m.ports mport }) s)
    else s)

/-- The advertisement that answers a solicitation: to all nodes where the asker has no address, else to the asker
(R478). -/
def advertisement (mport srcMac src target : Nat) : List Byte :=
  let mac := Config.factoryMac mport
  let rest (solicited : Bool) : List Byte :=
    natBytes 4 (if solicited then 0x60000000 else 0x20000000) ++ natBytes 16 target ++ natBytes 1 2 ++ natBytes 1 1 ++
      natBytes 6 mac
  if src = 0 then icmpFrame 0x333300000001 mac (0xFF02 * 2 ^ 112 + 1) target 136 0 (rest false)
  else icmpFrame srcMac mac src target 136 0 (rest true)

/-- A neighbour solicitation for an address of the port is answered with an advertisement, to all nodes when it comes from
the unspecified address; an advertisement changes nothing that the device keeps (message forms PRESUMED from RFC 4861,
log 40). -/
def execNeighborDiscoveryRx (mport : Nat) (solicit : Bool) (srcMac src target : Nat) (s : State) : Host.Outcome State Fault Refusal :=
  onUnit (decide (mport < 8)) (
    if !(mgmtPort s mport).up then s
    else
      let s1 := countMgmt mport 0 s
      if !solicit || !ownAddress s mport target then s1
      else sendFrame mport (advertisement mport srcMac src target) s1)

/-- An echo request to an address of the port is answered with its identifier, sequence number and data (RFC 4443). -/
def execIcmpEchoRx (mport srcMac src dst ident seqNo : Nat) (data : List Byte) (s : State) : Host.Outcome State Fault Refusal :=
  onUnit (decide (mport < 8)) (
    if !(mgmtPort s mport).up then s
    else
      let s1 := countMgmt mport 0 s
      if ownAddress s mport dst then
        sendFrame mport (icmpFrame srcMac (Config.factoryMac mport) src dst 129 0
          (natBytes 2 ident ++ natBytes 2 seqNo ++ data)) s1
      else s1)

/-- The management ports that a phase runs: all eight, those of network A alone (17 R545, R560), or none. -/
def portServed (s : State) (p : Nat) : Bool :=
  s.start.phase == .running || (recoveryOnly s && decide (p < 4))

/-- Every mailbox with responses that wait and a way to its session sends them (R479). -/
def flushAll (s : State) : State :=
  ((s.mgmt.mailboxes.filter (fun e => !e.2.unsent.isEmpty && (mailboxVia s e.1).isSome)).map (·.1)).foldl
    (fun s mb => flushUnsent mb s) s

/-- A port comes up or goes down; with the first port of a network its waiting responses go out (R479). -/
def execMgmtPortLinkChange (mport : Nat) (up : Bool) (s : State) : Host.Outcome State Fault Refusal :=
  onUnit (decide (mport < 8)) (
    let s1 := modMgmt (fun m => { m with
      ports := tabMod mgmtPortReset (fun p => { p with up := up && portServed s mport }) m.ports mport }) s
    flushAll s1)

end Sys2Proof.Machine
end

