-- ==== Sys2Proof/Machine/Power.lean ====
section
/-! DEFINITION. Supply, reset pin, reference, temperature, throttling and the SMBus target (chapter 20; 17 R538, R566). -/

namespace Sys2Proof.Machine

/-- VIN_42 rises through its turn-on threshold: the power-on sequence, unless a shutdown is latched (Table 20.8). A cold
start follows when MOD_RST_N is released. -/
def execPowerOn (s : State) : Host.Outcome State Fault Refusal :=
  .next (if s.power.vinOn || s.power.latched || s.power.thermTrip then s
  else
    let s1 := modPower (fun p => { p with vinOn := true, rails := true, pwrOk := true, refclk := true }) s
    if s1.power.modRst then s1 else beginCold s1)

/-- Undervoltage: off until turn-on (Table 20.7). -/
def execInputUndervoltage (s : State) : Host.Outcome State Fault Refusal := .next (dropPower s)

/-- A latched shutdown. -/
def latchOff (s : State) : State := modPower (fun p => { p with latched := true }) (dropPower s)

/-- Overvoltage (Table 20.7). -/
def execInputOvervoltage (s : State) : Host.Outcome State Fault Refusal := .next (latchOff s)

/-- Overcurrent (Table 20.7). -/
def execInputOvercurrent (s : State) : Host.Outcome State Fault Refusal := .next (latchOff s)

/-- VIN_42 falls below 5 V: latches and THERM_TRIP_N end (R625, R634). -/
def execLatchClear (s : State) : Host.Outcome State Fault Refusal :=
  .next (modPower (fun p => { p with latched := false, thermTrip := false }) (dropPower s))

/-- The supply is lost without warning (R628). -/
def execSupplyLoss (s : State) : Host.Outcome State Fault Refusal := .next (dropPower s)

/-- MOD_RST_N is asserted: every island in reset, no dump (17 R538). -/
def execModRstNAssert (s : State) : Host.Outcome State Fault Refusal :=
  .next (coldHold (modPower (fun p => { p with modRst := true, statusOnly := false }) s))

/-- MOD_RST_N is released: a cold start begins when the rails are in regulation (17 R538). -/
def execModRstNRelease (s : State) : Host.Outcome State Fault Refusal :=
  .next (if s.power.modRst then
    let s1 := modPower (fun p => { p with modRst := false }) s
    if s1.power.rails && !s1.power.thermTrip then beginCold s1 else s1
  else s)

/-- The reference is lost: every island in reset, lasers off, a power cycle asked for, no dump (R623). -/
def execRefclkLoss (s : State) : Host.Outcome State Fault Refusal :=
  .next (if s.power.pwrOk then
    modStart (fun st => { st with phase := .cycleRequested })
      (modPower (fun p => { p with refclk := false, cycleReq := true }) (coldHold s))
  else s)

/-- A comparator trips: lasers off, every island in reset, THERM_TRIP_N low, no dump (R634). -/
def execThermalTrip (s : State) : Host.Outcome State Fault Refusal :=
  .next (if s.power.vinOn then modPower (fun p => { p with thermTrip := true }) (coldHold s) else s)

/-! ## Telemetry and throttling -/

/-- The SMBus telemetry is updated; the coolant bit ends once the difference is back within 25 K (R621, R637). -/
def execTelemetryUpdate (t : Telemetry) (s : State) : Host.Outcome State Fault Refusal :=
  .next (if s.power.pwrOk then
    modPower (fun p => { p with
      telemetry := t, coolantDelta := p.coolantDelta && decide (2500 < t.outletTemp - t.inletTemp) }) s
  else s)

/-- The coolant outlet has been more than 25 K above the inlet for 1 s (R637). -/
def execCoolantDeltaAlarm (s : State) : Host.Outcome State Fault Refusal :=
  .next (if s.power.pwrOk then modPower (fun p => { p with coolantDelta := true }) s else s)

/-- Every die and stack lies at least 5 °C below its warning level. -/
def wellBelow (t : Telemetry) : Bool :=
  decide (t.switchTemp ≤ 9500) && decide (t.computeTemp ≤ 9500) && decide (t.opticalTemp ≤ 8500) && decide (t.stackTemp ≤ 8300)

/-- Power lies above the cap, which is infinite when off. -/
def overCap (p : PowerState) (t : Telemetry) : Bool := decide (0 < p.cap) && decide (p.cap < t.watts)

/-- One more on the lowest stage whose depth is below 15. -/
def deeper : List Nat → List Nat
  | [] => []
  | d :: ds => if d < 15 then (d + 1) :: ds else d :: deeper ds

/-- One less on the highest stage whose depth is above 0. -/
def shallower (ds : List Nat) : List Nat := ((ds.reverse).foldl (fun (a : List Nat × Bool) d =>
  if a.2 || d = 0 then (d :: a.1, a.2) else ((d - 1) :: a.1, true)) ([], false)).1

/-- The evaluation of R631: over raises one depth, ten evaluations of under lower one. -/
def evaluateThrottle (t : Telemetry) (p : PowerState) : PowerState :=
  let above := overCap p t || warningReached t
  let under := (decide (p.cap = 0) || decide (t.watts + 50 ≤ p.cap)) && wellBelow t
  let run := if under then p.underRun + 1 else 0
  let depth := if above then deeper p.depth else if 10 ≤ run then shallower p.depth else p.depth
  let full := if p.depth.all (· == 15) && overCap p t then p.fullRun + 1 else 0
  { p with
    depth := depth, underRun := run, fullRun := full, capEventRaised := p.capEventRaised && decide (0 < full),
    capUnattainable := p.capUnattainable && overCap p t }

/-- The evaluation every 1 ms; each change of step raises one event (R631). -/
def execThrottleEvaluation (t : Telemetry) (s : State) : Host.Outcome State Fault Refusal :=
  .next (if s.start.phase = .running then
    let s1 := modPower (evaluateThrottle t) s
    if throttleStep s1 = throttleStep s then s1 else raise15 0x0B01 [throttleStep s1, t.watts] s1
  else s)

/-- Every stage has stood at depth 15 over the cap for 100 ms: the alarm, and one event (R633). -/
def execCapUnattainable (s : State) : Host.Outcome State Fault Refusal :=
  .next (if s.start.phase = .running && decide (100 ≤ s.power.fullRun) && !s.power.capEventRaised then
    raise15 0x0B01 [4, s.power.telemetry.watts] (modPower (fun p => { p with capUnattainable := true, capEventRaised := true }) s)
  else s)

/-! ## SMBus -/

/-- 16 bits of a signed value. -/
def int16 (x : Int) : List Byte := natBytes 2 (x % 65536).toNat

/-- A register of Table 20.5 by its command code; none for an unassigned code. -/
def smbusRegister (s : State) (code : Nat) : Option (List Byte) :=
  let p := s.power
  let t := p.telemetry
  if code = 0x10 then some (wordBytes (startStatus s))
  else if code = 0x11 then some (natBytes 1 p.bootMode ++ natBytes 1 p.modSlot)
  else if code = 0x12 then some (natBytes 2 (t.milliVolts / 10) ++ natBytes 2 (t.milliAmps / 10) ++ natBytes 2 t.watts)
  else if code = 0x13 then
    some ([t.switchTemp, t.computeTemp, t.opticalTemp, t.stackTemp, t.inletTemp, t.outletTemp].flatMap int16)
  else if code = 0x14 then some (natBytes 2 (alarms s))
  else if code = 0x15 then
    some (natBytes 2 1 ++ natBytes 1 ((s.start.resident.map (·.major)).getD 0) ++
      natBytes 1 ((s.start.resident.map (·.minor)).getD 0) ++ natBytes 8 Config.serial)
  else none

/-- A bit step and a byte step of the CRC-8 of SMBus (polynomial x^8 + x^2 + x + 1). -/
def pecBit (c : BitVec 8) : BitVec 8 := if c.getLsbD 7 then (c <<< 1) ^^^ 0x07#8 else c <<< 1

def pecByte (c b : Byte) : Byte := (List.range 8).foldl (fun c _ => pecBit c) (c ^^^ b)

/-- The PEC of a Block Read: address and write bit, command code, address and read bit, count and data. -/
def pecOf (code : Nat) (data : List Byte) : Byte :=
  ([0xB8#8, BitVec.ofNat 8 code, 0xB9#8, BitVec.ofNat 8 data.length] ++ data).foldl pecByte 0

/-- A Block Read: byte count, data, PEC. A read of START_STATUS releases ALERT_N; an unassigned code, any code while there
is no reference, and every code but START_STATUS once R568 applies, is not acknowledged (R620, R621; 17 R566). -/
def execStartStatusRead (code : Nat) (s : State) : Host.Outcome State Fault Refusal :=
  .next (if !s.power.pwrOk || !s.power.refclk || (s.power.statusOnly && code != 0x10) then s
  else match smbusRegister s code with
    | none => s
    | some bs =>
      let s1 := emit (.smbus code (natBytes 1 bs.length ++ bs ++ [pecOf code bs])) s
      if code = 0x10 then modPower (fun p => { p with alert := false }) s1 else s1)

end Sys2Proof.Machine
end

