-- ==== Sys2Proof/Machine/ResetCmd.lean ====
section
/-! DEFINITION. The RESET and POWER groups of commands (16 Table 16.11; 17 17.4; 20 R630 to R633). -/

namespace Sys2Proof.Machine

/-- RESET.CONTEXT of a loaf: it aborts as LOAF.ABORT does (08 R294). -/
def resetLoaf (o : Origin) (gid seq : Nat) (s : State) : CmdOutcome :=
  match group s gid with
  | none => failWith .invalid s
  | some g =>
    if !mayReach o g.pid s then failWith .denied s
    else if (abortTargets s gid seq).any (fun e => loafRunning e.2) then okWith (noteLevel 1 (abortLoaf gid seq 6 s))
    else failWith .invalid s

/-- Of a grist slot: its running program ends ABORTED (11 R380). -/
def resetGrist (o : Origin) (slot : Nat) (s : State) : CmdOutcome :=
  match grist s slot with
  | none => failWith .invalid s
  | some g =>
    if !slotReach o s g then failWith .denied s
    else if g.phase ≠ .running then failWith .invalid s
    else okWith (abortGrist slot (staleCrumb 1 slot g.params.pid s))

/-- Of a DMA channel: its descriptors in flight complete ABORTED and the channel goes to ERROR (11 R393). -/
def resetChannel (o : Origin) (c : Nat) (s : State) : CmdOutcome :=
  let ch := channel s c
  if 32 ≤ c then failWith .invalid s
  else if !channelReach o c s then failWith .denied s
  else if ch.flight.all (fun f => f.status.isSome) then failWith .invalid s
  else
    let s1 := modChannel c (fun x => { x with phase := if x.phase = .running then .error else x.phase })
      (staleCrumb 2 (c * 2 ^ 17 + (ch.flight.head?.map (·.index)).getD 0) ch.cfg.pid s)
    okWith (settleStop c (failFlight c .aborted false s1))

/-- Of a command: it ends TIMEOUT as at its deadline (15 R498). -/
def resetCommand (o : Origin) (mb seq : Nat) (s : State) : CmdOutcome :=
  if 64 ≤ mb ∨ (mb = o.mailbox ∧ seq = o.seq) then failWith .invalid s
  else if isTenant o && (mailbox s mb).pid != (mailbox s o.mailbox).pid then failWith .denied s
  else if (mailbox s mb).outstanding.any (fun c => c.seq == seq) then okWith (expireCommand mb seq s)
  else failWith .invalid s

/-- RESET.CONTEXT: L1 for the object of a TYPE that its identifier words name; a tenant reaches only its own (17 R551). -/
def execResetContext (o : Origin) (objType a b : Nat) (s : State) : Host.Outcome State Fault Refusal :=
  .next (runCommand o 0x0D01 (fun s =>
    match objType with
    | 0 => resetLoaf o a b s
    | 1 => resetGrist o a s
    | 2 => resetChannel o a s
    | 3 => resetCommand o a b s
    | _ => failWith .invalid s) s)

/-- The L2 of an engine would go to L3 instead (17 Table 17.6). -/
def thirdEngineReset (s : State) (scope : Nat) : Bool :=
  decide (2 ≤ (recentTimes s 60000000000 (tabGet (fun _ => []) s.rst.l2Times scope)).length)

/-- RESET.ENGINE: L2 of the engine of a code, at once; ABORTED when a higher level takes its place (17 R552, R556). -/
def execResetEngine (o : Origin) (code : Word) (trains : Bool) (s : State) : Host.Outcome State Fault Refusal :=
  .next (runCommand o 0x0D02 (fun s =>
    let typ := fld code 31 24
    let idx := fld code 15 0
    let scope := engineScope typ idx
    if fld code 23 16 ≠ 0 ∨ !engineKnown s typ idx then failWith .invalid s
    else
      let s1 := escalate 2 scope 0x000B [code.toNat] s
      let mine := (askedFor s1 2 scope).isSome && !thirdEngineReset s1 scope
      .done (if mine then .ok else .aborted) [] (resetEngine typ idx trains s1)) s)

/-- RESET.SLICE: L3 of a slice with its four clusters, at once; ABORTED when L4 takes its place. -/
def execResetSlice (o : Origin) (slice : Nat) (trains : Bool) (s : State) : Host.Outcome State Fault Refusal :=
  .next (runCommand o 0x0D03 (fun s =>
    let isl := 8 + slice
    let scope := islandScope (l3Home isl)
    if 8 ≤ slice then failWith .invalid s
    else
      let s1 := escalate 3 scope 0x000B [slice] s
      let third := decide (2 ≤ (recentTimes s1 600000000000 (tabGet (fun _ => []) s1.rst.l3Times scope)).length)
      let mine := (askedFor s1 3 scope).isSome && !third
      .done (if mine then .ok else .aborted) [] (resetScope isl trains s1)) s)

/-- RESET.CHIP: L4, or in recovery mode a cold start without a dump; the start ends the command without a response (15
R500; 17 R548). -/
def execResetChip (o : Origin) (s : State) : Host.Outcome State Fault Refusal :=
  .next (runCommand o 0x0D04 (fun s =>
    if s.start.phase = .recovery then .later (beginCold s) else .later (escalate 4 0 0x000B [] s)) s)

/-- RESET.CYCLE: L5. -/
def execResetCycle (o : Origin) (s : State) : Host.Outcome State Fault Refusal :=
  .next (runCommand o 0x0D05 (fun s => .later (escalate 5 0 0x000B [] s)) s)

/-- POWER.CAP: 0, or 1,000 to 2,800 W (20 R631). -/
def execPowerCap (o : Origin) (watts : Nat) (s : State) : Host.Outcome State Fault Refusal :=
  .next (runCommand o 0x1101 (fun s =>
    if watts ≠ 0 ∧ (watts < 1000 ∨ 2800 < watts) then failWith .invalid s
    else okWith (modPower (fun p => { p with cap := watts }) s)) s)

/-- POWER.STATUS (16 Table 16.11). -/
def execPowerStatus (o : Origin) (s : State) : Host.Outcome State Fault Refusal :=
  .next (runCommand o 0x1102 (fun s =>
    let t := s.power.telemetry
    .done .ok [w32 t.milliVolts, w32 t.milliAmps, w32 t.watts, wInt t.switchTemp, wInt t.computeTemp, wInt t.opticalTemp,
      w32 (throttleStep s)] s) s)

end Sys2Proof.Machine
end

