-- ==== Sys2Proof/Machine/Sched.lean ====
section
/-! DEFINITION. The boundary of a proof period and the lending of allowance (07 R254 to R262). -/

namespace Sys2Proof.Machine

/-- A counter of an (activity, resource): SPENT_PERIODS, LENT, BORROWED (19 Table 19.1). -/
def countBudget (act res item n : Nat) (s : State) : State :=
  if n = 0 then s else count (counterId 1 2 (16 * act + 4 * res + item)) n s

/-- One gate at the boundary: its counters, and the overdraw that the next period deducts. -/
def closeGate (act res : Nat) (s : State) : State :=
  let g := gate s act res
  let a := allowance s act res
  let spent := decide (0 < a) && decide (a ≤ g.used + g.overdraw)
  let s1 := countBudget act res 0 (bit spent) (countBudget act res 1 g.lent (countBudget act res 2 g.borrowed s))
  modGate act res (fun g => { used := 0, overdraw := g.used + g.overdraw + g.lent - (a + g.borrowed), lent := 0, borrowed := 0 }) s1

/-- Every (activity, resource). -/
def allGates : List (Nat × Nat) := (List.range 10).flatMap (fun a => (List.range 4).map (fun r => (a, r)))

/-- Every gate at the boundary. -/
def closeGates (s : State) : State := allGates.foldl (fun s x => closeGate x.1 x.2 s) s

/-- The end of a proof period: gates reset, lent allowance returns, accepted share changes take effect (R256, R257,
R262). -/
def closePeriod (s : State) : State :=
  let s1 := closeGates s
  { s1 with sched := { s1.sched with
    lentPool := [], budgets := s1.sched.nextBudgets.getD s1.sched.budgets, nextBudgets := none } }

/-- A period boundary. -/
def execProofPeriodBoundary (s : State) : Host.Outcome State Fault Refusal := .next (closePeriod s)

/-- A lendable activity has had no work on a resource for 1,024 ns: it lends the rest of its allowance, but no
Granary allowance while stage 2 throttles (R258; 20 Table 20.11). -/
def execLendIdleTimeout (act res : Nat) (s : State) : Host.Outcome State Fault Refusal :=
  let g := gate s act res
  let rest := allowance s act res - (g.used + g.overdraw + g.lent)
  onUnit (decide (act < 10) && decide (res < 4))
    (if (s.sched.budgets.getD act ⟨[], false⟩).lendable && (res != 0 || throttleDepth s 2 == 0) then
      modGate act res (fun g => { g with lent := g.lent + rest })
        { s with sched := { s.sched with lentPool := tabMod (fun _ => 0) (· + rest) s.sched.lentPool res } }
    else s)

end Sys2Proof.Machine
end

