-- ==== Sys2Proof/Machine/TableCmd.lean ====
section
/-! DEFINITION. The TABLE group of commands (16 Table 16.3; 06 R197 to R216, R224; 14 R463 to R466). -/

namespace Sys2Proof.Machine

/-! ## Tables, elements, generations (R209, R522) -/

/-- Slices that a mask names. -/
def maskSlices (m : Nat) : List Nat := (List.range 8).filter (testBitN m)

def sliceMaskGood (m : Nat) : Bool := decide (0 < m) && decide (m < 256)

/-- Words of an entry of a table, by its code (06 Tables 6.3 to 6.7). -/
def entryWordCount (table : Nat) : Nat :=
  if table = 0 then 4 else if table = 1 then 65 else if table = 2 then 2 else if table = 3 then 64
  else if table = 4 then 9 else 1

/-- Entries of a table (06 Table 6.1); of the destination table its storage indices. -/
def tableEntries (sl : Slice) (table : Nat) : Nat :=
  if table = 0 then (if sl.params.cuckoo then 524288 else 528384)
  else if table = 1 ∨ table = 3 ∨ table = 4 then 4096
  else if table = 2 then 65536
  else if table = 5 then 2048 else 8192

/-- Table accesses per entry (14 Table 14.4). -/
def entryCost (table : Nat) : Nat := if table = 1 then 9 else if table = 3 then 8 else if table = 4 then 2 else 1

/-- The key of a destination element. -/
def elemPid (e : TableElem) : Nat := fld (e.words.getD 0 0) 11 0
def elemDest (e : TableElem) : Nat := fld (e.words.getD 0 0) 31 12

/-- The destination entry that an element writes: static, of generation G; HIT and AGED start clear. -/
def elemEntry (g : Nat) (e : TableElem) : DestEntry :=
  { dest := elemDest e, pid := elemPid e, isStatic := true, hit := false, aged := false, gen := g,
    poppy := fld (e.words.getD 1 0) 11 0,
    mask := (e.words.getD 2 0).toNat * 2 ^ 32 + (e.words.getD 3 0).toNat }

/-- The members of a poppy element. -/
def elemMembers (e : TableElem) : List Member :=
  (List.range (fld (e.words.getD 0 0) 31 25)).map (fun m =>
    let w := e.words.getD (m + 1) 0
    ⟨fld w 31 21, fld w 15 8⟩)

/-- An element fits its table (R212, R522). -/
def elemGood (table : Nat) (e : TableElem) : Bool :=
  e.words.length == entryWordCount table &&
    (if table = 0 then e.index == 0
    else decide (e.index < tableEntries (sliceReset 0) table) &&
      (table != 1 || (decide ((elemMembers e).length ≤ 64) && (distinct ((elemMembers e).map (·.port))).length == (elemMembers e).length)))

/-- GENERATION of a table in a slice; the destination table has one for each PID (R209). -/
def generation (sl : Slice) (table pid : Nat) : Nat :=
  if table = 0 then tabGet zeroTab sl.destGen pid else tabGet zeroTab sl.gen table

def setGeneration (table pid g : Nat) (sl : Slice) : Slice :=
  if table = 0 then { sl with destGen := tabSet zeroTab sl.destGen pid g } else { sl with gen := tabSet zeroTab sl.gen table g }

/-! ## TABLE.WRITE -/

/-- The slot that a static entry takes: its key's own, or a free one (R201 to R204). -/
def staticSlot (sl : Slice) (e : TableElem) : Option (Nat × Tab DestEntry) :=
  match destFind sl (elemPid e) (elemDest e) with
  | some (i, _) => some (i, sl.dest)
  | none => destMakeRoom sl (elemPid e) (elemDest e)

/-- Write one destination element; none when the insertion fails (R204). -/
def writeDest (g : Nat) (e : TableElem) (sl : Slice) : Option Slice :=
  if fld (e.words.getD 1 0) 31 31 = 0 then
    some (match destFind sl (elemPid e) (elemDest e) with
      | some (i, _) => parityRewritten 0 i { sl with dest := tabDel sl.dest i }
      | none => sl)
  else (staticSlot sl e).map (fun x => parityRewritten 0 x.1 { sl with dest := tabPut x.2 x.1 (elemEntry g e) })

/-- The words of a poppy set have good parity again. -/
def setRewritten (set : Nat) (sl : Slice) : Slice :=
  (List.range 65).foldl (fun sl m => parityRewritten 1 (65 * set + m) sl) sl

/-- A word with its reserved low byte written 0 (06 Tables 6.6, 6.7). -/
def noLowByte (w : Word) : Word := w &&& 0xFFFFFF00#32

/-- Write one element of a table other than the destination table. An entry written with VALID 0 is deleted. -/
def writeOther (table : Nat) (sl : Slice) (e : TableElem) : Slice :=
  let w0 := e.words.getD 0 0
  if table = 1 then
    let ms := elemMembers e
    setRewritten e.index { sl with
      poppy := tabSet (fun _ => []) sl.poppy e.index ms, base := tabSet (fun _ => []) sl.base e.index (ms.map (·.weight)) }
  else if table = 2 then
    let gs := if fld w0 31 31 = 0 then tabDel sl.groups e.index
      else tabPut sl.groups e.index (w0 &&& 0xFFFFFC00#32, noLowByte (e.words.getD 1 0))
    parityRewritten 2 e.index { sl with groups := gs }
  else if table = 3 then
    parityRewritten 3 e.index { sl with bitmaps := tabSet zeroTab sl.bitmaps e.index (bytesNat (wordsBytes e.words)) }
  else
    let w := if fld w0 31 31 = 0 then 0 else noLowByte w0
    if table = 5 then parityRewritten 5 e.index { sl with huskRow := tabSet (fun _ => 0) sl.huskRow e.index w }
    else parityRewritten 6 e.index { sl with huskSpine := tabSet (fun _ => 0) sl.huskSpine e.index w }

/-- Write the elements of a command into a slice under its generation; none when an insertion fails. -/
def writeElems (table g : Nat) (es : List TableElem) (sl : Slice) : Option Slice :=
  let pid := elemPid (es.headD ⟨0, []⟩)
  (if table = 0 then es.foldl (fun (x : Option Slice) e => x.bind (writeDest g e)) (some sl)
    else some (es.foldl (writeOther table) sl)).map (setGeneration table pid g)

/-- Put a changed slice in the state. -/
def setSlice (n : Nat) (sl : Slice) (s : State) : State := modSlice n (fun _ => sl) s

/-- The buckets of a destination element are under another command's lock (R206). -/
def elemLocked (sl : Slice) (e : TableElem) : Bool := keyLocked sl (elemPid e) (elemDest e)

/-- The bucket whose lock hangs: that of the first element (R208). -/
def hungBucket (sl : Slice) (e : TableElem) : Nat :=
  bucketOf sl ((destSlots sl (elemPid e) (elemDest e)).headD 0)

/-- Write the entries of a command in every named slice: all of them or none (R209). -/
def writeSlices (table g : Nat) (elems : List TableElem) : List Nat → State → Option State
  | [], s => some s
  | n :: ns, s =>
    match writeElems table g elems (slice s n) with
    | none => none
    | some sl => writeSlices table g elems ns (setSlice n sl s)

/-- TABLE.WRITE: under the generation test, bucket by bucket under its lock, all or nothing (R206 to R209, R513). `hung`
says that a bucket's lock is not released: the command then waits for BUCKET_LOCK_TIMEOUT. -/
def execTableWrite (o : Origin) (table slices g : Nat) (elems : List TableElem) (hung : Bool) (s : State) : Host.Outcome State Fault Refusal :=
  .next (runCommand o 0x0301 (fun s =>
    let ns := maskSlices slices
    let pid := elemPid (elems.headD ⟨0, []⟩)
    if !([0, 1, 2, 3, 5, 6].contains table) || !sliceMaskGood slices || elems.isEmpty || !elems.all (elemGood table) ||
        (table == 0 && elems.any (fun e => elemPid e != pid)) then failWith .invalid s
    else if ns.any (fun n => g != (generation (slice s n) table pid + 1) % 256) then failWith .conflict s
    else if table = 0 ∧ ns.any (fun n => elems.any (elemLocked (slice s n))) then failWith .busy s
    else if table = 0 ∧ hung then
      let n := ns.headD 0
      let b := hungBucket (slice s n) (elems.headD ⟨0, []⟩)
      .soon (modSlice n (fun sl => { sl with
        locks := { bucket := b, before := sl.dest.filter (fun e => bucketOf sl e.1 == b), owner := o, since := nowRef s } ::
          sl.locks }) s)
    else
      match writeSlices table g elems ns (startWork 4 2 (elems.length * entryCost table) s) with
      | some t => okWith t
      | none => failWith .resource s) s)

/-! ## TABLE.READ, PURGE, PARAMS, ROOT_PRIORITY -/

/-- The words of a destination entry with its parity flag before them. -/
def destWords (sl : Slice) (i : Nat) : List Word :=
  match visibleEntry sl i with
  | none => [0, 0, 0, 0, 0]
  | some e => [w32 (bit (!parityGood sl 0 i)), wordOf [at_ 31 12 e.dest, at_ 11 0 e.pid],
      wordOf [at_ 31 31 1, at_ 30 30 (bit e.isStatic), at_ 29 29 (bit e.hit), at_ 28 28 (bit e.aged), at_ 27 20 e.gen, at_ 11 0 e.poppy],
      w32 (e.mask / 2 ^ 32), w32 e.mask]

/-- The words of a poppy set, LIVE as it stands (06 Table 6.5). -/
def poppyWords (s : State) (sl : Slice) (set : Nat) : List Word :=
  let ms := poppyMembers sl set
  wordOf [at_ 31 25 ms.length] :: (List.range 64).map (fun m =>
    match ms[m]? with
    | some x => wordOf [at_ 31 21 x.port, at_ 20 20 (bit (portLive s x.port)), at_ 15 8 x.weight]
    | none => 0)

/-- The words of a partition entry (06 Table 6.4). -/
def partWords (pe : PartEntry) : List Word :=
  wordOf [at_ 31 31 (bit pe.defined), at_ 30 30 (bit pe.fenced), at_ 29 29 (bit pe.isProtected), at_ 28 28 (bit pe.learn),
    at_ 15 0 pe.epoch] :: natWords 8 pe.ports

/-- The words of an entry of a table. -/
def tableWords (s : State) (sl : Slice) (table i : Nat) : List Word :=
  if table = 0 then destWords sl i
  else if table = 1 then poppyWords s sl i
  else if table = 2 then
    match tabGet? sl.groups i with
    | some g => [g.1, g.2]
    | none => [0, 0]
  else if table = 3 then natWords 64 (tabGet zeroTab sl.bitmaps i)
  else if table = 4 then partWords (partEntry sl i)
  else if table = 5 then [tabGet (fun _ => 0) sl.huskRow i]
  else [tabGet (fun _ => 0) sl.huskSpine i]

/-- TABLE.READ (R522). -/
def execTableRead (o : Origin) (table slice first amount : Nat) (s : State) : Host.Outcome State Fault Refusal :=
  .next (runCommand o 0x0302 (fun s =>
    let sl := Machine.slice s slice
    if 6 < table ∨ 8 ≤ slice ∨ amount = 0 ∨ 256 < amount ∨ tableEntries sl table < first + amount then failWith .invalid s
    else
      .done .ok (countedWords ((List.range amount).map (fun i => tableWords s sl table (first + i))))
        (startWork 4 2 (amount * entryCost table) s)) s)

/-- A static entry of a partition that is behind a generation (R210). -/
def behind (pid g : Nat) (e : DestEntry) : Bool := e.isStatic && e.pid == pid && decide (128 ≤ (e.gen + 256 - g) % 256)

/-- TABLE.PURGE. -/
def execTablePurge (o : Origin) (slices pid g : Nat) (s : State) : Host.Outcome State Fault Refusal :=
  .next (runCommand o 0x0303 (fun s =>
    let ns := maskSlices slices
    let gone (n : Nat) : Tab DestEntry := (slice s n).dest.filter (fun e => behind pid g e.2)
    if !sliceMaskGood slices || decide (4096 ≤ pid) || decide (256 ≤ g) then failWith .invalid s
    else if ns.any (fun n => (gone n).any (fun e => (lockOf (slice s n) (bucketOf (slice s n) e.1)).isSome)) then failWith .busy s
    else
      let total := ((ns.map (fun n => (gone n).length)).sum)
      let s1 := ns.foldl (fun s n => modSlice n (fun sl =>
        (sl.dest.filter (fun e => behind pid g e.2)).foldl (fun sl e => parityRewritten 0 e.1 sl)
          { sl with dest := sl.dest.filter (fun e => !behind pid g e.2) }) s) s
      .done .ok [w32 total] (startWork 4 2 total s1)) s)

/-- The parameters with 0 standing for the default where 0 is outside the range (15 R507). -/
def filledParams (p : RouteParams) : RouteParams :=
  { p with detourHops := if p.detourHops = 0 then 4 else p.detourHops, sweep := if p.sweep = 0 then 1000 else p.sweep }

/-- The ranges of Table 6.2, and R197. -/
def paramsGood (p : RouteParams) : Bool :=
  decide (p.rowShift ≤ 11) && decide (p.rowBase + 2047 / 2 ^ p.rowShift ≤ 4095) && decide (p.spineSet < 4096) &&
    decide (p.detourSet < 4096) && decide (p.detourHops ≤ 14) && decide (10 ≤ p.sweep) && decide (p.sweep ≤ 3600000)

/-- TABLE.PARAMS; a change of DT_MODE clears the destination table (R197, R205). -/
def execTableParams (o : Origin) (slices : Nat) (params : RouteParams) (s : State) : Host.Outcome State Fault Refusal :=
  .next (runCommand o 0x0304 (fun s =>
    let p := filledParams params
    if !sliceMaskGood slices || !paramsGood p then failWith .invalid s
    else okWith ((maskSlices slices).foldl (fun s n => modSlice n (fun sl =>
      if sl.params.cuckoo = p.cuckoo then { sl with params := p }
      else { sl with params := p, dest := [], locks := [], badParity := sl.badParity.filter (fun k => decide (2 ^ 20 ≤ k)),
                     toldParity := sl.toldParity.filter (fun k => decide (2 ^ 20 ≤ k)) }) s) s)) s)

/-- TABLE.ROOT_PRIORITY (06 R222). -/
def execTableRootPriority (o : Origin) (value : Nat) (s : State) : Host.Outcome State Fault Refusal :=
  .next (runCommand o 0x0309 (fun s =>
    if 256 ≤ value then failWith .invalid s else okWith { s with tbl := { s.tbl with rootPriority := value } }) s)

/-! ## Partitions (14 R463 to R466) -/

/-- Change a partition's entry in all slices. -/
def modPartition (pid : Nat) (f : Nat → PartEntry → PartEntry) (s : State) : State :=
  (List.range 8).foldl (fun s n => modSlice n (fun sl =>
    parityRewritten 4 pid { sl with parts := tabMod partReset (f n) sl.parts pid }) s) s

/-- What a fence does beside the entry: the partition's loafs, dispatch contexts, programs and channels end (R464). -/
def endPartitionWork (pid : Nat) (s : State) : State := fenceChannels pid (fenceGrists pid (fenceMill pid (fenceLoafs pid s)))

/-- The ports of slice n in the 64 PORTS words of TABLE.PARTITION, S0 first. -/
def portsOf (ws : List Word) (n : Nat) : Nat := bytesNat (wordsBytes ((ws.drop (8 * n)).take 8))

/-- TABLE.PARTITION as it is applied: FENCED and EPOCH stay, but for a definition or a deletion, which leave FENCED 1; of
PID 0x000 only PORTS change (04 R144; 14 R646). -/
def applyPartition (pid : Nat) (w0 : Word) (ports : List Word) (s : State) : State :=
  let d := fld w0 31 31 == 1
  let was := (partition s pid).defined
  let s1 := startWork 4 2 2 (modPartition pid (fun n e =>
    if pid = 0 then { e with ports := portsOf ports n }
    else { e with
      defined := d, fenced := if d && e.defined then e.fenced else true, isProtected := fld w0 29 29 == 1,
      learn := fld w0 28 28 == 1, ports := portsOf ports n }) s)
  if was && !d && pid != 0 then endPartitionWork pid s1 else s1

/-- TABLE.PARTITION: staged for a quorum (16 R515). -/
def execTablePartition (o : Origin) (pid : Nat) (w0 : Word) (ports : List Word) (s : State) : Host.Outcome State Fault Refusal :=
  .next (runCommand o 0x0305 (fun s =>
    if 0xFFF ≤ pid ∨ ports.length ≠ 64 then failWith .invalid s
    else propose o (.tablePartition pid w0.toNat ports) s) s)

/-- A command on a defined partition other than the fabric's. -/
def onPartition (pid : Nat) (f : State → CmdOutcome) (s : State) : CmdOutcome :=
  if pid = 0 ∨ 0xFFF ≤ pid ∨ !(partition s pid).defined then failWith .invalid s else f s

/-- The FENCE message to a group (R465). -/
def fencePacket (s : State) (pid grp : Nat) : Packet :=
  let ep := (partition s pid).epoch
  let o : Origination := {
    kind := 5, cls := 0, dest := grp, mcast := true, spineDst := false, pid := pid, epoch := ep, entropy := 0, first := true,
    last := true, nospray := false, ext := [wordOf [at_ 31 24 2], 0, 0, wordOf [at_ 31 16 ep]], payload := [] }
  madePacket s o

/-- A multicast group that is valid in slice S0 and belongs to a partition. -/
def groupOf (s : State) (pid grp : Nat) : Bool :=
  match tabGet? (slice s 0).groups grp with
  | some g => fld g.1 31 31 == 1 && fld g.2 31 20 == pid
  | none => false

/-- TABLE.FENCE (R464, R465). -/
def execTableFence (o : Origin) (pid : Nat) (notify : List Nat) (s : State) : Host.Outcome State Fault Refusal :=
  .next (runCommand o 0x0306 (onPartition pid (fun s =>
    if 64 < notify.length ∨ !notify.all (groupOf s pid) then failWith .invalid s
    else
      let s1 := startWork 4 2 2 (modPartition pid (fun _ e => { e with fenced := true }) s)
      okWith (notify.foldl (fun s g => originate controlSource (fencePacket s pid g) s) (endPartitionWork pid s1)))) s)

/-- TABLE.ADVANCE: to an epoch ahead of the current one (R466; 04 R145). -/
def execTableAdvance (o : Origin) (pid epoch : Nat) (s : State) : Host.Outcome State Fault Refusal :=
  .next (runCommand o 0x0307 (onPartition pid (fun s =>
    let pe := partition s pid
    if 65536 ≤ epoch then failWith .invalid s
    else if !pe.fenced then failWith .conflict s
    else if !serialAhead 65536 epoch pe.epoch then failWith .invalid s
    else okWith (startWork 4 2 2 (modPartition pid (fun _ e => { e with epoch := epoch }) s)))) s)

/-- TABLE.OPEN (R466). -/
def execTableOpen (o : Origin) (pid : Nat) (s : State) : Host.Outcome State Fault Refusal :=
  .next (runCommand o 0x0308 (onPartition pid (fun s =>
    if !(partition s pid).fenced then failWith .conflict s
    else okWith (startWork 4 2 2 (modPartition pid (fun _ e => { e with fenced := false }) s)))) s)

end Sys2Proof.Machine
end

