-- ==== Sys2Proof/Machine/Sec.lean ====
section
/-! DEFINITION. Proposals and approvals, keys, debug unlock, attestation (chapter 18; 16 Table 16.11). -/

namespace Sys2Proof.Machine

/-! ## Slots (18 R576 to R578) -/

/-- Slots of each type. -/
def slotCount : Nat := 4096

/-- A link slot without a key. -/
def emptyLink (k : LinkSlot) : LinkSlot := { k with rk := none, inst := 0, tk := none, misses := 0 }

/-- The PID that a slot is bound to. -/
def slotPid (s : State) (region : Bool) (slot : Nat) : Option Nat :=
  if region then (tabGet? s.sec.regionSlots slot).map (·.pid) else (tabGet? s.sec.linkSlots slot).map (·.pid)

/-- The checks of KEY.BIND: none when the slot may be bound, or unbound by PID 0xFFF. -/
def bindCheck (s : State) (region : Bool) (slot target direction pid : Nat) : Option Status :=
  if slotCount ≤ slot ∨ 0xFFF < pid then some .invalid
  else if pid = 0xFFF then none
  else if !(partition s pid).defined || (if region then (Machine.region s target).isNone || direction != 0
      else !portKnown s target || decide (1 < direction)) then some .invalid
  else if (slotPid s region slot).isSome then some .conflict
  else if region then
    if (Machine.region s target).any (fun x => x.pid == pid) then none else some .conflict
  else if s.sec.linkSlots.any (fun k => k.2.port == target && k.2.rx == decide (direction = 1) && k.2.pid == pid) then some .conflict
  else none

/-- The region of a slot names the slot, or no longer names it. -/
def nameSlot (r old new : Nat) (s : State) : State :=
  modRegion r (fun x => if x.keySlot = old ∨ new ≠ 0 then { x with keySlot := new } else x) s

/-- Bind or unbind a slot; unbinding zeroizes it. -/
def applyBind (region : Bool) (slot target direction pid : Nat) (s : State) : State :=
  if region then
    if pid = 0xFFF then
      let s1 := modSec (fun x => { x with regionSlots := tabDel x.regionSlots slot }) s
      match tabGet? s.sec.regionSlots slot with
      | some k => nameSlot k.region slot 0 s1
      | none => s1
    else
      nameSlot target slot slot (modSec (fun x => { x with
        regionSlots := tabPut x.regionSlots slot { region := target, pid := pid, xk := none } }) s)
  else if pid = 0xFFF then modSec (fun x => { x with linkSlots := tabDel x.linkSlots slot }) s
  else
    let k : LinkSlot :=
      { port := target, rx := decide (direction = 1), pid := pid, rk := none, inst := 0, tk := none, misses := 0 }
    modSec (fun x => { x with linkSlots := tabPut x.linkSlots slot k }) s

/-- KEY.BIND: a quorum proposal (16 R515). -/
def execKeyBind (o : Origin) (region : Bool) (slot target direction pid : Nat) (s : State) : Host.Outcome State Fault Refusal :=
  .next (runCommand o 0x0F03 (fun s =>
    match bindCheck s region slot target direction pid with
    | some st => failWith st s
    | none => propose o (.keyBind region slot target direction pid) s) s)

/-- Clear the key of a slot. -/
def zeroizeSlot (region : Bool) (slot : Nat) (s : State) : State :=
  modSec (fun x =>
    if region then { x with regionSlots := tabMap (fun n k => if n = slot then { k with xk := none } else k) x.regionSlots }
    else { x with linkSlots := tabMap (fun n k => if n = slot then emptyLink k else k) x.linkSlots }) s

/-- KEY.ZEROIZE: by an operator any slot, by a tenant those of its PID (18 R578). -/
def execKeyZeroize (o : Origin) (region : Bool) (slot : Nat) (s : State) : Host.Outcome State Fault Refusal :=
  .next (runCommand o 0x0F04 (fun s =>
    if slotCount ≤ slot then failWith .invalid s
    else if isTenant o && ((slotPid s region slot).isNone || slotPid s region slot != callerPid o s) then failWith .denied s
    else okWith (zeroizeSlot region slot s)) s)

/-! ## Sessions and loading (18 R575, R577) -/

/-- The ASCII bytes of HKDF's info in R575. -/
def sessionInfo (pid : Nat) : List Byte :=
  [0x49#8, 0x58#8, 0x41#8, 0x55#8, 0x58#8, 0x20#8, 0x4B#8, 0x45#8, 0x59#8, 0x20#8, 0x53#8, 0x45#8, 0x53#8, 0x53#8, 0x49#8,
    0x4F#8, 0x4E#8] ++ natBytes 2 pid

/-- The draws of a key session: the private key, the device's nonce, and the state after them. -/
def sessionDraws (s : State) : Nat × Nat × State :=
  let (priv, s1) := drawWide 9 s
  let (nd, s2) := drawNonce s1
  (priv, nd, s2)

/-- The response to KEY.SESSION: the session, the device's public key and nonce, and its signature over both sides (R575). -/
def sessionAnswer (pub : List Byte) (nonce pid : Nat) (s : State) : List Word :=
  let x := sessionDraws s
  let dev := natBytes 133 (Config.ecPublic x.1)
  let msg := pub ++ natBytes 64 nonce ++ dev ++ natBytes 64 x.2.1 ++ natBytes 2 pid ++ natBytes 64 Config.deviceId
  w32 s.sec.nextKeySession :: byteString dev ++ natWords 16 x.2.1 ++ byteString (natBytes 132 (Config.ecdsaSign msg))

/-- The session that KEY.SESSION makes: SK by HKDF over the shared secret (R575). -/
def addSession (pub : List Byte) (nonce pid : Nat) (s : State) : State :=
  let x := sessionDraws s
  let z := natBytes 66 (Config.ecdh x.1 pub)
  let sk := bytesNat (hkdf512 (natBytes 64 nonce ++ natBytes 64 x.2.1) z (sessionInfo pid) 32)
  modSec (fun y => { y with
    sessions := tabPut y.sessions y.nextKeySession { pid := pid, sk := sk, counter := none },
    nextKeySession := y.nextKeySession + 1 }) x.2.2

/-- KEY.SESSION: an ephemeral key pair and a nonce from the entropy source, SK by HKDF, a signed answer (R575). -/
def execKeySession (o : Origin) (pub : List Byte) (nonce : Nat) (s : State) : Host.Outcome State Fault Refusal :=
  .next (runCommand o 0x0F01 (fun s =>
    let pid := (callerPid o s).getD 0
    if s.sec.unlocked ≠ 0 then failWith .notReady s
    else if pub.length ≠ 133 ∨ 2 ^ 512 ≤ nonce ∨ !Config.ecValid pub then failWith .invalid s
    else if 64 ≤ s.sec.sessions.length then failWith .resource s
    else .done .ok (sessionAnswer pub nonce pid s) (addSession pub nonce pid s)) s)

/-- 600 s have passed since a session was made (Table 18.3). -/
def execSessionKeyExpiry (session : Nat) (s : State) : Host.Outcome State Fault Refusal :=
  .next (modSec (fun x => { x with sessions := tabDel x.sessions session }) s)

/-- Bytes of a wrapped key. -/
def keyBytes (region : Bool) : Nat := if region then 64 else 32

/-- A slot holds a key. -/
def slotLoaded (s : State) (region : Bool) (slot : Nat) : Bool :=
  if region then (tabGet? s.sec.regionSlots slot).any (fun k => k.xk.isSome) else (tabGet? s.sec.linkSlots slot).any (fun k => k.rk.isSome)

/-- The additional authenticated data of a load. -/
def loadAad (region : Bool) (slot pid counter : Nat) : List Byte :=
  natBytes 1 (bit region) ++ natBytes 2 slot ++ natBytes 2 pid ++ natBytes 4 counter

/-- The tests of R577 in order: none when the key is loaded. -/
def loadCheck (s : State) (x : KeySession) (region : Bool) (slot counter : Nat) (wrapped : List Byte) : Option Status :=
  let n := keyBytes region
  match slotPid s region slot with
  | none => some .conflict
  | some pid =>
    if pid ≠ x.pid then some .denied
    else if region && slotLoaded s region slot then some .conflict
    else if x.counter.any (fun c => decide (counter ≤ c)) then some .conflict
    else if Config.gcmTag x.sk counter (loadAad region slot pid counter) (wrapped.take n) ≠ wrapped.drop n then some .invalid
    else if s.sec.unlocked ≠ 0 then some .notReady
    else none

/-- Put a key in a slot. -/
def loadKey (region : Bool) (slot key : Nat) (s : State) : State :=
  let link (n : Nat) (k : LinkSlot) : LinkSlot := if n = slot then { k with rk := some key, inst := 0, misses := 0 } else k
  modSec (fun x =>
    if region then { x with regionSlots := tabMap (fun n k => if n = slot then { k with xk := some key } else k) x.regionSlots }
    else { x with linkSlots := tabMap link x.linkSlots }) s

/-- KEY.LOAD: the key unwrapped under the session key; a link key counts from its port's next exit from DOWN (R577). -/
def execKeyLoad (o : Origin) (session : Nat) (region : Bool) (slot counter : Nat) (wrapped : List Byte) (s : State) : Host.Outcome State Fault Refusal :=
  .next (runCommand o 0x0F02 (fun s =>
    if slotCount ≤ slot ∨ 2 ^ 32 ≤ counter ∨ wrapped.length ≠ keyBytes region + 16 then failWith .invalid s
    else
      match tabGet? s.sec.sessions session with
      | none => failWith .invalid s
      | some x =>
        if callerPid o s ≠ some x.pid then failWith .denied s
        else
          match loadCheck s x region slot counter wrapped with
          | some st => failWith st s
          | none =>
            let key := bytesNat (Config.gcmCipher x.sk counter (wrapped.take (keyBytes region)))
            okWith (loadKey region slot key (modSec (fun y => { y with
              sessions := tabPut y.sessions session { x with counter := some counter } }) s))) s)

/-! ## Locked debug (18 R588, R589) -/

/-- An unlock takes effect: every key and session is zeroized, the event goes out, the scope opens. -/
def applyUnlock (scope duration : Nat) (s : State) : State :=
  let owners := (List.range 32).filterMap (fun i => ((mailbox s (32 + i)).pid).bind (ownerMailbox s))
  modSec (fun x => { x with unlocked := scope })
    (raiseAt ([15, 31] ++ owners) 0x0903 0 [scope, duration] (modSec (fun x => { x with
      sessions := [], linkSlots := tabMap (fun _ k => emptyLink k) x.linkSlots,
      regionSlots := tabMap (fun _ k => { k with xk := none }) x.regionSlots }) s))

/-- The duration of the unlock in effect has ended: the lock returns. -/
def execDebugLockReturn (s : State) : Host.Outcome State Fault Refusal := .next (modSec (fun x => { x with unlocked := 0 }) s)

/-! ## Two-party change (18 R584 to R587) -/

/-- The staged body executed as a new command of its issuer: its checks against the present state, and its effect (R586). -/
def applyStaged (o : Origin) (b : Staged) (s : State) : Status × State :=
  match b with
  | .tablePartition pid w0 ports => (.ok, applyPartition pid (w32 w0) ports s)
  | .keyBind region slot target direction pid =>
    match bindCheck s region slot target direction pid with
    | some st => (st, s)
    | none => (.ok, applyBind region slot target direction pid s)
  | .debugUnlock scope duration => (.ok, applyUnlock scope duration s)
  | .fwUpdate length digest =>
    match updateCheck s length digest with
    | some st => (st, s)
    | none => (.ok, writeImage (stagedImage length digest) none s)
  | .granarySet r rec0 =>
    match region s r with
    | none => (.invalid, s)
    | some x =>
      if !mayReach o x.pid s then (.denied, s)
      else if rightsConflict s r x rec0 then (.conflict, s) else (.ok, setRights r rec0 s)
  | .winnowPolicy pid policy =>
    match policyCheck s pid policy with
    | some st => (st, s)
    | none => (.ok, setPolicy pid policy s)

/-- What an approver signs (R585). -/
def approvalBytes (id : Nat) (p : Proposal) (approve : Bool) : List Byte :=
  natBytes 64 Config.deviceId ++ natBytes 4 id ++ natBytes 64 p.nonce ++ natBytes 64 p.bodyDigest ++ natBytes 1 (bit approve)

/-- The side of an approver has been recorded. -/
def sideRecorded (o : Origin) (p : Proposal) : Bool := if o.cls = .operatorSecurity then p.opApproved else p.pgApproved

/-- Record the approval of a side. -/
def recordSide (o : Origin) (id : Nat) (s : State) : State :=
  let side (n : Nat) (p : Proposal) : Proposal :=
    if n ≠ id then p else if o.cls = .operatorSecurity then { p with opApproved := true } else { p with pgApproved := true }
  modSec (fun x => { x with proposals := tabMap side x.proposals }) s

/-- Both sides have approved: the body is executed and the proposal ends APPLIED or FAILED. -/
def completeProposal (id : Nat) (p : Proposal) (s : State) : State :=
  let (st, t) := if stagedDigest p.staged = p.bodyDigest then applyStaged p.origin p.staged s else (.internal, s)
  endProposal id (if st = .ok then .applied else .failed) (statusCode st) t

/-- QUORUM.APPROVE, in the order of the table of R585; at its expiry or later a proposal is EXPIRED (R587). -/
def execQuorumApprove (o : Origin) (proposal : Nat) (approve : Bool) (signature : Nat) (s : State) : Host.Outcome State Fault Refusal :=
  .next (runCommand o 0x0E02 (fun s =>
    match tabGet? s.sec.proposals proposal with
    | none => failWith .conflict s
    | some p =>
      if p.state ≠ .pending ∨ sideRecorded o p then failWith .conflict s
      else if p.expiry ≤ nowRef s then .fails .conflict (endProposal proposal .expired 0 s)
      else if !Config.ecdsaVerify o.cert (approvalBytes proposal p approve) signature then failWith .invalid s
      else if !approve then okWith (endProposal proposal .rejected 0 s)
      else
        let s1 := recordSide o proposal s
        if p.opApproved || p.pgApproved then okWith (completeProposal proposal p s1)
        else .done .quorumPending [] s1) s)

/-- 600 s have passed since a proposal was accepted (R587). -/
def execProposalExpiry (proposal : Nat) (s : State) : Host.Outcome State Fault Refusal :=
  .next (match tabGet? s.sec.proposals proposal with
  | some p => if p.state = .pending then endProposal proposal .expired 0 s else s
  | none => s)

/-- Who may withdraw a proposal: its issuer's mailbox, and either security class (16 R530). -/
def mayWithdraw (o : Origin) (p : Proposal) : Bool :=
  o.mailbox == p.origin.mailbox || o.cls == .operatorSecurity || o.cls == .programmeSecurity

/-- QUORUM.WITHDRAW. -/
def execQuorumWithdraw (o : Origin) (proposal : Nat) (s : State) : Host.Outcome State Fault Refusal :=
  .next (runCommand o 0x0E03 (fun s =>
    match tabGet? s.sec.proposals proposal with
    | none => failWith .conflict s
    | some p =>
      if !mayWithdraw o p then failWith .denied s
      else if p.state ≠ .pending then failWith .conflict s
      else okWith (endProposal proposal .withdrawn 0 s)) s)

/-- QUORUM.LIST: a tenant sees the proposals of its PID (18 R584). -/
def execQuorumList (o : Origin) (s : State) : Host.Outcome State Fault Refusal :=
  .next (runCommand o 0x0E01 (fun s =>
    .done .ok (countedWords ((s.sec.proposals.filter (fun p => mayReach o p.2.pid s)).map (fun p => proposalWords p.1 p.2))) s) s)

/-! ## Attestation (18 R570 to R573) -/

/-- The code of a class, as FW.CAPS numbers the classes (15 R508). -/
def classCode (c : CredClass) : Nat := classBit c

/-- Put an entry in order of its fingerprint. -/
def insertCred (e : CredClass × Nat) : List (CredClass × Nat) → List (CredClass × Nat)
  | [] => [e]
  | x :: xs => if e.2 ≤ x.2 then e :: x :: xs else x :: insertCred e xs

/-- CONFIG_MEASUREMENT (Table 18.1). -/
def configMeasurement (s : State) : Nat :=
  bytesNat (sha512 (natBytes 64 Config.ownerRoot ++
    ((credentials s).foldr insertCred []).flatMap (fun e => natBytes 1 (classCode e.1) ++ natBytes 64 e.2) ++
    natBytes 2 ((ownSid s).getD 0xFFFF) ++ natBytes 1 (bit (s.sec.unlocked != 0))))

/-- PARTITION_MEASUREMENT (Table 18.1). -/
def partitionMeasurement (s : State) (pid : Nat) : Nat :=
  bytesNat (sha512 (natBytes 2 pid ++
    (List.range 8).flatMap (fun n => wordsBytes (partWords { partEntry (slice s n) pid with fenced := false, epoch := 0 })) ++
    wordsBytes (policyWords pid (policy s pid)) ++
    (s.sec.linkSlots.filter (fun k => k.2.pid == pid)).flatMap (fun k =>
      natBytes 2 k.1 ++ natBytes 2 k.2.port ++ natBytes 1 (bit k.2.rx)) ++
    (s.sec.regionSlots.filter (fun k => k.2.pid == pid)).flatMap (fun k => natBytes 2 k.1 ++ natBytes 2 k.2.region)))

/-- Bytes 0 to 347 of a report (Table 18.2). -/
def reportBytes (s : State) (pid nonce : Nat) : List Byte :=
  let flags := at_ 7 7 (bit (s.start.phase == .recovery)) + at_ 6 6 (bit (s.sec.unlocked != 0)) + at_ 5 5 (bit (ownSid s).isSome)
  natBytes 1 1 ++ natBytes 1 flags ++ natBytes 2 1 ++ natBytes 2 ((ownSid s).getD 0) ++ natBytes 2 pid ++
    natBytes 4 s.start.cfg.starts ++ natBytes 12 (now96 s) ++ natBytes 64 nonce ++ natBytes 64 Config.deviceId ++
    natBytes 64 (runningMeasurement s) ++ natBytes 64 (configMeasurement s) ++
    natBytes 64 (if pid = 0 then 0 else partitionMeasurement s pid) ++
    natBytes 2 (s.sec.linkSlots.filter (fun k => k.2.pid == pid && k.2.rk.isSome)).length ++
    natBytes 2 (s.sec.regionSlots.filter (fun k => k.2.pid == pid && k.2.xk.isSome)).length

/-- ATTEST.REPORT: of the mailbox's PID for a tenant, of PID 0x000 for every other class. -/
def execAttestReport (o : Origin) (nonce : Nat) (s : State) : Host.Outcome State Fault Refusal :=
  .next (runCommand o 0x1001 (fun s =>
    let r := reportBytes s ((callerPid o s).getD 0) nonce
    .done .ok (bytesWords (r ++ natBytes 132 (Config.ecdsaSign r))) s) s)

/-- ATTEST.CHAIN: the three certificates as a list of byte strings. -/
def execAttestChain (o : Origin) (s : State) : Host.Outcome State Fault Refusal :=
  .next (runCommand o 0x1002 (fun s =>
    .done .ok (countedWords ((List.range 3).map (fun i => byteString (Config.certificate i)))) s) s)

end Sys2Proof.Machine
end

