-- ==== Sys2Proof/Machine/Tele.lean ====
section
/-! DEFINITION. Counters, snapshots, crumb records, samples and what CRUMB.READ shows (chapter 19); the end of the two
holdoffs. -/

namespace Sys2Proof.Machine

/-! ## Holdoffs -/

/-- The 10 ms after a NEIGHBOUR_CHANGE end: a GENERATION changed meanwhile is told, and the next 10 ms begin (14 R455). -/
def execNeighbourChangeHoldoffEnd (s : State) : Host.Outcome State Fault Refusal :=
  .next (if !s.fab.holdoff then s
  else if s.fab.generation = s.fab.told then { s with fab := { s.fab with holdoff := false } }
  else raise31 0x0206 [s.fab.generation] { s with fab := { s.fab with told := s.fab.generation } })

/-- SAMPLES_WRITTEN and CRUMBS_WRITTEN. -/
def samplesWritten (s : State) : Nat := counter s (counterId 0 3 2)
def crumbsWritten (s : State) : Nat := counter s (counterId 0 3 0)

/-- Raise SAMPLE_READY, or leave it to the end of the holdoff (R605). -/
def tellSamples (s : State) : State :=
  if s.tele.sampleHoldoff then modTele (fun t => { t with sampleNew := true }) s
  else raise15 0x0A02 [samplesWritten s / 2 ^ 32, samplesWritten s % 2 ^ 32]
    (modTele (fun t => { t with sampleNew := false, sampleHoldoff := true }) s)

/-- The 1 ms after a SAMPLE_READY end (R605). -/
def execSampleReadyHoldoffEnd (s : State) : Host.Outcome State Fault Refusal :=
  .next (if !s.tele.sampleHoldoff then s
  else
    let s1 := modTele (fun t => { t with sampleHoldoff := false }) s
    if s.tele.sampleNew then tellSamples s1 else s1)

/-! ## Crumb and sample records -/

/-- A crumb trace record (Table 19.3). -/
def crumbWords (c : CrumbRec) (lost : Bool) (seq : Nat) : List Word :=
  [wordOf [at_ 31 16 c.code, at_ 15 8 c.island, at_ 7 0 c.block],
    wordOf [at_ 31 20 c.pid, at_ 19 19 (bit lost), at_ 18 18 (bit c.mandatory)], w32 seq] ++ natWords 3 c.time ++
    [w32 c.arg0, w32 c.arg1]

/-- A crumb goes to its place in the ring of the firmware region (R603). -/
def putCrumb (c : CrumbRec) (s : State) : State :=
  writeBytes 0xFFFF (32 * (crumbsWritten s % 2 ^ 26)) (wordsBytes (crumbWords c s.tele.crumbLost (crumbsWritten s)))
    (startWork 5 0 64 s)

/-- DMA channel 3 writes the oldest queued record, when its share allows (R601, R603). -/
def execCrumbWrite (s : State) : Host.Outcome State Fault Refusal :=
  .next (match s.tele.crumbQueue with
  | [] => s
  | c :: rest =>
    if !mayStart s 5 0 then s
    else
      countControl 0 (modTele (fun t => { t with crumbQueue := rest, crumbLost := false }) (putCrumb c s)))

/-- The 256 bytes of a sample slot (R605). -/
def sampleSlot (r : List Word × List Byte) (n : Nat) : List Byte :=
  ((wordsBytes r.1 ++ r.2 ++ List.replicate 248 0).take 248) ++ natBytes 8 n

/-- A sample goes to its place in the ring of the firmware region (R605). -/
def putSample (r : List Word × List Byte) (s : State) : State :=
  writeBytes 0xFFFF (0x80000000 + 256 * (samplesWritten s % 2 ^ 22)) (sampleSlot r (samplesWritten s)) (startWork 5 0 256 s)

/-- The oldest sample record is written, or discarded when the crumb-write allowance is spent (R605). -/
def execSampleWrite (s : State) : Host.Outcome State Fault Refusal :=
  .next (match s.tele.sampleQueue with
  | [] => s
  | r :: rest =>
    let s1 := modTele (fun t => { t with sampleQueue := rest }) s
    if !mayStart s1 5 0 then countControl 3 s1
    else tellSamples (countControl 2 (putSample r s1)))

/-! ## Counters (R593, R594, R597) -/

/-- The drop codes of 04 Table 4.12. -/
def dropCodes : List Nat :=
  [0x01, 0x02, 0x03, 0x04, 0x05, 0x06, 0x07, 0x08, 0x09, 0x0A, 0x0B, 0x0C, 0x0D, 0x0E, 0x10, 0x11, 0x12, 0x18, 0x19, 0x1A,
    0x20, 0x21, 0x22]

def idIsland (id : Nat) : Nat := id / 2 ^ 24
def idBlock (id : Nat) : Nat := id / 2 ^ 16 % 256
def idIndex (id : Nat) : Nat := id % 2 ^ 16

/-- INDEX lies within groups of a size, an item below a bound, and below a limit. -/
def indexIn (limit size items x : Nat) : Bool := decide (x < limit) && decide (x % size < items)

/-- Table 19.1 by kind of island: the control and crossbar islands. -/
def controlCounter (i b x : Nat) : Bool :=
  if i = 0 then
    (b == 1 && indexIn 1024 16 7 x) || (b == 2 && indexIn 128 16 5 x) || (b == 3 && decide (x < 12)) || (b == 4 && decide (x < 128))
  else (b == 1 && decide (x < 3)) || (b == 2 && indexIn 160 4 3 x)

/-- Slices and clusters. -/
def switchCounter (i b x : Nat) : Bool :=
  if i < 0x10 then
    (b == 1 && decide (x < 16384) && dropCodes.contains (x % 64)) ||
      (b == 2 && decide (x < 16384) && decide (x % 8 < if x / 8 % 8 = 0 then 8 else 5)) || (b == 3 && decide (x < 16)) ||
      (b == 4 && decide (x < 4096)) || (b == 5 && decide (x < 128))
  else (b == 1 && indexIn 1024 16 10 x) || (b == 2 && indexIn 2048 32 14 x)

/-- Knead groups, the Mill, Granary controllers, optical dies. -/
def engineCounter (i b x : Nat) : Bool :=
  if i < 0x38 then (b == 1 && indexIn 256 32 16 x) || (b == 2 && decide (x < 3))
  else if i < 0x40 then
    (b == 1 && decide (x < 14)) || (b == 2 && decide (x < 3)) || (decide (0x80 ≤ b) && decide (x % 4 < 2))
  else if i < 0x50 then (b == 1 && decide (x < 8)) || (b == 2 && indexIn 32 16 6 x)
  else (b == 1 && indexIn 2048 8 3 x) || (b == 2 && indexIn 256 8 3 x) || (b == 3 && decide (x < 3))

/-- A counter ID that Table 19.1 defines. -/
def counterDefined (id : Nat) : Bool :=
  let i := idIsland id
  let b := idBlock id
  let x := idIndex id
  islandKnown i && ((b == 0 && decide (x < 4)) ||
    (if i ≤ 1 then controlCounter i b x else if i < 0x30 then switchCounter i b x else engineCounter i b x))

/-- A counter that a tenant of a partition may read (R597). -/
def tenantCounter (s : State) (pid id : Nat) : Bool :=
  let i := idIsland id
  let b := idBlock id
  let x := idIndex id
  let filter1 := (tabGet? s.tele.filters (x / 2)).any (fun f => f.pidMatch && f.pid == pid)
  if i = 0 then b == 4 && filter1
  else if 8 ≤ i ∧ i < 0x10 then b == 5 && filter1
  else if i = 0x38 then decide (0x80 ≤ b) && (tabGet? s.mill.contexts (b - 0x80)).any (fun c => c.record.pid == pid)
  else decide (0x40 ≤ i) && decide (i < 0x50) && b == 2 && (channel s (2 * (i - 0x40) + x / 16)).cfg.pid == pid

/-- The check of a list of counter IDs: INVALID, DENIED, or none. -/
def counterCheck (o : Origin) (ids : List Nat) (s : State) : Option Status :=
  if ids.isEmpty ∨ 4096 < ids.length ∨ ids.any (fun i => !counterDefined i) then some .invalid
  else
    match callerPid o s with
    | none => none
    | some pid => if ids.all (tenantCounter s pid) then none else some .denied

/-- The values of counters, two words each. -/
def counterValues (s : State) (ids : List Nat) : List Word := ids.flatMap (fun i => words64 (counter s i))

/-- COUNTER.READ. -/
def execCounterRead (o : Origin) (ids : List Nat) (s : State) : Host.Outcome State Fault Refusal :=
  .next (runCommand o 0x0B01 (fun s =>
    match counterCheck o ids s with
    | some st => failWith st s
    | none => .done .ok (t96Words s.clk.dev ++ counterValues s ids) s) s)

/-- COUNTER.SNAPSHOT: T is 20 µs on (R599). -/
def execCounterSnapshot (o : Origin) (ids : List Nat) (s : State) : Host.Outcome State Fault Refusal :=
  .next (runCommand o 0x0B02 (fun s =>
    match counterCheck o ids s with
    | some st => failWith st s
    | none => .soon (modTele (fun t => { t with
        snapshots := t.snapshots ++ [⟨o, t96Of (s.clk.dev + 20000 * 65536), ids⟩] }) s)) s)

/-- The islands of a snapshot reach T: its values go out with T. -/
def execSnapshotLatch (mailbox seq : Nat) (s : State) : Host.Outcome State Fault Refusal :=
  .next (match s.tele.snapshots.find? (fun x => x.origin.mailbox == mailbox && x.origin.seq == seq) with
  | none => s
  | some x =>
    finish x.origin .ok (natWords 3 x.at96 ++ counterValues s x.ids)
      (modTele (fun t => { t with snapshots := t.snapshots.filter (fun y => !(y.origin == x.origin)) }) s))

/-- The counters of a filter, at every point. -/
def filterCounters (f : Nat) : List Nat :=
  ((List.range 8).map (fun n => counterId (8 + n) 5 (2 * f)) ++ [counterId 0 4 (2 * f)]).flatMap (fun i => [i, i + 1])

/-- COUNTER.FILTER: the filter is set and its two counters start at 0 (R598). -/
def execCounterFilter (o : Origin) (rec0 : FilterRec) (s : State) : Host.Outcome State Fault Refusal :=
  .next (runCommand o 0x0B03 (fun s =>
    if 64 ≤ rec0.filter ∨ 4 ≤ rec0.point then failWith .invalid s
    else okWith (modTele (fun t => { t with
      filters := tabPut t.filters rec0.filter rec0,
      counters := (filterCounters rec0.filter).foldl tabDel t.counters }) s)) s)

/-! ## CRUMB (R582, R604) -/

/-- A partition is protected, as its entry stands. -/
def hidden (s : State) (pid : Nat) : Bool := (partition s pid).isProtected

/-- Ranges of the crumb records of a span whose ARG words are withheld: bytes 24 to 31 of a record (R604). -/
def hiddenCrumbs (s : State) (o n : Nat) : List (Nat × Nat) :=
  let hi := Nat.min (o + n) 0x80000000
  ((List.range ((hi + 31) / 32 - o / 32)).map (o / 32 + ·)).filterMap (fun i =>
    if hidden s (bytesNat (readBytes s 0xFFFF (32 * i + 4) 4) / 2 ^ 20) then some (32 * i + 24, 32 * i + 32) else none)

/-- Ranges of a dump slot's sections that are withheld, as its directory gives them (R582). -/
def hiddenSections (s : State) (slot : Nat) : List (Nat × Nat) :=
  let base := 0xC0000000 + slot * 2 ^ 26
  let word (a : Nat) : Nat := bytesNat (readBytes s 0xFFFF (base + a) 4)
  (List.range (word 0 % 65536)).filterMap (fun i =>
    if hidden s (word (64 + 16 * i) % 4096) then
      some (base + word (68 + 16 * i), base + word (68 + 16 * i) + word (72 + 16 * i))
    else none)

/-- Bytes of the crumb region as CRUMB.READ returns them. -/
def crumbBytes (s : State) (o n : Nat) : List Byte :=
  let slots := (List.range 16).filter (fun k =>
    decide (o < 0xC0000000 + (k + 1) * 2 ^ 26) && decide (0xC0000000 + k * 2 ^ 26 < o + n))
  let hide := (if o < 0x80000000 then hiddenCrumbs s o n else []) ++ slots.flatMap (hiddenSections s)
  ((readBytes s 0xFFFF o n).zipIdx).map (fun x =>
    if hide.any (fun r => decide (r.1 ≤ o + x.2) && decide (o + x.2 < r.2)) then 0 else x.1)

/-- The recovery log: the last-reset record, then the records of the boot ROM and the loader (17 R545). A record's SEQ is
its place among them. -/
def recoveryBytes (s : State) : List Byte :=
  let head : List Word := match s.start.cfg.lastReset with
    | none => List.replicate 8 0
    | some r => crumbWords ⟨0x0002, 0, 0, 0, true, Config.lastResetTime r.dumpSeq, r.level, r.trigger⟩ false 0
  wordsBytes (head ++ (s.start.recoveryLog.zipIdx).flatMap (fun x => crumbWords x.1 false x.2))

/-- n bytes of the recovery log from o; beyond the records it reads as 0. -/
def recoverySpan (s : State) (o n : Nat) : List Byte :=
  let l := (recoveryBytes s).drop o
  (l ++ List.replicate (n - l.length) 0).take n

/-- CRUMB.READ reads the recovery log: in recovery mode, and in the hold of L5 when no stack was trained (R545, R560). -/
def readsRecoveryLog (s : State) : Bool := s.start.phase == .recovery || !s.start.stacksTrained

/-- CRUMB.READ. -/
def execCrumbRead (o : Origin) (offset length : Nat) (s : State) : Host.Outcome State Fault Refusal :=
  .next (runCommand o 0x0C01 (fun s =>
    if length = 0 ∨ 1048572 < length then failWith .invalid s
    else if readsRecoveryLog s then
      if 1048576 < offset + length then failWith .invalid s else .done .ok (byteString (recoverySpan s offset length)) s
    else if 2 ^ 32 < offset + length then failWith .invalid s
    else if rangePoisoned s 0xFFFF offset length then failWith .internal s
    else .done .ok (byteString (crumbBytes s offset length))
      (if s.start.phase = .running then startWork 4 0 length s else s)) s)

/-- CRUMB.DUMP: a dump of LEVEL 0, its offset and length (17 R561). -/
def execCrumbDump (o : Origin) (s : State) : Host.Outcome State Fault Refusal :=
  .next (runCommand o 0x0C02 (fun s =>
    .done .ok (words64 (dumpOffset s.tele.dumpSeq) ++ [w32 (4 * (dumpWords false 0 0x000D 0 [] s).length)])
      (writeDump false 0 0x000D 0 [] s)) s)

/-- CRUMB.TRACE (R602). -/
def execCrumbTrace (o : Origin) (categories : Nat) (pidMatch : Bool) (pid : Nat) (s : State) : Host.Outcome State Fault Refusal :=
  .next (runCommand o 0x0C03 (fun s =>
    okWith (modTele (fun t => { t with
      traceCategories := categories % 2 ^ 32, tracePid := if pidMatch then some (pid % 4096) else none }) s)) s)

end Sys2Proof.Machine
end

