-- ==== Sys2Proof/Machine/Time.lean ====
section
/-! DEFINITION. Fabric time: the exchange, samples, steps, ties, pulse per second, the TIME commands (chapter 13; 16
Table 16.10). -/

namespace Sys2Proof.Machine

/-- The device time of a T96 as a number. -/
def devOf96 (n : Nat) : Nat := (n / 2 ^ 48 * 1000000000 + n / 2 ^ 16 % 2 ^ 32) * 65536 + n % 65536

/-- The T96 in three words of a payload. -/
def t96At (k : Packet) (i : Nat) : Nat := bytesNat ((k.payload.drop (4 * i)).take 12)

/-- Insert in ascending order. -/
def insertInt (x : Int) : List Int → List Int
  | [] => [x]
  | y :: ys => if x ≤ y then x :: y :: ys else y :: insertInt x ys

/-- The median of an even number of samples: the mean of the middle two (Table 13.3). -/
def medianInt (l : List Int) : Int :=
  let q := l.foldr insertInt []
  (q.getD (q.length / 2 - 1) 0 + q.getD (q.length / 2) 0) / 2

/-- P0 to P2 of a TIME message as this spine would send it (Table 13.2). -/
def timeHead (s : State) : List Word :=
  let t := s.time
  [wordOf [at_ 31 28 (timePhaseCode t.phase), at_ 27 27 (bit t.jumpRefused), at_ 26 23 t.hops, at_ 7 0 t.gmPriority],
    wordOf [at_ 31 19 t.gmSid], w32 t.gmSeq]

/-! ## Sending (R431, R432, R440) -/

/-- The TIME message of a port; its departure is stamped when the block leaves. -/
def timePacket (s : State) (p : Nat) : Packet :=
  let pt := port s p
  let echo := match pt.timePeer with
    | some (seq, tx, rx) => wordOf [at_ 31 16 seq, at_ 15 15 1] :: (natWords 3 tx ++ natWords 3 rx)
    | none => List.replicate 7 0
  { w0 := wordOf [at_ 31 28 2, at_ 27 24 9, at_ 15 0 52], w1 := 0, w2 := 0, w3 := 0,
    w4 := wordOf [at_ 31 24 1, at_ 10 0 p], w5 := wordOf [at_ 15 0 pt.timeSeq], w6 := 0, w7 := 0,
    payload := wordsBytes (timeHead s ++ [0, 0, 0] ++ echo), e2e := 0 }

/-- One port's message: on the lowest joined lane, its SEQ remembered. -/
def sendTime (s : State) (p : Nat) : State :=
  let pt := port s p
  if pt.phase = .up ∧ ((pt.peer.map (·.v2)).getD false) then
    let s1 := queueLocal p ((joinedLanes s p).take 1) (timePacket s p) s
    modTime (fun t => { t with
      sentSeqs := tabMod (fun _ => []) (fun l => (pt.timeSeq :: l).take 4) t.sentSeqs p })
      (modPort p (fun x => { x with timeSeq := (x.timeSeq + 1) % 65536 }) s1)
  else s

/-- A message interval: the master's GM_SEQ advances, every port sends. -/
def execTimeMsgTick (s : State) : Host.Outcome State Fault Refusal :=
  .next ((allPorts s).foldl sendTime
    (if s.time.phase = .master then modTime (fun t => { t with gmSeq := (t.gmSeq + 1) % 2 ^ 32 }) s else s))

/-! ## Samples (R433 to R438) -/

/-- THRESH in the units of an offset. -/
def threshUnits (s : State) : Int := (s.time.thresh * 65536 : Nat)

def beyond (x lim : Int) : Bool := decide (lim < x) || decide (x < -lim)

/-- The greatest |ρ| of 100 ppm, in units of 2^-48. -/
def rhoMax : Int := 28147497671

/-- R435: the frequency estimate and ρ after a sample; `tm` in ns. -/
def slew (off : Int) (tm : Nat) (s : State) : State :=
  let fq := s.time.fq + off
  let rho := max (-rhoMax) (min rhoMax (-((fq + 32 * off) * 2 ^ 24 / (tm : Int))))
  { s with time := { s.time with fq := fq, rhos := (rho :: s.time.rhos).take 64 }, clk := { s.clk with rho := rho } }

/-- Device time at a given value, its correction at 0. -/
def setDevice (dev : Nat) (s : State) : State :=
  { s with clk := { s.clk with dev := dev }, time := { s.time with fq := 0, rhos := [] } }

/-- A step of device time: it ends the proof period (R429) and releases every held packet (R438). -/
def jumpTo (dev : Nat) (s : State) : State := releaseHeld (setDevice dev (closePeriod s))

/-- Device time less an offset. -/
def stepTime (off : Int) (s : State) : State := jumpTo ((s.clk.dev : Int) - off).toNat s

/-- An offset in whole ns as a saturating signed word. -/
def offNs (off : Int) : Word := wInt (max (-2147483648) (min 2147483647 (off / 65536)))

/-- A jump is refused: HOLDOVER with JUMP_REFUSED, and one event at each network (R436). -/
def refuseJump (off : Int) (s : State) : State :=
  if s.time.jumpRefused then s
  else
    let gm := ((s.time.parent.bind (tabGet? s.time.peers)).map (·.gmSid)).getD s.time.gmSid
    let s1 := modTime (fun t => { t with jumpRefused := true }) (if s.time.phase = .holdover then s else enterHoldover s)
    raiseBoth 0x0401 [(offNs off).toNat, s.time.parent.getD 0xFFFF, gm] s1

/-- The GM that a follower copies from its parent (R440). -/
def copyGm (s : State) : State :=
  match s.time.phase, s.time.parent.bind (tabGet? s.time.peers) with
  | .locked, some c => modTime (fun t => { t with
      gmPriority := c.gmPriority, gmSid := c.gmSid, gmSeq := c.gmSeq, hops := c.hops + 1 }) s
  | _, _ => s

/-- Enter LOCKED: the refusal ends; a TIME.ACCEPT_STEP that waits finds none pending (R448). -/
def enterLocked (s : State) : State :=
  let s1 := copyGm (setTimePhase .locked (modTime (fun t => { t with jumpRefused := false, samples := [] }) s))
  match s1.time.accept with
  | some a => finish a.origin .invalid [] (modTime (fun t => { t with accept := none }) s1)
  | none => s1

/-- A valid sample for TIME.ACCEPT_STEP; with the fourth the step is made or refused (R437). -/
def acceptSample (a : AcceptStep) (off : Int) (s : State) : State :=
  let l := a.samples ++ [off]
  if l.length < 4 then modTime (fun t => { t with accept := some { a with samples := l } }) s
  else
    let m := medianInt l
    let s1 := modTime (fun t => { t with accept := none }) s
    if beyond m ((a.limit * 65536 : Nat) : Int) then finish a.origin .conflict [] s1
    else finish a.origin .ok [] (enterLocked (stepTime m s1))

/-- A valid sample from the parent, by state (Table 13.3). -/
def takeSample (off : Int) (s0 : State) : State :=
  let first := s0.time.firstSample
  let s := modTime (fun t => { t with lastOff := off, firstSample := false }) s0
  let far := beyond off (threshUnits s)
  match s.time.phase with
  | .acquiring =>
    let l := s.time.samples ++ [off]
    if l.length < 4 then modTime (fun t => { t with samples := l }) s
    else enterLocked (stepTime (medianInt l) s)
  | .locked => if far then refuseJump off s else copyGm (slew off 250000 s)
  | .holdover =>
    if first then (if far then refuseJump off s else enterLocked s)
    else match s.time.accept with
      | some a => if s.time.jumpRefused then acceptSample a off s else s
      | none => s
  | _ => s

/-- The sample of a TIME message that arrives at a device time; none when it must be discarded (R433). -/
def sampleOf (s : State) (p : Nat) (k : Packet) (arrival : Nat) : Option Int :=
  let t1 : Int := devOf96 (t96At k 7)
  let t2 : Int := devOf96 (t96At k 10)
  let t3 : Int := devOf96 (t96At k 3)
  let t4 : Int := arrival
  let d2 := (t2 - t1) + (t4 - t3)
  let valid := fld (payloadWord k 6) 15 15 == 1 &&
    (tabGet (fun _ => []) s.time.sentSeqs p).contains (fld (payloadWord k 6) 31 16)
  if valid && decide (0 ≤ d2 / 2) && decide (d2 / 2 ≤ 11000 * 65536) then
    some (((t4 - t3) - (t2 - t1) - (port s p).asym * 65536) / 2)
  else none

/-- The peer's entry that a TIME message gives; GM_SEQ that stands still keeps the time of its latest advance (R439). -/
def peerOf (s : State) (p : Nat) (k : Packet) : TimePeer :=
  let old := tabGet? s.time.peers p
  let q := (payloadWord k 2).toNat
  let sid := fld (payloadWord k 1) 31 19
  let moved := match old with
    | some x => x.gmSeq != q || x.gmSid != sid
    | none => true
  { state := fld (payloadWord k 0) 31 28, jumpRefused := fld (payloadWord k 0) 27 27 == 1,
    hops := fld (payloadWord k 0) 26 23, gmPriority := fld (payloadWord k 0) 7 0, gmSid := sid, gmSeq := q,
    arrival := nowRef s, advanced := if moved then nowRef s else (old.map (·.advanced)).getD (nowRef s),
    silent := false, stalled := !moved && (old.map (·.stalled)).getD false }

/-- A time message is noted at its port and its sender, and the parent elected anew (R433, R440). -/
def heardTime (port : Nat) (pkt : Packet) (arrival : Nat) (s : State) : State :=
  let s1 := modPort port (fun x => { x with timePeer := some (fld pkt.w5 15 0, t96At pkt 3, t96Of arrival) }) s
  electParent (modTime (fun t => { t with peers := tabPut t.peers port (peerOf s port pkt) }) s1)

/-- A TIME message arrives at a port in UP; `arrival` is its arrival at the fibre face, as device time in 2^-16 ns. -/
def execTimeMsgRx (port : Nat) (pkt : Packet) (arrival : Nat) (s : State) : Host.Outcome State Fault Refusal :=
  onUnit (portKnown s port)
    (if (Machine.port s port).phase ≠ .up ∨ pKind pkt ≠ 9 ∨ xTtType pkt ≠ 1 then s
    else
      let s2 := heardTime port pkt arrival s
      if s2.time.parent = some port then
        match sampleOf s2 port pkt arrival with
        | some off => takeSample off s2
        | none => copyGm (countPort port 13 1 s2)
      else s2)

/-- Change a peer's entry and hold the election. -/
def modPeer (p : Nat) (f : TimePeer → TimePeer) (s : State) : State :=
  electParent (match tabGet? s.time.peers p with
    | some c => modTime (fun t => { t with peers := tabPut t.peers p (f c) }) s
    | none => s)

/-- The parent has been silent for 1 ms (R439). -/
def execParentLostTimeout (s : State) : Host.Outcome State Fault Refusal :=
  .next (match s.time.parent with
  | some p => modPeer p (fun c => { c with silent := true }) s
  | none => s)

/-- A port's GM_SEQ has stood for 2 ms (R439). -/
def execGmSeqStall (port : Nat) (s : State) : Host.Outcome State Fault Refusal :=
  onUnit (portKnown s port) (modPeer port (fun c => { c with stalled := true }) s)

/-- ACQUIRING has lasted 10 ms (Table 13.3). -/
def execAcquiringTimeout (s : State) : Host.Outcome State Fault Refusal :=
  .next (if s.time.phase = .acquiring then
    setTimePhase .unset (modTime (fun t => { t with parent := none, samples := [] }) s)
  else s)

/-- No parent has yielded four samples within 10 ms (R437). -/
def execAcceptStepSampleTimeout (s : State) : Host.Outcome State Fault Refusal :=
  .next (match s.time.accept with
  | some a => finish a.origin .notReady [] (modTime (fun t => { t with accept := none }) s)
  | none => s)

/-! ## Ties and pulses (R441 to R443) -/

/-- The spine becomes MASTER with a given device time: a step. -/
def tieTo (dev : Nat) (s : State) : State := becomeMaster (modTime (fun t => { t with tie := none }) (jumpTo dev s))

/-- A tie that waited gets its time: OK, or CONFLICT when the spine is no longer UNSET (R441). -/
def landTie (o : Origin) (dev : Nat) (s : State) : State :=
  if s.time.phase = .unset then finish o .ok [] (tieTo dev s)
  else finish o .conflict [] (modTime (fun t => { t with tie := none }) s)

/-- Device time's distance from the whole second nearest to it (R443). -/
def ppsOffset (s : State) : Int :=
  let sec : Nat := 1000000000 * 65536
  (s.clk.dev : Int) - ((s.clk.dev + sec / 2) / sec * sec : Nat)

/-- A rising edge of PPS_IN: it completes a tie, or disciplines a master. -/
def execPpsInEdge (s : State) : Host.Outcome State Fault Refusal :=
  .next (match s.time.tie with
  | some w =>
    if w.source = 1 then landTie w.origin (w.seconds * 1000000000 * 65536) s else s
  | none =>
    if s.time.phase = .master && s.time.discipline then
      let s1 := modTime (fun t => { t with lastOff := ppsOffset s }) s
      if beyond (ppsOffset s) (threshUnits s) then refuseJump (ppsOffset s) s1 else slew (ppsOffset s) 1000000000 s1
    else s)

/-- PPS_OUT rises at a whole second, and falls 100 ms later; it stays low without fabric time. -/
def execPpsOutSecond (high : Bool) (s : State) : Host.Outcome State Fault Refusal :=
  .next (let up := high && (s.time.phase == .master || s.time.phase == .locked || s.time.phase == .holdover)
  if up = s.time.ppsHigh then s else emit (.pps up) (modTime (fun t => { t with ppsHigh := up }) s))

/-- A PTP message arrives on a management port. `exchange` is the offset, in 2^-16 ns, of a delay request-response exchange
with the chosen time transmitter that the message completes; every other message is counted and ignored (R442). -/
def execPtpMessageRx (mport domain : Nat) (exchange : Option Int) (s : State) : Host.Outcome State Fault Refusal :=
  onUnit (decide (mport < 8))
    (let s1 := countMgmt mport 0 s
    match s.time.tie, exchange with
    | some w, some off =>
      if w.source = 0 ∧ w.domain = domain ∧ mport < 4 then
        let l := w.offsets ++ [off]
        if l.length < 16 then modTime (fun t => { t with tie := some { w with offsets := l } }) s1
        else landTie w.origin ((s.clk.dev : Int) - medianInt l).toNat s1
      else countMgmt mport 2 s1
    | _, _ => countMgmt mport 2 s1)

/-- The window of a tie's source ends (Table 13.4). -/
def execTieSourceTimeout (s : State) : Host.Outcome State Fault Refusal :=
  .next (match s.time.tie with
  | some w => finish w.origin (if w.source = 0 then .notReady else .timeout) [] (modTime (fun t => { t with tie := none }) s)
  | none => s)

/-! ## Commands (16 Table 16.10) -/

/-- TIME.TIE. -/
def execTimeTie (o : Origin) (source domain t96 : Nat) (s : State) : Host.Outcome State Fault Refusal :=
  .next (runCommand o 0x0A01 (fun s =>
    if 2 < source ∨ 127 < domain ∨ 1000000000 ≤ t96 / 2 ^ 16 % 2 ^ 32 then failWith .invalid s
    else if s.time.phase ≠ .unset ∨ 255 ≤ s.time.priority ∨ s.time.tie.isSome then failWith .conflict s
    else if source = 2 then okWith (tieTo (devOf96 t96) s)
    else .later (modTime (fun t => { t with
      tie := some { origin := o, source := source, domain := domain, seconds := t96 / 2 ^ 48, offsets := [] } }) s)) s)

/-- TIME.ACCEPT_STEP. -/
def execTimeAcceptStep (o : Origin) (limit : Nat) (s : State) : Host.Outcome State Fault Refusal :=
  .next (runCommand o 0x0A02 (fun s =>
    if !s.time.jumpRefused then failWith .invalid s
    else if s.time.accept.isSome then failWith .conflict s
    else .later (modTime (fun t => { t with accept := some { origin := o, limit := limit, samples := [] } }) s)) s)

/-- TIME.THRESH. -/
def execTimeThresh (o : Origin) (ns : Nat) (s : State) : Host.Outcome State Fault Refusal :=
  .next (runCommand o 0x0A03 (fun s =>
    if ns < 50 ∨ 1000000000 < ns then failWith .invalid s else okWith (modTime (fun t => { t with thresh := ns }) s)) s)

/-- TIME.ASYM. -/
def execTimeAsym (o : Origin) (port : Nat) (asym : Int) (s : State) : Host.Outcome State Fault Refusal :=
  .next (runCommand o 0x0A04 (fun s =>
    if !portKnown s port || beyond asym 10000 then failWith .invalid s
    else okWith (modPort port (fun x => { x with asym := asym }) s)) s)

/-- TIME.PRIORITY. -/
def execTimePriority (o : Origin) (value : Nat) (s : State) : Host.Outcome State Fault Refusal :=
  .next (runCommand o 0x0A05 (fun s =>
    if 255 < value then failWith .invalid s else okWith (modTime (fun t => { t with priority := value }) s)) s)

/-- TIME.PPS. -/
def execTimePps (o : Origin) (discipline : Bool) (s : State) : Host.Outcome State Fault Refusal :=
  .next (runCommand o 0x0A06 (fun s => okWith (modTime (fun t => { t with discipline := discipline }) s)) s)

/-- A launch timestamp entry (Table 13.5). -/
def launchWords (e : LaunchEntry) : List Word :=
  [wordOf [at_ 31 16 e.launchId, at_ 15 15 (bit e.late), at_ 14 14 (bit e.stepped), at_ 10 0 e.port], w32 e.seconds,
    w32 e.nanos, wordOf [at_ 31 16 (e.delta % 65536).toNat, at_ 11 0 e.pid]]

/-- A launch entry that a caller may read: a tenant's own, or every one (R446). -/
def launchMine (o : Origin) (s : State) (pid : Nat) : Bool := (callerPid o s).all (· == pid)

/-- TIME.LAUNCH_READ: a tenant's own entries and flag, or everybody's (R446). -/
def execTimeLaunchRead (o : Origin) (most : Nat) (s : State) : Host.Outcome State Fault Refusal :=
  .next (runCommand o 0x0A07 (fun s =>
    if most = 0 ∨ 256 < most then failWith .invalid s
    else
      let mine := launchMine o s
      let got := (s.time.launches.filter (fun e => mine e.pid)).take most
      let flag := s.time.overflow.any mine
      .done .ok (w32 (bit flag) :: countedWords (got.map launchWords)) (modTime (fun t => { t with
        launches := (t.launches.foldl (fun (a : List LaunchEntry × Nat) e =>
          if mine e.pid && decide (a.2 < most) then (a.1, a.2 + 1) else (a.1 ++ [e], a.2)) ([], 0)).1,
        overflow := t.overflow.filter (fun p => !mine p) }) s)) s)

/-- TIME.STATUS. -/
def execTimeStatus (o : Origin) (s : State) : Host.Outcome State Fault Refusal :=
  .next (runCommand o 0x0A08 (fun s =>
    .done .ok (timeHead s ++ [w32 (s.time.parent.getD 0xFFFF), offNs s.time.lastOff] ++ t96Words s.clk.dev) s) s)

end Sys2Proof.Machine
end

