-- ==== Sys2Proof/Machine/Dispatch.lean ====
section
/-! DEFINITION. One arm per command: the meaning it calls. -/

namespace Sys2Proof.Machine

/-- The effect of a command on everything but the queue. -/
def exec (i : Instr) (s : State) : Host.Outcome State Fault Refusal :=
  match i with
  | .powerOn => Sys2Proof.Machine.execPowerOn s
  | .inputUndervoltage => Sys2Proof.Machine.execInputUndervoltage s
  | .inputOvervoltage => Sys2Proof.Machine.execInputOvervoltage s
  | .inputOvercurrent => Sys2Proof.Machine.execInputOvercurrent s
  | .latchClear => Sys2Proof.Machine.execLatchClear s
  | .supplyLoss => Sys2Proof.Machine.execSupplyLoss s
  | .modRstNAssert => Sys2Proof.Machine.execModRstNAssert s
  | .modRstNRelease => Sys2Proof.Machine.execModRstNRelease s
  | .coldStart o => Sys2Proof.Machine.execColdStart o s
  | .startTimeout step => Sys2Proof.Machine.execStartTimeout step s
  | .warmStart o => Sys2Proof.Machine.execWarmStart o s
  | .refclkLoss => Sys2Proof.Machine.execRefclkLoss s
  | .thermalTrip => Sys2Proof.Machine.execThermalTrip s
  | .throttleEvaluation t => Sys2Proof.Machine.execThrottleEvaluation t s
  | .capUnattainable => Sys2Proof.Machine.execCapUnattainable s
  | .telemetryUpdate t => Sys2Proof.Machine.execTelemetryUpdate t s
  | .coolantDeltaAlarm => Sys2Proof.Machine.execCoolantDeltaAlarm s
  | .startStatusRead code => Sys2Proof.Machine.execStartStatusRead code s
  | .bayInterlockOpen bay => Sys2Proof.Machine.execBayInterlockOpen bay s
  | .bayInserted bay => Sys2Proof.Machine.execBayInserted bay s
  | .jtagInstructionLoad code => Sys2Proof.Machine.execJtagInstructionLoad code s
  | .jtagTestLogicReset => Sys2Proof.Machine.execJtagTestLogicReset s
  | .pllUnlock isl => Sys2Proof.Machine.execPllUnlock isl s
  | .pllRelock isl => Sys2Proof.Machine.execPllRelock isl s
  | .pllRelockTimeout isl => Sys2Proof.Machine.execPllRelockTimeout isl s
  | .controlAgentAccess isl sent => Sys2Proof.Machine.execControlAgentAccess isl sent s
  | .registerWrite addr hw => Sys2Proof.Machine.execRegisterWrite addr hw s
  | .addrErrClear isl coincident => Sys2Proof.Machine.execAddrErrClear isl coincident s
  | .agentTimeout isl addr => Sys2Proof.Machine.execAgentTimeout isl addr s
  | .agentEventDelivery isl => Sys2Proof.Machine.execAgentEventDelivery isl s
  | .crossingDelivery src dst entry => Sys2Proof.Machine.execCrossingDelivery src dst entry s
  | .ringSearchFull engine fibre tx temp seen => Sys2Proof.Machine.execRingSearchFull engine fibre tx temp seen s
  | .ringSearchPartial engine fibre tx temp found => Sys2Proof.Machine.execRingSearchPartial engine fibre tx temp found s
  | .dieTempOutOfWindow d temp => Sys2Proof.Machine.execDieTempOutOfWindow d temp s
  | .powerTelemetry reading => Sys2Proof.Machine.execPowerTelemetry reading s
  | .ringUnlock engine fibre row slot => Sys2Proof.Machine.execRingUnlock engine fibre row slot s
  | .ringRelock engine fibre row slot => Sys2Proof.Machine.execRingRelock engine fibre row slot s
  | .laneRejoinTimeout lane => Sys2Proof.Machine.execLaneRejoinTimeout lane s
  | .laserMonitorSample m => Sys2Proof.Machine.execLaserMonitorSample m s
  | .laserFadeAverage levels => Sys2Proof.Machine.execLaserFadeAverage levels s
  | .spareLocked pos powers => Sys2Proof.Machine.execSpareLocked pos powers s
  | .spareLockTimeout pos => Sys2Proof.Machine.execSpareLockTimeout pos s
  | .cutoverPauseTime bay => Sys2Proof.Machine.execCutoverPauseTime bay s
  | .cutoverSwitchSettled bay => Sys2Proof.Machine.execCutoverSwitchSettled bay s
  | .cutoverComplete bay => Sys2Proof.Machine.execCutoverComplete bay s
  | .openFibreDetect engine fibre => Sys2Proof.Machine.execOpenFibreDetect engine fibre s
  | .backReflectionHigh engine fibre => Sys2Proof.Machine.execBackReflectionHigh engine fibre s
  | .eyeSafetyProbe engine fibre => Sys2Proof.Machine.execEyeSafetyProbe engine fibre s
  | .eyeSafetyProbeEnd engine fibre low => Sys2Proof.Machine.execEyeSafetyProbeEnd engine fibre low s
  | .eyeSafetyRestore engine fibre => Sys2Proof.Machine.execEyeSafetyRestore engine fibre s
  | .crustWindowEnd => Sys2Proof.Machine.execCrustWindowEnd s
  | .crustChangeApply engine => Sys2Proof.Machine.execCrustChangeApply engine s
  | .crustEffective engine => Sys2Proof.Machine.execCrustEffective engine s
  | .crustLit circuit => Sys2Proof.Machine.execCrustLit circuit s
  | .blockSlot lane => Sys2Proof.Machine.execBlockSlot lane s
  | .dataBlockRx lane block => Sys2Proof.Machine.execDataBlockRx lane block s
  | .idleBlockRx lane block => Sys2Proof.Machine.execIdleBlockRx lane block s
  | .localBlockRx lane block => Sys2Proof.Machine.execLocalBlockRx lane block s
  | .nakGapTimeout port => Sys2Proof.Machine.execNakGapTimeout port s
  | .ackTimeoutReplay port => Sys2Proof.Machine.execAckTimeoutReplay port s
  | .replayLimit port => Sys2Proof.Machine.execReplayLimit port s
  | .creditRepeatTick port => Sys2Proof.Machine.execCreditRepeatTick port s
  | .creditTargetTick port => Sys2Proof.Machine.execCreditTargetTick port s
  | .creditGrantTick port => Sys2Proof.Machine.execCreditGrantTick port s
  | .delineationLock lane => Sys2Proof.Machine.execDelineationLock lane s
  | .delineationLoss lane => Sys2Proof.Machine.execDelineationLoss lane s
  | .laneErrorRate lane => Sys2Proof.Machine.execLaneErrorRate lane s
  | .signalDetect lane => Sys2Proof.Machine.execSignalDetect lane s
  | .lightLost lane => Sys2Proof.Machine.execLightLost lane s
  | .acquireLock lane => Sys2Proof.Machine.execAcquireLock lane s
  | .acquireTimeout lane => Sys2Proof.Machine.execAcquireTimeout lane s
  | .delineateTimeout lane => Sys2Proof.Machine.execDelineateTimeout lane s
  | .verifyPass lane received => Sys2Proof.Machine.execVerifyPass lane received s
  | .laneMessageRx port msgId action lanes => Sys2Proof.Machine.execLaneMessageRx port msgId action lanes s
  | .pauseRx port msgId time len lanes => Sys2Proof.Machine.execPauseRx port msgId time len lanes s
  | .pauseWindowEnd port => Sys2Proof.Machine.execPauseWindowEnd port s
  | .retrainRx port msgId => Sys2Proof.Machine.execRetrainRx port msgId s
  | .llAckRx port llType msgId => Sys2Proof.Machine.execLlAckRx port llType msgId s
  | .llRetryTick port => Sys2Proof.Machine.execLlRetryTick port s
  | .helloRx port pkt arrival => Sys2Proof.Machine.execHelloRx port pkt arrival s
  | .helloTick port => Sys2Proof.Machine.execHelloTick port s
  | .helloWait port => Sys2Proof.Machine.execHelloWait port s
  | .creditTimeout port => Sys2Proof.Machine.execCreditTimeout port s
  | .resumeTimeout port => Sys2Proof.Machine.execResumeTimeout port s
  | .packetHeaderRx port pkt slots => Sys2Proof.Machine.execPacketHeaderRx port pkt slots s
  | .c0PolicerRelease port => Sys2Proof.Machine.execC0PolicerRelease port s
  | .packetTrailerCheck id verdict inst => Sys2Proof.Machine.execPacketTrailerCheck id verdict inst s
  | .learnMsgRx slice => Sys2Proof.Machine.execLearnMsgRx slice s
  | .stagingWrite => Sys2Proof.Machine.execStagingWrite s
  | .headroomFilled slice => Sys2Proof.Machine.execHeadroomFilled slice s
  | .injectionWrite source => Sys2Proof.Machine.execInjectionWrite source s
  | .queueStalenessExpiry port cls vc => Sys2Proof.Machine.execQueueStalenessExpiry port cls vc s
  | .portStalenessExpiry port => Sys2Proof.Machine.execPortStalenessExpiry port s
  | .huskWaitExpiry port cls src => Sys2Proof.Machine.execHuskWaitExpiry port cls src s
  | .huskMoveEnd port cls => Sys2Proof.Machine.execHuskMoveEnd port cls s
  | .bucketLockTimeout slice bucket => Sys2Proof.Machine.execBucketLockTimeout slice bucket s
  | .sweepTick slice late => Sys2Proof.Machine.execSweepTick slice late s
  | .winnowWeightTick => Sys2Proof.Machine.execWinnowWeightTick s
  | .proofPeriodBoundary => Sys2Proof.Machine.execProofPeriodBoundary s
  | .lendIdleTimeout act res => Sys2Proof.Machine.execLendIdleTimeout act res s
  | .contributionRx errs => Sys2Proof.Machine.execContributionRx errs s
  | .slotResultWritten gid portion slot => Sys2Proof.Machine.execSlotResultWritten gid portion slot s
  | .gatherSend gid recipe errs => Sys2Proof.Machine.execGatherSend gid recipe errs s
  | .spillIdleTimeout gid portion => Sys2Proof.Machine.execSpillIdleTimeout gid portion s
  | .spillComplete gid portion => Sys2Proof.Machine.execSpillComplete gid portion s
  | .spillRestore gid portion errs => Sys2Proof.Machine.execSpillRestore gid portion errs s
  | .loafStalenessExpiry gid portion => Sys2Proof.Machine.execLoafStalenessExpiry gid portion s
  | .abortRx => Sys2Proof.Machine.execAbortRx s
  | .stagingSramError unit context double => Sys2Proof.Machine.execStagingSramError unit context double s
  | .reserveRx => Sys2Proof.Machine.execReserveRx s
  | .reservedRx => Sys2Proof.Machine.execReservedRx s
  | .refusedRx => Sys2Proof.Machine.execRefusedRx s
  | .commitRx => Sys2Proof.Machine.execCommitRx s
  | .committedRx => Sys2Proof.Machine.execCommittedRx s
  | .releaseRx => Sys2Proof.Machine.execReleaseRx s
  | .closeRx => Sys2Proof.Machine.execCloseRx s
  | .closedRx => Sys2Proof.Machine.execClosedRx s
  | .endpointDownRx => Sys2Proof.Machine.execEndpointDownRx s
  | .reserveAnswerTimeout opened sid => Sys2Proof.Machine.execReserveAnswerTimeout opened sid s
  | .reservationExpiry home opened => Sys2Proof.Machine.execReservationExpiry home opened s
  | .commitTimeout opened => Sys2Proof.Machine.execCommitTimeout opened s
  | .closeRepeatTick job => Sys2Proof.Machine.execCloseRepeatTick job s
  | .loafGraceExpiry target => Sys2Proof.Machine.execLoafGraceExpiry target s
  | .spineRequestRx => Sys2Proof.Machine.execSpineRequestRx s
  | .spinePacketDiscard => Sys2Proof.Machine.execSpinePacketDiscard s
  | .firmwareControlRx => Sys2Proof.Machine.execFirmwareControlRx s
  | .fwOutboundDrain => Sys2Proof.Machine.execFwOutboundDrain s
  | .summaryTick load => Sys2Proof.Machine.execSummaryTick load s
  | .summaryRx => Sys2Proof.Machine.execSummaryRx s
  | .mirrorAskRx => Sys2Proof.Machine.execMirrorAskRx s
  | .mirrorGrantRx => Sys2Proof.Machine.execMirrorGrantRx s
  | .mirrorDenyRx => Sys2Proof.Machine.execMirrorDenyRx s
  | .mirrorAskTimeout ask => Sys2Proof.Machine.execMirrorAskTimeout ask s
  | .replyRx => Sys2Proof.Machine.execReplyRx s
  | .dispatchRx => Sys2Proof.Machine.execDispatchRx s
  | .batchWaitExpiry context => Sys2Proof.Machine.execBatchWaitExpiry context s
  | .routerMmaDone => Sys2Proof.Machine.execRouterMmaDone s
  | .replicaChoice context origin ident slot => Sys2Proof.Machine.execReplicaChoice context origin ident slot s
  | .tokenDispatch context origin ident => Sys2Proof.Machine.execTokenDispatch context origin ident s
  | .expertReturnRx => Sys2Proof.Machine.execExpertReturnRx s
  | .tokenStalenessExpiry context origin ident => Sys2Proof.Machine.execTokenStalenessExpiry context origin ident s
  | .millInstructionIssue => Sys2Proof.Machine.execMillInstructionIssue s
  | .mmaDone => Sys2Proof.Machine.execMmaDone s
  | .millCopyDone slot index errs => Sys2Proof.Machine.execMillCopyDone slot index errs s
  | .programStalenessExpiry slot => Sys2Proof.Machine.execProgramStalenessExpiry slot s
  | .millGraceExpiry context => Sys2Proof.Machine.execMillGraceExpiry context s
  | .millSramError hit double => Sys2Proof.Machine.execMillSramError hit double s
  | .granaryAccessRx => Sys2Proof.Machine.execGranaryAccessRx s
  | .granaryWriteDone index => Sys2Proof.Machine.execGranaryWriteDone index s
  | .granaryReadDone index errors => Sys2Proof.Machine.execGranaryReadDone index errors s
  | .extentRetireDone region stack extent => Sys2Proof.Machine.execExtentRetireDone region stack extent s
  | .scrubLine error => Sys2Proof.Machine.execScrubLine error s
  | .regionZeroed region => Sys2Proof.Machine.execRegionZeroed region s
  | .mirrorReadbackDone remote => Sys2Proof.Machine.execMirrorReadbackDone remote s
  | .gristChunkStage slot errors => Sys2Proof.Machine.execGristChunkStage slot errors s
  | .gristLaunch slot => Sys2Proof.Machine.execGristLaunch slot s
  | .gristDone slot => Sys2Proof.Machine.execGristDone slot s
  | .gristStalenessExpiry slot => Sys2Proof.Machine.execGristStalenessExpiry slot s
  | .dmaDescriptorStart channel => Sys2Proof.Machine.execDmaDescriptorStart channel s
  | .dmaWriteResponse channel index errors => Sys2Proof.Machine.execDmaWriteResponse channel index errors s
  | .dmaRequestTimeout channel index number => Sys2Proof.Machine.execDmaRequestTimeout channel index number s
  | .dmaNoBufferRetry channel index number => Sys2Proof.Machine.execDmaNoBufferRetry channel index number s
  | .dmaDescriptorStaleness channel index => Sys2Proof.Machine.execDmaDescriptorStaleness channel index s
  | .dmaGraceExpiry channel => Sys2Proof.Machine.execDmaGraceExpiry channel s
  | .timeMsgTick => Sys2Proof.Machine.execTimeMsgTick s
  | .timeMsgRx port pkt arrival => Sys2Proof.Machine.execTimeMsgRx port pkt arrival s
  | .parentLostTimeout => Sys2Proof.Machine.execParentLostTimeout s
  | .gmSeqStall port => Sys2Proof.Machine.execGmSeqStall port s
  | .acquiringTimeout => Sys2Proof.Machine.execAcquiringTimeout s
  | .ppsInEdge => Sys2Proof.Machine.execPpsInEdge s
  | .ppsOutSecond high => Sys2Proof.Machine.execPpsOutSecond high s
  | .ptpMessageRx mport domain exchange => Sys2Proof.Machine.execPtpMessageRx mport domain exchange s
  | .snapshotLatch mailbox seq => Sys2Proof.Machine.execSnapshotLatch mailbox seq s
  | .crumbWrite => Sys2Proof.Machine.execCrumbWrite s
  | .sampleWrite => Sys2Proof.Machine.execSampleWrite s
  | .dtlsHandshake mport cert ok ownerRoot => Sys2Proof.Machine.execDtlsHandshake mport cert ok ownerRoot s
  | .sessionIdleTimeout session => Sys2Proof.Machine.execSessionIdleTimeout session s
  | .commandPeelRx session mport peel form => Sys2Proof.Machine.execCommandPeelRx session mport peel form s
  | .segmentTimeout mailbox session seq => Sys2Proof.Machine.execSegmentTimeout mailbox session seq s
  | .eventAckRx session mport peel => Sys2Proof.Machine.execEventAckRx session mport peel s
  | .commandStepDispatch => Sys2Proof.Machine.execCommandStepDispatch s
  | .commandDeadlineExpiry mailbox seq => Sys2Proof.Machine.execCommandDeadlineExpiry mailbox seq s
  | .stepOverrun typ idx mailbox seq => Sys2Proof.Machine.execStepOverrun typ idx mailbox seq s
  | .eventSend mailbox => Sys2Proof.Machine.execEventSend mailbox s
  | .eventResendTimeout mailbox => Sys2Proof.Machine.execEventResendTimeout mailbox s
  | .lldpTick mport => Sys2Proof.Machine.execLldpTick mport s
  | .lldpRx mport frame => Sys2Proof.Machine.execLldpRx mport frame s
  | .neighborDiscoveryRx mport solicit srcMac src target => Sys2Proof.Machine.execNeighborDiscoveryRx mport solicit srcMac src target s
  | .icmpEchoRx mport srcMac src dst ident seqNo data => Sys2Proof.Machine.execIcmpEchoRx mport srcMac src dst ident seqNo data s
  | .packetTooBigRx session mtu => Sys2Proof.Machine.execPacketTooBigRx session mtu s
  | .mgmtPortLinkChange mport up => Sys2Proof.Machine.execMgmtPortLinkChange mport up s
  | .proposalExpiry proposal => Sys2Proof.Machine.execProposalExpiry proposal s
  | .debugLockReturn => Sys2Proof.Machine.execDebugLockReturn s
  | .sessionKeyExpiry session => Sys2Proof.Machine.execSessionKeyExpiry session s
  | .l1Overrun typ idx objType ident => Sys2Proof.Machine.execL1Overrun typ idx objType ident s
  | .engineReset typ idx trains => Sys2Proof.Machine.execEngineReset typ idx trains s
  | .l2Overrun typ idx => Sys2Proof.Machine.execL2Overrun typ idx s
  | .scopeReset isl trains => Sys2Proof.Machine.execScopeReset isl trains s
  | .l3Overrun isl => Sys2Proof.Machine.execL3Overrun isl s
  | .dumpTimeout => Sys2Proof.Machine.execDumpTimeout s
  | .watchdogExpiry core => Sys2Proof.Machine.execWatchdogExpiry core s
  | .protectedSramError => Sys2Proof.Machine.execProtectedSramError s
  | .moduleCycleHold => Sys2Proof.Machine.execModuleCycleHold s
  | .cycleHoldExpiry => Sys2Proof.Machine.execCycleHoldExpiry s
  | .cycleRequestTimeout => Sys2Proof.Machine.execCycleRequestTimeout s
  | .linkSetSid o sid => Sys2Proof.Machine.execLinkSetSid o sid s
  | .linkNeighbours o => Sys2Proof.Machine.execLinkNeighbours o s
  | .linkLldp o mport => Sys2Proof.Machine.execLinkLldp o mport s
  | .linkFibreLength o lengths => Sys2Proof.Machine.execLinkFibreLength o lengths s
  | .linkLoopback o engine fibre on => Sys2Proof.Machine.execLinkLoopback o engine fibre on s
  | .linkCommission o engines powers => Sys2Proof.Machine.execLinkCommission o engines powers s
  | .linkSpareMode o enable => Sys2Proof.Machine.execLinkSpareMode o enable s
  | .linkBayReturn o bay => Sys2Proof.Machine.execLinkBayReturn o bay s
  | .linkRingRecord o die => Sys2Proof.Machine.execLinkRingRecord o die s
  | .portWidth o widths => Sys2Proof.Machine.execPortWidth o widths s
  | .portCompat o port on => Sys2Proof.Machine.execPortCompat o port on s
  | .portMode o port mask => Sys2Proof.Machine.execPortMode o port mask s
  | .portSample o port k => Sys2Proof.Machine.execPortSample o port k s
  | .portStale o port queueUs portUs => Sys2Proof.Machine.execPortStale o port queueUs portUs s
  | .portHuskWait o port cls us => Sys2Proof.Machine.execPortHuskWait o port cls us s
  | .portRetrain o port => Sys2Proof.Machine.execPortRetrain o port s
  | .portLane o port mask restore => Sys2Proof.Machine.execPortLane o port mask restore s
  | .portState o port => Sys2Proof.Machine.execPortState o port s
  | .tableWrite o table slices g elems hung => Sys2Proof.Machine.execTableWrite o table slices g elems hung s
  | .tableRead o table slice first amount => Sys2Proof.Machine.execTableRead o table slice first amount s
  | .tablePurge o slices pid g => Sys2Proof.Machine.execTablePurge o slices pid g s
  | .tableParams o slices params => Sys2Proof.Machine.execTableParams o slices params s
  | .tablePartition o pid w0 ports => Sys2Proof.Machine.execTablePartition o pid w0 ports s
  | .tableFence o pid notify => Sys2Proof.Machine.execTableFence o pid notify s
  | .tableAdvance o pid epoch => Sys2Proof.Machine.execTableAdvance o pid epoch s
  | .tableOpen o pid => Sys2Proof.Machine.execTableOpen o pid s
  | .tableRootPriority o value => Sys2Proof.Machine.execTableRootPriority o value s
  | .classCreditWeight o port weights => Sys2Proof.Machine.execClassCreditWeight o port weights s
  | .classSched o port weights credits overhead => Sys2Proof.Machine.execClassSched o port weights credits overhead s
  | .classShaper o port target params => Sys2Proof.Machine.execClassShaper o port target params s
  | .classMarker o port cls params => Sys2Proof.Machine.execClassMarker o port cls params s
  | .classProfile o profile curves => Sys2Proof.Machine.execClassProfile o profile curves s
  | .classQueue o port cls profile a mark => Sys2Proof.Machine.execClassQueue o port cls profile a mark s
  | .classBudget o activity shares lendable => Sys2Proof.Machine.execClassBudget o activity shares lendable s
  | .classBudgetRead o => Sys2Proof.Machine.execClassBudgetRead o s
  | .loafGroupDefine o gid pid delivery members => Sys2Proof.Machine.execLoafGroupDefine o gid pid delivery members s
  | .loafGroupDelete o gid => Sys2Proof.Machine.execLoafGroupDelete o gid s
  | .loafLive o gid se live => Sys2Proof.Machine.execLoafLive o gid se live s
  | .loafOpen o gid params => Sys2Proof.Machine.execLoafOpen o gid params s
  | .loafClose o gid recipe grace => Sys2Proof.Machine.execLoafClose o gid recipe grace s
  | .loafAbortCommand o gid seq => Sys2Proof.Machine.execLoafAbortCommand o gid seq s
  | .loafMemberLost o gid member => Sys2Proof.Machine.execLoafMemberLost o gid member s
  | .loafSizing o pid reach limit => Sys2Proof.Machine.execLoafSizing o pid reach limit s
  | .loafKnead o high low enable grace => Sys2Proof.Machine.execLoafKnead o high low enable grace s
  | .loafRecipes o gid => Sys2Proof.Machine.execLoafRecipes o gid s
  | .millAlloc o pid pages => Sys2Proof.Machine.execMillAlloc o pid pages s
  | .millLoad o slot pid stale code agds => Sys2Proof.Machine.execMillLoad o slot pid stale code agds s
  | .millRun o slot => Sys2Proof.Machine.execMillRun o slot s
  | .millStop o slot => Sys2Proof.Machine.execMillStop o slot s
  | .millContext o context record => Sys2Proof.Machine.execMillContext o context record s
  | .millReplicas o context expert replicas => Sys2Proof.Machine.execMillReplicas o context expert replicas s
  | .millWeights o set pid format d e region offset errs => Sys2Proof.Machine.execMillWeights o set pid format d e region offset errs s
  | .millRestore o context address => Sys2Proof.Machine.execMillRestore o context address s
  | .millEnable o enable grace => Sys2Proof.Machine.execMillEnable o enable grace s
  | .granaryCreate o rec0 stackSet extents => Sys2Proof.Machine.execGranaryCreate o rec0 stackSet extents s
  | .granaryFree o region => Sys2Proof.Machine.execGranaryFree o region s
  | .granarySet o region rec0 => Sys2Proof.Machine.execGranarySet o region rec0 s
  | .granaryQuery o region => Sys2Proof.Machine.execGranaryQuery o region s
  | .granaryMirrorOpen o shard owner tags generation size replicas => Sys2Proof.Machine.execGranaryMirrorOpen o shard owner tags generation size replicas s
  | .granaryMirrorCommit o shard generation crc => Sys2Proof.Machine.execGranaryMirrorCommit o shard generation crc s
  | .granaryMirrorQuery o shard => Sys2Proof.Machine.execGranaryMirrorQuery o shard s
  | .granaryMirrorClose o shard => Sys2Proof.Machine.execGranaryMirrorClose o shard s
  | .granaryChannelBind o channel pid rate => Sys2Proof.Machine.execGranaryChannelBind o channel pid rate s
  | .granaryChannelSet o channel setting => Sys2Proof.Machine.execGranaryChannelSet o channel setting s
  | .granaryChannelStart o channel => Sys2Proof.Machine.execGranaryChannelStart o channel s
  | .granaryChannelStop o channel grace => Sys2Proof.Machine.execGranaryChannelStop o channel grace s
  | .granaryEnable o enable grace => Sys2Proof.Machine.execGranaryEnable o enable grace s
  | .gristLoad o slot params => Sys2Proof.Machine.execGristLoad o slot params s
  | .gristStart o slot => Sys2Proof.Machine.execGristStart o slot s
  | .gristStop o slot => Sys2Proof.Machine.execGristStop o slot s
  | .gristUnload o slot => Sys2Proof.Machine.execGristUnload o slot s
  | .gristStatus o slot => Sys2Proof.Machine.execGristStatus o slot s
  | .winnowPolicy o pid setting => Sys2Proof.Machine.execWinnowPolicy o pid setting s
  | .winnowTags o entries => Sys2Proof.Machine.execWinnowTags o entries s
  | .winnowPin o subject => Sys2Proof.Machine.execWinnowPin o subject s
  | .winnowUnpin o subject => Sys2Proof.Machine.execWinnowUnpin o subject s
  | .winnowCrustMask o engine mask => Sys2Proof.Machine.execWinnowCrustMask o engine mask s
  | .winnowLog o first amount => Sys2Proof.Machine.execWinnowLog o first amount s
  | .timeTie o source domain t96 => Sys2Proof.Machine.execTimeTie o source domain t96 s
  | .timeAcceptStep o limit => Sys2Proof.Machine.execTimeAcceptStep o limit s
  | .timeThresh o ns => Sys2Proof.Machine.execTimeThresh o ns s
  | .timeAsym o port asym => Sys2Proof.Machine.execTimeAsym o port asym s
  | .timePriority o value => Sys2Proof.Machine.execTimePriority o value s
  | .timePps o discipline => Sys2Proof.Machine.execTimePps o discipline s
  | .timeLaunchRead o most => Sys2Proof.Machine.execTimeLaunchRead o most s
  | .timeStatus o => Sys2Proof.Machine.execTimeStatus o s
  | .counterRead o ids => Sys2Proof.Machine.execCounterRead o ids s
  | .counterSnapshot o ids => Sys2Proof.Machine.execCounterSnapshot o ids s
  | .counterFilter o rec0 => Sys2Proof.Machine.execCounterFilter o rec0 s
  | .crumbRead o offset length => Sys2Proof.Machine.execCrumbRead o offset length s
  | .crumbDump o => Sys2Proof.Machine.execCrumbDump o s
  | .crumbTrace o categories pidMatch pid => Sys2Proof.Machine.execCrumbTrace o categories pidMatch pid s
  | .resetContext o objType a b => Sys2Proof.Machine.execResetContext o objType a b s
  | .resetEngine o code trains => Sys2Proof.Machine.execResetEngine o code trains s
  | .resetSlice o slice trains => Sys2Proof.Machine.execResetSlice o slice trains s
  | .resetChip o => Sys2Proof.Machine.execResetChip o s
  | .resetCycle o => Sys2Proof.Machine.execResetCycle o s
  | .quorumList o => Sys2Proof.Machine.execQuorumList o s
  | .quorumApprove o proposal approve signature => Sys2Proof.Machine.execQuorumApprove o proposal approve signature s
  | .quorumWithdraw o proposal => Sys2Proof.Machine.execQuorumWithdraw o proposal s
  | .keySession o pub nonce => Sys2Proof.Machine.execKeySession o pub nonce s
  | .keyLoad o session region slot counter wrapped => Sys2Proof.Machine.execKeyLoad o session region slot counter wrapped s
  | .keyBind o region slot target direction pid => Sys2Proof.Machine.execKeyBind o region slot target direction pid s
  | .keyZeroize o region slot => Sys2Proof.Machine.execKeyZeroize o region slot s
  | .attestReport o nonce => Sys2Proof.Machine.execAttestReport o nonce s
  | .attestChain o => Sys2Proof.Machine.execAttestChain o s
  | .powerCap o watts => Sys2Proof.Machine.execPowerCap o watts s
  | .powerStatus o => Sys2Proof.Machine.execPowerStatus o s
  | .fwCaps o => Sys2Proof.Machine.execFwCaps o s
  | .fwInfo o => Sys2Proof.Machine.execFwInfo o s
  | .fwUpdate o length digest => Sys2Proof.Machine.execFwUpdate o length digest s
  | .fwStage o offset bytes => Sys2Proof.Machine.execFwStage o offset bytes s
  | .fwCredit o mailbox credit => Sys2Proof.Machine.execFwCredit o mailbox credit s
  | .fwBindMailbox o mailbox pid cert => Sys2Proof.Machine.execFwBindMailbox o mailbox pid cert s
  | .fwCredential o remove cls cert => Sys2Proof.Machine.execFwCredential o remove cls cert s
  | .fwNetwork o network address pfxLen mtu => Sys2Proof.Machine.execFwNetwork o network address pfxLen mtu s
  | .fwRegRead o addr amount => Sys2Proof.Machine.execFwRegRead o addr amount s
  | .fwRegWrite o addr value mask => Sys2Proof.Machine.execFwRegWrite o addr value mask s
  | .fwDebugUnlock o scope duration => Sys2Proof.Machine.execFwDebugUnlock o scope duration s
  | .acceptStepSampleTimeout => Sys2Proof.Machine.execAcceptStepSampleTimeout s
  | .tieSourceTimeout => Sys2Proof.Machine.execTieSourceTimeout s
  | .neighbourChangeHoldoffEnd => Sys2Proof.Machine.execNeighbourChangeHoldoffEnd s
  | .sampleReadyHoldoffEnd => Sys2Proof.Machine.execSampleReadyHoldoffEnd s
  | .baySelfTestDone bay => Sys2Proof.Machine.execBaySelfTestDone bay s
  | .flashWriteComplete => Sys2Proof.Machine.execFlashWriteComplete s

end Sys2Proof.Machine
end

