-- ==== Sys2Proof/Machine/Step.lean ====
section
/-! DEFINITION. One step of the device: the command at the front of the queue runs; on an empty queue time passes. -/

namespace Sys2Proof.Machine

/-- Device time has not begun while the device is held in reset (13 R428). -/
def timeRuns (s : State) : Bool := s.start.phase != .reset

/-- The advance of device time over 32 ns of reference time, in 2^-16 ns: the reference rate × (1 + ρ) (13 R428). -/
def devAdvance (rho : Int) : Nat := ((2 ^ 48 + rho) * (32 * 65536) / 2 ^ 48).toNat

/-- Five cycles of the reference clock pass, 32 ns (13 R428, R429; DESIGN CHOICE, log 1). -/
def tick (s : State) : State :=
  { s with clk := { s.clk with
      ref := s.clk.ref + 32, dev := if timeRuns s then s.clk.dev + devAdvance s.clk.rho else s.clk.dev } }

/-- One step: the command at the front of the queue, with the queue's rest; on an empty queue a tick (log 1). -/
def step (s : State) : Host.Outcome State Fault Refusal :=
  match s.pending with
  | c :: rest => exec c { s with pending := rest }
  | [] => .next (tick s)

/-- Put the command that a word spells at the front of the queue: no word spells one, so nothing is put there. -/
def State.withFetchWord (s : State) (nbits w : Nat) : State :=
  match decodeTableWord nbits w with
  | some c => { s with pending := c :: s.pending }
  | none => s

end Sys2Proof.Machine
end

