-- ==== Sys2Proof/Safety.lean ====
section
/-! DEFINITION. The terms in which claims speak: the parts of the state and what a command leaves unchanged, how a command
of the contract begins and is answered, and the invariants of the device. -/

set_option Elab.async false

namespace Sys2Proof.Machine

/-- The parts of the state that a frame names. -/
inductive Part where
  /-- ALERT_N (17 R566) -/
  | alert
  /-- supply, low-speed signals and straps (20 20.1 to 20.4) -/
  | supply
  /-- the SMBus telemetry (20 R621) -/
  | readings
  /-- the throttle stages (20 R630 to R633) -/
  | throttle
  /-- the power cap (16 R530) -/
  | powerCap
  /-- the phase of a start and the resident image (17 R539) -/
  | startPhase
  /-- LAST_LEVEL (17 Table 17.15) -/
  | lastLevel
  /-- DUMP_VALID (17 Table 17.15) -/
  | dumpValid
  /-- flash and the configuration store (17 R549) -/
  | flash
  /-- the log of the boot ROM and the loader (17 R545) -/
  | recoveryLog
  /-- the image staging area (17 R546) -/
  | staging
  /-- islands and their agents (01 R17 to R29) -/
  | islands
  /-- crossing queues (01 R24) -/
  | crossings
  /-- control registers and accesses held (01 R30 to R33) -/
  | registers
  /-- rings, searches and heater terms (02 2.2 to 2.4) -/
  | rings
  /-- laser bays and cut-overs (02 2.5) -/
  | bays
  /-- fibre pairs: eye safety, loop-back, length (02 2.6) -/
  | fibres
  /-- crust circuits (02 2.7) -/
  | circuits
  /-- the launch timestamp log (13 R446) -/
  | launches
  /-- fabric time (chapter 13) -/
  | time
  /-- lanes (03) -/
  | lanes
  /-- ports (03) -/
  | ports
  /-- stored packets (05) -/
  | packets
  /-- output queues and injection (05, 06 R227) -/
  | queues
  /-- cells of the buffer in use (05 R159 to R166) -/
  | room
  /-- E2E_SEQ and the last DATA block of a port (04 R133, 05 R193) -/
  | numbering
  /-- packets handed to an inner consumer and the firmware queues (05 R160, 06 R231) -/
  | firmware
  /-- the tables of the slices (06) -/
  | tables
  /-- the husk root priority (06 R222) -/
  | rootPriority
  /-- schedulers, shapers, markers, profiles (05, 07) -/
  | classes
  /-- the budget table (07 R256) -/
  | budgets
  /-- budget gates (07 R257, R258) -/
  | gates
  /-- groups and barrier sizing (08 R269; 14 R462) -/
  | groups
  /-- recipes, loaf contexts and their agreement (08) -/
  | loafs
  /-- event queues (15 R502) -/
  | events
  /-- mailboxes and control cores (15 R490 to R497) -/
  | mailboxes
  /-- management ports and sessions (15 R476 to R484) -/
  | sessions
  /-- the dispatcher's turns (15 R493) -/
  | turns
  /-- the neighbour report's GENERATION (14 R455) -/
  | neighbours
  /-- the Mill (10) -/
  | mill
  /-- Granary regions (11 R365 to R369) -/
  | regions
  /-- the bytes of the Granary (11 R361 to R364) -/
  | memory
  /-- DMA channels (11 R385 to R394) -/
  | channels
  /-- grist programs (11 R375 to R380) -/
  | grists
  /-- mirror records (11 R381 to R384) -/
  | mirrors
  /-- Granary accesses in progress (11 R371) -/
  | accesses
  /-- counters (19 R590) -/
  | counters
  /-- the crumb queue (19 R603) -/
  | crumbs
  /-- filters and trace (19 R595, R602) -/
  | filters
  /-- samples (19 R605) -/
  | samples
  /-- snapshots, the TAP, the dump number (19 R599, R609; 17 R561) -/
  | snapshots
  /-- decision records (12 R421) -/
  | decisions
  /-- policies, tags, masks, pins, summaries (12) -/
  | placement
  /-- escalation (17 R551) -/
  | escalation
  /-- elapsed reference time (13 R429) -/
  | refTime
  /-- device time and its rate (13 R428) -/
  | devTime
  /-- the model's draw counter -/
  | free
  /-- what was emitted -/
  | out
  /-- link key slots (18 R576) -/
  | linkKeys
  /-- region key slots (18 R576) -/
  | regionKeys
  /-- proposals (18 R584) -/
  | proposals
  /-- key sessions and the debug lock (18 R575, R588) -/
  | keySessions
  /-- the queue of commands -/
  | queue
  deriving DecidableEq, Repr

/-- A part is the same in two states. -/
@[reducible] def Part.same (p : Part) (s t : State) : Prop :=
  match p with
  | .alert => t.power.alert = s.power.alert
  | .supply => t.power.vinOn = s.power.vinOn ∧ t.power.rails = s.power.rails ∧ t.power.pwrOk = s.power.pwrOk ∧
      t.power.latched = s.power.latched ∧ t.power.thermTrip = s.power.thermTrip ∧
      t.power.cycleReq = s.power.cycleReq ∧ t.power.statusOnly = s.power.statusOnly ∧
      t.power.modRst = s.power.modRst ∧ t.power.refclk = s.power.refclk ∧ t.power.bootMode = s.power.bootMode ∧
      t.power.modSlot = s.power.modSlot
  | .readings => t.power.telemetry = s.power.telemetry ∧ t.power.coolantDelta = s.power.coolantDelta
  | .throttle => t.power.capUnattainable = s.power.capUnattainable ∧ t.power.depth = s.power.depth ∧
      t.power.underRun = s.power.underRun ∧ t.power.fullRun = s.power.fullRun ∧
      t.power.capEventRaised = s.power.capEventRaised
  | .powerCap => t.power.cap = s.power.cap
  | .startPhase => t.start.phase = s.start.phase ∧ t.start.step = s.start.step ∧
      t.start.stacksTrained = s.start.stacksTrained ∧ t.start.pendingReset = s.start.pendingReset ∧
      t.start.resident = s.start.resident ∧ t.start.measurement = s.start.measurement
  | .lastLevel => t.start.lastLevel = s.start.lastLevel
  | .dumpValid => t.start.dumpValid = s.start.dumpValid
  | .flash => t.start.cfg = s.start.cfg ∧ t.start.copyA = s.start.copyA ∧ t.start.copyB = s.start.copyB ∧
      t.start.flashImage = s.start.flashImage ∧ t.start.flashWrite = s.start.flashWrite
  | .recoveryLog => t.start.recoveryLog = s.start.recoveryLog
  | .staging => t.start.staging = s.start.staging
  | .islands => t.ctl.islands = s.ctl.islands
  | .crossings => t.ctl.crossings = s.ctl.crossings
  | .registers => t.ctl.regs = s.ctl.regs ∧ t.ctl.staged = s.ctl.staged ∧ t.ctl.held = s.ctl.held ∧
      t.ctl.delivered = s.ctl.delivered
  | .rings => t.opt.rings = s.opt.rings ∧ t.opt.dieTemp = s.opt.dieTemp ∧ t.opt.feedFwd = s.opt.feedFwd ∧
      t.opt.searchDue = s.opt.searchDue ∧ t.opt.partialDue = s.opt.partialDue
  | .bays => t.opt.bays = s.opt.bays ∧ t.opt.cutovers = s.opt.cutovers ∧ t.opt.autoSpare = s.opt.autoSpare ∧
      t.opt.fades = s.opt.fades
  | .fibres => t.opt.fibres = s.opt.fibres
  | .circuits => t.opt.circuits = s.opt.circuits ∧ t.opt.lastChange = s.opt.lastChange
  | .launches => t.time.launches = s.time.launches ∧ t.time.overflow = s.time.overflow
  | .time => t.time.phase = s.time.phase ∧ t.time.jumpRefused = s.time.jumpRefused ∧ t.time.hops = s.time.hops ∧
      t.time.gmPriority = s.time.gmPriority ∧ t.time.gmSid = s.time.gmSid ∧ t.time.gmSeq = s.time.gmSeq ∧
      t.time.priority = s.time.priority ∧ t.time.thresh = s.time.thresh ∧ t.time.fq = s.time.fq ∧
      t.time.rhos = s.time.rhos ∧ t.time.lastOff = s.time.lastOff ∧ t.time.samples = s.time.samples ∧
      t.time.parent = s.time.parent ∧ t.time.firstSample = s.time.firstSample ∧ t.time.peers = s.time.peers ∧
      t.time.sentSeqs = s.time.sentSeqs ∧ t.time.accept = s.time.accept ∧ t.time.tie = s.time.tie ∧
      t.time.discipline = s.time.discipline ∧ t.time.ppsHigh = s.time.ppsHigh
  | .lanes => t.link.lanes = s.link.lanes
  | .ports => t.link.ports = s.link.ports
  | .packets => t.buf.packets = s.buf.packets ∧ t.buf.nextPkt = s.buf.nextPkt
  | .queues => t.buf.queues = s.buf.queues ∧ t.buf.drr = s.buf.drr ∧ t.buf.waiting = s.buf.waiting ∧
      t.buf.entries = s.buf.entries ∧ t.buf.huskMoving = s.buf.huskMoving ∧ t.buf.replicate = s.buf.replicate ∧
      t.buf.injPaused = s.buf.injPaused
  | .room => t.buf.headroom = s.buf.headroom ∧ t.buf.sharedQ = s.buf.sharedQ ∧ t.buf.sharedUsed = s.buf.sharedUsed ∧
      t.buf.badCells = s.buf.badCells ∧ t.buf.kneadUsed = s.buf.kneadUsed ∧ t.buf.computeUsed = s.buf.computeUsed ∧
      t.buf.controlUsed = s.buf.controlUsed
  | .numbering => t.buf.e2e = s.buf.e2e ∧ t.buf.lastSent = s.buf.lastSent
  | .firmware => t.buf.fwIn = s.buf.fwIn ∧ t.buf.fwOut = s.buf.fwOut ∧ t.buf.consumers = s.buf.consumers
  | .tables => t.tbl.slices = s.tbl.slices
  | .rootPriority => t.tbl.rootPriority = s.tbl.rootPriority
  | .classes => t.sched.scheds = s.sched.scheds ∧ t.sched.shapers = s.sched.shapers ∧
      t.sched.lossyGates = s.sched.lossyGates ∧ t.sched.markers = s.sched.markers ∧
      t.sched.queueSets = s.sched.queueSets ∧ t.sched.profiles = s.sched.profiles ∧
      t.sched.c0Event = s.sched.c0Event ∧ t.sched.c0Meters = s.sched.c0Meters
  | .budgets => t.sched.budgets = s.sched.budgets ∧ t.sched.nextBudgets = s.sched.nextBudgets
  | .gates => t.sched.gates = s.sched.gates ∧ t.sched.lentPool = s.sched.lentPool
  | .groups => t.loaf.groups = s.loaf.groups ∧ t.loaf.sizing = s.loaf.sizing
  | .loafs => t.loaf.recipes = s.loaf.recipes ∧ t.loaf.contexts = s.loaf.contexts ∧
      t.loaf.reservations = s.loaf.reservations ∧ t.loaf.opens = s.loaf.opens ∧ t.loaf.closes = s.loaf.closes ∧
      t.loaf.nextOpen = s.loaf.nextOpen ∧ t.loaf.kneadJobs = s.loaf.kneadJobs
  | .events => t.mgmt.events = s.mgmt.events
  | .mailboxes => t.mgmt.mailboxes = s.mgmt.mailboxes ∧ t.mgmt.freeCores = s.mgmt.freeCores
  | .sessions => t.mgmt.ports = s.mgmt.ports ∧ t.mgmt.sessions = s.mgmt.sessions ∧
      t.mgmt.nextSession = s.mgmt.nextSession
  | .turns => t.mgmt.roundRobin = s.mgmt.roundRobin ∧ t.mgmt.starved = s.mgmt.starved
  | .neighbours => t.fab.generation = s.fab.generation ∧ t.fab.holdoff = s.fab.holdoff ∧ t.fab.told = s.fab.told ∧
      t.fab.measuredTold = s.fab.measuredTold ∧ t.fab.collided = s.fab.collided
  | .mill => t.mill.pages = s.mill.pages ∧ t.mill.sram = s.mill.sram ∧ t.mill.weights = s.mill.weights ∧
      t.mill.contexts = s.mill.contexts ∧ t.mill.programs = s.mill.programs ∧ t.mill.batches = s.mill.batches ∧
      t.mill.work = s.mill.work ∧ t.mill.runLength = s.mill.runLength ∧ t.mill.lastSlot = s.mill.lastSlot ∧
      t.mill.disabling = s.mill.disabling
  | .regions => t.gran.regions = s.gran.regions ∧ t.gran.spares = s.gran.spares ∧
      t.gran.lostStacks = s.gran.lostStacks ∧ t.gran.retiring = s.gran.retiring
  | .memory => t.gran.mem = s.gran.mem ∧ t.gran.lineKeys = s.gran.lineKeys ∧ t.gran.poisoned = s.gran.poisoned ∧
      t.gran.corrected = s.gran.corrected
  | .channels => t.gran.channels = s.gran.channels
  | .grists => t.gran.grists = s.gran.grists
  | .mirrors => t.gran.mirrors = s.gran.mirrors ∧ t.gran.asks = s.gran.asks ∧ t.gran.nextAsk = s.gran.nextAsk ∧
      t.gran.commits = s.gran.commits
  | .accesses => t.gran.writes = s.gran.writes ∧ t.gran.reads = s.gran.reads ∧ t.gran.scrub = s.gran.scrub ∧
      t.gran.disabling = s.gran.disabling
  | .counters => t.tele.counters = s.tele.counters
  | .crumbs => t.tele.crumbQueue = s.tele.crumbQueue ∧ t.tele.crumbLost = s.tele.crumbLost
  | .filters => t.tele.filters = s.tele.filters ∧ t.tele.traceCategories = s.tele.traceCategories ∧
      t.tele.tracePid = s.tele.tracePid
  | .samples => t.tele.sampleQueue = s.tele.sampleQueue ∧ t.tele.sampleNew = s.tele.sampleNew ∧
      t.tele.sampleHoldoff = s.tele.sampleHoldoff
  | .snapshots => t.tele.snapshots = s.tele.snapshots ∧ t.tele.jtag = s.tele.jtag ∧ t.tele.dumpSeq = s.tele.dumpSeq
  | .decisions => t.winnow.log = s.winnow.log ∧ t.winnow.nextSeq = s.winnow.nextSeq
  | .placement => t.winnow.policies = s.winnow.policies ∧ t.winnow.tags = s.winnow.tags ∧
      t.winnow.crustMasks = s.winnow.crustMasks ∧ t.winnow.crustPins = s.winnow.crustPins ∧
      t.winnow.replicaPins = s.winnow.replicaPins ∧ t.winnow.traffic = s.winnow.traffic ∧
      t.winnow.lowWindows = s.winnow.lowWindows ∧ t.winnow.summaries = s.winnow.summaries ∧
      t.winnow.load = s.winnow.load
  | .escalation => t.rst.asked = s.rst.asked ∧ t.rst.l2Times = s.rst.l2Times ∧ t.rst.l3Times = s.rst.l3Times ∧
      t.rst.l4Times = s.rst.l4Times
  | .refTime => t.clk.ref = s.clk.ref
  | .devTime => t.clk.dev = s.clk.dev ∧ t.clk.rho = s.clk.rho
  | .free => t.free = s.free
  | .out => t.out = s.out
  | .linkKeys => t.sec.linkSlots = s.sec.linkSlots
  | .regionKeys => t.sec.regionSlots = s.sec.regionSlots
  | .proposals => t.sec.proposals = s.sec.proposals ∧ t.sec.nextProposal = s.sec.nextProposal
  | .keySessions => t.sec.sessions = s.sec.sessions ∧ t.sec.nextKeySession = s.sec.nextKeySession ∧
      t.sec.unlocked = s.sec.unlocked
  | .queue => t.pending = s.pending

/-- Every part but those listed is the same in two states. -/
def OnlyChanges (ps : List Part) (s t : State) : Prop := ∀ p, p ∉ ps → p.same s t

/-- What the answer to a command, and the crumb records and events beside it, may change. -/
def answerParts : List Part :=
  [.recoveryLog, .events, .mailboxes, .counters, .crumbs, .out]

/-- The state on which a command of the contract runs its own rules, when it may run them: the one in which its dispatched
step begins, or, for a command that arrives whole and passes every check of R497, the one in which it has taken its SEQ
(15 R490, R495, R497). -/
def beginsAt (o : Origin) (op : Nat) (s : State) : Option State :=
  if !listening s || !mailboxOpen o s then none
  else
    match outstandingOf s o with
    | some c => if c.opcode = op ∧ c.running ∧ c.stepsDone = 0 then some s else none
    | none =>
      if (keptOf s o).isSome || !seqNew (mailbox s o.mailbox) o.seq then none
      else if (admitCheck o op (filterCommand o op s)).isSome then none
      else some (takeSeq o (filterCommand o op s))

/-- A response to a command is among what was emitted since an earlier state: its status code and body words. -/
def Responds (o : Origin) (op status : Nat) (body : List Word) (s t : State) : Prop :=
  ∃ before credits via after,
    t.out = s.out ++ before ++ [.response o.mailbox o.seq op status credits (bootField t) body via] ++ after

/-- A command stays outstanding (15 R493). -/
def Outstands (o : Origin) (op : Nat) (t : State) : Prop := ∃ c, outstandingOf t o = some c ∧ c.opcode = op

/-- The legal values of the throttle and its cap (16 R530; 20 R630). -/
def PowerInv (s : State) : Prop :=
  s.power.depth.length = 4 ∧ (∀ d ∈ s.power.depth, d ≤ 15) ∧
    (s.power.cap = 0 ∨ 1000 ≤ s.power.cap ∧ s.power.cap ≤ 2800)

/-- The canonical form of the Granary's bytes: keys strictly rising, and no entry equal to what an unlisted byte reads as. -/
def Memory.wf (m : Tab Byte) : Bool := tabTotalWf (fun _ => 0) m

/-- The Granary's bytes, and the keys its lines are stored under, are in canonical form. -/
def MemoryInv (s : State) : Prop := Memory.wf s.gran.mem = true ∧ tabWf s.gran.lineKeys = true

/-- Byte a of region r lies in a line that a range (region, offset, length) touches. -/
def inLines (x : Nat × Nat × Nat) (r a : Nat) : Bool := r == x.1 && (rangeLines x.2.1 x.2.2).contains (a / 64)

/-- The ranges that a Granary access stores to: its own of a WRITE, the ring's places of a POST. -/
def accessStores (s : State) (k : Packet) : List (Nat × Nat × Nat) :=
  if xGop k = gopWrite then [(xRegion k, xOffset k, k.payload.length)]
  else if xGop k = gopRead then []
  else
    let ch := channel s (postChannel k)
    ((postDescs k).zipIdx).map (fun d =>
      (ch.cfg.ringRegion, ringOffset ch.cfg.ringOffset ch.cfg.ringLog2 (ch.cfg.producer + d.2), d.1.length))

/-- The ranges of the Granary that a command of those below stores to, as region, offset and length, each computed as its
meaning computes it. -/
def storesOf (i : Instr) (s : State) : List (Nat × Nat × Nat) :=
  match i with
  | .crumbWrite => [(0xFFFF, 32 * (crumbsWritten s % 2 ^ 26), 32)]
  | .sampleWrite => [(0xFFFF, 0x80000000 + 256 * (samplesWritten s % 2 ^ 22), 256)]
  | .granaryAccessRx =>
    match (nextAccess s [] (consumerQueue s 4)).bind (fun i => (consumerQueue s 4)[i]?) with
    | some d => accessStores s d.pkt
    | none => []
  | .spillComplete gid portion =>
    match loafCtx s (ctxKey gid portion) with
    | some c =>
      match held s gid c.recipeId with
      | some h => (spillImages h.recipe (groupSize s gid) c).map (fun x =>
          (h.spill, spillOffset s h.recipe portion + x.1, x.2.length))
      | none => []
    | none => []
  | .millCopyDone slot index _ =>
    match (millProgram s slot).bind (fun p => p.copies[index]?) with
    | some i => if fld (i.getD 0 0) 23 23 = 0 then []
      else [(fld (i.getD 2 0) 31 16, fld (i.getD 2 0) 15 0 * 2 ^ 32 + (i.getD 3 0).toNat, (i.getD 1 0).toNat)]
    | none => []
  | _ => []

/-- The commands whose stores `storesOf` gives; a command among the last ones stores nothing. -/
def storeKnown (i : Instr) : Bool :=
  match i with
  | .crumbWrite | .sampleWrite | .granaryAccessRx | .spillComplete _ _ | .millCopyDone _ _ _ => true
  | .granaryReadDone _ _ | .scrubLine _ | .spillRestore _ _ _ | .gatherSend _ _ _ | .gristChunkStage _ _ => true
  | _ => false

/-- The sender and the opcode of a command of the contract (16 Table 16.1 on); none of an event. -/
def commandOf (i : Instr) : Option (Origin × Nat) :=
  match i with
  | .linkSetSid o _ => some (o, 0x0101)
  | .linkNeighbours o => some (o, 0x0102)
  | .linkLldp o _ => some (o, 0x0103)
  | .linkFibreLength o _ => some (o, 0x0104)
  | .linkLoopback o _ _ _ => some (o, 0x0105)
  | .linkCommission o _ _ => some (o, 0x0106)
  | .linkSpareMode o _ => some (o, 0x0107)
  | .linkBayReturn o _ => some (o, 0x0108)
  | .linkRingRecord o _ => some (o, 0x0109)
  | .portWidth o _ => some (o, 0x0201)
  | .portCompat o _ _ => some (o, 0x0202)
  | .portMode o _ _ => some (o, 0x0203)
  | .portSample o _ _ => some (o, 0x0204)
  | .portStale o _ _ _ => some (o, 0x0205)
  | .portHuskWait o _ _ _ => some (o, 0x0206)
  | .portRetrain o _ => some (o, 0x0207)
  | .portLane o _ _ _ => some (o, 0x0208)
  | .portState o _ => some (o, 0x0209)
  | .tableWrite o _ _ _ _ _ => some (o, 0x0301)
  | .tableRead o _ _ _ _ => some (o, 0x0302)
  | .tablePurge o _ _ _ => some (o, 0x0303)
  | .tableParams o _ _ => some (o, 0x0304)
  | .tablePartition o _ _ _ => some (o, 0x0305)
  | .tableFence o _ _ => some (o, 0x0306)
  | .tableAdvance o _ _ => some (o, 0x0307)
  | .tableOpen o _ => some (o, 0x0308)
  | .tableRootPriority o _ => some (o, 0x0309)
  | .classCreditWeight o _ _ => some (o, 0x0401)
  | .classSched o _ _ _ _ => some (o, 0x0402)
  | .classShaper o _ _ _ => some (o, 0x0403)
  | .classMarker o _ _ _ => some (o, 0x0404)
  | .classProfile o _ _ => some (o, 0x0405)
  | .classQueue o _ _ _ _ _ => some (o, 0x0406)
  | .classBudget o _ _ _ => some (o, 0x0407)
  | .classBudgetRead o => some (o, 0x0408)
  | .loafGroupDefine o _ _ _ _ => some (o, 0x0501)
  | .loafGroupDelete o _ => some (o, 0x0502)
  | .loafLive o _ _ _ => some (o, 0x0503)
  | .loafOpen o _ _ => some (o, 0x0504)
  | .loafClose o _ _ _ => some (o, 0x0505)
  | .loafAbortCommand o _ _ => some (o, 0x0506)
  | .loafMemberLost o _ _ => some (o, 0x0507)
  | .loafSizing o _ _ _ => some (o, 0x0508)
  | .loafKnead o _ _ _ _ => some (o, 0x0509)
  | .loafRecipes o _ => some (o, 0x050A)
  | .millAlloc o _ _ => some (o, 0x0601)
  | .millLoad o _ _ _ _ _ => some (o, 0x0602)
  | .millRun o _ => some (o, 0x0603)
  | .millStop o _ => some (o, 0x0604)
  | .millContext o _ _ => some (o, 0x0605)
  | .millReplicas o _ _ _ => some (o, 0x0606)
  | .millWeights o _ _ _ _ _ _ _ _ => some (o, 0x0607)
  | .millRestore o _ _ => some (o, 0x0608)
  | .millEnable o _ _ => some (o, 0x0609)
  | .granaryCreate o _ _ _ => some (o, 0x0701)
  | .granaryFree o _ => some (o, 0x0702)
  | .granarySet o _ _ => some (o, 0x0703)
  | .granaryQuery o _ => some (o, 0x0704)
  | .granaryMirrorOpen o _ _ _ _ _ _ => some (o, 0x0705)
  | .granaryMirrorCommit o _ _ _ => some (o, 0x0706)
  | .granaryMirrorQuery o _ => some (o, 0x0707)
  | .granaryMirrorClose o _ => some (o, 0x0708)
  | .granaryChannelBind o _ _ _ => some (o, 0x0709)
  | .granaryChannelSet o _ _ => some (o, 0x070A)
  | .granaryChannelStart o _ => some (o, 0x070B)
  | .granaryChannelStop o _ _ => some (o, 0x070C)
  | .granaryEnable o _ _ => some (o, 0x070D)
  | .gristLoad o _ _ => some (o, 0x0801)
  | .gristStart o _ => some (o, 0x0802)
  | .gristStop o _ => some (o, 0x0803)
  | .gristUnload o _ => some (o, 0x0804)
  | .gristStatus o _ => some (o, 0x0805)
  | .winnowPolicy o _ _ => some (o, 0x0901)
  | .winnowTags o _ => some (o, 0x0902)
  | .winnowPin o _ => some (o, 0x0903)
  | .winnowUnpin o _ => some (o, 0x0904)
  | .winnowCrustMask o _ _ => some (o, 0x0905)
  | .winnowLog o _ _ => some (o, 0x0906)
  | .timeTie o _ _ _ => some (o, 0x0A01)
  | .timeAcceptStep o _ => some (o, 0x0A02)
  | .timeThresh o _ => some (o, 0x0A03)
  | .timeAsym o _ _ => some (o, 0x0A04)
  | .timePriority o _ => some (o, 0x0A05)
  | .timePps o _ => some (o, 0x0A06)
  | .timeLaunchRead o _ => some (o, 0x0A07)
  | .timeStatus o => some (o, 0x0A08)
  | .counterRead o _ => some (o, 0x0B01)
  | .counterSnapshot o _ => some (o, 0x0B02)
  | .counterFilter o _ => some (o, 0x0B03)
  | .crumbRead o _ _ => some (o, 0x0C01)
  | .crumbDump o => some (o, 0x0C02)
  | .crumbTrace o _ _ _ => some (o, 0x0C03)
  | .resetContext o _ _ _ => some (o, 0x0D01)
  | .resetEngine o _ _ => some (o, 0x0D02)
  | .resetSlice o _ _ => some (o, 0x0D03)
  | .resetChip o => some (o, 0x0D04)
  | .resetCycle o => some (o, 0x0D05)
  | .quorumList o => some (o, 0x0E01)
  | .quorumApprove o _ _ _ => some (o, 0x0E02)
  | .quorumWithdraw o _ => some (o, 0x0E03)
  | .keySession o _ _ => some (o, 0x0F01)
  | .keyLoad o _ _ _ _ _ => some (o, 0x0F02)
  | .keyBind o _ _ _ _ _ => some (o, 0x0F03)
  | .keyZeroize o _ _ => some (o, 0x0F04)
  | .attestReport o _ => some (o, 0x1001)
  | .attestChain o => some (o, 0x1002)
  | .powerCap o _ => some (o, 0x1101)
  | .powerStatus o => some (o, 0x1102)
  | .fwCaps o => some (o, 0x1201)
  | .fwInfo o => some (o, 0x1202)
  | .fwUpdate o _ _ => some (o, 0x1203)
  | .fwStage o _ _ => some (o, 0x1204)
  | .fwCredit o _ _ => some (o, 0x1205)
  | .fwBindMailbox o _ _ _ => some (o, 0x1206)
  | .fwCredential o _ _ _ => some (o, 0x1207)
  | .fwNetwork o _ _ _ _ => some (o, 0x1208)
  | .fwRegRead o _ _ => some (o, 0x1209)
  | .fwRegWrite o _ _ _ => some (o, 0x120A)
  | .fwDebugUnlock o _ _ => some (o, 0x120B)
  | _ => none

/-- The unit that a command names exists: an island, an engine, a lane, a port, a slot of the device. A command that names no
unit by number always does. -/
def unitNamed : Instr → State → Bool
  | .bayInterlockOpen bay, _ => decide (bay < 10)
  | .bayInserted bay, _ => decide (bay < 10)
  | .pllUnlock isl, _ => islandKnown isl
  | .pllRelock isl, _ => islandKnown isl
  | .pllRelockTimeout isl, _ => islandKnown isl
  | .controlAgentAccess isl _, _ => islandKnown isl
  | .registerWrite addr _, _ => islandKnown (addrIsland addr)
  | .addrErrClear isl _, _ => islandKnown isl
  | .agentTimeout isl _, _ => islandKnown isl
  | .agentEventDelivery isl, _ => islandKnown isl
  | .crossingDelivery src dst _, _ => islandKnown src && islandKnown dst
  | .ringSearchFull engine fibre _ _ _, _ => pairKnown engine fibre
  | .ringSearchPartial engine fibre _ _ _, _ => pairKnown engine fibre
  | .dieTempOutOfWindow d _, _ => decide (d < 8)
  | .ringUnlock engine fibre row slot, _ => pairKnown engine fibre && decide (row < 5) && decide (slot < 8)
  | .ringRelock engine fibre row slot, _ => pairKnown engine fibre && decide (row < 5) && decide (slot < 8)
  | .laneRejoinTimeout lane, _ => laneKnown lane
  | .laserMonitorSample m, _ => decide (m.engine < 32) && decide (m.colour < 8)
  | .laserFadeAverage levels, _ => levels.all (fun m => decide (m.engine < 32) && decide (m.colour < 8))
  | .spareLocked pos _, _ => decide (pos < 10)
  | .spareLockTimeout pos, _ => decide (pos < 10)
  | .cutoverPauseTime bay, _ => decide (bay < 8)
  | .cutoverSwitchSettled bay, _ => decide (bay < 8)
  | .cutoverComplete bay, _ => decide (bay < 8)
  | .openFibreDetect engine fibre, _ => pairKnown engine fibre
  | .backReflectionHigh engine fibre, _ => pairKnown engine fibre
  | .eyeSafetyProbe engine fibre, _ => pairKnown engine fibre
  | .eyeSafetyProbeEnd engine fibre _, _ => pairKnown engine fibre
  | .eyeSafetyRestore engine fibre, _ => pairKnown engine fibre
  | .crustChangeApply engine, _ => decide (engine < 32)
  | .crustEffective engine, _ => decide (engine < 32)
  | .blockSlot lane, _ => laneKnown lane
  | .dataBlockRx lane _, _ => laneKnown lane
  | .idleBlockRx lane _, _ => laneKnown lane
  | .localBlockRx lane _, _ => laneKnown lane
  | .nakGapTimeout port, s => portKnown s port
  | .ackTimeoutReplay port, s => portKnown s port
  | .replayLimit port, s => portKnown s port
  | .creditRepeatTick port, s => portKnown s port
  | .creditTargetTick port, s => portKnown s port
  | .creditGrantTick port, s => portKnown s port
  | .delineationLock lane, _ => laneKnown lane
  | .delineationLoss lane, _ => laneKnown lane
  | .laneErrorRate lane, _ => laneKnown lane
  | .signalDetect lane, _ => laneKnown lane
  | .lightLost lane, _ => laneKnown lane
  | .acquireLock lane, _ => laneKnown lane
  | .acquireTimeout lane, _ => laneKnown lane
  | .delineateTimeout lane, _ => laneKnown lane
  | .verifyPass lane _, _ => laneKnown lane
  | .laneMessageRx port _ _ _, s => portKnown s port
  | .pauseRx port _ _ _ _, s => portKnown s port
  | .pauseWindowEnd port, s => portKnown s port
  | .retrainRx port _, s => portKnown s port
  | .llAckRx port _ _, s => portKnown s port
  | .llRetryTick port, s => portKnown s port
  | .helloRx port _ _, s => portKnown s port
  | .helloTick port, s => portKnown s port
  | .helloWait port, s => portKnown s port
  | .creditTimeout port, s => portKnown s port
  | .resumeTimeout port, s => portKnown s port
  | .packetHeaderRx port _ _, s => portKnown s port
  | .c0PolicerRelease port, s => portKnown s port
  | .learnMsgRx slice, _ => decide (slice < 8)
  | .headroomFilled slice, _ => decide (slice < 8)
  | .injectionWrite source, _ => decide (8 ≤ source) && decide (source ≤ 17)
  | .queueStalenessExpiry port cls vc, s => portKnown s port && decide (cls < 5) && decide (vc < 2)
  | .portStalenessExpiry port, s => portKnown s port
  | .huskWaitExpiry port cls src, s => portKnown s port && decide (cls < 5) && decide (src < 17)
  | .huskMoveEnd port cls, s => portKnown s port && decide (cls < 5)
  | .bucketLockTimeout slice _, _ => decide (slice < 8)
  | .sweepTick slice _, _ => decide (slice < 8)
  | .lendIdleTimeout act res, _ => decide (act < 10) && decide (res < 4)
  | .stagingSramError unit _ _, _ => decide (unit < 64)
  | .batchWaitExpiry context, _ => decide (context < 128)
  | .replicaChoice context _ _ _, _ => decide (context < 128)
  | .tokenDispatch context _ _, _ => decide (context < 128)
  | .tokenStalenessExpiry context _ _, _ => decide (context < 128)
  | .millCopyDone slot _ _, _ => decide (slot < 16)
  | .programStalenessExpiry slot, _ => decide (slot < 16)
  | .extentRetireDone _ stack _, _ => decide (stack < 16)
  | .gristChunkStage slot _, _ => decide (slot < 64)
  | .gristLaunch slot, _ => decide (slot < 64)
  | .gristDone slot, _ => decide (slot < 64)
  | .gristStalenessExpiry slot, _ => decide (slot < 64)
  | .dmaDescriptorStart channel, _ => decide (channel < 32)
  | .dmaWriteResponse channel _ _, _ => decide (channel < 32)
  | .dmaRequestTimeout channel _ _, _ => decide (channel < 32)
  | .dmaNoBufferRetry channel _ _, _ => decide (channel < 32)
  | .dmaDescriptorStaleness channel _, _ => decide (channel < 32)
  | .dmaGraceExpiry channel, _ => decide (channel < 32)
  | .timeMsgRx port _ _, s => portKnown s port
  | .gmSeqStall port, s => portKnown s port
  | .ptpMessageRx mport _ _, _ => decide (mport < 8)
  | .dtlsHandshake mport _ _ _, _ => decide (mport < 8)
  | .commandPeelRx _ mport _ _, _ => decide (mport < 8)
  | .eventAckRx _ mport _, _ => decide (mport < 8)
  | .stepOverrun typ idx _ _, s => engineKnown s typ idx
  | .lldpTick mport, _ => decide (mport < 8)
  | .lldpRx mport _, _ => decide (mport < 8)
  | .neighborDiscoveryRx mport _ _ _ _, _ => decide (mport < 8)
  | .icmpEchoRx mport _ _ _ _ _ _, _ => decide (mport < 8)
  | .mgmtPortLinkChange mport _, _ => decide (mport < 8)
  | .l1Overrun typ idx _ _, s => engineKnown s typ idx
  | .engineReset typ idx _, s => engineKnown s typ idx
  | .l2Overrun typ idx, s => engineKnown s typ idx
  | .scopeReset isl _, _ => islandKnown isl
  | .l3Overrun isl, _ => islandKnown isl
  | .watchdogExpiry core, _ => decide (core < 4)
  | .baySelfTestDone bay, _ => decide (bay < 10)
  | .powerOn, _ | .inputUndervoltage, _ | .inputOvervoltage, _ | .inputOvercurrent, _ | .latchClear, _
  | .supplyLoss, _ | .modRstNAssert, _ | .modRstNRelease, _ | .coldStart _, _ | .startTimeout _, _
  | .warmStart _, _ | .refclkLoss, _ | .thermalTrip, _ | .throttleEvaluation _, _ | .capUnattainable, _
  | .telemetryUpdate _, _ | .coolantDeltaAlarm, _ | .startStatusRead _, _ | .jtagInstructionLoad _, _
  | .jtagTestLogicReset, _ | .powerTelemetry _, _ | .crustWindowEnd, _ | .crustLit _, _
  | .packetTrailerCheck _ _ _, _ | .stagingWrite, _ | .winnowWeightTick, _ | .proofPeriodBoundary, _
  | .contributionRx _, _ | .slotResultWritten _ _ _, _ | .gatherSend _ _ _, _ | .spillIdleTimeout _ _, _
  | .spillComplete _ _, _ | .spillRestore _ _ _, _ | .loafStalenessExpiry _ _, _ | .abortRx, _ | .reserveRx, _
  | .reservedRx, _ | .refusedRx, _ | .commitRx, _ | .committedRx, _ | .releaseRx, _ | .closeRx, _ | .closedRx, _
  | .endpointDownRx, _ | .reserveAnswerTimeout _ _, _ | .reservationExpiry _ _, _ | .commitTimeout _, _
  | .closeRepeatTick _, _ | .loafGraceExpiry _, _ | .spineRequestRx, _ | .spinePacketDiscard, _
  | .firmwareControlRx, _ | .fwOutboundDrain, _ | .summaryTick _, _ | .summaryRx, _ | .mirrorAskRx, _
  | .mirrorGrantRx, _ | .mirrorDenyRx, _ | .mirrorAskTimeout _, _ | .replyRx, _ | .dispatchRx, _
  | .routerMmaDone, _ | .expertReturnRx, _ | .millInstructionIssue, _ | .mmaDone, _ | .millGraceExpiry _, _
  | .millSramError _ _, _ | .granaryAccessRx, _ | .granaryWriteDone _, _ | .granaryReadDone _ _, _
  | .scrubLine _, _ | .regionZeroed _, _ | .mirrorReadbackDone _, _ | .timeMsgTick, _ | .parentLostTimeout, _
  | .acquiringTimeout, _ | .ppsInEdge, _ | .ppsOutSecond _, _ | .snapshotLatch _ _, _ | .crumbWrite, _
  | .sampleWrite, _ | .sessionIdleTimeout _, _ | .segmentTimeout _ _ _, _ | .commandStepDispatch, _
  | .commandDeadlineExpiry _ _, _ | .eventSend _, _ | .eventResendTimeout _, _ | .packetTooBigRx _ _, _
  | .proposalExpiry _, _ | .debugLockReturn, _ | .sessionKeyExpiry _, _ | .dumpTimeout, _ | .protectedSramError, _
  | .moduleCycleHold, _ | .cycleHoldExpiry, _ | .cycleRequestTimeout, _ | .linkSetSid _ _, _ | .linkNeighbours _, _
  | .linkLldp _ _, _ | .linkFibreLength _ _, _ | .linkLoopback _ _ _ _, _ | .linkCommission _ _ _, _
  | .linkSpareMode _ _, _ | .linkBayReturn _ _, _ | .linkRingRecord _ _, _ | .portWidth _ _, _
  | .portCompat _ _ _, _ | .portMode _ _ _, _ | .portSample _ _ _, _ | .portStale _ _ _ _, _
  | .portHuskWait _ _ _ _, _ | .portRetrain _ _, _ | .portLane _ _ _ _, _ | .portState _ _, _
  | .tableWrite _ _ _ _ _ _, _ | .tableRead _ _ _ _ _, _ | .tablePurge _ _ _ _, _ | .tableParams _ _ _, _
  | .tablePartition _ _ _ _, _ | .tableFence _ _ _, _ | .tableAdvance _ _ _, _ | .tableOpen _ _, _
  | .tableRootPriority _ _, _ | .classCreditWeight _ _ _, _ | .classSched _ _ _ _ _, _ | .classShaper _ _ _ _, _
  | .classMarker _ _ _ _, _ | .classProfile _ _ _, _ | .classQueue _ _ _ _ _ _, _ | .classBudget _ _ _ _, _
  | .classBudgetRead _, _ | .loafGroupDefine _ _ _ _ _, _ | .loafGroupDelete _ _, _ | .loafLive _ _ _ _, _
  | .loafOpen _ _ _, _ | .loafClose _ _ _ _, _ | .loafAbortCommand _ _ _, _ | .loafMemberLost _ _ _, _
  | .loafSizing _ _ _ _, _ | .loafKnead _ _ _ _ _, _ | .loafRecipes _ _, _ | .millAlloc _ _ _, _
  | .millLoad _ _ _ _ _ _, _ | .millRun _ _, _ | .millStop _ _, _ | .millContext _ _ _, _
  | .millReplicas _ _ _ _, _ | .millWeights _ _ _ _ _ _ _ _ _, _ | .millRestore _ _ _, _ | .millEnable _ _ _, _
  | .granaryCreate _ _ _ _, _ | .granaryFree _ _, _ | .granarySet _ _ _, _ | .granaryQuery _ _, _
  | .granaryMirrorOpen _ _ _ _ _ _ _, _ | .granaryMirrorCommit _ _ _ _, _ | .granaryMirrorQuery _ _, _
  | .granaryMirrorClose _ _, _ | .granaryChannelBind _ _ _ _, _ | .granaryChannelSet _ _ _, _
  | .granaryChannelStart _ _, _ | .granaryChannelStop _ _ _, _ | .granaryEnable _ _ _, _ | .gristLoad _ _ _, _
  | .gristStart _ _, _ | .gristStop _ _, _ | .gristUnload _ _, _ | .gristStatus _ _, _ | .winnowPolicy _ _ _, _
  | .winnowTags _ _, _ | .winnowPin _ _, _ | .winnowUnpin _ _, _ | .winnowCrustMask _ _ _, _ | .winnowLog _ _ _, _
  | .timeTie _ _ _ _, _ | .timeAcceptStep _ _, _ | .timeThresh _ _, _ | .timeAsym _ _ _, _ | .timePriority _ _, _
  | .timePps _ _, _ | .timeLaunchRead _ _, _ | .timeStatus _, _ | .counterRead _ _, _ | .counterSnapshot _ _, _
  | .counterFilter _ _, _ | .crumbRead _ _ _, _ | .crumbDump _, _ | .crumbTrace _ _ _ _, _
  | .resetContext _ _ _ _, _ | .resetEngine _ _ _, _ | .resetSlice _ _ _, _ | .resetChip _, _ | .resetCycle _, _
  | .quorumList _, _ | .quorumApprove _ _ _ _, _ | .quorumWithdraw _ _, _ | .keySession _ _ _, _
  | .keyLoad _ _ _ _ _ _, _ | .keyBind _ _ _ _ _ _, _ | .keyZeroize _ _ _, _ | .attestReport _ _, _
  | .attestChain _, _ | .powerCap _ _, _ | .powerStatus _, _ | .fwCaps _, _ | .fwInfo _, _ | .fwUpdate _ _ _, _
  | .fwStage _ _ _, _ | .fwCredit _ _ _, _ | .fwBindMailbox _ _ _ _, _ | .fwCredential _ _ _ _, _
  | .fwNetwork _ _ _ _ _, _ | .fwRegRead _ _ _, _ | .fwRegWrite _ _ _ _, _ | .fwDebugUnlock _ _ _, _
  | .acceptStepSampleTimeout, _ | .tieSourceTimeout, _ | .neighbourChangeHoldoffEnd, _ | .sampleReadyHoldoffEnd, _
  | .flashWriteComplete, _ => true

end Sys2Proof.Machine
end

