-- ==== Sys2Proof/MayChange.lean ====
section
/-! DEFINITION. For each command the parts of the state that it may change: its frame, as the rules of its chapter
give it. -/

set_option Elab.async false

namespace Sys2Proof.Machine

/-- Parts that a start or a reset changes. -/
def wideParts1 : List Part := [.alert, .flash, .recoveryLog, .ports,
  .packets, .queues, .room, .numbering, .firmware, .tables, .gates, .loafs, .events, .mailboxes, .mill, .regions,
  .memory, .channels, .grists, .accesses, .counters, .crumbs, .placement, .out, .linkKeys, .regionKeys,
  .keySessions]

/-- Parts that a start or a reset changes. -/
def wideParts2 : List Part := [.alert, .flash, .recoveryLog, .ports,
  .packets, .queues, .room, .numbering, .firmware, .tables, .gates, .loafs, .events, .mailboxes, .mill, .regions,
  .memory, .channels, .grists, .accesses, .counters, .crumbs, .placement, .out, .linkKeys, .regionKeys, .proposals,
  .keySessions]

/-- Parts that a start or a reset changes. -/
def wideParts3 : List Part := [.recoveryLog, .rings, .circuits,
  .time, .lanes, .ports, .packets, .queues, .room, .numbering, .firmware, .tables, .groups, .loafs, .events,
  .mailboxes, .neighbours, .mill, .regions, .memory, .channels, .mirrors, .accesses, .counters, .crumbs, .devTime,
  .out, .linkKeys, .regionKeys]

/-- Parts that a start or a reset changes. -/
def wideParts4 : List Part := [.recoveryLog, .rings, .circuits,
  .time, .lanes, .ports, .packets, .queues, .room, .numbering, .firmware, .tables, .groups, .loafs, .events,
  .mailboxes, .neighbours, .mill, .regions, .memory, .channels, .mirrors, .accesses, .counters, .crumbs, .devTime,
  .out, .linkKeys, .regionKeys, .keySessions]

/-- Parts that a start or a reset changes. -/
def wideParts5 : List Part := [.readings, .throttle, .powerCap,
  .islands, .crossings, .registers, .bays, .fibres, .circuits, .launches, .time, .lanes, .ports, .packets, .queues,
  .room, .numbering, .firmware, .tables, .rootPriority, .classes, .budgets, .gates, .groups, .loafs, .events,
  .mailboxes, .sessions, .turns, .neighbours, .mill, .memory, .channels, .grists, .mirrors, .accesses, .counters,
  .crumbs, .filters, .samples, .snapshots, .decisions, .placement, .escalation, .devTime, .linkKeys, .regionKeys,
  .proposals, .keySessions]

/-- Parts that a start or a reset changes. -/
def wideParts6 : List Part := [.readings, .throttle, .powerCap,
  .islands, .crossings, .registers, .rings, .bays, .fibres, .circuits, .launches, .time, .lanes, .ports, .packets,
  .queues, .room, .numbering, .firmware, .tables, .rootPriority, .classes, .budgets, .gates, .groups, .loafs,
  .events, .mailboxes, .sessions, .turns, .neighbours, .mill, .regions, .memory, .channels, .grists, .mirrors,
  .accesses, .counters, .crumbs, .filters, .samples, .snapshots, .decisions, .placement, .escalation, .refTime,
  .devTime, .linkKeys, .regionKeys, .proposals, .keySessions]

/-- Parts that a start or a reset changes. -/
def wideParts7 : List Part := [.alert, .readings, .throttle,
  .powerCap, .startPhase, .lastLevel, .dumpValid, .flash, .recoveryLog, .staging, .islands, .crossings, .registers,
  .rings, .bays, .fibres, .circuits, .launches, .time, .lanes, .ports, .packets, .queues, .room, .numbering,
  .firmware, .tables, .rootPriority, .classes, .budgets, .gates, .groups, .loafs, .events, .mailboxes, .sessions,
  .turns, .neighbours, .mill, .regions, .memory, .channels, .grists, .mirrors, .accesses, .counters, .crumbs,
  .filters, .samples, .snapshots, .decisions, .placement, .escalation, .refTime, .devTime, .linkKeys, .regionKeys,
  .proposals, .keySessions]

/-- Parts that a start or a reset changes. -/
def wideParts8 : List Part := [.alert, .supply, .readings,
  .throttle, .powerCap, .startPhase, .lastLevel, .dumpValid, .flash, .recoveryLog, .staging, .islands, .crossings,
  .registers, .rings, .bays, .fibres, .circuits, .launches, .time, .lanes, .ports, .packets, .queues, .room,
  .numbering, .firmware, .tables, .rootPriority, .classes, .budgets, .gates, .groups, .loafs, .events, .mailboxes,
  .sessions, .turns, .neighbours, .mill, .regions, .memory, .channels, .grists, .mirrors, .accesses, .counters,
  .crumbs, .filters, .samples, .snapshots, .decisions, .placement, .escalation, .refTime, .devTime, .linkKeys,
  .regionKeys, .proposals, .keySessions]

/-- Parts that a start or a reset changes. -/
def wideParts9 : List Part := [.alert, .supply, .readings,
  .throttle, .powerCap, .startPhase, .flash, .recoveryLog, .staging, .islands, .crossings, .registers, .rings,
  .bays, .fibres, .circuits, .launches, .time, .lanes, .ports, .packets, .queues, .room, .numbering, .firmware,
  .tables, .rootPriority, .classes, .budgets, .gates, .groups, .loafs, .events, .mailboxes, .sessions, .turns,
  .neighbours, .mill, .regions, .memory, .channels, .grists, .mirrors, .accesses, .counters, .crumbs, .filters,
  .samples, .snapshots, .decisions, .placement, .escalation, .refTime, .devTime, .linkKeys, .regionKeys,
  .proposals, .keySessions]

/-- Parts that a start or a reset changes. -/
def wideParts10 : List Part := [.alert, .supply, .readings,
  .throttle, .powerCap, .startPhase, .flash, .recoveryLog, .staging, .islands, .crossings, .registers, .rings,
  .bays, .fibres, .circuits, .launches, .time, .lanes, .ports, .packets, .queues, .room, .numbering, .firmware,
  .tables, .rootPriority, .classes, .budgets, .gates, .groups, .loafs, .events, .mailboxes, .sessions, .turns,
  .neighbours, .mill, .regions, .memory, .channels, .grists, .mirrors, .accesses, .counters, .crumbs, .filters,
  .samples, .snapshots, .decisions, .placement, .escalation, .refTime, .devTime, .free, .linkKeys, .regionKeys,
  .proposals, .keySessions]

/-- Parts that a start or a reset changes. -/
def wideParts11 : List Part := [.alert, .readings, .throttle,
  .powerCap, .startPhase, .lastLevel, .dumpValid, .recoveryLog, .staging, .islands, .crossings, .registers, .bays,
  .fibres, .circuits, .launches, .time, .lanes, .ports, .packets, .queues, .room, .numbering, .firmware, .tables,
  .rootPriority, .classes, .budgets, .gates, .groups, .loafs, .events, .mailboxes, .sessions, .turns, .neighbours,
  .mill, .memory, .channels, .grists, .mirrors, .accesses, .counters, .crumbs, .filters, .samples, .snapshots,
  .decisions, .placement, .escalation, .devTime, .linkKeys, .regionKeys, .proposals, .keySessions]

/-- Parts that a start or a reset changes. -/
def wideParts12 : List Part := [.alert, .readings, .throttle,
  .powerCap, .startPhase, .lastLevel, .dumpValid, .flash, .recoveryLog, .staging, .islands, .crossings, .registers,
  .rings, .bays, .fibres, .circuits, .launches, .time, .lanes, .ports, .packets, .queues, .room, .numbering,
  .firmware, .tables, .rootPriority, .classes, .budgets, .gates, .groups, .loafs, .events, .mailboxes, .sessions,
  .turns, .neighbours, .mill, .regions, .memory, .channels, .grists, .mirrors, .accesses, .counters, .crumbs,
  .filters, .samples, .snapshots, .decisions, .placement, .escalation, .refTime, .devTime, .free, .linkKeys,
  .regionKeys, .proposals, .keySessions]

/-- Parts that a start or a reset changes. -/
def wideParts13 : List Part := [.alert, .readings, .throttle,
  .powerCap, .startPhase, .lastLevel, .dumpValid, .flash, .recoveryLog, .staging, .islands, .crossings, .registers,
  .bays, .fibres, .circuits, .launches, .time, .lanes, .ports, .packets, .queues, .room, .numbering, .firmware,
  .tables, .rootPriority, .classes, .budgets, .gates, .groups, .loafs, .events, .mailboxes, .sessions, .turns,
  .neighbours, .mill, .memory, .channels, .grists, .mirrors, .accesses, .counters, .crumbs, .filters, .samples,
  .snapshots, .decisions, .placement, .escalation, .devTime, .linkKeys, .regionKeys, .proposals, .keySessions]

/-- Parts that a start or a reset changes. -/
def wideParts14 : List Part := [.alert, .readings, .throttle,
  .powerCap, .startPhase, .lastLevel, .dumpValid, .recoveryLog, .islands, .crossings, .registers, .rings, .bays,
  .fibres, .circuits, .launches, .time, .lanes, .ports, .packets, .queues, .room, .numbering, .firmware, .tables,
  .rootPriority, .classes, .budgets, .gates, .groups, .loafs, .events, .mailboxes, .sessions, .turns, .neighbours,
  .mill, .memory, .channels, .grists, .mirrors, .accesses, .counters, .crumbs, .filters, .samples, .snapshots,
  .decisions, .placement, .escalation, .devTime, .linkKeys, .regionKeys, .proposals, .keySessions]

/-- Parts that a start or a reset changes. -/
def wideParts15 : List Part := [.alert, .lastLevel, .recoveryLog,
  .time, .ports, .packets, .queues, .room, .numbering, .firmware, .tables, .loafs, .events, .mailboxes, .mill,
  .regions, .memory, .channels, .grists, .mirrors, .accesses, .counters, .crumbs, .snapshots, .out]

/-- Parts that a start or a reset changes. -/
def wideParts16 : List Part := [.alert, .lastLevel, .dumpValid,
  .recoveryLog, .rings, .circuits, .time, .lanes, .ports, .packets, .queues, .room, .numbering, .firmware, .tables,
  .groups, .loafs, .events, .mailboxes, .neighbours, .mill, .regions, .memory, .channels, .mirrors, .accesses,
  .counters, .crumbs, .snapshots, .escalation, .devTime, .out, .linkKeys, .regionKeys]

/-- Parts that a start or a reset changes. -/
def wideParts17 : List Part := [.alert, .lastLevel, .dumpValid,
  .recoveryLog, .islands, .crossings, .rings, .circuits, .time, .lanes, .ports, .packets, .queues, .room,
  .numbering, .firmware, .tables, .groups, .loafs, .events, .mailboxes, .neighbours, .mill, .regions, .memory,
  .channels, .mirrors, .accesses, .counters, .crumbs, .snapshots, .escalation, .devTime, .out, .linkKeys,
  .regionKeys, .keySessions]

/-- The parts of the state that a command may change; every other part is the same after it. -/
def mayChange (i : Instr) : List Part :=
  match i with
  | .powerOn => [.alert, .supply, .startPhase]
  | .inputUndervoltage => wideParts8
  | .inputOvervoltage => wideParts8
  | .inputOvercurrent => wideParts8
  | .latchClear => wideParts8
  | .supplyLoss => wideParts8
  | .modRstNAssert => wideParts8
  | .modRstNRelease => [.alert, .supply, .startPhase]
  | .coldStart _ => wideParts10
  | .startTimeout _ => wideParts13
  | .warmStart _ => wideParts12
  | .refclkLoss => wideParts8
  | .thermalTrip => wideParts8
  | .throttleEvaluation _ => [.throttle, .recoveryLog, .events, .counters, .crumbs]
  | .capUnattainable => [.throttle, .recoveryLog, .events, .counters, .crumbs]
  | .telemetryUpdate _ => [.readings]
  | .coolantDeltaAlarm => [.readings]
  | .startStatusRead _ => [.alert, .out]
  | .bayInterlockOpen _ => [.recoveryLog, .bays, .time, .lanes, .ports, .groups, .events, .neighbours, .counters,
      .crumbs, .devTime, .linkKeys]
  | .bayInserted _ => [.bays]
  | .jtagInstructionLoad _ => wideParts7
  | .jtagTestLogicReset => [.alert, .startPhase, .snapshots]
  | .pllUnlock _ => [.recoveryLog, .islands, .crossings, .time, .lanes, .ports, .packets, .queues, .room, .tables,
      .groups, .events, .mailboxes, .neighbours, .counters, .crumbs, .snapshots, .escalation, .devTime, .out,
      .linkKeys]
  | .pllRelock _ => [.islands, .escalation]
  | .pllRelockTimeout _ => [.recoveryLog, .events, .counters, .crumbs, .escalation]
  | .controlAgentAccess _ _ => [.recoveryLog, .islands, .registers, .events, .counters, .crumbs, .out]
  | .registerWrite _ _ => [.registers]
  | .addrErrClear _ _ => [.recoveryLog, .islands, .events, .counters, .crumbs]
  | .agentTimeout _ _ => [.recoveryLog, .islands, .events, .counters, .crumbs, .escalation]
  | .agentEventDelivery _ => [.islands, .registers]
  | .crossingDelivery _ _ _ => [.crossings]
  | .ringSearchFull _ _ _ _ _ => [.alert, .flash, .recoveryLog, .rings, .circuits, .time, .lanes, .ports, .groups,
      .events, .neighbours, .counters, .crumbs, .devTime, .linkKeys]
  | .ringSearchPartial _ _ _ _ _ => [.alert, .flash, .recoveryLog, .rings, .circuits, .time, .lanes, .ports,
      .groups, .events, .neighbours, .counters, .crumbs, .devTime, .linkKeys]
  | .dieTempOutOfWindow _ _ => [.recoveryLog, .rings, .circuits, .time, .lanes, .ports, .groups, .events,
      .neighbours, .counters, .crumbs, .devTime, .linkKeys]
  | .powerTelemetry _ => [.rings]
  | .ringUnlock _ _ _ _ => [.recoveryLog, .rings, .circuits, .time, .lanes, .ports, .groups, .events, .neighbours,
      .counters, .crumbs, .devTime, .linkKeys]
  | .ringRelock _ _ _ _ => [.rings, .circuits]
  | .laneRejoinTimeout _ => [.rings]
  | .laserMonitorSample _ => [.recoveryLog, .bays, .time, .lanes, .ports, .groups, .events, .neighbours, .counters,
      .crumbs, .devTime, .linkKeys]
  | .laserFadeAverage _ => [.recoveryLog, .bays, .events, .counters, .crumbs]
  | .spareLocked _ _ => [.alert, .flash, .bays, .ports]
  | .spareLockTimeout _ => [.recoveryLog, .bays, .events, .mailboxes, .counters, .crumbs, .out]
  | .cutoverPauseTime _ => [.bays, .ports]
  | .cutoverSwitchSettled _ => [.alert, .flash, .recoveryLog, .bays, .lanes, .ports, .groups, .events, .neighbours,
      .counters, .crumbs, .linkKeys]
  | .cutoverComplete _ => [.recoveryLog, .bays, .events, .mailboxes, .counters, .crumbs, .out]
  | .openFibreDetect _ _ => [.recoveryLog, .rings, .bays, .fibres, .circuits, .time, .lanes, .ports, .groups,
      .events, .neighbours, .counters, .crumbs, .devTime, .linkKeys]
  | .backReflectionHigh _ _ => [.recoveryLog, .events, .counters, .crumbs]
  | .eyeSafetyProbe _ _ => [.recoveryLog, .fibres, .events, .counters, .crumbs]
  | .eyeSafetyProbeEnd _ _ _ => [.fibres]
  | .eyeSafetyRestore _ _ => [.recoveryLog, .rings, .bays, .fibres, .circuits, .events, .counters, .crumbs]
  | .crustWindowEnd => [.recoveryLog, .circuits, .events, .counters, .crumbs, .decisions, .placement]
  | .crustChangeApply _ => [.recoveryLog, .circuits, .ports, .events, .mailboxes, .counters, .crumbs, .out]
  | .crustEffective _ => [.recoveryLog, .rings, .fibres, .circuits, .time, .lanes, .ports, .groups, .events,
      .neighbours, .counters, .crumbs, .devTime, .linkKeys]
  | .crustLit _ => [.recoveryLog, .rings, .circuits, .ports, .events, .counters, .crumbs]
  | .blockSlot _ => [.recoveryLog, .launches, .ports, .packets, .queues, .room, .numbering, .classes, .events,
      .counters, .crumbs, .out]
  | .dataBlockRx _ _ => [.recoveryLog, .time, .lanes, .ports, .packets, .queues, .room, .classes, .groups, .events,
      .neighbours, .counters, .crumbs, .devTime, .linkKeys]
  | .idleBlockRx _ _ => [.recoveryLog, .time, .lanes, .ports, .packets, .queues, .room, .classes, .groups, .events,
      .neighbours, .counters, .crumbs, .devTime, .linkKeys]
  | .localBlockRx _ _ => [.recoveryLog, .time, .lanes, .ports, .packets, .queues, .room, .classes, .groups,
      .events, .neighbours, .counters, .crumbs, .devTime, .linkKeys]
  | .nakGapTimeout _ => [.recoveryLog, .ports, .events, .counters, .crumbs]
  | .ackTimeoutReplay _ => [.recoveryLog, .ports, .events, .counters, .crumbs]
  | .replayLimit _ => [.recoveryLog, .time, .lanes, .ports, .groups, .events, .neighbours, .counters, .crumbs,
      .devTime, .linkKeys]
  | .creditRepeatTick _ => [.ports]
  | .creditTargetTick _ => [.ports]
  | .creditGrantTick _ => [.ports]
  | .delineationLock _ => [.lanes]
  | .delineationLoss _ => [.recoveryLog, .time, .lanes, .ports, .groups, .events, .neighbours, .counters, .crumbs,
      .devTime, .linkKeys]
  | .laneErrorRate _ => [.recoveryLog, .time, .lanes, .ports, .groups, .events, .neighbours, .counters, .crumbs,
      .devTime, .linkKeys]
  | .signalDetect _ => [.lanes]
  | .lightLost _ => [.recoveryLog, .time, .lanes, .ports, .groups, .events, .neighbours, .counters, .crumbs,
      .devTime, .linkKeys]
  | .acquireLock _ => [.lanes]
  | .acquireTimeout _ => [.recoveryLog, .lanes, .events, .counters, .crumbs]
  | .delineateTimeout _ => [.lanes]
  | .verifyPass _ _ => [.recoveryLog, .lanes, .ports, .groups, .events, .neighbours, .counters, .crumbs, .linkKeys]
  | .laneMessageRx _ _ _ _ => [.recoveryLog, .time, .lanes, .ports, .groups, .events, .neighbours, .counters,
      .crumbs, .devTime, .linkKeys]
  | .pauseRx _ _ _ _ _ => [.ports]
  | .pauseWindowEnd _ => [.recoveryLog, .time, .lanes, .ports, .groups, .events, .neighbours, .counters, .crumbs,
      .devTime, .linkKeys]
  | .retrainRx _ _ => [.recoveryLog, .time, .lanes, .ports, .groups, .events, .neighbours, .counters, .crumbs,
      .devTime, .linkKeys]
  | .llAckRx _ _ _ => [.lanes, .ports]
  | .llRetryTick _ => [.recoveryLog, .ports, .events, .counters, .crumbs]
  | .helloRx _ _ _ => [.recoveryLog, .time, .lanes, .ports, .packets, .queues, .room, .tables, .classes, .groups,
      .events, .neighbours, .counters, .crumbs, .devTime, .linkKeys]
  | .helloTick _ => [.ports]
  | .helloWait _ => [.recoveryLog, .events, .counters, .crumbs]
  | .creditTimeout _ => [.recoveryLog, .time, .lanes, .ports, .packets, .queues, .room, .tables, .groups, .events,
      .neighbours, .counters, .crumbs, .devTime, .linkKeys]
  | .resumeTimeout _ => [.recoveryLog, .time, .lanes, .ports, .packets, .queues, .room, .tables, .groups, .events,
      .neighbours, .counters, .crumbs, .devTime, .linkKeys]
  | .packetHeaderRx _ _ _ => [.recoveryLog, .ports, .packets, .queues, .room, .tables, .classes, .gates, .events,
      .counters, .crumbs, .samples, .placement, .free]
  | .c0PolicerRelease _ => [.recoveryLog, .ports, .packets, .queues, .room, .tables, .classes, .events, .counters,
      .crumbs, .placement]
  | .packetTrailerCheck _ _ _ => [.recoveryLog, .ports, .packets, .queues, .room, .firmware, .tables, .events,
      .counters, .crumbs, .linkKeys]
  | .learnMsgRx _ => [.recoveryLog, .tables, .gates, .events, .counters, .crumbs]
  | .stagingWrite => [.ports, .packets, .room, .firmware]
  | .headroomFilled _ => [.recoveryLog, .ports, .groups, .events, .neighbours, .counters, .crumbs, .linkKeys]
  | .injectionWrite _ => [.recoveryLog, .ports, .packets, .queues, .room, .numbering, .firmware, .tables, .loafs,
      .events, .mailboxes, .regions, .counters, .crumbs, .out]
  | .queueStalenessExpiry _ _ _ => [.alert, .lastLevel, .recoveryLog, .time, .lanes, .ports, .packets, .queues,
      .room, .tables, .groups, .events, .neighbours, .counters, .crumbs, .escalation, .devTime, .linkKeys]
  | .portStalenessExpiry _ => [.alert, .lastLevel, .recoveryLog, .time, .lanes, .ports, .packets, .queues, .room,
      .tables, .groups, .events, .neighbours, .counters, .crumbs, .escalation, .devTime, .linkKeys]
  | .huskWaitExpiry _ _ _ => [.recoveryLog, .ports, .packets, .queues, .room, .tables, .events, .counters, .crumbs]
  | .huskMoveEnd _ _ => [.queues]
  | .bucketLockTimeout _ _ => [.alert, .lastLevel, .recoveryLog, .tables, .events, .mailboxes, .counters, .crumbs,
      .out]
  | .sweepTick _ _ => [.recoveryLog, .tables, .events, .counters, .crumbs]
  | .winnowWeightTick => [.recoveryLog, .tables, .events, .counters, .crumbs]
  | .proofPeriodBoundary => [.recoveryLog, .budgets, .gates, .events, .counters, .crumbs]
  | .lendIdleTimeout _ _ => [.gates]
  | .contributionRx _ => [.recoveryLog, .ports, .packets, .queues, .room, .numbering, .firmware, .tables, .gates,
      .loafs, .events, .mailboxes, .regions, .memory, .mirrors, .counters, .crumbs, .out]
  | .slotResultWritten _ _ _ => [.recoveryLog, .ports, .packets, .queues, .room, .numbering, .firmware, .tables,
      .loafs, .events, .mailboxes, .regions, .counters, .crumbs, .out]
  | .gatherSend _ _ _ => [.recoveryLog, .ports, .packets, .queues, .room, .numbering, .firmware, .tables, .gates,
      .loafs, .events, .mailboxes, .regions, .memory, .mirrors, .counters, .crumbs, .out]
  | .spillIdleTimeout _ _ => [.loafs]
  | .spillComplete _ _ => [.recoveryLog, .gates, .loafs, .events, .memory, .counters, .crumbs]
  | .spillRestore _ _ _ => [.recoveryLog, .ports, .packets, .queues, .room, .numbering, .firmware, .tables, .gates,
      .loafs, .events, .mailboxes, .regions, .memory, .mirrors, .counters, .crumbs, .out]
  | .loafStalenessExpiry _ _ => [.alert, .lastLevel, .recoveryLog, .ports, .packets, .queues, .room, .numbering,
      .firmware, .tables, .loafs, .events, .mailboxes, .regions, .counters, .crumbs, .out]
  | .abortRx => [.recoveryLog, .ports, .packets, .queues, .room, .numbering, .firmware, .tables, .loafs, .events,
      .mailboxes, .regions, .counters, .crumbs, .out]
  | .stagingSramError _ _ _ => [.recoveryLog, .ports, .packets, .queues, .room, .numbering, .firmware, .tables,
      .loafs, .events, .mailboxes, .regions, .counters, .crumbs, .out]
  | .reserveRx => [.recoveryLog, .ports, .packets, .queues, .room, .numbering, .firmware, .tables, .loafs, .events,
      .regions, .counters, .crumbs, .decisions]
  | .reservedRx => [.recoveryLog, .ports, .packets, .queues, .room, .numbering, .firmware, .tables, .loafs,
      .events, .mailboxes, .counters, .crumbs, .decisions, .out]
  | .refusedRx => [.recoveryLog, .ports, .packets, .queues, .room, .numbering, .firmware, .tables, .loafs, .events,
      .mailboxes, .counters, .crumbs, .decisions, .out]
  | .commitRx => [.recoveryLog, .ports, .packets, .queues, .room, .numbering, .firmware, .tables, .loafs, .events,
      .counters, .crumbs]
  | .committedRx => [.recoveryLog, .firmware, .loafs, .events, .mailboxes, .counters, .crumbs, .out]
  | .releaseRx => [.recoveryLog, .ports, .packets, .queues, .room, .numbering, .firmware, .tables, .loafs, .events,
      .mailboxes, .regions, .counters, .crumbs, .out]
  | .closeRx => [.recoveryLog, .ports, .packets, .queues, .room, .numbering, .firmware, .tables, .loafs, .events,
      .mailboxes, .regions, .counters, .crumbs, .out]
  | .closedRx => [.recoveryLog, .firmware, .loafs, .events, .mailboxes, .counters, .crumbs, .out]
  | .endpointDownRx => [.recoveryLog, .ports, .packets, .queues, .room, .numbering, .firmware, .tables, .loafs,
      .events, .mailboxes, .mill, .regions, .counters, .crumbs, .out]
  | .reserveAnswerTimeout _ _ => [.recoveryLog, .ports, .packets, .queues, .room, .numbering, .firmware, .tables,
      .loafs, .events, .mailboxes, .counters, .crumbs, .decisions, .out]
  | .reservationExpiry _ _ => [.recoveryLog, .loafs, .events, .regions, .counters, .crumbs]
  | .commitTimeout _ => [.recoveryLog, .ports, .packets, .queues, .room, .numbering, .firmware, .tables, .loafs,
      .events, .mailboxes, .counters, .crumbs, .out]
  | .closeRepeatTick _ => [.recoveryLog, .ports, .packets, .queues, .room, .numbering, .firmware, .tables, .loafs,
      .events, .mailboxes, .counters, .crumbs, .out]
  | .loafGraceExpiry _ => [.recoveryLog, .ports, .packets, .queues, .room, .numbering, .firmware, .tables, .loafs,
      .events, .mailboxes, .regions, .counters, .crumbs, .out]
  | .spineRequestRx => [.recoveryLog, .ports, .packets, .queues, .room, .numbering, .firmware, .tables, .gates,
      .events, .counters, .crumbs]
  | .spinePacketDiscard => [.recoveryLog, .ports, .packets, .room, .firmware, .gates, .events, .counters, .crumbs]
  | .firmwareControlRx => [.recoveryLog, .ports, .packets, .room, .firmware, .events, .counters, .crumbs]
  | .fwOutboundDrain => [.recoveryLog, .ports, .packets, .queues, .room, .numbering, .firmware, .tables, .events,
      .counters, .crumbs]
  | .summaryTick _ => [.recoveryLog, .ports, .packets, .queues, .room, .numbering, .firmware, .tables, .events,
      .mirrors, .counters, .crumbs, .placement]
  | .summaryRx => [.firmware, .placement]
  | .mirrorAskRx => [.recoveryLog, .ports, .packets, .queues, .room, .numbering, .firmware, .tables, .events,
      .regions, .counters, .crumbs, .decisions]
  | .mirrorGrantRx => [.recoveryLog, .firmware, .events, .mailboxes, .regions, .mirrors, .counters, .crumbs,
      .decisions, .out]
  | .mirrorDenyRx => [.recoveryLog, .ports, .packets, .queues, .room, .numbering, .firmware, .tables, .events,
      .mailboxes, .regions, .mirrors, .counters, .crumbs, .decisions, .out]
  | .mirrorAskTimeout _ => [.recoveryLog, .ports, .packets, .queues, .room, .numbering, .firmware, .tables,
      .events, .mailboxes, .regions, .mirrors, .counters, .crumbs, .decisions, .out]
  | .replyRx => [.recoveryLog, .ports, .packets, .room, .firmware, .events, .mailboxes, .memory, .channels,
      .accesses, .counters, .crumbs, .out]
  | .dispatchRx => [.recoveryLog, .ports, .packets, .queues, .room, .numbering, .firmware, .tables, .events, .mill,
      .counters, .crumbs]
  | .batchWaitExpiry _ => [.mill]
  | .routerMmaDone => [.recoveryLog, .ports, .packets, .queues, .room, .numbering, .firmware, .tables, .events,
      .mailboxes, .mill, .counters, .crumbs, .out]
  | .replicaChoice _ _ _ _ => [.recoveryLog, .events, .mill, .counters, .crumbs]
  | .tokenDispatch _ _ _ => [.recoveryLog, .ports, .packets, .queues, .room, .numbering, .firmware, .tables,
      .events, .mailboxes, .mill, .counters, .crumbs, .out]
  | .expertReturnRx => [.recoveryLog, .ports, .packets, .queues, .room, .numbering, .firmware, .tables, .events,
      .mailboxes, .mill, .counters, .crumbs, .out]
  | .tokenStalenessExpiry _ _ _ => [.alert, .lastLevel, .recoveryLog, .ports, .packets, .queues, .room, .numbering,
      .firmware, .tables, .events, .mailboxes, .mill, .counters, .crumbs, .out]
  | .millInstructionIssue => [.recoveryLog, .events, .mailboxes, .mill, .counters, .crumbs, .out]
  | .mmaDone => [.recoveryLog, .events, .mailboxes, .mill, .counters, .crumbs, .out]
  | .millCopyDone _ _ _ => [.recoveryLog, .gates, .events, .mailboxes, .mill, .regions, .memory, .mirrors,
      .counters, .crumbs, .out]
  | .programStalenessExpiry _ => [.alert, .lastLevel, .recoveryLog, .events, .mailboxes, .mill, .counters, .crumbs,
      .out]
  | .millGraceExpiry _ => [.recoveryLog, .ports, .packets, .queues, .room, .numbering, .firmware, .tables, .events,
      .mailboxes, .mill, .counters, .crumbs, .out]
  | .millSramError _ _ => [.recoveryLog, .ports, .packets, .queues, .room, .numbering, .firmware, .tables, .events,
      .mailboxes, .mill, .counters, .crumbs, .out]
  | .granaryAccessRx => [.recoveryLog, .ports, .packets, .queues, .room, .numbering, .firmware, .tables, .gates,
      .events, .memory, .channels, .accesses, .counters, .crumbs]
  | .granaryWriteDone _ => [.recoveryLog, .ports, .packets, .queues, .room, .numbering, .firmware, .tables,
      .events, .accesses, .counters, .crumbs]
  | .granaryReadDone _ _ => [.recoveryLog, .ports, .packets, .queues, .room, .numbering, .firmware, .tables,
      .events, .regions, .memory, .mirrors, .accesses, .counters, .crumbs]
  | .extentRetireDone _ _ _ => [.recoveryLog, .gates, .events, .regions, .counters, .crumbs]
  | .scrubLine _ => [.recoveryLog, .gates, .events, .regions, .memory, .mirrors, .accesses, .counters, .crumbs]
  | .regionZeroed _ => [.gates, .regions, .memory]
  | .mirrorReadbackDone _ => [.recoveryLog, .gates, .events, .mailboxes, .regions, .mirrors, .counters, .crumbs,
      .out]
  | .gristChunkStage _ _ => [.recoveryLog, .ports, .packets, .queues, .room, .numbering, .firmware, .tables,
      .gates, .events, .regions, .memory, .grists, .mirrors, .counters, .crumbs]
  | .gristLaunch _ => [.recoveryLog, .ports, .packets, .queues, .room, .numbering, .firmware, .tables, .events,
      .grists, .counters, .crumbs]
  | .gristDone _ => [.recoveryLog, .events, .grists, .counters, .crumbs]
  | .gristStalenessExpiry _ => [.alert, .lastLevel, .recoveryLog, .room, .grists, .counters, .crumbs]
  | .dmaDescriptorStart _ => [.recoveryLog, .ports, .packets, .queues, .room, .numbering, .firmware, .tables,
      .gates, .events, .mailboxes, .memory, .channels, .accesses, .counters, .crumbs, .out]
  | .dmaWriteResponse _ _ _ => [.recoveryLog, .gates, .events, .mailboxes, .regions, .memory, .channels, .mirrors,
      .accesses, .counters, .crumbs, .out]
  | .dmaRequestTimeout _ _ _ => [.recoveryLog, .ports, .packets, .queues, .room, .numbering, .firmware, .tables,
      .events, .mailboxes, .memory, .channels, .accesses, .counters, .crumbs, .out]
  | .dmaNoBufferRetry _ _ _ => [.recoveryLog, .ports, .packets, .queues, .room, .numbering, .firmware, .tables,
      .events, .mailboxes, .memory, .channels, .accesses, .counters, .crumbs, .out]
  | .dmaDescriptorStaleness _ _ => [.alert, .lastLevel, .recoveryLog, .events, .mailboxes, .memory, .channels,
      .accesses, .counters, .crumbs, .out]
  | .dmaGraceExpiry _ => [.recoveryLog, .events, .mailboxes, .memory, .channels, .accesses, .counters, .crumbs,
      .out]
  | .timeMsgTick => [.time, .ports]
  | .timeMsgRx _ _ _ => [.recoveryLog, .time, .ports, .packets, .queues, .room, .numbering, .firmware, .tables,
      .budgets, .gates, .events, .mailboxes, .grists, .counters, .crumbs, .devTime, .out]
  | .parentLostTimeout => [.recoveryLog, .time, .counters, .crumbs, .devTime]
  | .gmSeqStall _ => [.recoveryLog, .time, .counters, .crumbs, .devTime]
  | .acquiringTimeout => [.recoveryLog, .time, .counters, .crumbs]
  | .ppsInEdge => [.recoveryLog, .time, .ports, .packets, .queues, .room, .numbering, .firmware, .tables, .budgets,
      .gates, .events, .mailboxes, .grists, .counters, .crumbs, .devTime, .out]
  | .ppsOutSecond _ => [.time, .out]
  | .ptpMessageRx _ _ _ => [.recoveryLog, .time, .ports, .packets, .queues, .room, .numbering, .firmware, .tables,
      .budgets, .gates, .events, .mailboxes, .grists, .counters, .crumbs, .devTime, .out]
  | .snapshotLatch _ _ => [.recoveryLog, .events, .mailboxes, .counters, .crumbs, .snapshots, .out]
  | .crumbWrite => [.recoveryLog, .gates, .events, .memory, .counters, .crumbs]
  | .sampleWrite => [.recoveryLog, .gates, .events, .memory, .counters, .crumbs, .samples]
  | .dtlsHandshake _ _ _ _ => [.recoveryLog, .events, .sessions, .counters, .crumbs]
  | .sessionIdleTimeout _ => [.mailboxes, .sessions]
  | .commandPeelRx _ _ _ _ => [.recoveryLog, .events, .mailboxes, .sessions, .counters, .crumbs, .out]
  | .segmentTimeout _ _ _ => [.recoveryLog, .events, .mailboxes, .counters, .crumbs]
  | .eventAckRx _ _ _ => [.recoveryLog, .events, .mailboxes, .sessions, .counters, .crumbs, .out]
  | .commandStepDispatch => [.mailboxes, .turns]
  | .commandDeadlineExpiry _ _ => [.alert, .lastLevel, .recoveryLog, .time, .ports, .packets, .queues, .room,
      .numbering, .firmware, .tables, .loafs, .events, .mailboxes, .mill, .mirrors, .counters, .crumbs, .snapshots,
      .out]
  | .stepOverrun _ _ _ _ => [.recoveryLog, .events, .counters, .crumbs, .escalation]
  | .eventSend _ => [.recoveryLog, .events, .counters, .crumbs, .out]
  | .eventResendTimeout _ => [.recoveryLog, .events, .counters, .crumbs, .out]
  | .lldpTick _ => [.recoveryLog, .events, .counters, .crumbs, .out]
  | .lldpRx _ _ => [.recoveryLog, .events, .sessions, .counters, .crumbs]
  | .neighborDiscoveryRx _ _ _ _ _ => [.recoveryLog, .events, .counters, .crumbs, .out]
  | .icmpEchoRx _ _ _ _ _ _ _ => [.recoveryLog, .events, .counters, .crumbs, .out]
  | .packetTooBigRx _ _ => [.sessions]
  | .mgmtPortLinkChange _ _ => [.recoveryLog, .events, .mailboxes, .sessions, .counters, .crumbs, .out]
  | .proposalExpiry _ => [.recoveryLog, .events, .counters, .crumbs, .proposals]
  | .debugLockReturn => [.keySessions]
  | .sessionKeyExpiry _ => [.keySessions]
  | .l1Overrun _ _ _ _ => [.recoveryLog, .events, .counters, .crumbs, .escalation]
  | .engineReset _ _ _ => wideParts16
  | .l2Overrun _ _ => [.recoveryLog, .events, .counters, .crumbs, .escalation]
  | .scopeReset _ _ => wideParts17
  | .l3Overrun _ => [.recoveryLog, .events, .counters, .crumbs, .escalation]
  | .dumpTimeout => [.alert, .dumpValid, .escalation]
  | .watchdogExpiry _ => [.alert, .dumpValid, .recoveryLog, .events, .memory, .counters, .crumbs, .snapshots,
      .escalation]
  | .protectedSramError => [.recoveryLog, .events, .counters, .crumbs, .escalation]
  | .moduleCycleHold => wideParts14
  | .cycleHoldExpiry => [.alert, .supply, .startPhase, .flash, .islands, .events, .mailboxes, .sessions, .turns]
  | .cycleRequestTimeout => [.supply, .islands, .rings, .bays, .circuits]
  | .linkSetSid _ _ => [.alert, .flash, .recoveryLog, .time, .lanes, .ports, .packets, .queues, .room, .tables,
      .groups, .events, .mailboxes, .neighbours, .counters, .crumbs, .devTime, .out, .linkKeys]
  | .linkNeighbours _ => [.recoveryLog, .events, .mailboxes, .counters, .crumbs, .out]
  | .linkLldp _ _ => [.recoveryLog, .events, .mailboxes, .counters, .crumbs, .out]
  | .linkFibreLength _ _ => [.recoveryLog, .fibres, .groups, .events, .mailboxes, .neighbours, .counters, .crumbs,
      .out]
  | .linkLoopback _ _ _ _ => [.recoveryLog, .fibres, .circuits, .events, .mailboxes, .counters, .crumbs, .out]
  | .linkCommission _ _ _ => [.alert, .flash, .recoveryLog, .events, .mailboxes, .counters, .crumbs, .out]
  | .linkSpareMode _ _ => [.recoveryLog, .bays, .events, .mailboxes, .counters, .crumbs, .out]
  | .linkBayReturn _ _ => [.recoveryLog, .bays, .events, .mailboxes, .counters, .crumbs, .out]
  | .linkRingRecord _ _ => [.recoveryLog, .events, .mailboxes, .counters, .crumbs, .out]
  | .portWidth _ _ => [.recoveryLog, .time, .lanes, .ports, .packets, .queues, .room, .tables, .groups, .events,
      .mailboxes, .neighbours, .counters, .crumbs, .devTime, .out, .linkKeys]
  | .portCompat _ _ _ => [.recoveryLog, .ports, .events, .mailboxes, .counters, .crumbs, .out]
  | .portMode _ _ _ => [.recoveryLog, .ports, .events, .mailboxes, .counters, .crumbs, .out]
  | .portSample _ _ _ => [.recoveryLog, .ports, .events, .mailboxes, .counters, .crumbs, .out]
  | .portStale _ _ _ _ => [.recoveryLog, .ports, .events, .mailboxes, .counters, .crumbs, .out]
  | .portHuskWait _ _ _ _ => [.recoveryLog, .ports, .events, .mailboxes, .counters, .crumbs, .out]
  | .portRetrain _ _ => [.recoveryLog, .time, .lanes, .ports, .groups, .events, .mailboxes, .neighbours, .counters,
      .crumbs, .devTime, .out, .linkKeys]
  | .portLane _ _ _ _ => [.recoveryLog, .time, .lanes, .ports, .groups, .events, .mailboxes, .neighbours,
      .counters, .crumbs, .devTime, .out, .linkKeys]
  | .portState _ _ => [.recoveryLog, .events, .mailboxes, .counters, .crumbs, .out]
  | .tableWrite _ _ _ _ _ _ => [.recoveryLog, .tables, .gates, .events, .mailboxes, .counters, .crumbs, .out]
  | .tableRead _ _ _ _ _ => [.recoveryLog, .gates, .events, .mailboxes, .counters, .crumbs, .out]
  | .tablePurge _ _ _ _ => [.recoveryLog, .tables, .gates, .events, .mailboxes, .counters, .crumbs, .out]
  | .tableParams _ _ _ => [.recoveryLog, .tables, .events, .mailboxes, .counters, .crumbs, .out]
  | .tablePartition _ _ _ _ => [.recoveryLog, .events, .mailboxes, .counters, .crumbs, .free, .out, .proposals]
  | .tableFence _ _ _ => [.recoveryLog, .ports, .packets, .queues, .room, .numbering, .firmware, .tables, .gates,
      .loafs, .events, .mailboxes, .mill, .regions, .memory, .channels, .grists, .accesses, .counters, .crumbs,
      .out]
  | .tableAdvance _ _ _ => [.recoveryLog, .tables, .gates, .events, .mailboxes, .counters, .crumbs, .out]
  | .tableOpen _ _ => [.recoveryLog, .tables, .gates, .events, .mailboxes, .counters, .crumbs, .out]
  | .tableRootPriority _ _ => [.recoveryLog, .rootPriority, .events, .mailboxes, .counters, .crumbs, .out]
  | .classCreditWeight _ _ _ => [.recoveryLog, .ports, .events, .mailboxes, .counters, .crumbs, .out]
  | .classSched _ _ _ _ _ => [.recoveryLog, .classes, .events, .mailboxes, .counters, .crumbs, .out]
  | .classShaper _ _ _ _ => [.recoveryLog, .classes, .events, .mailboxes, .counters, .crumbs, .out]
  | .classMarker _ _ _ _ => [.recoveryLog, .classes, .events, .mailboxes, .counters, .crumbs, .out]
  | .classProfile _ _ _ => [.recoveryLog, .classes, .events, .mailboxes, .counters, .crumbs, .out]
  | .classQueue _ _ _ _ _ _ => [.recoveryLog, .classes, .events, .mailboxes, .counters, .crumbs, .out]
  | .classBudget _ _ _ _ => [.recoveryLog, .budgets, .events, .mailboxes, .counters, .crumbs, .out]
  | .classBudgetRead _ => [.recoveryLog, .events, .mailboxes, .counters, .crumbs, .out]
  | .loafGroupDefine _ _ _ _ _ => [.recoveryLog, .groups, .events, .mailboxes, .counters, .crumbs, .out]
  | .loafGroupDelete _ _ => [.recoveryLog, .groups, .events, .mailboxes, .counters, .crumbs, .out]
  | .loafLive _ _ _ _ => [.recoveryLog, .groups, .events, .mailboxes, .counters, .crumbs, .out]
  | .loafOpen _ _ _ => [.recoveryLog, .ports, .packets, .queues, .room, .numbering, .firmware, .tables, .loafs,
      .events, .mailboxes, .counters, .crumbs, .decisions, .out]
  | .loafClose _ _ _ _ => [.recoveryLog, .ports, .packets, .queues, .room, .numbering, .firmware, .tables, .loafs,
      .events, .mailboxes, .regions, .counters, .crumbs, .out]
  | .loafAbortCommand _ _ _ => [.recoveryLog, .ports, .packets, .queues, .room, .numbering, .firmware, .tables,
      .loafs, .events, .mailboxes, .regions, .counters, .crumbs, .out]
  | .loafMemberLost _ _ _ => [.recoveryLog, .ports, .packets, .queues, .room, .numbering, .firmware, .tables,
      .loafs, .events, .mailboxes, .regions, .counters, .crumbs, .out]
  | .loafSizing _ _ _ _ => [.recoveryLog, .groups, .events, .mailboxes, .counters, .crumbs, .out]
  | .loafKnead _ _ _ _ _ => [.alert, .flash, .recoveryLog, .loafs, .events, .mailboxes, .counters, .crumbs, .out]
  | .loafRecipes _ _ => [.recoveryLog, .events, .mailboxes, .counters, .crumbs, .out]
  | .millAlloc _ _ _ => [.recoveryLog, .events, .mailboxes, .mill, .counters, .crumbs, .out]
  | .millLoad _ _ _ _ _ _ => [.recoveryLog, .events, .mailboxes, .mill, .counters, .crumbs, .out]
  | .millRun _ _ => [.recoveryLog, .events, .mailboxes, .mill, .counters, .crumbs, .out]
  | .millStop _ _ => [.recoveryLog, .events, .mailboxes, .mill, .counters, .crumbs, .out]
  | .millContext _ _ _ => [.recoveryLog, .events, .mailboxes, .mill, .counters, .crumbs, .decisions, .out]
  | .millReplicas _ _ _ _ => [.recoveryLog, .events, .mailboxes, .mill, .counters, .crumbs, .out]
  | .millWeights _ _ _ _ _ _ _ _ _ => [.recoveryLog, .gates, .events, .mailboxes, .mill, .regions, .memory,
      .mirrors, .counters, .crumbs, .out]
  | .millRestore _ _ _ => [.recoveryLog, .events, .mailboxes, .mill, .counters, .crumbs, .out]
  | .millEnable _ _ _ => [.alert, .flash, .recoveryLog, .events, .mailboxes, .mill, .counters, .crumbs, .out]
  | .granaryCreate _ _ _ _ => [.recoveryLog, .events, .mailboxes, .regions, .counters, .crumbs, .decisions, .out]
  | .granaryFree _ _ => [.recoveryLog, .events, .mailboxes, .regions, .counters, .crumbs, .out]
  | .granarySet _ _ _ => [.recoveryLog, .events, .mailboxes, .regions, .counters, .crumbs, .free, .out, .proposals]
  | .granaryQuery _ _ => [.recoveryLog, .events, .mailboxes, .counters, .crumbs, .out]
  | .granaryMirrorOpen _ _ _ _ _ _ _ => [.recoveryLog, .ports, .packets, .queues, .room, .numbering, .firmware,
      .tables, .events, .mailboxes, .regions, .mirrors, .counters, .crumbs, .decisions, .out]
  | .granaryMirrorCommit _ _ _ _ => [.recoveryLog, .events, .mailboxes, .mirrors, .counters, .crumbs, .out]
  | .granaryMirrorQuery _ _ => [.recoveryLog, .events, .mailboxes, .counters, .crumbs, .out]
  | .granaryMirrorClose _ _ => [.recoveryLog, .events, .mailboxes, .regions, .mirrors, .counters, .crumbs, .out]
  | .granaryChannelBind _ _ _ _ => [.recoveryLog, .events, .mailboxes, .channels, .counters, .crumbs, .out]
  | .granaryChannelSet _ _ _ => [.recoveryLog, .events, .mailboxes, .channels, .counters, .crumbs, .out]
  | .granaryChannelStart _ _ => [.recoveryLog, .events, .mailboxes, .channels, .counters, .crumbs, .out]
  | .granaryChannelStop _ _ _ => [.recoveryLog, .events, .mailboxes, .channels, .accesses, .counters, .crumbs,
      .out]
  | .granaryEnable _ _ _ => [.alert, .flash, .recoveryLog, .events, .mailboxes, .channels, .accesses, .counters,
      .crumbs, .out]
  | .gristLoad _ _ _ => [.recoveryLog, .events, .mailboxes, .grists, .counters, .crumbs, .out]
  | .gristStart _ _ => [.recoveryLog, .events, .mailboxes, .grists, .counters, .crumbs, .out]
  | .gristStop _ _ => [.recoveryLog, .room, .events, .mailboxes, .grists, .counters, .crumbs, .out]
  | .gristUnload _ _ => [.recoveryLog, .events, .mailboxes, .grists, .counters, .crumbs, .out]
  | .gristStatus _ _ => [.recoveryLog, .events, .mailboxes, .counters, .crumbs, .out]
  | .winnowPolicy _ _ _ => [.recoveryLog, .events, .mailboxes, .counters, .crumbs, .placement, .free, .out,
      .proposals]
  | .winnowTags _ _ => [.recoveryLog, .events, .mailboxes, .counters, .crumbs, .placement, .out]
  | .winnowPin _ _ => [.recoveryLog, .tables, .events, .mailboxes, .counters, .crumbs, .decisions, .placement,
      .out]
  | .winnowUnpin _ _ => [.recoveryLog, .tables, .events, .mailboxes, .counters, .crumbs, .decisions, .placement,
      .out]
  | .winnowCrustMask _ _ _ => [.recoveryLog, .events, .mailboxes, .counters, .crumbs, .placement, .out]
  | .winnowLog _ _ _ => [.recoveryLog, .events, .mailboxes, .counters, .crumbs, .out]
  | .timeTie _ _ _ _ => [.recoveryLog, .time, .ports, .packets, .queues, .room, .numbering, .firmware, .tables,
      .budgets, .gates, .events, .mailboxes, .grists, .counters, .crumbs, .devTime, .out]
  | .timeAcceptStep _ _ => [.recoveryLog, .time, .events, .mailboxes, .counters, .crumbs, .out]
  | .timeThresh _ _ => [.recoveryLog, .time, .events, .mailboxes, .counters, .crumbs, .out]
  | .timeAsym _ _ _ => [.recoveryLog, .ports, .events, .mailboxes, .counters, .crumbs, .out]
  | .timePriority _ _ => [.recoveryLog, .time, .events, .mailboxes, .counters, .crumbs, .out]
  | .timePps _ _ => [.recoveryLog, .time, .events, .mailboxes, .counters, .crumbs, .out]
  | .timeLaunchRead _ _ => [.recoveryLog, .launches, .events, .mailboxes, .counters, .crumbs, .out]
  | .timeStatus _ => [.recoveryLog, .events, .mailboxes, .counters, .crumbs, .out]
  | .counterRead _ _ => [.recoveryLog, .events, .mailboxes, .counters, .crumbs, .out]
  | .counterSnapshot _ _ => [.recoveryLog, .events, .mailboxes, .counters, .crumbs, .snapshots, .out]
  | .counterFilter _ _ => [.recoveryLog, .events, .mailboxes, .counters, .crumbs, .filters, .out]
  | .crumbRead _ _ _ => [.recoveryLog, .gates, .events, .mailboxes, .counters, .crumbs, .out]
  | .crumbDump _ => [.alert, .dumpValid, .recoveryLog, .events, .mailboxes, .memory, .counters, .crumbs,
      .snapshots, .out]
  | .crumbTrace _ _ _ _ => [.recoveryLog, .events, .mailboxes, .counters, .crumbs, .filters, .out]
  | .resetContext _ _ _ _ => wideParts15
  | .resetEngine _ _ _ => wideParts16
  | .resetSlice _ _ _ => wideParts17
  | .resetChip _ => [.alert, .startPhase, .recoveryLog, .events, .mailboxes, .counters, .crumbs, .escalation, .out]
  | .resetCycle _ => [.recoveryLog, .events, .mailboxes, .counters, .crumbs, .escalation, .out]
  | .quorumList _ => [.recoveryLog, .events, .mailboxes, .counters, .crumbs, .out]
  | .quorumApprove _ _ _ _ => wideParts2
  | .quorumWithdraw _ _ => [.recoveryLog, .events, .mailboxes, .counters, .crumbs, .out, .proposals]
  | .keySession _ _ _ => [.recoveryLog, .events, .mailboxes, .counters, .crumbs, .free, .out, .keySessions]
  | .keyLoad _ _ _ _ _ _ => [.recoveryLog, .events, .mailboxes, .counters, .crumbs, .out, .linkKeys, .regionKeys,
      .keySessions]
  | .keyBind _ _ _ _ _ _ => [.recoveryLog, .events, .mailboxes, .counters, .crumbs, .free, .out, .proposals]
  | .keyZeroize _ _ _ => [.recoveryLog, .events, .mailboxes, .counters, .crumbs, .out, .linkKeys, .regionKeys]
  | .attestReport _ _ => [.recoveryLog, .events, .mailboxes, .counters, .crumbs, .out]
  | .attestChain _ => [.recoveryLog, .events, .mailboxes, .counters, .crumbs, .out]
  | .powerCap _ _ => [.powerCap, .recoveryLog, .events, .mailboxes, .counters, .crumbs, .out]
  | .powerStatus _ => [.recoveryLog, .events, .mailboxes, .counters, .crumbs, .out]
  | .fwCaps _ => [.recoveryLog, .events, .mailboxes, .counters, .crumbs, .out]
  | .fwInfo _ => [.recoveryLog, .events, .mailboxes, .counters, .crumbs, .out]
  | .fwUpdate _ _ _ => [.alert, .flash, .recoveryLog, .events, .mailboxes, .counters, .crumbs, .free, .out,
      .proposals]
  | .fwStage _ _ _ => [.alert, .recoveryLog, .staging, .events, .mailboxes, .counters, .crumbs, .out]
  | .fwCredit _ _ _ => [.recoveryLog, .events, .mailboxes, .counters, .crumbs, .out]
  | .fwBindMailbox _ _ _ _ => [.recoveryLog, .events, .mailboxes, .counters, .crumbs, .out]
  | .fwCredential _ _ _ _ => [.alert, .flash, .recoveryLog, .events, .mailboxes, .counters, .crumbs, .out]
  | .fwNetwork _ _ _ _ _ => [.alert, .flash, .recoveryLog, .events, .mailboxes, .counters, .crumbs, .out]
  | .fwRegRead _ _ _ => [.recoveryLog, .islands, .events, .mailboxes, .counters, .crumbs, .out]
  | .fwRegWrite _ _ _ _ => [.recoveryLog, .islands, .registers, .events, .mailboxes, .counters, .crumbs, .out]
  | .fwDebugUnlock _ _ _ => [.recoveryLog, .events, .mailboxes, .counters, .crumbs, .free, .out, .proposals]
  | .acceptStepSampleTimeout => [.recoveryLog, .time, .events, .mailboxes, .counters, .crumbs, .out]
  | .tieSourceTimeout => [.recoveryLog, .time, .events, .mailboxes, .counters, .crumbs, .out]
  | .neighbourChangeHoldoffEnd => [.recoveryLog, .events, .neighbours, .counters, .crumbs]
  | .sampleReadyHoldoffEnd => [.recoveryLog, .events, .counters, .crumbs, .samples]
  | .baySelfTestDone _ => [.bays]
  | .flashWriteComplete => [.alert, .flash, .recoveryLog, .events, .mailboxes, .counters, .crumbs, .out]

end Sys2Proof.Machine
end

