-- ==== Sys2Proof/Certificates/Slice0/Obligations.lean ====
section
/-! DEFINITION. The statements for the provers: first those about every command, the state and its invariants, then,
family by family, what each command does. In the groups of the command contract beginsAt o op s = some b says that the
command of sender o is dispatched in state s and begins its work in b; answer, accept and the operations named in a
clause are the meaning's own. Every number that a clause compares with is a rule's. -/

open Sys2Proof Sys2Proof.Machine

/-- A step runs the command at the front of the queue (15.5). For every command c and state s: a step with c in front
of the queue is exec of c on the state with the rest of the queue. The queue is the model's own (log 1). -/
def Obligations.StepRunsFront : Prop :=
  ∀ (c : Instr) (rest : List Instr) (s : State),
    step { s with pending := c :: rest } = exec c { s with pending := rest }

/-- On an empty queue 32 ns of reference time pass (R428, R429). With no command waiting a step adds 32 ns to
reference time, advances device time by the reference rate times (1 + rho) unless the device is held in reset, and
changes nothing else. The length of the tick is the model's choice (log 1). -/
def Obligations.EmptyQueueTick : Prop :=
  ∀ s : State, s.pending = [] → ∃ t, step s = .next t ∧ t.clk.ref = s.clk.ref + 32 ∧
    (s.start.phase = .reset → t.clk.dev = s.clk.dev) ∧
    (s.start.phase ≠ .reset → t.clk.dev = s.clk.dev + ((2 ^ 48 + s.clk.rho) * 2097152 / 2 ^ 48).toNat) ∧
    OnlyChanges [.refTime, .devTime] s t ∧ t.clk.rho = s.clk.rho

/-- What every command leaves unchanged (0.2). For every command, state and next state: only the parts of the state
that mayChange lists for the command may differ; every other register, table, FIFO, counter, byte of memory and pin
is as before. -/
def Obligations.EveryCommandFrame : Prop :=
  ∀ (i : Instr) (s t : State), exec i s = .next t → OnlyChanges (mayChange i) s t

/-- No command touches the queue of commands (R493). Whatever a command does, the commands that wait behind it stay
as they were. The queue is the model's own. -/
def Obligations.QueueUntouched : Prop :=
  ∀ (i : Instr) (s t : State), exec i s = .next t → t.pending = s.pending

/-- A command completes exactly when the unit it names exists (R11, R86). Every command answers a next state when the
island, engine, lane, port, slot or other unit it names exists in the device, and the fault noSuchUnit when it does
not; nothing else stops a command. That a unit outside the device is a fault is the model's choice (log 2). -/
def Obligations.UnitsDecide : Prop :=
  ∀ (i : Instr) (s : State),
    (unitNamed i s = true → ∃ t, exec i s = .next t) ∧ (unitNamed i s = false → exec i s = .fault .noSuchUnit)

/-- How a command is treated by its SEQ and its checks (R490, R495, R497). For each of the 119 commands of the
contract on a device that takes commands: a command to a closed mailbox is answered DENIED; one whose SEQ is
outstanding (other than a dispatched command's own first step) is answered ACCEPTED again; one whose SEQ has a kept
final response gets that response again, unchanged; one whose SEQ is not ahead of the last new one is answered
CONFLICT; one that a check turns away is answered with that check's status. In none of these cases is the command
executed. A device that takes no commands does nothing. -/
def Obligations.CommandsBySeq : Prop :=
  ∀ (i : Instr) (o : Origin) (op : Nat) (s : State), commandOf i = some (o, op) →
    (listening s = false → exec i s = .next s) ∧
    (listening s = true → mailboxOpen o s = false → exec i s = .next (reject o op .denied [] (filterCommand o op s))) ∧
    (listening s = true → mailboxOpen o s = true →
      (∀ c, outstandingOf s o = some c → ¬(c.opcode = op ∧ c.running ∧ c.stepsDone = 0) →
        exec i s = .next (sendAccepted o c.opcode s)) ∧
      (outstandingOf s o = none →
        (∀ r, keptOf s o = some r → exec i s = .next (sendResponse o.mailbox r s)) ∧
        (keptOf s o = none →
          (seqNew (mailbox s o.mailbox) o.seq = false → exec i s = .next (reject o op .conflict [] s)) ∧
          (∀ st, seqNew (mailbox s o.mailbox) o.seq = true → admitCheck o op (filterCommand o op s) = some st →
            exec i s = .next (reject o op st [] (filterCommand o op s))))))

/-- What answering a command does (R492, R495, R496). A final response goes out with the command's SEQ, opcode,
status and body; the command is no longer outstanding; the response is kept in front of at most 64; and nothing
outside the answer's own parts changes. -/
def Obligations.AnswerSays : Prop :=
  ∀ (o : Origin) (op : Nat) (st : Status) (ws : List Word) (s : State),
    Responds o op (statusCode st) ws s (answer o op st ws s) ∧ outstandingOf (answer o op st ws s) o = none ∧
    (∃ r, keptOf (answer o op st ws s) o = some r ∧ r.opcode = op ∧ r.status = statusCode st ∧ r.body = ws) ∧
    (mailbox (answer o op st ws s) o.mailbox).kept.length ≤ 64 ∧ OnlyChanges answerParts s (answer o op st ws s)

/-- What accepting a command does (R493, R496, R498). A command whose work goes on after its first step stays
outstanding under its SEQ, with one step done and no core held, and nothing outside the answer's own parts changes.
-/
def Obligations.AcceptSays : Prop :=
  ∀ (o : Origin) (op : Nat) (grace : Option Nat) (tell : Bool) (s : State), ∃ c,
    outstandingOf (accept o op grace tell s) o = some c ∧ c.stepsDone = 1 ∧ c.running = false ∧
    (outstandingOf s o = none → c.opcode = op) ∧ OnlyChanges answerParts s (accept o op grace tell s)

/-- Every step keeps the Granary's tables in canonical form (R361, R366). From every state in which the bytes of the
Granary and the keys of its lines are in canonical form, a step that answers a next state gives such a state. -/
def Obligations.MemoryInvKept : Prop :=
  ∀ s t : State, MemoryInv s → step s = .next t → MemoryInv t

/-- The Granary's tables are in canonical form at reset (R361). MemoryInv holds of State.reset. -/
def Obligations.MemoryInvAtReset : Prop :=
  MemoryInv State.reset

/-- Every step keeps the throttle and the power cap legal (R530, R630). From every state with four throttle depths
from 0 to 15 and a cap of 0 or 1,000 to 2,800 W, a step that answers a next state gives such a state. -/
def Obligations.PowerInvKept : Prop :=
  ∀ s t : State, PowerInv s → step s = .next t → PowerInv t

/-- The throttle and the power cap are legal at reset (R630). PowerInv holds of State.reset. -/
def Obligations.PowerInvAtReset : Prop :=
  PowerInv State.reset

/-- Every step keeps the launch timestamp queue within its 256 entries (R446). From every state whose launch
timestamp queue holds at most 256 entries, a step that answers a next state gives such a state. -/
def Obligations.LaunchLogKept : Prop :=
  ∀ s t : State, s.time.launches.length ≤ 256 → step s = .next t → t.time.launches.length ≤ 256

/-- Bytes written to a region read back (R361, R370, R372). Where the Granary's tables are in canonical form, a range
of a region reads, after bytes are written to it, as those bytes. -/
def Obligations.StoredBytesReadBack : Prop :=
  ∀ (r o : Nat) (bs : List Byte) (s : State), MemoryInv s → readBytes (writeBytes r o bs s) r o bs.length = bs

/-- A write leaves every line that it does not touch (R361, R373). Where the Granary's tables are in canonical form
and the range lies below 2^48, a write to a range of a region leaves every byte that is in none of the range's lines.
-/
def Obligations.WriteLeavesOtherLines : Prop :=
  ∀ (r o : Nat) (bs : List Byte) (s : State) (r1 a : Nat), MemoryInv s → o + bs.length ≤ 2 ^ 48 → a < 2 ^ 48 →
    inLines (r, o, bs.length) r1 a = false → granByte (writeBytes r o bs s) r1 a = granByte s r1 a

/-- Where the storing commands store (R291, R342, R361, R371, R603, R605). For each command of storeKnown: every byte
of the Granary outside the lines of the ranges that storesOf computes, as the meaning computes them, is as before; a
command for which storesOf gives no range leaves every byte. -/
def Obligations.StoresOnlyThere : Prop :=
  ∀ (i : Instr) (s t : State) (r a : Nat), storeKnown i = true → MemoryInv s →
    (∀ x ∈ storesOf i s, x.2.1 + x.2.2 ≤ 2 ^ 48) → a < 2 ^ 48 → exec i s = .next t →
    (∀ x ∈ storesOf i s, inLines x r a = false) → granByte t r a = granByte s r a

/-- A region being zeroed reads 0 afterwards, and no other changes (R366, R367). When the zeroing of a region ends,
every byte of the region is 0 and every byte of every other region is as before, whether the region becomes READY or
is freed. -/
def Obligations.ZeroedRegionReadsZero : Prop :=
  ∀ (region : Nat) (x : Region) (s : State), MemoryInv s → Machine.region s region = some x →
    x.phase = .zeroing ∨ x.phase = .freeing → mayStart s 4 0 = true →
    ∃ t, exec (.regionZeroed region) s = .next t ∧ (∀ a, a < 2 ^ 48 → granByte t region a = 0) ∧
      (∀ r a, r ≠ region → a < 2 ^ 48 → granByte t r a = granByte s r a)

/-- Epochs compare as 16-bit serial numbers (R145). For a version-2 header that the checks before the epoch check
pass, with d = (e - c) mod 65,536 for its epoch e and the partition's current epoch c: d = 0 is current and not
dropped for its epoch; 1 to 32,767 is ahead and dropped for EPOCH_AHEAD; 32,768, incomparable, and above, stale, are
dropped for EPOCH_STALE. -/
def Obligations.EpochCompare : Prop :=
  ∀ (s : State) (p : Nat) (k : Packet) (slots : Nat) (d : Nat), isV1 k = false →
    (partEntry (slice s (p / 256)) (pPid k)).epoch < 65536 →
    (d : Int) = ((pEpoch k : Int) - (partEntry (slice s (p / 256)) (pPid k)).epoch) % 65536 →
    (∀ code, headerDrop s p k slots = some code → 0x0C ≤ code) →
    (d = 0 → headerDrop s p k slots ≠ some 0x0C ∧ headerDrop s p k slots ≠ some 0x0D) ∧
    (1 ≤ d ∧ d ≤ 32767 → headerDrop s p k slots = some 0x0D) ∧
    (d = 32768 → headerDrop s p k slots = some 0x0C) ∧ (32769 ≤ d → headerDrop s p k slots = some 0x0C)

/-- A packet with COLOUR 3 is dropped for reason COLOUR (R151). A packet with COLOUR 3 that no earlier check drops is
dropped for reason COLOUR (0x06) when its header is present: it is counted, its cells go back and it enters no queue.
-/
def Obligations.ColourThreeDropped : Prop :=
  ∀ (port : Nat) (pkt : Packet) (slots : Nat) (s : State), portKnown s port = true → pColour pkt = 3 →
    (∀ code, headerDrop s port pkt slots = some code → 0x06 ≤ code) →
    headerDrop s port pkt slots = some 0x06 ∧
    ∃ t, exec (.packetHeaderRx port pkt slots) s = .next t ∧ t.buf.packets = s.buf.packets ∧ t.buf.queues = s.buf.queues ∧
      t = samplePacket port pkt { code := 0x06, out := none }
        (returnCells port pkt (countDrop port 0x06 (filterSlice 0 (port / 256) pkt (headerParity port pkt s))))

/-- A group with an open recipe is neither redefined nor deleted (R270). While a recipe of a group is open, a
well-formed LOAF.GROUP_DEFINE or LOAF.GROUP_DELETE of it is answered CONFLICT and nothing but the answer's own parts
changes. -/
def Obligations.GroupWithOpenRecipe : Prop :=
  (∀ (o : Origin) (gid pid : Nat) (delivery members : List Nat) (s b : State), beginsAt o 0x0501 s = some b →
      gid < 2 ^ 20 → pid ≠ 0 → pid < 0xFFF → (partition b pid).defined = true → 0 < members.length →
      members.length ≤ 131072 → delivery.length ≤ 64 → (∀ m ∈ members, m < 2 ^ 20) → hasRecipe b gid = true →
      exec (.loafGroupDefine o gid pid delivery members) s = .next (answer o 0x0501 .conflict [] b) ∧
      OnlyChanges answerParts s (answer o 0x0501 .conflict [] b)) ∧
    (∀ (o : Origin) (gid : Nat) (g : Group) (s b : State), beginsAt o 0x0502 s = some b → group b gid = some g →
      hasRecipe b gid = true → exec (.loafGroupDelete o gid) s = .next (answer o 0x0502 .conflict [] b) ∧
      OnlyChanges answerParts s (answer o 0x0502 .conflict [] b))

/-- When two tag sets are diverse in a type (R398). In each of the four types two tag sets are diverse exactly when
both tags of that type are non-zero and unequal; an unknown tag (0) is never diverse. -/
def Obligations.DiverseTags : Prop :=
  ∀ a b : TagSet,
    (diverse 8 a b = true ↔ a.tray ≠ 0 ∧ b.tray ≠ 0 ∧ a.tray ≠ b.tray) ∧
    (diverse 4 a b = true ↔ a.powerShelf ≠ 0 ∧ b.powerShelf ≠ 0 ∧ a.powerShelf ≠ b.powerShelf) ∧
    (diverse 2 a b = true ↔ a.coolingLoop ≠ 0 ∧ b.coolingLoop ≠ 0 ∧ a.coolingLoop ≠ b.coolingLoop) ∧
    (diverse 1 a b = true ↔ a.switch ≠ 0 ∧ b.switch ≠ 0 ∧ a.switch ≠ b.switch) ∧
    (∀ m x, m < 16 → m ≠ 0 → diverse m ⟨0, 0, 0, 0⟩ x = false ∧ diverse m x ⟨0, 0, 0, 0⟩ = false)

/-- TABLE.ADVANCE and TABLE.OPEN (R466). On a defined partition other than the fabric's: TABLE.ADVANCE answers
CONFLICT when the partition is not FENCED, INVALID when the new epoch is not ahead of the current one, else OK with
EPOCH set in every slice; TABLE.OPEN answers CONFLICT when the partition is OPEN already, else OK with FENCED cleared
in every slice; nothing else of a partition entry changes. -/
def Obligations.AdvanceAndOpen : Prop :=
  ∀ (o : Origin) (pid : Nat) (s b : State), pid ≠ 0 → pid < 0xFFF → (partition b pid).defined = true →
    (∀ epoch, epoch < 65536 → beginsAt o 0x0307 s = some b →
      ((partition b pid).fenced = false → exec (.tableAdvance o pid epoch) s = .next (answer o 0x0307 .conflict [] b)) ∧
      ((partition b pid).fenced = true → serialAhead 65536 epoch (partition b pid).epoch = false →
        exec (.tableAdvance o pid epoch) s = .next (answer o 0x0307 .invalid [] b)) ∧
      ((partition b pid).fenced = true → serialAhead 65536 epoch (partition b pid).epoch = true →
        exec (.tableAdvance o pid epoch) s = .next (answer o 0x0307 .ok []
          (startWork 4 2 2 (modPartition pid (fun _ e => { e with epoch := epoch }) b))))) ∧
    (beginsAt o 0x0308 s = some b →
      ((partition b pid).fenced = false → exec (.tableOpen o pid) s = .next (answer o 0x0308 .conflict [] b)) ∧
      ((partition b pid).fenced = true → exec (.tableOpen o pid) s = .next (answer o 0x0308 .ok []
          (startWork 4 2 2 (modPartition pid (fun _ e => { e with fenced := false }) b)))))

/-- GRIST.LOAD and MILL.CONTEXT name the current epoch of an open partition (R516). A GRIST.LOAD or MILL.CONTEXT that
its earlier checks pass is answered EPOCH, and nothing but the answer's own parts changes, when its EPOCH differs
from the partition's current epoch or the partition is FENCED. -/
def Obligations.EpochOfLoads : Prop :=
  (∀ (o : Origin) (slot : Nat) (params : GristParams) (s b : State), beginsAt o 0x0801 s = some b →
      gristParamsGood slot params = true → (ownSid b).isNone = false → granaryOff b = false →
      mayReach o params.pid b = true → (isTenant o && params.sow == 1) = false → (grist b slot).isSome = false →
      (partition b params.pid).epoch ≠ params.epoch ∨ (partition b params.pid).fenced = true →
      exec (.gristLoad o slot params) s = .next (answer o 0x0801 .epoch [] b) ∧
      OnlyChanges answerParts s (answer o 0x0801 .epoch [] b)) ∧
    (∀ (o : Origin) (context : Nat) (record : DispatchRec) (s b : State), beginsAt o 0x0605 s = some b →
      contextOk context record = true → mayReach o record.pid b = true → contextReach o context b = true →
      (partition b record.pid).epoch ≠ record.epoch ∨ (partition b record.pid).fenced = true →
      exec (.millContext o context record) s = .next (answer o 0x0605 .epoch [] b) ∧
      OnlyChanges answerParts s (answer o 0x0605 .epoch [] b))

/-- What reset leaves (R450, R538, R539). At reset the supply is off and the device held in reset: no SID is
assigned, every port is DOWN and every lane DARK, no packet, session, recipe, program, proposal or key is held, no
region stands but the device's own, every counter reads 0, and no command waits. Values the spec gives no reset for
are the model's own (log 3). -/
def Obligations.ResetLeaves : Prop :=
  State.reset.start.phase = .reset ∧ State.reset.start.cfg.sid = none ∧ State.reset.power.pwrOk = false ∧
    (∀ p, (port State.reset p).phase = .down) ∧ (∀ l, (lane State.reset l).phase = .dark) ∧
    State.reset.buf.packets = [] ∧ State.reset.mgmt.sessions = [] ∧ State.reset.loaf.recipes = [] ∧
    State.reset.mill.programs = [] ∧ State.reset.gran.regions.map (·.1) = [0xFFF0, 0xFFFF] ∧ State.reset.sec.proposals = [] ∧
    State.reset.sec.linkSlots = [] ∧ (∀ c, counter State.reset c = 0) ∧ State.reset.pending = []

/-- The LINK commands complete (R49, R59, R65, R80, R100, R450, R451, R454, R480, R520). One clause for each form of
LINK_SET_SID, LINK_NEIGHBOURS, LINK_LLDP, LINK_FIBRE_LENGTH, LINK_LOOPBACK, LINK_COMMISSION, LINK_SPARE_MODE,
LINK_BAY_RETURN, LINK_RING_RECORD that the sender's checks let begin (beginsAt): for every operand and state that
meet the clause's conditions, exec answers the next state that the clause writes out, the status of its response with
it. The forms without a fault of the operand carry out the change or return the record; the others are answered
INVALID, CONFLICT or NOT_READY as the rules say, with nothing changed but the answer's own parts. -/
def Obligations.LinkCommands : Prop :=
  -- LINK_SET_SID
  (∀ o sid s b, beginsAt o 0x0101 s = some b → sid < 8192 → sidHeld b = false → exec (.linkSetSid o sid) s = .next
    (answer o 0x0101 .ok [] ((allPorts b).foldl (fun s p => retrain 0x0A p s) (modConfig (fun c =>
    { c with sid := some sid }) b)))) ∧
  (∀ o sid s b, beginsAt o 0x0101 s = some b → 8192 ≤ sid → exec (.linkSetSid o sid) s = .next (answer o 0x0101
    .invalid [] b)) ∧
  (∀ o sid s b, beginsAt o 0x0101 s = some b → sid < 8192 → sidHeld b = true → exec (.linkSetSid o sid) s = .next
    (answer o 0x0101 .conflict [] b)) ∧
  -- LINK_NEIGHBOURS
  (∀ o s b, beginsAt o 0x0102 s = some b → exec (.linkNeighbours o) s = .next (answer o 0x0102 .ok (reportHead b ++
    (allPorts b).flatMap (neighbourEntry b)) b)) ∧
  -- LINK_LLDP
  (∀ o mport s b, beginsAt o 0x0103 s = some b → mport < 8 → exec (.linkLldp o mport) s = .next (answer o 0x0103 .ok
    (byteString (mgmtPort b mport).lldp) b)) ∧
  (∀ o mport s b, beginsAt o 0x0103 s = some b → 8 ≤ mport → exec (.linkLldp o mport) s = .next (answer o 0x0103
    .invalid [] b)) ∧
  -- LINK_FIBRE_LENGTH
  (∀ o lengths s b, beginsAt o 0x0104 s = some b → lengths.any (fun x => !portKnown b x.1 || decide (2100 < x.2)) =
    false → exec (.linkFibreLength o lengths) s = .next (answer o 0x0104 .ok [] (lengths.foldl (fun s x => (pairPorts
    s (portPair x.1 / 8) (portPair x.1 % 8)).foldl (fun t p => noteEntry p s t) (modFibre (portPair x.1) (fun f =>
    { f with length := x.2 }) s)) b))) ∧
  (∀ o lengths s b, beginsAt o 0x0104 s = some b → lengths.any (fun x => !portKnown b x.1 || decide (2100 < x.2)) =
    true → exec (.linkFibreLength o lengths) s = .next (answer o 0x0104 .invalid [] b)) ∧
  -- LINK_LOOPBACK
  (∀ o engine fibre s b, beginsAt o 0x0105 s = some b → pairKnown engine fibre = true → loopCircuits b engine fibre =
    [] → circuitsFit b [newCircuit engine fibre fibre true (some o)] = true → exec (.linkLoopback o engine fibre
    true) s = .next (accept o 0x0105 none true (addCircuit (newCircuit engine fibre fibre true (some o)) (modFibre
    (engine * 8 + fibre) (fun p => { p with loopback := true }) b)))) ∧
  (∀ o engine fibre s b, beginsAt o 0x0105 s = some b → pairKnown engine fibre = true → loopCircuits b engine fibre =
    [] → circuitsFit b [newCircuit engine fibre fibre true (some o)] = false → exec (.linkLoopback o engine fibre
    true) s = .next (answer o 0x0105 .resource [] b)) ∧
  (∀ o engine fibre s b, beginsAt o 0x0105 s = some b → pairKnown engine fibre = true → (loopCircuits b engine
    fibre).isEmpty = false → exec (.linkLoopback o engine fibre true) s = .next (answer o 0x0105 .ok [] b)) ∧
  (∀ o engine fibre s b, beginsAt o 0x0105 s = some b → pairKnown engine fibre = true → loopCircuits b engine fibre =
    [] → exec (.linkLoopback o engine fibre false) s = .next (answer o 0x0105 .ok [] b)) ∧
  (∀ o engine fibre id c rest s b, beginsAt o 0x0105 s = some b → pairKnown engine fibre = true → loopCircuits b
    engine fibre = (id, c) :: rest → c.phase ≠ .deferred → exec (.linkLoopback o engine fibre false) s = .next
    (accept o 0x0105 none true (modCircuit id (fun c => { c with tearDown := true, caller := some o }) b))) ∧
  (∀ o engine fibre on s b, beginsAt o 0x0105 s = some b → pairKnown engine fibre = false → exec (.linkLoopback o
    engine fibre on) s = .next (answer o 0x0105 .invalid [] b)) ∧
  -- LINK_COMMISSION
  (∀ o engines powers s b, beginsAt o 0x0106 s = some b → ((List.range 32).filter (testBitN engines)).any (fun e =>
    !bayLocked b e) = false → exec (.linkCommission o engines powers) s = .next (answer o 0x0106 .ok [] (modConfig
    (fun c =>
    { c with
      commission := (((List.range 32).filter (testBitN engines)).flatMap (fun e => (List.range 8).map (8 * e +
        ·))).foldl (fun t i => tabPut t i (powers.getD i 0)) c.commission }) b))) ∧
  (∀ o engines powers s b, beginsAt o 0x0106 s = some b → ((List.range 32).filter (testBitN engines)).any (fun e =>
    !bayLocked b e) = true → exec (.linkCommission o engines powers) s = .next (answer o 0x0106 .notReady [] b)) ∧
  -- LINK_SPARE_MODE
  (∀ o enable s b, beginsAt o 0x0107 s = some b → exec (.linkSpareMode o enable) s = .next (answer o 0x0107 .ok []
    (modOpt (fun x => { x with autoSpare := enable }) b))) ∧
  -- LINK_BAY_RETURN
  (∀ o bay sp s b, beginsAt o 0x0108 s = some b → bay < 8 → tabGet? b.start.cfg.cutover bay = some sp → tabGet?
    b.opt.cutovers bay = none → exec (.linkBayReturn o bay) s = .next (accept o 0x0108 none true (modOpt (fun x =>
    { x with
      cutovers := tabPut x.cutovers bay
        { spare := sp, stage := .warming, pauseTime := 0, back := true, caller := some o } }) (modBay bay (fun x =>
    { x with use := .warming }) b)))) ∧
  (∀ o bay s b, beginsAt o 0x0108 s = some b → bay < 8 → tabGet? b.start.cfg.cutover bay = none → exec
    (.linkBayReturn o bay) s = .next (answer o 0x0108 .conflict [] b)) ∧
  (∀ o bay s b, beginsAt o 0x0108 s = some b → 8 ≤ bay → exec (.linkBayReturn o bay) s = .next (answer o 0x0108
    .invalid [] b)) ∧
  -- LINK_RING_RECORD
  (∀ o die r s b, beginsAt o 0x0109 s = some b → tabGet? b.start.cfg.perm die = some r → exec (.linkRingRecord o die)
    s = .next (answer o 0x0109 .ok ((recordBody die r).take 3 ++ r.check :: (recordBody die r).drop 3) b)) ∧
  (∀ o die s b, beginsAt o 0x0109 s = some b → tabGet? b.start.cfg.perm die = none → exec (.linkRingRecord o die) s =
    .next (answer o 0x0109 .invalid [] b))

/-- The PORT commands complete (R86, R117, R120, R122, R124, R176, R189, R193, R227, R521, R647). One clause for each
form of PORT_WIDTH, PORT_COMPAT, PORT_MODE, PORT_SAMPLE, PORT_STALE, PORT_HUSK_WAIT, PORT_RETRAIN, PORT_LANE,
PORT_STATE that the sender's checks let begin (beginsAt): for every operand and state that meet the clause's
conditions, exec answers the next state that the clause writes out, the status of its response with it. A change of
width, forwarding mode, sampling, staleness time, husk wait, retraining or a lane is in the state the command leaves;
port state is reported. -/
def Obligations.PortCommands : Prop :=
  -- PORT_WIDTH
  (∀ o widths s b, beginsAt o 0x0201 s = some b → widths.all widthGood = true → noneMeet widths = true → exec
    (.portWidth o widths) s = .next (answer o 0x0201 .ok [] (widths.foldl setWidth b))) ∧
  (∀ o widths s b, beginsAt o 0x0201 s = some b → (widths.all widthGood && noneMeet widths) = false → exec
    (.portWidth o widths) s = .next (answer o 0x0201 .invalid [] b)) ∧
  -- PORT_COMPAT
  (∀ o port on s b, beginsAt o 0x0202 s = some b → portKnown b port = true → exec (.portCompat o port on) s = .next
    (answer o 0x0202 .ok [] (modPort port (fun p => { p with compat := on }) b))) ∧
  -- PORT_MODE
  (∀ o port mask s b, beginsAt o 0x0203 s = some b → portKnown b port = true → mask < 256 → exec (.portMode o port
    mask) s = .next (answer o 0x0203 .ok [] (modPort port (fun p => { p with storeMask := mask }) b))) ∧
  (∀ o port mask s b, beginsAt o 0x0203 s = some b → portKnown b port = true → 256 ≤ mask → exec (.portMode o port
    mask) s = .next (answer o 0x0203 .invalid [] b)) ∧
  -- PORT_SAMPLE
  (∀ o port k s b, beginsAt o 0x0204 s = some b → portKnown b port = true → k ≤ 20 → exec (.portSample o port k) s =
    .next (answer o 0x0204 .ok [] (modPort port (fun p => { p with sample := some k }) b))) ∧
  (∀ o port s b, beginsAt o 0x0204 s = some b → portKnown b port = true → exec (.portSample o port 0xFF) s = .next
    (answer o 0x0204 .ok [] (modPort port (fun p => { p with sample := none }) b))) ∧
  (∀ o port k s b, beginsAt o 0x0204 s = some b → portKnown b port = true → 20 < k → k ≠ 0xFF → exec (.portSample o
    port k) s = .next (answer o 0x0204 .invalid [] b)) ∧
  -- PORT_STALE
  (∀ o port queueUs portUs s b, beginsAt o 0x0205 s = some b → portKnown b port = true → staleGood (staleUs queueUs)
    = true → staleGood (staleUs portUs) = true → exec (.portStale o port queueUs portUs) s = .next (answer o 0x0205
    .ok [] (modPort port (fun p => { p with queueStale := staleUs queueUs, portStale := staleUs portUs }) b))) ∧
  (∀ o port queueUs portUs s b, beginsAt o 0x0205 s = some b → portKnown b port = true → (staleGood (staleUs queueUs)
    && staleGood (staleUs portUs)) = false → exec (.portStale o port queueUs portUs) s = .next (answer o 0x0205
    .invalid [] b)) ∧
  -- PORT_HUSK_WAIT
  (∀ o port cls us s b, beginsAt o 0x0206 s = some b → portKnown b port = true → cls ≤ 4 → us ≤ 10000 → exec
    (.portHuskWait o port cls us) s = .next (answer o 0x0206 .ok [] (modPort port (fun p =>
    { p with huskWait := listSet (if us = 0 then 20 else us) cls p.huskWait }) b))) ∧
  (∀ o port cls us s b, beginsAt o 0x0206 s = some b → portKnown b port = true → 4 < cls ∨ 10000 < us → exec
    (.portHuskWait o port cls us) s = .next (answer o 0x0206 .invalid [] b)) ∧
  -- PORT_RETRAIN
  (∀ o port s b, beginsAt o 0x0207 s = some b → portKnown b port = true → (Machine.port b port).phase = .up → exec
    (.portRetrain o port) s = .next (answer o 0x0207 .ok [] (enterResume port 3 (sendMsg port 0x05 [] b)))) ∧
  (∀ o port s b, beginsAt o 0x0207 s = some b → portKnown b port = true → (Machine.port b port).phase = .resume →
    exec (.portRetrain o port) s = .next (answer o 0x0207 .ok [] b)) ∧
  (∀ o port s b, beginsAt o 0x0207 s = some b → portKnown b port = true → (Machine.port b port).phase ≠ .up →
    (Machine.port b port).phase ≠ .resume → exec (.portRetrain o port) s = .next (answer o 0x0207 .conflict [] b)) ∧
  -- PORT_LANE
  (∀ o port mask s b, beginsAt o 0x0208 s = some b → portKnown b port = true → 0 < mask → mask < 2 ^ (Machine.port b
    port).width → (Machine.port b port).phase ≠ .down → exec (.portLane o port mask false) s = .next (answer o 0x0208
    .ok [] ((maskLanes b port mask).foldl (fun s l => holdLane .command l s) b))) ∧
  (∀ o port mask s b, beginsAt o 0x0208 s = some b → portKnown b port = true → 0 < mask → mask < 2 ^ (Machine.port b
    port).width → (Machine.port b port).phase ≠ .down → (maskLanes b port mask).any (causeHolds b) = false → exec
    (.portLane o port mask true) s = .next (answer o 0x0208 .ok [] ((maskLanes b port mask).foldl (fun s l =>
    noteEntry port s (restoreLane s l)) b))) ∧
  (∀ o port mask s b, beginsAt o 0x0208 s = some b → portKnown b port = true → 0 < mask → mask < 2 ^ (Machine.port b
    port).width → (Machine.port b port).phase ≠ .down → (maskLanes b port mask).any (causeHolds b) = true → exec
    (.portLane o port mask true) s = .next (answer o 0x0208 .conflict [] b)) ∧
  (∀ o port mask restore s b, beginsAt o 0x0208 s = some b → portKnown b port = true → 0 < mask → mask < 2 ^
    (Machine.port b port).width → (Machine.port b port).phase = .down → exec (.portLane o port mask restore) s =
    .next (answer o 0x0208 .conflict [] b)) ∧
  (∀ o port mask restore s b, beginsAt o 0x0208 s = some b → portKnown b port = true → mask = 0 ∨ 2 ^ (Machine.port b
    port).width ≤ mask → exec (.portLane o port mask restore) s = .next (answer o 0x0208 .invalid [] b)) ∧
  -- PORT_STATE
  (∀ o port s b, beginsAt o 0x0209 s = some b → portKnown b port = true → exec (.portState o port) s = .next (answer
    o 0x0209 .ok (neighbourEntry b port) b)) ∧
  -- PORT_COMPAT
  (∀ o port on s b, beginsAt o 0x0202 s = some b → portKnown b port = false → exec (.portCompat o port on) s = .next
    (answer o 0x0202 .invalid [] b)) ∧
  -- PORT_MODE
  (∀ o port mask s b, beginsAt o 0x0203 s = some b → portKnown b port = false → exec (.portMode o port mask) s =
    .next (answer o 0x0203 .invalid [] b)) ∧
  -- PORT_SAMPLE
  (∀ o port k s b, beginsAt o 0x0204 s = some b → portKnown b port = false → exec (.portSample o port k) s = .next
    (answer o 0x0204 .invalid [] b)) ∧
  -- PORT_STALE
  (∀ o port queueUs portUs s b, beginsAt o 0x0205 s = some b → portKnown b port = false → exec (.portStale o port
    queueUs portUs) s = .next (answer o 0x0205 .invalid [] b)) ∧
  -- PORT_HUSK_WAIT
  (∀ o port cls us s b, beginsAt o 0x0206 s = some b → portKnown b port = false → exec (.portHuskWait o port cls us)
    s = .next (answer o 0x0206 .invalid [] b)) ∧
  -- PORT_RETRAIN
  (∀ o port s b, beginsAt o 0x0207 s = some b → portKnown b port = false → exec (.portRetrain o port) s = .next
    (answer o 0x0207 .invalid [] b)) ∧
  -- PORT_LANE
  (∀ o port mask restore s b, beginsAt o 0x0208 s = some b → portKnown b port = false → exec (.portLane o port mask
    restore) s = .next (answer o 0x0208 .invalid [] b)) ∧
  -- PORT_STATE
  (∀ o port s b, beginsAt o 0x0209 s = some b → portKnown b port = false → exec (.portState o port) s = .next (answer
    o 0x0209 .invalid [] b))

/-- The TABLE commands complete (R197, R206, R208, R209, R210, R222, R463, R464, R465, R466, R468, R646). One clause
for each form of TABLE_WRITE, TABLE_READ, TABLE_PURGE, TABLE_PARAMS, TABLE_ROOT_PRIORITY, TABLE_PARTITION,
TABLE_FENCE, TABLE_ADVANCE, TABLE_OPEN that the sender's checks let begin (beginsAt): for every operand and state
that meet the clause's conditions, exec answers the next state that the clause writes out, the status of its response
with it. Entries are written, read, purged and re-parameterised; a partition is fenced, advanced and opened under the
fabric-wide epoch rules. -/
def Obligations.TableCommands : Prop :=
  -- TABLE_WRITE
  (∀ o table slices g elems t s b, beginsAt o 0x0301 s = some b → [0, 1, 2, 3, 5, 6].contains table = true →
    sliceMaskGood slices = true → elems.isEmpty = false → elems.all (elemGood table) = true → (table == 0 &&
    elems.any (fun e => elemPid e != elemPid (elems.headD ⟨0, []⟩))) = false → (maskSlices slices).any (fun n => g !=
    (generation (slice b n) table (elemPid (elems.headD ⟨0, []⟩)) + 1) % 256) = false → ¬(table = 0 ∧ (maskSlices
    slices).any (fun n => elems.any (elemLocked (slice b n))) = true) → writeSlices table g elems (maskSlices slices)
    (startWork 4 2 (elems.length * entryCost table) b) = some t → exec (.tableWrite o table slices g elems false) s =
    .next (answer o 0x0301 .ok [] t)) ∧
  (∀ o table slices g elems s b, beginsAt o 0x0301 s = some b → [0, 1, 2, 3, 5, 6].contains table = true →
    sliceMaskGood slices = true → elems.isEmpty = false → elems.all (elemGood table) = true → (table == 0 &&
    elems.any (fun e => elemPid e != elemPid (elems.headD ⟨0, []⟩))) = false → (maskSlices slices).any (fun n => g !=
    (generation (slice b n) table (elemPid (elems.headD ⟨0, []⟩)) + 1) % 256) = false → ¬(table = 0 ∧ (maskSlices
    slices).any (fun n => elems.any (elemLocked (slice b n))) = true) → writeSlices table g elems (maskSlices slices)
    (startWork 4 2 (elems.length * entryCost table) b) = none → exec (.tableWrite o table slices g elems false) s =
    .next (answer o 0x0301 .resource [] b)) ∧
  (∀ o table slices g elems hung s b, beginsAt o 0x0301 s = some b → [0, 1, 2, 3, 5, 6].contains table = true →
    sliceMaskGood slices = true → elems.isEmpty = false → elems.all (elemGood table) = true → (table == 0 &&
    elems.any (fun e => elemPid e != elemPid (elems.headD ⟨0, []⟩))) = false → (maskSlices slices).any (fun n => g !=
    (generation (slice b n) table (elemPid (elems.headD ⟨0, []⟩)) + 1) % 256) = true → exec (.tableWrite o table
    slices g elems hung) s = .next (answer o 0x0301 .conflict [] b)) ∧
  (∀ o table slices g elems hung s b, beginsAt o 0x0301 s = some b → [0, 1, 2, 3, 5, 6].contains table = false ∨
    sliceMaskGood slices = false ∨ elems.all (elemGood table) = false → exec (.tableWrite o table slices g elems
    hung) s = .next (answer o 0x0301 .invalid [] b)) ∧
  -- TABLE_READ
  (∀ o table slice first amount s b, beginsAt o 0x0302 s = some b → table ≤ 6 → slice < 8 → 0 < amount → amount ≤ 256
    → first + amount ≤ tableEntries (Machine.slice b slice) table → exec (.tableRead o table slice first amount) s =
    .next (answer o 0x0302 .ok (countedWords ((List.range amount).map (fun i => tableWords b (Machine.slice b slice)
    table (first + i)))) (startWork 4 2 (amount * entryCost table) b))) ∧
  (∀ o table slice first amount s b, beginsAt o 0x0302 s = some b → 6 < table ∨ 8 ≤ slice ∨ amount = 0 ∨ 256 < amount
    ∨ tableEntries (Machine.slice b slice) table < first + amount → exec (.tableRead o table slice first amount) s =
    .next (answer o 0x0302 .invalid [] b)) ∧
  -- TABLE_PURGE
  (∀ o slices pid g s b, beginsAt o 0x0303 s = some b → sliceMaskGood slices = true → pid < 4096 → g < 256 →
    (maskSlices slices).any (fun n => ((slice b n).dest.filter (fun e => behind pid g e.2)).any (fun e => (lockOf
    (slice b n) (bucketOf (slice b n) e.1)).isSome)) = false → exec (.tablePurge o slices pid g) s = .next (answer o
    0x0303 .ok [w32 ((maskSlices slices).map (fun n => ((slice b n).dest.filter (fun e => behind pid g
    e.2)).length)).sum] (startWork 4 2 ((maskSlices slices).map (fun n => ((slice b n).dest.filter (fun e => behind
    pid g e.2)).length)).sum ((maskSlices slices).foldl (fun s n => modSlice n (fun sl => (sl.dest.filter (fun e =>
    behind pid g e.2)).foldl (fun sl e => parityRewritten 0 e.1 sl)
    { sl with dest := sl.dest.filter (fun e => !behind pid g e.2) }) s) b)))) ∧
  (∀ o slices pid g s b, beginsAt o 0x0303 s = some b → sliceMaskGood slices = false ∨ 4096 ≤ pid ∨ 256 ≤ g → exec
    (.tablePurge o slices pid g) s = .next (answer o 0x0303 .invalid [] b)) ∧
  -- TABLE_PARAMS
  (∀ o slices params s b, beginsAt o 0x0304 s = some b → sliceMaskGood slices = true → paramsGood (filledParams
    params) = true → exec (.tableParams o slices params) s = .next (answer o 0x0304 .ok [] ((maskSlices slices).foldl
    (fun s n => modSlice n (fun sl => if sl.params.cuckoo = (filledParams params).cuckoo then
    { sl with params := filledParams params } else
    { sl with
      params := filledParams params,
      dest := [],
      locks := [],
      badParity := sl.badParity.filter (fun k => decide (2 ^ 20 ≤ k)),
      toldParity := sl.toldParity.filter (fun k => decide (2 ^ 20 ≤ k)) }) s) b))) ∧
  (∀ o slices params s b, beginsAt o 0x0304 s = some b → sliceMaskGood slices = false ∨ paramsGood (filledParams
    params) = false → exec (.tableParams o slices params) s = .next (answer o 0x0304 .invalid [] b)) ∧
  -- TABLE_ROOT_PRIORITY
  (∀ o value s b, beginsAt o 0x0309 s = some b → value < 256 → exec (.tableRootPriority o value) s = .next (answer o
    0x0309 .ok [] ({ b with tbl := { b.tbl with rootPriority := value } }))) ∧
  (∀ o value s b, beginsAt o 0x0309 s = some b → 256 ≤ value → exec (.tableRootPriority o value) s = .next (answer o
    0x0309 .invalid [] b)) ∧
  -- TABLE_PARTITION
  (∀ o pid w0 ports s b, beginsAt o 0x0305 s = some b → pid < 0xFFF → ports.length = 64 → (pendingProposals b).length
    < 64 → exec (.tablePartition o pid w0 ports) s = .next (answer o 0x0305 .quorumPending [w32 b.sec.nextProposal]
    (stageProposal o (.tablePartition pid w0.toNat ports) b))) ∧
  (∀ o pid w0 ports s b, beginsAt o 0x0305 s = some b → pid < 0xFFF → ports.length = 64 → 64 ≤ (pendingProposals
    b).length → exec (.tablePartition o pid w0 ports) s = .next (answer o 0x0305 .busy [] b)) ∧
  (∀ o pid w0 ports s b, beginsAt o 0x0305 s = some b → 0xFFF ≤ pid ∨ ports.length ≠ 64 → exec (.tablePartition o pid
    w0 ports) s = .next (answer o 0x0305 .invalid [] b)) ∧
  -- TABLE_FENCE
  (∀ o pid notify s b, beginsAt o 0x0306 s = some b → pid ≠ 0 → pid < 0xFFF → (partition b pid).defined = true →
    notify.length ≤ 64 → notify.all (groupOf b pid) = true → exec (.tableFence o pid notify) s = .next (answer o
    0x0306 .ok [] (notify.foldl (fun s g => originate controlSource (fencePacket s pid g) s) (endPartitionWork pid
    (startWork 4 2 2 (modPartition pid (fun _ e => { e with fenced := true }) b)))))) ∧
  (∀ o pid notify s b, beginsAt o 0x0306 s = some b → pid = 0 ∨ 0xFFF ≤ pid ∨ (partition b pid).defined = false →
    exec (.tableFence o pid notify) s = .next (answer o 0x0306 .invalid [] b)) ∧
  -- TABLE_ADVANCE
  (∀ o pid epoch s b, beginsAt o 0x0307 s = some b → pid ≠ 0 → pid < 0xFFF → (partition b pid).defined = true →
    (partition b pid).fenced = true → epoch < 65536 → serialAhead 65536 epoch (partition b pid).epoch = true → exec
    (.tableAdvance o pid epoch) s = .next (answer o 0x0307 .ok [] (startWork 4 2 2 (modPartition pid (fun _ e =>
    { e with epoch := epoch }) b)))) ∧
  (∀ o pid epoch s b, beginsAt o 0x0307 s = some b → pid ≠ 0 → pid < 0xFFF → (partition b pid).defined = true →
    (partition b pid).fenced = false → epoch < 65536 → exec (.tableAdvance o pid epoch) s = .next (answer o 0x0307
    .conflict [] b)) ∧
  (∀ o pid epoch s b, beginsAt o 0x0307 s = some b → pid ≠ 0 → pid < 0xFFF → (partition b pid).defined = true →
    (partition b pid).fenced = true → epoch < 65536 → serialAhead 65536 epoch (partition b pid).epoch = false → exec
    (.tableAdvance o pid epoch) s = .next (answer o 0x0307 .invalid [] b)) ∧
  -- TABLE_OPEN
  (∀ o pid s b, beginsAt o 0x0308 s = some b → pid ≠ 0 → pid < 0xFFF → (partition b pid).defined = true → (partition
    b pid).fenced = true → exec (.tableOpen o pid) s = .next (answer o 0x0308 .ok [] (startWork 4 2 2 (modPartition
    pid (fun _ e => { e with fenced := false }) b)))) ∧
  (∀ o pid s b, beginsAt o 0x0308 s = some b → pid ≠ 0 → pid < 0xFFF → (partition b pid).defined = true → (partition
    b pid).fenced = false → exec (.tableOpen o pid) s = .next (answer o 0x0308 .conflict [] b))

/-- The CLASS commands complete (R171, R172, R185, R186, R232, R242, R247, R249, R252, R255, R256, R523). One clause
for each form of CLASS_CREDIT_WEIGHT, CLASS_SCHED, CLASS_SHAPER, CLASS_MARKER, CLASS_PROFILE, CLASS_QUEUE,
CLASS_BUDGET, CLASS_BUDGET_READ that the sender's checks let begin (beginsAt): for every operand and state that meet
the clause's conditions, exec answers the next state that the clause writes out, the status of its response with it.
The scheduler, shaper, marker, profile, queue and budget settings of a port and class are the operands afterwards; a
budget is proposed or read. -/
def Obligations.ClassCommands : Prop :=
  -- CLASS_CREDIT_WEIGHT
  (∀ o port weights s b, beginsAt o 0x0401 s = some b → portKnown b port = true → weights.length = 4 → (filled
    weights [1, 1, 1, 1]).any (fun w => decide (15 < w)) = false → exec (.classCreditWeight o port weights) s = .next
    (answer o 0x0401 .ok [] (modPort port (fun p => { p with weights := filled weights [1, 1, 1, 1] }) b))) ∧
  (∀ o port weights s b, beginsAt o 0x0401 s = some b → portKnown b port = true → weights.length ≠ 4 ∨ (filled
    weights [1, 1, 1, 1]).any (fun w => decide (15 < w)) = true → exec (.classCreditWeight o port weights) s = .next
    (answer o 0x0401 .invalid [] b)) ∧
  -- CLASS_SCHED
  (∀ o port weights credits overhead s b, beginsAt o 0x0402 s = some b → portKnown b port = true → weights.length = 7
    → credits.length = 7 → (filled weights (schedReset 0).weight).any (fun w => decide (255 < w)) = false →
    credits.any (fun c => decide (1048576 < c)) = false → overhead ≤ 1023 → exec (.classSched o port weights credits
    overhead) s = .next (answer o 0x0402 .ok [] (modSchedState (fun x =>
    { x with
      scheds := tabMod schedReset (fun c =>
        { c with weight := filled weights (schedReset 0).weight, credit := credits, overhead := overhead }) x.scheds
        port }) b))) ∧
  -- CLASS_SHAPER
  (∀ o port target params s b, beginsAt o 0x0403 s = some b → portKnown b port = true → target ≤ 7 → params.rate < 2
    ^ 21 → 256 ≤ params.burst → params.burst < 2 ^ 24 → exec (.classShaper o port target params) s = .next (answer o
    0x0403 .ok [] (modSchedState (fun x =>
    { x with
      shapers := tabMod shaperReset (fun old => if old.params = params then old else
        { params := params, level := shaperStart params, time := nowRef b }) x.shapers (port * 8 + target) }) b))) ∧
  (∀ o port target params s b, beginsAt o 0x0403 s = some b → portKnown b port = true → 7 < target ∨ 2 ^ 21 ≤
    params.rate → exec (.classShaper o port target params) s = .next (answer o 0x0403 .invalid [] b)) ∧
  -- CLASS_MARKER
  (∀ o port cls params s b, beginsAt o 0x0404 s = some b → portKnown b port = true → 5 ≤ cls → cls ≤ 7 → params.cir <
    2 ^ 21 → params.pir < 2 ^ 21 → params.cir ≤ params.pir → 8240 ≤ params.cbs → 8240 ≤ params.pbs → params.cbs < 2 ^
    24 → params.pbs < 2 ^ 24 → exec (.classMarker o port cls params) s = .next (answer o 0x0404 .ok [] (modSchedState
    (fun x =>
    { x with
      markers := tabSet markerReset x.markers (port * 8 + cls)
        { params := params, c := 8 * params.cbs, p := 8 * params.pbs, time := nowRef b } }) b))) ∧
  (∀ o port cls params s b, beginsAt o 0x0404 s = some b → portKnown b port = true → cls < 5 ∨ 7 < cls ∨ params.pir <
    params.cir ∨ params.cbs < 8240 ∨ params.pbs < 8240 → exec (.classMarker o port cls params) s = .next (answer o
    0x0404 .invalid [] b)) ∧
  -- CLASS_PROFILE
  (∀ o profile curves s b, beginsAt o 0x0405 s = some b → profile ≤ 15 → curves.length = 3 → curves.all curveGood =
    true → exec (.classProfile o profile curves) s = .next (answer o 0x0405 .ok [] (modSchedState (fun x =>
    { x with profiles := tabSet profileReset x.profiles profile curves }) b))) ∧
  (∀ o profile curves s b, beginsAt o 0x0405 s = some b → 15 < profile ∨ curves.length ≠ 3 ∨ curves.all curveGood =
    false → exec (.classProfile o profile curves) s = .next (answer o 0x0405 .invalid [] b)) ∧
  -- CLASS_QUEUE
  (∀ o port cls profile a mark s b, beginsAt o 0x0406 s = some b → portKnown b port = true → cls ≤ 7 → profile ≤ 15 →
    (cls < 5 → profile = 0) → a ≤ 9 → mark ≤ 2097151 → exec (.classQueue o port cls profile a mark) s = .next (answer
    o 0x0406 .ok [] (modSchedState (fun x =>
    { x with
      queueSets := tabMod queueSetReset (fun q => { q with profile := profile, a := a, mark := some mark })
        x.queueSets (pcKey port cls) }) b))) ∧
  (∀ o port cls profile a mark s b, beginsAt o 0x0406 s = some b → portKnown b port = true → 7 < cls ∨ 15 < profile ∨
    (cls < 5 ∧ profile ≠ 0) ∨ 9 < a ∨ 2097151 < mark → exec (.classQueue o port cls profile a mark) s = .next (answer
    o 0x0406 .invalid [] b)) ∧
  -- CLASS_BUDGET
  (∀ o activity shares lendable s b, beginsAt o 0x0407 s = some b → activity ≤ 9 → shares.length = 4 → (List.range
    4).any (fun r => decide (1024 < shareSum (listSet { shares := shares, lendable := lendable } activity
    (comingBudgets b)) r)) = false → exec (.classBudget o activity shares lendable) s = .next (answer o 0x0407 .ok []
    (modSchedState (fun x =>
    { x with nextBudgets := some (listSet { shares := shares, lendable := lendable } activity (comingBudgets b)) })
    b))) ∧
  (∀ o activity shares lendable s b, beginsAt o 0x0407 s = some b → activity ≤ 9 → shares.length = 4 → (List.range
    4).any (fun r => decide (1024 < shareSum (listSet { shares := shares, lendable := lendable } activity
    (comingBudgets b)) r)) = true → exec (.classBudget o activity shares lendable) s = .next (answer o 0x0407 .budget
    [] b)) ∧
  (∀ o activity shares lendable s b, beginsAt o 0x0407 s = some b → 9 < activity ∨ shares.length ≠ 4 → exec
    (.classBudget o activity shares lendable) s = .next (answer o 0x0407 .invalid [] b)) ∧
  -- CLASS_BUDGET_READ
  (∀ o s b, beginsAt o 0x0408 s = some b → exec (.classBudgetRead o) s = .next (answer o 0x0408 .ok
    (b.sched.budgets.flatMap (fun x => x.shares.map w32 ++ [w32 (bit x.lendable)])) b))

/-- The LOAF commands complete (R268, R269, R270, R271, R280, R294, R301, R304, R305, R462, R524, R651). One clause
for each form of LOAF_GROUP_DEFINE, LOAF_GROUP_DELETE, LOAF_LIVE, LOAF_ABORT_COMMAND, LOAF_MEMBER_LOST, LOAF_SIZING,
LOAF_KNEAD, LOAF_RECIPES, LOAF_OPEN, LOAF_CLOSE that the sender's checks let begin (beginsAt): for every operand and
state that meet the clause's conditions, exec answers the next state that the clause writes out, the status of its
response with it. Groups are defined, deleted and resized in LIVE, loaves aborted, recipes listed, opened and closed,
Knead units enabled and disabled. -/
def Obligations.LoafCommands : Prop :=
  -- LOAF_GROUP_DEFINE
  (∀ o gid pid delivery members s b, beginsAt o 0x0501 s = some b → gid < 2 ^ 20 → pid ≠ 0 → pid < 0xFFF → (partition
    b pid).defined = true → 0 < members.length → members.length ≤ 131072 → delivery.length ≤ 64 → (∀ m ∈ members, m <
    2 ^ 20) → hasRecipe b gid = false → noRepeat members = true → deliveryOk b pid delivery members = true →
    boundExceeded b pid (barrierBound b pid members) = false → exec (.loafGroupDefine o gid pid delivery members) s =
    .next (answer o 0x0501 .ok [w32 (barrierBound b pid members)] (modLoaf (fun l =>
    { l with
      groups := tabPut l.groups gid
        {
          pid := pid,
          members := members,
          live := 2 ^ members.length - 1,
          changes := [],
          delivery := delivery,
          boundTold := false } }) b))) ∧
  (∀ o gid pid delivery members s b, beginsAt o 0x0501 s = some b → gid < 2 ^ 20 → pid ≠ 0 → pid < 0xFFF → (partition
    b pid).defined = true → 0 < members.length → members.length ≤ 131072 → delivery.length ≤ 64 → (∀ m ∈ members, m <
    2 ^ 20) → hasRecipe b gid = false → noRepeat members = true → deliveryOk b pid delivery members = true →
    boundExceeded b pid (barrierBound b pid members) = true → exec (.loafGroupDefine o gid pid delivery members) s =
    .next (answer o 0x0501 .resource [] b)) ∧
  (∀ o gid pid delivery members s b, beginsAt o 0x0501 s = some b → gid < 2 ^ 20 → pid ≠ 0 → pid < 0xFFF → (partition
    b pid).defined = true → 0 < members.length → members.length ≤ 131072 → delivery.length ≤ 64 → (∀ m ∈ members, m <
    2 ^ 20) → hasRecipe b gid = true → exec (.loafGroupDefine o gid pid delivery members) s = .next (answer o 0x0501
    .conflict [] b)) ∧
  -- LOAF_GROUP_DELETE
  (∀ o gid g s b, beginsAt o 0x0502 s = some b → group b gid = some g → hasRecipe b gid = false → exec
    (.loafGroupDelete o gid) s = .next (answer o 0x0502 .ok [] (modLoaf (fun l =>
    { l with groups := tabDel l.groups gid }) b))) ∧
  (∀ o gid g s b, beginsAt o 0x0502 s = some b → group b gid = some g → hasRecipe b gid = true → exec
    (.loafGroupDelete o gid) s = .next (answer o 0x0502 .conflict [] b)) ∧
  (∀ o gid s b, beginsAt o 0x0502 s = some b → group b gid = none → exec (.loafGroupDelete o gid) s = .next (answer o
    0x0502 .invalid [] b)) ∧
  -- LOAF_LIVE
  (∀ o gid se live g s b, beginsAt o 0x0503 s = some b → group b gid = some g → live.length = ceilDiv
    g.members.length 32 → se < 2 ^ 32 → exec (.loafLive o gid se live) s = .next (answer o 0x0503 .ok [] (modLoaf
    (fun l =>
    { l with
      groups := tabPut l.groups gid { g with changes := g.changes ++ [(se, liveMask g.members.length live)] } }) b)))
    ∧
  (∀ o gid se live s b, beginsAt o 0x0503 s = some b → group b gid = none → exec (.loafLive o gid se live) s = .next
    (answer o 0x0503 .invalid [] b)) ∧
  -- LOAF_ABORT_COMMAND
  (∀ o gid seq g s b, beginsAt o 0x0506 s = some b → group b gid = some g → mayReach o g.pid b = true → (abortTargets
    b gid seq).any (fun e => loafRunning e.2) = true → exec (.loafAbortCommand o gid seq) s = .next (answer o 0x0506
    .ok [] (abortLoaf gid seq 6 b))) ∧
  (∀ o gid seq g s b, beginsAt o 0x0506 s = some b → group b gid = some g → mayReach o g.pid b = true → (abortTargets
    b gid seq).any (fun e => loafRunning e.2) = false → exec (.loafAbortCommand o gid seq) s = .next (answer o 0x0506
    .invalid [] b)) ∧
  (∀ o gid seq g s b, beginsAt o 0x0506 s = some b → group b gid = some g → mayReach o g.pid b = false → exec
    (.loafAbortCommand o gid seq) s = .next (answer o 0x0506 .denied [] b)) ∧
  -- LOAF_MEMBER_LOST
  (∀ o gid member s b, beginsAt o 0x0507 s = some b → member < groupSize b gid → exec (.loafMemberLost o gid member)
    s = .next (answer o 0x0507 .ok [] (abortGroup gid 1 b))) ∧
  (∀ o gid member s b, beginsAt o 0x0507 s = some b → groupSize b gid ≤ member → exec (.loafMemberLost o gid member)
    s = .next (answer o 0x0507 .invalid [] b)) ∧
  -- LOAF_SIZING
  (∀ o pid reach limit s b, beginsAt o 0x0508 s = some b → reach ≤ 2100 → limit = 0 ∨ (1000 ≤ limit ∧ limit ≤
    1000000000) → pid < 0xFFF → (partition b pid).defined = true → exec (.loafSizing o pid reach limit) s = .next
    (answer o 0x0508 .ok [] (modLoaf (fun l =>
    { l with sizing := tabSet sizingReset l.sizing pid { reach := reach, limit := limit } }) b))) ∧
  -- LOAF_KNEAD
  (∀ o high low grace s b, beginsAt o 0x0509 s = some b → high < 2 ^ 32 → low < 2 ^ 32 → grace ≤ 1000000 → exec
    (.loafKnead o high low true grace) s = .next (answer o 0x0509 .ok [] (modConfig (fun c =>
    { c with kneadOff := c.kneadOff.filter (fun u => !(unitsOf (high * 2 ^ 32 + low)).contains u) }) b))) ∧
  (∀ o high low grace s b, beginsAt o 0x0509 s = some b → high < 2 ^ 32 → low < 2 ^ 32 → grace ≤ 1000000 → runningOn
    (modConfig (fun c => { c with kneadOff := distinct (c.kneadOff ++ unitsOf (high * 2 ^ 32 + low)) }) b) (unitsOf
    (high * 2 ^ 32 + low)) = [] → exec (.loafKnead o high low false grace) s = .next (answer o 0x0509 .ok []
    (modConfig (fun c => { c with kneadOff := distinct (c.kneadOff ++ unitsOf (high * 2 ^ 32 + low)) }) b))) ∧
  (∀ o high low grace s b, beginsAt o 0x0509 s = some b → high < 2 ^ 32 → low < 2 ^ 32 → grace ≤ 1000000 → runningOn
    (modConfig (fun c => { c with kneadOff := distinct (c.kneadOff ++ unitsOf (high * 2 ^ 32 + low)) }) b) (unitsOf
    (high * 2 ^ 32 + low)) ≠ [] → exec (.loafKnead o high low false grace) s = .next (accept o 0x0509 (some (grace))
    true (modLoaf (fun l => { l with kneadJobs := l.kneadJobs ++ [(o, unitsOf (high * 2 ^ 32 + low))] }) (modConfig
    (fun c => { c with kneadOff := distinct (c.kneadOff ++ unitsOf (high * 2 ^ 32 + low)) }) b)))) ∧
  -- LOAF_RECIPES
  (∀ o gid g s b, beginsAt o 0x050A s = some b → group b gid = some g → mayReach o g.pid b = true → exec
    (.loafRecipes o gid) s = .next (answer o 0x050A .ok (countedWords ((b.loaf.recipes.filter (fun e => e.1 / 65536
    == gid)).map (fun e => [w32 (e.1 % 65536), w32 e.2.recipe.home]))) b)) ∧
  (∀ o gid g s b, beginsAt o 0x050A s = some b → group b gid = some g → mayReach o g.pid b = false → exec
    (.loafRecipes o gid) s = .next (answer o 0x050A .denied [] b)) ∧
  (∀ o gid s b, beginsAt o 0x050A s = some b → group b gid = none → exec (.loafRecipes o gid) s = .next (answer o
    0x050A .invalid [] b)) ∧
  -- LOAF_OPEN
  (∀ o gid params g s b, beginsAt o 0x0504 s = some b → group b gid = some g → mayReach o g.pid b = true →
    openInvalid (openRecipe b gid params) params g.members.length = false → params.pins.any (fun x => !(policy b
    g.pid).spines.contains x) = false → winnowDown b = false → (partition b g.pid).fenced = false → (policy b
    g.pid).spines.isEmpty = false → exec (.loafOpen o gid params) s = .next (placeRound b.loaf.nextOpen (accept o
    0x0504 none true (modLoaf (fun l =>
    { l with
      opens := tabPut l.opens l.nextOpen
        {
          origin := o,
          params := params,
          recipe := openRecipe b gid params,
          round := 0,
          refused := [],
          badIds := [],
          badRanges := [],
          waiting := [],
          reserved := [],
          failed := false,
          committing := false },
      nextOpen := (l.nextOpen + 1) % 2 ^ 24 }) b)))) ∧
  -- LOAF_CLOSE
  (∀ o gid recipe grace g h s b, beginsAt o 0x0505 s = some b → group b gid = some g → held b gid recipe = some h →
    mayReach o g.pid b = true → grace ≤ 1000000 → (isTenant o && ownSid b != some h.recipe.home) = false → exec
    (.loafClose o gid recipe grace) s = .next (beginClose o b.loaf.nextOpen gid recipe (accept o 0x0505 (some grace)
    true (modLoaf (fun l =>
    { l with
      closes := tabPut l.closes l.nextOpen
        {
          origin := o,
          gid := gid,
          recipeId := recipe,
          grace := grace,
          waiting := distinct (mapSids h.recipe ++ (ownSid b).toList) },
      nextOpen := (l.nextOpen + 1) % 2 ^ 24 }) b))))

/-- The MILL commands complete (R338, R341, R343, R344, R345, R346, R353, R357, R420, R525, R651). One clause for
each form of MILL_ALLOC, MILL_LOAD, MILL_RUN, MILL_STOP, MILL_CONTEXT, MILL_REPLICAS, MILL_WEIGHTS, MILL_RESTORE,
MILL_ENABLE that the sender's checks let begin (beginsAt): for every operand and state that meet the clause's
conditions, exec answers the next state that the clause writes out, the status of its response with it. Pages are
allocated, programs loaded, run and stopped, contexts configured, weights loaded, replicas named and restored, the
Mill enabled and disabled. -/
def Obligations.MillCommands : Prop :=
  -- MILL_ALLOC
  (∀ o pid pages s b, beginsAt o 0x0601 s = some b → pages ≤ 1536 → ownerKnown b pid = true → mayReach o pid b = true
    → millOccupied b pid none none ≤ pages * pageBytes → programEnd b pid ≤ pages * pageBytes → ((b.mill.pages.filter
    (fun e => e.1 != pid)).map (·.2)).sum + pages ≤ 1536 → exec (.millAlloc o pid pages) s = .next (answer o 0x0601
    .ok [w32 pages] (modMill (fun m => { m with pages := tabSet zeroTab m.pages pid pages }) b))) ∧
  (∀ o pid pages s b, beginsAt o 0x0601 s = some b → pages ≤ 1536 → ownerKnown b pid = true → mayReach o pid b = true
    → millOccupied b pid none none ≤ pages * pageBytes → programEnd b pid ≤ pages * pageBytes → 1536 <
    ((b.mill.pages.filter (fun e => e.1 != pid)).map (·.2)).sum + pages → exec (.millAlloc o pid pages) s = .next
    (answer o 0x0601 .resource [] b)) ∧
  (∀ o pid pages s b, beginsAt o 0x0601 s = some b → pages ≤ 1536 → ownerKnown b pid = true → mayReach o pid b = true
    → pages * pageBytes < millOccupied b pid none none ∨ pages * pageBytes < programEnd b pid → exec (.millAlloc o
    pid pages) s = .next (answer o 0x0601 .conflict [] b)) ∧
  (∀ o pid pages s b, beginsAt o 0x0601 s = some b → 1536 < pages ∨ ownerKnown b pid = false → exec (.millAlloc o pid
    pages) s = .next (answer o 0x0601 .invalid [] b)) ∧
  -- MILL_LOAD
  (∀ o slot pid stale code agds s b, beginsAt o 0x0602 s = some b → slot < 16 → ownerKnown b pid = true → 10 ≤ (if
    stale = 0 then 1000000 else stale) → (if stale = 0 then 1000000 else stale) ≤ 60000000 → code.isEmpty = false →
    code.length ≤ 4096 → agds.length ≤ 256 → code.all (instrOk agds) = true → mayReach o pid b = true → ((millProgram
    b slot).map (fun p => mayReach o p.pid b)).getD true = true → ((millProgram b slot).map (·.running)).getD false =
    false → exec (.millLoad o slot pid stale code agds) s = .next (answer o 0x0602 .ok [] (modMill (fun m =>
    { m with
      programs := tabPut m.programs slot
        {
          pid := pid,
          stale := if stale = 0 then 1000000 else stale,
          code := code,
          agds := agds,
          counters := List.replicate 16 0,
          pc := 0,
          running := false,
          copies := [] } }) b))) ∧
  (∀ o slot pid stale code agds s b, beginsAt o 0x0602 s = some b → slot < 16 → ownerKnown b pid = true → 10 ≤ (if
    stale = 0 then 1000000 else stale) → (if stale = 0 then 1000000 else stale) ≤ 60000000 → code.isEmpty = false →
    code.length ≤ 4096 → agds.length ≤ 256 → code.all (instrOk agds) = true → mayReach o pid b = true → ((millProgram
    b slot).map (fun p => mayReach o p.pid b)).getD true = true → ((millProgram b slot).map (·.running)).getD false =
    true → exec (.millLoad o slot pid stale code agds) s = .next (answer o 0x0602 .conflict [] b)) ∧
  -- MILL_RUN
  (∀ o slot p s b, beginsAt o 0x0603 s = some b → millProgram b slot = some p → mayReach o p.pid b = true →
    b.start.cfg.millOff = false → (partition b p.pid).fenced = false → p.running = false → exec (.millRun o slot) s =
    .next (answer o 0x0603 .ok [] (modProgram slot (fun x =>
    { x with counters := List.replicate 16 0, pc := 0, running := true }) b))) ∧
  (∀ o slot p s b, beginsAt o 0x0603 s = some b → millProgram b slot = some p → mayReach o p.pid b = true →
    b.start.cfg.millOff = false → (partition b p.pid).fenced = false → p.running = true → exec (.millRun o slot) s =
    .next (answer o 0x0603 .conflict [] b)) ∧
  (∀ o slot p s b, beginsAt o 0x0603 s = some b → millProgram b slot = some p → mayReach o p.pid b = true →
    b.start.cfg.millOff = false → (partition b p.pid).fenced = true → exec (.millRun o slot) s = .next (answer o
    0x0603 .epoch [] b)) ∧
  (∀ o slot p s b, beginsAt o 0x0603 s = some b → millProgram b slot = some p → mayReach o p.pid b = true →
    b.start.cfg.millOff = true → exec (.millRun o slot) s = .next (answer o 0x0603 .notReady [] b)) ∧
  (∀ o slot p s b, beginsAt o 0x0603 s = some b → millProgram b slot = some p → mayReach o p.pid b = false → exec
    (.millRun o slot) s = .next (answer o 0x0603 .denied [] b)) ∧
  -- MILL_STOP
  (∀ o slot p s b, beginsAt o 0x0604 s = some b → millProgram b slot = some p → mayReach o p.pid b = true → p.running
    = true → exec (.millStop o slot) s = .next (answer o 0x0604 .ok [] (endProgram slot .aborted b))) ∧
  (∀ o slot p s b, beginsAt o 0x0604 s = some b → millProgram b slot = some p → mayReach o p.pid b = true → p.running
    = false → exec (.millStop o slot) s = .next (answer o 0x0604 .conflict [] b)) ∧
  (∀ o slot s b, beginsAt o 0x0604 s = some b → millProgram b slot = none → exec (.millStop o slot) s = .next (answer
    o 0x0604 .invalid [] b)) ∧
  -- MILL_CONTEXT
  (∀ o context record u s b, beginsAt o 0x0605 s = some b → contextOk context record = true → mayReach o record.pid b
    = true → contextReach o context b = true → (partition b record.pid).epoch = record.epoch → (partition b
    record.pid).fenced = false → ((dctx b context).map (fun x => x.draining.isSome)).getD false = false →
    record.enable = true → ((dctx b context).map (fun x => !x.tokens.isEmpty)).getD false = false → winnowDown b =
    false → millOccupied b record.pid (some context) none + tokenBuffer record ≤ millBytes b record.pid → chooseKnead
    b context record = some u → exec (.millContext o context record) s = .next (answer o 0x0605 .ok [] (writeDecision
    5 record.pid (wordOf [at_ 31 25 context]) (w32 u) 0 0 (setContext context { record with knead := u } b)))) ∧
  (∀ o context record s b, beginsAt o 0x0605 s = some b → contextOk context record = true → mayReach o record.pid b =
    true → contextReach o context b = true → (partition b record.pid).epoch = record.epoch → (partition b
    record.pid).fenced = false → ((dctx b context).map (fun x => x.draining.isSome)).getD false = false →
    record.enable = true → ((dctx b context).map (fun x => !x.tokens.isEmpty)).getD false = false → winnowDown b =
    false → millOccupied b record.pid (some context) none + tokenBuffer record ≤ millBytes b record.pid → chooseKnead
    b context record = none → exec (.millContext o context record) s = .next (answer o 0x0605 .resource [] (noChoice
    record.pid (wordOf [at_ 31 25 context]) (if (maskedUnits b record).isEmpty then 1 else 2) false b))) ∧
  (∀ o context record s b, beginsAt o 0x0605 s = some b → contextOk context record = true → mayReach o record.pid b =
    true → contextReach o context b = true → (partition b record.pid).epoch = record.epoch → (partition b
    record.pid).fenced = false → ((dctx b context).map (fun x => x.draining.isSome)).getD false = false →
    record.enable = false → ((dctx b context).map (fun x => !x.tokens.isEmpty)).getD false = false → exec
    (.millContext o context record) s = .next (answer o 0x0605 .ok [] (setContext context
    { record with knead := ((dctx b context).map (·.record.knead)).getD 0 } b))) ∧
  (∀ o context record s b, beginsAt o 0x0605 s = some b → contextOk context record = true → mayReach o record.pid b =
    true → contextReach o context b = true → (partition b record.pid).epoch = record.epoch → (partition b
    record.pid).fenced = false → ((dctx b context).map (fun x => x.draining.isSome)).getD false = false →
    record.enable = false → ((dctx b context).map (fun x => !x.tokens.isEmpty)).getD false = true → exec
    (.millContext o context record) s = .next (accept o 0x0605 none true (modDctx context (fun x =>
    { x with draining := some (o, { record with knead := ((dctx b context).map (·.record.knead)).getD 0 }) }) b))) ∧
  (∀ o context record s b, beginsAt o 0x0605 s = some b → contextOk context record = false → exec (.millContext o
    context record) s = .next (answer o 0x0605 .invalid [] b)) ∧
  -- MILL_REPLICAS
  (∀ o context expert replicas x s b, beginsAt o 0x0606 s = some b → dctx b context = some x → mayReach o
    x.record.pid b = true → expert < x.record.e → replicas.isEmpty = false → replicas.length ≤ 16 → replicas.any (fun
    r => decide (2 ^ 20 ≤ r.1) || r.2 == 0 || decide (255 < r.2)) = false → noRepeat (replicas.map (·.1)) = true →
    x.tokens.isEmpty = true → (tabGet? b.winnow.replicaPins (context * 1024 + expert)).any (fun a => !replicas.any
    (fun r => r.1 == a)) = false → exec (.millReplicas o context expert replicas) s = .next (answer o 0x0606 .ok []
    (modDctx context (fun y =>
    { y with
      replicas := tabPut y.replicas expert (replicas.map (fun (r : Nat × Nat) =>
        ({ address := r.1, cap := r.2, outstanding := 0, excluded := false } : Replica))),
      last := tabDel y.last expert }) b))) ∧
  (∀ o context expert replicas x s b, beginsAt o 0x0606 s = some b → dctx b context = some x → mayReach o
    x.record.pid b = true → expert < x.record.e → replicas.isEmpty = false → replicas.length ≤ 16 → replicas.any (fun
    r => decide (2 ^ 20 ≤ r.1) || r.2 == 0 || decide (255 < r.2)) = false → noRepeat (replicas.map (·.1)) = true →
    x.tokens.isEmpty = false → exec (.millReplicas o context expert replicas) s = .next (answer o 0x0606 .conflict []
    b)) ∧
  (∀ o context expert replicas x s b, beginsAt o 0x0606 s = some b → dctx b context = some x → mayReach o
    x.record.pid b = true → x.record.e ≤ expert → exec (.millReplicas o context expert replicas) s = .next (answer o
    0x0606 .invalid [] b)) ∧
  -- MILL_WEIGHTS
  (∀ o set pid format d e region offset errs x s b, beginsAt o 0x0607 s = some b → set < 256 → ownerKnown b pid =
    true → expertFormat format = true → 32 ≤ d → d ≤ 16384 → d % 32 = 0 → e ≠ 0 → e ≤ 1024 → mayReach o pid b = true
    → ((tabGet? b.mill.weights set).map (fun w => mayReach o w.pid b)).getD true = true → Machine.region b region =
    some x → x.pid = pid → x.phase = .ready → offset + weightBytes format d e ≤ regionSize x → keyMissing b region x
    = false → millOccupied b pid none (some set) + weightBytes format d e + ((b.mill.batches.filterMap
    (·.weights)).filter (fun w => some w == tabGet? b.mill.weights set) |>.map (·.data.length)).sum ≤ millBytes b pid
    → rangePoisoned (meetErrors region offset (weightBytes format d e) errs (startWork 8 0 (weightBytes format d e)
    b)) region offset (weightBytes format d e) = false → exec (.millWeights o set pid format d e region offset errs)
    s = .next (answer o 0x0607 .ok [] (loadWeights set pid format d e region offset (meetErrors region offset
    (weightBytes format d e) errs (startWork 8 0 (weightBytes format d e) b))))) ∧
  (∀ o set pid format d e region offset errs x s b, beginsAt o 0x0607 s = some b → set < 256 → ownerKnown b pid =
    true → expertFormat format = true → 32 ≤ d → d ≤ 16384 → d % 32 = 0 → e ≠ 0 → e ≤ 1024 → mayReach o pid b = true
    → ((tabGet? b.mill.weights set).map (fun w => mayReach o w.pid b)).getD true = true → Machine.region b region =
    some x → x.pid = pid → x.phase = .ready → offset + weightBytes format d e ≤ regionSize x → keyMissing b region x
    = false → millOccupied b pid none (some set) + weightBytes format d e + ((b.mill.batches.filterMap
    (·.weights)).filter (fun w => some w == tabGet? b.mill.weights set) |>.map (·.data.length)).sum ≤ millBytes b pid
    → rangePoisoned (meetErrors region offset (weightBytes format d e) errs (startWork 8 0 (weightBytes format d e)
    b)) region offset (weightBytes format d e) = true → exec (.millWeights o set pid format d e region offset errs) s
    = .next (answer o 0x0607 .internal [] (meetErrors region offset (weightBytes format d e) errs (startWork 8 0
    (weightBytes format d e) b)))) ∧
  -- MILL_RESTORE
  (∀ o context address x s b, beginsAt o 0x0608 s = some b → dctx b context = some x → mayReach o x.record.pid b =
    true → x.replicas.any (fun e => e.2.any (fun r => r.address == address)) = true → exec (.millRestore o context
    address) s = .next (answer o 0x0608 .ok [] (modDctx context (fun y =>
    { y with
      replicas := tabMap (fun _ l => l.map (fun r => if r.address = address then { r with excluded := false } else
        r)) y.replicas }) b))) ∧
  (∀ o context address s b, beginsAt o 0x0608 s = some b → dctx b context = none → exec (.millRestore o context
    address) s = .next (answer o 0x0608 .invalid [] b)) ∧
  -- MILL_ENABLE
  (∀ o grace s b, beginsAt o 0x0609 s = some b → grace ≤ 1000000 → exec (.millEnable o true grace) s = .next (answer
    o 0x0609 .ok [] (modConfig (fun c => { c with millOff := false }) b))) ∧
  (∀ o grace s b, beginsAt o 0x0609 s = some b → grace ≤ 1000000 → ((stopPrograms b).mill.contexts.all (fun c =>
    c.2.tokens.isEmpty) && (stopPrograms b).mill.programs.all (fun p => !p.2.running)) = true → exec (.millEnable o
    false grace) s = .next (answer o 0x0609 .ok [] (stopPrograms b))) ∧
  (∀ o grace s b, beginsAt o 0x0609 s = some b → grace ≤ 1000000 → ((stopPrograms b).mill.contexts.all (fun c =>
    c.2.tokens.isEmpty) && (stopPrograms b).mill.programs.all (fun p => !p.2.running)) = false → exec (.millEnable o
    false grace) s = .next (accept o 0x0609 (some (grace)) true (modMill (fun m =>
    { m with disabling := m.disabling ++ [o] }) (stopPrograms b)))) ∧
  (∀ o enable grace s b, beginsAt o 0x0609 s = some b → 1000000 < grace → exec (.millEnable o enable grace) s = .next
    (answer o 0x0609 .invalid [] b))

/-- The GRANARY commands complete (R366, R367, R368, R381, R382, R383, R384, R386, R387, R394, R526, R651). One
clause for each form of GRANARY_CREATE, GRANARY_FREE, GRANARY_SET, GRANARY_QUERY, GRANARY_MIRROR_OPEN,
GRANARY_MIRROR_COMMIT, GRANARY_MIRROR_QUERY, GRANARY_MIRROR_CLOSE, GRANARY_CHANNEL_BIND, GRANARY_CHANNEL_SET,
GRANARY_CHANNEL_START, GRANARY_CHANNEL_STOP, GRANARY_ENABLE that the sender's checks let begin (beginsAt): for every
operand and state that meet the clause's conditions, exec answers the next state that the clause writes out, the
status of its response with it. Regions are created, freed, changed and listed, mirrors opened, committed, queried
and closed, channels bound, set, started and stopped, the Granary enabled and disabled. -/
def Obligations.GranaryCommands : Prop :=
  -- GRANARY_CREATE
  (∀ o rec0 extents kind r m s1 s b, beginsAt o 0x0701 s = some b → kindOf rec0.kind = some kind → extents ≠ 0 →
    ownerKnown b rec0.pid = true → mayReach o rec0.pid b = true → freeRegionId b 1 0xDFFF = some r → winnowDown b =
    false → placeRegion r rec0.pid extents b = (some m, s1) → exec (.granaryCreate o rec0 0 extents) s = .next
    (answer o 0x0701 .ok [w32 r] (addRegion r (newRegion kind rec0 m extents false) s1))) ∧
  (∀ o rec0 extents kind r s1 s b, beginsAt o 0x0701 s = some b → kindOf rec0.kind = some kind → extents ≠ 0 →
    ownerKnown b rec0.pid = true → mayReach o rec0.pid b = true → freeRegionId b 1 0xDFFF = some r → winnowDown b =
    false → placeRegion r rec0.pid extents b = (none, s1) → exec (.granaryCreate o rec0 0 extents) s = .next (answer
    o 0x0701 .resource [] (s1))) ∧
  (∀ o rec0 stackSet extents kind r s b, beginsAt o 0x0701 s = some b → kindOf rec0.kind = some kind → extents ≠ 0 →
    stackSet < 2 ^ 16 → stackSet ≠ 0 → ownerKnown b rec0.pid = true → mayReach o rec0.pid b = true → freeRegionId b 1
    0xDFFF = some r → (maskBits 16 stackSet).any (fun g => !testBitN (policy b rec0.pid).stackMask g) = false →
    (extents % (maskBits 16 stackSet).length != 0) = false → (maskBits 16 stackSet).any (fun g => !(eligibleStacks b
    rec0.pid).contains g || decide (freeExtents b g < extents / (maskBits 16 stackSet).length)) = false → exec
    (.granaryCreate o rec0 stackSet extents) s = .next (answer o 0x0701 .ok [w32 r] (writeDecision 3 rec0.pid (wordOf
    [at_ 31 16 r]) (wordOf [at_ 15 0 stackSet]) 0 4 (addRegion r (newRegion kind rec0 stackSet extents true) b)))) ∧
  (∀ o rec0 stackSet extents s b, beginsAt o 0x0701 s = some b → kindOf rec0.kind = none → exec (.granaryCreate o
    rec0 stackSet extents) s = .next (answer o 0x0701 .invalid [] b)) ∧
  -- GRANARY_FREE
  (∀ o region x s b, beginsAt o 0x0702 s = some b → Machine.region b region = some x → region ≠ 0 → region < 0xE000 →
    mayReach o x.pid b = true → x.phase ≠ .freeing → regionNamed b region = false → exec (.granaryFree o region) s =
    .next (answer o 0x0702 .ok [] (freeRegion region b))) ∧
  (∀ o region x s b, beginsAt o 0x0702 s = some b → Machine.region b region = some x → region ≠ 0 → region < 0xE000 →
    mayReach o x.pid b = true → x.phase = .freeing ∨ regionNamed b region = true → exec (.granaryFree o region) s =
    .next (answer o 0x0702 .conflict [] b)) ∧
  (∀ o region x s b, beginsAt o 0x0702 s = some b → Machine.region b region = some x → region ≠ 0 → region < 0xE000 →
    mayReach o x.pid b = false → exec (.granaryFree o region) s = .next (answer o 0x0702 .denied [] b)) ∧
  -- GRANARY_SET
  (∀ o region rec0 x s b, beginsAt o 0x0703 s = some b → Machine.region b region = some x → region ≠ 0 → region <
    0xE000 → mayReach o x.pid b = true → rightsConflict b region x rec0 = false → x.kind ≠ .mirror → exec
    (.granarySet o region rec0) s = .next (answer o 0x0703 .ok [] (setRights region rec0 b))) ∧
  (∀ o region rec0 x s b, beginsAt o 0x0703 s = some b → Machine.region b region = some x → region ≠ 0 → region <
    0xE000 → mayReach o x.pid b = true → rightsConflict b region x rec0 = false → x.kind = .mirror →
    (pendingProposals b).length < 64 → exec (.granarySet o region rec0) s = .next (answer o 0x0703 .quorumPending
    [w32 b.sec.nextProposal] (stageProposal o (.granarySet region rec0) b))) ∧
  (∀ o region rec0 x s b, beginsAt o 0x0703 s = some b → Machine.region b region = some x → region ≠ 0 → region <
    0xE000 → mayReach o x.pid b = true → rightsConflict b region x rec0 = true → exec (.granarySet o region rec0) s =
    .next (answer o 0x0703 .conflict [] b)) ∧
  -- GRANARY_QUERY
  (∀ o region x s b, beginsAt o 0x0704 s = some b → Machine.region b region = some x → mayReach o x.pid b = true →
    exec (.granaryQuery o region) s = .next (answer o 0x0704 .ok (regionWords b region x) b)) ∧
  (∀ o region x s b, beginsAt o 0x0704 s = some b → Machine.region b region = some x → mayReach o x.pid b = false →
    exec (.granaryQuery o region) s = .next (answer o 0x0704 .denied [] b)) ∧
  (∀ o region s b, beginsAt o 0x0704 s = some b → Machine.region b region = none → exec (.granaryQuery o region) s =
    .next (answer o 0x0704 .invalid [] b)) ∧
  -- GRANARY_MIRROR_OPEN
  (∀ o shard owner tags generation size replicas pid s b, beginsAt o 0x0705 s = some b → callerPid o b = some pid →
    shard < 2 ^ 32 → owner < 2 ^ 20 → generation < 2 ^ 32 → size ≠ 0 → size < 2 ^ 64 → replicas.length ≤ 8 →
    replicas.any (fun r => decide (2 ^ 20 ≤ r)) = false → winnowDown b = false → (partition b pid).fenced = false →
    (policy b pid).spines.isEmpty = false → ((ownSid b).map (fun x => (policy b pid).spines.contains x)).getD false =
    true → (((tabGet? b.gran.mirrors (mirrorKey pid shard)).map (fun m => m.phase == 0)).getD false ||
    b.gran.asks.any (fun a => a.2.pid == pid && a.2.shard == shard)) = false → exec (.granaryMirrorOpen o shard owner
    tags generation size replicas) s = .next (askNext b.gran.nextAsk (accept o 0x0705 none true (modGran (fun g =>
    { g with
      asks := tabPut g.asks g.nextAsk
        {
          origin := o,
          pid := pid,
          shard := shard,
          owner := owner,
          tags := tags,
          generation := generation,
          size := size,
          replicas := replicas,
          left := mirrorCandidates b pid shard tags,
          asked := 0,
          count := 0 },
      nextAsk := (g.nextAsk + 1) % 2 ^ 24 }) b)))) ∧
  -- GRANARY_MIRROR_COMMIT
  (∀ o shard generation crc key m s b, beginsAt o 0x0706 s = some b → findMirror o shard b = some (key, m) →
    m.generation = generation → m.phase = 0 → exec (.granaryMirrorCommit o shard generation crc) s = .next (accept o
    0x0706 none true (modGran (fun g => { g with commits := g.commits ++ [⟨o, key, crc⟩] }) b))) ∧
  (∀ o shard generation crc key m s b, beginsAt o 0x0706 s = some b → findMirror o shard b = some (key, m) →
    m.generation ≠ generation ∨ m.phase ≠ 0 → exec (.granaryMirrorCommit o shard generation crc) s = .next (answer o
    0x0706 .conflict [] b)) ∧
  (∀ o shard generation crc s b, beginsAt o 0x0706 s = some b → findMirror o shard b = none → exec
    (.granaryMirrorCommit o shard generation crc) s = .next (answer o 0x0706 .invalid [] b)) ∧
  -- GRANARY_MIRROR_QUERY
  (∀ o shard key m s b, beginsAt o 0x0707 s = some b → findMirror o shard b = some (key, m) → exec
    (.granaryMirrorQuery o shard) s = .next (answer o 0x0707 .ok (mirrorWords key m) b)) ∧
  (∀ o shard s b, beginsAt o 0x0707 s = some b → findMirror o shard b = none → exec (.granaryMirrorQuery o shard) s =
    .next (answer o 0x0707 .invalid [] b)) ∧
  -- GRANARY_MIRROR_CLOSE
  (∀ o shard key m s b, beginsAt o 0x0708 s = some b → findMirror o shard b = some (key, m) → exec
    (.granaryMirrorClose o shard) s = .next (answer o 0x0708 .ok [] (freeMirrorRegion m.prevSid m.prevRegion
    (freeMirrorRegion m.sid m.region (modGran (fun g => { g with mirrors := tabDel g.mirrors key }) b))))) ∧
  (∀ o shard s b, beginsAt o 0x0708 s = some b → findMirror o shard b = none → exec (.granaryMirrorClose o shard) s =
    .next (answer o 0x0708 .invalid [] b)) ∧
  -- GRANARY_CHANNEL_BIND
  (∀ o channel pid rate s b, beginsAt o 0x0709 s = some b → 24 ≤ channel → channel < 32 → pid = 0xFFF ∨ (ownerKnown b
    pid = true ∧ rate ≠ 0 ∧ rate ≤ 1200) → channelRests b channel = true → exec (.granaryChannelBind o channel pid
    rate) s = .next (answer o 0x0709 .ok [] (modChannel channel (fun x =>
    { x with
      cfg := { channelRecReset with pid := pid },
      phase := .idle,
      consumer := 0,
      done := 0,
      rate := if pid = 0xFFF then 100 else rate }) b))) ∧
  (∀ o channel pid rate s b, beginsAt o 0x0709 s = some b → 24 ≤ channel → channel < 32 → pid = 0xFFF ∨ (ownerKnown b
    pid = true ∧ rate ≠ 0 ∧ rate ≤ 1200) → channelRests b channel = false → exec (.granaryChannelBind o channel pid
    rate) s = .next (answer o 0x0709 .conflict [] b)) ∧
  (∀ o channel pid rate s b, beginsAt o 0x0709 s = some b → channel < 24 ∨ 32 ≤ channel → exec (.granaryChannelBind o
    channel pid rate) s = .next (answer o 0x0709 .invalid [] b)) ∧
  -- GRANARY_CHANNEL_SET
  (∀ o channel setting s b, beginsAt o 0x070A s = some b → channel < 32 → setting.stale ≠ 0 → channelRecGood setting
    = true → channelReach o channel b = true → mayReach o setting.pid b = true → channelRests b channel = true → exec
    (.granaryChannelSet o channel setting) s = .next (answer o 0x070A .ok [] (modChannel channel (fun y =>
    { y with cfg := setting, done := 0 }) b))) ∧
  (∀ o channel setting s b, beginsAt o 0x070A s = some b → channel < 32 → setting.stale ≠ 0 → channelRecGood setting
    = true → channelReach o channel b = true → mayReach o setting.pid b = true → channelRests b channel = false →
    exec (.granaryChannelSet o channel setting) s = .next (answer o 0x070A .conflict [] b)) ∧
  (∀ o channel setting s b, beginsAt o 0x070A s = some b → channel < 32 → setting.stale ≠ 0 → channelRecGood setting
    = true → channelReach o channel b = false ∨ mayReach o setting.pid b = false → exec (.granaryChannelSet o channel
    setting) s = .next (answer o 0x070A .denied [] b)) ∧
  -- GRANARY_CHANNEL_START
  (∀ o channel s b, beginsAt o 0x070B s = some b → channel < 32 → channelReach o channel b = true → ringGood b
    (Machine.channel b channel).cfg.pid (Machine.channel b channel).cfg.ringRegion (Machine.channel b
    channel).cfg.ringOffset (Machine.channel b channel).cfg.ringLog2 = true → ringGood b (Machine.channel b
    channel).cfg.pid (Machine.channel b channel).cfg.cplRegion (Machine.channel b channel).cfg.cplOffset
    (Machine.channel b channel).cfg.ringLog2 = true → granaryOff b = false → (Machine.channel b channel).cfg.enable =
    true → ((Machine.channel b channel).phase == .stopping) = false → exec (.granaryChannelStart o channel) s = .next
    (answer o 0x070B .ok [] (modChannel channel (fun x => { x with phase := .running }) b))) ∧
  (∀ o channel s b, beginsAt o 0x070B s = some b → channel < 32 → channelReach o channel b = false → exec
    (.granaryChannelStart o channel) s = .next (answer o 0x070B .denied [] b)) ∧
  (∀ o channel s b, beginsAt o 0x070B s = some b → 32 ≤ channel → exec (.granaryChannelStart o channel) s = .next
    (answer o 0x070B .invalid [] b)) ∧
  -- GRANARY_CHANNEL_STOP
  (∀ o channel grace s b, beginsAt o 0x070C s = some b → channel < 32 → grace ≤ 1000000 → channelReach o channel b =
    true → (Machine.channel b channel).flight.isEmpty = true → exec (.granaryChannelStop o channel grace) s = .next
    (answer o 0x070C .ok [] (modChannel channel (fun x => { x with phase := .stopped }) b))) ∧
  (∀ o channel grace s b, beginsAt o 0x070C s = some b → channel < 32 → grace ≤ 1000000 → channelReach o channel b =
    true → (Machine.channel b channel).flight.isEmpty = false → exec (.granaryChannelStop o channel grace) s = .next
    (accept o 0x070C (some (grace)) true (stopChannel channel (some o) b))) ∧
  (∀ o channel grace s b, beginsAt o 0x070C s = some b → 32 ≤ channel ∨ 1000000 < grace → exec (.granaryChannelStop o
    channel grace) s = .next (answer o 0x070C .invalid [] b)) ∧
  -- GRANARY_ENABLE
  (∀ o grace s b, beginsAt o 0x070D s = some b → grace ≤ 1000000 → b.gran.disabling = none → exec (.granaryEnable o
    true grace) s = .next (answer o 0x070D .ok [] (modConfig (fun c => { c with granaryOff := false }) b))) ∧
  (∀ o grace s b, beginsAt o 0x070D s = some b → grace ≤ 1000000 → b.gran.disabling = none → (stopChannels
    b).gran.channels.any (fun e => e.2.phase == .stopping) = true → exec (.granaryEnable o false grace) s = .next
    (accept o 0x070D (some (grace)) true (modGran (fun g => { g with disabling := some (o, false) }) (stopChannels
    b)))) ∧
  (∀ o grace s b, beginsAt o 0x070D s = some b → grace ≤ 1000000 → b.gran.disabling = none → (stopChannels
    b).gran.channels.any (fun e => e.2.phase == .stopping) = false → exec (.granaryEnable o false grace) s = .next
    (answer o 0x070D .ok [] (stopChannels b))) ∧
  (∀ o enable grace x s b, beginsAt o 0x070D s = some b → grace ≤ 1000000 → b.gran.disabling = some x → exec
    (.granaryEnable o enable grace) s = .next (answer o 0x070D .notReady [] b))

/-- The GRIST commands complete (R375, R376, R377, R380, R445, R516, R527). One clause for each form of GRIST_LOAD,
GRIST_START, GRIST_STOP, GRIST_UNLOAD, GRIST_STATUS that the sender's checks let begin (beginsAt): for every operand
and state that meet the clause's conditions, exec answers the next state that the clause writes out, the status of
its response with it. A program is placed in a slot, started, stopped, unloaded and reported. -/
def Obligations.GristCommands : Prop :=
  -- GRIST_LOAD
  (∀ o slot params x s b, beginsAt o 0x0801 s = some b → gristParamsGood slot params = true → (ownSid b).isNone =
    false → granaryOff b = false → mayReach o params.pid b = true → (isTenant o && params.sow == 1) = false → (grist
    b slot).isSome = false → epochBad b params.pid params.epoch = false → Machine.region b params.region = some x →
    x.pid = params.pid → x.phase = .ready → params.offset + 32 * params.count ≤ regionSize x → ((List.range
    params.count).map (fun i => gristEntryOf (readBytes b params.region (params.offset + 32 * i) 32))).all (entryGood
    b params.pid) = true → timesRise none ((List.range params.count).map (fun i => gristEntryOf (readBytes b
    params.region (params.offset + 32 * i) 32))) = true → exec (.gristLoad o slot params) s = .next (answer o 0x0801
    .ok [] (modGran (fun x =>
    { x with
      grists := tabPut x.grists slot
        {
          params := if params.entropy = 0x100 then { params with entropy := slot } else params,
          entries := (List.range params.count).map (fun i => gristEntryOf (readBytes b params.region (params.offset +
            32 * i) 32)),
          phase := .loaded,
          next := 0,
          staged := [],
          lateCount := 0 } }) b))) ∧
  (∀ o slot params s b, beginsAt o 0x0801 s = some b → gristParamsGood slot params = false → exec (.gristLoad o slot
    params) s = .next (answer o 0x0801 .invalid [] b)) ∧
  -- GRIST_START
  (∀ o slot g s b, beginsAt o 0x0802 s = some b → slot < 64 → (ownSid b).isNone = false → grist b slot = some g →
    slotReach o b g = true → g.phase ≠ .running → (partition b g.params.pid).fenced = false → (g.entries.any
    timedEntry && (b.time.phase == .unset || b.time.phase == .acquiring)) = false → exec (.gristStart o slot) s =
    .next (answer o 0x0802 .ok [] (modGrist slot (fun x => { x with phase := .running, next := 0, staged := [] })
    b))) ∧
  (∀ o slot g s b, beginsAt o 0x0802 s = some b → slot < 64 → (ownSid b).isNone = false → grist b slot = some g →
    slotReach o b g = true → g.phase = .running → exec (.gristStart o slot) s = .next (answer o 0x0802 .conflict []
    b)) ∧
  (∀ o slot g s b, beginsAt o 0x0802 s = some b → slot < 64 → (ownSid b).isNone = false → grist b slot = some g →
    slotReach o b g = true → g.phase ≠ .running → (partition b g.params.pid).fenced = true → exec (.gristStart o
    slot) s = .next (answer o 0x0802 .epoch [] b)) ∧
  -- GRIST_STOP
  (∀ o slot g s b, beginsAt o 0x0803 s = some b → slot < 64 → (ownSid b).isNone = false → grist b slot = some g →
    slotReach o b g = true → g.phase = .running → exec (.gristStop o slot) s = .next (answer o 0x0803 .ok []
    (modGrist slot (fun x => { x with phase := .loaded }) (dropStaged slot b)))) ∧
  (∀ o slot g s b, beginsAt o 0x0803 s = some b → slot < 64 → (ownSid b).isNone = false → grist b slot = some g →
    slotReach o b g = true → g.phase ≠ .running → exec (.gristStop o slot) s = .next (answer o 0x0803 .ok [] b)) ∧
  -- GRIST_UNLOAD
  (∀ o slot g s b, beginsAt o 0x0804 s = some b → slot < 64 → (ownSid b).isNone = false → grist b slot = some g →
    slotReach o b g = true → g.phase ≠ .running → exec (.gristUnload o slot) s = .next (answer o 0x0804 .ok []
    (modGran (fun x => { x with grists := tabDel x.grists slot }) b))) ∧
  (∀ o slot g s b, beginsAt o 0x0804 s = some b → slot < 64 → (ownSid b).isNone = false → grist b slot = some g →
    slotReach o b g = true → g.phase = .running → exec (.gristUnload o slot) s = .next (answer o 0x0804 .conflict []
    b)) ∧
  -- GRIST_STATUS
  (∀ o slot g s b, beginsAt o 0x0805 s = some b → slot < 64 → (ownSid b).isNone = false → grist b slot = some g →
    slotReach o b g = true → exec (.gristStatus o slot) s = .next (answer o 0x0805 .ok [w32 (gristPhaseCode g.phase),
    w32 g.next, w32 g.lateCount] b)) ∧
  (∀ o slot g s b, beginsAt o 0x0805 s = some b → slot < 64 → (ownSid b).isNone = false → grist b slot = some g →
    slotReach o b g = false → exec (.gristStatus o slot) s = .next (answer o 0x0805 .denied [] b))

/-- The WINNOW commands complete (R396, R397, R399, R400, R403, R408, R411, R421, R528). One clause for each form of
WINNOW_POLICY, WINNOW_TAGS, WINNOW_PIN, WINNOW_UNPIN, WINNOW_CRUST_MASK, WINNOW_LOG that the sender's checks let
begin (beginsAt): for every operand and state that meet the clause's conditions, exec answers the next state that the
clause writes out, the status of its response with it. Policies, tags, pins and crust masks are installed or
proposed, and the decision log is read. -/
def Obligations.WinnowCommands : Prop :=
  -- WINNOW_POLICY
  (∀ o pid setting s b, beginsAt o 0x0901 s = some b → policyCheck b pid setting = none → setting.diversity = (policy
    b pid).diversity → exec (.winnowPolicy o pid setting) s = .next (answer o 0x0901 .ok [] (setPolicy pid setting
    b))) ∧
  (∀ o pid setting s b, beginsAt o 0x0901 s = some b → policyCheck b pid setting = none → setting.diversity ≠ (policy
    b pid).diversity → (pendingProposals b).length < 64 → exec (.winnowPolicy o pid setting) s = .next (answer o
    0x0901 .quorumPending [w32 b.sec.nextProposal] (stageProposal o (.winnowPolicy pid setting) b))) ∧
  (∀ o pid setting st s b, beginsAt o 0x0901 s = some b → policyCheck b pid setting = some st → exec (.winnowPolicy o
    pid setting) s = .next (answer o 0x0901 st [] b)) ∧
  -- WINNOW_TAGS
  (∀ o entries s b, beginsAt o 0x0902 s = some b → entries.all tagGood = true → exec (.winnowTags o entries) s =
    .next (answer o 0x0902 .ok [] (modWinnow (fun w =>
    { w with tags := entries.foldl (fun t e => tabSet tagsReset t (e.1 * 2 ^ 20 + e.2.1) e.2.2) w.tags }) b))) ∧
  (∀ o entries s b, beginsAt o 0x0902 s = some b → entries.all tagGood = false → exec (.winnowTags o entries) s =
    .next (answer o 0x0902 .invalid [] b)) ∧
  -- WINNOW_PIN
  (∀ o subject s b, beginsAt o 0x0903 s = some b → pinDenied o b subject = false → pinGood b subject = true →
    pinConflict b subject = false → exec (.winnowPin o subject) s = .next (answer o 0x0903 .ok [] (logPin b subject
    (setPin subject b)))) ∧
  (∀ o subject s b, beginsAt o 0x0903 s = some b → pinDenied o b subject = false → pinGood b subject = true →
    pinConflict b subject = true → exec (.winnowPin o subject) s = .next (answer o 0x0903 .conflict [] b)) ∧
  (∀ o subject s b, beginsAt o 0x0903 s = some b → pinDenied o b subject = true → exec (.winnowPin o subject) s =
    .next (answer o 0x0903 .denied [] b)) ∧
  -- WINNOW_UNPIN
  (∀ o subject s b, beginsAt o 0x0904 s = some b → pinDenied o b subject = false → unpinGood b subject = true → exec
    (.winnowUnpin o subject) s = .next (answer o 0x0904 .ok [] (logPin b subject (clearPin subject b)))) ∧
  (∀ o subject s b, beginsAt o 0x0904 s = some b → pinDenied o b subject = false → unpinGood b subject = false → exec
    (.winnowUnpin o subject) s = .next (answer o 0x0904 .invalid [] b)) ∧
  -- WINNOW_CRUST_MASK
  (∀ o engine mask s b, beginsAt o 0x0905 s = some b → engine < 32 → mask.maxLanes ≤ 32 → mask.pairs < 2 ^ 64 →
    mask.setUp < 65536 → mask.tearDown < mask.setUp → fibrePairs.any (fun x => b.winnow.crustPins.contains (pairKey
    engine x.1 x.2) && !maskPermits mask x.1 x.2) = false → exec (.winnowCrustMask o engine mask) s = .next (answer o
    0x0905 .ok [] (modWinnow (fun w => { w with crustMasks := tabSet crustMaskReset w.crustMasks engine mask }) b)))
    ∧
  (∀ o engine mask s b, beginsAt o 0x0905 s = some b → engine < 32 → mask.maxLanes ≤ 32 → mask.pairs < 2 ^ 64 →
    mask.setUp < 65536 → mask.tearDown < mask.setUp → fibrePairs.any (fun x => b.winnow.crustPins.contains (pairKey
    engine x.1 x.2) && !maskPermits mask x.1 x.2) = true → exec (.winnowCrustMask o engine mask) s = .next (answer o
    0x0905 .conflict [] b)) ∧
  (∀ o engine mask s b, beginsAt o 0x0905 s = some b → 32 ≤ engine ∨ 32 < mask.maxLanes ∨ mask.setUp ≤ mask.tearDown
    → exec (.winnowCrustMask o engine mask) s = .next (answer o 0x0905 .invalid [] b)) ∧
  -- WINNOW_LOG
  (∀ o first amount s b, beginsAt o 0x0906 s = some b → 0 < amount → amount ≤ 256 → first < 2 ^ 32 → exec (.winnowLog
    o first amount) s = .next (answer o 0x0906 .ok (countedWords (((b.winnow.log.filter (fun d => decide ((d.seq + 2
    ^ 32 - first) % 2 ^ 32 < 2 ^ 31) && mayReach o d.pid b)).take amount).map decisionWords)) b)) ∧
  (∀ o first amount s b, beginsAt o 0x0906 s = some b → amount = 0 ∨ 256 < amount ∨ 2 ^ 32 ≤ first → exec (.winnowLog
    o first amount) s = .next (answer o 0x0906 .invalid [] b))

/-- The TIME commands complete (R431, R436, R437, R439, R441, R443, R446, R529). One clause for each form of
TIME_TIE, TIME_ACCEPT_STEP, TIME_THRESH, TIME_ASYM, TIME_PRIORITY, TIME_PPS, TIME_LAUNCH_READ, TIME_STATUS that the
sender's checks let begin (beginsAt): for every operand and state that meet the clause's conditions, exec answers the
next state that the clause writes out, the status of its response with it. The fabric's time settings, the time
status and the launch timestamps. -/
def Obligations.TimeCommands : Prop :=
  -- TIME_TIE
  (∀ o domain t96 s b, beginsAt o 0x0A01 s = some b → domain ≤ 127 → t96 / 2 ^ 16 % 2 ^ 32 < 1000000000 →
    b.time.phase = .unset → b.time.priority < 255 → b.time.tie = none → exec (.timeTie o 2 domain t96) s = .next
    (answer o 0x0A01 .ok [] (tieTo (devOf96 t96) b))) ∧
  (∀ o source domain t96 s b, beginsAt o 0x0A01 s = some b → source < 2 → domain ≤ 127 → t96 / 2 ^ 16 % 2 ^ 32 <
    1000000000 → b.time.phase = .unset → b.time.priority < 255 → b.time.tie = none → exec (.timeTie o source domain
    t96) s = .next (accept o 0x0A01 none true (modTime (fun t =>
    { t with
      tie := some { origin := o, source := source, domain := domain, seconds := t96 / 2 ^ 48, offsets := [] } }) b)))
    ∧
  (∀ o source domain t96 s b, beginsAt o 0x0A01 s = some b → source ≤ 2 → domain ≤ 127 → t96 / 2 ^ 16 % 2 ^ 32 <
    1000000000 → b.time.phase ≠ .unset ∨ 255 ≤ b.time.priority → exec (.timeTie o source domain t96) s = .next
    (answer o 0x0A01 .conflict [] b)) ∧
  (∀ o source domain t96 s b, beginsAt o 0x0A01 s = some b → 2 < source ∨ 127 < domain ∨ 1000000000 ≤ t96 / 2 ^ 16 %
    2 ^ 32 → exec (.timeTie o source domain t96) s = .next (answer o 0x0A01 .invalid [] b)) ∧
  -- TIME_ACCEPT_STEP
  (∀ o limit s b, beginsAt o 0x0A02 s = some b → b.time.jumpRefused = true → b.time.accept = none → exec
    (.timeAcceptStep o limit) s = .next (accept o 0x0A02 none true (modTime (fun t =>
    { t with accept := some { origin := o, limit := limit, samples := [] } }) b))) ∧
  (∀ o limit x s b, beginsAt o 0x0A02 s = some b → b.time.jumpRefused = true → b.time.accept = some x → exec
    (.timeAcceptStep o limit) s = .next (answer o 0x0A02 .conflict [] b)) ∧
  (∀ o limit s b, beginsAt o 0x0A02 s = some b → b.time.jumpRefused = false → exec (.timeAcceptStep o limit) s =
    .next (answer o 0x0A02 .invalid [] b)) ∧
  -- TIME_THRESH
  (∀ o ns s b, beginsAt o 0x0A03 s = some b → 50 ≤ ns → ns ≤ 1000000000 → exec (.timeThresh o ns) s = .next (answer o
    0x0A03 .ok [] (modTime (fun t => { t with thresh := ns }) b))) ∧
  (∀ o ns s b, beginsAt o 0x0A03 s = some b → ns < 50 ∨ 1000000000 < ns → exec (.timeThresh o ns) s = .next (answer o
    0x0A03 .invalid [] b)) ∧
  -- TIME_ASYM
  (∀ o port asym s b, beginsAt o 0x0A04 s = some b → portKnown b port = true → beyond asym 10000 = false → exec
    (.timeAsym o port asym) s = .next (answer o 0x0A04 .ok [] (modPort port (fun x => { x with asym := asym }) b))) ∧
  (∀ o port asym s b, beginsAt o 0x0A04 s = some b → portKnown b port = false ∨ beyond asym 10000 = true → exec
    (.timeAsym o port asym) s = .next (answer o 0x0A04 .invalid [] b)) ∧
  -- TIME_PRIORITY
  (∀ o value s b, beginsAt o 0x0A05 s = some b → value ≤ 255 → exec (.timePriority o value) s = .next (answer o
    0x0A05 .ok [] (modTime (fun t => { t with priority := value }) b))) ∧
  (∀ o value s b, beginsAt o 0x0A05 s = some b → 255 < value → exec (.timePriority o value) s = .next (answer o
    0x0A05 .invalid [] b)) ∧
  -- TIME_PPS
  (∀ o discipline s b, beginsAt o 0x0A06 s = some b → exec (.timePps o discipline) s = .next (answer o 0x0A06 .ok []
    (modTime (fun t => { t with discipline := discipline }) b))) ∧
  -- TIME_LAUNCH_READ
  (∀ o most s b, beginsAt o 0x0A07 s = some b → 0 < most → most ≤ 256 → exec (.timeLaunchRead o most) s = .next
    (answer o 0x0A07 .ok (w32 (bit (b.time.overflow.any (launchMine o b))) :: countedWords (((b.time.launches.filter
    (fun e => launchMine o b e.pid)).take most).map launchWords)) (modTime (fun t =>
    { t with
      launches := (t.launches.foldl (fun (a : List LaunchEntry × Nat) e => if launchMine o b e.pid && decide (a.2 <
        most) then (a.1, a.2 + 1) else (a.1 ++ [e], a.2)) ([], 0)).1,
      overflow := t.overflow.filter (fun p => !launchMine o b p) }) b))) ∧
  (∀ o most s b, beginsAt o 0x0A07 s = some b → most = 0 ∨ 256 < most → exec (.timeLaunchRead o most) s = .next
    (answer o 0x0A07 .invalid [] b)) ∧
  -- TIME_STATUS
  (∀ o s b, beginsAt o 0x0A08 s = some b → exec (.timeStatus o) s = .next (answer o 0x0A08 .ok (timeHead b ++ [w32
    (b.time.parent.getD 0xFFFF), offNs b.time.lastOff] ++ t96Words b.clk.dev) b))

/-- The COUNTER and CRUMB commands complete (R530, R561, R562, R593, R595, R597, R598, R599, R602, R604). One clause
for each form of COUNTER_READ, COUNTER_SNAPSHOT, COUNTER_FILTER, CRUMB_READ, CRUMB_DUMP, CRUMB_TRACE that the
sender's checks let begin (beginsAt): for every operand and state that meet the clause's conditions, exec answers the
next state that the clause writes out, the status of its response with it. Counters are read, latched and filtered,
crumb bytes and dumps are read and tracing is set. -/
def Obligations.CounterCommands : Prop :=
  -- COUNTER_READ
  (∀ o ids s b, beginsAt o 0x0B01 s = some b → counterCheck o ids b = none → exec (.counterRead o ids) s = .next
    (answer o 0x0B01 .ok (t96Words b.clk.dev ++ counterValues b ids) b)) ∧
  (∀ o ids st s b, beginsAt o 0x0B01 s = some b → counterCheck o ids b = some st → exec (.counterRead o ids) s =
    .next (answer o 0x0B01 st [] b)) ∧
  -- COUNTER_SNAPSHOT
  (∀ o ids s b, beginsAt o 0x0B02 s = some b → counterCheck o ids b = none → exec (.counterSnapshot o ids) s = .next
    (accept o 0x0B02 none false (modTele (fun t =>
    { t with snapshots := t.snapshots ++ [⟨o, t96Of (b.clk.dev + 20000 * 65536), ids⟩] }) b))) ∧
  (∀ o ids st s b, beginsAt o 0x0B02 s = some b → counterCheck o ids b = some st → exec (.counterSnapshot o ids) s =
    .next (answer o 0x0B02 st [] b)) ∧
  -- COUNTER_FILTER
  (∀ o rec0 s b, beginsAt o 0x0B03 s = some b → rec0.filter < 64 → rec0.point < 4 → exec (.counterFilter o rec0) s =
    .next (answer o 0x0B03 .ok [] (modTele (fun t =>
    { t with
      filters := tabPut t.filters rec0.filter rec0,
      counters := (filterCounters rec0.filter).foldl tabDel t.counters }) b))) ∧
  (∀ o rec0 s b, beginsAt o 0x0B03 s = some b → 64 ≤ rec0.filter ∨ 4 ≤ rec0.point → exec (.counterFilter o rec0) s =
    .next (answer o 0x0B03 .invalid [] b)) ∧
  -- CRUMB_READ
  (∀ o offset length s b, beginsAt o 0x0C01 s = some b → 0 < length → length ≤ 1048572 → readsRecoveryLog b = true →
    offset + length ≤ 1048576 → exec (.crumbRead o offset length) s = .next (answer o 0x0C01 .ok (byteString
    (recoverySpan b offset length)) b)) ∧
  (∀ o offset length s b, beginsAt o 0x0C01 s = some b → 0 < length → length ≤ 1048572 → readsRecoveryLog b = false →
    offset + length ≤ 2 ^ 32 → rangePoisoned b 0xFFFF offset length = false → exec (.crumbRead o offset length) s =
    .next (answer o 0x0C01 .ok (byteString (crumbBytes b offset length)) (if b.start.phase = .running then startWork
    4 0 length b else b))) ∧
  (∀ o offset length s b, beginsAt o 0x0C01 s = some b → 0 < length → length ≤ 1048572 → readsRecoveryLog b = false →
    offset + length ≤ 2 ^ 32 → rangePoisoned b 0xFFFF offset length = true → exec (.crumbRead o offset length) s =
    .next (answer o 0x0C01 .internal [] b)) ∧
  (∀ o offset length s b, beginsAt o 0x0C01 s = some b → length = 0 ∨ 1048572 < length → exec (.crumbRead o offset
    length) s = .next (answer o 0x0C01 .invalid [] b)) ∧
  -- CRUMB_DUMP
  (∀ o s b, beginsAt o 0x0C02 s = some b → exec (.crumbDump o) s = .next (answer o 0x0C02 .ok (words64 (dumpOffset
    b.tele.dumpSeq) ++ [w32 (4 * (dumpWords false 0 0x000D 0 [] b).length)]) (writeDump false 0 0x000D 0 [] b))) ∧
  -- CRUMB_TRACE
  (∀ o categories pidMatch pid s b, beginsAt o 0x0C03 s = some b → exec (.crumbTrace o categories pidMatch pid) s =
    .next (answer o 0x0C03 .ok [] (modTele (fun t =>
    { t with traceCategories := categories % 2 ^ 32, tracePid := if pidMatch then some (pid % 4096) else none }) b)))

/-- The RESET and POWER commands complete (R530, R548, R551, R552, R556, R560, R564, R630, R631, R651). One clause
for each form of RESET_CONTEXT, RESET_ENGINE, RESET_SLICE, RESET_CHIP, RESET_CYCLE, POWER_CAP, POWER_STATUS that the
sender's checks let begin (beginsAt): for every operand and state that meet the clause's conditions, exec answers the
next state that the clause writes out, the status of its response with it. Contexts, engines, slices and the chip are
reset, the module cycle is requested, the power cap is set and power reported. -/
def Obligations.ResetCommands : Prop :=
  -- RESET_CONTEXT
  (∀ o gid seq g s b, beginsAt o 0x0D01 s = some b → group b gid = some g → mayReach o g.pid b = true → (abortTargets
    b gid seq).any (fun e => loafRunning e.2) = true → exec (.resetContext o 0 gid seq) s = .next (answer o 0x0D01
    .ok [] (noteLevel 1 (abortLoaf gid seq 6 b)))) ∧
  (∀ o slot y g s b, beginsAt o 0x0D01 s = some b → grist b slot = some g → slotReach o b g = true → g.phase =
    .running → exec (.resetContext o 1 slot y) s = .next (answer o 0x0D01 .ok [] (abortGrist slot (staleCrumb 1 slot
    g.params.pid b)))) ∧
  (∀ o c y s b, beginsAt o 0x0D01 s = some b → c < 32 → channelReach o c b = true → (channel b c).flight.all (fun f
    => f.status.isSome) = false → exec (.resetContext o 2 c y) s = .next (answer o 0x0D01 .ok [] (settleStop c
    (failFlight c .aborted false (modChannel c (fun x =>
    { x with phase := if x.phase = .running then .error else x.phase }) (staleCrumb 2 (c * 2 ^ 17 + ((channel b
    c).flight.head?.map (·.index)).getD 0) (channel b c).cfg.pid b)))))) ∧
  (∀ o mb seq s b, beginsAt o 0x0D01 s = some b → mb < 64 → ¬(mb = o.mailbox ∧ seq = o.seq) → (isTenant o && (mailbox
    b mb).pid != (mailbox b o.mailbox).pid) = false → (mailbox b mb).outstanding.any (fun c => c.seq == seq) = true →
    exec (.resetContext o 3 mb seq) s = .next (answer o 0x0D01 .ok [] (expireCommand mb seq b))) ∧
  (∀ o t x y s b, beginsAt o 0x0D01 s = some b → 3 < t → exec (.resetContext o t x y) s = .next (answer o 0x0D01
    .invalid [] b)) ∧
  -- RESET_ENGINE
  (∀ o code trains s b, beginsAt o 0x0D02 s = some b → fld code 23 16 = 0 → engineKnown b (fld code 31 24) (fld code
    15 0) = true → (askedFor (escalate 2 (engineScope (fld code 31 24) (fld code 15 0)) 0x000B [code.toNat] b) 2
    (engineScope (fld code 31 24) (fld code 15 0))).isSome = true → thirdEngineReset (escalate 2 (engineScope (fld
    code 31 24) (fld code 15 0)) 0x000B [code.toNat] b) (engineScope (fld code 31 24) (fld code 15 0)) = false → exec
    (.resetEngine o code trains) s = .next (answer o 0x0D02 .ok [] (resetEngine (fld code 31 24) (fld code 15 0)
    trains (escalate 2 (engineScope (fld code 31 24) (fld code 15 0)) 0x000B [code.toNat] b)))) ∧
  (∀ o code trains s b, beginsAt o 0x0D02 s = some b → fld code 23 16 ≠ 0 ∨ engineKnown b (fld code 31 24) (fld code
    15 0) = false → exec (.resetEngine o code trains) s = .next (answer o 0x0D02 .invalid [] b)) ∧
  -- RESET_SLICE
  (∀ o slice trains s b, beginsAt o 0x0D03 s = some b → slice < 8 → (askedFor (escalate 3 (islandScope (l3Home (8 +
    slice))) 0x000B [slice] b) 3 (islandScope (l3Home (8 + slice)))).isSome = true → (recentTimes (escalate 3
    (islandScope (l3Home (8 + slice))) 0x000B [slice] b) 600000000000 (tabGet (fun _ => []) (escalate 3 (islandScope
    (l3Home (8 + slice))) 0x000B [slice] b).rst.l3Times (islandScope (l3Home (8 + slice))))).length < 2 → exec
    (.resetSlice o slice trains) s = .next (answer o 0x0D03 .ok [] (resetScope (8 + slice) trains (escalate 3
    (islandScope (l3Home (8 + slice))) 0x000B [slice] b)))) ∧
  -- RESET_ENGINE
  (∀ o code trains s b, beginsAt o 0x0D02 s = some b → fld code 23 16 = 0 → engineKnown b (fld code 31 24) (fld code
    15 0) = true → ((askedFor (escalate 2 (engineScope (fld code 31 24) (fld code 15 0)) 0x000B [code.toNat] b) 2
    (engineScope (fld code 31 24) (fld code 15 0))).isSome && !thirdEngineReset (escalate 2 (engineScope (fld code 31
    24) (fld code 15 0)) 0x000B [code.toNat] b) (engineScope (fld code 31 24) (fld code 15 0))) = false → exec
    (.resetEngine o code trains) s = .next (answer o 0x0D02 .aborted [] (resetEngine (fld code 31 24) (fld code 15 0)
    trains (escalate 2 (engineScope (fld code 31 24) (fld code 15 0)) 0x000B [code.toNat] b)))) ∧
  -- RESET_SLICE
  (∀ o slice trains s b, beginsAt o 0x0D03 s = some b → 8 ≤ slice → exec (.resetSlice o slice trains) s = .next
    (answer o 0x0D03 .invalid [] b)) ∧
  -- RESET_CHIP
  (∀ o s b, beginsAt o 0x0D04 s = some b → b.start.phase = .recovery → exec (.resetChip o) s = .next (accept o 0x0D04
    none true (beginCold b))) ∧
  (∀ o s b, beginsAt o 0x0D04 s = some b → b.start.phase ≠ .recovery → exec (.resetChip o) s = .next (accept o 0x0D04
    none true (escalate 4 0 0x000B [] b))) ∧
  -- RESET_CYCLE
  (∀ o s b, beginsAt o 0x0D05 s = some b → exec (.resetCycle o) s = .next (accept o 0x0D05 none true (escalate 5 0
    0x000B [] b))) ∧
  -- POWER_CAP
  (∀ o watts s b, beginsAt o 0x1101 s = some b → watts = 0 ∨ (1000 ≤ watts ∧ watts ≤ 2800) → exec (.powerCap o watts)
    s = .next (answer o 0x1101 .ok [] (modPower (fun p => { p with cap := watts }) b))) ∧
  (∀ o watts s b, beginsAt o 0x1101 s = some b → watts ≠ 0 → watts < 1000 ∨ 2800 < watts → exec (.powerCap o watts) s
    = .next (answer o 0x1101 .invalid [] b)) ∧
  -- POWER_STATUS
  (∀ o s b, beginsAt o 0x1102 s = some b → exec (.powerStatus o) s = .next (answer o 0x1102 .ok [w32
    b.power.telemetry.milliVolts, w32 b.power.telemetry.milliAmps, w32 b.power.telemetry.watts, wInt
    b.power.telemetry.switchTemp, wInt b.power.telemetry.computeTemp, wInt b.power.telemetry.opticalTemp, w32
    (throttleStep b)] b))

/-- The QUORUM, KEY and ATTEST commands complete (R530, R569, R570, R573, R575, R576, R577, R578, R584, R585, R586,
R587). One clause for each form of QUORUM_LIST, QUORUM_APPROVE, QUORUM_WITHDRAW, KEY_SESSION, KEY_LOAD, KEY_BIND,
KEY_ZEROIZE, ATTEST_REPORT, ATTEST_CHAIN that the sender's checks let begin (beginsAt): for every operand and state
that meet the clause's conditions, exec answers the next state that the clause writes out, the status of its response
with it. Proposals are listed, approved and withdrawn, session keys made, keys loaded, bound and cleared, reports and
chains returned. -/
def Obligations.SecurityCommands : Prop :=
  -- QUORUM_LIST
  (∀ o s b, beginsAt o 0x0E01 s = some b → exec (.quorumList o) s = .next (answer o 0x0E01 .ok (countedWords
    ((b.sec.proposals.filter (fun p => mayReach o p.2.pid b)).map (fun p => proposalWords p.1 p.2))) b)) ∧
  -- QUORUM_APPROVE
  (∀ o proposal signature p s b, beginsAt o 0x0E02 s = some b → tabGet? b.sec.proposals proposal = some p → p.state =
    .pending → sideRecorded o p = false → nowRef b < p.expiry → Config.ecdsaVerify o.cert (approvalBytes proposal p
    true) signature = true → (p.opApproved || p.pgApproved) = true → exec (.quorumApprove o proposal true signature)
    s = .next (answer o 0x0E02 .ok [] (completeProposal proposal p (recordSide o proposal b)))) ∧
  (∀ o proposal signature p s b, beginsAt o 0x0E02 s = some b → tabGet? b.sec.proposals proposal = some p → p.state =
    .pending → sideRecorded o p = false → nowRef b < p.expiry → Config.ecdsaVerify o.cert (approvalBytes proposal p
    true) signature = true → (p.opApproved || p.pgApproved) = false → exec (.quorumApprove o proposal true signature)
    s = .next (answer o 0x0E02 .quorumPending [] (recordSide o proposal b))) ∧
  (∀ o proposal signature p s b, beginsAt o 0x0E02 s = some b → tabGet? b.sec.proposals proposal = some p → p.state =
    .pending → sideRecorded o p = false → nowRef b < p.expiry → Config.ecdsaVerify o.cert (approvalBytes proposal p
    false) signature = true → exec (.quorumApprove o proposal false signature) s = .next (answer o 0x0E02 .ok []
    (endProposal proposal .rejected 0 b))) ∧
  (∀ o proposal approve signature p s b, beginsAt o 0x0E02 s = some b → tabGet? b.sec.proposals proposal = some p →
    p.state = .pending → sideRecorded o p = false → nowRef b < p.expiry → Config.ecdsaVerify o.cert (approvalBytes
    proposal p approve) signature = false → exec (.quorumApprove o proposal approve signature) s = .next (answer o
    0x0E02 .invalid [] b)) ∧
  (∀ o proposal approve signature p s b, beginsAt o 0x0E02 s = some b → tabGet? b.sec.proposals proposal = some p →
    p.state = .pending → sideRecorded o p = false → p.expiry ≤ nowRef b → exec (.quorumApprove o proposal approve
    signature) s = .next (answer o 0x0E02 .conflict [] (endProposal proposal .expired 0 b))) ∧
  (∀ o proposal approve signature p s b, beginsAt o 0x0E02 s = some b → tabGet? b.sec.proposals proposal = some p →
    p.state ≠ .pending ∨ sideRecorded o p = true → exec (.quorumApprove o proposal approve signature) s = .next
    (answer o 0x0E02 .conflict [] b)) ∧
  (∀ o proposal approve signature s b, beginsAt o 0x0E02 s = some b → tabGet? b.sec.proposals proposal = none → exec
    (.quorumApprove o proposal approve signature) s = .next (answer o 0x0E02 .conflict [] b)) ∧
  -- QUORUM_WITHDRAW
  (∀ o proposal p s b, beginsAt o 0x0E03 s = some b → tabGet? b.sec.proposals proposal = some p → mayWithdraw o p =
    true → p.state = .pending → exec (.quorumWithdraw o proposal) s = .next (answer o 0x0E03 .ok [] (endProposal
    proposal .withdrawn 0 b))) ∧
  (∀ o proposal p s b, beginsAt o 0x0E03 s = some b → tabGet? b.sec.proposals proposal = some p → mayWithdraw o p =
    true → p.state ≠ .pending → exec (.quorumWithdraw o proposal) s = .next (answer o 0x0E03 .conflict [] b)) ∧
  (∀ o proposal p s b, beginsAt o 0x0E03 s = some b → tabGet? b.sec.proposals proposal = some p → mayWithdraw o p =
    false → exec (.quorumWithdraw o proposal) s = .next (answer o 0x0E03 .denied [] b)) ∧
  -- KEY_SESSION
  (∀ o pub nonce s b, beginsAt o 0x0F01 s = some b → b.sec.unlocked = 0 → pub.length = 133 → nonce < 2 ^ 512 →
    Config.ecValid pub = true → b.sec.sessions.length < 64 → exec (.keySession o pub nonce) s = .next (answer o
    0x0F01 .ok (sessionAnswer pub nonce ((callerPid o b).getD 0) b) (addSession pub nonce ((callerPid o b).getD 0)
    b))) ∧
  (∀ o pub nonce s b, beginsAt o 0x0F01 s = some b → b.sec.unlocked = 0 → pub.length = 133 → nonce < 2 ^ 512 →
    Config.ecValid pub = true → 64 ≤ b.sec.sessions.length → exec (.keySession o pub nonce) s = .next (answer o
    0x0F01 .resource [] b)) ∧
  (∀ o pub nonce s b, beginsAt o 0x0F01 s = some b → b.sec.unlocked ≠ 0 → exec (.keySession o pub nonce) s = .next
    (answer o 0x0F01 .notReady [] b)) ∧
  -- KEY_LOAD
  (∀ o session region slot counter wrapped x s b, beginsAt o 0x0F02 s = some b → slot < slotCount → counter < 2 ^ 32
    → wrapped.length = keyBytes region + 16 → tabGet? b.sec.sessions session = some x → callerPid o b = some x.pid →
    loadCheck b x region slot counter wrapped = none → exec (.keyLoad o session region slot counter wrapped) s =
    .next (answer o 0x0F02 .ok [] (loadKey region slot (bytesNat (Config.gcmCipher x.sk counter (wrapped.take
    (keyBytes region)))) (modSec (fun y =>
    { y with sessions := tabPut y.sessions session { x with counter := some counter } }) b)))) ∧
  (∀ o session region slot counter wrapped x st s b, beginsAt o 0x0F02 s = some b → slot < slotCount → counter < 2 ^
    32 → wrapped.length = keyBytes region + 16 → tabGet? b.sec.sessions session = some x → callerPid o b = some x.pid
    → loadCheck b x region slot counter wrapped = some st → exec (.keyLoad o session region slot counter wrapped) s =
    .next (answer o 0x0F02 st [] b)) ∧
  (∀ o session region slot counter wrapped s b, beginsAt o 0x0F02 s = some b → slotCount ≤ slot ∨ 2 ^ 32 ≤ counter ∨
    wrapped.length ≠ keyBytes region + 16 → exec (.keyLoad o session region slot counter wrapped) s = .next (answer o
    0x0F02 .invalid [] b)) ∧
  -- KEY_BIND
  (∀ o region slot target direction pid s b, beginsAt o 0x0F03 s = some b → bindCheck b region slot target direction
    pid = none → (pendingProposals b).length < 64 → exec (.keyBind o region slot target direction pid) s = .next
    (answer o 0x0F03 .quorumPending [w32 b.sec.nextProposal] (stageProposal o (.keyBind region slot target direction
    pid) b))) ∧
  (∀ o region slot target direction pid s b, beginsAt o 0x0F03 s = some b → bindCheck b region slot target direction
    pid = none → 64 ≤ (pendingProposals b).length → exec (.keyBind o region slot target direction pid) s = .next
    (answer o 0x0F03 .busy [] b)) ∧
  (∀ o region slot target direction pid st s b, beginsAt o 0x0F03 s = some b → bindCheck b region slot target
    direction pid = some st → exec (.keyBind o region slot target direction pid) s = .next (answer o 0x0F03 st [] b))
    ∧
  -- KEY_ZEROIZE
  (∀ o region slot s b, beginsAt o 0x0F04 s = some b → slot < slotCount → isTenant o = false → exec (.keyZeroize o
    region slot) s = .next (answer o 0x0F04 .ok [] (zeroizeSlot region slot b))) ∧
  (∀ o region slot pid s b, beginsAt o 0x0F04 s = some b → slot < slotCount → isTenant o = true → slotPid b region
    slot = some pid → callerPid o b = some pid → exec (.keyZeroize o region slot) s = .next (answer o 0x0F04 .ok []
    (zeroizeSlot region slot b))) ∧
  (∀ o region slot pid s b, beginsAt o 0x0F04 s = some b → slot < slotCount → isTenant o = true → slotPid b region
    slot = some pid → callerPid o b ≠ some pid → exec (.keyZeroize o region slot) s = .next (answer o 0x0F04 .denied
    [] b)) ∧
  -- ATTEST_REPORT
  (∀ o nonce s b, beginsAt o 0x1001 s = some b → exec (.attestReport o nonce) s = .next (answer o 0x1001 .ok
    (bytesWords (reportBytes b ((callerPid o b).getD 0) nonce ++ natBytes 132 (Config.ecdsaSign (reportBytes b
    ((callerPid o b).getD 0) nonce)))) b)) ∧
  -- ATTEST_CHAIN
  (∀ o s b, beginsAt o 0x1002 s = some b → exec (.attestChain o) s = .next (answer o 0x1002 .ok (countedWords
    ((List.range 3).map (fun i => byteString (Config.certificate i)))) b))

/-- The FW commands complete (R479, R483, R485, R490, R508, R509, R531, R532, R534, R546, R547, R588). One clause for
each form of FW_CAPS, FW_INFO, FW_UPDATE, FW_STAGE, FW_CREDIT, FW_BIND_MAILBOX, FW_CREDENTIAL, FW_NETWORK,
FW_REG_READ, FW_REG_WRITE, FW_DEBUG_UNLOCK that the sender's checks let begin (beginsAt): for every operand and state
that meet the clause's conditions, exec answers the next state that the clause writes out, the status of its response
with it. Capabilities and identity are returned, images staged and started, credits, mailboxes, credentials and
networks changed, registers read and written and debug unlocks proposed. -/
def Obligations.FirmwareCommands : Prop :=
  -- FW_CAPS
  (∀ o s b, beginsAt o 0x1201 s = some b → exec (.fwCaps o) s = .next (answer o 0x1201 .ok ([wordOf [at_ 31 24 1, at_
    15 0 catalogue.length], wordOf [at_ 31 16 1]] ++ catalogue.map (fun c => wordOf [at_ 31 16 c.opcode, at_ 7 0
    c.issuers])) b)) ∧
  -- FW_INFO
  (∀ o s b, beginsAt o 0x1202 s = some b → exec (.fwInfo o) s = .next (answer o 0x1202 .ok ([wordOf [at_ 31 16 1, at_
    15 8 (runningVersion b).1, at_ 7 0 (runningVersion b).2.1], w32 (runningVersion b).2.2, w32 b.start.cfg.starts,
    wordOf [at_ 31 31 (bit (b.start.phase == .recovery)), at_ 30 30 (bit (ownSid b).isSome), at_ 12 0 ((ownSid
    b).getD 0)], wordOf [at_ 31 16 2048, at_ 15 8 64, at_ 7 0 16], wordOf [at_ 31 16 16384, at_ 15 8 128, at_ 7 0
    16], wordOf [at_ 31 16 1536, at_ 15 8 64, at_ 7 0 32]] ++ natWords 16 (runningMeasurement b)) b)) ∧
  -- FW_UPDATE
  (∀ o length digest s b, beginsAt o 0x1203 s = some b → updateCheck b length digest = none → b.start.phase =
    .recovery → exec (.fwUpdate o length digest) s = .next (accept o 0x1203 none true (writeImage (stagedImage length
    digest) (some o) b))) ∧
  (∀ o length digest s b, beginsAt o 0x1203 s = some b → updateCheck b length digest = none → b.start.phase ≠
    .recovery → (pendingProposals b).length < 64 → exec (.fwUpdate o length digest) s = .next (answer o 0x1203
    .quorumPending [w32 b.sec.nextProposal] (stageProposal o (.fwUpdate length digest) b))) ∧
  (∀ o length digest st s b, beginsAt o 0x1203 s = some b → updateCheck b length digest = some st → exec (.fwUpdate o
    length digest) s = .next (answer o 0x1203 st [] b)) ∧
  -- FW_STAGE
  (∀ o offset bytes s b, beginsAt o 0x1204 s = some b → bytes.length ≤ 1048568 → offset + bytes.length ≤ imageMax →
    exec (.fwStage o offset bytes) s = .next (answer o 0x1204 .ok [] (modStart (fun st =>
    { st with
      staging := (bytes.zipIdx).foldl (fun t x => tabSet (fun _ => (0 : Byte)) t (offset + x.2) x.1) st.staging })
    b))) ∧
  (∀ o offset bytes s b, beginsAt o 0x1204 s = some b → 1048568 < bytes.length ∨ imageMax < offset + bytes.length →
    exec (.fwStage o offset bytes) s = .next (answer o 0x1204 .invalid [] b)) ∧
  -- FW_CREDIT
  (∀ o mailbox credit s b, beginsAt o 0x1205 s = some b → mailbox < 64 → credit ≤ 16 → exec (.fwCredit o mailbox
    credit) s = .next (answer o 0x1205 .ok [] (modMailbox mailbox (fun m =>
    { m with credit := if credit = 0 then defaultCredit mailbox else credit }) b))) ∧
  (∀ o mailbox credit s b, beginsAt o 0x1205 s = some b → 64 ≤ mailbox ∨ 16 < credit → exec (.fwCredit o mailbox
    credit) s = .next (answer o 0x1205 .invalid [] b)) ∧
  -- FW_BIND_MAILBOX
  (∀ o mailbox pid cert s b, beginsAt o 0x1206 s = some b → 32 ≤ mailbox → mailbox < 64 → pid ≠ 0 → pid ≤ 0xFFF →
    (Machine.mailbox b mailbox).outstanding.isEmpty = true → exec (.fwBindMailbox o mailbox pid cert) s = .next
    (answer o 0x1206 .ok [] (modMailbox mailbox (fun m => if pid = 0xFFF then { m with pid := none, cert := 0 } else
    { m with pid := some pid, cert := cert }) b))) ∧
  (∀ o mailbox pid cert s b, beginsAt o 0x1206 s = some b → 32 ≤ mailbox → mailbox < 64 → pid ≠ 0 → pid ≤ 0xFFF →
    (Machine.mailbox b mailbox).outstanding.isEmpty = false → exec (.fwBindMailbox o mailbox pid cert) s = .next
    (answer o 0x1206 .conflict [] b)) ∧
  (∀ o mailbox pid cert s b, beginsAt o 0x1206 s = some b → mailbox < 32 ∨ 64 ≤ mailbox ∨ pid = 0 → exec
    (.fwBindMailbox o mailbox pid cert) s = .next (answer o 0x1206 .invalid [] b)) ∧
  -- FW_CREDENTIAL
  (∀ o cls cert s b, beginsAt o 0x1207 s = some b → classNetwork cls = classNetwork o.cls → (credentials b).contains
    (cls, cert) = true → (securityClass cls && ((credentials b).filter (fun e => e.1 == cls)).length == 1) = false →
    exec (.fwCredential o true cls cert) s = .next (answer o 0x1207 .ok [] (setCredentials ((credentials b).filter
    (fun e => e != (cls, cert))) b))) ∧
  (∀ o cls cert s b, beginsAt o 0x1207 s = some b → classNetwork cls = classNetwork o.cls → (credentials b).contains
    (cls, cert) = true → (securityClass cls && ((credentials b).filter (fun e => e.1 == cls)).length == 1) = true →
    exec (.fwCredential o true cls cert) s = .next (answer o 0x1207 .conflict [] b)) ∧
  (∀ o cls cert s b, beginsAt o 0x1207 s = some b → classNetwork cls = classNetwork o.cls → (credentials b).contains
    (cls, cert) = false → (credentials b).any (fun e => e.2 == cert) = false → (credentials b).length < 256 → exec
    (.fwCredential o false cls cert) s = .next (answer o 0x1207 .ok [] (setCredentials (credentials b ++ [(cls,
    cert)]) b))) ∧
  (∀ o cls cert s b, beginsAt o 0x1207 s = some b → classNetwork cls = classNetwork o.cls → (credentials b).contains
    (cls, cert) = true → exec (.fwCredential o false cls cert) s = .next (answer o 0x1207 .ok [] b)) ∧
  (∀ o remove cls cert s b, beginsAt o 0x1207 s = some b → classNetwork cls ≠ classNetwork o.cls → exec
    (.fwCredential o remove cls cert) s = .next (answer o 0x1207 .denied [] b)) ∧
  -- FW_NETWORK
  (∀ o network address pfxLen mtu s b, beginsAt o 0x1208 s = some b → network ≤ 1 → address < 2 ^ 128 → pfxLen ≤ 128
    → 1280 ≤ mtu → mtu ≤ 9000 → exec (.fwNetwork o network address pfxLen mtu) s = .next (answer o 0x1208 .ok []
    (modConfig (fun c => if network = 0 then { c with netA := (address, pfxLen, mtu) } else
    { c with netB := (address, pfxLen, mtu) }) b))) ∧
  (∀ o network address pfxLen s b, beginsAt o 0x1208 s = some b → network ≤ 1 → address < 2 ^ 128 → pfxLen ≤ 128 →
    exec (.fwNetwork o network address pfxLen 0) s = .next (answer o 0x1208 .ok [] (modConfig (fun c => if network =
    0 then { c with netA := (address, pfxLen, 1280) } else { c with netB := (address, pfxLen, 1280) }) b))) ∧
  (∀ o network address pfxLen mtu s b, beginsAt o 0x1208 s = some b → 1 < network ∨ 2 ^ 128 ≤ address ∨ 128 < pfxLen
    → exec (.fwNetwork o network address pfxLen mtu) s = .next (answer o 0x1208 .invalid [] b)) ∧
  -- FW_REG_READ
  (∀ o addr amount s b, beginsAt o 0x1209 s = some b → 0 < amount → amount ≤ 256 → ((List.range amount).map (fun i =>
    addr + 4 * i)).findSome? (fun a => (accessStatus0 b a).map (fun st => (a, st))) = none → exec (.fwRegRead o addr
    amount) s = .next (answer o 0x1209 .ok (((List.range amount).map (fun i => addr + 4 * i)).map (fun a =>
    (readRegister b a).getD 0)) b)) ∧
  (∀ o addr amount s b, beginsAt o 0x1209 s = some b → amount = 0 ∨ 256 < amount → exec (.fwRegRead o addr amount) s
    = .next (answer o 0x1209 .invalid [] b)) ∧
  -- FW_REG_WRITE
  (∀ o addr value mask s b, beginsAt o 0x120A s = some b → accessStatus0 b addr = none → windowOf addr = 3 → exec
    (.fwRegWrite o addr value mask) s = .next (answer o 0x120A .ok [] (modCtl (fun c =>
    { c with staged := c.staged ++ [(addr, (value &&& mask) ||| ((readRegister b addr).getD 0 &&& ~~~mask))] }) b)))
    ∧
  (∀ o addr value mask s b, beginsAt o 0x120A s = some b → accessStatus0 b addr = none → windowOf addr = 0 → addrReg
    addr = 1 → (value &&& mask).getLsbD 0 = true → exec (.fwRegWrite o addr value mask) s = .next (answer o 0x120A
    .ok [] (modIsland (addrIsland addr) (fun x => { x with addrErr := false }) b))) ∧
  (∀ o addr value mask s b, beginsAt o 0x120A s = some b → accessStatus0 b addr = none → windowOf addr ≠ 3 → windowOf
    addr ≠ 0 ∨ addrReg addr ≠ 1 ∨ (value &&& mask).getLsbD 0 = false → exec (.fwRegWrite o addr value mask) s = .next
    (answer o 0x120A .denied [] b)) ∧
  -- FW_DEBUG_UNLOCK
  (∀ o scope duration s b, beginsAt o 0x120B s = some b → scope ≠ 0 → scope < 16 → duration ≠ 0 → duration ≤ 86400 →
    (pendingProposals b).length < 64 → exec (.fwDebugUnlock o scope duration) s = .next (answer o 0x120B
    .quorumPending [w32 b.sec.nextProposal] (stageProposal o (.debugUnlock scope duration) b))) ∧
  (∀ o scope duration s b, beginsAt o 0x120B s = some b → scope = 0 ∨ 16 ≤ scope ∨ duration = 0 ∨ 86400 < duration →
    exec (.fwDebugUnlock o scope duration) s = .next (answer o 0x120B .invalid [] b))

/-- Supply, reset pin and reference: what each event does (R538, R617, R620, R621, R623, R625, R626, R628, R630,
R631, R633, R634). One clause for each form of POWER_ON, INPUT_UNDERVOLTAGE, SUPPLY_LOSS, INPUT_OVERVOLTAGE,
INPUT_OVERCURRENT, LATCH_CLEAR, MOD_RST_N_ASSERT, MOD_RST_N_RELEASE, REFCLK_LOSS, THERMAL_TRIP, TELEMETRY_UPDATE,
COOLANT_DELTA_ALARM, THROTTLE_EVALUATION, CAP_UNATTAINABLE, START_STATUS_READ: for every operand and state that meet
the clause's conditions, exec answers a next state, and the clause says what that state is or holds. Each clause
carries out the step of Table 20.8 to 20.12 or of R538 that the row states. -/
def Obligations.SupplyEvents : Prop :=
  -- POWER_ON
  (∀ s, s.power.vinOn = false → s.power.latched = false → s.power.thermTrip = false → s.power.modRst = false → ∃ t,
    exec (.powerOn) s = .next t ∧ t.power.vinOn = true ∧ t.power.rails = true ∧ t.power.pwrOk = true ∧ t.power.refclk
    = true ∧ t.start.phase = .cold ∧ t.start.step = 1) ∧
  (∀ s, s.power.vinOn = false → s.power.latched = false → s.power.thermTrip = false → s.power.modRst = true → ∃ t,
    exec (.powerOn) s = .next t ∧ t.power.pwrOk = true ∧ t.start.phase = s.start.phase) ∧
  (∀ s, (s.power.vinOn || s.power.latched || s.power.thermTrip) = true → exec (.powerOn) s = .next s) ∧
  -- INPUT_UNDERVOLTAGE
  (∀ s, ∃ t, exec (.inputUndervoltage) s = .next t ∧ t.power.vinOn = false ∧ t.power.rails = false ∧ t.power.pwrOk =
    false ∧ t.power.alert = false ∧ t.start.phase = .reset ∧ t.power.latched = s.power.latched ∧ t.link =
    State.reset.link ∧ t.gran = State.reset.gran ∧ t.start.cfg = storedConfig s.start) ∧
  -- SUPPLY_LOSS
  (∀ s, ∃ t, exec (.supplyLoss) s = .next t ∧ t.power.vinOn = false ∧ t.power.rails = false ∧ t.power.pwrOk = false ∧
    t.start.phase = .reset ∧ t.mgmt = State.reset.mgmt ∧ t.gran = State.reset.gran ∧ t.start.cfg = storedConfig
    s.start) ∧
  -- INPUT_OVERVOLTAGE
  (∀ s, ∃ t, exec (.inputOvervoltage) s = .next t ∧ t.power.latched = true ∧ t.power.rails = false ∧ t.power.pwrOk =
    false ∧ t.start.phase = .reset) ∧
  -- INPUT_OVERCURRENT
  (∀ s, ∃ t, exec (.inputOvercurrent) s = .next t ∧ t.power.latched = true ∧ t.power.rails = false ∧ t.power.pwrOk =
    false ∧ t.start.phase = .reset) ∧
  -- LATCH_CLEAR
  (∀ s, ∃ t, exec (.latchClear) s = .next t ∧ t.power.latched = false ∧ t.power.thermTrip = false ∧ t.power.pwrOk =
    false ∧ t.start.phase = .reset) ∧
  -- MOD_RST_N_ASSERT
  (∀ s, ∃ t, exec (.modRstNAssert) s = .next t ∧ t.power.modRst = true ∧ t.start.phase = .reset ∧ t.start.lastLevel =
    0 ∧ t.power.rails = s.power.rails ∧ t.link = State.reset.link ∧ t.gran = State.reset.gran ∧ t.sec =
    State.reset.sec ∧ t.start.cfg = storedConfig s.start) ∧
  -- MOD_RST_N_RELEASE
  (∀ s, s.power.modRst = true → s.power.rails = true → s.power.thermTrip = false → ∃ t, exec (.modRstNRelease) s =
    .next t ∧ t.power.modRst = false ∧ t.start.phase = .cold ∧ t.start.step = 1) ∧
  (∀ s, s.power.modRst = true → (s.power.rails && !s.power.thermTrip) = false → ∃ t, exec (.modRstNRelease) s = .next
    t ∧ t.power.modRst = false ∧ t.start.phase = s.start.phase) ∧
  (∀ s, s.power.modRst = false → exec (.modRstNRelease) s = .next s) ∧
  -- REFCLK_LOSS
  (∀ s, s.power.pwrOk = true → ∃ t, exec (.refclkLoss) s = .next t ∧ t.power.refclk = false ∧ t.power.cycleReq = true
    ∧ t.start.phase = .cycleRequested ∧ t.link = State.reset.link) ∧
  (∀ s, s.power.pwrOk = false → exec (.refclkLoss) s = .next s) ∧
  -- THERMAL_TRIP
  (∀ s, s.power.vinOn = true → ∃ t, exec (.thermalTrip) s = .next t ∧ t.power.thermTrip = true ∧ t.start.phase =
    .reset ∧ t.link = State.reset.link ∧ t.power.depth = [0, 0, 0, 0]) ∧
  (∀ s, s.power.vinOn = false → exec (.thermalTrip) s = .next s) ∧
  -- TELEMETRY_UPDATE
  (∀ x s, s.power.pwrOk = true → ∃ t, exec (.telemetryUpdate x) s = .next t ∧ t.power.telemetry = x ∧
    t.power.coolantDelta = (s.power.coolantDelta && decide (2500 < x.outletTemp - x.inletTemp))) ∧
  (∀ x s, s.power.pwrOk = false → exec (.telemetryUpdate x) s = .next s) ∧
  -- COOLANT_DELTA_ALARM
  (∀ s, s.power.pwrOk = true → ∃ t, exec (.coolantDeltaAlarm) s = .next t ∧ t.power.coolantDelta = true ∧ alarms t /
    2 ^ 11 % 2 = 1) ∧
  (∀ s, s.power.pwrOk = false → exec (.coolantDeltaAlarm) s = .next s) ∧
  -- THROTTLE_EVALUATION
  (∀ x s, s.start.phase = .running → ∃ t, exec (.throttleEvaluation x) s = .next t ∧ t.power.depth = (if overCap
    s.power x || warningReached x then deeper s.power.depth else if 10 ≤ t.power.underRun then shallower
    s.power.depth else s.power.depth) ∧ t.power.underRun = (if (decide (s.power.cap = 0) || decide (x.watts + 50 ≤
    s.power.cap)) && wellBelow x then s.power.underRun + 1 else 0) ∧ t.power.cap = s.power.cap) ∧
  (∀ x s, s.start.phase ≠ .running → exec (.throttleEvaluation x) s = .next s) ∧
  -- CAP_UNATTAINABLE
  (∀ s, s.start.phase = .running → 100 ≤ s.power.fullRun → s.power.capEventRaised = false → exec (.capUnattainable) s
    = .next (raise15 0x0B01 [4, s.power.telemetry.watts] (modPower (fun p =>
    { p with capUnattainable := true, capEventRaised := true }) s))) ∧
  (∀ s, s.start.phase ≠ .running → exec (.capUnattainable) s = .next s) ∧
  -- START_STATUS_READ
  (∀ code bs s, s.power.pwrOk = true → s.power.refclk = true → s.power.statusOnly = false ∨ code = 0x10 →
    smbusRegister s code = some bs → ∃ t, exec (.startStatusRead code) s = .next t ∧ t.out = s.out ++ [.smbus code
    (natBytes 1 bs.length ++ bs ++ [pecOf code bs])] ∧ t.power.alert = (s.power.alert && code != 0x10)) ∧
  (∀ code s, smbusRegister s code = none → exec (.startStatusRead code) s = .next s) ∧
  (∀ code s, s.power.statusOnly = true → code ≠ 0x10 → exec (.startStatusRead code) s = .next s)

/-- Starts, the module cycle and flash: what each event does (R537, R538, R539, R541, R544, R545, R549, R557, R560,
R566, R567, R568). One clause for each form of COLD_START, START_TIMEOUT, WARM_START, MODULE_CYCLE_HOLD,
CYCLE_HOLD_EXPIRY, CYCLE_REQUEST_TIMEOUT, FLASH_WRITE_COMPLETE: for every operand and state that meet the clause's
conditions, exec answers a next state, and the clause says what that state is or holds. Each clause carries out the
start, cycle or flash step that the row states. -/
def Obligations.StartEvents : Prop :=
  -- COLD_START
  (∀ o s, coldReady s = false → exec (.coldStart o) s = .next s) ∧
  (∀ o s, coldReady s = true → s.start.cfg.attempts = 3 → exec (.coldStart o) s = .next (enterRecovery (coldPrepared
    o s))) ∧
  (∀ o s, coldReady s = true → s.start.cfg.attempts ≠ 3 → o.bootMode % 4 = 1 ∨ o.bootMode % 4 = 3 → exec (.coldStart
    o) s = .next (enterRecovery (coldPrepared o s))) ∧
  (∀ o s, coldReady s = true → s.start.cfg.attempts ≠ 3 → o.bootMode % 4 = 2 → ∃ t, exec (.coldStart o) s = .next t ∧
    t.start.phase = .test ∧ t.start.step = 0) ∧
  (∀ o s, coldReady s = true → s.start.cfg.attempts ≠ 3 → o.bootMode % 4 = 0 → goodImage (coldPrepared o s).start =
    none → exec (.coldStart o) s = .next (enterRecovery (storeNow (fun c => { c with attempts := 3 }) (coldPrepared o
    s)))) ∧
  (∀ o i s, coldReady s = true → s.start.cfg.attempts ≠ 3 → o.bootMode % 4 = 0 → goodImage (coldPrepared o s).start =
    some i → exec (.coldStart o) s = .next (coldRun o (loadImage i (coldPrepared o s)))) ∧
  -- START_TIMEOUT
  (∀ step s, s.start.phase = .cold → step ≤ 3 → exec (.startTimeout step) s = .next (failStart step (modStart (fun st
    => { st with stacksTrained := false }) s))) ∧
  (∀ step s, s.start.phase = .cold → 3 < step → exec (.startTimeout step) s = .next (failStart step (modStart (fun st
    => { st with stacksTrained := decide (7 < step) }) (countStart s)))) ∧
  (∀ step e s, s.start.phase ≠ .cold → askedFor s 4 0 = some e → step ≤ 3 → exec (.startTimeout step) s = .next
    (failStart step (warmPrepared e s))) ∧
  (∀ step e s, s.start.phase ≠ .cold → askedFor s 4 0 = some e → 3 < step → exec (.startTimeout step) s = .next
    (failStart step (countStart (warmPrepared e s)))) ∧
  (∀ step s, s.start.phase ≠ .cold → askedFor s 4 0 = none → exec (.startTimeout step) s = .next s) ∧
  -- WARM_START
  (∀ o s, askedFor s 4 0 = none → exec (.warmStart o) s = .next s) ∧
  (∀ o e s, askedFor s 4 0 = some e → 3 ≤ (recentTimes s 3600000000000 s.rst.l4Times).length → exec (.warmStart o) s
    = .next (escalate 5 0 0x0007 [e.trigger] (dropAsked e s))) ∧
  (∀ o e s, askedFor s 4 0 = some e → (recentTimes s 3600000000000 s.rst.l4Times).length < 3 → (warmPrepared e
    s).start.cfg.attempts = 3 → exec (.warmStart o) s = .next (failStart 3 (warmPrepared e s))) ∧
  (∀ o e s, askedFor s 4 0 = some e → (recentTimes s 3600000000000 s.rst.l4Times).length < 3 → (warmPrepared e
    s).start.cfg.attempts ≠ 3 → o.residentOk = true → exec (.warmStart o) s = .next (warmRun o ⟨4, e.trigger,
    e.scope, s.tele.dumpSeq⟩ (pendingProposals s).length (storeNow (fun c =>
    { c with attempts := Nat.min 3 (c.attempts + 1), starts := c.starts + 1 }) (warmPrepared e s)))) ∧
  -- MODULE_CYCLE_HOLD
  (∀ s, askedFor s 5 0 = none → exec (.moduleCycleHold) s = .next s) ∧
  (∀ e s, askedFor s 5 0 = some e → exec (.moduleCycleHold) s = .next (holdModule e s)) ∧
  -- CYCLE_HOLD_EXPIRY
  (∀ s, s.start.phase = .cycleHold → exec (.cycleHoldExpiry) s = .next (requestCycle s)) ∧
  (∀ s, s.start.phase ≠ .cycleHold → exec (.cycleHoldExpiry) s = .next s) ∧
  -- CYCLE_REQUEST_TIMEOUT
  (∀ s, s.start.phase = .cycleRequested → ∃ t, exec (.cycleRequestTimeout) s = .next t ∧ t.opt.rings = [] ∧
    t.opt.circuits = [] ∧ t.start.phase = .cycleRequested ∧ t.power.statusOnly = true) ∧
  (∀ s, s.start.phase ≠ .cycleRequested → exec (.cycleRequestTimeout) s = .next s) ∧
  -- FLASH_WRITE_COMPLETE
  (∀ img o s, s.start.flashWrite = some (.image img (some o)) → exec (.flashWriteComplete) s = .next (finish o .ok []
    (modConfig (fun c => { c with attempts := 0 }) (modStart completeWrite s)))) ∧
  (∀ img s, s.start.flashWrite = some (.image img none) → exec (.flashWriteComplete) s = .next (modStart
    completeWrite s)) ∧
  (∀ b s, s.start.flashWrite = some (.copy b) → exec (.flashWriteComplete) s = .next (modStart completeWrite s)) ∧
  (∀ s, s.start.flashWrite = none → exec (.flashWriteComplete) s = .next s)

/-- Islands, their agents and registers: what each event does (R17, R18, R19, R20, R21, R24, R25, R29, R31, R606,
R607, R609). One clause for each form of CONTROL_AGENT_ACCESS, REGISTER_WRITE, ADDR_ERR_CLEAR, AGENT_TIMEOUT,
AGENT_EVENT_DELIVERY, CROSSING_DELIVERY, PLL_UNLOCK, PLL_RELOCK, PLL_RELOCK_TIMEOUT, JTAG_INSTRUCTION_LOAD,
JTAG_TEST_LOGIC_RESET: for every operand and state that meet the clause's conditions, exec answers a next state, and
the clause says what that state is or holds. Accesses are executed or answered in error, events queued, delivered and
counted, islands held and released. -/
def Obligations.ControlEvents : Prop :=
  -- CONTROL_AGENT_ACCESS
  (∀ isl sent a as s, islandKnown isl = true → (island (sendAccesses isl sent s) isl).accesses = a :: as → exec
    (.controlAgentAccess isl sent) s = .next (sendAccesses isl [] (doAccess a (modIsland isl (fun x =>
    { x with accesses := as }) (sendAccesses isl sent s))))) ∧
  (∀ isl sent s, islandKnown isl = true → (island (sendAccesses isl sent s) isl).accesses = [] → exec
    (.controlAgentAccess isl sent) s = .next (sendAccesses isl sent s)) ∧
  -- REGISTER_WRITE
  (∀ addr hw p v s, islandKnown (addrIsland addr) = true → s.ctl.staged.find? (fun x => x.1 == addr) = some (p, v) →
    ∃ t, exec (.registerWrite addr hw) s = .next t ∧ t.ctl.regs = tabSet regReset s.ctl.regs addr v ∧ t.ctl.staged =
    s.ctl.staged.erase (addr, v)) ∧
  (∀ addr v s, islandKnown (addrIsland addr) = true → s.ctl.staged.find? (fun x => x.1 == addr) = none →
    Config.regAssigned addr = true → ∃ t, exec (.registerWrite addr (some v)) s = .next t ∧ t.ctl.regs = tabSet
    regReset s.ctl.regs addr v ∧ t.ctl.staged = s.ctl.staged) ∧
  -- ADDR_ERR_CLEAR
  (∀ isl s, islandKnown isl = true → exec (.addrErrClear isl false) s = .next (modIsland isl (fun x =>
    { x with addrErr := false }) s)) ∧
  (∀ isl s, islandKnown isl = true → exec (.addrErrClear isl true) s = .next (addressError isl s)) ∧
  -- AGENT_TIMEOUT
  (∀ isl addr s, islandKnown isl = true → (island s isl).accesses.any (fun a => a.addr == addr) = true → exec
    (.agentTimeout isl addr) s = .next (escalateIsland isl 0x0006 [isl, addr] (crumb 0xF002 0 isl addr (modIsland isl
    (fun x => { x with unresponsive := true }) s)))) ∧
  (∀ isl addr s, islandKnown isl = true → (island s isl).accesses.any (fun a => a.addr == addr) = false → exec
    (.agentTimeout isl addr) s = .next s) ∧
  -- AGENT_EVENT_DELIVERY
  (∀ isl e es s, islandKnown isl = true → (island s isl).events = e :: es → exec (.agentEventDelivery isl) s = .next
    (modCtl (fun c =>
    { c with delivered := c.delivered ++ [⟨isl, e, (island s isl).lostCount, (island s isl).lost⟩] }) (modIsland isl
    (fun x => { x with events := es, lostCount := 0, lost := false }) s))) ∧
  (∀ isl s, islandKnown isl = true → (island s isl).events = [] → exec (.agentEventDelivery isl) s = .next s) ∧
  -- CROSSING_DELIVERY
  (∀ src dst entry s, islandKnown src = true → islandKnown dst = true → (island s dst).dataReset = true → exec
    (.crossingDelivery src dst entry) s = .next s) ∧
  (∀ src dst entry s, islandKnown src = true → islandKnown dst = true → (island s dst).dataReset = false → ∃ t, exec
    (.crossingDelivery src dst entry) s = .next t ∧ ∃ x, t.ctl.crossings = tabSet crossingReset s.ctl.crossings
    (crossKey src dst) x ∧ x.usable ++ x.queue ++ x.held = (crossing s (crossKey src dst)).usable ++ (crossing s
    (crossKey src dst)).queue ++ (crossing s (crossKey src dst)).held ++ entry.toList ∧ x.queue.length ≤ Nat.max
    (Config.crossingDepth (crossKey src dst)) (crossing s (crossKey src dst)).queue.length) ∧
  -- PLL_UNLOCK
  (∀ isl s, islandKnown isl = true → (island s isl).pllLock = false → exec (.pllUnlock isl) s = .next s) ∧
  (∀ isl s, islandKnown isl = true → (island s isl).pllLock = true → isl < 0x10 ∨ 0x30 ≤ isl → exec (.pllUnlock isl)
    s = .next ((islandEngines s isl).foldl (fun s e => escalate 2 (engineScope e.1 e.2) 0x0005 [isl] s) (holdIslands
    [isl] (pushAgentEvent isl ⟨0, 0x0005, 0⟩ (countIsland isl 3 1 (modIsland isl (fun x =>
    { x with pllLock := false }) s)))))) ∧
  (∀ isl s, islandKnown isl = true → (island s isl).pllLock = true → 0x10 ≤ isl → isl < 0x30 → exec (.pllUnlock isl)
    s = .next ((islandEngines s isl).foldl (fun s e => escalate 2 (engineScope e.1 e.2) 0x0005 [isl] s) (clearCluster
    (isl - 0x10) (holdIslands [isl] (pushAgentEvent isl ⟨0, 0x0005, 0⟩ (countIsland isl 3 1 (modIsland isl (fun x =>
    { x with pllLock := false }) s))))))) ∧
  -- PLL_RELOCK
  (∀ isl s, islandKnown isl = true → (island s isl).pllLock = false → s.start.phase = .running → s.rst.asked.find?
    (fun e => e.level == 3 && e.active && (l3Islands (scopeIsland e.scope)).contains isl) = none → exec (.pllRelock
    isl) s = .next (releaseIsland isl (modIsland isl (fun x => { x with pllLock := true }) s))) ∧
  (∀ isl s, islandKnown isl = true → ((island s isl).pllLock || s.start.phase != .running) = true → exec (.pllRelock
    isl) s = .next s) ∧
  -- PLL_RELOCK_TIMEOUT
  (∀ isl s, islandKnown isl = true → (island s isl).pllLock = false → s.start.phase = .running → exec
    (.pllRelockTimeout isl) s = .next (escalateIsland isl 0x0005 [isl] s)) ∧
  (∀ isl s, islandKnown isl = true → (island s isl).pllLock = true → exec (.pllRelockTimeout isl) s = .next s) ∧
  -- JTAG_INSTRUCTION_LOAD
  (∀ code s, s.power.pwrOk = true → code < 256 → disturbs code = true → ∃ t, exec (.jtagInstructionLoad code) s =
    .next t ∧ t.tele.jtag = code ∧ t.start.phase = .test ∧ t.link = State.reset.link) ∧
  (∀ code s, s.power.pwrOk = true → code < 256 → disturbs code = false → ∃ t, exec (.jtagInstructionLoad code) s =
    .next t ∧ t.tele.jtag = (if publicInstruction code || testBitN s.sec.unlocked 3 then code else 0xFF)) ∧
  (∀ code s, s.power.pwrOk = false ∨ 256 ≤ code → exec (.jtagInstructionLoad code) s = .next s) ∧
  -- JTAG_TEST_LOGIC_RESET
  (∀ s, s.power.pwrOk = true → ∃ t, exec (.jtagTestLogicReset) s = .next t ∧ t.tele.jtag = 2) ∧
  (∀ s, s.power.pwrOk = false → exec (.jtagTestLogicReset) s = .next s) ∧
  -- CONTROL_AGENT_ACCESS
  (∀ isl sent s, islandKnown isl = false → exec (.controlAgentAccess isl sent) s = .fault (.noSuchUnit)) ∧
  -- PLL_UNLOCK
  (∀ isl s, islandKnown isl = false → exec (.pllUnlock isl) s = .fault (.noSuchUnit))

/-- Rings, their searches and the lasers: what each event does (R46, R47, R50, R51, R52, R54, R55, R56, R60, R61,
R63, R65). One clause for each form of RING_SEARCH_FULL, RING_SEARCH_PARTIAL, DIE_TEMP_OUT_OF_WINDOW,
POWER_TELEMETRY, RING_UNLOCK, RING_RELOCK, LANE_REJOIN_TIMEOUT, LASER_MONITOR_SAMPLE, LASER_FADE_AVERAGE,
SPARE_LOCKED, SPARE_LOCK_TIMEOUT, CUTOVER_PAUSE_TIME, CUTOVER_SWITCH_SETTLED, CUTOVER_COMPLETE, BAY_INTERLOCK_OPEN,
BAY_INSERTED, BAY_SELF_TEST_DONE: for every operand and state that meet the clause's conditions, exec answers a next
state, and the clause says what that state is or holds. Searches, unlocks, relocks, laser samples, cut-overs and the
bays' life. -/
def Obligations.RingEvents : Prop :=
  -- RING_SEARCH_FULL
  (∀ engine fibre tx temp seen s, pairKnown engine fibre = true → exec (.ringSearchFull engine fibre tx temp seen) s
    = .next (bindBus engine fibre tx temp true (assignBus ((List.range (8 * (busRows tx).length)).map (fun i =>
    seen.getD i []))) s)) ∧
  -- RING_SEARCH_PARTIAL
  (∀ engine fibre tx temp found s, pairKnown engine fibre = true → (busRings engine fibre tx).zipIdx.all (ringFound s
    engine temp found) = true → exec (.ringSearchPartial engine fibre tx temp found) s = .next (bindBus engine fibre
    tx temp false (((busRings engine fibre tx).zipIdx).map (fun x => if (ring s x.1).failed then none else
    (found.getD x.2 none).map (fun v => ((ring s x.1).line, v)))) s)) ∧
  (∀ engine fibre tx temp found s, pairKnown engine fibre = true → (busRings engine fibre tx).zipIdx.all (ringFound s
    engine temp found) = false → exec (.ringSearchPartial engine fibre tx temp found) s = .next (modOpt (fun o =>
    { o with
      partialDue := o.partialDue.filter (· != busNumber engine fibre tx),
      searchDue := distinct (o.searchDue ++ [busNumber engine fibre tx]) }) s)) ∧
  -- DIE_TEMP_OUT_OF_WINDOW
  (∀ d temp s, d < 8 → tabGet? s.start.cfg.perm d = none → ∃ t, exec (.dieTempOutOfWindow d temp) s = .next t ∧
    t.opt.dieTemp = tabSet (fun _ => 0) s.opt.dieTemp d temp ∧ t.opt.rings = s.opt.rings) ∧
  (∀ d temp r s, d < 8 → tabGet? s.start.cfg.perm d = some r → temp ≤ r.ts + 2000 → r.ts ≤ temp + 2000 → ∃ t, exec
    (.dieTempOutOfWindow d temp) s = .next t ∧ t.opt.dieTemp = tabSet (fun _ => 0) s.opt.dieTemp d temp ∧ t.opt.rings
    = s.opt.rings) ∧
  (∀ d temp r s, d < 8 → tabGet? s.start.cfg.perm d = some r → ¬(temp ≤ r.ts + 2000 ∧ r.ts ≤ temp + 2000) → exec
    (.dieTempOutOfWindow d temp) s = .next (modOpt (fun o =>
    { o with
      searchDue := distinct (o.searchDue ++ (ringsOut s d temp r.ts).map (fun x => busNumber (x.1 / 320) (x.1 / 40 %
        8) (decide (2 ≤ rowOfKey x.1)))) }) ((ringsOut s d temp r.ts).foldl (fun s x => unlockRing (x.1 / 320) (x.1 /
    40 % 8) (rowOfKey x.1) (x.1 % 8) s) (modOpt (fun o => { o with dieTemp := tabSet (fun _ => 0) o.dieTemp d temp })
    s)))) ∧
  -- POWER_TELEMETRY
  (∀ reading s, ∃ t, exec (.powerTelemetry reading) s = .next t ∧ t.opt.feedFwd = tabModAll (fun _ => ((0 : Int), (0
    : Int))) (fun d x => Config.thermalModel d x reading) (List.range 8) s.opt.feedFwd ∧ t.opt.rings = s.opt.rings) ∧
  -- RING_UNLOCK
  (∀ engine fibre row slot s, pairKnown engine fibre = true → row < 5 → slot < 8 → exec (.ringUnlock engine fibre row
    slot) s = .next (unlockRing engine fibre row slot s)) ∧
  -- RING_RELOCK
  (∀ engine fibre row slot s, pairKnown engine fibre = true → row < 5 → slot < 8 → (ring s (ringKey engine fibre row
    slot)).mode = .tracking → exec (.ringRelock engine fibre row slot) s = .next (setMode .locked [ringKey engine
    fibre row slot] s)) ∧
  (∀ engine fibre row slot s, pairKnown engine fibre = true → row < 5 → slot < 8 → (ring s (ringKey engine fibre row
    slot)).mode = .unlocked → row = 1 ∨ row = 3 → exec (.ringRelock engine fibre row slot) s = .next (setMode .locked
    [ringKey engine fibre row slot] s)) ∧
  (∀ engine fibre row slot s, pairKnown engine fibre = true → row < 5 → slot < 8 → (ring s (ringKey engine fibre row
    slot)).mode = .unlocked → row = 0 ∨ row = 4 → exec (.ringRelock engine fibre row slot) s = .next ((circuitsOfRing
    s (ringKey engine fibre row slot)).foldl (fun s id => relight id s) (setMode .parked [ringKey engine fibre row
    slot] s))) ∧
  (∀ engine fibre row slot s, pairKnown engine fibre = true → row < 5 → slot < 8 → (ring s (ringKey engine fibre row
    slot)).mode ≠ .tracking → (ring s (ringKey engine fibre row slot)).mode ≠ .unlocked → exec (.ringRelock engine
    fibre row slot) s = .next s) ∧
  -- LANE_REJOIN_TIMEOUT
  (∀ lane s, laneKnown lane = true → (Machine.lane s lane).phase = .joined → exec (.laneRejoinTimeout lane) s = .next
    s) ∧
  (∀ lane s, laneKnown lane = true → (Machine.lane s lane).phase ≠ .joined → ∃ t, exec (.laneRejoinTimeout lane) s =
    .next t ∧ t.opt.partialDue = distinct (s.opt.partialDue ++ [busNumber (laneEngine lane) (laneFibre lane) false,
    busNumber (laneEngine lane) (laneFibre lane) true]) ∧ t.opt.rings = s.opt.rings) ∧
  -- LASER_MONITOR_SAMPLE
  (∀ m s, m.engine < 32 → m.colour < 8 → tabGet? s.start.cfg.commission (m.engine * 8 + m.colour) = none → exec
    (.laserMonitorSample m) s = .next s) ∧
  (∀ m x s, m.engine < 32 → m.colour < 8 → tabGet? s.start.cfg.commission (m.engine * 8 + m.colour) = some x → -250 <
    m.level → exec (.laserMonitorSample m) s = .next s) ∧
  (∀ m x s, m.engine < 32 → m.colour < 8 → tabGet? s.start.cfg.commission (m.engine * 8 + m.colour) = some x → -400 <
    m.level → m.level ≤ -250 → (fade s m.engine m.colour).suspended = false → exec (.laserMonitorSample m) s = .next
    (startCutover (die m.engine) ((bayColourLanes (die m.engine) m.colour).foldl (fun s l => holdLane .fade l s)
    (fadeEvent (die m.engine) m.colour 2 (modFade m.engine m.colour (fun f => { f with suspended := true }) s))))) ∧
  (∀ m x s, m.engine < 32 → m.colour < 8 → tabGet? s.start.cfg.commission (m.engine * 8 + m.colour) = some x →
    m.level ≤ -400 → (fade s m.engine m.colour).suspended = true → (fade s m.engine m.colour).failed = false → exec
    (.laserMonitorSample m) s = .next (darken (feeder s (die m.engine)) m.colour ((bayColourLanes (die m.engine)
    m.colour).foldl (fun s l => failLane l 1 s) (fadeEvent (die m.engine) m.colour 3 (modFade m.engine m.colour (fun
    f => { f with failed := true }) s))))) ∧
  -- LASER_FADE_AVERAGE
  (∀ levels s, levels.all (fun m => decide (m.engine < 32) && decide (m.colour < 8)) = true → exec (.laserFadeAverage
    levels) s = .next ((baysFaded s levels).foldl (fun s b => startCutover b s) (levels.foldl (fun s m => fadeAverage
    m s) s))) ∧
  -- SPARE_LOCKED
  (∀ pos powers b c s, pos < 10 → cutoverOf s pos = some (b, c) → c.back = false → exec (.spareLocked pos powers) s =
    .next (sendPause b ((now32 s + 50000) % 2 ^ 32) (modOpt (fun o =>
    { o with cutovers := tabPut o.cutovers b { c with stage := .noticed, pauseTime := (now32 s + 50000) % 2 ^ 32 } })
    s))) ∧
  (∀ pos powers b c s, pos < 10 → cutoverOf s pos = some (b, c) → c.back = true → exec (.spareLocked pos powers) s =
    .next (sendPause b ((now32 s + 50000) % 2 ^ 32) (modOpt (fun o =>
    { o with cutovers := tabPut o.cutovers b { c with stage := .noticed, pauseTime := (now32 s + 50000) % 2 ^ 32 } })
    (modConfig (fun g =>
    { g with commission := (List.range 32).foldl (fun t i => tabPut t (32 * b + i) (powers.getD i 0)) g.commission })
    s)))) ∧
  (∀ pos powers s, pos < 10 → cutoverOf s pos = none → exec (.spareLocked pos powers) s = .next s) ∧
  -- SPARE_LOCK_TIMEOUT
  (∀ pos s, pos < 10 → cutoverOf s pos = none → exec (.spareLockTimeout pos) s = .next s) ∧
  (∀ pos b c sp s, pos < 10 → cutoverOf s pos = some (b, c) → c.back = false → idleSpare (raise15 0x0102 [b, pos, 2]
    (dropCutover b pos s)) = some sp → exec (.spareLockTimeout pos) s = .next (beginCutover b sp (raise15 0x0102 [b,
    pos, 2] (dropCutover b pos s)))) ∧
  (∀ pos b c s, pos < 10 → cutoverOf s pos = some (b, c) → c.back = false → idleSpare (raise15 0x0102 [b, pos, 2]
    (dropCutover b pos s)) = none → exec (.spareLockTimeout pos) s = .next (countDie b 2 (raise15 0x0102 [b, c.spare,
    1] (raise15 0x0102 [b, pos, 2] (dropCutover b pos s))))) ∧
  (∀ pos b c o s, pos < 10 → cutoverOf s pos = some (b, c) → c.back = true → c.caller = some o → exec
    (.spareLockTimeout pos) s = .next (finish o .timeout [] (countDie b 2 (raise15 0x0102 [b, c.spare, 1]
    (dropCutover b pos s))))) ∧
  -- CUTOVER_PAUSE_TIME
  (∀ bay c s, bay < 8 → tabGet? s.opt.cutovers bay = some c → c.stage = .noticed → exec (.cutoverPauseTime bay) s =
    .next ((bayPorts s bay).foldl (fun s p => modPort p (fun pt => { pt with paused := true }) s) (modOpt (fun o =>
    { o with cutovers := tabPut o.cutovers bay { c with stage := .switching } }) s))) ∧
  (∀ bay c s, bay < 8 → tabGet? s.opt.cutovers bay = some c → c.stage ≠ .noticed → exec (.cutoverPauseTime bay) s =
    .next s) ∧
  -- CUTOVER_SWITCH_SETTLED
  (∀ bay c s, bay < 8 → tabGet? s.opt.cutovers bay = some c → c.stage = .switching → c.back = false → exec
    (.cutoverSwitchSettled bay) s = .next (endFades bay ((bayPorts s bay).foldl (fun s p => modPort p (fun pt =>
    { pt with paused := false }) s) (modBay c.spare (fun x => { x with use := .serving bay }) (modConfig (fun g =>
    { g with cutover := tabPut g.cutover bay c.spare }) (modOpt (fun o =>
    { o with cutovers := tabPut o.cutovers bay { c with stage := .settled } }) s)))))) ∧
  (∀ bay c s, bay < 8 → tabGet? s.opt.cutovers bay = some c → c.stage = .switching → c.back = true → exec
    (.cutoverSwitchSettled bay) s = .next (endFades bay ((bayPorts s bay).foldl (fun s p => modPort p (fun pt =>
    { pt with paused := false }) s) (modBay bay (fun x => { x with use := .active }) (modConfig (fun g =>
    { g with cutover := tabDel g.cutover bay }) (modOpt (fun o =>
    { o with cutovers := tabPut o.cutovers bay { c with stage := .settled } }) s)))))) ∧
  -- CUTOVER_COMPLETE
  (∀ bay c s, bay < 8 → tabGet? s.opt.cutovers bay = some c → c.stage = .settled → c.caller = none → exec
    (.cutoverComplete bay) s = .next (countDie bay 1 (raise15 0x0102 [bay, c.spare, 0] (leaveBay bay c (modOpt (fun o
    => { o with cutovers := tabDel o.cutovers bay }) s))))) ∧
  (∀ bay c o s, bay < 8 → tabGet? s.opt.cutovers bay = some c → c.stage = .settled → c.caller = some o → exec
    (.cutoverComplete bay) s = .next (finish o .ok [] (countDie bay 1 (raise15 0x0102 [bay, c.spare, 0] (leaveBay bay
    c (modOpt (fun o => { o with cutovers := tabDel o.cutovers bay }) s)))))) ∧
  (∀ bay s, bay < 8 → tabGet? s.opt.cutovers bay = none → exec (.cutoverComplete bay) s = .next s) ∧
  -- BAY_INTERLOCK_OPEN
  (∀ bay b s, bay < 10 → bayFeeds s bay = some b → exec (.bayInterlockOpen bay) s = .next (startCutover b ((bayLanes
    b).foldl (fun s l => holdLane .fade l s) (modBay bay (fun x => { x with fitted := false, use := .off }) s)))) ∧
  (∀ bay s, bay < 10 → bayFeeds s bay = none → exec (.bayInterlockOpen bay) s = .next (modBay bay (fun x =>
    { x with fitted := false, use := .off }) s)) ∧
  -- BAY_INSERTED
  (∀ bay s, bay < 10 → exec (.bayInserted bay) s = .next (modBay bay (fun _ =>
    { fitted := true, use := if bay < 8 then .off else .selfTest, darkColours := 0 }) s)) ∧
  -- BAY_SELF_TEST_DONE
  (∀ bay s, bay < 10 → (Machine.bay s bay).use = .selfTest → exec (.baySelfTestDone bay) s = .next (modBay bay (fun x
    => { x with use := .idle }) s)) ∧
  (∀ bay s, bay < 10 → (Machine.bay s bay).use ≠ .selfTest → exec (.baySelfTestDone bay) s = .next s) ∧
  -- BAY_INSERTED
  (∀ bay s, 10 ≤ bay → exec (.bayInserted bay) s = .fault (.noSuchUnit))

/-- Eye safety and crust circuits: what each event does (R43, R66, R67, R68, R74, R75, R76, R77). One clause for each
form of OPEN_FIBRE_DETECT, BACK_REFLECTION_HIGH, EYE_SAFETY_PROBE, EYE_SAFETY_PROBE_END, EYE_SAFETY_RESTORE,
CRUST_CHANGE_APPLY, CRUST_EFFECTIVE, CRUST_LIT: for every operand and state that meet the clause's conditions, exec
answers a next state, and the clause says what that state is or holds. Emission is reduced and restored, and crust
circuits are lit and ended. -/
def Obligations.FibreEvents : Prop :=
  -- OPEN_FIBRE_DETECT
  (∀ engine fibre s, pairKnown engine fibre = true → (fibrePair s (engine * 8 + fibre)).reduced = true → exec
    (.openFibreDetect engine fibre) s = .next s) ∧
  (∀ engine fibre s, pairKnown engine fibre = true → (fibrePair s (engine * 8 + fibre)).reduced = false → exec
    (.openFibreDetect engine fibre) s = .next (raiseBoth 0x0103 [engine, fibre, 0] (countFibre engine fibre 0
    (openFibre engine fibre s)))) ∧
  -- BACK_REFLECTION_HIGH
  (∀ engine fibre s, pairKnown engine fibre = true → exec (.backReflectionHigh engine fibre) s = .next (raise15
    0x0104 [engine, fibre] (countFibre engine fibre 2 s))) ∧
  -- EYE_SAFETY_PROBE
  (∀ engine fibre s, pairKnown engine fibre = true → (fibrePair s (engine * 8 + fibre)).reduced = true → exec
    (.eyeSafetyProbe engine fibre) s = .next (countFibre engine fibre 1 (modFibre (engine * 8 + fibre) (fun x =>
    { x with probing := true }) s))) ∧
  (∀ engine fibre s, pairKnown engine fibre = true → (fibrePair s (engine * 8 + fibre)).reduced = false → exec
    (.eyeSafetyProbe engine fibre) s = .next s) ∧
  -- EYE_SAFETY_PROBE_END
  (∀ engine fibre low s, pairKnown engine fibre = true → (fibrePair s (engine * 8 + fibre)).probing = true → exec
    (.eyeSafetyProbeEnd engine fibre low) s = .next (modFibre (engine * 8 + fibre) (fun x =>
    { x with probing := false, probeLow := some low }) s)) ∧
  (∀ engine fibre low s, pairKnown engine fibre = true → (fibrePair s (engine * 8 + fibre)).probing = false → exec
    (.eyeSafetyProbeEnd engine fibre low) s = .next s) ∧
  -- EYE_SAFETY_RESTORE
  (∀ engine fibre s, pairKnown engine fibre = true → (fibrePair s (engine * 8 + fibre)).reduced = true → (fibrePair s
    (engine * 8 + fibre)).probeLow = some true → exec (.eyeSafetyRestore engine fibre) s = .next (raiseBoth 0x0103
    [engine, fibre, 1] (restoreFibre engine fibre s))) ∧
  (∀ engine fibre s, pairKnown engine fibre = true → (fibrePair s (engine * 8 + fibre)).probeLow ≠ some true → exec
    (.eyeSafetyRestore engine fibre) s = .next s) ∧
  -- CRUST_CHANGE_APPLY
  (∀ engine s, engine < 32 → circuitsIn s engine (fun c => c.phase == .deferred) = [] → circuitsIn s engine (fun c =>
    c.tearDown && c.phase != .tearing && c.phase != .deferred && c.phase != .committed) = [] → exec
    (.crustChangeApply engine) s = .next s) ∧
  (∀ engine s, engine < 32 → circuitsIn s engine (fun c => c.phase == .deferred) ≠ [] → exec (.crustChangeApply
    engine) s = .next (modOpt (fun o => { o with lastChange := tabPut o.lastChange engine (nowRef s) }) (applyChanges
    engine s))) ∧
  -- CRUST_EFFECTIVE
  (∀ engine s, engine < 32 → exec (.crustEffective engine) s = .next ((circuitsIn s engine (fun c => c.phase ==
    .tearing)).foldl (fun s x => endCircuit engine x s) ((circuitsIn s engine (fun c => c.phase == .committed)).foldl
    (fun s x => lightCircuit engine x s) s))) ∧
  -- CRUST_LIT
  (∀ circuit c s, Machine.circuit s circuit = some c → c.phase = .lighting → (circuitRings s c).all (fun k => (ring s
    k).mode != .unlocked) = true → exec (.crustLit circuit) s = .next (crustNotice 2 circuit c (modCircuit circuit
    (fun c => { c with phase := .lit }) (setMode .locked (circuitRings s c) s)))) ∧
  (∀ circuit s, Machine.circuit s circuit = none → exec (.crustLit circuit) s = .next s)

/-- Lanes: what each event does (R88, R90, R91, R103, R115, R120, R121, R122). One clause for each form of
SIGNAL_DETECT, ACQUIRE_LOCK, ACQUIRE_TIMEOUT, DELINEATION_LOCK, DELINEATE_TIMEOUT, DELINEATION_LOSS, LIGHT_LOST,
LANE_ERROR_RATE, VERIFY_PASS: for every operand and state that meet the clause's conditions, exec answers a next
state, and the clause says what that state is or holds. A lane moves through the states of Table 3.8, joins and
leaves. -/
def Obligations.LaneEvents : Prop :=
  -- SIGNAL_DETECT
  (∀ lane s, laneKnown lane = true → (laneIn s lane .dark && !laneUnlocked s lane) = true → exec (.signalDetect lane)
    s = .next (setLanePhase lane .acquire s)) ∧
  (∀ lane s, laneKnown lane = true → (laneIn s lane .dark && !laneUnlocked s lane) = false → exec (.signalDetect
    lane) s = .next s) ∧
  -- ACQUIRE_LOCK
  (∀ lane s, laneKnown lane = true → laneIn s lane .acquire = true → exec (.acquireLock lane) s = .next (setLanePhase
    lane .delineate s)) ∧
  (∀ lane s, laneKnown lane = true → laneIn s lane .acquire = false → exec (.acquireLock lane) s = .next s) ∧
  -- ACQUIRE_TIMEOUT
  (∀ lane s, laneKnown lane = true → laneIn s lane .acquire = true → exec (.acquireTimeout lane) s = .next (countLane
    lane 8 (modLane lane (fun x => { x with phase := .dark, acquireExpiries := x.acquireExpiries + 1 }) s))) ∧
  (∀ lane s, laneKnown lane = true → laneIn s lane .acquire = false → exec (.acquireTimeout lane) s = .next s) ∧
  -- DELINEATION_LOCK
  (∀ lane s, laneKnown lane = true → laneIn s lane .delineate = true → exec (.delineationLock lane) s = .next
    (setLanePhase lane .verify s)) ∧
  (∀ lane s, laneKnown lane = true → laneIn s lane .delineate = false → exec (.delineationLock lane) s = .next s) ∧
  -- DELINEATE_TIMEOUT
  (∀ lane s, laneKnown lane = true → laneIn s lane .delineate = true → exec (.delineateTimeout lane) s = .next
    (setLanePhase lane .acquire s)) ∧
  (∀ lane s, laneKnown lane = true → laneIn s lane .delineate = false → exec (.delineateTimeout lane) s = .next s) ∧
  -- DELINEATION_LOSS
  (∀ lane s, laneKnown lane = true → (laneIn s lane .dark || laneIn s lane .acquire || laneIn s lane .delineate) =
    false → exec (.delineationLoss lane) s = .next (loseSignal lane .delineation (countLane lane 6 s))) ∧
  (∀ lane s, laneKnown lane = true → (laneIn s lane .dark || laneIn s lane .acquire || laneIn s lane .delineate) =
    true → exec (.delineationLoss lane) s = .next s) ∧
  -- LIGHT_LOST
  (∀ lane s, laneKnown lane = true → exec (.lightLost lane) s = .next (loseSignal lane .light s)) ∧
  -- LANE_ERROR_RATE
  (∀ lane s, laneKnown lane = true → laneIn s lane .joined = true → (Machine.lane (removeLane lane .errorRate s)
    lane).stayOut = false → exec (.laneErrorRate lane) s = .next (removeLane lane .errorRate s)) ∧
  (∀ lane s, laneKnown lane = true → laneIn s lane .joined = true → (Machine.lane (removeLane lane .errorRate s)
    lane).stayOut = true → exec (.laneErrorRate lane) s = .next (failLane lane 2 (removeLane lane .errorRate s))) ∧
  (∀ lane s, laneKnown lane = true → laneIn s lane .joined = false → exec (.laneErrorRate lane) s = .next s) ∧
  -- VERIFY_PASS
  (∀ lane received p s, laneKnown lane = true → portOfLane s lane = some p → laneIn s lane .joined = true → exec
    (.verifyPass lane received) s = .next (modLane lane (fun x => { x with suspended := false }) s)) ∧
  (∀ lane received p s, laneKnown lane = true → portOfLane s lane = some p → laneIn s lane .joined = false → laneIn s
    lane .verify = true → received = lane - p → exec (.verifyPass lane received) s = .next (noteEntry p s (laneReady
    lane (modLane lane (fun x => { x with acquireExpiries := 0 }) s)))) ∧
  (∀ lane received p s, laneKnown lane = true → portOfLane s lane = some p → laneIn s lane .joined = false → laneIn s
    lane .verify = true → received ≠ lane - p → (Machine.lane s lane).miswired = false → exec (.verifyPass lane
    received) s = .next (noteEntry p s (raiseBoth 0x0204 [p, lane - p, received] (modLane lane (fun x =>
    { x with miswired := true }) s)))) ∧
  (∀ lane received p s, laneKnown lane = true → portOfLane s lane = some p → laneIn s lane .joined = false → laneIn s
    lane .verify = true → received ≠ lane - p → (Machine.lane s lane).miswired = true → exec (.verifyPass lane
    received) s = .next s) ∧
  (∀ lane received p s, laneKnown lane = true → portOfLane s lane = some p → laneIn s lane .joined = false → laneIn s
    lane .verify = false → exec (.verifyPass lane received) s = .next s) ∧
  -- LIGHT_LOST
  (∀ lane s, laneKnown lane = false → exec (.lightLost lane) s = .fault (.noSuchUnit))

/-- Ports and link-layer messages: what each event does (R104, R106, R107, R109, R110, R111, R112, R113, R116, R117,
R118, R647). One clause for each form of LANE_MESSAGE_RX, PAUSE_RX, PAUSE_WINDOW_END, RETRAIN_RX, LL_ACK_RX,
LL_RETRY_TICK, HELLO_TICK, HELLO_WAIT, HELLO_RX, CREDIT_TIMEOUT, RESUME_TIMEOUT, REPLAY_LIMIT: for every operand and
state that meet the clause's conditions, exec answers a next state, and the clause says what that state is or holds.
A port moves through the states of Table 3.9 and exchanges its link-local messages. -/
def Obligations.PortEvents : Prop :=
  -- LANE_MESSAGE_RX
  (∀ port msgId action lanes s, portKnown s port = true → exec (.laneMessageRx port msgId action lanes) s = .next
    (onMessage port 0x02 msgId (fun s => ((portLanes s port).filter (fun l => testBitN lanes (l - port))).foldl (fun
    s l => if action = 0 then laneRemoveRx msgId l s else if action = 1 then laneReadyRx msgId l s else s) s) s)) ∧
  -- PAUSE_RX
  (∀ port msgId time len lanes s, portKnown s port = true → exec (.pauseRx port msgId time len lanes) s = .next
    (onMessage port 0x03 msgId (modPort port (fun pt =>
    { pt with pause := some { time := time, len := len, lanes := lanes } })) s)) ∧
  -- PAUSE_WINDOW_END
  (∀ port s, portKnown s port = true → (Machine.port s port).pause = none → exec (.pauseWindowEnd port) s = .next s)
    ∧
  (∀ port w s, portKnown s port = true → (Machine.port s port).pause = some w → exec (.pauseWindowEnd port) s = .next
    (((portLanes s port).filter (fun l => testBitN w.lanes (l - port) && (lane s l).suspended)).foldl (fun s l =>
    removeLane l .light s) (modPort port (fun pt => { pt with pause := none }) s))) ∧
  -- RETRAIN_RX
  (∀ port msgId s, portKnown s port = true → exec (.retrainRx port msgId) s = .next (onMessage port 0x05 msgId
    (enterResume port 2) s)) ∧
  -- LL_ACK_RX
  (∀ port llType msgId s, portKnown s port = true → llType ≠ 2 → exec (.llAckRx port llType msgId) s = .next (modPort
    port (fun pt =>
    { pt with
      msgs := pt.msgs.filter (fun m => !(m.llType == llType && m.msgId == msgId)),
      localOut := pt.localOut.filter (fun x => !(xLlType x.2 == llType && xMsgId x.2 == msgId)) }) s)) ∧
  (∀ port msgId s, portKnown s port = true → exec (.llAckRx port 2 msgId) s = .next ((portLanes s port).foldl (fun s
    l => modLane l (fun x => { x with removeSent := if x.removeSent = some msgId then none else x.removeSent }) s)
    (modPort port (fun pt =>
    { pt with
      msgs := pt.msgs.filter (fun m => !(m.llType == 2 && m.msgId == msgId)),
      localOut := pt.localOut.filter (fun x => !(xLlType x.2 == 2 && xMsgId x.2 == msgId)) }) s))) ∧
  -- LL_RETRY_TICK
  (∀ port s, portKnown s port = true → exec (.llRetryTick port) s = .next ((Machine.port s port).msgs.foldl (fun s m
    => retryMsg port m s) s)) ∧
  -- HELLO_TICK
  (∀ port s, portKnown s port = true → (Machine.port s port).phase = .hello ∨ (Machine.port s port).phase = .up ∨
    (Machine.port s port).phase = .resume → exec (.helloTick port) s = .next (sendOnce port 0x01 (readyLanes s port)
    (helloPayload s port) s)) ∧
  (∀ port s, portKnown s port = true → (Machine.port s port).phase = .down ∨ (Machine.port s port).phase = .credit →
    exec (.helloTick port) s = .next s) ∧
  -- HELLO_WAIT
  (∀ port s, portKnown s port = true → (Machine.port s port).phase = .hello → exec (.helloWait port) s = .next
    (raise31 0x0202 [port, 0] s)) ∧
  (∀ port s, portKnown s port = true → (Machine.port s port).phase ≠ .hello → exec (.helloWait port) s = .next s) ∧
  -- HELLO_RX
  (∀ port pkt arrival s, portKnown s port = true → helloValid pkt = false → exec (.helloRx port pkt arrival) s =
    .next s) ∧
  (∀ port pkt arrival s, portKnown s port = true → (Machine.port s port).phase = .down → exec (.helloRx port pkt
    arrival) s = .next s) ∧
  (∀ port pkt arrival s, portKnown s port = true → helloValid pkt = true → (Machine.port s port).phase = .hello →
    exec (.helloRx port pkt arrival) s = .next (noteEntry port s (helloInHello port (helloPeer pkt) (fld (payloadWord
    pkt 0) 19 19 == 1) (recordHello port pkt arrival s)))) ∧
  (∀ port pkt arrival s, portKnown s port = true → helloValid pkt = true → (Machine.port s port).phase = .up →
    identityChanged (Machine.port s port) (helloPeer pkt) = true → exec (.helloRx port pkt arrival) s = .next
    (noteEntry port s (tryHello port (enterDown port 5 (recordHello port pkt arrival s))))) ∧
  (∀ port pkt arrival s, portKnown s port = true → helloValid pkt = true → (Machine.port s port).phase = .up →
    identityChanged (Machine.port s port) (helloPeer pkt) = false → exec (.helloRx port pkt arrival) s = .next
    (noteEntry port s (recordHello port pkt arrival s))) ∧
  -- CREDIT_TIMEOUT
  (∀ port s, portKnown s port = true → (Machine.port s port).phase = .credit → exec (.creditTimeout port) s = .next
    (tryHello port (enterDown port 9 s))) ∧
  (∀ port s, portKnown s port = true → (Machine.port s port).phase ≠ .credit → exec (.creditTimeout port) s = .next
    s) ∧
  -- RESUME_TIMEOUT
  (∀ port s, portKnown s port = true → (Machine.port s port).phase = .resume → exec (.resumeTimeout port) s = .next
    (tryHello port (enterDown port 7 s))) ∧
  (∀ port s, portKnown s port = true → (Machine.port s port).phase ≠ .resume → exec (.resumeTimeout port) s = .next
    s) ∧
  -- REPLAY_LIMIT
  (∀ port s, portKnown s port = true → 8 ≤ (Machine.port s port).replays → exec (.replayLimit port) s = .next
    (enterResume port 1 s)) ∧
  (∀ port s, portKnown s port = true → (Machine.port s port).replays < 8 → exec (.replayLimit port) s = .next s) ∧
  (∀ port s, portKnown s port = false → exec (.replayLimit port) s = .fault (.noSuchUnit))

/-- Blocks, replay and credit: what each event does (R92, R93, R94, R95, R96, R97, R101, R103, R104, R105, R106,
R648). One clause for each form of IDLE_BLOCK_RX, DATA_BLOCK_RX, LOCAL_BLOCK_RX, NAK_GAP_TIMEOUT, ACK_TIMEOUT_REPLAY,
CREDIT_REPEAT_TICK, CREDIT_TARGET_TICK, CREDIT_GRANT_TICK, BLOCK_SLOT: for every operand and state that meet the
clause's conditions, exec answers a next state, and the clause says what that state is or holds. Blocks are accepted,
held, discarded or answered with a NAK, credit is counted and granted, and a slot is sent. -/
def Obligations.BlockEvents : Prop :=
  -- IDLE_BLOCK_RX
  (∀ lane block s, laneKnown lane = true → portOfLane s lane = none → exec (.idleBlockRx lane block) s = .next s) ∧
  (∀ lane block p s, laneKnown lane = true → portOfLane s lane = some p → (arrive lane p block s).2 = true → bType
    block = 0 → exec (.idleBlockRx lane block) s = .next (applyFields p block (arrive lane p block s).1)) ∧
  (∀ lane block p s, laneKnown lane = true → portOfLane s lane = some p → (arrive lane p block s).2 = false ∨ bType
    block ≠ 0 → exec (.idleBlockRx lane block) s = .next ((arrive lane p block s).1)) ∧
  -- DATA_BLOCK_RX
  (∀ lane block p s, laneKnown lane = true → portOfLane s lane = some p → (arrive lane p block s).2 = true → bType
    block = 1 → (port s p).phase = .credit ∨ (port s p).phase = .up → (Machine.lane s lane).phase = .ready ∨
    (Machine.lane s lane).phase = .joined → exec (.dataBlockRx lane block) s = .next (sequenceBlock p block
    (applyFields p block (arrive lane p block s).1))) ∧
  (∀ lane block p s, laneKnown lane = true → portOfLane s lane = some p → (arrive lane p block s).2 = true → bType
    block = 1 → ¬(((port s p).phase = .credit ∨ (port s p).phase = .up) ∧ ((Machine.lane s lane).phase = .ready ∨
    (Machine.lane s lane).phase = .joined)) → exec (.dataBlockRx lane block) s = .next (countLane lane 9 (arrive lane
    p block s).1)) ∧
  (∀ lane block p s, laneKnown lane = true → portOfLane s lane = some p → (arrive lane p block s).2 = false ∨ bType
    block ≠ 1 → exec (.dataBlockRx lane block) s = .next ((arrive lane p block s).1)) ∧
  -- LOCAL_BLOCK_RX
  (∀ lane block p s, laneKnown lane = true → portOfLane s lane = some p → (arrive lane p block s).2 = true → bType
    block = 2 → localGood block = true → exec (.localBlockRx lane block) s = .next (applyFields p block (arrive lane
    p block s).1)) ∧
  (∀ lane block p s, laneKnown lane = true → portOfLane s lane = some p → (arrive lane p block s).2 = true → bType
    block = 2 → localGood block = false → exec (.localBlockRx lane block) s = .next (countPort p 12 1 (applyFields p
    block (arrive lane p block s).1))) ∧
  (∀ lane block p s, laneKnown lane = true → portOfLane s lane = some p → (arrive lane p block s).2 = false ∨ bType
    block ≠ 2 → exec (.localBlockRx lane block) s = .next ((arrive lane p block s).1)) ∧
  -- NAK_GAP_TIMEOUT
  (∀ port s, portKnown s port = true → (Machine.port s port).window.isEmpty = false → exec (.nakGapTimeout port) s =
    .next (startNak port s)) ∧
  (∀ port s, portKnown s port = true → (Machine.port s port).window.isEmpty = true → exec (.nakGapTimeout port) s =
    .next s) ∧
  -- ACK_TIMEOUT_REPLAY
  (∀ port x xs s, portKnown s port = true → (Machine.port s port).unacked = x :: xs → (Machine.port s port).phase =
    .up → exec (.ackTimeoutReplay port) s = .next (startReplay port 0 x.seq s)) ∧
  (∀ port s, portKnown s port = true → (Machine.port s port).unacked = [] → exec (.ackTimeoutReplay port) s = .next
    s) ∧
  -- CREDIT_REPEAT_TICK
  (∀ port s, portKnown s port = true → (Machine.port s port).phase = .credit ∨ (Machine.port s port).phase = .up →
    exec (.creditRepeatTick port) s = .next (modPort port (fun pt =>
    { pt with crDue := distinct (pt.crDue ++ creditKeys) }) s)) ∧
  (∀ port s, portKnown s port = true → (Machine.port s port).phase ≠ .credit → (Machine.port s port).phase ≠ .up →
    exec (.creditRepeatTick port) s = .next s) ∧
  -- CREDIT_TARGET_TICK
  (∀ port s, portKnown s port = true → exec (.creditTargetTick port) s = .next (modPort port (fun pt =>
    { pt with target := creditTargets pt.width (portLength s port) pt.weights pt.active, active := [] }) s)) ∧
  -- CREDIT_GRANT_TICK
  (∀ port s, portKnown s port = true → (Machine.port s port).phase = .credit ∨ (Machine.port s port).phase = .up →
    exec (.creditGrantTick port) s = .next (modPort port (fun pt => [0, 1, 2, 3, 4].foldl (fun pt c => grantOne c pt)
    pt) s)) ∧
  (∀ port s, portKnown s port = true → (Machine.port s port).phase ≠ .credit → (Machine.port s port).phase ≠ .up →
    exec (.creditGrantTick port) s = .next s) ∧
  -- BLOCK_SLOT
  (∀ lane s, laneKnown lane = true → portOfLane s lane = none → exec (.blockSlot lane) s = .next s) ∧
  (∀ lane p s, laneKnown lane = true → portOfLane s lane = some p → (Machine.lane s lane).phase = .dark → exec
    (.blockSlot lane) s = .next s) ∧
  (∀ lane p s, laneKnown lane = true → portOfLane s lane = some p → (fibrePair s (lane / 8)).reduced = false → (port
    s p).paused = false → (Machine.lane s lane).phase = .joined → (port s p).phase = .up → exec (.blockSlot lane) s =
    .next (serveSlot lane p s)) ∧
  (∀ lane p i k s, laneKnown lane = true → portOfLane s lane = some p → (fibrePair s (lane / 8)).reduced = false →
    (port s p).paused = false → (Machine.lane s lane).phase = .ready → localAllowed s p lane = true → localNext (port
    s p) lane = some (i, k) → exec (.blockSlot lane) s = .next (sendLocal lane p i k s)) ∧
  (∀ lane p s, laneKnown lane = true → portOfLane s lane = some p → (fibrePair s (lane / 8)).reduced = false → (port
    s p).paused = false → (Machine.lane s lane).phase = .verify → exec (.blockSlot lane) s = .next (sendIdle lane p
    s)) ∧
  -- CREDIT_GRANT_TICK
  (∀ port s, portKnown s port = false → exec (.creditGrantTick port) s = .fault (.noSuchUnit))

/-- Packets through a slice, its tables and its queues: what each event does (R152, R173, R186, R198, R208, R212,
R219, R227, R235, R236, R251, R254). One clause for each form of PACKET_HEADER_RX, C0_POLICER_RELEASE, LEARN_MSG_RX,
PACKET_TRAILER_CHECK, STAGING_WRITE, HEADROOM_FILLED, QUEUE_STALENESS_EXPIRY, PORT_STALENESS_EXPIRY,
HUSK_WAIT_EXPIRY, HUSK_MOVE_END, BUCKET_LOCK_TIMEOUT, SWEEP_TICK, PROOF_PERIOD_BOUNDARY, LEND_IDLE_TIMEOUT: for every
operand and state that meet the clause's conditions, exec answers a next state, and the clause says what that state
is or holds. A packet is dropped with its reason, admitted, queued, held, aged out or moved to the husk lane; tables
learn, age and unlock; budgets turn over. -/
def Obligations.ForwardEvents : Prop :=
  -- PACKET_HEADER_RX
  (∀ port pkt slots code s, portKnown s port = true → headerDrop s port pkt slots = some code → exec (.packetHeaderRx
    port pkt slots) s = .next (samplePacket port pkt { code := code, out := none } (returnCells port pkt (countDrop
    port code (filterSlice 0 (port / 256) pkt (headerParity port pkt s)))))) ∧
  (∀ port pkt slots k s1 s2 f s, portKnown s port = true → headerDrop s port pkt slots = none → colourPacket port pkt
    (filterSlice 0 (port / 256) pkt (headerParity port pkt s)) = (k, s1) → pClass k ≠ 0 → routePacket port k s1 =
    (s2, f) → exec (.packetHeaderRx port pkt slots) s = .next (samplePacket port pkt f s2)) ∧
  (∀ port pkt slots k s1 s2 s3 f s, portKnown s port = true → headerDrop s port pkt slots = none → colourPacket port
    pkt (filterSlice 0 (port / 256) pkt (headerParity port pkt s)) = (k, s1) → pClass k = 0 → (Machine.port s1
    port).c0Held.isEmpty = true → policed port k s1 = some s2 → routePacket port k s2 = (s3, f) → exec
    (.packetHeaderRx port pkt slots) s = .next (samplePacket port pkt f s3)) ∧
  (∀ port pkt slots k s1 s, portKnown s port = true → headerDrop s port pkt slots = none → colourPacket port pkt
    (filterSlice 0 (port / 256) pkt (headerParity port pkt s)) = (k, s1) → pClass k = 0 → (Machine.port s1
    port).c0Held.isEmpty = true → policed port k s1 = none → exec (.packetHeaderRx port pkt slots) s = .next
    (samplePacket port pkt { code := 0, out := none } (modPort port (fun pt =>
    { pt with c0Held := pt.c0Held ++ [k] }) (countQueue port 0 5 1 (chargeHeadroom port (cvKey 0 (pVc k)) (cellsOf k)
    (settleC0 port s1)))))) ∧
  -- C0_POLICER_RELEASE
  (∀ port s, portKnown s port = true → (Machine.port s port).c0Held = [] → exec (.c0PolicerRelease port) s = .next s)
    ∧
  (∀ port k rest s, portKnown s port = true → (Machine.port s port).c0Held = k :: rest → policed port k s = none →
    exec (.c0PolicerRelease port) s = .next s) ∧
  (∀ port k rest s1 s, portKnown s port = true → (Machine.port s port).c0Held = k :: rest → policed port k s = some
    s1 → exec (.c0PolicerRelease port) s = .next ((routePacket port k (modBuf (fun x =>
    { x with headroom := tabMod zeroTab (· - cellsOf k) x.headroom (port * 16 + cvKey 0 (pVc k)) }) (modPort port
    (fun pt => { pt with c0Held := rest }) s1))).1)) ∧
  -- LEARN_MSG_RX
  (∀ slice s, slice < 8 → (Machine.slice s slice).learnQueue = [] → exec (.learnMsgRx slice) s = .next s) ∧
  (∀ slice m rest s, slice < 8 → (Machine.slice s slice).learnQueue = m :: rest → mayStart s 3 2 = true → exec
    (.learnMsgRx slice) s = .next (learn slice m (startWork 3 2 1 (modSlice slice (fun x =>
    { x with learnQueue := rest }) s)))) ∧
  (∀ slice m rest s, slice < 8 → (Machine.slice s slice).learnQueue = m :: rest → mayStart s 3 2 = false → exec
    (.learnMsgRx slice) s = .next s) ∧
  -- PACKET_TRAILER_CHECK
  (∀ id verdict inst s, stored s id = none → exec (.packetTrailerCheck id verdict inst) s = .next s) ∧
  (∀ id verdict inst k s, stored s id = some k → k.inPort = none ∨ k.complete = true → exec (.packetTrailerCheck id
    verdict inst) s = .next s) ∧
  (∀ id verdict inst k p s, stored s id = some k → k.inPort = some p → k.complete = false → pEnc k.pkt = false →
    verdict ≠ .pass → exec (.packetTrailerCheck id verdict inst) s = .next (cutShort false id (countDrop p (if
    verdict = .inverted then 0x11 else 0x10) s))) ∧
  (∀ id inst k p s, stored s id = some k → k.inPort = some p → k.complete = false → pEnc k.pkt = false → k.consumer =
    none → exec (.packetTrailerCheck id (.pass) inst) s = .next (learnFrom p k.pkt k.hopsIn (modStored id (fun x =>
    { x with complete := true }) s))) ∧
  (∀ id verdict inst k p s1 s, stored s id = some k → k.inPort = some p → k.complete = false → pEnc k.pkt = true →
    instanceCheck p k.pkt verdict inst s = (s1, false) → exec (.packetTrailerCheck id verdict inst) s = .next
    (cutShort false id (countDrop p (if verdict = .inverted then 0x11 else 0x12) s1))) ∧
  -- STAGING_WRITE
  (∀ s, takeDelivered 0 s = none → exec (.stagingWrite) s = .next s) ∧
  (∀ d s1 s, takeDelivered 0 s = some (d, s1) → exec (.stagingWrite) s = .next (deliverTo (if pKind d.pkt = 2 then 1
    else 2) ⟨d.inPort, d.pkt, 0, 0, 0, 0⟩ s1)) ∧
  -- HEADROOM_FILLED
  (∀ slice s, slice < 8 → s.buf.sharedUsed ≤ sharedSize s → exec (.headroomFilled slice) s = .next (((allPorts
    s).filter (fun p => p / 256 == slice && (port s p).awaitHeadroom)).foldl (fun s p => tryHello p (modPort p (fun
    pt => { pt with awaitHeadroom := false }) s)) s)) ∧
  (∀ slice s, slice < 8 → sharedSize s < s.buf.sharedUsed → exec (.headroomFilled slice) s = .next s) ∧
  -- QUEUE_STALENESS_EXPIRY
  (∀ port cls vc s, portKnown s port = true → cls < 5 → vc < 2 → (sourceQueues s port cls vc).all (·.isEmpty) = false
    → creditless s port cls vc = true → exec (.queueStalenessExpiry port cls vc) s = .next (stalePort port 6 (port *
    16 + cls * 2 + vc) s)) ∧
  (∀ port cls vc s, portKnown s port = true → cls < 5 → vc < 2 → (sourceQueues s port cls vc).all (·.isEmpty) = true
    ∨ creditless s port cls vc = false → exec (.queueStalenessExpiry port cls vc) s = .next s) ∧
  -- PORT_STALENESS_EXPIRY
  (∀ port s, portKnown s port = true → (Machine.port s port).phase = .up → portHasQueued s port = true → exec
    (.portStalenessExpiry port) s = .next (stalePort port 7 port s)) ∧
  (∀ port s, portKnown s port = true → (Machine.port s port).phase ≠ .up → exec (.portStalenessExpiry port) s = .next
    s) ∧
  -- HUSK_WAIT_EXPIRY
  (∀ port cls src s, portKnown s port = true → cls < 5 → src < 17 → (voq s (voqKey port cls 0 src)).head?.bind (fun c
    => stored s c.pkt) = none → exec (.huskWaitExpiry port cls src) s = .next s) ∧
  (∀ port cls src k s, portKnown s port = true → cls < 5 → src < 17 → (voq s (voqKey port cls 0 src)).head?.bind (fun
    c => stored s c.pkt) = some k → creditless s port cls 0 = true → k.multicast = false → (huskPort (huskParity
    k.slice k.pkt s) (slice (huskParity k.slice k.pkt s) k.slice) k.pkt).isSome = true → exec (.huskWaitExpiry port
    cls src) s = .next (modBuf (fun b =>
    { b with huskMoving := distinct (huskMoveKey port cls src :: b.huskMoving) }) ((voq (huskParity k.slice k.pkt s)
    (voqKey port cls 0 src)).foldl (fun s c => moveCopy port cls src s c) (setVoq (voqKey port cls 0 src) []
    (huskParity k.slice k.pkt s))))) ∧
  (∀ port cls src k s, portKnown s port = true → cls < 5 → src < 17 → (voq s (voqKey port cls 0 src)).head?.bind (fun
    c => stored s c.pkt) = some k → creditless s port cls 0 = false ∨ k.multicast = true → exec (.huskWaitExpiry port
    cls src) s = .next s) ∧
  -- HUSK_MOVE_END
  (∀ port cls s, portKnown s port = true → cls < 5 → ∃ t, exec (.huskMoveEnd port cls) s = .next t ∧ t.buf.huskMoving
    = s.buf.huskMoving.filter (fun k => k / 17 != pcKey port cls) ∧ t.buf.queues = s.buf.queues) ∧
  -- BUCKET_LOCK_TIMEOUT
  (∀ slice bucket s, slice < 8 → lockOf (Machine.slice s slice) bucket = none → exec (.bucketLockTimeout slice
    bucket) s = .next s) ∧
  (∀ slice bucket l s, slice < 8 → lockOf (Machine.slice s slice) bucket = some l → exec (.bucketLockTimeout slice
    bucket) s = .next (finish l.owner .timeout [] (noteLevel 1 (raise31 0x0302 [slice, bucket] (unlockBucket slice
    bucket (restoreBucket slice bucket l s)))))) ∧
  -- SWEEP_TICK
  (∀ slice s, slice < 8 → exec (.sweepTick slice false) s = .next (modSlice slice (fun x =>
    { x with
      dest := x.dest.filterMap (fun e => if (lockOf x (bucketOf x e.1)).isSome then some e else (sweepEntry e.2).map
        (fun v => (e.1, v))) }) s)) ∧
  (∀ slice s, slice < 8 → exec (.sweepTick slice true) s = .next (raise31 0x0303 [slice] (countSlice slice 6
    (modSlice slice (fun x =>
    { x with
      dest := x.dest.filterMap (fun e => if (lockOf x (bucketOf x e.1)).isSome then some e else (sweepEntry e.2).map
        (fun v => (e.1, v))) }) s)))) ∧
  -- PROOF_PERIOD_BOUNDARY
  (∀ s, ∃ t, exec (.proofPeriodBoundary) s = .next t ∧ t.sched.lentPool = [] ∧ t.sched.budgets = (closeGates
    s).sched.nextBudgets.getD (closeGates s).sched.budgets ∧ t.sched.nextBudgets = none) ∧
  -- LEND_IDLE_TIMEOUT
  (∀ act res s, act < 10 → res < 4 → ((s.sched.budgets.getD act ⟨[], false⟩).lendable && (res != 0 || throttleDepth s
    2 == 0)) = true → exec (.lendIdleTimeout act res) s = .next (modGate act res (fun g =>
    { g with
      lent := g.lent + (allowance s act res - ((gate s act res).used + (gate s act res).overdraw + (gate s act
        res).lent)) })
    { s with
      sched :=
        { s.sched with
          lentPool := tabMod (fun _ => 0) (· + (allowance s act res - ((gate s act res).used + (gate s act
            res).overdraw + (gate s act res).lent))) s.sched.lentPool res } })) ∧
  (∀ act res s, act < 10 → res < 4 → ((s.sched.budgets.getD act ⟨[], false⟩).lendable && (res != 0 || throttleDepth s
    2 == 0)) = false → exec (.lendIdleTimeout act res) s = .next s)

/-- Loaves: what each event of a running one does (R284, R285, R286, R287, R288, R289, R291, R292, R294, R296, R302,
R331). One clause for each form of CONTRIBUTION_RX, SLOT_RESULT_WRITTEN, GATHER_SEND, SPILL_IDLE_TIMEOUT,
SPILL_COMPLETE, SPILL_RESTORE, LOAF_STALENESS_EXPIRY, ABORT_RX, STAGING_SRAM_ERROR, INJECTION_WRITE: for every
operand and state that meet the clause's conditions, exec answers a next state, and the clause says what that state
is or holds. Contributions are folded or turned away, results written and sent, contexts spilled, restored and
aborted. -/
def Obligations.LoafEvents : Prop :=
  -- CONTRIBUTION_RX
  (∀ errs s, takeDelivered 1 s = none → exec (.contributionRx errs) s = .next s) ∧
  (∀ errs d s1 s, takeDelivered 1 s = some (d, s1) → loafCtx s (ctxKey (xGid d.pkt) (xPortion d.pkt)) = none → exec
    (.contributionRx errs) s = .next (countSlice (deliveredSlice s d) 12 s1)) ∧
  (∀ errs d s1 c s, takeDelivered 1 s = some (d, s1) → loafCtx s (ctxKey (xGid d.pkt) (xPortion d.pkt)) = some c →
    held s (xGid d.pkt) c.recipeId = none → exec (.contributionRx errs) s = .next (countSlice (deliveredSlice s d) 12
    s1)) ∧
  (∀ errs d s1 c h s, takeDelivered 1 s = some (d, s1) → loafCtx s (ctxKey (xGid d.pkt) (xPortion d.pkt)) = some c →
    held s (xGid d.pkt) c.recipeId = some h → mustWait s h c d.pkt = true → exec (.contributionRx errs) s = .next s)
    ∧
  (∀ errs d s1 c h s, takeDelivered 1 s = some (d, s1) → loafCtx s (ctxKey (xGid d.pkt) (xPortion d.pkt)) = some c →
    held s (xGid d.pkt) c.recipeId = some h → mustWait s h c d.pkt = false → relationOf h.closing c (xLoafSeq d.pkt)
    = .behind → exec (.contributionRx errs) s = .next (countKnead c.knead 2 1 s1)) ∧
  (∀ errs d s1 c h s, takeDelivered 1 s = some (d, s1) → loafCtx s (ctxKey (xGid d.pkt) (xPortion d.pkt)) = some c →
    held s (xGid d.pkt) c.recipeId = some h → mustWait s h c d.pkt = false → relationOf h.closing c (xLoafSeq d.pkt)
    = .current → exec (.contributionRx errs) s = .next (accept1 (ctxKey (xGid d.pkt) (xPortion d.pkt)) h d.pkt errs
    s1)) ∧
  (∀ errs d s1 c h s, takeDelivered 1 s = some (d, s1) → loafCtx s (ctxKey (xGid d.pkt) (xPortion d.pkt)) = some c →
    held s (xGid d.pkt) c.recipeId = some h → mustWait s h c d.pkt = false → relationOf h.closing c (xLoafSeq d.pkt)
    = .begins → exec (.contributionRx errs) s = .next (startLoaf (ctxKey (xGid d.pkt) (xPortion d.pkt)) h d.pkt errs
    s1)) ∧
  (∀ errs d s1 c h s, takeDelivered 1 s = some (d, s1) → loafCtx s (ctxKey (xGid d.pkt) (xPortion d.pkt)) = some c →
    held s (xGid d.pkt) c.recipeId = some h → mustWait s h c d.pkt = false → relationOf h.closing c (xLoafSeq d.pkt)
    = .abandons → exec (.contributionRx errs) s = .next (startLoaf (ctxKey (xGid d.pkt) (xPortion d.pkt)) h d.pkt
    errs (countKnead c.knead 3 1 s1))) ∧
  -- SLOT_RESULT_WRITTEN
  (∀ gid portion slot s, loafCtx s (ctxKey gid portion) = none → exec (.slotResultWritten gid portion slot) s = .next
    s) ∧
  (∀ gid portion slot c sl h g s, loafCtx s (ctxKey gid portion) = some c → tabGet? c.slots slot = some sl → held s
    gid c.recipeId = some h → group s gid = some g → sl.full = true → (waitingOf s (kneadSource (c.knead /
    8))).isEmpty = true → exec (.slotResultWritten gid portion slot) s = .next (writeResult gid portion slot c sl h g
    s)) ∧
  (∀ gid portion slot c sl h g s, loafCtx s (ctxKey gid portion) = some c → tabGet? c.slots slot = some sl → held s
    gid c.recipeId = some h → group s gid = some g → sl.full = false ∨ (waitingOf s (kneadSource (c.knead /
    8))).isEmpty = false → exec (.slotResultWritten gid portion slot) s = .next s) ∧
  -- GATHER_SEND
  (∀ gid recipe errs h g s, held s gid recipe = some h → group s gid = some g → nextGather (gatherReady s gid recipe
    h.recipe g.members.length) = none → exec (.gatherSend gid recipe errs) s = .next s) ∧
  (∀ gid recipe errs h g x s, held s gid recipe = some h → group s gid = some g → nextGather (gatherReady s gid
    recipe h.recipe g.members.length) = some x → ((waitingOf s computeSource).isEmpty && spillMay s) = true → exec
    (.gatherSend gid recipe errs) s = .next (sendGather gid recipe errs h g x s)) ∧
  (∀ gid recipe errs h g x s, held s gid recipe = some h → group s gid = some g → nextGather (gatherReady s gid
    recipe h.recipe g.members.length) = some x → ((waitingOf s computeSource).isEmpty && spillMay s) = false → exec
    (.gatherSend gid recipe errs) s = .next s) ∧
  -- SPILL_IDLE_TIMEOUT
  (∀ gid portion c h s, loafCtx s (ctxKey gid portion) = some c → c.phase = .running → held s gid c.recipeId = some h
    → 0 < sramNeed h.recipe (groupSize s gid) → exec (.spillIdleTimeout gid portion) s = .next (modCtx (ctxKey gid
    portion) (fun x => { x with spilling := true }) s)) ∧
  (∀ gid portion c s, loafCtx s (ctxKey gid portion) = some c → c.phase ≠ .running → exec (.spillIdleTimeout gid
    portion) s = .next s) ∧
  (∀ gid portion s, loafCtx s (ctxKey gid portion) = none → exec (.spillIdleTimeout gid portion) s = .next s) ∧
  -- SPILL_COMPLETE
  (∀ gid portion c h s, loafCtx s (ctxKey gid portion) = some c → held s gid c.recipeId = some h → c.phase = .running
    → c.spilling = true → spillMay s = true → exec (.spillComplete gid portion) s = .next (countKnead c.knead 8 1
    (modCtx (ctxKey gid portion) (fun x => { x with phase := .spilled, sram := false, spilling := false })
    (writeSpill h (spillOffset s h.recipe portion) (spillImages h.recipe (groupSize s gid) c) s)))) ∧
  (∀ gid portion c s, loafCtx s (ctxKey gid portion) = some c → (c.spilling && spillMay s) = false → exec
    (.spillComplete gid portion) s = .next s) ∧
  (∀ gid portion s, loafCtx s (ctxKey gid portion) = none → exec (.spillComplete gid portion) s = .next s) ∧
  -- SPILL_RESTORE
  (∀ gid portion errs c h s, loafCtx s (ctxKey gid portion) = some c → held s gid c.recipeId = some h → c.sram =
    false → c.phase ≠ .idle → sramRoom s h.recipe c = true → spillMay s = true → exec (.spillRestore gid portion
    errs) s = .next (restoreSlots (ctxKey gid portion) h.recipe h.spill errs s)) ∧
  (∀ gid portion errs c s, loafCtx s (ctxKey gid portion) = some c → c.sram = true ∨ spillMay s = false → exec
    (.spillRestore gid portion errs) s = .next s) ∧
  -- LOAF_STALENESS_EXPIRY
  (∀ gid portion c s, loafCtx s (ctxKey gid portion) = some c → c.phase ≠ .idle → exec (.loafStalenessExpiry gid
    portion) s = .next (abortCtx (ctxKey gid portion) 3 (staleCrumb 0 (ctxKey gid portion) (((group s gid).map
    (·.pid)).getD 0) s))) ∧
  (∀ gid portion c s, loafCtx s (ctxKey gid portion) = some c → c.phase = .idle → exec (.loafStalenessExpiry gid
    portion) s = .next s) ∧
  (∀ gid portion s, loafCtx s (ctxKey gid portion) = none → exec (.loafStalenessExpiry gid portion) s = .next s) ∧
  -- ABORT_RX
  (∀ s, takeDelivered 6 s = none → exec (.abortRx) s = .next s) ∧
  (∀ d s1 s, takeDelivered 6 s = some (d, s1) → abortTargets s1 (xAbortGid d.pkt) (xAbortSeq d.pkt) = [] → exec
    (.abortRx) s = .next (countControl 9 s1)) ∧
  (∀ d s1 e es s, takeDelivered 6 s = some (d, s1) → abortTargets s1 (xAbortGid d.pkt) (xAbortSeq d.pkt) = e :: es →
    exec (.abortRx) s = .next (es.foldl (fun s e => endLoaf e.1 (xCstatus d.pkt % 8) true s) (endLoaf e.1 (xCstatus
    d.pkt % 8) true s1))) ∧
  -- STAGING_SRAM_ERROR
  (∀ unit context s, unit < 64 → exec (.stagingSramError unit context false) s = .next (countKnead unit 7 1 s)) ∧
  (∀ unit context c s, unit < 64 → loafCtx s context = some c → exec (.stagingSramError unit (some context) true) s =
    .next (abortCtx context 7 s)) ∧
  (∀ unit s, unit < 64 → exec (.stagingSramError unit none true) s = .next (count (counterId (0x30 + unit / 8) 2 2) 1
    s)) ∧
  (∀ unit context double s, 64 ≤ unit → exec (.stagingSramError unit context double) s = .fault (.noSuchUnit)) ∧
  -- INJECTION_WRITE
  (∀ source s, 8 ≤ source → source ≤ 17 → injectNext source (refreshPauses source s) = none → exec (.injectionWrite
    source) s = .next (refreshPauses source s)) ∧
  (∀ source t s, 8 ≤ source → source ≤ 17 → injectNext source (refreshPauses source s) = some t → exec
    (.injectionWrite source) s = .next (reportLost source (refreshPauses source s) t)) ∧
  (∀ source s, source < 8 ∨ 17 < source → exec (.injectionWrite source) s = .fault (.noSuchUnit))

/-- Recipe notices between switches: what each event does (R279, R280, R281, R282, R300, R301, R304, R305, R406,
R653). One clause for each form of RESERVE_RX, RESERVATION_EXPIRY, COMMIT_RX, RELEASE_RX, RESERVED_RX, REFUSED_RX,
RESERVE_ANSWER_TIMEOUT, COMMITTED_RX, COMMIT_TIMEOUT, CLOSE_RX, CLOSED_RX, CLOSE_REPEAT_TICK, LOAF_GRACE_EXPIRY: for
every operand and state that meet the clause's conditions, exec answers a next state, and the clause says what that
state is or holds. RESERVE, COMMIT, RELEASE and CLOSE and their answers and timers, at a spine and at the home. -/
def Obligations.NoticeEvents : Prop :=
  -- RESERVE_RX
  (∀ s, takeNotice 0x10 s = none → exec (.reserveRx) s = .next s) ∧
  (∀ k s1 s, takeNotice 0x10 s = some (k, s1) → exec (.reserveRx) s = .next (serveReserve (senderSid k) (noticeOpen
    k) (recipeOf (noticeWords k 0 10)) ((noticeWords k 10 (noticeEntries k)).map (fun w => fld w 31 20)) s1)) ∧
  -- RESERVATION_EXPIRY
  (∀ home opened r s, findReservation s home opened = some r → exec (.reservationExpiry home opened) s = .next
    (raise31 0x0501 [r.recipe.gid, r.recipe.recipeId] (dropReservation home opened s))) ∧
  (∀ home opened s, findReservation s home opened = none → exec (.reservationExpiry home opened) s = .next s) ∧
  -- COMMIT_RX
  (∀ s, takeNotice 0x13 s = none → exec (.commitRx) s = .next s) ∧
  (∀ k s1 s, takeNotice 0x13 s = some (k, s1) → findReservation s1 (senderSid k) (noticeOpen k) = none → exec
    (.commitRx) s = .next (sendNotice (senderSid k) 0x12 (noticeOpen k) (noticeGid k) 0 (noticeRecipe k) 0 [] s1)) ∧
  (∀ k s1 r s, takeNotice 0x13 s = some (k, s1) → findReservation s1 (senderSid k) (noticeOpen k) = some r →
    (commitWords k r).length < r.recipe.parts → ∃ t, exec (.commitRx) s = .next t ∧ t.loaf.reservations =
    s1.loaf.reservations.map (fun x => if x.home = senderSid k ∧ x.openId = noticeOpen k then
    { r with words := commitWords k r } else x) ∧ t.loaf.recipes = s1.loaf.recipes) ∧
  (∀ k s1 r s, takeNotice 0x13 s = some (k, s1) → findReservation s1 (senderSid k) (noticeOpen k) = some r →
    r.recipe.parts ≤ (commitWords k r).length → exec (.commitRx) s = .next (commitRecipe k r s1)) ∧
  -- RELEASE_RX
  (∀ s, takeNotice 0x15 s = none → exec (.releaseRx) s = .next s) ∧
  (∀ k s1 r s, takeNotice 0x15 s = some (k, s1) → findReservation s1 (senderSid k) (noticeOpen k) = some r → exec
    (.releaseRx) s = .next (dropReservation (senderSid k) (noticeOpen k) s1)) ∧
  (∀ k s1 s, takeNotice 0x15 s = some (k, s1) → findReservation s1 (senderSid k) (noticeOpen k) = none → openedHere
    s1 (senderSid k) (noticeOpen k) (noticeGid k) (noticeRecipe k) = true → exec (.releaseRx) s = .next
    (releaseRecipe (noticeGid k) (noticeRecipe k) s1)) ∧
  (∀ k s1 s, takeNotice 0x15 s = some (k, s1) → findReservation s1 (senderSid k) (noticeOpen k) = none → openedHere
    s1 (senderSid k) (noticeOpen k) (noticeGid k) (noticeRecipe k) = false → exec (.releaseRx) s = .next
    (countControl 10 s1)) ∧
  -- RESERVED_RX
  (∀ s, takeNotice 0x11 s = none → exec (.reservedRx) s = .next s) ∧
  (∀ k s1 s, takeNotice 0x11 s = some (k, s1) → tabGet? s1.loaf.opens (noticeOpen k) = none → exec (.reservedRx) s =
    .next (sendNotice (senderSid k) 0x15 (noticeOpen k) (noticeGid k) 0 (noticeRecipe k) 0 [] s1)) ∧
  (∀ k s1 j s, takeNotice 0x11 s = some (k, s1) → tabGet? s1.loaf.opens (noticeOpen k) = some j → j.committing = true
    ∨ j.waiting.contains (senderSid k) = false ∨ j.recipe.recipeId ≠ noticeRecipe k → exec (.reservedRx) s = .next
    (sendNotice (senderSid k) 0x15 (noticeOpen k) (noticeGid k) 0 (noticeRecipe k) 0 [] s1)) ∧
  (∀ k s1 j s, takeNotice 0x11 s = some (k, s1) → tabGet? s1.loaf.opens (noticeOpen k) = some j → j.committing =
    false → j.waiting.contains (senderSid k) = true → j.recipe.recipeId = noticeRecipe k → exec (.reservedRx) s =
    .next (settleRound (noticeOpen k) (modOpen (noticeOpen k) (noteReserved (senderSid k) ((noticeWords k 0
    (noticeEntries k)).map (fun w => (fld w 31 20, fld w 19 14)))) s1))) ∧
  -- REFUSED_RX
  (∀ s, takeNotice 0x12 s = none → exec (.refusedRx) s = .next s) ∧
  (∀ k s1 s, takeNotice 0x12 s = some (k, s1) → tabGet? s1.loaf.opens (noticeOpen k) = none → exec (.refusedRx) s =
    .next (s1)) ∧
  (∀ k s1 j s, takeNotice 0x12 s = some (k, s1) → tabGet? s1.loaf.opens (noticeOpen k) = some j → j.waiting.contains
    (senderSid k) = true → j.recipe.recipeId = noticeRecipe k → j.committing = true → exec (.refusedRx) s = .next
    (failOpen (noticeOpen k) .resource (releaseSpines (noticeOpen k) j.recipe (mapSids j.recipe) s1))) ∧
  (∀ k s1 j s, takeNotice 0x12 s = some (k, s1) → tabGet? s1.loaf.opens (noticeOpen k) = some j → j.waiting.contains
    (senderSid k) = true → j.recipe.recipeId = noticeRecipe k → j.committing = false → exec (.refusedRx) s = .next
    (refuseBy (noticeOpen k) (senderSid k) (noticeCollision k) s1)) ∧
  -- RESERVE_ANSWER_TIMEOUT
  (∀ opened sid j s, tabGet? s.loaf.opens opened = some j → j.committing = false → j.waiting.contains sid = true →
    exec (.reserveAnswerTimeout opened sid) s = .next (refuseBy opened sid false s)) ∧
  (∀ opened sid s, tabGet? s.loaf.opens opened = none → exec (.reserveAnswerTimeout opened sid) s = .next s) ∧
  -- COMMITTED_RX
  (∀ s, takeNotice 0x14 s = none → exec (.committedRx) s = .next s) ∧
  (∀ k s1 j s, takeNotice 0x14 s = some (k, s1) → tabGet? s1.loaf.opens (noticeOpen k) = some j → j.committing =
    false → exec (.committedRx) s = .next (s1)) ∧
  (∀ k s1 j s, takeNotice 0x14 s = some (k, s1) → tabGet? s1.loaf.opens (noticeOpen k) = some j → j.committing = true
    → (j.waiting.filter (· != senderSid k)).isEmpty = false → exec (.committedRx) s = .next (modOpen (noticeOpen k)
    (fun x => { x with waiting := j.waiting.filter (· != senderSid k) }) s1)) ∧
  (∀ k s1 j s, takeNotice 0x14 s = some (k, s1) → tabGet? s1.loaf.opens (noticeOpen k) = some j → j.committing = true
    → (j.waiting.filter (· != senderSid k)).isEmpty = true → exec (.committedRx) s = .next (openComplete (noticeOpen
    k) j s1)) ∧
  -- COMMIT_TIMEOUT
  (∀ opened j s, tabGet? s.loaf.opens opened = some j → j.committing = true → exec (.commitTimeout opened) s = .next
    (failOpen opened .timeout (releaseSpines opened j.recipe (mapSids j.recipe) s))) ∧
  (∀ opened j s, tabGet? s.loaf.opens opened = some j → j.committing = false → exec (.commitTimeout opened) s = .next
    s) ∧
  -- CLOSE_RX
  (∀ s, takeNotice 0x16 s = none → exec (.closeRx) s = .next s) ∧
  (∀ k s1 s, takeNotice 0x16 s = some (k, s1) → held s1 (noticeGid k) (noticeRecipe k) = none → exec (.closeRx) s =
    .next (sendNotice (senderSid k) 0x17 (noticeOpen k) (noticeGid k) 0 (noticeRecipe k) 0 [] s1)) ∧
  (∀ k s1 h s, takeNotice 0x16 s = some (k, s1) → held s1 (noticeGid k) (noticeRecipe k) = some h →
    h.closers.contains (senderSid k, noticeOpen k) = true → exec (.closeRx) s = .next (closeHere (noticeGid k)
    (noticeRecipe k) [] s1)) ∧
  (∀ k s1 h s, takeNotice 0x16 s = some (k, s1) → held s1 (noticeGid k) (noticeRecipe k) = some h →
    h.closers.contains (senderSid k, noticeOpen k) = false → exec (.closeRx) s = .next (closeHere (noticeGid k)
    (noticeRecipe k) [(senderSid k, noticeOpen k)] s1)) ∧
  -- CLOSED_RX
  (∀ s, takeNotice 0x17 s = none → exec (.closedRx) s = .next s) ∧
  (∀ k s1 s, takeNotice 0x17 s = some (k, s1) → exec (.closedRx) s = .next (closedBy (noticeOpen k) (senderSid k)
    s1)) ∧
  -- CLOSE_REPEAT_TICK
  (∀ job s, tabGet? s.loaf.closes job = none → exec (.closeRepeatTick job) s = .next s) ∧
  (∀ job j s, tabGet? s.loaf.closes job = some j → stillOutstanding s j.origin = true → exec (.closeRepeatTick job) s
    = .next (sendCloses job (settleClose job s))) ∧
  (∀ job j s, tabGet? s.loaf.closes job = some j → stillOutstanding s j.origin = false → ∃ t, exec (.closeRepeatTick
    job) s = .next t ∧ t.loaf.closes = tabDel s.loaf.closes job ∧ t.loaf.recipes = s.loaf.recipes) ∧
  -- LOAF_GRACE_EXPIRY
  (∀ gid recipe h s, held s gid recipe = some h → h.closing = true → exec (.loafGraceExpiry (.close gid recipe)) s =
    .next (graceAbort ((recipeContexts s gid recipe).filter (fun e => loafRunning e.2)) s)) ∧
  (∀ gid recipe h s, held s gid recipe = some h → h.closing = false → exec (.loafGraceExpiry (.close gid recipe)) s =
    .next s) ∧
  (∀ mb seq s, s.loaf.kneadJobs.find? (fun j => j.1.mailbox == mb && j.1.seq == seq) = none → exec (.loafGraceExpiry
    (.knead mb seq)) s = .next s) ∧
  (∀ mb seq j s, s.loaf.kneadJobs.find? (fun j => j.1.mailbox == mb && j.1.seq == seq) = some j → exec
    (.loafGraceExpiry (.knead mb seq)) s = .next (expireKnead j s))

/-- The Mill, its tokens and its programs: what each event does (R342, R343, R347, R349, R350, R351, R352, R353,
R355, R356, R357, R359). One clause for each form of DISPATCH_RX, BATCH_WAIT_EXPIRY, MILL_INSTRUCTION_ISSUE,
ROUTER_MMA_DONE, MMA_DONE, MILL_COPY_DONE, PROGRAM_STALENESS_EXPIRY, REPLICA_CHOICE, TOKEN_DISPATCH,
EXPERT_RETURN_RX, TOKEN_STALENESS_EXPIRY, MILL_GRACE_EXPIRY, MILL_SRAM_ERROR, ENDPOINT_DOWN_RX: for every operand and
state that meet the clause's conditions, exec answers a next state, and the clause says what that state is or holds.
Tokens gather, are routed, sent, returned and combined, instructions issue and end, contexts abort. -/
def Obligations.MillEvents : Prop :=
  -- DISPATCH_RX
  (∀ s, takeDelivered 3 s = none → exec (.dispatchRx) s = .next s) ∧
  (∀ d s1 s, takeDelivered 3 s = some (d, s1) → dctx s1 (xContext d.pkt) = none → exec (.dispatchRx) s = .next
    (countMill 6 1 s1)) ∧
  (∀ d s1 x s, takeDelivered 3 s = some (d, s1) → dctx s1 (xContext d.pkt) = some x → dispatchInvalid x d.pkt = true
    → exec (.dispatchRx) s = .next (countMill 6 1 s1)) ∧
  (∀ d s1 x k s, takeDelivered 3 s = some (d, s1) → dctx s1 (xContext d.pkt) = some x → dispatchInvalid x d.pkt =
    false → findToken s1 (xContext d.pkt) (pSrc d.pkt) (xToken d.pkt / 4) = some k → k.phase ≠ .arriving ∨ (tabGet?
    k.parts (xToken d.pkt % 4)).isSome → exec (.dispatchRx) s = .next (countMill 7 1 s1)) ∧
  (∀ d s1 x k s, takeDelivered 3 s = some (d, s1) → dctx s1 (xContext d.pkt) = some x → dispatchInvalid x d.pkt =
    false → findToken s1 (xContext d.pkt) (pSrc d.pkt) (xToken d.pkt / 4) = some k → k.phase = .arriving → (tabGet?
    k.parts (xToken d.pkt % 4)).isSome = false → tokenBuffer x.record < bufferUsed x + pLength d.pkt → exec
    (.dispatchRx) s = .next s) ∧
  (∀ d s1 x k s, takeDelivered 3 s = some (d, s1) → dctx s1 (xContext d.pkt) = some x → dispatchInvalid x d.pkt =
    false → findToken s1 (xContext d.pkt) (pSrc d.pkt) (xToken d.pkt / 4) = some k → k.phase = .arriving → (tabGet?
    k.parts (xToken d.pkt % 4)).isSome = false → bufferUsed x + pLength d.pkt ≤ tokenBuffer x.record → exec
    (.dispatchRx) s = .next (closeFull (xContext d.pkt) (addPart (xContext d.pkt) x.record d.pkt s1))) ∧
  (∀ d s1 x s, takeDelivered 3 s = some (d, s1) → dctx s1 (xContext d.pkt) = some x → dispatchInvalid x d.pkt = false
    → findToken s1 (xContext d.pkt) (pSrc d.pkt) (xToken d.pkt / 4) = none → (s1.start.cfg.millOff ||
    x.draining.isSome) = true → exec (.dispatchRx) s = .next (countMill 9 1 (failureReturn (xContext d.pkt) x.record
    (tokenOf d.pkt) s1))) ∧
  (∀ d s1 x s, takeDelivered 3 s = some (d, s1) → dctx s1 (xContext d.pkt) = some x → dispatchInvalid x d.pkt = false
    → findToken s1 (xContext d.pkt) (pSrc d.pkt) (xToken d.pkt / 4) = none → (s1.start.cfg.millOff ||
    x.draining.isSome) = false → tokenBuffer x.record < bufferUsed x + pLength d.pkt → exec (.dispatchRx) s = .next
    s) ∧
  (∀ d s1 x s, takeDelivered 3 s = some (d, s1) → dctx s1 (xContext d.pkt) = some x → dispatchInvalid x d.pkt = false
    → findToken s1 (xContext d.pkt) (pSrc d.pkt) (xToken d.pkt / 4) = none → (s1.start.cfg.millOff ||
    x.draining.isSome) = false → bufferUsed x + pLength d.pkt ≤ tokenBuffer x.record → exec (.dispatchRx) s = .next
    (closeFull (xContext d.pkt) (addPart (xContext d.pkt) x.record d.pkt s1))) ∧
  -- BATCH_WAIT_EXPIRY
  (∀ context s, context < 128 → exec (.batchWaitExpiry context) s = .next (closeBatch context s)) ∧
  (∀ context s, 128 ≤ context → exec (.batchWaitExpiry context) s = .fault (.noSuchUnit)) ∧
  -- MILL_INSTRUCTION_ISSUE
  (∀ s, s.mill.work.isSome = true ∨ (island s 0x38).dataReset = true → exec (.millInstructionIssue) s = .next s) ∧
  (∀ s, s.mill.work = none → (island s 0x38).dataReset = false → s.mill.batches = [] → nextProgram s = none → exec
    (.millInstructionIssue) s = .next s) ∧
  (∀ slot s, s.mill.work = none → (island s 0x38).dataReset = false → s.mill.batches = [] → nextProgram s = some slot
    → exec (.millInstructionIssue) s = .next (issueInstr slot s)) ∧
  (∀ b bs s, s.mill.work = none → (island s 0x38).dataReset = false → s.mill.batches = b :: bs → nextProgram s = none
    → ∃ t, exec (.millInstructionIssue) s = .next t ∧ t.mill.batches = bs ∧ t.mill.work = some (.batch b) ∧
    t.mill.runLength = s.mill.runLength + 1) ∧
  (∀ b bs slot s, s.mill.work = none → (island s 0x38).dataReset = false → s.mill.batches = b :: bs → nextProgram s =
    some slot → s.mill.runLength < 8 → ∃ t, exec (.millInstructionIssue) s = .next t ∧ t.mill.batches = bs ∧
    t.mill.work = some (.batch b) ∧ t.mill.runLength = s.mill.runLength + 1) ∧
  (∀ b bs slot s, s.mill.work = none → (island s 0x38).dataReset = false → s.mill.batches = b :: bs → nextProgram s =
    some slot → 8 ≤ s.mill.runLength → exec (.millInstructionIssue) s = .next (issueInstr slot s)) ∧
  -- ROUTER_MMA_DONE
  (∀ b x s, s.mill.work = some (.batch b) → dctx s b.context = some x → exec (.routerMmaDone) s = .next (routeBatch b
    x.record (modMill (fun m => { m with work := none }) s))) ∧
  (∀ b s, s.mill.work = some (.batch b) → dctx s b.context = none → exec (.routerMmaDone) s = .next (modMill (fun m
    => { m with work := none }) s)) ∧
  (∀ s, s.mill.work = none → exec (.routerMmaDone) s = .next s) ∧
  -- MMA_DONE
  (∀ slot p s, s.mill.work = some (.instr slot) → millProgram s slot = some p → p.running = true → exec (.mmaDone) s
    = .next (runIssued slot p (p.code.getD (p.pc - 1) []) (modMill (fun m => { m with work := none }) s))) ∧
  (∀ slot p s, s.mill.work = some (.instr slot) → millProgram s slot = some p → p.running = false → exec (.mmaDone) s
    = .next (modMill (fun m => { m with work := none }) s)) ∧
  (∀ slot s, s.mill.work = some (.instr slot) → millProgram s slot = none → exec (.mmaDone) s = .next (modMill (fun m
    => { m with work := none }) s)) ∧
  (∀ s, s.mill.work = none → exec (.mmaDone) s = .next s) ∧
  -- MILL_COPY_DONE
  (∀ slot index errs p i s, slot < 16 → millProgram s slot = some p → p.copies[index]? = some i → mayStart s 8 0 =
    true → exec (.millCopyDone slot index errs) s = .next (finishCopy slot index p i errs s)) ∧
  (∀ slot index errs p i s, slot < 16 → millProgram s slot = some p → p.copies[index]? = some i → mayStart s 8 0 =
    false → exec (.millCopyDone slot index errs) s = .next s) ∧
  (∀ slot index errs p s, slot < 16 → millProgram s slot = some p → p.copies[index]? = none → exec (.millCopyDone
    slot index errs) s = .next s) ∧
  (∀ slot index errs s, slot < 16 → millProgram s slot = none → exec (.millCopyDone slot index errs) s = .next s) ∧
  (∀ slot index errs s, 16 ≤ slot → exec (.millCopyDone slot index errs) s = .fault (.noSuchUnit)) ∧
  -- PROGRAM_STALENESS_EXPIRY
  (∀ slot p s, slot < 16 → millProgram s slot = some p → p.running = true → exec (.programStalenessExpiry slot) s =
    .next (endProgram slot .aborted (staleCrumb 3 slot p.pid s))) ∧
  (∀ slot p s, slot < 16 → millProgram s slot = some p → p.running = false → exec (.programStalenessExpiry slot) s =
    .next s) ∧
  (∀ slot s, slot < 16 → millProgram s slot = none → exec (.programStalenessExpiry slot) s = .next s) ∧
  -- REPLICA_CHOICE
  (∀ context origin ident slot x k sl s, context < 128 → dctx s context = some x → findToken s context origin ident =
    some k → k.slots[slot]? = some sl → k.phase = .routed → sl.replica = none → sl.skipped = false → winnowDown s =
    false → k.claimed = true ∨ claimedTokens x < x.record.inflight → exec (.replicaChoice context origin ident slot)
    s = .next (chooseReplica context origin ident slot x sl s)) ∧
  (∀ context origin ident slot x k sl s, context < 128 → dctx s context = some x → findToken s context origin ident =
    some k → k.slots[slot]? = some sl → k.phase = .routed → sl.replica = none → sl.skipped = false → winnowDown s =
    false → k.claimed = false → x.record.inflight ≤ claimedTokens x → exec (.replicaChoice context origin ident slot)
    s = .next s) ∧
  (∀ context origin ident slot x k sl s, context < 128 → dctx s context = some x → findToken s context origin ident =
    some k → k.slots[slot]? = some sl → k.phase ≠ .routed ∨ sl.replica.isSome = true ∨ sl.skipped = true ∨ winnowDown
    s = true → exec (.replicaChoice context origin ident slot) s = .next s) ∧
  (∀ context origin ident slot x k s, context < 128 → dctx s context = some x → findToken s context origin ident =
    some k → k.slots[slot]? = none → exec (.replicaChoice context origin ident slot) s = .next s) ∧
  -- TOKEN_DISPATCH
  (∀ context origin ident x k s, context < 128 → dctx s context = some x → findToken s context origin ident = some k
    → k.phase = .routed → k.claimed = true → k.slots.all (fun sl => sl.skipped || sl.replica.isSome) = true →
    (waitingOf s computeSource).isEmpty = true → k.slots.all (·.skipped) = true → exec (.tokenDispatch context origin
    ident) s = .next (removeToken context k (sendZeros context x.record k s))) ∧
  (∀ context origin ident x k s, context < 128 → dctx s context = some x → findToken s context origin ident = some k
    → k.phase = .routed → k.claimed = true → k.slots.all (fun sl => sl.skipped || sl.replica.isSome) = true →
    (waitingOf s computeSource).isEmpty = true → k.slots.all (·.skipped) = false → exec (.tokenDispatch context
    origin ident) s = .next (modToken context origin ident (fun y => { y with phase := .dispatched, parts := [] })
    (sendExperts context x.record k s))) ∧
  (∀ context origin ident x k s, context < 128 → dctx s context = some x → findToken s context origin ident = some k
    → k.phase ≠ .routed ∨ k.claimed = false ∨ k.slots.all (fun sl => sl.skipped || sl.replica.isSome) = false ∨
    (waitingOf s computeSource).isEmpty = false → exec (.tokenDispatch context origin ident) s = .next s) ∧
  -- EXPERT_RETURN_RX
  (∀ s, takeDelivered 2 s = none → exec (.expertReturnRx) s = .next s) ∧
  (∀ d s1 s, takeDelivered 2 s = some (d, s1) → dctx s1 (xContext d.pkt) = none → exec (.expertReturnRx) s = .next
    (countMill 3 1 s1)) ∧
  (∀ d s1 x s, takeDelivered 2 s = some (d, s1) → dctx s1 (xContext d.pkt) = some x → x.tokens.filter (fun t =>
    t.phase == .dispatched && t.ident == xToken d.pkt / 4) = [] → exec (.expertReturnRx) s = .next (countMill 3 1
    s1)) ∧
  (∀ d s1 x k ks s, takeDelivered 2 s = some (d, s1) → dctx s1 (xContext d.pkt) = some x → x.tokens.filter (fun t =>
    t.phase == .dispatched && t.ident == xToken d.pkt / 4) = k :: ks → (k :: ks).find? (fun t => returnMatches t
    d.pkt) = none → exec (.expertReturnRx) s = .next (countMill 4 1 s1)) ∧
  (∀ d s1 x k sl s, takeDelivered 2 s = some (d, s1) → dctx s1 (xContext d.pkt) = some x → (x.tokens.filter (fun t =>
    t.phase == .dispatched && t.ident == xToken d.pkt / 4)).find? (fun t => returnMatches t d.pkt) = some k → xToken
    d.pkt % 4 < partsOf x.record.d x.record.retFmt → pLength d.pkt = partLen x.record.d x.record.retFmt (xToken d.pkt
    % 4) → k.slots[xSlot d.pkt]? = some sl → (tabGet? sl.returned (xToken d.pkt % 4)).isSome = true → exec
    (.expertReturnRx) s = .next (countMill 5 1 s1)) ∧
  (∀ d s1 x k sl s, takeDelivered 2 s = some (d, s1) → dctx s1 (xContext d.pkt) = some x → (x.tokens.filter (fun t =>
    t.phase == .dispatched && t.ident == xToken d.pkt / 4)).find? (fun t => returnMatches t d.pkt) = some k → xToken
    d.pkt % 4 < partsOf x.record.d x.record.retFmt → pLength d.pkt = partLen x.record.d x.record.retFmt (xToken d.pkt
    % 4) → k.slots[xSlot d.pkt]? = some sl → (tabGet? sl.returned (xToken d.pkt % 4)).isSome = false → exec
    (.expertReturnRx) s = .next (tryCombine (xContext d.pkt) k.origin k.ident (xToken d.pkt % 4) (holdReturn
    (xContext d.pkt) x.record k sl d.pkt s1))) ∧
  -- TOKEN_STALENESS_EXPIRY
  (∀ context origin ident x k s, context < 128 → dctx s context = some x → findToken s context origin ident = some k
    → exec (.tokenStalenessExpiry context origin ident) s = .next (failToken context origin ident (countMill 1 1
    (staleCrumb 4 (context * 2 ^ 32 + ident * 4) x.record.pid s)))) ∧
  (∀ context origin ident s, context < 128 → dctx s context = none → exec (.tokenStalenessExpiry context origin
    ident) s = .next s) ∧
  (∀ context origin ident s, 128 ≤ context → exec (.tokenStalenessExpiry context origin ident) s = .fault
    (.noSuchUnit)) ∧
  -- MILL_GRACE_EXPIRY
  (∀ c x d s, dctx s c = some x → x.draining = some d → exec (.millGraceExpiry (some c)) s = .next (finish d.1
    .aborted [] (modDctx c (fun x => { x with record := d.2 }) (graceTokens c (modDctx c (fun x =>
    { x with draining := none }) s))))) ∧
  (∀ c x s, dctx s c = some x → x.draining = none → exec (.millGraceExpiry (some c)) s = .next s) ∧
  (∀ s, s.mill.disabling = [] → exec (.millGraceExpiry none) s = .next s) ∧
  (∀ s, s.mill.disabling.isEmpty = false → exec (.millGraceExpiry none) s = .next (graceMill s)) ∧
  -- MILL_SRAM_ERROR
  (∀ hit s, exec (.millSramError hit false) s = .next (countMill 10 1 s)) ∧
  (∀ s, exec (.millSramError (.nothing) true) s = .next (countMill 11 1 s)) ∧
  (∀ n s, exec (.millSramError (.weightSet n) true) s = .next (strikeWeights n (countMill 11 1 s))) ∧
  (∀ slot s, exec (.millSramError (.program slot) true) s = .next (endProgram slot .aborted (countMill 11 1 s))) ∧
  (∀ c i x k s, dctx (countMill 11 1 s) c = some x → x.tokens[i]? = some k → exec (.millSramError (.token c i) true)
    s = .next (failToken c k.origin k.ident (countMill 11 1 s))) ∧
  (∀ c i s, dctx (countMill 11 1 s) c = none → exec (.millSramError (.token c i) true) s = .next (countMill 11 1 s))
    ∧
  -- ENDPOINT_DOWN_RX
  (∀ s, takeNotice 1 s = none → exec (.endpointDownRx) s = .next s) ∧
  (∀ k s1 s, takeNotice 1 s = some (k, s1) → exec (.endpointDownRx) s = .next (endpointDownMill (noticeGid k)
    (abortGroupsOf (noticeGid k) s1)))

/-- Granary, mirrors and channels: what each event does (R362, R363, R364, R371, R372, R382, R384, R389, R390, R391,
R393, R415). One clause for each form of GRANARY_ACCESS_RX, GRANARY_WRITE_DONE, GRANARY_READ_DONE,
EXTENT_RETIRE_DONE, SCRUB_LINE, REGION_ZEROED, MIRROR_READBACK_DONE, MIRROR_ASK_RX, MIRROR_GRANT_RX, MIRROR_DENY_RX,
MIRROR_ASK_TIMEOUT, DMA_DESCRIPTOR_START, DMA_WRITE_RESPONSE, REPLY_RX, DMA_REQUEST_TIMEOUT, DMA_NO_BUFFER_RETRY,
DMA_DESCRIPTOR_STALENESS, DMA_GRACE_EXPIRY: for every operand and state that meet the clause's conditions, exec
answers a next state, and the clause says what that state is or holds. Requests are answered, lines scrubbed and
retired, regions zeroed, mirrors granted and checked, descriptors carried out. -/
def Obligations.GranaryEvents : Prop :=
  -- GRANARY_ACCESS_RX
  (∀ s, nextAccess s [] (consumerQueue s 4) = none → exec (.granaryAccessRx) s = .next s) ∧
  (∀ i d s, nextAccess s [] (consumerQueue s 4) = some i → (consumerQueue s 4)[i]? = some d → xGop d.pkt < 0x80 →
    exec (.granaryAccessRx) s = .next (serveAccess d.pkt (filterGranary d.pkt (releaseDelivered d (modBuf (fun b =>
    { b with consumers := tabSet (fun _ => []) b.consumers 4 ((consumerQueue s 4).eraseIdx i) }) s))))) ∧
  (∀ i d s, nextAccess s [] (consumerQueue s 4) = some i → (consumerQueue s 4)[i]? = some d → 0x80 ≤ xGop d.pkt →
    exec (.granaryAccessRx) s = .next (releaseDelivered d (modBuf (fun b =>
    { b with consumers := tabSet (fun _ => []) b.consumers 4 ((consumerQueue s 4).eraseIdx i) }) s))) ∧
  -- GRANARY_WRITE_DONE
  (∀ index a s, s.gran.writes[index]? = some a → exec (.granaryWriteDone index) s = .next (respond a.pkt .ok []
    (modGran (fun g => { g with writes := g.writes.eraseIdx index }) s))) ∧
  (∀ index s, s.gran.writes[index]? = none → exec (.granaryWriteDone index) s = .next s) ∧
  -- GRANARY_READ_DONE
  (∀ index errors a s, s.gran.reads[index]? = some a → exec (.granaryReadDone index errors) s = .next (answerRead a
    errors (modGran (fun g => { g with reads := g.reads.eraseIdx index }) s))) ∧
  (∀ index errors s, s.gran.reads[index]? = none → exec (.granaryReadDone index errors) s = .next s) ∧
  -- EXTENT_RETIRE_DONE
  (∀ region stack extent s, stack < 16 → (region, stack, extent) ∈ s.gran.retiring → mayStart s 4 0 = true → exec
    (.extentRetireDone region stack extent) s = .next (countStack stack 4 1 (startWork 4 0 (2 * extentBytes) (modGran
    (fun g =>
    { g with
      retiring := g.retiring.erase (region, stack, extent),
      spares := tabMod sparesReset (· - 1) g.spares stack }) s)))) ∧
  (∀ region stack extent s, stack < 16 → mayStart s 4 0 = false → exec (.extentRetireDone region stack extent) s =
    .next s) ∧
  (∀ region stack extent s, 16 ≤ stack → exec (.extentRetireDone region stack extent) s = .fault (.noSuchUnit)) ∧
  -- SCRUB_LINE
  (∀ s, mayStart s 7 0 = true → exec (.scrubLine none) s = .next (startWork 7 0 64 (countStack (s.gran.scrub /
    stackLines % 16) 5 1 (modGran (fun g => { g with scrub := (g.scrub + 1) % (16 * stackLines) }) s)))) ∧
  (∀ r e s, mayStart s 7 0 = true → exec (.scrubLine (some (r, e))) s = .next (meetErrors r (64 * e.line) 64 [e]
    (startWork 7 0 64 (countStack (s.gran.scrub / stackLines % 16) 5 1 (modGran (fun g =>
    { g with scrub := (g.scrub + 1) % (16 * stackLines) }) s))))) ∧
  (∀ error s, mayStart s 7 0 = false → exec (.scrubLine error) s = .next s) ∧
  -- REGION_ZEROED
  (∀ region x s, Machine.region s region = some x → x.phase = .zeroing → mayStart s 4 0 = true → exec (.regionZeroed
    region) s = .next (modRegion region (fun y => { y with phase := .ready }) (startWork 4 0 (regionSize x)
    (zeroRegion region s)))) ∧
  (∀ region x s, Machine.region s region = some x → x.phase = .freeing → mayStart s 4 0 = true → exec (.regionZeroed
    region) s = .next (modGran (fun g => { g with regions := tabDel g.regions region }) (startWork 4 0 (regionSize x)
    (zeroRegion region s)))) ∧
  (∀ region x s, Machine.region s region = some x → x.phase ≠ .zeroing → x.phase ≠ .freeing → exec (.regionZeroed
    region) s = .next s) ∧
  (∀ region s, Machine.region s region = none → exec (.regionZeroed region) s = .next s) ∧
  -- MIRROR_READBACK_DONE
  (∀ remote s, s.gran.commits = [] → exec (.mirrorReadbackDone remote) s = .next s) ∧
  (∀ remote c cs s, s.gran.commits = c :: cs → tabGet? s.gran.mirrors c.key = none → exec (.mirrorReadbackDone
    remote) s = .next (finish c.origin .invalid [] (modGran (fun g => { g with commits := cs }) s))) ∧
  (∀ remote c cs m s, s.gran.commits = c :: cs → tabGet? s.gran.mirrors c.key = some m → some m.sid ≠ ownSid s ∨
    mayStart s 0 0 = true → exec (.mirrorReadbackDone remote) s = .next (checkMirror c m remote (modGran (fun g =>
    { g with commits := cs }) s))) ∧
  (∀ remote c cs m s, s.gran.commits = c :: cs → tabGet? s.gran.mirrors c.key = some m → some m.sid = ownSid s →
    mayStart s 0 0 = false → exec (.mirrorReadbackDone remote) s = .next s) ∧
  -- MIRROR_ASK_RX
  (∀ s, takeFirmware 2 s = none → exec (.mirrorAskRx) s = .next s) ∧
  (∀ k s1 s, takeFirmware 2 s = some (k, s1) → mirrorRefused k s1 = true → exec (.mirrorAskRx) s = .next (answerAsk k
    4 0 s1)) ∧
  (∀ k s1 s, takeFirmware 2 s = some (k, s1) → mirrorRefused k s1 = false → exec (.mirrorAskRx) s = .next
    (grantMirror k (fld (payloadWord k 2) 11 0) (ceilDiv (mirrorSize k) extentBytes) (freeRegionId s1 1 0xDFFF) s1))
    ∧
  -- MIRROR_GRANT_RX
  (∀ s, takeFirmware 3 s = none → exec (.mirrorGrantRx) s = .next s) ∧
  (∀ k s1 s, takeFirmware 3 s = some (k, s1) → askOf k s1 = none → exec (.mirrorGrantRx) s = .next (s1)) ∧
  (∀ k s1 id a s, takeFirmware 3 s = some (k, s1) → askOf k s1 = some (id, a) → stillOutstanding (modGran (fun g =>
    { g with asks := tabDel g.asks id }) s1) a.origin = true → exec (.mirrorGrantRx) s = .next (mirrorGranted a (fld
    (payloadWord k 5) 31 16) (modGran (fun g => { g with asks := tabDel g.asks id }) s1))) ∧
  (∀ k s1 id a s, takeFirmware 3 s = some (k, s1) → askOf k s1 = some (id, a) → stillOutstanding (modGran (fun g =>
    { g with asks := tabDel g.asks id }) s1) a.origin = false → exec (.mirrorGrantRx) s = .next (modGran (fun g =>
    { g with asks := tabDel g.asks id }) s1)) ∧
  -- MIRROR_DENY_RX
  (∀ s, takeFirmware 4 s = none → exec (.mirrorDenyRx) s = .next s) ∧
  (∀ k s1 s, takeFirmware 4 s = some (k, s1) → askOf k s1 = none → exec (.mirrorDenyRx) s = .next (s1)) ∧
  (∀ k s1 id a s, takeFirmware 4 s = some (k, s1) → askOf k s1 = some (id, a) → exec (.mirrorDenyRx) s = .next
    (askNext id s1)) ∧
  -- MIRROR_ASK_TIMEOUT
  (∀ ask s, exec (.mirrorAskTimeout ask) s = .next (askNext ask s)) ∧
  -- DMA_DESCRIPTOR_START
  (∀ channel s, channel < 32 → mayTake s channel = true → exec (.dmaDescriptorStart channel) s = .next
    (takeDescriptor channel (Machine.channel s channel) (nextDescriptor s (Machine.channel s channel)) s)) ∧
  (∀ channel s, channel < 32 → mayTake s channel = false → exec (.dmaDescriptorStart channel) s = .next s) ∧
  (∀ channel s, 32 ≤ channel → exec (.dmaDescriptorStart channel) s = .fault (.noSuchUnit)) ∧
  -- DMA_WRITE_RESPONSE
  (∀ channel index errors s, channel < 32 → (Machine.channel s channel).flight.find? (fun f => f.index == index &&
    f.status.isNone) = none → exec (.dmaWriteResponse channel index errors) s = .next s) ∧
  (∀ channel index errors f s, channel < 32 → (Machine.channel s channel).flight.find? (fun f => f.index == index &&
    f.status.isNone) = some f → f.desc.op ≠ 2 → f.desc.op ≠ 3 → channelMay s channel = true → exec (.dmaWriteResponse
    channel index errors) s = .next (nextBurst channel f errors s)) ∧
  (∀ channel index errors f s, channel < 32 → (Machine.channel s channel).flight.find? (fun f => f.index == index &&
    f.status.isNone) = some f → f.desc.op ≠ 2 → f.desc.op ≠ 3 → channelMay s channel = false → exec
    (.dmaWriteResponse channel index errors) s = .next s) ∧
  (∀ channel index errors f s, channel < 32 → (Machine.channel s channel).flight.find? (fun f => f.index == index &&
    f.status.isNone) = some f → f.desc.op = 2 → exec (.dmaWriteResponse channel index errors) s = .next s) ∧
  (∀ channel index errors f i is s, channel < 32 → (Machine.channel s channel).flight.find? (fun f => f.index ==
    index && f.status.isNone) = some f → f.desc.op = 3 → f.unwritten = i :: is → exec (.dmaWriteResponse channel
    index errors) s = .next (settleRequests channel index (channelSpend channel ((tabGet? f.pieces i).getD []).length
    (modFlight channel index (fun x => { x with unwritten := is }) (writeBytes (refRegion f.desc.target) (refOffset
    f.desc.target + (pieceAt f.desc i).1) ((tabGet? f.pieces i).getD []) s))))) ∧
  -- REPLY_RX
  (∀ s, takeDelivered 5 s = none → exec (.replyRx) s = .next s) ∧
  (∀ d s1 s, takeDelivered 5 s = some (d, s1) → requestOf (channel s1 (xTag d.pkt / 2 ^ 19)) (xTag d.pkt % 2 ^ 19) =
    none → exec (.replyRx) s = .next (countChannel (xTag d.pkt / 2 ^ 19) 5 1 s1)) ∧
  (∀ d s1 f r s, takeDelivered 5 s = some (d, s1) → requestOf (channel s1 (xTag d.pkt / 2 ^ 19)) (xTag d.pkt % 2 ^
    19) = some (f, r) → xReplyStatus d.pkt = 0 → exec (.replyRx) s = .next (settleRequests (xTag d.pkt / 2 ^ 19)
    f.index (takeReply (xTag d.pkt / 2 ^ 19) f r d.pkt s1))) ∧
  (∀ d s1 f r s, takeDelivered 5 s = some (d, s1) → requestOf (channel s1 (xTag d.pkt / 2 ^ 19)) (xTag d.pkt % 2 ^
    19) = some (f, r) → xReplyStatus d.pkt = 1 → exec (.replyRx) s = .next (completeDesc (xTag d.pkt / 2 ^ 19)
    f.index .denied s1)) ∧
  (∀ d s1 f r s, takeDelivered 5 s = some (d, s1) → requestOf (channel s1 (xTag d.pkt / 2 ^ 19)) (xTag d.pkt % 2 ^
    19) = some (f, r) → xReplyStatus d.pkt = 2 → exec (.replyRx) s = .next (completeDesc (xTag d.pkt / 2 ^ 19)
    f.index .unsupported s1)) ∧
  (∀ d s1 f r s, takeDelivered 5 s = some (d, s1) → requestOf (channel s1 (xTag d.pkt / 2 ^ 19)) (xTag d.pkt % 2 ^
    19) = some (f, r) → xReplyStatus d.pkt = 3 → exec (.replyRx) s = .next (markRequest (xTag d.pkt / 2 ^ 19) f r
    (fun x => { x with refused := true }) s1)) ∧
  (∀ d s1 f r s, takeDelivered 5 s = some (d, s1) → requestOf (channel s1 (xTag d.pkt / 2 ^ 19)) (xTag d.pkt % 2 ^
    19) = some (f, r) → xReplyStatus d.pkt = 4 → exec (.replyRx) s = .next (completeDesc (xTag d.pkt / 2 ^ 19)
    f.index .invalid s1)) ∧
  -- DMA_REQUEST_TIMEOUT
  (∀ channel index number s, channel < 32 → exec (.dmaRequestTimeout channel index number) s = .next (onRequest
    channel index number false s)) ∧
  (∀ channel index number s, 32 ≤ channel → exec (.dmaRequestTimeout channel index number) s = .fault (.noSuchUnit))
    ∧
  -- DMA_NO_BUFFER_RETRY
  (∀ channel index number s, channel < 32 → exec (.dmaNoBufferRetry channel index number) s = .next (onRequest
    channel index number true s)) ∧
  -- DMA_DESCRIPTOR_STALENESS
  (∀ channel index s, channel < 32 → (Machine.channel s channel).flight.any (fun f => f.index == index &&
    f.status.isNone) = true → exec (.dmaDescriptorStaleness channel index) s = .next (completeDesc channel index
    .timeout (modChannel channel (fun x => { x with phase := if x.phase = .running then .error else x.phase })
    (staleCrumb 2 (channel * 2 ^ 17 + index) (Machine.channel s channel).cfg.pid s)))) ∧
  (∀ channel index s, channel < 32 → (Machine.channel s channel).flight.any (fun f => f.index == index &&
    f.status.isNone) = false → exec (.dmaDescriptorStaleness channel index) s = .next s) ∧
  -- DMA_GRACE_EXPIRY
  (∀ channel s, channel < 32 → exec (.dmaGraceExpiry channel) s = .next (graceChannel channel s))

/-- Grist programs: what each event does (R377, R378, R379, R380, R437, R444, R446). One clause for each form of
GRIST_CHUNK_STAGE, GRIST_LAUNCH, GRIST_DONE, GRIST_STALENESS_EXPIRY: for every operand and state that meet the
clause's conditions, exec answers a next state, and the clause says what that state is or holds. Chunks are staged
and launched, and a program ends. -/
def Obligations.GristEvents : Prop :=
  -- GRIST_CHUNK_STAGE
  (∀ slot errors g e s, slot < 64 → grist s slot = some g → g.entries[g.next]? = some e → mayStage s g e = true →
    exec (.gristChunkStage slot errors) s = .next (stageChunk slot g e errors s)) ∧
  (∀ slot errors g e s, slot < 64 → grist s slot = some g → g.entries[g.next]? = some e → mayStage s g e = false →
    exec (.gristChunkStage slot errors) s = .next s) ∧
  (∀ slot errors g s, slot < 64 → grist s slot = some g → g.entries[g.next]? = none → exec (.gristChunkStage slot
    errors) s = .next s) ∧
  (∀ slot errors s, slot < 64 → grist s slot = none → exec (.gristChunkStage slot errors) s = .next s) ∧
  (∀ slot errors s, 64 ≤ slot → exec (.gristChunkStage slot errors) s = .fault (.noSuchUnit)) ∧
  -- GRIST_LAUNCH
  (∀ slot g c cs e s, slot < 64 → grist s slot = some g → g.staged = c :: cs → g.entries[c.entry]? = some e → g.phase
    = .running → launchDev s e ≤ s.clk.dev → exec (.gristLaunch slot) s = .next (releaseChunk slot g c (decide
    (c.inPool < c.packets.length)) false s)) ∧
  (∀ slot g c cs e s, slot < 64 → grist s slot = some g → g.staged = c :: cs → g.entries[c.entry]? = some e →
    s.clk.dev < launchDev s e → exec (.gristLaunch slot) s = .next s) ∧
  (∀ slot g s, slot < 64 → grist s slot = some g → g.staged = [] → exec (.gristLaunch slot) s = .next s) ∧
  -- GRIST_DONE
  (∀ slot g s, slot < 64 → grist s slot = some g → g.phase = .running → g.next = g.entries.length → g.staged = [] →
    gristPending s g = false → exec (.gristDone slot) s = .next (raiseOwner [] 0x0702 g.params.pid [slot] (modGrist
    slot (fun x => { x with phase := .done }) s))) ∧
  (∀ slot g s, slot < 64 → grist s slot = some g → gristPending s g = true → exec (.gristDone slot) s = .next s) ∧
  -- GRIST_STALENESS_EXPIRY
  (∀ slot g s, slot < 64 → grist s slot = some g → g.phase = .running → exec (.gristStalenessExpiry slot) s = .next
    (abortGrist slot (staleCrumb 1 slot g.params.pid s))) ∧
  (∀ slot g s, slot < 64 → grist s slot = some g → g.phase ≠ .running → exec (.gristStalenessExpiry slot) s = .next
    s)

/-- Firmware's packets and Winnow: what each event does (R35, R160, R231, R300, R402, R410, R417, R418, R505, R652).
One clause for each form of SPINE_REQUEST_RX, SPINE_PACKET_DISCARD, FIRMWARE_CONTROL_RX, FW_OUTBOUND_DRAIN,
WINNOW_WEIGHT_TICK, CRUST_WINDOW_END, SUMMARY_TICK, SUMMARY_RX: for every operand and state that meet the clause's
conditions, exec answers a next state, and the clause says what that state is or holds. Packets to the spine are
answered or discarded, firmware sends what it holds, and Winnow weighs, forms change sets and sends summaries. -/
def Obligations.FirmwareEvents : Prop :=
  -- SPINE_REQUEST_RX
  (∀ s, takeDelivered 8 s = none → exec (.spineRequestRx) s = .next s) ∧
  (∀ d s1 s, takeDelivered 8 s = some (d, s1) → exec (.spineRequestRx) s = .next (startWork 4 3 (Config.fwCost 4)
    (originate controlSource (unsupportedReply s1 d.pkt) s1))) ∧
  -- SPINE_PACKET_DISCARD
  (∀ s, takeDelivered 9 s = none → exec (.spinePacketDiscard) s = .next s) ∧
  (∀ d s1 s, takeDelivered 9 s = some (d, s1) → exec (.spinePacketDiscard) s = .next (countControl 8 (startWork 4 3
    (Config.fwCost 4) s1))) ∧
  -- FIRMWARE_CONTROL_RX
  (∀ s, takeDelivered 7 s = none → exec (.firmwareControlRx) s = .next s) ∧
  (∀ d s1 s, takeDelivered 7 s = some (d, s1) → 8192 ≤ s1.buf.fwIn.length → exec (.firmwareControlRx) s = .next
    (countControl 6 s1)) ∧
  (∀ d s1 s, takeDelivered 7 s = some (d, s1) → s1.buf.fwIn.length < 8192 → xCtype d.pkt = 3 → knownNotice
    (noticeType d.pkt) = false → exec (.firmwareControlRx) s = .next (countControl 10 s1)) ∧
  (∀ d s1 s, takeDelivered 7 s = some (d, s1) → s1.buf.fwIn.length < 8192 → xCtype d.pkt = 4 → knownFirmware
    (firmwareType d.pkt) = false → exec (.firmwareControlRx) s = .next (countWinnow 2 s1)) ∧
  (∀ d s1 s, takeDelivered 7 s = some (d, s1) → s1.buf.fwIn.length < 8192 → xCtype d.pkt = 3 → knownNotice
    (noticeType d.pkt) = true → exec (.firmwareControlRx) s = .next (modBuf (fun b =>
    { b with fwIn := b.fwIn ++ [d.pkt] }) s1)) ∧
  (∀ d s1 s, takeDelivered 7 s = some (d, s1) → s1.buf.fwIn.length < 8192 → xCtype d.pkt = 4 → knownFirmware
    (firmwareType d.pkt) = true → exec (.firmwareControlRx) s = .next (modBuf (fun b =>
    { b with fwIn := b.fwIn ++ [d.pkt] }) s1)) ∧
  -- FW_OUTBOUND_DRAIN
  (∀ s, s.buf.fwOut = [] → exec (.fwOutboundDrain) s = .next s) ∧
  (∀ k ks s, s.buf.fwOut = k :: ks → (waitingOf s controlSource).isEmpty = true → controlRoom s k = true → exec
    (.fwOutboundDrain) s = .next (originate controlSource k (modBuf (fun b => { b with fwOut := ks }) s))) ∧
  (∀ k ks s, s.buf.fwOut = k :: ks → (waitingOf s controlSource).isEmpty = false ∨ controlRoom s k = false → exec
    (.fwOutboundDrain) s = .next s) ∧
  -- WINNOW_WEIGHT_TICK
  (∀ s, winnowDown s = true → exec (.winnowWeightTick) s = .next s) ∧
  (∀ s, winnowDown s = false → exec (.winnowWeightTick) s = .next (weighAll s)) ∧
  -- CRUST_WINDOW_END
  (∀ s, winnowDown s = true → ∃ t, exec (.crustWindowEnd) s = .next t ∧ t.winnow.traffic = [] ∧ t.opt = s.opt ∧
    t.winnow.lowWindows = s.winnow.lowWindows) ∧
  (∀ s, winnowDown s = false → exec (.crustWindowEnd) s = .next (modWinnow (fun w => { w with traffic := [] })
    (formAll s))) ∧
  -- SUMMARY_TICK
  (∀ load s, exec (.summaryTick load) s = .next ((partners (loseMirrors (modWinnow (fun w =>
    { w with load := Nat.min 255 load }) s))).foldl (fun u x => sendFirmware x (summaryWords (ownSummary (loseMirrors
    (modWinnow (fun w => { w with load := Nat.min 255 load }) s)))) u) (loseMirrors (modWinnow (fun w =>
    { w with load := Nat.min 255 load }) s)))) ∧
  -- SUMMARY_RX
  (∀ s, takeFirmware 1 s = none → exec (.summaryRx) s = .next s) ∧
  (∀ k s1 s, takeFirmware 1 s = some (k, s1) → ∃ t, exec (.summaryRx) s = .next t ∧ t.winnow.summaries = tabPut
    s1.winnow.summaries (senderSid k) ⟨fld (payloadWord k 1) 31 16, fld (payloadWord k 1) 15 0, fld (payloadWord k 2)
    31 12, fld (payloadWord k 3) 31 24, nowRef s1⟩ ∧ t.winnow.policies = s1.winnow.policies)

/-- Fabric time: what each event does (R431, R432, R433, R434, R435, R437, R440, R441, R442, R443). One clause for
each form of TIME_MSG_TICK, TIME_MSG_RX, PARENT_LOST_TIMEOUT, GM_SEQ_STALL, ACQUIRING_TIMEOUT,
ACCEPT_STEP_SAMPLE_TIMEOUT, PPS_IN_EDGE, PPS_OUT_SECOND, PTP_MESSAGE_RX, TIE_SOURCE_TIMEOUT: for every operand and
state that meet the clause's conditions, exec answers a next state, and the clause says what that state is or holds.
Time messages are sent, heard and judged, states of Table 13.3 change, PPS edges and PTP messages act. -/
def Obligations.TimeEvents : Prop :=
  -- TIME_MSG_TICK
  (∀ s, s.time.phase = .master → exec (.timeMsgTick) s = .next ((allPorts s).foldl sendTime (modTime (fun t =>
    { t with gmSeq := (t.gmSeq + 1) % 2 ^ 32 }) s))) ∧
  (∀ s, s.time.phase ≠ .master → exec (.timeMsgTick) s = .next ((allPorts s).foldl sendTime s)) ∧
  -- TIME_MSG_RX
  (∀ port pkt arrival s, portKnown s port = true → (Machine.port s port).phase ≠ .up ∨ pKind pkt ≠ 9 ∨ xTtType pkt ≠
    1 → exec (.timeMsgRx port pkt arrival) s = .next s) ∧
  (∀ port pkt arrival s, portKnown s port = true → (Machine.port s port).phase = .up → pKind pkt = 9 → xTtType pkt =
    1 → (heardTime port pkt arrival s).time.parent ≠ some port → exec (.timeMsgRx port pkt arrival) s = .next
    (heardTime port pkt arrival s)) ∧
  (∀ port pkt arrival off s, portKnown s port = true → (Machine.port s port).phase = .up → pKind pkt = 9 → xTtType
    pkt = 1 → (heardTime port pkt arrival s).time.parent = some port → sampleOf (heardTime port pkt arrival s) port
    pkt arrival = some off → exec (.timeMsgRx port pkt arrival) s = .next (takeSample off (heardTime port pkt arrival
    s))) ∧
  (∀ port pkt arrival s, portKnown s port = true → (Machine.port s port).phase = .up → pKind pkt = 9 → xTtType pkt =
    1 → (heardTime port pkt arrival s).time.parent = some port → sampleOf (heardTime port pkt arrival s) port pkt
    arrival = none → exec (.timeMsgRx port pkt arrival) s = .next (copyGm (countPort port 13 1 (heardTime port pkt
    arrival s)))) ∧
  (∀ port pkt arrival s, portKnown s port = false → exec (.timeMsgRx port pkt arrival) s = .fault (.noSuchUnit)) ∧
  -- PARENT_LOST_TIMEOUT
  (∀ p s, s.time.parent = some p → exec (.parentLostTimeout) s = .next (modPeer p (fun c =>
    { c with silent := true }) s)) ∧
  (∀ s, s.time.parent = none → exec (.parentLostTimeout) s = .next s) ∧
  -- GM_SEQ_STALL
  (∀ port s, portKnown s port = true → exec (.gmSeqStall port) s = .next (modPeer port (fun c =>
    { c with stalled := true }) s)) ∧
  (∀ port s, portKnown s port = false → exec (.gmSeqStall port) s = .fault (.noSuchUnit)) ∧
  -- ACQUIRING_TIMEOUT
  (∀ s, s.time.phase = .acquiring → exec (.acquiringTimeout) s = .next (setTimePhase .unset (modTime (fun t =>
    { t with parent := none, samples := [] }) s))) ∧
  (∀ s, s.time.phase ≠ .acquiring → exec (.acquiringTimeout) s = .next s) ∧
  -- ACCEPT_STEP_SAMPLE_TIMEOUT
  (∀ a s, s.time.accept = some a → exec (.acceptStepSampleTimeout) s = .next (finish a.origin .notReady [] (modTime
    (fun t => { t with accept := none }) s))) ∧
  (∀ s, s.time.accept = none → exec (.acceptStepSampleTimeout) s = .next s) ∧
  -- PPS_IN_EDGE
  (∀ w s, s.time.tie = some w → w.source = 1 → s.time.phase = .unset → exec (.ppsInEdge) s = .next (finish w.origin
    .ok [] (tieTo (w.seconds * 1000000000 * 65536) s))) ∧
  (∀ w s, s.time.tie = some w → w.source = 1 → s.time.phase ≠ .unset → exec (.ppsInEdge) s = .next (finish w.origin
    .conflict [] (modTime (fun t => { t with tie := none }) s))) ∧
  (∀ w s, s.time.tie = some w → w.source ≠ 1 → exec (.ppsInEdge) s = .next s) ∧
  (∀ s, s.time.tie = none → s.time.phase = .master → s.time.discipline = true → beyond (ppsOffset s) (threshUnits s)
    = true → exec (.ppsInEdge) s = .next (refuseJump (ppsOffset s) (modTime (fun t =>
    { t with lastOff := ppsOffset s }) s))) ∧
  (∀ s, s.time.tie = none → s.time.phase = .master → s.time.discipline = true → beyond (ppsOffset s) (threshUnits s)
    = false → exec (.ppsInEdge) s = .next (slew (ppsOffset s) 1000000000 (modTime (fun t =>
    { t with lastOff := ppsOffset s }) s))) ∧
  (∀ s, s.time.tie = none → s.time.discipline = false → exec (.ppsInEdge) s = .next s) ∧
  (∀ s, s.time.tie = none → s.time.phase ≠ .master → exec (.ppsInEdge) s = .next s) ∧
  -- PPS_OUT_SECOND
  (∀ s, s.time.phase = .master ∨ s.time.phase = .locked ∨ s.time.phase = .holdover → s.time.ppsHigh = false → ∃ t,
    exec (.ppsOutSecond true) s = .next t ∧ t.time.ppsHigh = true ∧ t.out = s.out ++ [.pps true]) ∧
  (∀ s, s.time.phase = .unset ∨ s.time.phase = .acquiring → s.time.ppsHigh = false → exec (.ppsOutSecond true) s =
    .next s) ∧
  (∀ s, s.time.ppsHigh = true → ∃ t, exec (.ppsOutSecond false) s = .next t ∧ t.time.ppsHigh = false ∧ t.out = s.out
    ++ [.pps false]) ∧
  (∀ s, s.time.ppsHigh = false → exec (.ppsOutSecond false) s = .next s) ∧
  -- PTP_MESSAGE_RX
  (∀ mport domain off w s, mport < 4 → s.time.tie = some w → w.source = 0 → w.domain = domain → w.offsets.length < 15
    → exec (.ptpMessageRx mport domain (some off)) s = .next (modTime (fun t =>
    { t with tie := some { w with offsets := w.offsets ++ [off] } }) (countMgmt mport 0 s))) ∧
  (∀ mport domain off w s, mport < 4 → s.time.tie = some w → w.source = 0 → w.domain = domain → 15 ≤ w.offsets.length
    → s.time.phase = .unset → exec (.ptpMessageRx mport domain (some off)) s = .next (finish w.origin .ok [] (tieTo
    ((s.clk.dev : Int) - medianInt (w.offsets ++ [off])).toNat (countMgmt mport 0 s)))) ∧
  (∀ mport domain off w s, mport < 4 → s.time.tie = some w → w.source = 0 → w.domain = domain → 15 ≤ w.offsets.length
    → s.time.phase ≠ .unset → exec (.ptpMessageRx mport domain (some off)) s = .next (finish w.origin .conflict []
    (modTime (fun t => { t with tie := none }) (countMgmt mport 0 s)))) ∧
  (∀ mport domain exchange s, mport < 8 → s.time.tie = none → exec (.ptpMessageRx mport domain exchange) s = .next
    (countMgmt mport 2 (countMgmt mport 0 s))) ∧
  (∀ mport domain exchange w s, mport < 8 → s.time.tie = some w → w.source ≠ 0 ∨ w.domain ≠ domain → exec
    (.ptpMessageRx mport domain exchange) s = .next (countMgmt mport 2 (countMgmt mport 0 s))) ∧
  (∀ mport domain exchange s, 8 ≤ mport → exec (.ptpMessageRx mport domain exchange) s = .fault (.noSuchUnit)) ∧
  -- TIE_SOURCE_TIMEOUT
  (∀ w s, s.time.tie = some w → w.source = 0 → exec (.tieSourceTimeout) s = .next (finish w.origin .notReady []
    (modTime (fun t => { t with tie := none }) s))) ∧
  (∀ w s, s.time.tie = some w → w.source ≠ 0 → exec (.tieSourceTimeout) s = .next (finish w.origin .timeout []
    (modTime (fun t => { t with tie := none }) s))) ∧
  (∀ s, s.time.tie = none → exec (.tieSourceTimeout) s = .next s)

/-- Crumbs, samples, snapshots and the neighbour report: what each event does (R190, R455, R599, R601, R602, R603,
R605). One clause for each form of NEIGHBOUR_CHANGE_HOLDOFF_END, SAMPLE_READY_HOLDOFF_END, CRUMB_WRITE, SAMPLE_WRITE,
SNAPSHOT_LATCH: for every operand and state that meet the clause's conditions, exec answers a next state, and the
clause says what that state is or holds. Records are written to the crumb region, reports and snapshots taken. -/
def Obligations.TelemetryEvents : Prop :=
  -- NEIGHBOUR_CHANGE_HOLDOFF_END
  (∀ s, s.fab.holdoff = false → exec (.neighbourChangeHoldoffEnd) s = .next s) ∧
  (∀ s, s.fab.holdoff = true → s.fab.generation = s.fab.told → exec (.neighbourChangeHoldoffEnd) s = .next
    ({ s with fab := { s.fab with holdoff := false } })) ∧
  (∀ s, s.fab.holdoff = true → s.fab.generation ≠ s.fab.told → exec (.neighbourChangeHoldoffEnd) s = .next (raise31
    0x0206 [s.fab.generation] { s with fab := { s.fab with told := s.fab.generation } })) ∧
  -- SAMPLE_READY_HOLDOFF_END
  (∀ s, s.tele.sampleHoldoff = false → exec (.sampleReadyHoldoffEnd) s = .next s) ∧
  (∀ s, s.tele.sampleHoldoff = true → s.tele.sampleNew = true → exec (.sampleReadyHoldoffEnd) s = .next (tellSamples
    (modTele (fun t => { t with sampleHoldoff := false }) s))) ∧
  (∀ s, s.tele.sampleHoldoff = true → s.tele.sampleNew = false → exec (.sampleReadyHoldoffEnd) s = .next (modTele
    (fun t => { t with sampleHoldoff := false }) s)) ∧
  -- CRUMB_WRITE
  (∀ s, s.tele.crumbQueue = [] → exec (.crumbWrite) s = .next s) ∧
  (∀ c cs s, s.tele.crumbQueue = c :: cs → mayStart s 5 0 = true → exec (.crumbWrite) s = .next (countControl 0
    (modTele (fun t => { t with crumbQueue := cs, crumbLost := false }) (putCrumb c s)))) ∧
  (∀ c cs s, s.tele.crumbQueue = c :: cs → mayStart s 5 0 = false → exec (.crumbWrite) s = .next s) ∧
  -- SAMPLE_WRITE
  (∀ s, s.tele.sampleQueue = [] → exec (.sampleWrite) s = .next s) ∧
  (∀ r rs s, s.tele.sampleQueue = r :: rs → mayStart (modTele (fun t => { t with sampleQueue := rs }) s) 5 0 = true →
    exec (.sampleWrite) s = .next (tellSamples (countControl 2 (putSample r (modTele (fun t =>
    { t with sampleQueue := rs }) s))))) ∧
  (∀ r rs s, s.tele.sampleQueue = r :: rs → mayStart (modTele (fun t => { t with sampleQueue := rs }) s) 5 0 = false
    → exec (.sampleWrite) s = .next (countControl 3 (modTele (fun t => { t with sampleQueue := rs }) s))) ∧
  -- SNAPSHOT_LATCH
  (∀ mailbox seq s, s.tele.snapshots.find? (fun x => x.origin.mailbox == mailbox && x.origin.seq == seq) = none →
    exec (.snapshotLatch mailbox seq) s = .next s) ∧
  (∀ mailbox seq x s, s.tele.snapshots.find? (fun x => x.origin.mailbox == mailbox && x.origin.seq == seq) = some x →
    exec (.snapshotLatch mailbox seq) s = .next (finish x.origin .ok (natWords 3 x.at96 ++ counterValues s x.ids)
    (modTele (fun t => { t with snapshots := t.snapshots.filter (fun y => !(y.origin == x.origin)) }) s)))

/-- Sessions, peels, events and the management ports: what each event does (R478, R479, R480, R481, R483, R484, R488,
R489, R493, R498, R500, R503). One clause for each form of DTLS_HANDSHAKE, SESSION_IDLE_TIMEOUT, PACKET_TOO_BIG_RX,
COMMAND_PEEL_RX, SEGMENT_TIMEOUT, COMMAND_STEP_DISPATCH, COMMAND_DEADLINE_EXPIRY, STEP_OVERRUN, EVENT_ACK_RX,
EVENT_SEND, EVENT_RESEND_TIMEOUT, LLDP_TICK, LLDP_RX, NEIGHBOR_DISCOVERY_RX, ICMP_ECHO_RX, MGMT_PORT_LINK_CHANGE: for
every operand and state that meet the clause's conditions, exec answers a next state, and the clause says what that
state is or holds. Sessions open and close, peels become commands, commands step and expire, events are sent and
acknowledged, the management ports answer. -/
def Obligations.ManagementEvents : Prop :=
  -- DTLS_HANDSHAKE
  (∀ mport cert ok ownerRoot s, mport < 8 → ((mgmtPort s mport).up && listening s) = false → exec (.dtlsHandshake
    mport cert ok ownerRoot) s = .next s) ∧
  (∀ mport cert ok ownerRoot s, mport < 8 → (mgmtPort s mport).up = true → listening s = true → (classOf s (networkOf
    mport) cert ownerRoot).filter (fun _ => ok && decide (sessionsOn s (networkOf mport) < 32)) = none → exec
    (.dtlsHandshake mport cert ok ownerRoot) s = .next (countMgmt mport 3 (countMgmt mport 0 s))) ∧
  (∀ mport cert ownerRoot c s, mport < 8 → (mgmtPort s mport).up = true → listening s = true → classOf s (networkOf
    mport) cert ownerRoot = some c → sessionsOn s (networkOf mport) < 32 → exec (.dtlsHandshake mport cert true
    ownerRoot) s = .next (modMgmt (fun m =>
    { m with
      sessions := tabPut m.sessions m.nextSession ⟨networkOf mport, c, cert, mport, (netConfig s (networkOf
        mport)).2.2⟩,
      nextSession := m.nextSession + 1 }) (countMgmt mport 0 s))) ∧
  (∀ mport cert ok ownerRoot s, 8 ≤ mport → exec (.dtlsHandshake mport cert ok ownerRoot) s = .fault (.noSuchUnit)) ∧
  -- SESSION_IDLE_TIMEOUT
  (∀ session s, exec (.sessionIdleTimeout session) s = .next (closeSession session s)) ∧
  -- PACKET_TOO_BIG_RX
  (∀ session mtu s, ∃ t, exec (.packetTooBigRx session mtu) s = .next t ∧ t.mgmt.sessions = tabMap (fun k x => if k =
    session then { x with datagram := Nat.max 1280 (Nat.min x.datagram mtu) } else x) s.mgmt.sessions ∧
    t.mgmt.mailboxes = s.mgmt.mailboxes) ∧
  -- COMMAND_PEEL_RX
  (∀ session mport peel form s, mport < 8 → datagramArrives session mport s = none → exec (.commandPeelRx session
    mport peel form) s = .next s) ∧
  (∀ session mport peel form x s1 s, mport < 8 → datagramArrives session mport s = some (x, s1) → lVer peel ≠ 1 ∨
    lType peel ≠ 0 → exec (.commandPeelRx session mport peel form) s = .next (discardPeel mport s1)) ∧
  (∀ session mport peel form x s1 s, mport < 8 → datagramArrives session mport s = some (x, s1) → lVer peel = 1 →
    lType peel = 0 → lMajor peel = 1 → mailboxOpen (peelOrigin x peel) s1 = false → exec (.commandPeelRx session
    mport peel form) s = .next (receiveCommand ⟨session, mport, x.datagram⟩ x peel [] form s1)) ∧
  (∀ session mport peel form x s1 s, mport < 8 → datagramArrives session mport s = some (x, s1) → lVer peel = 1 →
    lType peel = 0 → lMajor peel ≠ 1 ∨ mailboxOpen (peelOrigin x peel) s1 = true → exec (.commandPeelRx session mport
    peel form) s = .next (assemble ⟨session, mport, x.datagram⟩ x peel form s1)) ∧
  -- SEGMENT_TIMEOUT
  (∀ mailbox session seq s, (Machine.mailbox s mailbox).assembling.any (fun a => a.session == session && a.seq ==
    seq) = true → exec (.segmentTimeout mailbox session seq) s = .next (countMailbox mailbox 4 (dropMessage mailbox
    session seq s))) ∧
  (∀ mailbox session seq s, (Machine.mailbox s mailbox).assembling.any (fun a => a.session == session && a.seq ==
    seq) = false → exec (.segmentTimeout mailbox session seq) s = .next s) ∧
  -- COMMAND_STEP_DISPATCH
  (∀ s, exec (.commandStepDispatch) s = .next (dispatchStep s)) ∧
  -- COMMAND_DEADLINE_EXPIRY
  (∀ mailbox seq s, (Machine.mailbox s mailbox).outstanding.any (fun c => c.seq == seq && decide (c.received <
    c.deadline)) = true → exec (.commandDeadlineExpiry mailbox seq) s = .next (expireCommand mailbox seq s)) ∧
  (∀ mailbox seq s, (Machine.mailbox s mailbox).outstanding.any (fun c => c.seq == seq && decide (c.received <
    c.deadline)) = false → exec (.commandDeadlineExpiry mailbox seq) s = .next s) ∧
  -- STEP_OVERRUN
  (∀ typ idx mailbox seq r s, engineKnown s typ idx = true → (Machine.mailbox s mailbox).kept.find? (fun r => r.seq
    == seq && r.status == statusCode .timeout) = some r → exec (.stepOverrun typ idx mailbox seq) s = .next (escalate
    2 (engineScope typ idx) 0x0003 [5, mailbox * 2 ^ 26 + r.opcode] s)) ∧
  (∀ typ idx mailbox seq s, engineKnown s typ idx = true → (Machine.mailbox s mailbox).kept.find? (fun r => r.seq ==
    seq && r.status == statusCode .timeout) = none → exec (.stepOverrun typ idx mailbox seq) s = .next s) ∧
  -- EVENT_ACK_RX
  (∀ session mport peel s, mport < 8 → datagramArrives session mport s = none → exec (.eventAckRx session mport peel)
    s = .next s) ∧
  (∀ session mport peel x s1 s, mport < 8 → datagramArrives session mport s = some (x, s1) → lVer peel ≠ 1 ∨ lType
    peel ≠ 3 ∨ mailboxOpen (peelOrigin x peel) s1 = false → exec (.eventAckRx session mport peel) s = .next
    (discardPeel mport s1)) ∧
  (∀ session mport peel x s1 s, mport < 8 → datagramArrives session mport s = some (x, s1) → lVer peel = 1 → lType
    peel = 3 → mailboxOpen (peelOrigin x peel) s1 = true → ackedRecords (eventQueue s1 (lMailbox peel)) (lSeq peel) =
    none → exec (.eventAckRx session mport peel) s = .next (discardPeel mport s1)) ∧
  (∀ session mport peel x s1 n s, mport < 8 → datagramArrives session mport s = some (x, s1) → lVer peel = 1 → lType
    peel = 3 → mailboxOpen (peelOrigin x peel) s1 = true → ackedRecords (eventQueue s1 (lMailbox peel)) (lSeq peel) =
    some n → exec (.eventAckRx session mport peel) s = .next (bindMailbox (lMailbox peel) session (modEventQueue
    (lMailbox peel) (fun q => { q with queue := q.queue.drop n, inFlight := q.inFlight - n, sent := q.sent - n })
    s1))) ∧
  -- EVENT_SEND
  (∀ mailbox s, exec (.eventSend mailbox) s = .next (sendEvents mailbox s)) ∧
  -- EVENT_RESEND_TIMEOUT
  (∀ mailbox s, (eventQueue s mailbox).inFlight = 0 → exec (.eventResendTimeout mailbox) s = .next s) ∧
  (∀ mailbox s, (eventQueue s mailbox).inFlight ≠ 0 → exec (.eventResendTimeout mailbox) s = .next (sendEvents
    mailbox (modEventQueue mailbox (fun q => { q with inFlight := 0 }) s))) ∧
  -- LLDP_TICK
  (∀ mport s, mport < 8 → exec (.lldpTick mport) s = .next (sendFrame mport (lldpFrame s mport) s)) ∧
  -- LLDP_RX
  (∀ mport frame s, mport < 8 → (mgmtPort s mport).up = true → exec (.lldpRx mport frame) s = .next (countMgmt mport
    0 (modMgmt (fun m => { m with ports := tabMod mgmtPortReset (fun p => { p with lldp := frame }) m.ports mport })
    s))) ∧
  (∀ mport frame s, mport < 8 → (mgmtPort s mport).up = false → exec (.lldpRx mport frame) s = .next s) ∧
  -- NEIGHBOR_DISCOVERY_RX
  (∀ mport srcMac src target s, mport < 8 → (mgmtPort s mport).up = true → ownAddress s mport target = true → exec
    (.neighborDiscoveryRx mport true srcMac src target) s = .next (sendFrame mport (advertisement mport srcMac src
    target) (countMgmt mport 0 s))) ∧
  (∀ mport solicit srcMac src target s, mport < 8 → (mgmtPort s mport).up = true → (solicit && ownAddress s mport
    target) = false → exec (.neighborDiscoveryRx mport solicit srcMac src target) s = .next (countMgmt mport 0 s)) ∧
  (∀ mport solicit srcMac src target s, mport < 8 → (mgmtPort s mport).up = false → exec (.neighborDiscoveryRx mport
    solicit srcMac src target) s = .next s) ∧
  -- ICMP_ECHO_RX
  (∀ mport srcMac src dst ident seqNo data s, mport < 8 → (mgmtPort s mport).up = true → ownAddress s mport dst =
    true → exec (.icmpEchoRx mport srcMac src dst ident seqNo data) s = .next (sendFrame mport (icmpFrame srcMac
    (Config.factoryMac mport) src dst 129 0 (natBytes 2 ident ++ natBytes 2 seqNo ++ data)) (countMgmt mport 0 s))) ∧
  (∀ mport srcMac src dst ident seqNo data s, mport < 8 → (mgmtPort s mport).up = true → ownAddress s mport dst =
    false → exec (.icmpEchoRx mport srcMac src dst ident seqNo data) s = .next (countMgmt mport 0 s)) ∧
  (∀ mport srcMac src dst ident seqNo data s, mport < 8 → (mgmtPort s mport).up = false → exec (.icmpEchoRx mport
    srcMac src dst ident seqNo data) s = .next s) ∧
  -- MGMT_PORT_LINK_CHANGE
  (∀ mport up s, mport < 8 → exec (.mgmtPortLinkChange mport up) s = .next (flushAll (modMgmt (fun m =>
    { m with ports := tabMod mgmtPortReset (fun p => { p with up := up && portServed s mport }) m.ports mport }) s)))
    ∧
  (∀ mport up s, 8 ≤ mport → exec (.mgmtPortLinkChange mport up) s = .fault (.noSuchUnit))

/-- Resets, overruns, watchdogs and expiries: what each event does (R550, R551, R552, R553, R554, R555, R561, R575,
R586, R588, R589). One clause for each form of ENGINE_RESET, SCOPE_RESET, L1_OVERRUN, L2_OVERRUN, L3_OVERRUN,
DUMP_TIMEOUT, WATCHDOG_EXPIRY, PROTECTED_SRAM_ERROR, SESSION_KEY_EXPIRY, DEBUG_LOCK_RETURN, PROPOSAL_EXPIRY: for
every operand and state that meet the clause's conditions, exec answers a next state, and the clause says what that
state is or holds. Engines and scopes are reset, overruns escalate, watchdogs, keys, locks and proposals expire. -/
def Obligations.ResetEvents : Prop :=
  -- ENGINE_RESET
  (∀ typ idx trains s, engineKnown s typ idx = true → exec (.engineReset typ idx trains) s = .next (resetEngine typ
    idx trains s)) ∧
  (∀ typ idx trains s, engineKnown s typ idx = false → exec (.engineReset typ idx trains) s = .fault (.noSuchUnit)) ∧
  -- SCOPE_RESET
  (∀ isl trains s, islandKnown isl = true → exec (.scopeReset isl trains) s = .next (resetScope isl trains s)) ∧
  (∀ isl trains s, islandKnown isl = false → exec (.scopeReset isl trains) s = .fault (.noSuchUnit)) ∧
  -- L1_OVERRUN
  (∀ typ idx objType ident s, engineKnown s typ idx = true → exec (.l1Overrun typ idx objType ident) s = .next
    (escalate 2 (engineScope typ idx) 0x0003 [objType, ident] s)) ∧
  -- L2_OVERRUN
  (∀ typ idx s, engineKnown s typ idx = true → askedFor s 2 (engineScope typ idx) = none → exec (.l2Overrun typ idx)
    s = .next s) ∧
  (∀ typ idx e s, engineKnown s typ idx = true → askedFor s 2 (engineScope typ idx) = some e → exec (.l2Overrun typ
    idx) s = .next (escalateIsland (engineIsland typ idx) 0x0008 [e.trigger] (dropAsked e s))) ∧
  -- L3_OVERRUN
  (∀ isl s, islandKnown isl = true → askedFor s 3 (islandScope (l3Home isl)) = none → exec (.l3Overrun isl) s = .next
    s) ∧
  (∀ isl e s, islandKnown isl = true → askedFor s 3 (islandScope (l3Home isl)) = some e → exec (.l3Overrun isl) s =
    .next (escalate 4 0 0x0008 [e.trigger] (dropAsked e s))) ∧
  -- DUMP_TIMEOUT
  (∀ s, s.rst.asked.find? (fun e => !e.active) = none → exec (.dumpTimeout) s = .next s) ∧
  (∀ e s, s.rst.asked.find? (fun e => !e.active) = some e → exec (.dumpTimeout) s = .next (modStart (fun st =>
    { st with dumpValid := false }) (modRst (fun r =>
    { r with asked := r.asked.map (fun x => if x = e then { x with active := true } else x) }) s))) ∧
  -- WATCHDOG_EXPIRY
  (∀ core s, core < 4 → s.start.phase = .running → exec (.watchdogExpiry core) s = .next (modRst (fun r =>
    { r with
      asked := r.asked.map (fun x => if x.level = 4 ∧ x.trigger = 0x0009 then { x with active := true } else x) })
    (escalate 4 0 0x0009 [core] (writeDump true 4 0x0009 0 [core] s)))) ∧
  (∀ core s, core < 4 → s.start.phase ≠ .running → exec (.watchdogExpiry core) s = .next s) ∧
  (∀ core s, 4 ≤ core → exec (.watchdogExpiry core) s = .fault (.noSuchUnit)) ∧
  -- PROTECTED_SRAM_ERROR
  (∀ s, s.start.phase = .running → exec (.protectedSramError) s = .next (escalate 4 0 0x000A [] s)) ∧
  (∀ s, s.start.phase ≠ .running → exec (.protectedSramError) s = .next s) ∧
  -- SESSION_KEY_EXPIRY
  (∀ session s, ∃ t, exec (.sessionKeyExpiry session) s = .next t ∧ t.sec.sessions = tabDel s.sec.sessions session ∧
    t.sec.proposals = s.sec.proposals ∧ t.sec.unlocked = s.sec.unlocked) ∧
  -- DEBUG_LOCK_RETURN
  (∀ s, ∃ t, exec (.debugLockReturn) s = .next t ∧ t.sec.unlocked = 0 ∧ t.sec.sessions = s.sec.sessions) ∧
  -- PROPOSAL_EXPIRY
  (∀ proposal p s, tabGet? s.sec.proposals proposal = some p → p.state = .pending → exec (.proposalExpiry proposal) s
    = .next (endProposal proposal .expired 0 s)) ∧
  (∀ proposal p s, tabGet? s.sec.proposals proposal = some p → p.state ≠ .pending → exec (.proposalExpiry proposal) s
    = .next s) ∧
  (∀ proposal s, tabGet? s.sec.proposals proposal = none → exec (.proposalExpiry proposal) s = .next s)
end

