-- ==== Sys2Proof/Laws/Commands.lean ====
section
/-! SUPPORT. How a command of the contract that may run is answered: one lemma for each way its own rules end. -/

set_option Elab.async false

namespace Sys2Proof.Machine

theorem runCommand_begins {o : Origin} {op : Nat} {body : State → CmdOutcome} {s b : State}
    (h : beginsAt o op s = some b) : runCommand o op body s = commitCommand o op body b := by
  unfold beginsAt at h
  unfold runCommand
  split at h
  · simp at h
  rename_i hl
  have h1 : listening s = true := by cases hh : listening s <;> simp_all
  have h2 : mailboxOpen o s = true := by cases hh : mailboxOpen o s <;> simp_all
  simp only [h1, h2, Bool.not_true, Bool.false_eq_true, if_false]
  split at h
  · split at h
    · rename_i c hc hcond
      simp only [hc, hcond, and_self, if_true]
      injection h with h; rw [h]
    · simp at h
  · rename_i hn
    try simp only [hn]
    split at h
    · simp at h
    · rename_i hk
      have hkk : keptOf s o = none := by cases hh : keptOf s o <;> simp_all
      have hs : seqNew (mailbox s o.mailbox) o.seq = true := by
        cases hh : seqNew (mailbox s o.mailbox) o.seq <;> simp_all
      simp only [hkk, hs, Bool.not_true, Bool.false_eq_true, if_false]
      split at h
      · simp at h
      · rename_i ha
        have : admitCheck o op (filterCommand o op s) = none := by
          cases hh : admitCheck o op (filterCommand o op s) <;> simp_all
        simp only [this]
        injection h with h; rw [h]

theorem run_done {o : Origin} {op : Nat} {body : State → CmdOutcome} {s b u : State} {st : Status} {ws : List Word}
    (h : beginsAt o op s = some b) (hb : body b = .done st ws u) (hs : (st == .ok || st == .quorumPending) = true) :
    (.next (runCommand o op body s) : Host.Outcome State Fault Refusal) = .next (answer o op st ws u) := by
  rw [runCommand_begins h]
  unfold commitCommand
  rw [hb]
  cases st <;> simp_all

theorem run_fail {o : Origin} {op : Nat} {body : State → CmdOutcome} {s b : State} {st : Status} {ws : List Word}
    (h : beginsAt o op s = some b) (hb : body b = .done st ws b) :
    (.next (runCommand o op body s) : Host.Outcome State Fault Refusal) = .next (answer o op st ws b) := by
  rw [runCommand_begins h]
  unfold commitCommand
  rw [hb]
  simp

/-- A command that may leave effects behind whatever its status. -/
theorem run_status {o : Origin} {op : Nat} {body : State → CmdOutcome} {s b u : State} {st : Status} {ws : List Word}
    (h : beginsAt o op s = some b) (hb : body b = .done st ws u) (hn : ((cmdInfo op).map (·.atomic)) = some false) :
    (.next (runCommand o op body s) : Host.Outcome State Fault Refusal) = .next (answer o op st ws u) := by
  rw [runCommand_begins h]
  unfold commitCommand
  rw [hb]
  simp [hn]

theorem run_fails {o : Origin} {op : Nat} {body : State → CmdOutcome} {s b u : State} {st : Status}
    (h : beginsAt o op s = some b) (hb : body b = .fails st u) :
    (.next (runCommand o op body s) : Host.Outcome State Fault Refusal) = .next (answer o op st [] u) := by
  rw [runCommand_begins h, commitCommand, hb]

theorem run_later {o : Origin} {op : Nat} {body : State → CmdOutcome} {s b u : State}
    (h : beginsAt o op s = some b) (hb : body b = .later u) :
    (.next (runCommand o op body s) : Host.Outcome State Fault Refusal) = .next (accept o op none true u) := by
  rw [runCommand_begins h, commitCommand, hb]

theorem run_soon {o : Origin} {op : Nat} {body : State → CmdOutcome} {s b u : State}
    (h : beginsAt o op s = some b) (hb : body b = .soon u) :
    (.next (runCommand o op body s) : Host.Outcome State Fault Refusal) = .next (accept o op none false u) := by
  rw [runCommand_begins h, commitCommand, hb]

theorem run_grace {o : Origin} {op g : Nat} {body : State → CmdOutcome} {s b u : State}
    (h : beginsAt o op s = some b) (hb : body b = .laterGrace g u) :
    (.next (runCommand o op body s) : Host.Outcome State Fault Refusal) =
      .next (accept o op (some g) true u) := by
  rw [runCommand_begins h, commitCommand, hb]
end Sys2Proof.Machine
end

