-- ==== Sys2Proof/Laws/Frame.lean ====
section
/-! SUPPORT. Frames: how `OnlyChanges` composes, and one lemma for the record updates of the state. -/

set_option Elab.async false

namespace Sys2Proof.Machine

theorem OnlyChanges.refl (ps : List Part) (s : State) : OnlyChanges ps s s := by
  intro p _; cases p <;> simp [Part.same]

theorem OnlyChanges.trans {ps : List Part} {s t u : State} (h : OnlyChanges ps s t) (k : OnlyChanges ps t u) :
    OnlyChanges ps s u := by
  intro p hp
  have a := h p hp
  have b := k p hp
  cases p <;> simp_all [Part.same]

theorem OnlyChanges.mono {ps qs : List Part} {s t : State} (h : OnlyChanges ps s t) (hq : ps.all qs.contains = true) :
    OnlyChanges qs s t := by
  intro p hp
  apply h p
  intro hm
  exact hp (by simpa using List.all_eq_true.1 hq p hm)

/-- One step of a chain, with the same parts. -/
theorem OnlyChanges.before {qs : List Part} {s x y : State} (hg : OnlyChanges qs x y) (h : OnlyChanges qs s x) :
    OnlyChanges qs s y := h.trans hg

/-- One step of a chain: an operation with its own frame is applied last. -/
theorem OnlyChanges.after {ps qs : List Part} {s x y : State} (hg : OnlyChanges ps x y)
    (hq : ps.all qs.contains = true) (h : OnlyChanges qs s x) : OnlyChanges qs s y :=
  h.trans (hg.mono hq)

/-- The power field differs only in listed parts. -/
@[reducible] def KeptPower (qs : List Part) (a b : PowerState) : Prop :=
  (qs.contains .alert = true ∨ b.alert = a.alert) ∧ (qs.contains .supply = true ∨ b.vinOn = a.vinOn ∧ b.rails =
    a.rails ∧ b.pwrOk = a.pwrOk ∧ b.latched = a.latched ∧ b.thermTrip = a.thermTrip ∧ b.cycleReq = a.cycleReq ∧
    b.statusOnly = a.statusOnly ∧ b.modRst = a.modRst ∧ b.refclk = a.refclk ∧ b.bootMode = a.bootMode ∧ b.modSlot =
    a.modSlot) ∧ (qs.contains .readings = true ∨ b.telemetry = a.telemetry ∧ b.coolantDelta = a.coolantDelta) ∧
    (qs.contains .throttle = true ∨ b.capUnattainable = a.capUnattainable ∧ b.depth = a.depth ∧ b.underRun =
    a.underRun ∧ b.fullRun = a.fullRun ∧ b.capEventRaised = a.capEventRaised) ∧ (qs.contains .powerCap = true ∨ b.cap
    = a.cap)

theorem KeptPower.lit {qs : List Part} {a : PowerState} {yvinOn : Bool} {yrails : Bool} {ypwrOk : Bool} {ylatched :
    Bool} {ythermTrip : Bool} {ycycleReq : Bool} {ystatusOnly : Bool} {yalert : Bool} {ymodRst : Bool} {yrefclk :
    Bool} {ybootMode : Nat} {ymodSlot : Nat} {ytelemetry : Telemetry} {ycapUnattainable : Bool} {ycoolantDelta :
    Bool} {ydepth : List Nat} {yunderRun : Nat} {yfullRun : Nat} {ycapEventRaised : Bool} {ycap : Nat} (h0 :
    qs.contains .alert = true ∨ yalert = a.alert) (h1 : qs.contains .supply = true ∨ yvinOn = a.vinOn ∧ yrails =
    a.rails ∧ ypwrOk = a.pwrOk ∧ ylatched = a.latched ∧ ythermTrip = a.thermTrip ∧ ycycleReq = a.cycleReq ∧
    ystatusOnly = a.statusOnly ∧ ymodRst = a.modRst ∧ yrefclk = a.refclk ∧ ybootMode = a.bootMode ∧ ymodSlot =
    a.modSlot) (h2 : qs.contains .readings = true ∨ ytelemetry = a.telemetry ∧ ycoolantDelta = a.coolantDelta) (h3
    : qs.contains .throttle = true ∨ ycapUnattainable = a.capUnattainable ∧ ydepth = a.depth ∧ yunderRun =
    a.underRun ∧ yfullRun = a.fullRun ∧ ycapEventRaised = a.capEventRaised) (h4 : qs.contains .powerCap = true ∨
    ycap = a.cap) : KeptPower qs a ⟨yvinOn, yrails, ypwrOk, ylatched, ythermTrip, ycycleReq, ystatusOnly, yalert,
    ymodRst, yrefclk, ybootMode, ymodSlot, ytelemetry, ycapUnattainable, ycoolantDelta, ydepth, yunderRun,
    yfullRun, ycapEventRaised, ycap⟩ := ⟨h0, h1, h2, h3, h4⟩

theorem KeptPower.refl (qs : List Part) (a : PowerState) : KeptPower qs a a := by
  simp [KeptPower]

/-- The start field differs only in listed parts. -/
@[reducible] def KeptStart (qs : List Part) (a b : StartState) : Prop :=
  (qs.contains .startPhase = true ∨ b.phase = a.phase ∧ b.step = a.step ∧ b.stacksTrained = a.stacksTrained ∧
    b.pendingReset = a.pendingReset ∧ b.resident = a.resident ∧ b.measurement = a.measurement) ∧ (qs.contains
    .lastLevel = true ∨ b.lastLevel = a.lastLevel) ∧ (qs.contains .dumpValid = true ∨ b.dumpValid = a.dumpValid) ∧
    (qs.contains .flash = true ∨ b.cfg = a.cfg ∧ b.copyA = a.copyA ∧ b.copyB = a.copyB ∧ b.flashImage = a.flashImage
    ∧ b.flashWrite = a.flashWrite) ∧ (qs.contains .recoveryLog = true ∨ b.recoveryLog = a.recoveryLog) ∧ (qs.contains
    .staging = true ∨ b.staging = a.staging)

theorem KeptStart.lit {qs : List Part} {a : StartState} {yphase : Phase} {ystep : Nat} {ylastLevel : Nat}
    {ydumpValid : Bool} {ycfg : ConfigStore} {ycopyA : StoreCopy} {ycopyB : StoreCopy} {yflashImage : Option Image}
    {yflashWrite : Option FlashWrite} {yresident : Option Image} {ymeasurement : Nat} {ystacksTrained : Bool}
    {yrecoveryLog : List CrumbRec} {ystaging : Tab Byte} {ypendingReset : Option LastReset} (h0 : qs.contains
    .startPhase = true ∨ yphase = a.phase ∧ ystep = a.step ∧ ystacksTrained = a.stacksTrained ∧ ypendingReset =
    a.pendingReset ∧ yresident = a.resident ∧ ymeasurement = a.measurement) (h1 : qs.contains .lastLevel = true ∨
    ylastLevel = a.lastLevel) (h2 : qs.contains .dumpValid = true ∨ ydumpValid = a.dumpValid) (h3 : qs.contains
    .flash = true ∨ ycfg = a.cfg ∧ ycopyA = a.copyA ∧ ycopyB = a.copyB ∧ yflashImage = a.flashImage ∧ yflashWrite =
    a.flashWrite) (h4 : qs.contains .recoveryLog = true ∨ yrecoveryLog = a.recoveryLog) (h5 : qs.contains .staging
    = true ∨ ystaging = a.staging) : KeptStart qs a ⟨yphase, ystep, ylastLevel, ydumpValid, ycfg, ycopyA, ycopyB,
    yflashImage, yflashWrite, yresident, ymeasurement, ystacksTrained, yrecoveryLog, ystaging, ypendingReset⟩ :=
    ⟨h0, h1, h2, h3, h4, h5⟩

theorem KeptStart.refl (qs : List Part) (a : StartState) : KeptStart qs a a := by
  simp [KeptStart]

/-- The ctl field differs only in listed parts. -/
@[reducible] def KeptCtl (qs : List Part) (a b : CtlState) : Prop :=
  (qs.contains .islands = true ∨ b.islands = a.islands) ∧ (qs.contains .crossings = true ∨ b.crossings = a.crossings)
    ∧ (qs.contains .registers = true ∨ b.regs = a.regs ∧ b.staged = a.staged ∧ b.held = a.held ∧ b.delivered =
    a.delivered)

theorem KeptCtl.lit {qs : List Part} {a : CtlState} {yislands : Tab IslandState} {ycrossings : Tab Crossing} {yregs
    : Tab Word} {ystaged : List (Nat × Word)} {yheld : List RegAccess} {ydelivered : List AgentDelivery} (h0 :
    qs.contains .islands = true ∨ yislands = a.islands) (h1 : qs.contains .crossings = true ∨ ycrossings =
    a.crossings) (h2 : qs.contains .registers = true ∨ yregs = a.regs ∧ ystaged = a.staged ∧ yheld = a.held ∧
    ydelivered = a.delivered) : KeptCtl qs a ⟨yislands, ycrossings, yregs, ystaged, yheld, ydelivered⟩ := ⟨h0, h1,
    h2⟩

theorem KeptCtl.refl (qs : List Part) (a : CtlState) : KeptCtl qs a a := by
  simp [KeptCtl]

/-- The opt field differs only in listed parts. -/
@[reducible] def KeptOpt (qs : List Part) (a b : OptState) : Prop :=
  (qs.contains .rings = true ∨ b.rings = a.rings ∧ b.dieTemp = a.dieTemp ∧ b.feedFwd = a.feedFwd ∧ b.searchDue =
    a.searchDue ∧ b.partialDue = a.partialDue) ∧ (qs.contains .bays = true ∨ b.bays = a.bays ∧ b.cutovers =
    a.cutovers ∧ b.autoSpare = a.autoSpare ∧ b.fades = a.fades) ∧ (qs.contains .fibres = true ∨ b.fibres = a.fibres)
    ∧ (qs.contains .circuits = true ∨ b.circuits = a.circuits ∧ b.lastChange = a.lastChange)

theorem KeptOpt.lit {qs : List Part} {a : OptState} {yrings : Tab Ring} {ybays : Tab Bay} {ycutovers : Tab Cutover}
    {yautoSpare : Bool} {yfades : Tab Fade} {yfibres : Tab FibrePair} {ydieTemp : Tab Nat} {yfeedFwd : Tab (Int ×
    Int)} {ycircuits : Tab Circuit} {ylastChange : Tab Nat} {ysearchDue : List Nat} {ypartialDue : List Nat} (h0 :
    qs.contains .rings = true ∨ yrings = a.rings ∧ ydieTemp = a.dieTemp ∧ yfeedFwd = a.feedFwd ∧ ysearchDue =
    a.searchDue ∧ ypartialDue = a.partialDue) (h1 : qs.contains .bays = true ∨ ybays = a.bays ∧ ycutovers =
    a.cutovers ∧ yautoSpare = a.autoSpare ∧ yfades = a.fades) (h2 : qs.contains .fibres = true ∨ yfibres =
    a.fibres) (h3 : qs.contains .circuits = true ∨ ycircuits = a.circuits ∧ ylastChange = a.lastChange) : KeptOpt
    qs a ⟨yrings, ybays, ycutovers, yautoSpare, yfades, yfibres, ydieTemp, yfeedFwd, ycircuits, ylastChange,
    ysearchDue, ypartialDue⟩ := ⟨h0, h1, h2, h3⟩

theorem KeptOpt.refl (qs : List Part) (a : OptState) : KeptOpt qs a a := by
  simp [KeptOpt]

/-- The time field differs only in listed parts. -/
@[reducible] def KeptTime (qs : List Part) (a b : TimeState) : Prop :=
  (qs.contains .launches = true ∨ b.launches = a.launches ∧ b.overflow = a.overflow) ∧ (qs.contains .time = true ∨
    b.phase = a.phase ∧ b.jumpRefused = a.jumpRefused ∧ b.hops = a.hops ∧ b.gmPriority = a.gmPriority ∧ b.gmSid =
    a.gmSid ∧ b.gmSeq = a.gmSeq ∧ b.priority = a.priority ∧ b.thresh = a.thresh ∧ b.fq = a.fq ∧ b.rhos = a.rhos ∧
    b.lastOff = a.lastOff ∧ b.samples = a.samples ∧ b.parent = a.parent ∧ b.firstSample = a.firstSample ∧ b.peers =
    a.peers ∧ b.sentSeqs = a.sentSeqs ∧ b.accept = a.accept ∧ b.tie = a.tie ∧ b.discipline = a.discipline ∧ b.ppsHigh
    = a.ppsHigh)

theorem KeptTime.lit {qs : List Part} {a : TimeState} {yphase : TimePhase} {yjumpRefused : Bool} {yhops : Nat}
    {ygmPriority : Nat} {ygmSid : Nat} {ygmSeq : Nat} {ypriority : Nat} {ythresh : Nat} {yfq : Int} {yrhos : List
    Int} {ylastOff : Int} {ysamples : List Int} {yparent : Option Nat} {yfirstSample : Bool} {ypeers : Tab
    TimePeer} {ysentSeqs : Tab (List Nat)} {yaccept : Option AcceptStep} {ytie : Option TieWait} {ydiscipline :
    Bool} {yppsHigh : Bool} {ylaunches : List LaunchEntry} {yoverflow : List Nat} (h0 : qs.contains .launches =
    true ∨ ylaunches = a.launches ∧ yoverflow = a.overflow) (h1 : qs.contains .time = true ∨ yphase = a.phase ∧
    yjumpRefused = a.jumpRefused ∧ yhops = a.hops ∧ ygmPriority = a.gmPriority ∧ ygmSid = a.gmSid ∧ ygmSeq =
    a.gmSeq ∧ ypriority = a.priority ∧ ythresh = a.thresh ∧ yfq = a.fq ∧ yrhos = a.rhos ∧ ylastOff = a.lastOff ∧
    ysamples = a.samples ∧ yparent = a.parent ∧ yfirstSample = a.firstSample ∧ ypeers = a.peers ∧ ysentSeqs =
    a.sentSeqs ∧ yaccept = a.accept ∧ ytie = a.tie ∧ ydiscipline = a.discipline ∧ yppsHigh = a.ppsHigh) : KeptTime
    qs a ⟨yphase, yjumpRefused, yhops, ygmPriority, ygmSid, ygmSeq, ypriority, ythresh, yfq, yrhos, ylastOff,
    ysamples, yparent, yfirstSample, ypeers, ysentSeqs, yaccept, ytie, ydiscipline, yppsHigh, ylaunches, yoverflow⟩
    := ⟨h0, h1⟩

theorem KeptTime.refl (qs : List Part) (a : TimeState) : KeptTime qs a a := by
  simp [KeptTime]

/-- The link field differs only in listed parts. -/
@[reducible] def KeptLink (qs : List Part) (a b : LinkState) : Prop :=
  (qs.contains .lanes = true ∨ b.lanes = a.lanes) ∧ (qs.contains .ports = true ∨ b.ports = a.ports)

theorem KeptLink.lit {qs : List Part} {a : LinkState} {ylanes : Tab Lane} {yports : Tab Port} (h0 : qs.contains
    .lanes = true ∨ ylanes = a.lanes) (h1 : qs.contains .ports = true ∨ yports = a.ports) : KeptLink qs a ⟨ylanes,
    yports⟩ := ⟨h0, h1⟩

theorem KeptLink.refl (qs : List Part) (a : LinkState) : KeptLink qs a a := by
  simp [KeptLink]

/-- The buf field differs only in listed parts. -/
@[reducible] def KeptBuf (qs : List Part) (a b : BufState) : Prop :=
  (qs.contains .packets = true ∨ b.packets = a.packets ∧ b.nextPkt = a.nextPkt) ∧ (qs.contains .queues = true ∨
    b.queues = a.queues ∧ b.drr = a.drr ∧ b.waiting = a.waiting ∧ b.entries = a.entries ∧ b.huskMoving = a.huskMoving
    ∧ b.replicate = a.replicate ∧ b.injPaused = a.injPaused) ∧ (qs.contains .room = true ∨ b.headroom = a.headroom ∧
    b.sharedQ = a.sharedQ ∧ b.sharedUsed = a.sharedUsed ∧ b.badCells = a.badCells ∧ b.kneadUsed = a.kneadUsed ∧
    b.computeUsed = a.computeUsed ∧ b.controlUsed = a.controlUsed) ∧ (qs.contains .numbering = true ∨ b.e2e = a.e2e ∧
    b.lastSent = a.lastSent) ∧ (qs.contains .firmware = true ∨ b.fwIn = a.fwIn ∧ b.fwOut = a.fwOut ∧ b.consumers =
    a.consumers)

theorem KeptBuf.lit {qs : List Part} {a : BufState} {ypackets : Tab Stored} {ynextPkt : Nat} {yqueues : Tab (List
    Copy)} {ydrr : Tab (Nat × List Nat)} {yheadroom : Tab Nat} {ysharedQ : Tab Nat} {ysharedUsed : Nat} {ybadCells
    : Nat} {ykneadUsed : Tab Nat} {ycomputeUsed : Nat} {ycontrolUsed : Nat} {ywaiting : Tab (List (Waiting × Option
    Launch))} {yentries : Tab (Nat × Nat)} {yhuskMoving : List Nat} {yfwIn : List Packet} {yfwOut : List Packet}
    {yconsumers : Tab (List Delivered)} {yreplicate : List (Nat × Nat × Nat × Nat)} {yinjPaused : List Nat} {ye2e :
    Tab Nat} {ylastSent : Tab Nat} (h0 : qs.contains .packets = true ∨ ypackets = a.packets ∧ ynextPkt = a.nextPkt)
    (h1 : qs.contains .queues = true ∨ yqueues = a.queues ∧ ydrr = a.drr ∧ ywaiting = a.waiting ∧ yentries =
    a.entries ∧ yhuskMoving = a.huskMoving ∧ yreplicate = a.replicate ∧ yinjPaused = a.injPaused) (h2 : qs.contains
    .room = true ∨ yheadroom = a.headroom ∧ ysharedQ = a.sharedQ ∧ ysharedUsed = a.sharedUsed ∧ ybadCells =
    a.badCells ∧ ykneadUsed = a.kneadUsed ∧ ycomputeUsed = a.computeUsed ∧ ycontrolUsed = a.controlUsed) (h3 :
    qs.contains .numbering = true ∨ ye2e = a.e2e ∧ ylastSent = a.lastSent) (h4 : qs.contains .firmware = true ∨
    yfwIn = a.fwIn ∧ yfwOut = a.fwOut ∧ yconsumers = a.consumers) : KeptBuf qs a ⟨ypackets, ynextPkt, yqueues,
    ydrr, yheadroom, ysharedQ, ysharedUsed, ybadCells, ykneadUsed, ycomputeUsed, ycontrolUsed, ywaiting, yentries,
    yhuskMoving, yfwIn, yfwOut, yconsumers, yreplicate, yinjPaused, ye2e, ylastSent⟩ := ⟨h0, h1, h2, h3, h4⟩

theorem KeptBuf.refl (qs : List Part) (a : BufState) : KeptBuf qs a a := by
  simp [KeptBuf]

/-- The tbl field differs only in listed parts. -/
@[reducible] def KeptTbl (qs : List Part) (a b : TblState) : Prop :=
  (qs.contains .tables = true ∨ b.slices = a.slices) ∧ (qs.contains .rootPriority = true ∨ b.rootPriority =
    a.rootPriority)

theorem KeptTbl.lit {qs : List Part} {a : TblState} {yslices : Tab Slice} {yrootPriority : Nat} (h0 : qs.contains
    .tables = true ∨ yslices = a.slices) (h1 : qs.contains .rootPriority = true ∨ yrootPriority = a.rootPriority) :
    KeptTbl qs a ⟨yslices, yrootPriority⟩ := ⟨h0, h1⟩

theorem KeptTbl.refl (qs : List Part) (a : TblState) : KeptTbl qs a a := by
  simp [KeptTbl]

/-- The sched field differs only in listed parts. -/
@[reducible] def KeptSched (qs : List Part) (a b : SchedState) : Prop :=
  (qs.contains .classes = true ∨ b.scheds = a.scheds ∧ b.shapers = a.shapers ∧ b.lossyGates = a.lossyGates ∧
    b.markers = a.markers ∧ b.queueSets = a.queueSets ∧ b.profiles = a.profiles ∧ b.c0Event = a.c0Event ∧ b.c0Meters
    = a.c0Meters) ∧ (qs.contains .budgets = true ∨ b.budgets = a.budgets ∧ b.nextBudgets = a.nextBudgets) ∧
    (qs.contains .gates = true ∨ b.gates = a.gates ∧ b.lentPool = a.lentPool)

theorem KeptSched.lit {qs : List Part} {a : SchedState} {yscheds : Tab Sched} {yshapers : Tab Shaper} {ylossyGates
    : Tab LossyGate} {ymarkers : Tab Marker} {yqueueSets : Tab QueueSet} {yprofiles : Tab (List DropCurve)}
    {ybudgets : List Budget} {ynextBudgets : Option (List Budget)} {ygates : Tab Gate} {ylentPool : Tab Nat}
    {yc0Event : Tab Nat} {yc0Meters : Tab C0Meter} (h0 : qs.contains .classes = true ∨ yscheds = a.scheds ∧
    yshapers = a.shapers ∧ ylossyGates = a.lossyGates ∧ ymarkers = a.markers ∧ yqueueSets = a.queueSets ∧ yprofiles
    = a.profiles ∧ yc0Event = a.c0Event ∧ yc0Meters = a.c0Meters) (h1 : qs.contains .budgets = true ∨ ybudgets =
    a.budgets ∧ ynextBudgets = a.nextBudgets) (h2 : qs.contains .gates = true ∨ ygates = a.gates ∧ ylentPool =
    a.lentPool) : KeptSched qs a ⟨yscheds, yshapers, ylossyGates, ymarkers, yqueueSets, yprofiles, ybudgets,
    ynextBudgets, ygates, ylentPool, yc0Event, yc0Meters⟩ := ⟨h0, h1, h2⟩

theorem KeptSched.refl (qs : List Part) (a : SchedState) : KeptSched qs a a := by
  simp [KeptSched]

/-- The loaf field differs only in listed parts. -/
@[reducible] def KeptLoaf (qs : List Part) (a b : LoafState) : Prop :=
  (qs.contains .groups = true ∨ b.groups = a.groups ∧ b.sizing = a.sizing) ∧ (qs.contains .loafs = true ∨ b.recipes =
    a.recipes ∧ b.contexts = a.contexts ∧ b.reservations = a.reservations ∧ b.opens = a.opens ∧ b.closes = a.closes ∧
    b.nextOpen = a.nextOpen ∧ b.kneadJobs = a.kneadJobs)

theorem KeptLoaf.lit {qs : List Part} {a : LoafState} {ygroups : Tab Group} {ysizing : Tab Sizing} {yrecipes : Tab
    Held} {ycontexts : Tab LoafCtx} {yreservations : List Reservation} {yopens : Tab OpenJob} {ycloses : Tab
    CloseJob} {ynextOpen : Nat} {ykneadJobs : List (Origin × List Nat)} (h0 : qs.contains .groups = true ∨ ygroups
    = a.groups ∧ ysizing = a.sizing) (h1 : qs.contains .loafs = true ∨ yrecipes = a.recipes ∧ ycontexts =
    a.contexts ∧ yreservations = a.reservations ∧ yopens = a.opens ∧ ycloses = a.closes ∧ ynextOpen = a.nextOpen ∧
    ykneadJobs = a.kneadJobs) : KeptLoaf qs a ⟨ygroups, ysizing, yrecipes, ycontexts, yreservations, yopens,
    ycloses, ynextOpen, ykneadJobs⟩ := ⟨h0, h1⟩

theorem KeptLoaf.refl (qs : List Part) (a : LoafState) : KeptLoaf qs a a := by
  simp [KeptLoaf]

/-- The mgmt field differs only in listed parts. -/
@[reducible] def KeptMgmt (qs : List Part) (a b : MgmtState) : Prop :=
  (qs.contains .events = true ∨ b.events = a.events) ∧ (qs.contains .mailboxes = true ∨ b.mailboxes = a.mailboxes ∧
    b.freeCores = a.freeCores) ∧ (qs.contains .sessions = true ∨ b.ports = a.ports ∧ b.sessions = a.sessions ∧
    b.nextSession = a.nextSession) ∧ (qs.contains .turns = true ∨ b.roundRobin = a.roundRobin ∧ b.starved =
    a.starved)

theorem KeptMgmt.lit {qs : List Part} {a : MgmtState} {yports : Tab MgmtPort} {ysessions : Tab Session}
    {ynextSession : Nat} {ymailboxes : Tab Mailbox} {yevents : Tab EventQueue} {yfreeCores : Nat} {yroundRobin :
    List Nat} {ystarved : List Nat} (h0 : qs.contains .events = true ∨ yevents = a.events) (h1 : qs.contains
    .mailboxes = true ∨ ymailboxes = a.mailboxes ∧ yfreeCores = a.freeCores) (h2 : qs.contains .sessions = true ∨
    yports = a.ports ∧ ysessions = a.sessions ∧ ynextSession = a.nextSession) (h3 : qs.contains .turns = true ∨
    yroundRobin = a.roundRobin ∧ ystarved = a.starved) : KeptMgmt qs a ⟨yports, ysessions, ynextSession,
    ymailboxes, yevents, yfreeCores, yroundRobin, ystarved⟩ := ⟨h0, h1, h2, h3⟩

theorem KeptMgmt.refl (qs : List Part) (a : MgmtState) : KeptMgmt qs a a := by
  simp [KeptMgmt]

/-- The fab field differs only in listed parts. -/
@[reducible] def KeptFab (qs : List Part) (a b : FabState) : Prop :=
  (qs.contains .neighbours = true ∨ b.generation = a.generation ∧ b.holdoff = a.holdoff ∧ b.told = a.told ∧
    b.measuredTold = a.measuredTold ∧ b.collided = a.collided)

theorem KeptFab.lit {qs : List Part} {a : FabState} {ygeneration : Nat} {yholdoff : Bool} {ytold : Nat}
    {ymeasuredTold : Tab Nat} {ycollided : List Nat} (h0 : qs.contains .neighbours = true ∨ ygeneration =
    a.generation ∧ yholdoff = a.holdoff ∧ ytold = a.told ∧ ymeasuredTold = a.measuredTold ∧ ycollided = a.collided)
    : KeptFab qs a ⟨ygeneration, yholdoff, ytold, ymeasuredTold, ycollided⟩ := h0

theorem KeptFab.refl (qs : List Part) (a : FabState) : KeptFab qs a a := by
  simp [KeptFab]

/-- The mill field differs only in listed parts. -/
@[reducible] def KeptMill (qs : List Part) (a b : MillState) : Prop :=
  (qs.contains .mill = true ∨ b.pages = a.pages ∧ b.sram = a.sram ∧ b.weights = a.weights ∧ b.contexts = a.contexts ∧
    b.programs = a.programs ∧ b.batches = a.batches ∧ b.work = a.work ∧ b.runLength = a.runLength ∧ b.lastSlot =
    a.lastSlot ∧ b.disabling = a.disabling)

theorem KeptMill.lit {qs : List Part} {a : MillState} {ypages : Tab Nat} {ysram : Tab Byte} {yweights : Tab
    WeightSet} {ycontexts : Tab DispatchCtx} {yprograms : Tab MillProgram} {ybatches : List Batch} {ywork : Option
    MillWork} {yrunLength : Nat} {ylastSlot : Nat} {ydisabling : List Origin} (h0 : qs.contains .mill = true ∨
    ypages = a.pages ∧ ysram = a.sram ∧ yweights = a.weights ∧ ycontexts = a.contexts ∧ yprograms = a.programs ∧
    ybatches = a.batches ∧ ywork = a.work ∧ yrunLength = a.runLength ∧ ylastSlot = a.lastSlot ∧ ydisabling =
    a.disabling) : KeptMill qs a ⟨ypages, ysram, yweights, ycontexts, yprograms, ybatches, ywork, yrunLength,
    ylastSlot, ydisabling⟩ := h0

theorem KeptMill.refl (qs : List Part) (a : MillState) : KeptMill qs a a := by
  simp [KeptMill]

/-- The gran field differs only in listed parts. -/
@[reducible] def KeptGran (qs : List Part) (a b : GranState) : Prop :=
  (qs.contains .regions = true ∨ b.regions = a.regions ∧ b.spares = a.spares ∧ b.lostStacks = a.lostStacks ∧
    b.retiring = a.retiring) ∧ (qs.contains .memory = true ∨ b.mem = a.mem ∧ b.lineKeys = a.lineKeys ∧ b.poisoned =
    a.poisoned ∧ b.corrected = a.corrected) ∧ (qs.contains .channels = true ∨ b.channels = a.channels) ∧ (qs.contains
    .grists = true ∨ b.grists = a.grists) ∧ (qs.contains .mirrors = true ∨ b.mirrors = a.mirrors ∧ b.asks = a.asks ∧
    b.nextAsk = a.nextAsk ∧ b.commits = a.commits) ∧ (qs.contains .accesses = true ∨ b.writes = a.writes ∧ b.reads =
    a.reads ∧ b.scrub = a.scrub ∧ b.disabling = a.disabling)

theorem KeptGran.lit {qs : List Part} {a : GranState} {yregions : Tab Region} {ymem : Tab Byte} {ylineKeys : Tab
    Nat} {ylostStacks : List Nat} {yspares : Tab Nat} {ypoisoned : List Nat} {ycorrected : Tab Nat} {yretiring :
    List (Nat × Nat × Nat)} {yscrub : Nat} {ywrites : List Access} {yreads : List Access} {ymirrors : Tab Mirror}
    {yasks : Tab MirrorAsk} {ynextAsk : Nat} {ycommits : List MirrorCommit} {ychannels : Tab Channel} {ygrists :
    Tab Grist} {ydisabling : Option (Origin × Bool)} (h0 : qs.contains .regions = true ∨ yregions = a.regions ∧
    yspares = a.spares ∧ ylostStacks = a.lostStacks ∧ yretiring = a.retiring) (h1 : qs.contains .memory = true ∨
    ymem = a.mem ∧ ylineKeys = a.lineKeys ∧ ypoisoned = a.poisoned ∧ ycorrected = a.corrected) (h2 : qs.contains
    .channels = true ∨ ychannels = a.channels) (h3 : qs.contains .grists = true ∨ ygrists = a.grists) (h4 :
    qs.contains .mirrors = true ∨ ymirrors = a.mirrors ∧ yasks = a.asks ∧ ynextAsk = a.nextAsk ∧ ycommits =
    a.commits) (h5 : qs.contains .accesses = true ∨ ywrites = a.writes ∧ yreads = a.reads ∧ yscrub = a.scrub ∧
    ydisabling = a.disabling) : KeptGran qs a ⟨yregions, ymem, ylineKeys, ylostStacks, yspares, ypoisoned,
    ycorrected, yretiring, yscrub, ywrites, yreads, ymirrors, yasks, ynextAsk, ycommits, ychannels, ygrists,
    ydisabling⟩ := ⟨h0, h1, h2, h3, h4, h5⟩

theorem KeptGran.refl (qs : List Part) (a : GranState) : KeptGran qs a a := by
  simp [KeptGran]

/-- The tele field differs only in listed parts. -/
@[reducible] def KeptTele (qs : List Part) (a b : TeleState) : Prop :=
  (qs.contains .counters = true ∨ b.counters = a.counters) ∧ (qs.contains .crumbs = true ∨ b.crumbQueue =
    a.crumbQueue ∧ b.crumbLost = a.crumbLost) ∧ (qs.contains .filters = true ∨ b.filters = a.filters ∧
    b.traceCategories = a.traceCategories ∧ b.tracePid = a.tracePid) ∧ (qs.contains .samples = true ∨ b.sampleQueue =
    a.sampleQueue ∧ b.sampleNew = a.sampleNew ∧ b.sampleHoldoff = a.sampleHoldoff) ∧ (qs.contains .snapshots = true ∨
    b.snapshots = a.snapshots ∧ b.jtag = a.jtag ∧ b.dumpSeq = a.dumpSeq)

theorem KeptTele.lit {qs : List Part} {a : TeleState} {ycounters : Tab Nat} {yfilters : Tab FilterRec} {ycrumbQueue
    : List CrumbRec} {ycrumbLost : Bool} {ytraceCategories : Nat} {ytracePid : Option Nat} {ysampleQueue : List
    (List Word × List Byte)} {ysampleNew : Bool} {ysampleHoldoff : Bool} {ysnapshots : List Snapshot} {yjtag : Nat}
    {ydumpSeq : Nat} (h0 : qs.contains .counters = true ∨ ycounters = a.counters) (h1 : qs.contains .crumbs = true
    ∨ ycrumbQueue = a.crumbQueue ∧ ycrumbLost = a.crumbLost) (h2 : qs.contains .filters = true ∨ yfilters =
    a.filters ∧ ytraceCategories = a.traceCategories ∧ ytracePid = a.tracePid) (h3 : qs.contains .samples = true ∨
    ysampleQueue = a.sampleQueue ∧ ysampleNew = a.sampleNew ∧ ysampleHoldoff = a.sampleHoldoff) (h4 : qs.contains
    .snapshots = true ∨ ysnapshots = a.snapshots ∧ yjtag = a.jtag ∧ ydumpSeq = a.dumpSeq) : KeptTele qs a
    ⟨ycounters, yfilters, ycrumbQueue, ycrumbLost, ytraceCategories, ytracePid, ysampleQueue, ysampleNew,
    ysampleHoldoff, ysnapshots, yjtag, ydumpSeq⟩ := ⟨h0, h1, h2, h3, h4⟩

theorem KeptTele.refl (qs : List Part) (a : TeleState) : KeptTele qs a a := by
  simp [KeptTele]

/-- The winnow field differs only in listed parts. -/
@[reducible] def KeptWinnow (qs : List Part) (a b : WinnowState) : Prop :=
  (qs.contains .decisions = true ∨ b.log = a.log ∧ b.nextSeq = a.nextSeq) ∧ (qs.contains .placement = true ∨
    b.policies = a.policies ∧ b.tags = a.tags ∧ b.crustMasks = a.crustMasks ∧ b.crustPins = a.crustPins ∧
    b.replicaPins = a.replicaPins ∧ b.traffic = a.traffic ∧ b.lowWindows = a.lowWindows ∧ b.summaries = a.summaries ∧
    b.load = a.load)

theorem KeptWinnow.lit {qs : List Part} {a : WinnowState} {ypolicies : Tab Policy} {ytags : Tab TagSet}
    {ycrustMasks : Tab CrustMask} {ycrustPins : List Nat} {yreplicaPins : Tab Nat} {ytraffic : Tab Nat}
    {ylowWindows : Tab Nat} {ysummaries : Tab Summary} {yload : Nat} {ylog : List Decision} {ynextSeq : Nat} (h0 :
    qs.contains .decisions = true ∨ ylog = a.log ∧ ynextSeq = a.nextSeq) (h1 : qs.contains .placement = true ∨
    ypolicies = a.policies ∧ ytags = a.tags ∧ ycrustMasks = a.crustMasks ∧ ycrustPins = a.crustPins ∧ yreplicaPins
    = a.replicaPins ∧ ytraffic = a.traffic ∧ ylowWindows = a.lowWindows ∧ ysummaries = a.summaries ∧ yload =
    a.load) : KeptWinnow qs a ⟨ypolicies, ytags, ycrustMasks, ycrustPins, yreplicaPins, ytraffic, ylowWindows,
    ysummaries, yload, ylog, ynextSeq⟩ := ⟨h0, h1⟩

theorem KeptWinnow.refl (qs : List Part) (a : WinnowState) : KeptWinnow qs a a := by
  simp [KeptWinnow]

/-- The rst field differs only in listed parts. -/
@[reducible] def KeptRst (qs : List Part) (a b : RstState) : Prop :=
  (qs.contains .escalation = true ∨ b.asked = a.asked ∧ b.l2Times = a.l2Times ∧ b.l3Times = a.l3Times ∧ b.l4Times =
    a.l4Times)

theorem KeptRst.lit {qs : List Part} {a : RstState} {yasked : List Escalation} {yl2Times : Tab (List Nat)}
    {yl3Times : Tab (List Nat)} {yl4Times : List Nat} (h0 : qs.contains .escalation = true ∨ yasked = a.asked ∧
    yl2Times = a.l2Times ∧ yl3Times = a.l3Times ∧ yl4Times = a.l4Times) : KeptRst qs a ⟨yasked, yl2Times, yl3Times,
    yl4Times⟩ := h0

theorem KeptRst.refl (qs : List Part) (a : RstState) : KeptRst qs a a := by
  simp [KeptRst]

/-- The clk field differs only in listed parts. -/
@[reducible] def KeptClk (qs : List Part) (a b : ClockState) : Prop :=
  (qs.contains .refTime = true ∨ b.ref = a.ref) ∧ (qs.contains .devTime = true ∨ b.dev = a.dev ∧ b.rho = a.rho)

theorem KeptClk.lit {qs : List Part} {a : ClockState} {yref : Nat} {ydev : Nat} {yrho : Int} (h0 : qs.contains
    .refTime = true ∨ yref = a.ref) (h1 : qs.contains .devTime = true ∨ ydev = a.dev ∧ yrho = a.rho) : KeptClk qs a
    ⟨yref, ydev, yrho⟩ := ⟨h0, h1⟩

theorem KeptClk.refl (qs : List Part) (a : ClockState) : KeptClk qs a a := by
  simp [KeptClk]

/-- The sec field differs only in listed parts. -/
@[reducible] def KeptSec (qs : List Part) (a b : SecState) : Prop :=
  (qs.contains .linkKeys = true ∨ b.linkSlots = a.linkSlots) ∧ (qs.contains .regionKeys = true ∨ b.regionSlots =
    a.regionSlots) ∧ (qs.contains .proposals = true ∨ b.proposals = a.proposals ∧ b.nextProposal = a.nextProposal) ∧
    (qs.contains .keySessions = true ∨ b.sessions = a.sessions ∧ b.nextKeySession = a.nextKeySession ∧ b.unlocked =
    a.unlocked)

theorem KeptSec.lit {qs : List Part} {a : SecState} {ysessions : Tab KeySession} {ynextKeySession : Nat}
    {ylinkSlots : Tab LinkSlot} {yregionSlots : Tab RegionSlot} {yproposals : Tab Proposal} {ynextProposal : Nat}
    {yunlocked : Nat} (h0 : qs.contains .linkKeys = true ∨ ylinkSlots = a.linkSlots) (h1 : qs.contains .regionKeys
    = true ∨ yregionSlots = a.regionSlots) (h2 : qs.contains .proposals = true ∨ yproposals = a.proposals ∧
    ynextProposal = a.nextProposal) (h3 : qs.contains .keySessions = true ∨ ysessions = a.sessions ∧
    ynextKeySession = a.nextKeySession ∧ yunlocked = a.unlocked) : KeptSec qs a ⟨ysessions, ynextKeySession,
    ylinkSlots, yregionSlots, yproposals, ynextProposal, yunlocked⟩ := ⟨h0, h1, h2, h3⟩

theorem KeptSec.refl (qs : List Part) (a : SecState) : KeptSec qs a a := by
  simp [KeptSec]

/-- A record update of a state: each field is the old one, or differs in listed parts. -/
theorem OnlyChanges.updAux {qs : List Part} {s x y : State} (h : OnlyChanges qs s x) (hp : y.pending = x.pending)
    (hpower : KeptPower qs x.power y.power)
    (hstart : KeptStart qs x.start y.start)
    (hctl : KeptCtl qs x.ctl y.ctl)
    (hopt : KeptOpt qs x.opt y.opt)
    (htime : KeptTime qs x.time y.time)
    (hlink : KeptLink qs x.link y.link)
    (hbuf : KeptBuf qs x.buf y.buf)
    (htbl : KeptTbl qs x.tbl y.tbl)
    (hsched : KeptSched qs x.sched y.sched)
    (hloaf : KeptLoaf qs x.loaf y.loaf)
    (hmgmt : KeptMgmt qs x.mgmt y.mgmt)
    (hfab : KeptFab qs x.fab y.fab)
    (hmill : KeptMill qs x.mill y.mill)
    (hgran : KeptGran qs x.gran y.gran)
    (htele : KeptTele qs x.tele y.tele)
    (hwinnow : KeptWinnow qs x.winnow y.winnow)
    (hrst : KeptRst qs x.rst y.rst)
    (hclk : KeptClk qs x.clk y.clk)
    (hsec : KeptSec qs x.sec y.sec)
    (hfree : qs.contains .free = true ∨ y.free = x.free) (hout : qs.contains .out = true ∨ y.out = x.out) :
    OnlyChanges qs s y := by
  refine h.trans (fun p hq => ?_)
  have hc : qs.contains p ≠ true := by simpa using hq
  cases p with
  | alert => exact (hpower.1).resolve_left hc
  | supply => exact (hpower.2.1).resolve_left hc
  | readings => exact (hpower.2.2.1).resolve_left hc
  | throttle => exact (hpower.2.2.2.1).resolve_left hc
  | powerCap => exact (hpower.2.2.2.2).resolve_left hc
  | startPhase => exact (hstart.1).resolve_left hc
  | lastLevel => exact (hstart.2.1).resolve_left hc
  | dumpValid => exact (hstart.2.2.1).resolve_left hc
  | flash => exact (hstart.2.2.2.1).resolve_left hc
  | recoveryLog => exact (hstart.2.2.2.2.1).resolve_left hc
  | staging => exact (hstart.2.2.2.2.2).resolve_left hc
  | islands => exact (hctl.1).resolve_left hc
  | crossings => exact (hctl.2.1).resolve_left hc
  | registers => exact (hctl.2.2).resolve_left hc
  | rings => exact (hopt.1).resolve_left hc
  | bays => exact (hopt.2.1).resolve_left hc
  | fibres => exact (hopt.2.2.1).resolve_left hc
  | circuits => exact (hopt.2.2.2).resolve_left hc
  | launches => exact (htime.1).resolve_left hc
  | time => exact (htime.2).resolve_left hc
  | lanes => exact (hlink.1).resolve_left hc
  | ports => exact (hlink.2).resolve_left hc
  | packets => exact (hbuf.1).resolve_left hc
  | queues => exact (hbuf.2.1).resolve_left hc
  | room => exact (hbuf.2.2.1).resolve_left hc
  | numbering => exact (hbuf.2.2.2.1).resolve_left hc
  | firmware => exact (hbuf.2.2.2.2).resolve_left hc
  | tables => exact (htbl.1).resolve_left hc
  | rootPriority => exact (htbl.2).resolve_left hc
  | classes => exact (hsched.1).resolve_left hc
  | budgets => exact (hsched.2.1).resolve_left hc
  | gates => exact (hsched.2.2).resolve_left hc
  | groups => exact (hloaf.1).resolve_left hc
  | loafs => exact (hloaf.2).resolve_left hc
  | events => exact (hmgmt.1).resolve_left hc
  | mailboxes => exact (hmgmt.2.1).resolve_left hc
  | sessions => exact (hmgmt.2.2.1).resolve_left hc
  | turns => exact (hmgmt.2.2.2).resolve_left hc
  | neighbours => exact (hfab).resolve_left hc
  | mill => exact (hmill).resolve_left hc
  | regions => exact (hgran.1).resolve_left hc
  | memory => exact (hgran.2.1).resolve_left hc
  | channels => exact (hgran.2.2.1).resolve_left hc
  | grists => exact (hgran.2.2.2.1).resolve_left hc
  | mirrors => exact (hgran.2.2.2.2.1).resolve_left hc
  | accesses => exact (hgran.2.2.2.2.2).resolve_left hc
  | counters => exact (htele.1).resolve_left hc
  | crumbs => exact (htele.2.1).resolve_left hc
  | filters => exact (htele.2.2.1).resolve_left hc
  | samples => exact (htele.2.2.2.1).resolve_left hc
  | snapshots => exact (htele.2.2.2.2).resolve_left hc
  | decisions => exact (hwinnow.1).resolve_left hc
  | placement => exact (hwinnow.2).resolve_left hc
  | escalation => exact (hrst).resolve_left hc
  | refTime => exact (hclk.1).resolve_left hc
  | devTime => exact (hclk.2).resolve_left hc
  | free => exact hfree.resolve_left hc
  | out => exact hout.resolve_left hc
  | linkKeys => exact (hsec.1).resolve_left hc
  | regionKeys => exact (hsec.2.1).resolve_left hc
  | proposals => exact (hsec.2.2.1).resolve_left hc
  | keySessions => exact (hsec.2.2.2).resolve_left hc
  | queue => exact hp

/-- The same for a state written out field by field. -/
theorem OnlyChanges.upd {qs : List Part} {s x : State}
    {ypower : PowerState}
    {ystart : StartState}
    {yctl : CtlState}
    {yopt : OptState}
    {ytime : TimeState}
    {ylink : LinkState}
    {ybuf : BufState}
    {ytbl : TblState}
    {ysched : SchedState}
    {yloaf : LoafState}
    {ymgmt : MgmtState}
    {yfab : FabState}
    {ymill : MillState}
    {ygran : GranState}
    {ytele : TeleState}
    {ywinnow : WinnowState}
    {yrst : RstState}
    {yclk : ClockState}
    {yfree : Nat}
    {yout : List Out}
    {ysec : SecState}
    {ypending : List Instr}
    (hp : ypending = x.pending) (h : OnlyChanges qs s x)
    (hpower : KeptPower qs x.power ypower := by
      first
      | with_reducible exact KeptPower.refl _ _
      | (refine KeptPower.lit ?_ ?_ ?_ ?_ ?_
         · first | exact Or.inl (by decide) | exact Or.inr rfl | exact Or.inr (by simp +zetaDelta only [and_self])
         · first | exact Or.inl (by decide) | exact Or.inr ⟨rfl, rfl, rfl, rfl, rfl, rfl, rfl, rfl, rfl, rfl, rfl⟩ | exact Or.inr (by simp +zetaDelta only [and_self])
         · first | exact Or.inl (by decide) | exact Or.inr ⟨rfl, rfl⟩ | exact Or.inr (by simp +zetaDelta only [and_self])
         · first | exact Or.inl (by decide) | exact Or.inr ⟨rfl, rfl, rfl, rfl, rfl⟩ | exact Or.inr (by simp +zetaDelta only [and_self])
         · first | exact Or.inl (by decide) | exact Or.inr rfl | exact Or.inr (by simp +zetaDelta only [and_self])))
    (hstart : KeptStart qs x.start ystart := by
      first
      | with_reducible exact KeptStart.refl _ _
      | (refine KeptStart.lit ?_ ?_ ?_ ?_ ?_ ?_
         · first | exact Or.inl (by decide) | exact Or.inr ⟨rfl, rfl, rfl, rfl, rfl, rfl⟩ | exact Or.inr (by simp +zetaDelta only [and_self])
         · first | exact Or.inl (by decide) | exact Or.inr rfl | exact Or.inr (by simp +zetaDelta only [and_self])
         · first | exact Or.inl (by decide) | exact Or.inr rfl | exact Or.inr (by simp +zetaDelta only [and_self])
         · first | exact Or.inl (by decide) | exact Or.inr ⟨rfl, rfl, rfl, rfl, rfl⟩ | exact Or.inr (by simp +zetaDelta only [and_self])
         · first | exact Or.inl (by decide) | exact Or.inr rfl | exact Or.inr (by simp +zetaDelta only [and_self])
         · first | exact Or.inl (by decide) | exact Or.inr rfl | exact Or.inr (by simp +zetaDelta only [and_self])))
    (hctl : KeptCtl qs x.ctl yctl := by
      first
      | with_reducible exact KeptCtl.refl _ _
      | (refine KeptCtl.lit ?_ ?_ ?_
         · first | exact Or.inl (by decide) | exact Or.inr rfl | exact Or.inr (by simp +zetaDelta only [and_self])
         · first | exact Or.inl (by decide) | exact Or.inr rfl | exact Or.inr (by simp +zetaDelta only [and_self])
         · first | exact Or.inl (by decide) | exact Or.inr ⟨rfl, rfl, rfl, rfl⟩ | exact Or.inr (by simp +zetaDelta only [and_self])))
    (hopt : KeptOpt qs x.opt yopt := by
      first
      | with_reducible exact KeptOpt.refl _ _
      | (refine KeptOpt.lit ?_ ?_ ?_ ?_
         · first | exact Or.inl (by decide) | exact Or.inr ⟨rfl, rfl, rfl, rfl, rfl⟩ | exact Or.inr (by simp +zetaDelta only [and_self])
         · first | exact Or.inl (by decide) | exact Or.inr ⟨rfl, rfl, rfl, rfl⟩ | exact Or.inr (by simp +zetaDelta only [and_self])
         · first | exact Or.inl (by decide) | exact Or.inr rfl | exact Or.inr (by simp +zetaDelta only [and_self])
         · first | exact Or.inl (by decide) | exact Or.inr ⟨rfl, rfl⟩ | exact Or.inr (by simp +zetaDelta only [and_self])))
    (htime : KeptTime qs x.time ytime := by
      first
      | with_reducible exact KeptTime.refl _ _
      | (refine KeptTime.lit ?_ ?_
         · first | exact Or.inl (by decide) | exact Or.inr ⟨rfl, rfl⟩ | exact Or.inr (by simp +zetaDelta only [and_self])
         · first | exact Or.inl (by decide) | exact Or.inr ⟨rfl, rfl, rfl, rfl, rfl, rfl, rfl, rfl, rfl, rfl, rfl, rfl, rfl, rfl, rfl, rfl, rfl, rfl, rfl, rfl⟩ | exact Or.inr (by simp +zetaDelta only [and_self])))
    (hlink : KeptLink qs x.link ylink := by
      first
      | with_reducible exact KeptLink.refl _ _
      | (refine KeptLink.lit ?_ ?_
         · first | exact Or.inl (by decide) | exact Or.inr rfl | exact Or.inr (by simp +zetaDelta only [and_self])
         · first | exact Or.inl (by decide) | exact Or.inr rfl | exact Or.inr (by simp +zetaDelta only [and_self])))
    (hbuf : KeptBuf qs x.buf ybuf := by
      first
      | with_reducible exact KeptBuf.refl _ _
      | (refine KeptBuf.lit ?_ ?_ ?_ ?_ ?_
         · first | exact Or.inl (by decide) | exact Or.inr ⟨rfl, rfl⟩ | exact Or.inr (by simp +zetaDelta only [and_self])
         · first | exact Or.inl (by decide) | exact Or.inr ⟨rfl, rfl, rfl, rfl, rfl, rfl, rfl⟩ | exact Or.inr (by simp +zetaDelta only [and_self])
         · first | exact Or.inl (by decide) | exact Or.inr ⟨rfl, rfl, rfl, rfl, rfl, rfl, rfl⟩ | exact Or.inr (by simp +zetaDelta only [and_self])
         · first | exact Or.inl (by decide) | exact Or.inr ⟨rfl, rfl⟩ | exact Or.inr (by simp +zetaDelta only [and_self])
         · first | exact Or.inl (by decide) | exact Or.inr ⟨rfl, rfl, rfl⟩ | exact Or.inr (by simp +zetaDelta only [and_self])))
    (htbl : KeptTbl qs x.tbl ytbl := by
      first
      | with_reducible exact KeptTbl.refl _ _
      | (refine KeptTbl.lit ?_ ?_
         · first | exact Or.inl (by decide) | exact Or.inr rfl | exact Or.inr (by simp +zetaDelta only [and_self])
         · first | exact Or.inl (by decide) | exact Or.inr rfl | exact Or.inr (by simp +zetaDelta only [and_self])))
    (hsched : KeptSched qs x.sched ysched := by
      first
      | with_reducible exact KeptSched.refl _ _
      | (refine KeptSched.lit ?_ ?_ ?_
         · first | exact Or.inl (by decide) | exact Or.inr ⟨rfl, rfl, rfl, rfl, rfl, rfl, rfl, rfl⟩ | exact Or.inr (by simp +zetaDelta only [and_self])
         · first | exact Or.inl (by decide) | exact Or.inr ⟨rfl, rfl⟩ | exact Or.inr (by simp +zetaDelta only [and_self])
         · first | exact Or.inl (by decide) | exact Or.inr ⟨rfl, rfl⟩ | exact Or.inr (by simp +zetaDelta only [and_self])))
    (hloaf : KeptLoaf qs x.loaf yloaf := by
      first
      | with_reducible exact KeptLoaf.refl _ _
      | (refine KeptLoaf.lit ?_ ?_
         · first | exact Or.inl (by decide) | exact Or.inr ⟨rfl, rfl⟩ | exact Or.inr (by simp +zetaDelta only [and_self])
         · first | exact Or.inl (by decide) | exact Or.inr ⟨rfl, rfl, rfl, rfl, rfl, rfl, rfl⟩ | exact Or.inr (by simp +zetaDelta only [and_self])))
    (hmgmt : KeptMgmt qs x.mgmt ymgmt := by
      first
      | with_reducible exact KeptMgmt.refl _ _
      | (refine KeptMgmt.lit ?_ ?_ ?_ ?_
         · first | exact Or.inl (by decide) | exact Or.inr rfl | exact Or.inr (by simp +zetaDelta only [and_self])
         · first | exact Or.inl (by decide) | exact Or.inr ⟨rfl, rfl⟩ | exact Or.inr (by simp +zetaDelta only [and_self])
         · first | exact Or.inl (by decide) | exact Or.inr ⟨rfl, rfl, rfl⟩ | exact Or.inr (by simp +zetaDelta only [and_self])
         · first | exact Or.inl (by decide) | exact Or.inr ⟨rfl, rfl⟩ | exact Or.inr (by simp +zetaDelta only [and_self])))
    (hfab : KeptFab qs x.fab yfab := by
      first
      | with_reducible exact KeptFab.refl _ _
      | (refine KeptFab.lit ?_; first | exact Or.inl (by decide) | exact Or.inr ⟨rfl, rfl, rfl, rfl, rfl⟩ | exact Or.inr (by simp +zetaDelta only [and_self])))
    (hmill : KeptMill qs x.mill ymill := by
      first
      | with_reducible exact KeptMill.refl _ _
      | (refine KeptMill.lit ?_; first | exact Or.inl (by decide) | exact Or.inr ⟨rfl, rfl, rfl, rfl, rfl, rfl, rfl, rfl, rfl, rfl⟩ | exact Or.inr (by simp +zetaDelta only [and_self])))
    (hgran : KeptGran qs x.gran ygran := by
      first
      | with_reducible exact KeptGran.refl _ _
      | (refine KeptGran.lit ?_ ?_ ?_ ?_ ?_ ?_
         · first | exact Or.inl (by decide) | exact Or.inr ⟨rfl, rfl, rfl, rfl⟩ | exact Or.inr (by simp +zetaDelta only [and_self])
         · first | exact Or.inl (by decide) | exact Or.inr ⟨rfl, rfl, rfl, rfl⟩ | exact Or.inr (by simp +zetaDelta only [and_self])
         · first | exact Or.inl (by decide) | exact Or.inr rfl | exact Or.inr (by simp +zetaDelta only [and_self])
         · first | exact Or.inl (by decide) | exact Or.inr rfl | exact Or.inr (by simp +zetaDelta only [and_self])
         · first | exact Or.inl (by decide) | exact Or.inr ⟨rfl, rfl, rfl, rfl⟩ | exact Or.inr (by simp +zetaDelta only [and_self])
         · first | exact Or.inl (by decide) | exact Or.inr ⟨rfl, rfl, rfl, rfl⟩ | exact Or.inr (by simp +zetaDelta only [and_self])))
    (htele : KeptTele qs x.tele ytele := by
      first
      | with_reducible exact KeptTele.refl _ _
      | (refine KeptTele.lit ?_ ?_ ?_ ?_ ?_
         · first | exact Or.inl (by decide) | exact Or.inr rfl | exact Or.inr (by simp +zetaDelta only [and_self])
         · first | exact Or.inl (by decide) | exact Or.inr ⟨rfl, rfl⟩ | exact Or.inr (by simp +zetaDelta only [and_self])
         · first | exact Or.inl (by decide) | exact Or.inr ⟨rfl, rfl, rfl⟩ | exact Or.inr (by simp +zetaDelta only [and_self])
         · first | exact Or.inl (by decide) | exact Or.inr ⟨rfl, rfl, rfl⟩ | exact Or.inr (by simp +zetaDelta only [and_self])
         · first | exact Or.inl (by decide) | exact Or.inr ⟨rfl, rfl, rfl⟩ | exact Or.inr (by simp +zetaDelta only [and_self])))
    (hwinnow : KeptWinnow qs x.winnow ywinnow := by
      first
      | with_reducible exact KeptWinnow.refl _ _
      | (refine KeptWinnow.lit ?_ ?_
         · first | exact Or.inl (by decide) | exact Or.inr ⟨rfl, rfl⟩ | exact Or.inr (by simp +zetaDelta only [and_self])
         · first | exact Or.inl (by decide) | exact Or.inr ⟨rfl, rfl, rfl, rfl, rfl, rfl, rfl, rfl, rfl⟩ | exact Or.inr (by simp +zetaDelta only [and_self])))
    (hrst : KeptRst qs x.rst yrst := by
      first
      | with_reducible exact KeptRst.refl _ _
      | (refine KeptRst.lit ?_; first | exact Or.inl (by decide) | exact Or.inr ⟨rfl, rfl, rfl, rfl⟩ | exact Or.inr (by simp +zetaDelta only [and_self])))
    (hclk : KeptClk qs x.clk yclk := by
      first
      | with_reducible exact KeptClk.refl _ _
      | (refine KeptClk.lit ?_ ?_
         · first | exact Or.inl (by decide) | exact Or.inr rfl | exact Or.inr (by simp +zetaDelta only [and_self])
         · first | exact Or.inl (by decide) | exact Or.inr ⟨rfl, rfl⟩ | exact Or.inr (by simp +zetaDelta only [and_self])))
    (hsec : KeptSec qs x.sec ysec := by
      first
      | with_reducible exact KeptSec.refl _ _
      | (refine KeptSec.lit ?_ ?_ ?_ ?_
         · first | exact Or.inl (by decide) | exact Or.inr rfl | exact Or.inr (by simp +zetaDelta only [and_self])
         · first | exact Or.inl (by decide) | exact Or.inr rfl | exact Or.inr (by simp +zetaDelta only [and_self])
         · first | exact Or.inl (by decide) | exact Or.inr ⟨rfl, rfl⟩ | exact Or.inr (by simp +zetaDelta only [and_self])
         · first | exact Or.inl (by decide) | exact Or.inr ⟨rfl, rfl, rfl⟩ | exact Or.inr (by simp +zetaDelta only [and_self])))
    (hfree : qs.contains .free = true ∨ yfree = x.free := by first | exact Or.inr rfl | exact Or.inl (by decide))
    (hout : qs.contains .out = true ∨ yout = x.out := by first | exact Or.inr rfl | exact Or.inl (by decide)) :
    OnlyChanges qs s ⟨ypower, ystart, yctl, yopt, ytime, ylink, ybuf, ytbl, ysched, yloaf, ymgmt, yfab, ymill, ygran, ytele, ywinnow, yrst, yclk, yfree, yout, ysec, ypending⟩ :=
  h.updAux hp hpower hstart hctl hopt htime hlink hbuf htbl hsched hloaf hmgmt hfab hmill hgran htele hwinnow hrst hclk hsec hfree hout

theorem OnlyChanges.of_fst {β : Type} {qs : List Part} {s a : State} {b : β} {e : State × β} (h : e = (a, b))
    (k : OnlyChanges qs s e.1) : OnlyChanges qs s a := by subst h; exact k

theorem OnlyChanges.of_snd {β : Type} {qs : List Part} {s a : State} {b : β} {e : β × State} (h : e = (b, a))
    (k : OnlyChanges qs s e.2) : OnlyChanges qs s a := by subst h; exact k

theorem OnlyChanges.foldl {α : Type} {qs : List Part} {s x : State} {f : State → α → State} {l : List α}
    (hf : ∀ s a, OnlyChanges qs s (f s a)) (h : OnlyChanges qs s x) : OnlyChanges qs s (l.foldl f x) := by
  induction l generalizing x with
  | nil => exact h
  | cons a l ih => exact ih (h.trans (hf x a))

theorem OnlyChanges.foldl_fst {α β : Type} {qs : List Part} {s : State} {x : State × β} {f : State × β → α → State × β}
    {l : List α} (hf : ∀ x a, OnlyChanges qs x.1 (f x a).1) (h : OnlyChanges qs s x.1) :
    OnlyChanges qs s (l.foldl f x).1 := by
  induction l generalizing x with
  | nil => exact h
  | cons a l ih => exact ih (h.trans (hf x a))

theorem OnlyChanges.foldl_snd {α β : Type} {qs : List Part} {s : State} {x : β × State} {f : β × State → α → β × State}
    {l : List α} (hf : ∀ x a, OnlyChanges qs x.2 (f x a).2) (h : OnlyChanges qs s x.2) :
    OnlyChanges qs s (l.foldl f x).2 := by
  induction l generalizing x with
  | nil => exact h
  | cons a l ih => exact ih (h.trans (hf x a))

theorem OnlyChanges.getD {qs : List Part} {s x : State} {o : Option State} (h : ∀ t, o = some t → OnlyChanges qs s t)
    (hx : OnlyChanges qs s x) : OnlyChanges qs s (o.getD x) := by
  cases o with
  | none => exact hx
  | some t => exact h t rfl

/-- An outcome that goes on changes only listed parts. -/
def NextChanges (ps : List Part) (s : State) (r : Host.Outcome State Fault Refusal) : Prop :=
  match r with
  | .next t => OnlyChanges ps s t
  | _ => True

/-- What a command's own rules give changes only listed parts. -/
def CmdChanges (ps : List Part) (s : State) (r : CmdOutcome) : Prop :=
  match r with
  | .done _ _ t => OnlyChanges ps s t
  | .fails _ t => OnlyChanges ps s t
  | .later t => OnlyChanges ps s t
  | .soon t => OnlyChanges ps s t
  | .laterGrace _ t => OnlyChanges ps s t

theorem onUnit_frame {ps : List Part} {s t : State} (ok : Bool) (h : OnlyChanges ps s t) :
    NextChanges ps s (onUnit ok t) := by
  cases ok
  · exact True.intro
  · exact h

theorem next_frame {ps : List Part} {s t : State} (h : OnlyChanges ps s t) : NextChanges ps s (.next t) := h

theorem fault_frame (ps : List Part) (s : State) (r : Fault) : NextChanges ps s (.fault r) := True.intro

theorem NextChanges.mono {ps qs : List Part} {s : State} {r : Host.Outcome State Fault Refusal} (h : NextChanges ps s r)
    (hq : ps.all qs.contains = true) : NextChanges qs s r := by
  cases r with
  | next t => exact OnlyChanges.mono h hq
  | fault _ => exact True.intro
  | refused _ => exact True.intro

theorem CmdChanges.mono {ps qs : List Part} {s : State} {r : CmdOutcome} (h : CmdChanges ps s r)
    (hq : ps.all qs.contains = true) : CmdChanges qs s r := by
  cases r <;> exact OnlyChanges.mono h hq

theorem done_frame {ps : List Part} {s t : State} {st : Status} {ws : List Word} (h : OnlyChanges ps s t) :
    CmdChanges ps s (.done st ws t) := h

theorem fails_frame {ps : List Part} {s t : State} {st : Status} (h : OnlyChanges ps s t) :
    CmdChanges ps s (.fails st t) := h

theorem later_frame {ps : List Part} {s t : State} (h : OnlyChanges ps s t) : CmdChanges ps s (.later t) := h

theorem soon_frame {ps : List Part} {s t : State} (h : OnlyChanges ps s t) : CmdChanges ps s (.soon t) := h

theorem laterGrace_frame {ps : List Part} {s t : State} {g : Nat} (h : OnlyChanges ps s t) :
    CmdChanges ps s (.laterGrace g t) := h

theorem failWith_frame (ps : List Part) (st : Status) (s : State) : CmdChanges ps s (failWith st s) :=
  OnlyChanges.refl ps s

theorem okWith_frame {ps : List Part} {s t : State} (h : OnlyChanges ps s t) : CmdChanges ps s (okWith t) := h

end Sys2Proof.Machine
end

