-- ==== Sys2Proof/Laws/FrameOps.lean ====
section
/-! SUPPORT. What the operations of Machine/Ops.lean leave unchanged. -/

set_option Elab.async false

namespace Sys2Proof.Machine

theorem drawFree_frame (s) : OnlyChanges [.free] s (drawFree s).2 := by
  unfold drawFree
  repeat' first
    | with_reducible exact OnlyChanges.refl _ _
    | assumption
    | extract_lets
    | with_reducible refine OnlyChanges.getD (fun _ _ => ?_) ?_
    | with_reducible refine OnlyChanges.foldl (fun _ _ => ?_) ?_
    | split
    | extract_lets +lift
    | with_reducible refine OnlyChanges.foldl_fst (fun _ _ => ?_) ?_
    | with_reducible refine OnlyChanges.foldl_snd (fun _ _ => ?_) ?_
    | with_reducible refine OnlyChanges.of_fst (by assumption) ?_
    | with_reducible refine OnlyChanges.of_snd (by assumption) ?_
    | with_reducible refine OnlyChanges.upd rfl ?_

theorem emit_frame (a0 s) : OnlyChanges [.out] s (emit a0 s) := by
  unfold emit
  repeat' first
    | with_reducible exact OnlyChanges.refl _ _
    | assumption
    | extract_lets
    | with_reducible refine OnlyChanges.getD (fun _ _ => ?_) ?_
    | with_reducible refine OnlyChanges.foldl (fun _ _ => ?_) ?_
    | split
    | extract_lets +lift
    | with_reducible refine OnlyChanges.foldl_fst (fun _ _ => ?_) ?_
    | with_reducible refine OnlyChanges.foldl_snd (fun _ _ => ?_) ?_
    | with_reducible refine OnlyChanges.of_fst (by assumption) ?_
    | with_reducible refine OnlyChanges.of_snd (by assumption) ?_
    | with_reducible refine OnlyChanges.upd rfl ?_

theorem modIsland_frame (a0 a1 s) : OnlyChanges [.islands] s (modIsland a0 a1 s) := by
  unfold modIsland
  repeat' first
    | with_reducible exact OnlyChanges.refl _ _
    | assumption
    | extract_lets
    | with_reducible refine OnlyChanges.getD (fun _ _ => ?_) ?_
    | with_reducible refine OnlyChanges.foldl (fun _ _ => ?_) ?_
    | split
    | extract_lets +lift
    | with_reducible refine OnlyChanges.foldl_fst (fun _ _ => ?_) ?_
    | with_reducible refine OnlyChanges.foldl_snd (fun _ _ => ?_) ?_
    | with_reducible refine OnlyChanges.of_fst (by assumption) ?_
    | with_reducible refine OnlyChanges.of_snd (by assumption) ?_
    | with_reducible refine OnlyChanges.upd rfl ?_

theorem modLane_frame (a0 a1 s) : OnlyChanges [.lanes] s (modLane a0 a1 s) := by
  unfold modLane
  repeat' first
    | with_reducible exact OnlyChanges.refl _ _
    | assumption
    | extract_lets
    | with_reducible refine OnlyChanges.getD (fun _ _ => ?_) ?_
    | with_reducible refine OnlyChanges.foldl (fun _ _ => ?_) ?_
    | split
    | extract_lets +lift
    | with_reducible refine OnlyChanges.foldl_fst (fun _ _ => ?_) ?_
    | with_reducible refine OnlyChanges.foldl_snd (fun _ _ => ?_) ?_
    | with_reducible refine OnlyChanges.of_fst (by assumption) ?_
    | with_reducible refine OnlyChanges.of_snd (by assumption) ?_
    | with_reducible refine OnlyChanges.upd rfl ?_

theorem modPort_frame (a0 a1 s) : OnlyChanges [.ports] s (modPort a0 a1 s) := by
  unfold modPort
  repeat' first
    | with_reducible exact OnlyChanges.refl _ _
    | assumption
    | extract_lets
    | with_reducible refine OnlyChanges.getD (fun _ _ => ?_) ?_
    | with_reducible refine OnlyChanges.foldl (fun _ _ => ?_) ?_
    | split
    | extract_lets +lift
    | with_reducible refine OnlyChanges.foldl_fst (fun _ _ => ?_) ?_
    | with_reducible refine OnlyChanges.foldl_snd (fun _ _ => ?_) ?_
    | with_reducible refine OnlyChanges.of_fst (by assumption) ?_
    | with_reducible refine OnlyChanges.of_snd (by assumption) ?_
    | with_reducible refine OnlyChanges.upd rfl ?_

theorem modSlice_frame (a0 a1 s) : OnlyChanges [.tables] s (modSlice a0 a1 s) := by
  unfold modSlice
  repeat' first
    | with_reducible exact OnlyChanges.refl _ _
    | assumption
    | extract_lets
    | with_reducible refine OnlyChanges.getD (fun _ _ => ?_) ?_
    | with_reducible refine OnlyChanges.foldl (fun _ _ => ?_) ?_
    | split
    | extract_lets +lift
    | with_reducible refine OnlyChanges.foldl_fst (fun _ _ => ?_) ?_
    | with_reducible refine OnlyChanges.foldl_snd (fun _ _ => ?_) ?_
    | with_reducible refine OnlyChanges.of_fst (by assumption) ?_
    | with_reducible refine OnlyChanges.of_snd (by assumption) ?_
    | with_reducible refine OnlyChanges.upd rfl ?_

theorem countQuiet_frame (a0 a1 s) : OnlyChanges [.counters] s (countQuiet a0 a1 s) := by
  unfold countQuiet
  repeat' first
    | with_reducible exact OnlyChanges.refl _ _
    | assumption
    | extract_lets
    | with_reducible refine OnlyChanges.getD (fun _ _ => ?_) ?_
    | with_reducible refine OnlyChanges.foldl (fun _ _ => ?_) ?_
    | split
    | extract_lets +lift
    | with_reducible refine OnlyChanges.foldl_fst (fun _ _ => ?_) ?_
    | with_reducible refine OnlyChanges.foldl_snd (fun _ _ => ?_) ?_
    | with_reducible refine OnlyChanges.of_fst (by assumption) ?_
    | with_reducible refine OnlyChanges.of_snd (by assumption) ?_
    | with_reducible refine OnlyChanges.upd rfl ?_

theorem alertOf_frame (a0 s) : OnlyChanges [.alert] s (alertOf a0 s) := by
  unfold alertOf
  split
  · exact OnlyChanges.refl _ _
  · exact OnlyChanges.upd rfl (OnlyChanges.refl _ _)

theorem modStart_frame {qs : List Part} {s x : State} (f : StartState → StartState)
    (h : OnlyChanges qs s x)
    (hs : KeptStart qs x.start (f x.start) := by
      (refine KeptStart.lit ?_ ?_ ?_ ?_ ?_ ?_
       · first | exact Or.inl (by decide) | exact Or.inr ⟨rfl, rfl, rfl, rfl, rfl, rfl⟩
       · first | exact Or.inl (by decide) | exact Or.inr rfl
       · first | exact Or.inl (by decide) | exact Or.inr rfl
       · first | exact Or.inl (by decide) | exact Or.inr ⟨rfl, rfl, rfl, rfl, rfl⟩
       · first | exact Or.inl (by decide) | exact Or.inr rfl
       · first | exact Or.inl (by decide) | exact Or.inr rfl))
    (ha : qs.contains .alert = true := by decide +kernel) : OnlyChanges qs s (modStart f x) := by
  unfold modStart alertOf
  have hk : OnlyChanges qs s { x with start := f x.start } := OnlyChanges.upd rfl h (hstart := hs)
  split
  · exact hk
  · refine hk.trans ?_
    refine OnlyChanges.upd rfl (OnlyChanges.refl _ _) (hpower := ?_)
    exact ⟨Or.inl ha, Or.inr ⟨rfl, rfl, rfl, rfl, rfl, rfl, rfl, rfl, rfl, rfl, rfl⟩, Or.inr ⟨rfl, rfl⟩,
      Or.inr ⟨rfl, rfl, rfl, rfl, rfl⟩, Or.inr rfl⟩

theorem beginStoreWrite_kept (st : StartState) : KeptStart [.flash] st (beginStoreWrite st) := by
  unfold beginStoreWrite
  split
  · exact KeptStart.refl _ _
  · split <;> simp [KeptStart]

theorem completeWrite_kept (st : StartState) : KeptStart [.flash] st (completeWrite st) := by
  unfold completeWrite
  split
  · simp [KeptStart]
  · simp [KeptStart]
  · extract_lets
    split
    · exact ⟨Or.inr ⟨rfl, rfl, rfl, rfl, rfl, rfl⟩, Or.inr rfl, Or.inr rfl, Or.inl (by decide), Or.inr rfl, Or.inr rfl⟩
    · rename_i st1 _
      have h := beginStoreWrite_kept st1
      simp [KeptStart] at h ⊢
      exact h
  · exact KeptStart.refl _ _

theorem cutWrite_kept (st : StartState) : KeptStart [.flash] st (cutWrite st) := by
  unfold cutWrite
  split <;> simp [KeptStart]

theorem modConfig_frame (a0 s) : OnlyChanges [.alert, .flash] s (modConfig a0 s) := by
  unfold modConfig
  refine modStart_frame _ (OnlyChanges.refl _ _) (hs := ?_)
  have h := beginStoreWrite_kept { s.start with cfg := a0 s.start.cfg }
  simp [KeptStart] at h ⊢
  exact h

theorem noteLevel_frame (a0 s) : OnlyChanges [.alert, .lastLevel] s (noteLevel a0 s) := by
  unfold noteLevel
  repeat' first
    | with_reducible exact OnlyChanges.refl _ _
    | assumption
    | with_reducible refine modStart_frame _ ?_

theorem modGate_frame (a0 a1 a2 s) : OnlyChanges [.gates] s (modGate a0 a1 a2 s) := by
  unfold modGate
  repeat' first
    | with_reducible exact OnlyChanges.refl _ _
    | assumption
    | extract_lets
    | with_reducible refine OnlyChanges.getD (fun _ _ => ?_) ?_
    | with_reducible refine OnlyChanges.foldl (fun _ _ => ?_) ?_
    | split
    | extract_lets +lift
    | with_reducible refine OnlyChanges.foldl_fst (fun _ _ => ?_) ?_
    | with_reducible refine OnlyChanges.foldl_snd (fun _ _ => ?_) ?_
    | with_reducible refine OnlyChanges.of_fst (by assumption) ?_
    | with_reducible refine OnlyChanges.of_snd (by assumption) ?_
    | with_reducible refine OnlyChanges.upd rfl ?_

theorem spend_frame (a0 a1 a2 s) : OnlyChanges [.gates] s (spend a0 a1 a2 s) := by
  unfold spend
  repeat' first
    | with_reducible exact OnlyChanges.refl _ _
    | assumption
    | with_reducible refine (modGate_frame _ _ _ _).before ?_

theorem startWork_frame (a0 a1 a2 s) : OnlyChanges [.gates] s (startWork a0 a1 a2 s) := by
  unfold startWork
  repeat' first
    | with_reducible exact OnlyChanges.refl _ _
    | assumption
    | with_reducible refine (spend_frame _ _ _ _).before ?_
    | with_reducible refine (modGate_frame _ _ _ _).before ?_
    | extract_lets
    | with_reducible refine OnlyChanges.getD (fun _ _ => ?_) ?_
    | with_reducible refine OnlyChanges.foldl (fun _ _ => ?_) ?_
    | split
    | extract_lets +lift
    | with_reducible refine OnlyChanges.foldl_fst (fun _ _ => ?_) ?_
    | with_reducible refine OnlyChanges.foldl_snd (fun _ _ => ?_) ?_
    | with_reducible refine OnlyChanges.of_fst (by assumption) ?_
    | with_reducible refine OnlyChanges.of_snd (by assumption) ?_
    | with_reducible refine OnlyChanges.upd rfl ?_

theorem crumbDropped_frame (s) : OnlyChanges [.counters, .crumbs] s (crumbDropped s) := by
  unfold crumbDropped
  repeat' first
    | with_reducible exact OnlyChanges.refl _ _
    | assumption
    | with_reducible refine (countQuiet_frame _ _ _).after (by decide) ?_
    | extract_lets
    | with_reducible refine OnlyChanges.getD (fun _ _ => ?_) ?_
    | with_reducible refine OnlyChanges.foldl (fun _ _ => ?_) ?_
    | split
    | extract_lets +lift
    | with_reducible refine OnlyChanges.foldl_fst (fun _ _ => ?_) ?_
    | with_reducible refine OnlyChanges.foldl_snd (fun _ _ => ?_) ?_
    | with_reducible refine OnlyChanges.of_fst (by assumption) ?_
    | with_reducible refine OnlyChanges.of_snd (by assumption) ?_
    | with_reducible refine OnlyChanges.upd rfl ?_

theorem pushCrumb_frame (a0 s) : OnlyChanges [.recoveryLog, .counters, .crumbs] s (pushCrumb a0 s) := by
  unfold pushCrumb
  repeat' first
    | with_reducible exact OnlyChanges.refl _ _
    | assumption
    | with_reducible refine (crumbDropped_frame _).after (by decide) ?_
    | extract_lets
    | with_reducible refine OnlyChanges.getD (fun _ _ => ?_) ?_
    | with_reducible refine OnlyChanges.foldl (fun _ _ => ?_) ?_
    | split
    | extract_lets +lift
    | with_reducible refine OnlyChanges.foldl_fst (fun _ _ => ?_) ?_
    | with_reducible refine OnlyChanges.foldl_snd (fun _ _ => ?_) ?_
    | with_reducible refine OnlyChanges.of_fst (by assumption) ?_
    | with_reducible refine OnlyChanges.of_snd (by assumption) ?_
    | with_reducible refine OnlyChanges.upd rfl ?_

theorem crumb_frame (a0 a1 a2 a3 s) : OnlyChanges [.recoveryLog, .counters, .crumbs] s (crumb a0 a1 a2 a3 s) := by
  unfold crumb
  repeat' first
    | with_reducible exact OnlyChanges.refl _ _
    | assumption
    | with_reducible refine (pushCrumb_frame _ _).before ?_

theorem traceCrumb_frame (a0 a1 a2 a3 a4 s) : OnlyChanges [.recoveryLog, .counters, .crumbs] s (traceCrumb a0 a1 a2
    a3 a4 s) := by
  unfold traceCrumb
  repeat' first
    | with_reducible exact OnlyChanges.refl _ _
    | assumption
    | with_reducible refine (pushCrumb_frame _ _).before ?_
    | extract_lets
    | with_reducible refine OnlyChanges.getD (fun _ _ => ?_) ?_
    | with_reducible refine OnlyChanges.foldl (fun _ _ => ?_) ?_
    | split

theorem staleCrumb_frame (a0 a1 a2 s) : OnlyChanges [.alert, .lastLevel, .recoveryLog, .counters, .crumbs] s
    (staleCrumb a0 a1 a2 s) := by
  unfold staleCrumb
  repeat' first
    | with_reducible exact OnlyChanges.refl _ _
    | assumption
    | with_reducible refine (crumb_frame _ _ _ _ _).after (by decide) ?_
    | with_reducible refine (noteLevel_frame _ _).after (by decide) ?_
    | extract_lets
    | with_reducible refine OnlyChanges.getD (fun _ _ => ?_) ?_
    | with_reducible refine OnlyChanges.foldl (fun _ _ => ?_) ?_
    | split

theorem graceCrumb_frame (a0 a1 a2 s) : OnlyChanges [.recoveryLog, .counters, .crumbs] s (graceCrumb a0 a1 a2 s) :=
    by
  unfold graceCrumb
  repeat' first
    | with_reducible exact OnlyChanges.refl _ _
    | assumption
    | with_reducible refine (crumb_frame _ _ _ _ _).before ?_

theorem modMailbox_frame (a0 a1 s) : OnlyChanges [.mailboxes] s (modMailbox a0 a1 s) := by
  unfold modMailbox
  repeat' first
    | with_reducible exact OnlyChanges.refl _ _
    | assumption
    | extract_lets
    | with_reducible refine OnlyChanges.getD (fun _ _ => ?_) ?_
    | with_reducible refine OnlyChanges.foldl (fun _ _ => ?_) ?_
    | split
    | extract_lets +lift
    | with_reducible refine OnlyChanges.foldl_fst (fun _ _ => ?_) ?_
    | with_reducible refine OnlyChanges.foldl_snd (fun _ _ => ?_) ?_
    | with_reducible refine OnlyChanges.of_fst (by assumption) ?_
    | with_reducible refine OnlyChanges.of_snd (by assumption) ?_
    | with_reducible refine OnlyChanges.upd rfl ?_

theorem modEventQueue_frame (a0 a1 s) : OnlyChanges [.events] s (modEventQueue a0 a1 s) := by
  unfold modEventQueue
  repeat' first
    | with_reducible exact OnlyChanges.refl _ _
    | assumption
    | extract_lets
    | with_reducible refine OnlyChanges.getD (fun _ _ => ?_) ?_
    | with_reducible refine OnlyChanges.foldl (fun _ _ => ?_) ?_
    | split
    | extract_lets +lift
    | with_reducible refine OnlyChanges.foldl_fst (fun _ _ => ?_) ?_
    | with_reducible refine OnlyChanges.foldl_snd (fun _ _ => ?_) ?_
    | with_reducible refine OnlyChanges.of_fst (by assumption) ?_
    | with_reducible refine OnlyChanges.of_snd (by assumption) ?_
    | with_reducible refine OnlyChanges.upd rfl ?_

theorem queueEvent_frame (a0 a1 s) : OnlyChanges [.events, .counters] s (queueEvent a0 a1 s) := by
  unfold queueEvent
  repeat' first
    | with_reducible exact OnlyChanges.refl _ _
    | assumption
    | with_reducible refine (modEventQueue_frame _ _ _).after (by decide) ?_
    | with_reducible refine (countQuiet_frame _ _ _).after (by decide) ?_
    | extract_lets
    | with_reducible refine OnlyChanges.getD (fun _ _ => ?_) ?_
    | with_reducible refine OnlyChanges.foldl (fun _ _ => ?_) ?_
    | split

theorem raiseAt_frame (a0 a1 a2 a3 s) : OnlyChanges [.recoveryLog, .events, .counters, .crumbs] s (raiseAt a0 a1 a2
    a3 s) := by
  unfold raiseAt
  repeat' first
    | with_reducible exact OnlyChanges.refl _ _
    | assumption
    | with_reducible refine (crumb_frame _ _ _ _ _).after (by decide) ?_
    | with_reducible refine (queueEvent_frame _ _ _).after (by decide) ?_
    | extract_lets
    | with_reducible refine OnlyChanges.getD (fun _ _ => ?_) ?_
    | with_reducible refine OnlyChanges.foldl (fun _ _ => ?_) ?_

theorem raise15_frame (a0 a1 s) : OnlyChanges [.recoveryLog, .events, .counters, .crumbs] s (raise15 a0 a1 s) := by
  unfold raise15
  repeat' first
    | with_reducible exact OnlyChanges.refl _ _
    | assumption
    | with_reducible refine (raiseAt_frame _ _ _ _ _).before ?_

theorem raise31_frame (a0 a1 s) : OnlyChanges [.recoveryLog, .events, .counters, .crumbs] s (raise31 a0 a1 s) := by
  unfold raise31
  repeat' first
    | with_reducible exact OnlyChanges.refl _ _
    | assumption
    | with_reducible refine (raiseAt_frame _ _ _ _ _).before ?_

theorem raiseBoth_frame (a0 a1 s) : OnlyChanges [.recoveryLog, .events, .counters, .crumbs] s (raiseBoth a0 a1 s)
    := by
  unfold raiseBoth
  repeat' first
    | with_reducible exact OnlyChanges.refl _ _
    | assumption
    | with_reducible refine (raiseAt_frame _ _ _ _ _).before ?_

theorem raiseOwner_frame (a0 a1 a2 a3 s) : OnlyChanges [.recoveryLog, .events, .counters, .crumbs] s (raiseOwner a0
    a1 a2 a3 s) := by
  unfold raiseOwner
  repeat' first
    | with_reducible exact OnlyChanges.refl _ _
    | assumption
    | with_reducible refine (raiseAt_frame _ _ _ _ _).before ?_
    | extract_lets
    | with_reducible refine OnlyChanges.getD (fun _ _ => ?_) ?_
    | with_reducible refine OnlyChanges.foldl (fun _ _ => ?_) ?_
    | split

theorem count_frame (a0 a1 s) : OnlyChanges [.recoveryLog, .events, .counters, .crumbs] s (count a0 a1 s) := by
  unfold count
  repeat' first
    | with_reducible exact OnlyChanges.refl _ _
    | assumption
    | with_reducible refine (raiseBoth_frame _ _ _).before ?_
    | with_reducible refine (countQuiet_frame _ _ _).after (by decide) ?_
    | extract_lets
    | with_reducible refine OnlyChanges.getD (fun _ _ => ?_) ?_
    | with_reducible refine OnlyChanges.foldl (fun _ _ => ?_) ?_
    | split

theorem countDrop_frame (a0 a1 s) : OnlyChanges [.recoveryLog, .events, .counters, .crumbs] s (countDrop a0 a1 s)
    := by
  unfold countDrop
  repeat' first
    | with_reducible exact OnlyChanges.refl _ _
    | assumption
    | with_reducible refine (count_frame _ _ _).before ?_

theorem countLane_frame (a0 a1 s) : OnlyChanges [.recoveryLog, .events, .counters, .crumbs] s (countLane a0 a1 s)
    := by
  unfold countLane
  repeat' first
    | with_reducible exact OnlyChanges.refl _ _
    | assumption
    | with_reducible refine (count_frame _ _ _).before ?_

theorem countPort_frame (a0 a1 a2 s) : OnlyChanges [.recoveryLog, .events, .counters, .crumbs] s (countPort a0 a1
    a2 s) := by
  unfold countPort
  repeat' first
    | with_reducible exact OnlyChanges.refl _ _
    | assumption
    | with_reducible refine (count_frame _ _ _).before ?_

theorem countQueue_frame (a0 a1 a2 a3 s) : OnlyChanges [.recoveryLog, .events, .counters, .crumbs] s (countQueue a0
    a1 a2 a3 s) := by
  unfold countQueue
  repeat' first
    | with_reducible exact OnlyChanges.refl _ _
    | assumption
    | with_reducible refine (count_frame _ _ _).before ?_

theorem countSlice_frame (a0 a1 s) : OnlyChanges [.recoveryLog, .events, .counters, .crumbs] s (countSlice a0 a1 s)
    := by
  unfold countSlice
  repeat' first
    | with_reducible exact OnlyChanges.refl _ _
    | assumption
    | with_reducible refine (count_frame _ _ _).before ?_

theorem countControl_frame (a0 s) : OnlyChanges [.recoveryLog, .events, .counters, .crumbs] s (countControl a0 s)
    := by
  unfold countControl
  repeat' first
    | with_reducible exact OnlyChanges.refl _ _
    | assumption
    | with_reducible refine (count_frame _ _ _).before ?_

theorem countMgmt_frame (a0 a1 s) : OnlyChanges [.recoveryLog, .events, .counters, .crumbs] s (countMgmt a0 a1 s)
    := by
  unfold countMgmt
  repeat' first
    | with_reducible exact OnlyChanges.refl _ _
    | assumption
    | with_reducible refine (count_frame _ _ _).before ?_

theorem countMailbox_frame (a0 a1 s) : OnlyChanges [.recoveryLog, .events, .counters, .crumbs] s (countMailbox a0
    a1 s) := by
  unfold countMailbox
  repeat' first
    | with_reducible exact OnlyChanges.refl _ _
    | assumption
    | with_reducible refine (count_frame _ _ _).before ?_

theorem countTx_frame (a0 a1 s) : OnlyChanges [.recoveryLog, .events, .counters, .crumbs] s (countTx a0 a1 s) := by
  unfold countTx
  repeat' first
    | with_reducible exact OnlyChanges.refl _ _
    | assumption
    | with_reducible refine (count_frame _ _ _).before ?_

theorem emitResponse_frame (a0 a1 a2 s) : OnlyChanges [.recoveryLog, .events, .counters, .crumbs, .out] s
    (emitResponse a0 a1 a2 s) := by
  unfold emitResponse
  repeat' first
    | with_reducible exact OnlyChanges.refl _ _
    | assumption
    | with_reducible refine (emit_frame _ _).after (by decide) ?_
    | with_reducible refine (countTx_frame _ _ _).after (by decide) ?_
    | extract_lets
    | with_reducible refine OnlyChanges.getD (fun _ _ => ?_) ?_
    | with_reducible refine OnlyChanges.foldl (fun _ _ => ?_) ?_
    | split

theorem sendResponse_frame (a0 a1 s) : OnlyChanges [.recoveryLog, .events, .mailboxes, .counters, .crumbs, .out] s
    (sendResponse a0 a1 s) := by
  unfold sendResponse
  repeat' first
    | with_reducible exact OnlyChanges.refl _ _
    | assumption
    | with_reducible refine (emitResponse_frame _ _ _ _).after (by decide) ?_
    | with_reducible refine (modMailbox_frame _ _ _).after (by decide) ?_
    | extract_lets
    | with_reducible refine OnlyChanges.getD (fun _ _ => ?_) ?_
    | with_reducible refine OnlyChanges.foldl (fun _ _ => ?_) ?_
    | split

theorem countFilter_frame (a0 a1 a2 a3 a4 s) : OnlyChanges [.recoveryLog, .events, .counters, .crumbs] s
    (countFilter a0 a1 a2 a3 a4 s) := by
  unfold countFilter
  repeat' first
    | with_reducible exact OnlyChanges.refl _ _
    | assumption
    | with_reducible refine (count_frame _ _ _).before ?_

theorem filterCommand_frame (a0 a1 s) : OnlyChanges [.recoveryLog, .events, .counters, .crumbs] s (filterCommand a0
    a1 s) := by
  unfold filterCommand
  repeat' first
    | with_reducible exact OnlyChanges.refl _ _
    | assumption
    | with_reducible refine (countFilter_frame _ _ _ _ _ _).before ?_
    | extract_lets
    | with_reducible refine OnlyChanges.getD (fun _ _ => ?_) ?_
    | with_reducible refine OnlyChanges.foldl (fun _ _ => ?_) ?_
    | split

theorem countStatus_frame (a0 a1 s) : OnlyChanges [.recoveryLog, .events, .counters, .crumbs] s (countStatus a0 a1
    s) := by
  unfold countStatus
  repeat' first
    | with_reducible exact OnlyChanges.refl _ _
    | assumption
    | with_reducible refine (countMailbox_frame _ _ _).before ?_
    | extract_lets
    | with_reducible refine OnlyChanges.getD (fun _ _ => ?_) ?_
    | with_reducible refine OnlyChanges.foldl (fun _ _ => ?_) ?_
    | split

theorem reject_frame (a0 a1 a2 a3 s) : OnlyChanges [.recoveryLog, .events, .mailboxes, .counters, .crumbs, .out] s
    (reject a0 a1 a2 a3 s) := by
  unfold reject
  repeat' first
    | with_reducible exact OnlyChanges.refl _ _
    | assumption
    | with_reducible refine (sendResponse_frame _ _ _).before ?_
    | with_reducible refine (countStatus_frame _ _ _).after (by decide) ?_

theorem takeSeq_frame (a0 s) : OnlyChanges [.recoveryLog, .events, .mailboxes, .counters, .crumbs] s (takeSeq a0 s)
    := by
  unfold takeSeq
  repeat' first
    | with_reducible exact OnlyChanges.refl _ _
    | assumption
    | with_reducible refine (countMailbox_frame _ _ _).after (by decide) ?_
    | with_reducible refine (modMailbox_frame _ _ _).after (by decide) ?_

theorem freeCore_frame (a0 s) : OnlyChanges [.mailboxes] s (freeCore a0 s) := by
  unfold freeCore
  repeat' first
    | with_reducible exact OnlyChanges.refl _ _
    | assumption
    | extract_lets
    | with_reducible refine OnlyChanges.getD (fun _ _ => ?_) ?_
    | with_reducible refine OnlyChanges.foldl (fun _ _ => ?_) ?_
    | split
    | extract_lets +lift
    | with_reducible refine OnlyChanges.foldl_fst (fun _ _ => ?_) ?_
    | with_reducible refine OnlyChanges.foldl_snd (fun _ _ => ?_) ?_
    | with_reducible refine OnlyChanges.of_fst (by assumption) ?_
    | with_reducible refine OnlyChanges.of_snd (by assumption) ?_
    | with_reducible refine OnlyChanges.upd rfl ?_

theorem answer_frame (a0 a1 a2 a3 s) : OnlyChanges [.recoveryLog, .events, .mailboxes, .counters, .crumbs, .out] s
    (answer a0 a1 a2 a3 s) := by
  unfold answer
  repeat' first
    | with_reducible exact OnlyChanges.refl _ _
    | assumption
    | with_reducible refine (modMailbox_frame _ _ _).after (by decide) ?_
    | with_reducible refine (freeCore_frame _ _).after (by decide) ?_
    | with_reducible refine (traceCrumb_frame _ _ _ _ _ _).after (by decide) ?_
    | with_reducible refine (sendResponse_frame _ _ _).before ?_
    | with_reducible refine (countStatus_frame _ _ _).after (by decide) ?_

theorem finish_frame (a0 a1 a2 s) : OnlyChanges [.recoveryLog, .events, .mailboxes, .counters, .crumbs, .out] s
    (finish a0 a1 a2 s) := by
  unfold finish
  repeat' first
    | with_reducible exact OnlyChanges.refl _ _
    | assumption
    | with_reducible refine (answer_frame _ _ _ _ _).before ?_
    | extract_lets
    | with_reducible refine OnlyChanges.getD (fun _ _ => ?_) ?_
    | with_reducible refine OnlyChanges.foldl (fun _ _ => ?_) ?_
    | split

theorem sendAccepted_frame (a0 a1 s) : OnlyChanges [.recoveryLog, .events, .mailboxes, .counters, .crumbs, .out] s
    (sendAccepted a0 a1 s) := by
  unfold sendAccepted
  repeat' first
    | with_reducible exact OnlyChanges.refl _ _
    | assumption
    | with_reducible refine (reject_frame _ _ _ _ _).before ?_

theorem accept_frame (a0 a1 a2 a3 s) : OnlyChanges [.recoveryLog, .events, .mailboxes, .counters, .crumbs, .out] s
    (accept a0 a1 a2 a3 s) := by
  unfold accept
  repeat' first
    | with_reducible exact OnlyChanges.refl _ _
    | assumption
    | with_reducible refine (freeCore_frame _ _).after (by decide) ?_
    | with_reducible refine (modMailbox_frame _ _ _).after (by decide) ?_
    | with_reducible refine (sendAccepted_frame _ _ _).before ?_
    | extract_lets
    | with_reducible refine OnlyChanges.getD (fun _ _ => ?_) ?_
    | with_reducible refine OnlyChanges.foldl (fun _ _ => ?_) ?_
    | split

theorem commitCommand_frame {qs : List Part} (a0 a1 body s) (hb : CmdChanges qs s (body s))
    (hq : [.recoveryLog, .events, .mailboxes, .counters, .crumbs, .out].all qs.contains = true := by decide +kernel) :
    OnlyChanges qs s (commitCommand a0 a1 body s) := by
  unfold commitCommand
  revert hb
  cases body s with
  | done st ws t =>
    intro hb
    dsimp only
    split
    · exact (answer_frame _ _ _ _ _).after hq hb
    · exact (answer_frame _ _ _ _ _).after hq (OnlyChanges.refl _ _)
  | fails st t => exact fun hb => (answer_frame _ _ _ _ _).after hq hb
  | later t => exact fun hb => (accept_frame _ _ _ _ _).after hq hb
  | soon t => exact fun hb => (accept_frame _ _ _ _ _).after hq hb
  | laterGrace g t => exact fun hb => (accept_frame _ _ _ _ _).after hq hb

theorem runCommand_frame {qs : List Part} (a0 a1 s) {body : State → CmdOutcome} (hb : ∀ x, CmdChanges qs x (body x))
    (hq : [.recoveryLog, .events, .mailboxes, .counters, .crumbs, .out].all qs.contains = true := by decide +kernel) :
    OnlyChanges qs s (runCommand a0 a1 body s) := by
  have hr : ∀ st ws x, OnlyChanges qs s x → OnlyChanges qs s (reject a0 a1 st ws x) := fun st ws x h =>
    ((reject_frame _ _ _ _ _).mono (by decide)).after hq h
  have hf : OnlyChanges qs s (filterCommand a0 a1 s) :=
    ((filterCommand_frame _ _ _).mono (by decide)).after hq (OnlyChanges.refl _ _)
  have hc : ∀ x, OnlyChanges qs s x → OnlyChanges qs s (commitCommand a0 a1 body x) := fun x h =>
    h.trans (commitCommand_frame a0 a1 body x (hb x) hq)
  unfold runCommand
  split
  · exact OnlyChanges.refl _ _
  · split
    · exact hr _ _ _ hf
    · split
      · split
        · exact hc _ (OnlyChanges.refl _ _)
        · exact ((sendAccepted_frame _ _ _).mono (by decide)).after hq (OnlyChanges.refl _ _)
      · split
        · exact ((sendResponse_frame _ _ _).mono (by decide)).after hq (OnlyChanges.refl _ _)
        · split
          · exact hr _ _ _ (OnlyChanges.refl _ _)
          · extract_lets
            split
            · exact hr _ _ _ hf
            · exact hc _ (((takeSeq_frame _ _).mono (by decide)).after hq hf)

end Sys2Proof.Machine
end

