-- ==== Sys2Proof/Laws/FrameFlags.lean ====
section
/-! SUPPORT. What the operations of Machine/Flags.lean leave unchanged. -/

set_option Elab.async false

namespace Sys2Proof.Machine

theorem modFibre_frame (a0 a1 s) : OnlyChanges [.fibres] s (modFibre a0 a1 s) := by
  unfold modFibre
  repeat' first
    | with_reducible exact OnlyChanges.refl _ _
    | assumption
    | extract_lets
    | with_reducible refine OnlyChanges.getD (fun _ _ => ?_) ?_
    | with_reducible refine OnlyChanges.foldl (fun _ _ => ?_) ?_
    | split
    | extract_lets +lift
    | with_reducible refine OnlyChanges.foldl_fst (fun _ _ => ?_) ?_
    | with_reducible refine OnlyChanges.foldl_snd (fun _ _ => ?_) ?_
    | with_reducible refine OnlyChanges.of_fst (by assumption) ?_
    | with_reducible refine OnlyChanges.of_snd (by assumption) ?_
    | with_reducible refine OnlyChanges.upd rfl ?_

end Sys2Proof.Machine
end

