-- ==== Sys2Proof/Laws/FrameRoute.lean ====
section
/-! SUPPORT. What the operations of Machine/Route.lean leave unchanged. -/

set_option Elab.async false

namespace Sys2Proof.Machine

theorem tellParity_frame (a0 a1 a2 s) : OnlyChanges [.recoveryLog, .tables, .events, .counters, .crumbs] s
    (tellParity a0 a1 a2 s) := by
  unfold tellParity
  repeat' first
    | with_reducible exact OnlyChanges.refl _ _
    | assumption
    | with_reducible refine (raiseBoth_frame _ _ _).after (by decide) ?_
    | with_reducible refine (countSlice_frame _ _ _).after (by decide) ?_
    | with_reducible refine (modSlice_frame _ _ _).after (by decide) ?_
    | extract_lets
    | with_reducible refine OnlyChanges.getD (fun _ _ => ?_) ?_
    | with_reducible refine OnlyChanges.foldl (fun _ _ => ?_) ?_
    | split

theorem huskParity_frame (a0 a1 s) : OnlyChanges [.recoveryLog, .tables, .events, .counters, .crumbs] s (huskParity
    a0 a1 s) := by
  unfold huskParity
  repeat' first
    | with_reducible exact OnlyChanges.refl _ _
    | assumption
    | with_reducible refine (tellParity_frame _ _ _ _).before ?_
    | extract_lets
    | with_reducible refine OnlyChanges.getD (fun _ _ => ?_) ?_
    | with_reducible refine OnlyChanges.foldl (fun _ _ => ?_) ?_
    | split

theorem lookupTouch_frame (a0 a1 s) : OnlyChanges [.recoveryLog, .tables, .events, .counters, .crumbs] s
    (lookupTouch a0 a1 s) := by
  unfold lookupTouch
  repeat' first
    | with_reducible exact OnlyChanges.refl _ _
    | assumption
    | with_reducible refine (countSlice_frame _ _ _).after (by decide) ?_
    | with_reducible refine (huskParity_frame _ _ _).before ?_
    | with_reducible refine (modSlice_frame _ _ _).after (by decide) ?_
    | with_reducible refine (tellParity_frame _ _ _ _).before ?_
    | extract_lets
    | with_reducible refine OnlyChanges.getD (fun _ _ => ?_) ?_
    | with_reducible refine OnlyChanges.foldl (fun _ _ => ?_) ?_
    | split

end Sys2Proof.Machine
end

