-- ==== Sys2Proof/Laws/FrameBound.lean ====
section
/-! SUPPORT. What the operations of Machine/Bound.lean leave unchanged. -/

set_option Elab.async false

namespace Sys2Proof.Machine

theorem recheckBarriers_frame (s) : OnlyChanges [.recoveryLog, .groups, .events, .counters, .crumbs] s
    (recheckBarriers s) := by
  unfold recheckBarriers
  repeat' first
    | with_reducible exact OnlyChanges.refl _ _
    | assumption
    | with_reducible refine (raise31_frame _ _ _).after (by decide) ?_
    | extract_lets
    | with_reducible refine OnlyChanges.getD (fun _ _ => ?_) ?_
    | with_reducible refine OnlyChanges.foldl (fun _ _ => ?_) ?_
    | split
    | extract_lets +lift
    | with_reducible refine OnlyChanges.foldl_fst (fun _ _ => ?_) ?_
    | with_reducible refine OnlyChanges.foldl_snd (fun _ _ => ?_) ?_
    | with_reducible refine OnlyChanges.of_fst (by assumption) ?_
    | with_reducible refine OnlyChanges.of_snd (by assumption) ?_
    | with_reducible refine OnlyChanges.upd rfl ?_

theorem tellNeighbours_frame (s) : OnlyChanges [.recoveryLog, .events, .neighbours, .counters, .crumbs] s
    (tellNeighbours s) := by
  unfold tellNeighbours
  repeat' first
    | with_reducible exact OnlyChanges.refl _ _
    | assumption
    | with_reducible refine (raise31_frame _ _ _).after (by decide) ?_
    | extract_lets
    | with_reducible refine OnlyChanges.getD (fun _ _ => ?_) ?_
    | with_reducible refine OnlyChanges.foldl (fun _ _ => ?_) ?_
    | split
    | extract_lets +lift
    | with_reducible refine OnlyChanges.foldl_fst (fun _ _ => ?_) ?_
    | with_reducible refine OnlyChanges.foldl_snd (fun _ _ => ?_) ?_
    | with_reducible refine OnlyChanges.of_fst (by assumption) ?_
    | with_reducible refine OnlyChanges.of_snd (by assumption) ?_
    | with_reducible refine OnlyChanges.upd rfl ?_

theorem noteEntry_frame (a0 a1 s) : OnlyChanges [.recoveryLog, .groups, .events, .neighbours, .counters, .crumbs] s
    (noteEntry a0 a1 s) := by
  unfold noteEntry
  repeat' first
    | with_reducible exact OnlyChanges.refl _ _
    | assumption
    | with_reducible refine (recheckBarriers_frame _).after (by decide) ?_
    | with_reducible refine (tellNeighbours_frame _).after (by decide) ?_
    | extract_lets
    | with_reducible refine OnlyChanges.getD (fun _ _ => ?_) ?_
    | with_reducible refine OnlyChanges.foldl (fun _ _ => ?_) ?_
    | split
    | extract_lets +lift
    | with_reducible refine OnlyChanges.foldl_fst (fun _ _ => ?_) ?_
    | with_reducible refine OnlyChanges.foldl_snd (fun _ _ => ?_) ?_
    | with_reducible refine OnlyChanges.of_fst (by assumption) ?_
    | with_reducible refine OnlyChanges.of_snd (by assumption) ?_
    | with_reducible refine OnlyChanges.upd rfl ?_

end Sys2Proof.Machine
end

