-- ==== Sys2Proof/Laws/FrameBuffer.lean ====
section
/-! SUPPORT. What the operations of Machine/Buffer.lean leave unchanged. -/

set_option Elab.async false

namespace Sys2Proof.Machine

theorem modBuf_frame {qs : List Part} {s x : State} (f : BufState → BufState) (h : OnlyChanges qs s x)
    (hk : KeptBuf qs x.buf (f x.buf) := by
      (refine KeptBuf.lit ?_ ?_ ?_ ?_ ?_
       · first | exact Or.inl (by decide) | exact Or.inr ⟨rfl, rfl⟩
       · first | exact Or.inl (by decide) | exact Or.inr ⟨rfl, rfl, rfl, rfl, rfl, rfl, rfl⟩
       · first | exact Or.inl (by decide) | exact Or.inr ⟨rfl, rfl, rfl, rfl, rfl, rfl, rfl⟩
       · first | exact Or.inl (by decide) | exact Or.inr ⟨rfl, rfl⟩
       · first | exact Or.inl (by decide) | exact Or.inr ⟨rfl, rfl, rfl⟩)) : OnlyChanges qs s (modBuf f x) :=
  OnlyChanges.upd rfl h (hbuf := hk)

theorem modStored_frame (a0 a1 s) : OnlyChanges [.packets] s (modStored a0 a1 s) := by
  unfold modStored
  repeat' first
    | with_reducible exact OnlyChanges.refl _ _
    | assumption
    | with_reducible refine modBuf_frame _ ?_
    | extract_lets
    | with_reducible refine OnlyChanges.getD (fun _ _ => ?_) ?_
    | with_reducible refine OnlyChanges.foldl (fun _ _ => ?_) ?_
    | split

theorem chargeShared_frame (a0 a1 s) : OnlyChanges [.room] s (chargeShared a0 a1 s) := by
  unfold chargeShared
  repeat' first
    | with_reducible exact OnlyChanges.refl _ _
    | assumption
    | with_reducible refine modBuf_frame _ ?_

theorem releaseShared_frame (a0 a1 s) : OnlyChanges [.room] s (releaseShared a0 a1 s) := by
  unfold releaseShared
  repeat' first
    | with_reducible exact OnlyChanges.refl _ _
    | assumption
    | with_reducible refine modBuf_frame _ ?_

theorem chargeHeadroom_frame (a0 a1 a2 s) : OnlyChanges [.room] s (chargeHeadroom a0 a1 a2 s) := by
  unfold chargeHeadroom
  repeat' first
    | with_reducible exact OnlyChanges.refl _ _
    | assumption
    | with_reducible refine modBuf_frame _ ?_

theorem releaseHeadroom_frame (a0 a1 a2 s) : OnlyChanges [.ports, .room] s (releaseHeadroom a0 a1 a2 s) := by
  unfold releaseHeadroom
  repeat' first
    | with_reducible exact OnlyChanges.refl _ _
    | assumption
    | with_reducible refine (modPort_frame _ _ _).after (by decide) ?_
    | with_reducible refine modBuf_frame _ ?_

theorem admitCells_frame (a0 a1 s) : OnlyChanges [.room] s (admitCells a0 a1 s).1 := by
  fun_induction admitCells a0 a1 s
  all_goals
  repeat' first
    | with_reducible exact OnlyChanges.refl _ _
    | assumption
    | with_reducible refine (chargeShared_frame _ _ _).before ?_
    | extract_lets
    | with_reducible refine OnlyChanges.getD (fun _ _ => ?_) ?_
    | with_reducible refine OnlyChanges.foldl (fun _ _ => ?_) ?_
    | split
    | extract_lets +lift
    | with_reducible refine OnlyChanges.foldl_fst (fun _ _ => ?_) ?_
    | with_reducible refine OnlyChanges.foldl_snd (fun _ _ => ?_) ?_
    | with_reducible refine OnlyChanges.of_fst (by assumption) ?_
    | with_reducible refine OnlyChanges.of_snd (by assumption) ?_
    | with_reducible refine OnlyChanges.trans ?_ (by assumption)

theorem retestQueue_frame (a0 s) : OnlyChanges [.ports, .packets, .room] s (retestQueue a0 s) := by
  unfold retestQueue
  repeat' first
    | with_reducible exact OnlyChanges.refl _ _
    | assumption
    | with_reducible refine (admitCells_frame _ _ _).after (by decide) ?_
    | with_reducible refine (modStored_frame _ _ _).after (by decide) ?_
    | with_reducible refine (releaseHeadroom_frame _ _ _ _).after (by decide) ?_
    | extract_lets
    | with_reducible refine OnlyChanges.getD (fun _ _ => ?_) ?_
    | with_reducible refine OnlyChanges.foldl (fun _ _ => ?_) ?_
    | split
    | extract_lets +lift
    | with_reducible refine OnlyChanges.foldl_fst (fun _ _ => ?_) ?_
    | with_reducible refine OnlyChanges.foldl_snd (fun _ _ => ?_) ?_
    | with_reducible refine OnlyChanges.of_fst (by assumption) ?_

theorem freePacket_frame (a0 s) : OnlyChanges [.ports, .packets, .queues, .room] s (freePacket a0 s) := by
  unfold freePacket
  repeat' first
    | with_reducible exact OnlyChanges.refl _ _
    | assumption
    | with_reducible refine modBuf_frame _ ?_
    | with_reducible refine (releaseShared_frame _ _ _).after (by decide) ?_
    | with_reducible refine (releaseHeadroom_frame _ _ _ _).after (by decide) ?_
    | with_reducible refine (retestQueue_frame _ _).after (by decide) ?_
    | extract_lets
    | with_reducible refine OnlyChanges.getD (fun _ _ => ?_) ?_
    | with_reducible refine OnlyChanges.foldl (fun _ _ => ?_) ?_
    | split
    | extract_lets +lift
    | with_reducible refine OnlyChanges.foldl_fst (fun _ _ => ?_) ?_
    | with_reducible refine OnlyChanges.foldl_snd (fun _ _ => ?_) ?_
    | with_reducible refine OnlyChanges.of_fst (by assumption) ?_
    | with_reducible refine OnlyChanges.of_snd (by assumption) ?_
    | fail_if_no_progress (with_reducible refine OnlyChanges.upd rfl ?_)
    | dsimp +zetaDelta only []

theorem dropCopy_frame (a0 s) : OnlyChanges [.ports, .packets, .queues, .room] s (dropCopy a0 s) := by
  unfold dropCopy
  repeat' first
    | with_reducible exact OnlyChanges.refl _ _
    | assumption
    | with_reducible refine (freePacket_frame _ _).before ?_
    | with_reducible refine (modStored_frame _ _ _).after (by decide) ?_
    | extract_lets
    | with_reducible refine OnlyChanges.getD (fun _ _ => ?_) ?_
    | with_reducible refine OnlyChanges.foldl (fun _ _ => ?_) ?_
    | split

theorem setVoq_frame (a0 a1 s) : OnlyChanges [.queues] s (setVoq a0 a1 s) := by
  unfold setVoq
  repeat' first
    | with_reducible exact OnlyChanges.refl _ _
    | assumption
    | with_reducible refine modBuf_frame _ ?_

theorem modEntries_frame (a0 a1 s) : OnlyChanges [.queues] s (modEntries a0 a1 s) := by
  unfold modEntries
  repeat' first
    | with_reducible exact OnlyChanges.refl _ _
    | assumption
    | with_reducible refine modBuf_frame _ ?_

theorem decEntry_frame (a0 a1 s) : OnlyChanges [.queues] s (decEntry a0 a1 s) := by
  unfold decEntry
  repeat' first
    | with_reducible exact OnlyChanges.refl _ _
    | assumption
    | with_reducible refine (modEntries_frame _ _ _).before ?_

theorem enqueueCopy_frame (a0 a1 a2 a3 a4 s) : OnlyChanges [.recoveryLog, .queues, .events, .counters, .crumbs] s
    (enqueueCopy a0 a1 a2 a3 a4 s) := by
  unfold enqueueCopy
  repeat' first
    | with_reducible exact OnlyChanges.refl _ _
    | assumption
    | with_reducible refine (setVoq_frame _ _ _).after (by decide) ?_
    | with_reducible refine (modEntries_frame _ _ _).after (by decide) ?_
    | with_reducible refine (countQueue_frame _ _ _ _ _).after (by decide) ?_
    | extract_lets
    | with_reducible refine OnlyChanges.getD (fun _ _ => ?_) ?_
    | with_reducible refine OnlyChanges.foldl (fun _ _ => ?_) ?_
    | split

theorem placeCopy_frame (a0 a1 a2 a3 a4 s) : OnlyChanges [.recoveryLog, .ports, .packets, .queues, .room, .events,
    .counters, .crumbs] s (placeCopy a0 a1 a2 a3 a4 s) := by
  unfold placeCopy
  repeat' first
    | with_reducible exact OnlyChanges.refl _ _
    | assumption
    | with_reducible refine (enqueueCopy_frame _ _ _ _ _ _).after (by decide) ?_
    | with_reducible refine (countSlice_frame _ _ _).after (by decide) ?_
    | with_reducible refine modBuf_frame _ ?_
    | with_reducible refine (dropCopy_frame _ _).after (by decide) ?_
    | with_reducible refine (countDrop_frame _ _ _).after (by decide) ?_
    | extract_lets
    | with_reducible refine OnlyChanges.getD (fun _ _ => ?_) ?_
    | with_reducible refine OnlyChanges.foldl (fun _ _ => ?_) ?_
    | split

theorem releaseEntry_frame (a0 a1 s) : OnlyChanges [.recoveryLog, .queues, .events, .counters, .crumbs] s
    (releaseEntry a0 a1 s) := by
  unfold releaseEntry
  repeat' first
    | with_reducible exact OnlyChanges.refl _ _
    | assumption
    | with_reducible refine (decEntry_frame _ _ _).after (by decide) ?_
    | with_reducible refine (enqueueCopy_frame _ _ _ _ _ _).before ?_
    | with_reducible refine modBuf_frame _ ?_
    | extract_lets
    | with_reducible refine OnlyChanges.getD (fun _ _ => ?_) ?_
    | with_reducible refine OnlyChanges.foldl (fun _ _ => ?_) ?_
    | split

theorem redDecide_frame (a0 a1 a2 s) : OnlyChanges [.tables, .classes] s (redDecide a0 a1 a2 s).2 := by
  unfold redDecide
  repeat' first
    | with_reducible exact OnlyChanges.refl _ _
    | assumption
    | with_reducible refine (modSlice_frame _ _ _).after (by decide) ?_
    | extract_lets
    | with_reducible refine OnlyChanges.getD (fun _ _ => ?_) ?_
    | with_reducible refine OnlyChanges.foldl (fun _ _ => ?_) ?_
    | split
    | extract_lets +lift
    | with_reducible refine OnlyChanges.foldl_fst (fun _ _ => ?_) ?_
    | with_reducible refine OnlyChanges.foldl_snd (fun _ _ => ?_) ?_
    | with_reducible refine OnlyChanges.of_fst (by assumption) ?_
    | with_reducible refine OnlyChanges.of_snd (by assumption) ?_
    | with_reducible refine OnlyChanges.upd rfl ?_

theorem dropVictim_frame (a0 s) : OnlyChanges [.recoveryLog, .ports, .packets, .queues, .room, .events, .counters,
    .crumbs] s (dropVictim a0 s) := by
  unfold dropVictim
  repeat' first
    | with_reducible exact OnlyChanges.refl _ _
    | assumption
    | with_reducible refine (setVoq_frame _ _ _).after (by decide) ?_
    | with_reducible refine (countDrop_frame _ _ _).after (by decide) ?_
    | with_reducible refine (freePacket_frame _ _).after (by decide) ?_
    | with_reducible refine (releaseEntry_frame _ _ _).after (by decide) ?_
    | with_reducible refine (count_frame _ _ _).after (by decide) ?_

theorem pushOut_frame (a0 a1 a2 s) : OnlyChanges [.recoveryLog, .ports, .packets, .queues, .room, .events,
    .counters, .crumbs] s (pushOut a0 a1 a2 s) := by
  fun_induction pushOut a0 a1 a2 s
  all_goals
  repeat' first
    | with_reducible exact OnlyChanges.refl _ _
    | assumption
    | with_reducible refine (dropVictim_frame _ _).before ?_
    | extract_lets
    | with_reducible refine OnlyChanges.getD (fun _ _ => ?_) ?_
    | with_reducible refine OnlyChanges.foldl (fun _ _ => ?_) ?_
    | split
    | extract_lets +lift
    | with_reducible refine OnlyChanges.foldl_fst (fun _ _ => ?_) ?_
    | with_reducible refine OnlyChanges.foldl_snd (fun _ _ => ?_) ?_
    | with_reducible refine OnlyChanges.of_fst (by assumption) ?_
    | with_reducible refine OnlyChanges.of_snd (by assumption) ?_
    | with_reducible refine OnlyChanges.trans ?_ (by assumption)

theorem lossyRoom_frame (a0 a1 a2 s) : OnlyChanges [.recoveryLog, .ports, .packets, .queues, .room, .events,
    .counters, .crumbs] s (lossyRoom a0 a1 a2 s).2 := by
  unfold lossyRoom
  repeat' first
    | with_reducible exact OnlyChanges.refl _ _
    | assumption
    | with_reducible refine (pushOut_frame _ _ _ _).before ?_
    | extract_lets
    | with_reducible refine OnlyChanges.getD (fun _ _ => ?_) ?_
    | with_reducible refine OnlyChanges.foldl (fun _ _ => ?_) ?_
    | split

theorem storePacket_frame (a0 s) : OnlyChanges [.packets] s (storePacket a0 s).2 := by
  unfold storePacket
  repeat' first
    | with_reducible exact OnlyChanges.refl _ _
    | assumption
    | with_reducible refine modBuf_frame _ ?_

theorem chargeLossless_frame (a0 a1 a2 a3 s) : OnlyChanges [.recoveryLog, .ports, .packets, .queues, .room,
    .events, .counters, .crumbs] s (chargeLossless a0 a1 a2 a3 s).1 := by
  unfold chargeLossless
  repeat' first
    | with_reducible exact OnlyChanges.refl _ _
    | assumption
    | with_reducible refine (pushOut_frame _ _ _ _).before ?_
    | with_reducible refine (admitCells_frame _ _ _).after (by decide) ?_
    | with_reducible refine (chargeHeadroom_frame _ _ _ _).after (by decide) ?_
    | with_reducible refine (releaseHeadroom_frame _ _ _ _).after (by decide) ?_
    | extract_lets
    | with_reducible refine OnlyChanges.getD (fun _ _ => ?_) ?_
    | with_reducible refine OnlyChanges.foldl (fun _ _ => ?_) ?_
    | split

end Sys2Proof.Machine
end

