-- ==== Sys2Proof/Laws/FrameTimeOps.lean ====
section
/-! SUPPORT. What the operations of Machine/TimeOps.lean leave unchanged. -/

set_option Elab.async false

namespace Sys2Proof.Machine

theorem modTime_frame {qs : List Part} {s x : State} (f : TimeState → TimeState) (h : OnlyChanges qs s x)
    (hk : KeptTime qs x.time (f x.time) := by
      (refine KeptTime.lit ?_ ?_
       · first | exact Or.inl (by decide) | exact Or.inr ⟨rfl, rfl⟩
       · first | exact Or.inl (by decide) | exact Or.inr ⟨rfl, rfl, rfl, rfl, rfl, rfl, rfl, rfl, rfl, rfl, rfl, rfl, rfl, rfl, rfl, rfl, rfl, rfl, rfl, rfl⟩)) : OnlyChanges qs s (modTime f x) :=
  OnlyChanges.upd rfl h (htime := hk)

theorem traceTime_frame (a0 a1 s) : OnlyChanges [.recoveryLog, .counters, .crumbs] s (traceTime a0 a1 s) := by
  unfold traceTime
  repeat' first
    | with_reducible exact OnlyChanges.refl _ _
    | assumption
    | with_reducible refine (traceCrumb_frame _ _ _ _ _ _).before ?_
    | extract_lets
    | with_reducible refine OnlyChanges.getD (fun _ _ => ?_) ?_
    | with_reducible refine OnlyChanges.foldl (fun _ _ => ?_) ?_
    | split

theorem setTimePhase_frame (a0 s) : OnlyChanges [.recoveryLog, .time, .counters, .crumbs] s (setTimePhase a0 s) :=
    by
  unfold setTimePhase
  repeat' first
    | with_reducible exact OnlyChanges.refl _ _
    | assumption
    | with_reducible refine (traceTime_frame _ _ _).after (by decide) ?_
    | with_reducible refine modTime_frame _ ?_

theorem enterHoldover_frame (s) : OnlyChanges [.recoveryLog, .time, .counters, .crumbs, .devTime] s (enterHoldover
    s) := by
  unfold enterHoldover
  repeat' first
    | with_reducible exact OnlyChanges.refl _ _
    | assumption
    | with_reducible refine (setTimePhase_frame _ _).after (by decide) ?_
    | extract_lets
    | with_reducible refine OnlyChanges.getD (fun _ _ => ?_) ?_
    | with_reducible refine OnlyChanges.foldl (fun _ _ => ?_) ?_
    | split
    | extract_lets +lift
    | with_reducible refine OnlyChanges.foldl_fst (fun _ _ => ?_) ?_
    | with_reducible refine OnlyChanges.foldl_snd (fun _ _ => ?_) ?_
    | with_reducible refine OnlyChanges.of_fst (by assumption) ?_
    | with_reducible refine OnlyChanges.of_snd (by assumption) ?_
    | with_reducible refine OnlyChanges.upd rfl ?_

theorem becomeMaster_frame (s) : OnlyChanges [.recoveryLog, .time, .counters, .crumbs, .devTime] s (becomeMaster s)
    := by
  unfold becomeMaster
  repeat' first
    | with_reducible exact OnlyChanges.refl _ _
    | assumption
    | with_reducible refine modTime_frame _ ?_
    | with_reducible refine (setTimePhase_frame _ _).after (by decide) ?_
    | extract_lets
    | with_reducible refine OnlyChanges.getD (fun _ _ => ?_) ?_
    | with_reducible refine OnlyChanges.foldl (fun _ _ => ?_) ?_
    | split
    | extract_lets +lift
    | with_reducible refine OnlyChanges.foldl_fst (fun _ _ => ?_) ?_
    | with_reducible refine OnlyChanges.foldl_snd (fun _ _ => ?_) ?_
    | with_reducible refine OnlyChanges.of_fst (by assumption) ?_
    | with_reducible refine OnlyChanges.of_snd (by assumption) ?_
    | with_reducible refine OnlyChanges.upd rfl ?_

theorem followParent_frame (a0 a1 s) : OnlyChanges [.recoveryLog, .time, .counters, .crumbs] s (followParent a0 a1
    s) := by
  unfold followParent
  repeat' first
    | with_reducible exact OnlyChanges.refl _ _
    | assumption
    | with_reducible refine modTime_frame _ ?_
    | with_reducible refine (setTimePhase_frame _ _).before ?_
    | extract_lets
    | with_reducible refine OnlyChanges.getD (fun _ _ => ?_) ?_
    | with_reducible refine OnlyChanges.foldl (fun _ _ => ?_) ?_
    | split

theorem loseParent_frame (s) : OnlyChanges [.recoveryLog, .time, .counters, .crumbs, .devTime] s (loseParent s) :=
    by
  unfold loseParent
  repeat' first
    | with_reducible exact OnlyChanges.refl _ _
    | assumption
    | with_reducible refine modTime_frame _ ?_
    | with_reducible refine (setTimePhase_frame _ _).after (by decide) ?_
    | with_reducible refine (enterHoldover_frame _).before ?_
    | extract_lets
    | with_reducible refine OnlyChanges.getD (fun _ _ => ?_) ?_
    | with_reducible refine OnlyChanges.foldl (fun _ _ => ?_) ?_
    | split

theorem electParent_frame (s) : OnlyChanges [.recoveryLog, .time, .counters, .crumbs, .devTime] s (electParent s)
    := by
  unfold electParent
  repeat' first
    | with_reducible exact OnlyChanges.refl _ _
    | assumption
    | with_reducible refine (becomeMaster_frame _).before ?_
    | with_reducible refine (loseParent_frame _).before ?_
    | with_reducible refine (followParent_frame _ _ _).after (by decide) ?_
    | extract_lets
    | with_reducible refine OnlyChanges.getD (fun _ _ => ?_) ?_
    | with_reducible refine OnlyChanges.foldl (fun _ _ => ?_) ?_
    | split

end Sys2Proof.Machine
end

