-- ==== Sys2Proof/Laws/FrameLinkOps.lean ====
section
/-! SUPPORT. What the operations of Machine/LinkOps.lean leave unchanged. -/

set_option Elab.async false

namespace Sys2Proof.Machine

theorem queueLocal_frame (a0 a1 a2 s) : OnlyChanges [.ports] s (queueLocal a0 a1 a2 s) := by
  unfold queueLocal
  repeat' first
    | with_reducible exact OnlyChanges.refl _ _
    | assumption
    | with_reducible refine (modPort_frame _ _ _).before ?_

theorem sendMsg_frame (a0 a1 a2 s) : OnlyChanges [.ports] s (sendMsg a0 a1 a2 s) := by
  unfold sendMsg
  repeat' first
    | with_reducible exact OnlyChanges.refl _ _
    | assumption
    | with_reducible refine (queueLocal_frame _ _ _ _).before ?_
    | with_reducible refine (modPort_frame _ _ _).before ?_

theorem sendOnce_frame (a0 a1 a2 a3 s) : OnlyChanges [.ports] s (sendOnce a0 a1 a2 a3 s) := by
  unfold sendOnce
  repeat' first
    | with_reducible exact OnlyChanges.refl _ _
    | assumption
    | with_reducible refine (queueLocal_frame _ _ _ _).before ?_
    | with_reducible refine (modPort_frame _ _ _).before ?_

theorem onMessage_frame {qs : List Part} (a0 a1 a2 s) {act : State → State} (hf : ∀ x, OnlyChanges qs x (act x))
    (hq : [.ports].all qs.contains = true := by decide +kernel) : OnlyChanges qs s (onMessage a0 a1 a2 act s) := by
  have hs : OnlyChanges qs s (sendOnce a0 0x06 ((readyLanes s a0).take 1) [wordOf [at_ 31 24 a1, at_ 15 0 a2]] s) :=
    ((sendOnce_frame _ _ _ _ _).mono (by decide)).after hq (OnlyChanges.refl _ _)
  unfold onMessage
  extract_lets
  split
  · exact hs
  · exact (((modPort_frame _ _ _).mono (by decide)).after hq hs).trans (hf _)

theorem settleC0_frame (a0 s) : OnlyChanges [.ports] s (settleC0 a0 s) := by
  unfold settleC0
  repeat' first
    | with_reducible exact OnlyChanges.refl _ _
    | assumption
    | with_reducible refine (modPort_frame _ _ _).before ?_

theorem deriveLinkKeys_frame (a0 s) : OnlyChanges [.linkKeys] s (deriveLinkKeys a0 s) := by
  unfold deriveLinkKeys
  repeat' first
    | with_reducible exact OnlyChanges.refl _ _
    | assumption
    | extract_lets
    | with_reducible refine OnlyChanges.getD (fun _ _ => ?_) ?_
    | with_reducible refine OnlyChanges.foldl (fun _ _ => ?_) ?_
    | split
    | extract_lets +lift
    | with_reducible refine OnlyChanges.foldl_fst (fun _ _ => ?_) ?_
    | with_reducible refine OnlyChanges.foldl_snd (fun _ _ => ?_) ?_
    | with_reducible refine OnlyChanges.of_fst (by assumption) ?_
    | with_reducible refine OnlyChanges.of_snd (by assumption) ?_
    | with_reducible refine OnlyChanges.upd rfl ?_

theorem changePhase_frame (a0 a1 a2 s) : OnlyChanges [.recoveryLog, .ports, .groups, .events, .neighbours,
    .counters, .crumbs, .linkKeys] s (changePhase a0 a1 a2 s) := by
  unfold changePhase
  repeat' first
    | with_reducible exact OnlyChanges.refl _ _
    | assumption
    | with_reducible refine (modPort_frame _ _ _).after (by decide) ?_
    | with_reducible refine (countPort_frame _ _ _ _).after (by decide) ?_
    | with_reducible refine (traceCrumb_frame _ _ _ _ _ _).after (by decide) ?_
    | with_reducible refine (raise31_frame _ _ _).after (by decide) ?_
    | with_reducible refine (deriveLinkKeys_frame _ _).after (by decide) ?_
    | with_reducible refine (noteEntry_frame _ _ _).after (by decide) ?_
    | extract_lets
    | with_reducible refine OnlyChanges.getD (fun _ _ => ?_) ?_
    | with_reducible refine OnlyChanges.foldl (fun _ _ => ?_) ?_
    | split
    | extract_lets +lift
    | with_reducible refine OnlyChanges.foldl_fst (fun _ _ => ?_) ?_
    | with_reducible refine OnlyChanges.foldl_snd (fun _ _ => ?_) ?_
    | with_reducible refine OnlyChanges.of_fst (by assumption) ?_
    | with_reducible refine OnlyChanges.of_snd (by assumption) ?_
    | fail_if_no_progress (with_reducible refine OnlyChanges.upd rfl ?_)
    | dsimp +zetaDelta only []

theorem unjoinLanes_frame (a0 s) : OnlyChanges [.lanes] s (unjoinLanes a0 s) := by
  unfold unjoinLanes
  repeat' first
    | with_reducible exact OnlyChanges.refl _ _
    | assumption
    | with_reducible refine (modLane_frame _ _ _).before ?_
    | extract_lets
    | with_reducible refine OnlyChanges.getD (fun _ _ => ?_) ?_
    | with_reducible refine OnlyChanges.foldl (fun _ _ => ?_) ?_

theorem enterResume_frame (a0 a1 s) : OnlyChanges [.recoveryLog, .time, .lanes, .ports, .groups, .events,
    .neighbours, .counters, .crumbs, .devTime, .linkKeys] s (enterResume a0 a1 s) := by
  unfold enterResume
  repeat' first
    | with_reducible exact OnlyChanges.refl _ _
    | assumption
    | with_reducible refine (electParent_frame _).after (by decide) ?_
    | with_reducible refine (changePhase_frame _ _ _ _).after (by decide) ?_
    | with_reducible refine (unjoinLanes_frame _ _).after (by decide) ?_
    | with_reducible refine (settleC0_frame _ _).after (by decide) ?_
    | extract_lets
    | with_reducible refine OnlyChanges.getD (fun _ _ => ?_) ?_
    | with_reducible refine OnlyChanges.foldl (fun _ _ => ?_) ?_
    | split

theorem tryHello_frame (a0 s) : OnlyChanges [.recoveryLog, .ports, .groups, .events, .neighbours, .counters,
    .crumbs, .linkKeys] s (tryHello a0 s) := by
  unfold tryHello
  repeat' first
    | with_reducible exact OnlyChanges.refl _ _
    | assumption
    | with_reducible refine (changePhase_frame _ _ _ _).before ?_
    | extract_lets
    | with_reducible refine OnlyChanges.getD (fun _ _ => ?_) ?_
    | with_reducible refine OnlyChanges.foldl (fun _ _ => ?_) ?_
    | split

theorem enterCredit_frame (a0 s) : OnlyChanges [.recoveryLog, .ports, .groups, .events, .neighbours, .counters,
    .crumbs, .linkKeys] s (enterCredit a0 s) := by
  unfold enterCredit
  repeat' first
    | with_reducible exact OnlyChanges.refl _ _
    | assumption
    | with_reducible refine (changePhase_frame _ _ _ _).before ?_
    | with_reducible refine (modPort_frame _ _ _).after (by decide) ?_

theorem enterUp_frame (a0 s) : OnlyChanges [.recoveryLog, .time, .lanes, .ports, .classes, .groups, .events,
    .neighbours, .counters, .crumbs, .devTime, .linkKeys] s (enterUp a0 s) := by
  unfold enterUp
  repeat' first
    | with_reducible exact OnlyChanges.refl _ _
    | assumption
    | with_reducible refine (modLane_frame _ _ _).after (by decide) ?_
    | with_reducible refine (modPort_frame _ _ _).after (by decide) ?_
    | with_reducible refine (changePhase_frame _ _ _ _).after (by decide) ?_
    | with_reducible refine (sendMsg_frame _ _ _ _).after (by decide) ?_
    | with_reducible refine (electParent_frame _).after (by decide) ?_
    | extract_lets
    | with_reducible refine OnlyChanges.getD (fun _ _ => ?_) ?_
    | with_reducible refine OnlyChanges.foldl (fun _ _ => ?_) ?_
    | split
    | extract_lets +lift
    | with_reducible refine OnlyChanges.foldl_fst (fun _ _ => ?_) ?_
    | with_reducible refine OnlyChanges.foldl_snd (fun _ _ => ?_) ?_
    | with_reducible refine OnlyChanges.of_fst (by assumption) ?_
    | with_reducible refine OnlyChanges.of_snd (by assumption) ?_
    | with_reducible refine OnlyChanges.upd rfl ?_

theorem countLost_frame (a0 s) : OnlyChanges [.recoveryLog, .events, .counters, .crumbs] s (countLost a0 s) := by
  unfold countLost
  repeat' first
    | with_reducible exact OnlyChanges.refl _ _
    | assumption
    | with_reducible refine (countDrop_frame _ _ _).before ?_
    | with_reducible refine (countSlice_frame _ _ _).before ?_
    | extract_lets
    | with_reducible refine OnlyChanges.getD (fun _ _ => ?_) ?_
    | with_reducible refine OnlyChanges.foldl (fun _ _ => ?_) ?_
    | split

theorem placeRouted_frame (a0 a1 a2 s) : OnlyChanges [.recoveryLog, .ports, .packets, .queues, .room, .events,
    .counters, .crumbs] s (placeRouted a0 a1 a2 s) := by
  unfold placeRouted
  repeat' first
    | with_reducible exact OnlyChanges.refl _ _
    | assumption
    | with_reducible refine (placeCopy_frame _ _ _ _ _ _).before ?_
    | with_reducible refine (modStored_frame _ _ _).after (by decide) ?_
    | with_reducible refine (dropCopy_frame _ _).after (by decide) ?_
    | with_reducible refine (countLost_frame _ _).after (by decide) ?_
    | extract_lets
    | with_reducible refine OnlyChanges.getD (fun _ _ => ?_) ?_
    | with_reducible refine OnlyChanges.foldl (fun _ _ => ?_) ?_
    | split

theorem requeueCopy_frame (a0 a1 a2 a3 s) : OnlyChanges [.recoveryLog, .ports, .packets, .queues, .room, .tables,
    .events, .counters, .crumbs] s (requeueCopy a0 a1 a2 a3 s) := by
  unfold requeueCopy
  repeat' first
    | with_reducible exact OnlyChanges.refl _ _
    | assumption
    | with_reducible refine (dropCopy_frame _ _).after (by decide) ?_
    | with_reducible refine (countDrop_frame _ _ _).after (by decide) ?_
    | with_reducible refine (placeRouted_frame _ _ _ _).after (by decide) ?_
    | with_reducible refine (countSlice_frame _ _ _).after (by decide) ?_
    | with_reducible refine (modSlice_frame _ _ _).after (by decide) ?_
    | extract_lets
    | with_reducible refine OnlyChanges.getD (fun _ _ => ?_) ?_
    | with_reducible refine OnlyChanges.foldl (fun _ _ => ?_) ?_
    | split

theorem requeuePort_frame (a0 s) : OnlyChanges [.recoveryLog, .ports, .packets, .queues, .room, .tables, .events,
    .counters, .crumbs] s (requeuePort a0 s) := by
  unfold requeuePort
  repeat' first
    | with_reducible exact OnlyChanges.refl _ _
    | assumption
    | with_reducible refine (requeueCopy_frame _ _ _ _ _).before ?_
    | with_reducible refine (releaseEntry_frame _ _ _).after (by decide) ?_
    | with_reducible refine (setVoq_frame _ _ _).after (by decide) ?_
    | extract_lets
    | with_reducible refine OnlyChanges.getD (fun _ _ => ?_) ?_
    | with_reducible refine OnlyChanges.foldl (fun _ _ => ?_) ?_

theorem loseInFlight_frame (a0 s) : OnlyChanges [.recoveryLog, .ports, .packets, .queues, .room, .events,
    .counters, .crumbs] s (loseInFlight a0 s) := by
  unfold loseInFlight
  repeat' first
    | with_reducible exact OnlyChanges.refl _ _
    | assumption
    | with_reducible refine (dropCopy_frame _ _).after (by decide) ?_
    | with_reducible refine (countDrop_frame _ _ _).after (by decide) ?_
    | extract_lets
    | with_reducible refine OnlyChanges.getD (fun _ _ => ?_) ?_
    | with_reducible refine OnlyChanges.foldl (fun _ _ => ?_) ?_

theorem cutShort_frame (a0 a1 s) : OnlyChanges [.recoveryLog, .ports, .packets, .queues, .room, .events, .counters,
    .crumbs] s (cutShort a0 a1 s) := by
  unfold cutShort
  repeat' first
    | with_reducible exact OnlyChanges.refl _ _
    | assumption
    | with_reducible refine (releaseEntry_frame _ _ _).after (by decide) ?_
    | with_reducible refine (setVoq_frame _ _ _).after (by decide) ?_
    | with_reducible refine (modStored_frame _ _ _).after (by decide) ?_
    | with_reducible refine (freePacket_frame _ _).after (by decide) ?_
    | extract_lets
    | with_reducible refine OnlyChanges.getD (fun _ _ => ?_) ?_
    | with_reducible refine OnlyChanges.foldl (fun _ _ => ?_) ?_
    | split
    | extract_lets +lift
    | with_reducible refine OnlyChanges.foldl_fst (fun _ _ => ?_) ?_
    | with_reducible refine OnlyChanges.foldl_snd (fun _ _ => ?_) ?_
    | with_reducible refine OnlyChanges.of_fst (by assumption) ?_
    | with_reducible refine OnlyChanges.of_snd (by assumption) ?_
    | with_reducible refine OnlyChanges.upd rfl ?_

theorem abortArriving_frame (a0 s) : OnlyChanges [.recoveryLog, .ports, .packets, .queues, .room, .events,
    .counters, .crumbs] s (abortArriving a0 s) := by
  unfold abortArriving
  repeat' first
    | with_reducible exact OnlyChanges.refl _ _
    | assumption
    | with_reducible refine (cutShort_frame _ _ _).before ?_

theorem loseArriving_frame (a0 s) : OnlyChanges [.recoveryLog, .ports, .packets, .queues, .room, .events,
    .counters, .crumbs] s (loseArriving a0 s) := by
  unfold loseArriving
  repeat' first
    | with_reducible exact OnlyChanges.refl _ _
    | assumption
    | with_reducible refine (abortArriving_frame _ _).before ?_
    | with_reducible refine (countDrop_frame _ _ _).after (by decide) ?_
    | extract_lets
    | with_reducible refine OnlyChanges.getD (fun _ _ => ?_) ?_
    | with_reducible refine OnlyChanges.foldl (fun _ _ => ?_) ?_

theorem loseHeldC0_frame (a0 s) : OnlyChanges [.recoveryLog, .ports, .room, .events, .counters, .crumbs] s
    (loseHeldC0 a0 s) := by
  unfold loseHeldC0
  repeat' first
    | with_reducible exact OnlyChanges.refl _ _
    | assumption
    | with_reducible refine (releaseHeadroom_frame _ _ _ _).after (by decide) ?_
    | with_reducible refine (countDrop_frame _ _ _).after (by decide) ?_
    | with_reducible refine (modPort_frame _ _ _).after (by decide) ?_
    | extract_lets
    | with_reducible refine OnlyChanges.getD (fun _ _ => ?_) ?_
    | with_reducible refine OnlyChanges.foldl (fun _ _ => ?_) ?_

theorem enterDown_frame (a0 a1 s) : OnlyChanges [.recoveryLog, .time, .lanes, .ports, .packets, .queues, .room,
    .tables, .groups, .events, .neighbours, .counters, .crumbs, .devTime, .linkKeys] s (enterDown a0 a1 s) := by
  unfold enterDown
  repeat' first
    | with_reducible exact OnlyChanges.refl _ _
    | assumption
    | with_reducible refine (loseHeldC0_frame _ _).after (by decide) ?_
    | with_reducible refine (loseArriving_frame _ _).after (by decide) ?_
    | with_reducible refine (loseInFlight_frame _ _).after (by decide) ?_
    | with_reducible refine (modLane_frame _ _ _).after (by decide) ?_
    | with_reducible refine (modPort_frame _ _ _).after (by decide) ?_
    | with_reducible refine (unjoinLanes_frame _ _).after (by decide) ?_
    | with_reducible refine (noteEntry_frame _ _ _).after (by decide) ?_
    | with_reducible refine (changePhase_frame _ _ _ _).after (by decide) ?_
    | with_reducible refine (electParent_frame _).after (by decide) ?_
    | with_reducible refine (requeuePort_frame _ _).after (by decide) ?_
    | extract_lets
    | with_reducible refine OnlyChanges.getD (fun _ _ => ?_) ?_
    | with_reducible refine OnlyChanges.foldl (fun _ _ => ?_) ?_
    | split
    | extract_lets +lift
    | with_reducible refine OnlyChanges.foldl_fst (fun _ _ => ?_) ?_
    | with_reducible refine OnlyChanges.foldl_snd (fun _ _ => ?_) ?_
    | with_reducible refine OnlyChanges.of_fst (by assumption) ?_
    | with_reducible refine OnlyChanges.of_snd (by assumption) ?_
    | fail_if_no_progress (with_reducible refine OnlyChanges.upd rfl ?_)
    | dsimp +zetaDelta only []

theorem removeLane_frame (a0 a1 s) : OnlyChanges [.recoveryLog, .time, .lanes, .ports, .groups, .events,
    .neighbours, .counters, .crumbs, .devTime, .linkKeys] s (removeLane a0 a1 s) := by
  unfold removeLane
  repeat' first
    | with_reducible exact OnlyChanges.refl _ _
    | assumption
    | with_reducible refine (settleC0_frame _ _).after (by decide) ?_
    | with_reducible refine (modLane_frame _ _ _).after (by decide) ?_
    | with_reducible refine (traceCrumb_frame _ _ _ _ _ _).after (by decide) ?_
    | with_reducible refine (countLane_frame _ _ _).after (by decide) ?_
    | with_reducible refine (sendMsg_frame _ _ _ _).after (by decide) ?_
    | with_reducible refine (enterResume_frame _ _ _).before ?_
    | with_reducible refine (noteEntry_frame _ _ _).after (by decide) ?_
    | extract_lets
    | with_reducible refine OnlyChanges.getD (fun _ _ => ?_) ?_
    | with_reducible refine OnlyChanges.foldl (fun _ _ => ?_) ?_
    | split

theorem tryJoin_frame (a0 s) : OnlyChanges [.recoveryLog, .lanes, .ports, .groups, .events, .neighbours, .counters,
    .crumbs] s (tryJoin a0 s) := by
  unfold tryJoin
  repeat' first
    | with_reducible exact OnlyChanges.refl _ _
    | assumption
    | with_reducible refine (noteEntry_frame _ _ _).after (by decide) ?_
    | with_reducible refine (traceCrumb_frame _ _ _ _ _ _).after (by decide) ?_
    | with_reducible refine (modLane_frame _ _ _).after (by decide) ?_
    | with_reducible refine (settleC0_frame _ _).after (by decide) ?_
    | extract_lets
    | with_reducible refine OnlyChanges.getD (fun _ _ => ?_) ?_
    | with_reducible refine OnlyChanges.foldl (fun _ _ => ?_) ?_
    | split

theorem laneReady_frame (a0 s) : OnlyChanges [.recoveryLog, .lanes, .ports, .groups, .events, .neighbours,
    .counters, .crumbs, .linkKeys] s (laneReady a0 s) := by
  unfold laneReady
  repeat' first
    | with_reducible exact OnlyChanges.refl _ _
    | assumption
    | with_reducible refine (modLane_frame _ _ _).after (by decide) ?_
    | with_reducible refine (sendMsg_frame _ _ _ _).after (by decide) ?_
    | with_reducible refine (tryHello_frame _ _).after (by decide) ?_
    | with_reducible refine (tryJoin_frame _ _).after (by decide) ?_
    | extract_lets
    | with_reducible refine OnlyChanges.getD (fun _ _ => ?_) ?_
    | with_reducible refine OnlyChanges.foldl (fun _ _ => ?_) ?_
    | split

theorem laneFalls_frame (a0 a1 s) : OnlyChanges [.recoveryLog, .time, .lanes, .ports, .groups, .events,
    .neighbours, .counters, .crumbs, .devTime, .linkKeys] s (laneFalls a0 a1 s) := by
  unfold laneFalls
  repeat' first
    | with_reducible exact OnlyChanges.refl _ _
    | assumption
    | with_reducible refine (removeLane_frame _ _ _).before ?_
    | with_reducible refine (modLane_frame _ _ _).after (by decide) ?_
    | with_reducible refine (noteEntry_frame _ _ _).after (by decide) ?_
    | extract_lets
    | with_reducible refine OnlyChanges.getD (fun _ _ => ?_) ?_
    | with_reducible refine OnlyChanges.foldl (fun _ _ => ?_) ?_
    | split

theorem failLane_frame (a0 a1 s) : OnlyChanges [.recoveryLog, .time, .lanes, .ports, .groups, .events, .neighbours,
    .counters, .crumbs, .devTime, .linkKeys] s (failLane a0 a1 s) := by
  unfold failLane
  repeat' first
    | with_reducible exact OnlyChanges.refl _ _
    | assumption
    | with_reducible refine (raiseBoth_frame _ _ _).after (by decide) ?_
    | with_reducible refine (modLane_frame _ _ _).after (by decide) ?_
    | with_reducible refine (laneFalls_frame _ _ _).before ?_
    | extract_lets
    | with_reducible refine OnlyChanges.getD (fun _ _ => ?_) ?_
    | with_reducible refine OnlyChanges.foldl (fun _ _ => ?_) ?_
    | split

end Sys2Proof.Machine
end

