-- ==== Sys2Proof/Laws/FrameOptOps.lean ====
section
/-! SUPPORT. What the operations of Machine/OptOps.lean leave unchanged. -/

set_option Elab.async false

namespace Sys2Proof.Machine

theorem modRing_frame (a0 a1 s) : OnlyChanges [.rings] s (modRing a0 a1 s) := by
  unfold modRing
  repeat' first
    | with_reducible exact OnlyChanges.refl _ _
    | assumption
    | extract_lets
    | with_reducible refine OnlyChanges.getD (fun _ _ => ?_) ?_
    | with_reducible refine OnlyChanges.foldl (fun _ _ => ?_) ?_
    | split
    | extract_lets +lift
    | with_reducible refine OnlyChanges.foldl_fst (fun _ _ => ?_) ?_
    | with_reducible refine OnlyChanges.foldl_snd (fun _ _ => ?_) ?_
    | with_reducible refine OnlyChanges.of_fst (by assumption) ?_
    | with_reducible refine OnlyChanges.of_snd (by assumption) ?_
    | with_reducible refine OnlyChanges.upd rfl ?_

theorem modOpt_frame {qs : List Part} {s x : State} (f : OptState → OptState) (h : OnlyChanges qs s x)
    (hk : KeptOpt qs x.opt (f x.opt) := by
      (refine KeptOpt.lit ?_ ?_ ?_ ?_
       · first | exact Or.inl (by decide) | exact Or.inr ⟨rfl, rfl, rfl, rfl, rfl⟩
       · first | exact Or.inl (by decide) | exact Or.inr ⟨rfl, rfl, rfl, rfl⟩
       · first | exact Or.inl (by decide) | exact Or.inr rfl
       · first | exact Or.inl (by decide) | exact Or.inr ⟨rfl, rfl⟩)) : OnlyChanges qs s (modOpt f x) :=
  OnlyChanges.upd rfl h (hopt := hk)

theorem countOptLane_frame (a0 a1 s) : OnlyChanges [.recoveryLog, .events, .counters, .crumbs] s (countOptLane a0
    a1 s) := by
  unfold countOptLane
  repeat' first
    | with_reducible exact OnlyChanges.refl _ _
    | assumption
    | with_reducible refine (count_frame _ _ _).before ?_

theorem countFibre_frame (a0 a1 a2 s) : OnlyChanges [.recoveryLog, .events, .counters, .crumbs] s (countFibre a0 a1
    a2 s) := by
  unfold countFibre
  repeat' first
    | with_reducible exact OnlyChanges.refl _ _
    | assumption
    | with_reducible refine (count_frame _ _ _).before ?_

theorem countDie_frame (a0 a1 s) : OnlyChanges [.recoveryLog, .events, .counters, .crumbs] s (countDie a0 a1 s) :=
    by
  unfold countDie
  repeat' first
    | with_reducible exact OnlyChanges.refl _ _
    | assumption
    | with_reducible refine (count_frame _ _ _).before ?_

theorem setMode_frame (a0 a1 s) : OnlyChanges [.rings] s (setMode a0 a1 s) := by
  unfold setMode
  repeat' first
    | with_reducible exact OnlyChanges.refl _ _
    | assumption
    | with_reducible refine (modRing_frame _ _ _).before ?_
    | extract_lets
    | with_reducible refine OnlyChanges.getD (fun _ _ => ?_) ?_
    | with_reducible refine OnlyChanges.foldl (fun _ _ => ?_) ?_

theorem releaseHold_frame (a0 a1 s) : OnlyChanges [.recoveryLog, .lanes, .ports, .groups, .events, .neighbours,
    .counters, .crumbs, .linkKeys] s (releaseHold a0 a1 s) := by
  unfold releaseHold
  repeat' first
    | with_reducible exact OnlyChanges.refl _ _
    | assumption
    | with_reducible refine (modLane_frame _ _ _).after (by decide) ?_
    | with_reducible refine (laneReady_frame _ _).before ?_
    | extract_lets
    | with_reducible refine OnlyChanges.getD (fun _ _ => ?_) ?_
    | with_reducible refine OnlyChanges.foldl (fun _ _ => ?_) ?_
    | split

theorem holdLane_frame (a0 a1 s) : OnlyChanges [.recoveryLog, .time, .lanes, .ports, .groups, .events, .neighbours,
    .counters, .crumbs, .devTime, .linkKeys] s (holdLane a0 a1 s) := by
  unfold holdLane
  repeat' first
    | with_reducible exact OnlyChanges.refl _ _
    | assumption
    | with_reducible refine (removeLane_frame _ _ _).before ?_
    | with_reducible refine (modLane_frame _ _ _).after (by decide) ?_
    | extract_lets
    | with_reducible refine OnlyChanges.getD (fun _ _ => ?_) ?_
    | with_reducible refine OnlyChanges.foldl (fun _ _ => ?_) ?_
    | split

theorem modCircuit_frame (a0 a1 s) : OnlyChanges [.circuits] s (modCircuit a0 a1 s) := by
  unfold modCircuit
  repeat' first
    | with_reducible exact OnlyChanges.refl _ _
    | assumption
    | with_reducible refine modOpt_frame _ ?_
    | extract_lets
    | with_reducible refine OnlyChanges.getD (fun _ _ => ?_) ?_
    | with_reducible refine OnlyChanges.foldl (fun _ _ => ?_) ?_
    | split

theorem crustNotice_frame (a0 a1 a2 s) : OnlyChanges [.recoveryLog, .ports, .events, .counters, .crumbs] s
    (crustNotice a0 a1 a2 s) := by
  unfold crustNotice
  repeat' first
    | with_reducible exact OnlyChanges.refl _ _
    | assumption
    | with_reducible refine (sendMsg_frame _ _ _ _).after (by decide) ?_
    | with_reducible refine (raise31_frame _ _ _).after (by decide) ?_
    | extract_lets
    | with_reducible refine OnlyChanges.getD (fun _ _ => ?_) ?_
    | with_reducible refine OnlyChanges.foldl (fun _ _ => ?_) ?_
    | split

theorem loseCircuit_frame (a0 s) : OnlyChanges [.recoveryLog, .rings, .circuits, .ports, .events, .counters,
    .crumbs] s (loseCircuit a0 s) := by
  unfold loseCircuit
  repeat' first
    | with_reducible exact OnlyChanges.refl _ _
    | assumption
    | with_reducible refine (crustNotice_frame _ _ _ _).after (by decide) ?_
    | with_reducible refine (modCircuit_frame _ _ _).after (by decide) ?_
    | with_reducible refine (setMode_frame _ _ _).after (by decide) ?_
    | extract_lets
    | with_reducible refine OnlyChanges.getD (fun _ _ => ?_) ?_
    | with_reducible refine OnlyChanges.foldl (fun _ _ => ?_) ?_
    | split

theorem relight_frame (a0 s) : OnlyChanges [.rings, .circuits] s (relight a0 s) := by
  unfold relight
  repeat' first
    | with_reducible exact OnlyChanges.refl _ _
    | assumption
    | with_reducible refine (modCircuit_frame _ _ _).after (by decide) ?_
    | with_reducible refine (setMode_frame _ _ _).after (by decide) ?_
    | extract_lets
    | with_reducible refine OnlyChanges.getD (fun _ _ => ?_) ?_
    | with_reducible refine OnlyChanges.foldl (fun _ _ => ?_) ?_
    | split

theorem unlockRing_frame (a0 a1 a2 a3 s) : OnlyChanges [.recoveryLog, .rings, .circuits, .time, .lanes, .ports,
    .groups, .events, .neighbours, .counters, .crumbs, .devTime, .linkKeys] s (unlockRing a0 a1 a2 a3 s) := by
  unfold unlockRing
  repeat' first
    | with_reducible exact OnlyChanges.refl _ _
    | assumption
    | with_reducible refine (countOptLane_frame _ _ _).after (by decide) ?_
    | with_reducible refine (modRing_frame _ _ _).after (by decide) ?_
    | with_reducible refine (laneFalls_frame _ _ _).after (by decide) ?_
    | with_reducible refine (setMode_frame _ _ _).after (by decide) ?_
    | with_reducible refine (loseCircuit_frame _ _).after (by decide) ?_
    | extract_lets
    | with_reducible refine OnlyChanges.getD (fun _ _ => ?_) ?_
    | with_reducible refine OnlyChanges.foldl (fun _ _ => ?_) ?_
    | split

theorem modBay_frame (a0 a1 s) : OnlyChanges [.bays] s (modBay a0 a1 s) := by
  unfold modBay
  repeat' first
    | with_reducible exact OnlyChanges.refl _ _
    | assumption
    | with_reducible refine modOpt_frame _ ?_

theorem beginCutover_frame (a0 a1 s) : OnlyChanges [.bays] s (beginCutover a0 a1 s) := by
  unfold beginCutover
  repeat' first
    | with_reducible exact OnlyChanges.refl _ _
    | assumption
    | with_reducible refine modOpt_frame _ ?_
    | with_reducible refine (modBay_frame _ _ _).before ?_

theorem startCutover_frame (a0 s) : OnlyChanges [.bays] s (startCutover a0 s) := by
  unfold startCutover
  repeat' first
    | with_reducible exact OnlyChanges.refl _ _
    | assumption
    | with_reducible refine (beginCutover_frame _ _ _).before ?_
    | extract_lets
    | with_reducible refine OnlyChanges.getD (fun _ _ => ?_) ?_
    | with_reducible refine OnlyChanges.foldl (fun _ _ => ?_) ?_
    | split

theorem darken_frame (a0 a1 s) : OnlyChanges [.bays] s (darken a0 a1 s) := by
  unfold darken
  repeat' first
    | with_reducible exact OnlyChanges.refl _ _
    | assumption
    | with_reducible refine (modBay_frame _ _ _).before ?_

theorem brighten_frame (a0 a1 s) : OnlyChanges [.bays] s (brighten a0 a1 s) := by
  unfold brighten
  repeat' first
    | with_reducible exact OnlyChanges.refl _ _
    | assumption
    | with_reducible refine (modBay_frame _ _ _).before ?_

theorem modFade_frame (a0 a1 a2 s) : OnlyChanges [.bays] s (modFade a0 a1 a2 s) := by
  unfold modFade
  repeat' first
    | with_reducible exact OnlyChanges.refl _ _
    | assumption
    | with_reducible refine modOpt_frame _ ?_

theorem fadeEvent_frame (a0 a1 a2 s) : OnlyChanges [.recoveryLog, .events, .counters, .crumbs] s (fadeEvent a0 a1
    a2 s) := by
  unfold fadeEvent
  repeat' first
    | with_reducible exact OnlyChanges.refl _ _
    | assumption
    | with_reducible refine (countDie_frame _ _ _).before ?_
    | with_reducible refine (raise15_frame _ _ _).before ?_

theorem sendPause_frame (a0 a1 s) : OnlyChanges [.ports] s (sendPause a0 a1 s) := by
  unfold sendPause
  repeat' first
    | with_reducible exact OnlyChanges.refl _ _
    | assumption
    | with_reducible refine (sendMsg_frame _ _ _ _).before ?_
    | extract_lets
    | with_reducible refine OnlyChanges.getD (fun _ _ => ?_) ?_
    | with_reducible refine OnlyChanges.foldl (fun _ _ => ?_) ?_
    | split

theorem writeRecord_frame (a0 a1 s) : OnlyChanges [.alert, .flash] s (writeRecord a0 a1 s) := by
  unfold writeRecord
  repeat' first
    | with_reducible exact OnlyChanges.refl _ _
    | assumption
    | with_reducible refine (modConfig_frame _ _).before ?_
    | extract_lets
    | with_reducible refine OnlyChanges.getD (fun _ _ => ?_) ?_
    | with_reducible refine OnlyChanges.foldl (fun _ _ => ?_) ?_
    | split

theorem rebase_frame (a0 a1 a2 a3 s) : OnlyChanges [.rings] s (rebase a0 a1 a2 a3 s) := by
  unfold rebase
  repeat' first
    | with_reducible exact OnlyChanges.refl _ _
    | assumption
    | with_reducible refine modOpt_frame _ ?_

theorem failLanes_frame (a0 a1 s) : OnlyChanges [.recoveryLog, .time, .lanes, .ports, .groups, .events,
    .neighbours, .counters, .crumbs, .devTime, .linkKeys] s (failLanes a0 a1 s) := by
  unfold failLanes
  repeat' first
    | with_reducible exact OnlyChanges.refl _ _
    | assumption
    | with_reducible refine (failLane_frame _ _ _).before ?_
    | with_reducible refine (modLane_frame _ _ _).after (by decide) ?_
    | extract_lets
    | with_reducible refine OnlyChanges.getD (fun _ _ => ?_) ?_
    | with_reducible refine OnlyChanges.foldl (fun _ _ => ?_) ?_
    | split

theorem bindBus_frame (a0 a1 a2 a3 a4 a5 s) : OnlyChanges [.alert, .flash, .recoveryLog, .rings, .circuits, .time,
    .lanes, .ports, .groups, .events, .neighbours, .counters, .crumbs, .devTime, .linkKeys] s (bindBus a0 a1 a2 a3
    a4 a5 s) := by
  unfold bindBus
  repeat' first
    | with_reducible exact OnlyChanges.refl _ _
    | assumption
    | with_reducible refine (loseCircuit_frame _ _).after (by decide) ?_
    | with_reducible refine (modRing_frame _ _ _).after (by decide) ?_
    | with_reducible refine (rebase_frame _ _ _ _ _).after (by decide) ?_
    | with_reducible refine (countOptLane_frame _ _ _).after (by decide) ?_
    | with_reducible refine modOpt_frame _ ?_
    | with_reducible refine (writeRecord_frame _ _ _).after (by decide) ?_
    | with_reducible refine (failLanes_frame _ _ _).after (by decide) ?_
    | with_reducible refine (relight_frame _ _).after (by decide) ?_
    | extract_lets
    | with_reducible refine OnlyChanges.getD (fun _ _ => ?_) ?_
    | with_reducible refine OnlyChanges.foldl (fun _ _ => ?_) ?_
    | split

end Sys2Proof.Machine
end

