-- ==== Sys2Proof/Laws/FrameLink.lean ====
section
/-! SUPPORT. What the operations of Machine/Link.lean leave unchanged. -/

set_option Elab.async false

namespace Sys2Proof.Machine

theorem setLanePhase_frame (a0 a1 s) : OnlyChanges [.lanes] s (setLanePhase a0 a1 s) := by
  unfold setLanePhase
  repeat' first
    | with_reducible exact OnlyChanges.refl _ _
    | assumption
    | with_reducible refine (modLane_frame _ _ _).before ?_

theorem execSignalDetect_frame (a0 s) : NextChanges [.lanes] s (execSignalDetect a0 s) := by
  unfold execSignalDetect
  repeat' first
    | with_reducible exact OnlyChanges.refl _ _
    | assumption
    | with_reducible refine onUnit_frame _ ?_
    | with_reducible refine next_frame ?_
    | with_reducible exact fault_frame _ _ _
    | with_reducible refine (setLanePhase_frame _ _ _).before ?_
    | extract_lets
    | with_reducible refine OnlyChanges.getD (fun _ _ => ?_) ?_
    | with_reducible refine OnlyChanges.foldl (fun _ _ => ?_) ?_
    | split

theorem execAcquireLock_frame (a0 s) : NextChanges [.lanes] s (execAcquireLock a0 s) := by
  unfold execAcquireLock
  repeat' first
    | with_reducible exact OnlyChanges.refl _ _
    | assumption
    | with_reducible refine onUnit_frame _ ?_
    | with_reducible refine next_frame ?_
    | with_reducible exact fault_frame _ _ _
    | with_reducible refine (setLanePhase_frame _ _ _).before ?_
    | extract_lets
    | with_reducible refine OnlyChanges.getD (fun _ _ => ?_) ?_
    | with_reducible refine OnlyChanges.foldl (fun _ _ => ?_) ?_
    | split

theorem execAcquireTimeout_frame (a0 s) : NextChanges [.recoveryLog, .lanes, .events, .counters, .crumbs] s
    (execAcquireTimeout a0 s) := by
  unfold execAcquireTimeout
  repeat' first
    | with_reducible exact OnlyChanges.refl _ _
    | assumption
    | with_reducible refine onUnit_frame _ ?_
    | with_reducible refine next_frame ?_
    | with_reducible exact fault_frame _ _ _
    | with_reducible refine (countLane_frame _ _ _).after (by decide) ?_
    | with_reducible refine (modLane_frame _ _ _).after (by decide) ?_
    | extract_lets
    | with_reducible refine OnlyChanges.getD (fun _ _ => ?_) ?_
    | with_reducible refine OnlyChanges.foldl (fun _ _ => ?_) ?_
    | split

theorem execDelineationLock_frame (a0 s) : NextChanges [.lanes] s (execDelineationLock a0 s) := by
  unfold execDelineationLock
  repeat' first
    | with_reducible exact OnlyChanges.refl _ _
    | assumption
    | with_reducible refine onUnit_frame _ ?_
    | with_reducible refine next_frame ?_
    | with_reducible exact fault_frame _ _ _
    | with_reducible refine (setLanePhase_frame _ _ _).before ?_
    | extract_lets
    | with_reducible refine OnlyChanges.getD (fun _ _ => ?_) ?_
    | with_reducible refine OnlyChanges.foldl (fun _ _ => ?_) ?_
    | split

theorem execDelineateTimeout_frame (a0 s) : NextChanges [.lanes] s (execDelineateTimeout a0 s) := by
  unfold execDelineateTimeout
  repeat' first
    | with_reducible exact OnlyChanges.refl _ _
    | assumption
    | with_reducible refine onUnit_frame _ ?_
    | with_reducible refine next_frame ?_
    | with_reducible exact fault_frame _ _ _
    | with_reducible refine (setLanePhase_frame _ _ _).before ?_
    | extract_lets
    | with_reducible refine OnlyChanges.getD (fun _ _ => ?_) ?_
    | with_reducible refine OnlyChanges.foldl (fun _ _ => ?_) ?_
    | split

theorem loseSignal_frame (a0 a1 s) : OnlyChanges [.recoveryLog, .time, .lanes, .ports, .groups, .events,
    .neighbours, .counters, .crumbs, .devTime, .linkKeys] s (loseSignal a0 a1 s) := by
  unfold loseSignal
  repeat' first
    | with_reducible exact OnlyChanges.refl _ _
    | assumption
    | with_reducible refine (modLane_frame _ _ _).after (by decide) ?_
    | with_reducible refine (laneFalls_frame _ _ _).before ?_
    | extract_lets
    | with_reducible refine OnlyChanges.getD (fun _ _ => ?_) ?_
    | with_reducible refine OnlyChanges.foldl (fun _ _ => ?_) ?_
    | split

theorem execDelineationLoss_frame (a0 s) : NextChanges [.recoveryLog, .time, .lanes, .ports, .groups, .events,
    .neighbours, .counters, .crumbs, .devTime, .linkKeys] s (execDelineationLoss a0 s) := by
  unfold execDelineationLoss
  repeat' first
    | with_reducible exact OnlyChanges.refl _ _
    | assumption
    | with_reducible refine onUnit_frame _ ?_
    | with_reducible refine next_frame ?_
    | with_reducible exact fault_frame _ _ _
    | with_reducible refine (loseSignal_frame _ _ _).before ?_
    | with_reducible refine (countLane_frame _ _ _).after (by decide) ?_
    | extract_lets
    | with_reducible refine OnlyChanges.getD (fun _ _ => ?_) ?_
    | with_reducible refine OnlyChanges.foldl (fun _ _ => ?_) ?_
    | split

theorem execLightLost_frame (a0 s) : NextChanges [.recoveryLog, .time, .lanes, .ports, .groups, .events,
    .neighbours, .counters, .crumbs, .devTime, .linkKeys] s (execLightLost a0 s) := by
  unfold execLightLost
  repeat' first
    | with_reducible exact OnlyChanges.refl _ _
    | assumption
    | with_reducible refine onUnit_frame _ ?_
    | with_reducible refine next_frame ?_
    | with_reducible exact fault_frame _ _ _
    | with_reducible refine (loseSignal_frame _ _ _).before ?_

theorem execLaneErrorRate_frame (a0 s) : NextChanges [.recoveryLog, .time, .lanes, .ports, .groups, .events,
    .neighbours, .counters, .crumbs, .devTime, .linkKeys] s (execLaneErrorRate a0 s) := by
  unfold execLaneErrorRate
  repeat' first
    | with_reducible exact OnlyChanges.refl _ _
    | assumption
    | with_reducible refine onUnit_frame _ ?_
    | with_reducible refine next_frame ?_
    | with_reducible exact fault_frame _ _ _
    | with_reducible refine (removeLane_frame _ _ _).before ?_
    | with_reducible refine (failLane_frame _ _ _).before ?_
    | extract_lets
    | with_reducible refine OnlyChanges.getD (fun _ _ => ?_) ?_
    | with_reducible refine OnlyChanges.foldl (fun _ _ => ?_) ?_
    | split

theorem execVerifyPass_frame (a0 a1 s) : NextChanges [.recoveryLog, .lanes, .ports, .groups, .events, .neighbours,
    .counters, .crumbs, .linkKeys] s (execVerifyPass a0 a1 s) := by
  unfold execVerifyPass
  repeat' first
    | with_reducible exact OnlyChanges.refl _ _
    | assumption
    | with_reducible refine onUnit_frame _ ?_
    | with_reducible refine next_frame ?_
    | with_reducible exact fault_frame _ _ _
    | with_reducible refine (modLane_frame _ _ _).after (by decide) ?_
    | with_reducible refine (noteEntry_frame _ _ _).after (by decide) ?_
    | with_reducible refine (laneReady_frame _ _).before ?_
    | with_reducible refine (raiseBoth_frame _ _ _).after (by decide) ?_
    | extract_lets
    | with_reducible refine OnlyChanges.getD (fun _ _ => ?_) ?_
    | with_reducible refine OnlyChanges.foldl (fun _ _ => ?_) ?_
    | split

theorem laneReadyRx_frame (a0 a1 s) : OnlyChanges [.recoveryLog, .lanes, .ports, .groups, .events, .neighbours,
    .counters, .crumbs] s (laneReadyRx a0 a1 s) := by
  unfold laneReadyRx
  repeat' first
    | with_reducible exact OnlyChanges.refl _ _
    | assumption
    | with_reducible refine (tryJoin_frame _ _).before ?_
    | with_reducible refine (modLane_frame _ _ _).after (by decide) ?_
    | extract_lets
    | with_reducible refine OnlyChanges.getD (fun _ _ => ?_) ?_
    | with_reducible refine OnlyChanges.foldl (fun _ _ => ?_) ?_
    | split

theorem laneRemoveRx_frame (a0 a1 s) : OnlyChanges [.recoveryLog, .time, .lanes, .ports, .groups, .events,
    .neighbours, .counters, .crumbs, .devTime, .linkKeys] s (laneRemoveRx a0 a1 s) := by
  unfold laneRemoveRx
  repeat' first
    | with_reducible exact OnlyChanges.refl _ _
    | assumption
    | with_reducible refine (modLane_frame _ _ _).after (by decide) ?_
    | with_reducible refine (laneFalls_frame _ _ _).before ?_
    | extract_lets
    | with_reducible refine OnlyChanges.getD (fun _ _ => ?_) ?_
    | with_reducible refine OnlyChanges.foldl (fun _ _ => ?_) ?_
    | split

theorem execLaneMessageRx_frame (a0 a1 a2 a3 s) : NextChanges [.recoveryLog, .time, .lanes, .ports, .groups,
    .events, .neighbours, .counters, .crumbs, .devTime, .linkKeys] s (execLaneMessageRx a0 a1 a2 a3 s) := by
  unfold execLaneMessageRx
  repeat' first
    | with_reducible exact OnlyChanges.refl _ _
    | assumption
    | with_reducible refine onUnit_frame _ ?_
    | with_reducible refine next_frame ?_
    | with_reducible exact fault_frame _ _ _
    | with_reducible refine onMessage_frame _ _ _ _ (fun _ => ?_)
    | with_reducible refine (laneRemoveRx_frame _ _ _).before ?_
    | with_reducible refine (laneReadyRx_frame _ _ _).after (by decide) ?_
    | extract_lets
    | with_reducible refine OnlyChanges.getD (fun _ _ => ?_) ?_
    | with_reducible refine OnlyChanges.foldl (fun _ _ => ?_) ?_
    | split

theorem execPauseRx_frame (a0 a1 a2 a3 a4 s) : NextChanges [.ports] s (execPauseRx a0 a1 a2 a3 a4 s) := by
  unfold execPauseRx
  repeat' first
    | with_reducible exact OnlyChanges.refl _ _
    | assumption
    | with_reducible refine onUnit_frame _ ?_
    | with_reducible refine next_frame ?_
    | with_reducible exact fault_frame _ _ _
    | with_reducible refine onMessage_frame _ _ _ _ (fun _ => ?_)
    | with_reducible refine (modPort_frame _ _ _).before ?_

theorem execPauseWindowEnd_frame (a0 s) : NextChanges [.recoveryLog, .time, .lanes, .ports, .groups, .events,
    .neighbours, .counters, .crumbs, .devTime, .linkKeys] s (execPauseWindowEnd a0 s) := by
  unfold execPauseWindowEnd
  repeat' first
    | with_reducible exact OnlyChanges.refl _ _
    | assumption
    | with_reducible refine onUnit_frame _ ?_
    | with_reducible refine next_frame ?_
    | with_reducible exact fault_frame _ _ _
    | with_reducible refine (removeLane_frame _ _ _).before ?_
    | with_reducible refine (modPort_frame _ _ _).after (by decide) ?_
    | extract_lets
    | with_reducible refine OnlyChanges.getD (fun _ _ => ?_) ?_
    | with_reducible refine OnlyChanges.foldl (fun _ _ => ?_) ?_
    | split

theorem execRetrainRx_frame (a0 a1 s) : NextChanges [.recoveryLog, .time, .lanes, .ports, .groups, .events,
    .neighbours, .counters, .crumbs, .devTime, .linkKeys] s (execRetrainRx a0 a1 s) := by
  unfold execRetrainRx
  repeat' first
    | with_reducible exact OnlyChanges.refl _ _
    | assumption
    | with_reducible refine onUnit_frame _ ?_
    | with_reducible refine next_frame ?_
    | with_reducible exact fault_frame _ _ _
    | with_reducible refine onMessage_frame _ _ _ _ (fun _ => ?_)
    | with_reducible refine (enterResume_frame _ _ _).before ?_

theorem execLlAckRx_frame (a0 a1 a2 s) : NextChanges [.lanes, .ports] s (execLlAckRx a0 a1 a2 s) := by
  unfold execLlAckRx
  repeat' first
    | with_reducible exact OnlyChanges.refl _ _
    | assumption
    | with_reducible refine onUnit_frame _ ?_
    | with_reducible refine next_frame ?_
    | with_reducible exact fault_frame _ _ _
    | with_reducible refine (modPort_frame _ _ _).after (by decide) ?_
    | with_reducible refine (modLane_frame _ _ _).after (by decide) ?_
    | extract_lets
    | with_reducible refine OnlyChanges.getD (fun _ _ => ?_) ?_
    | with_reducible refine OnlyChanges.foldl (fun _ _ => ?_) ?_
    | split

theorem retryMsg_frame (a0 a1 s) : OnlyChanges [.recoveryLog, .ports, .events, .counters, .crumbs] s (retryMsg a0
    a1 s) := by
  unfold retryMsg
  repeat' first
    | with_reducible exact OnlyChanges.refl _ _
    | assumption
    | with_reducible refine (queueLocal_frame _ _ _ _).after (by decide) ?_
    | with_reducible refine (modPort_frame _ _ _).after (by decide) ?_
    | with_reducible refine (raise31_frame _ _ _).after (by decide) ?_
    | with_reducible refine (countPort_frame _ _ _ _).after (by decide) ?_
    | extract_lets
    | with_reducible refine OnlyChanges.getD (fun _ _ => ?_) ?_
    | with_reducible refine OnlyChanges.foldl (fun _ _ => ?_) ?_
    | split

theorem execLlRetryTick_frame (a0 s) : NextChanges [.recoveryLog, .ports, .events, .counters, .crumbs] s
    (execLlRetryTick a0 s) := by
  unfold execLlRetryTick
  repeat' first
    | with_reducible exact OnlyChanges.refl _ _
    | assumption
    | with_reducible refine onUnit_frame _ ?_
    | with_reducible refine next_frame ?_
    | with_reducible exact fault_frame _ _ _
    | with_reducible refine (retryMsg_frame _ _ _).before ?_
    | extract_lets
    | with_reducible refine OnlyChanges.getD (fun _ _ => ?_) ?_
    | with_reducible refine OnlyChanges.foldl (fun _ _ => ?_) ?_

theorem execHelloTick_frame (a0 s) : NextChanges [.ports] s (execHelloTick a0 s) := by
  unfold execHelloTick
  repeat' first
    | with_reducible exact OnlyChanges.refl _ _
    | assumption
    | with_reducible refine onUnit_frame _ ?_
    | with_reducible refine next_frame ?_
    | with_reducible exact fault_frame _ _ _
    | with_reducible refine (sendOnce_frame _ _ _ _ _).before ?_
    | extract_lets
    | with_reducible refine OnlyChanges.getD (fun _ _ => ?_) ?_
    | with_reducible refine OnlyChanges.foldl (fun _ _ => ?_) ?_
    | split

theorem execHelloWait_frame (a0 s) : NextChanges [.recoveryLog, .events, .counters, .crumbs] s (execHelloWait a0 s)
    := by
  unfold execHelloWait
  repeat' first
    | with_reducible exact OnlyChanges.refl _ _
    | assumption
    | with_reducible refine onUnit_frame _ ?_
    | with_reducible refine next_frame ?_
    | with_reducible exact fault_frame _ _ _
    | with_reducible refine (raise31_frame _ _ _).before ?_
    | extract_lets
    | with_reducible refine OnlyChanges.getD (fun _ _ => ?_) ?_
    | with_reducible refine OnlyChanges.foldl (fun _ _ => ?_) ?_
    | split

theorem helloInHello_frame (a0 a1 a2 s) : OnlyChanges [.recoveryLog, .ports, .groups, .events, .neighbours,
    .counters, .crumbs, .linkKeys] s (helloInHello a0 a1 a2 s) := by
  unfold helloInHello
  repeat' first
    | with_reducible exact OnlyChanges.refl _ _
    | assumption
    | with_reducible refine (modPort_frame _ _ _).after (by decide) ?_
    | with_reducible refine (raise31_frame _ _ _).after (by decide) ?_
    | with_reducible refine (enterCredit_frame _ _).before ?_
    | extract_lets
    | with_reducible refine OnlyChanges.getD (fun _ _ => ?_) ?_
    | with_reducible refine OnlyChanges.foldl (fun _ _ => ?_) ?_
    | split
    | extract_lets +lift
    | with_reducible refine OnlyChanges.foldl_fst (fun _ _ => ?_) ?_
    | with_reducible refine OnlyChanges.foldl_snd (fun _ _ => ?_) ?_
    | with_reducible refine OnlyChanges.of_fst (by assumption) ?_
    | with_reducible refine OnlyChanges.of_snd (by assumption) ?_
    | with_reducible refine OnlyChanges.upd rfl ?_

theorem ackUpTo_frame (a0 a1 s) : OnlyChanges [.ports, .packets, .queues, .room] s (ackUpTo a0 a1 s) := by
  unfold ackUpTo
  repeat' first
    | with_reducible exact OnlyChanges.refl _ _
    | assumption
    | with_reducible refine (modPort_frame _ _ _).after (by decide) ?_
    | with_reducible refine (dropCopy_frame _ _).before ?_
    | extract_lets
    | with_reducible refine OnlyChanges.getD (fun _ _ => ?_) ?_
    | with_reducible refine OnlyChanges.foldl (fun _ _ => ?_) ?_
    | split

theorem startReplay_frame (a0 a1 a2 s) : OnlyChanges [.recoveryLog, .ports, .events, .counters, .crumbs] s
    (startReplay a0 a1 a2 s) := by
  unfold startReplay
  repeat' first
    | with_reducible exact OnlyChanges.refl _ _
    | assumption
    | with_reducible refine (countPort_frame _ _ _ _).after (by decide) ?_
    | with_reducible refine (modPort_frame _ _ _).after (by decide) ?_

theorem resumePort_frame (a0 a1 s) : OnlyChanges [.recoveryLog, .time, .lanes, .ports, .packets, .queues, .room,
    .classes, .groups, .events, .neighbours, .counters, .crumbs, .devTime, .linkKeys] s (resumePort a0 a1 s) := by
  unfold resumePort
  repeat' first
    | with_reducible exact OnlyChanges.refl _ _
    | assumption
    | with_reducible refine (ackUpTo_frame _ _ _).after (by decide) ?_
    | with_reducible refine (startReplay_frame _ _ _ _).after (by decide) ?_
    | with_reducible refine (enterUp_frame _ _).after (by decide) ?_
    | with_reducible refine (modPort_frame _ _ _).after (by decide) ?_
    | extract_lets
    | with_reducible refine OnlyChanges.getD (fun _ _ => ?_) ?_
    | with_reducible refine OnlyChanges.foldl (fun _ _ => ?_) ?_
    | split

theorem recordHello_frame (a0 a1 a2 s) : OnlyChanges [.ports] s (recordHello a0 a1 a2 s) := by
  unfold recordHello
  repeat' first
    | with_reducible exact OnlyChanges.refl _ _
    | assumption
    | with_reducible refine (modPort_frame _ _ _).before ?_

theorem execHelloRx_frame (a0 a1 a2 s) : NextChanges [.recoveryLog, .time, .lanes, .ports, .packets, .queues,
    .room, .tables, .classes, .groups, .events, .neighbours, .counters, .crumbs, .devTime, .linkKeys] s
    (execHelloRx a0 a1 a2 s) := by
  unfold execHelloRx
  repeat' first
    | with_reducible exact OnlyChanges.refl _ _
    | assumption
    | with_reducible refine onUnit_frame _ ?_
    | with_reducible refine next_frame ?_
    | with_reducible exact fault_frame _ _ _
    | with_reducible refine (recordHello_frame _ _ _ _).after (by decide) ?_
    | with_reducible refine (helloInHello_frame _ _ _ _).after (by decide) ?_
    | with_reducible refine (tryHello_frame _ _).after (by decide) ?_
    | with_reducible refine (enterDown_frame _ _ _).after (by decide) ?_
    | with_reducible refine (resumePort_frame _ _ _).after (by decide) ?_
    | with_reducible refine (noteEntry_frame _ _ _).after (by decide) ?_
    | extract_lets
    | with_reducible refine OnlyChanges.getD (fun _ _ => ?_) ?_
    | with_reducible refine OnlyChanges.foldl (fun _ _ => ?_) ?_
    | split
    | extract_lets +lift
    | with_reducible refine OnlyChanges.foldl_fst (fun _ _ => ?_) ?_
    | with_reducible refine OnlyChanges.foldl_snd (fun _ _ => ?_) ?_
    | with_reducible refine OnlyChanges.of_fst (by assumption) ?_
    | with_reducible refine OnlyChanges.of_snd (by assumption) ?_
    | fail_if_no_progress (with_reducible refine OnlyChanges.upd rfl ?_)
    | dsimp +zetaDelta only []

theorem execCreditTimeout_frame (a0 s) : NextChanges [.recoveryLog, .time, .lanes, .ports, .packets, .queues,
    .room, .tables, .groups, .events, .neighbours, .counters, .crumbs, .devTime, .linkKeys] s (execCreditTimeout a0
    s) := by
  unfold execCreditTimeout
  repeat' first
    | with_reducible exact OnlyChanges.refl _ _
    | assumption
    | with_reducible refine onUnit_frame _ ?_
    | with_reducible refine next_frame ?_
    | with_reducible exact fault_frame _ _ _
    | with_reducible refine (tryHello_frame _ _).after (by decide) ?_
    | with_reducible refine (enterDown_frame _ _ _).before ?_
    | extract_lets
    | with_reducible refine OnlyChanges.getD (fun _ _ => ?_) ?_
    | with_reducible refine OnlyChanges.foldl (fun _ _ => ?_) ?_
    | split

theorem execResumeTimeout_frame (a0 s) : NextChanges [.recoveryLog, .time, .lanes, .ports, .packets, .queues,
    .room, .tables, .groups, .events, .neighbours, .counters, .crumbs, .devTime, .linkKeys] s (execResumeTimeout a0
    s) := by
  unfold execResumeTimeout
  repeat' first
    | with_reducible exact OnlyChanges.refl _ _
    | assumption
    | with_reducible refine onUnit_frame _ ?_
    | with_reducible refine next_frame ?_
    | with_reducible exact fault_frame _ _ _
    | with_reducible refine (tryHello_frame _ _).after (by decide) ?_
    | with_reducible refine (enterDown_frame _ _ _).before ?_
    | extract_lets
    | with_reducible refine OnlyChanges.getD (fun _ _ => ?_) ?_
    | with_reducible refine OnlyChanges.foldl (fun _ _ => ?_) ?_
    | split

theorem execReplayLimit_frame (a0 s) : NextChanges [.recoveryLog, .time, .lanes, .ports, .groups, .events,
    .neighbours, .counters, .crumbs, .devTime, .linkKeys] s (execReplayLimit a0 s) := by
  unfold execReplayLimit
  repeat' first
    | with_reducible exact OnlyChanges.refl _ _
    | assumption
    | with_reducible refine onUnit_frame _ ?_
    | with_reducible refine next_frame ?_
    | with_reducible exact fault_frame _ _ _
    | with_reducible refine (enterResume_frame _ _ _).before ?_
    | extract_lets
    | with_reducible refine OnlyChanges.getD (fun _ _ => ?_) ?_
    | with_reducible refine OnlyChanges.foldl (fun _ _ => ?_) ?_
    | split

end Sys2Proof.Machine
end

