-- ==== Sys2Proof/Laws/FrameWatch.lean ====
section
/-! SUPPORT. What the operations of Machine/Watch.lean leave unchanged. -/

set_option Elab.async false

namespace Sys2Proof.Machine

theorem filterSlice_frame (a0 a1 a2 s) : OnlyChanges [.recoveryLog, .events, .counters, .crumbs] s (filterSlice a0
    a1 a2 s) := by
  unfold filterSlice
  repeat' first
    | with_reducible exact OnlyChanges.refl _ _
    | assumption
    | with_reducible refine (countFilter_frame _ _ _ _ _ _).before ?_
    | extract_lets
    | with_reducible refine OnlyChanges.getD (fun _ _ => ?_) ?_
    | with_reducible refine OnlyChanges.foldl (fun _ _ => ?_) ?_
    | split

theorem filterGranary_frame (a0 s) : OnlyChanges [.recoveryLog, .events, .counters, .crumbs] s (filterGranary a0 s)
    := by
  unfold filterGranary
  repeat' first
    | with_reducible exact OnlyChanges.refl _ _
    | assumption
    | with_reducible refine (countFilter_frame _ _ _ _ _ _).before ?_
    | extract_lets
    | with_reducible refine OnlyChanges.getD (fun _ _ => ?_) ?_
    | with_reducible refine OnlyChanges.foldl (fun _ _ => ?_) ?_
    | split

theorem escalate_frame (a0 a1 a2 a3 s) : OnlyChanges [.recoveryLog, .events, .counters, .crumbs, .escalation] s
    (escalate a0 a1 a2 a3 s) := by
  unfold escalate
  repeat' first
    | with_reducible exact OnlyChanges.refl _ _
    | assumption
    | with_reducible refine (countControl_frame _ _).after (by decide) ?_
    | extract_lets
    | with_reducible refine OnlyChanges.getD (fun _ _ => ?_) ?_
    | with_reducible refine OnlyChanges.foldl (fun _ _ => ?_) ?_
    | split
    | extract_lets +lift
    | with_reducible refine OnlyChanges.foldl_fst (fun _ _ => ?_) ?_
    | with_reducible refine OnlyChanges.foldl_snd (fun _ _ => ?_) ?_
    | with_reducible refine OnlyChanges.of_fst (by assumption) ?_
    | with_reducible refine OnlyChanges.of_snd (by assumption) ?_
    | with_reducible refine OnlyChanges.upd rfl ?_

theorem escalateIsland_frame (a0 a1 a2 s) : OnlyChanges [.recoveryLog, .events, .counters, .crumbs, .escalation] s
    (escalateIsland a0 a1 a2 s) := by
  unfold escalateIsland
  repeat' first
    | with_reducible exact OnlyChanges.refl _ _
    | assumption
    | with_reducible refine (escalate_frame _ _ _ _ _).before ?_
    | extract_lets
    | with_reducible refine OnlyChanges.getD (fun _ _ => ?_) ?_
    | with_reducible refine OnlyChanges.foldl (fun _ _ => ?_) ?_
    | split

end Sys2Proof.Machine
end

