-- ==== Sys2Proof/Laws/FrameBlocks.lean ====
section
/-! SUPPORT. What the operations of Machine/Blocks.lean leave unchanged. -/

set_option Elab.async false

namespace Sys2Proof.Machine

theorem startNak_frame (a0 s) : OnlyChanges [.recoveryLog, .ports, .events, .counters, .crumbs] s (startNak a0 s)
    := by
  unfold startNak
  repeat' first
    | with_reducible exact OnlyChanges.refl _ _
    | assumption
    | with_reducible refine (countPort_frame _ _ _ _).after (by decide) ?_
    | with_reducible refine (modPort_frame _ _ _).after (by decide) ?_

theorem nakReceived_frame (a0 a1 s) : OnlyChanges [.recoveryLog, .ports, .events, .counters, .crumbs] s
    (nakReceived a0 a1 s) := by
  unfold nakReceived
  repeat' first
    | with_reducible exact OnlyChanges.refl _ _
    | assumption
    | with_reducible refine (countPort_frame _ _ _ _).after (by decide) ?_
    | with_reducible refine (startReplay_frame _ _ _ _).before ?_
    | extract_lets
    | with_reducible refine OnlyChanges.getD (fun _ _ => ?_) ?_
    | with_reducible refine OnlyChanges.foldl (fun _ _ => ?_) ?_
    | split

theorem applyAck_frame (a0 a1 s) : OnlyChanges [.recoveryLog, .ports, .packets, .queues, .room, .events, .counters,
    .crumbs] s (applyAck a0 a1 s) := by
  unfold applyAck
  repeat' first
    | with_reducible exact OnlyChanges.refl _ _
    | assumption
    | with_reducible refine (ackUpTo_frame _ _ _).after (by decide) ?_
    | with_reducible refine (nakReceived_frame _ _ _).after (by decide) ?_
    | extract_lets
    | with_reducible refine OnlyChanges.getD (fun _ _ => ?_) ?_
    | with_reducible refine OnlyChanges.foldl (fun _ _ => ?_) ?_
    | split

theorem applyCredit_frame (a0 a1 s) : OnlyChanges [.recoveryLog, .time, .lanes, .ports, .classes, .groups, .events,
    .neighbours, .counters, .crumbs, .devTime, .linkKeys] s (applyCredit a0 a1 s) := by
  unfold applyCredit
  repeat' first
    | with_reducible exact OnlyChanges.refl _ _
    | assumption
    | with_reducible refine (modPort_frame _ _ _).after (by decide) ?_
    | with_reducible refine (enterUp_frame _ _).before ?_
    | extract_lets
    | with_reducible refine OnlyChanges.getD (fun _ _ => ?_) ?_
    | with_reducible refine OnlyChanges.foldl (fun _ _ => ?_) ?_
    | split

theorem arrive_frame (a0 a1 a2 s) : OnlyChanges [.recoveryLog, .ports, .events, .counters, .crumbs] s (arrive a0 a1
    a2 s).1 := by
  unfold arrive
  repeat' first
    | with_reducible exact OnlyChanges.refl _ _
    | assumption
    | with_reducible refine (countLane_frame _ _ _).after (by decide) ?_
    | with_reducible refine (startNak_frame _ _).before ?_
    | extract_lets
    | with_reducible refine OnlyChanges.getD (fun _ _ => ?_) ?_
    | with_reducible refine OnlyChanges.foldl (fun _ _ => ?_) ?_
    | split

theorem applyFields_frame (a0 a1 s) : OnlyChanges [.recoveryLog, .time, .lanes, .ports, .packets, .queues, .room,
    .classes, .groups, .events, .neighbours, .counters, .crumbs, .devTime, .linkKeys] s (applyFields a0 a1 s) := by
  unfold applyFields
  repeat' first
    | with_reducible exact OnlyChanges.refl _ _
    | assumption
    | with_reducible refine (applyCredit_frame _ _ _).after (by decide) ?_
    | with_reducible refine (applyAck_frame _ _ _).after (by decide) ?_

theorem execIdleBlockRx_frame (a0 a1 s) : NextChanges [.recoveryLog, .time, .lanes, .ports, .packets, .queues,
    .room, .classes, .groups, .events, .neighbours, .counters, .crumbs, .devTime, .linkKeys] s (execIdleBlockRx a0
    a1 s) := by
  unfold execIdleBlockRx
  repeat' first
    | with_reducible exact OnlyChanges.refl _ _
    | assumption
    | with_reducible refine onUnit_frame _ ?_
    | with_reducible refine next_frame ?_
    | with_reducible exact fault_frame _ _ _
    | with_reducible refine (arrive_frame _ _ _ _).after (by decide) ?_
    | with_reducible refine (applyFields_frame _ _ _).before ?_
    | extract_lets
    | with_reducible refine OnlyChanges.getD (fun _ _ => ?_) ?_
    | with_reducible refine OnlyChanges.foldl (fun _ _ => ?_) ?_
    | split
    | extract_lets +lift
    | with_reducible refine OnlyChanges.foldl_fst (fun _ _ => ?_) ?_
    | with_reducible refine OnlyChanges.foldl_snd (fun _ _ => ?_) ?_
    | with_reducible refine OnlyChanges.of_fst (by assumption) ?_

theorem discardOpen_frame (a0 a1 s) : OnlyChanges [.recoveryLog, .ports, .packets, .queues, .room, .events,
    .counters, .crumbs] s (discardOpen a0 a1 s) := by
  unfold discardOpen
  repeat' first
    | with_reducible exact OnlyChanges.refl _ _
    | assumption
    | with_reducible refine (abortArriving_frame _ _).before ?_
    | with_reducible refine (countPort_frame _ _ _ _).after (by decide) ?_
    | with_reducible refine (modPort_frame _ _ _).after (by decide) ?_
    | extract_lets
    | with_reducible refine OnlyChanges.getD (fun _ _ => ?_) ?_
    | with_reducible refine OnlyChanges.foldl (fun _ _ => ?_) ?_

theorem deliverSlot_frame (a0 a1 s) : OnlyChanges [.recoveryLog, .ports, .packets, .queues, .room, .events,
    .counters, .crumbs] s (deliverSlot a0 a1 s) := by
  unfold deliverSlot
  repeat' first
    | with_reducible exact OnlyChanges.refl _ _
    | assumption
    | with_reducible refine (countPort_frame _ _ _ _).after (by decide) ?_
    | with_reducible refine (discardOpen_frame _ _ _).before ?_
    | with_reducible refine (modPort_frame _ _ _).after (by decide) ?_
    | extract_lets
    | with_reducible refine OnlyChanges.getD (fun _ _ => ?_) ?_
    | with_reducible refine OnlyChanges.foldl (fun _ _ => ?_) ?_
    | split
    | extract_lets +lift
    | with_reducible refine OnlyChanges.foldl_fst (fun _ _ => ?_) ?_
    | with_reducible refine OnlyChanges.foldl_snd (fun _ _ => ?_) ?_
    | with_reducible refine OnlyChanges.of_fst (by assumption) ?_
    | with_reducible refine OnlyChanges.of_snd (by assumption) ?_
    | fail_if_no_progress (with_reducible refine OnlyChanges.upd rfl ?_)
    | dsimp +zetaDelta only []

theorem deliverRun_frame (a0 a1 a2 s) : OnlyChanges [.recoveryLog, .ports, .packets, .queues, .room, .events,
    .counters, .crumbs] s (deliverRun a0 a1 a2 s) := by
  fun_induction deliverRun a0 a1 a2 s
  all_goals
  repeat' first
    | with_reducible exact OnlyChanges.refl _ _
    | assumption
    | with_reducible refine (modPort_frame _ _ _).after (by decide) ?_
    | with_reducible refine (deliverSlot_frame _ _ _).before ?_
    | extract_lets
    | with_reducible refine OnlyChanges.getD (fun _ _ => ?_) ?_
    | with_reducible refine OnlyChanges.foldl (fun _ _ => ?_) ?_
    | split
    | extract_lets +lift
    | with_reducible refine OnlyChanges.foldl_fst (fun _ _ => ?_) ?_
    | with_reducible refine OnlyChanges.foldl_snd (fun _ _ => ?_) ?_
    | with_reducible refine OnlyChanges.of_fst (by assumption) ?_
    | with_reducible refine OnlyChanges.of_snd (by assumption) ?_
    | with_reducible refine OnlyChanges.trans ?_ (by assumption)

theorem sequenceBlock_frame (a0 a1 s) : OnlyChanges [.recoveryLog, .ports, .packets, .queues, .room, .events,
    .counters, .crumbs] s (sequenceBlock a0 a1 s) := by
  unfold sequenceBlock
  repeat' first
    | with_reducible exact OnlyChanges.refl _ _
    | assumption
    | with_reducible refine (deliverRun_frame _ _ _ _).before ?_
    | with_reducible refine (modPort_frame _ _ _).after (by decide) ?_
    | with_reducible refine (startNak_frame _ _).after (by decide) ?_
    | with_reducible refine (countPort_frame _ _ _ _).after (by decide) ?_
    | extract_lets
    | with_reducible refine OnlyChanges.getD (fun _ _ => ?_) ?_
    | with_reducible refine OnlyChanges.foldl (fun _ _ => ?_) ?_
    | split

theorem execDataBlockRx_frame (a0 a1 s) : NextChanges [.recoveryLog, .time, .lanes, .ports, .packets, .queues,
    .room, .classes, .groups, .events, .neighbours, .counters, .crumbs, .devTime, .linkKeys] s (execDataBlockRx a0
    a1 s) := by
  unfold execDataBlockRx
  repeat' first
    | with_reducible exact OnlyChanges.refl _ _
    | assumption
    | with_reducible refine onUnit_frame _ ?_
    | with_reducible refine next_frame ?_
    | with_reducible exact fault_frame _ _ _
    | with_reducible refine (arrive_frame _ _ _ _).after (by decide) ?_
    | with_reducible refine (sequenceBlock_frame _ _ _).after (by decide) ?_
    | with_reducible refine (applyFields_frame _ _ _).before ?_
    | with_reducible refine (countLane_frame _ _ _).after (by decide) ?_
    | extract_lets
    | with_reducible refine OnlyChanges.getD (fun _ _ => ?_) ?_
    | with_reducible refine OnlyChanges.foldl (fun _ _ => ?_) ?_
    | split
    | extract_lets +lift
    | with_reducible refine OnlyChanges.foldl_fst (fun _ _ => ?_) ?_
    | with_reducible refine OnlyChanges.foldl_snd (fun _ _ => ?_) ?_
    | with_reducible refine OnlyChanges.of_fst (by assumption) ?_

theorem execLocalBlockRx_frame (a0 a1 s) : NextChanges [.recoveryLog, .time, .lanes, .ports, .packets, .queues,
    .room, .classes, .groups, .events, .neighbours, .counters, .crumbs, .devTime, .linkKeys] s (execLocalBlockRx a0
    a1 s) := by
  unfold execLocalBlockRx
  repeat' first
    | with_reducible exact OnlyChanges.refl _ _
    | assumption
    | with_reducible refine onUnit_frame _ ?_
    | with_reducible refine next_frame ?_
    | with_reducible exact fault_frame _ _ _
    | with_reducible refine (arrive_frame _ _ _ _).after (by decide) ?_
    | with_reducible refine (applyFields_frame _ _ _).before ?_
    | with_reducible refine (countPort_frame _ _ _ _).after (by decide) ?_
    | extract_lets
    | with_reducible refine OnlyChanges.getD (fun _ _ => ?_) ?_
    | with_reducible refine OnlyChanges.foldl (fun _ _ => ?_) ?_
    | split
    | extract_lets +lift
    | with_reducible refine OnlyChanges.foldl_fst (fun _ _ => ?_) ?_
    | with_reducible refine OnlyChanges.foldl_snd (fun _ _ => ?_) ?_
    | with_reducible refine OnlyChanges.of_fst (by assumption) ?_

theorem execNakGapTimeout_frame (a0 s) : NextChanges [.recoveryLog, .ports, .events, .counters, .crumbs] s
    (execNakGapTimeout a0 s) := by
  unfold execNakGapTimeout
  repeat' first
    | with_reducible exact OnlyChanges.refl _ _
    | assumption
    | with_reducible refine onUnit_frame _ ?_
    | with_reducible refine next_frame ?_
    | with_reducible exact fault_frame _ _ _
    | with_reducible refine (startNak_frame _ _).before ?_
    | extract_lets
    | with_reducible refine OnlyChanges.getD (fun _ _ => ?_) ?_
    | with_reducible refine OnlyChanges.foldl (fun _ _ => ?_) ?_
    | split

theorem execAckTimeoutReplay_frame (a0 s) : NextChanges [.recoveryLog, .ports, .events, .counters, .crumbs] s
    (execAckTimeoutReplay a0 s) := by
  unfold execAckTimeoutReplay
  repeat' first
    | with_reducible exact OnlyChanges.refl _ _
    | assumption
    | with_reducible refine onUnit_frame _ ?_
    | with_reducible refine next_frame ?_
    | with_reducible exact fault_frame _ _ _
    | with_reducible refine (startReplay_frame _ _ _ _).before ?_
    | extract_lets
    | with_reducible refine OnlyChanges.getD (fun _ _ => ?_) ?_
    | with_reducible refine OnlyChanges.foldl (fun _ _ => ?_) ?_
    | split

theorem execCreditRepeatTick_frame (a0 s) : NextChanges [.ports] s (execCreditRepeatTick a0 s) := by
  unfold execCreditRepeatTick
  repeat' first
    | with_reducible exact OnlyChanges.refl _ _
    | assumption
    | with_reducible refine onUnit_frame _ ?_
    | with_reducible refine next_frame ?_
    | with_reducible exact fault_frame _ _ _
    | with_reducible refine (modPort_frame _ _ _).before ?_
    | extract_lets
    | with_reducible refine OnlyChanges.getD (fun _ _ => ?_) ?_
    | with_reducible refine OnlyChanges.foldl (fun _ _ => ?_) ?_
    | split

theorem execCreditTargetTick_frame (a0 s) : NextChanges [.ports] s (execCreditTargetTick a0 s) := by
  unfold execCreditTargetTick
  repeat' first
    | with_reducible exact OnlyChanges.refl _ _
    | assumption
    | with_reducible refine onUnit_frame _ ?_
    | with_reducible refine next_frame ?_
    | with_reducible exact fault_frame _ _ _
    | with_reducible refine (modPort_frame _ _ _).before ?_

theorem execCreditGrantTick_frame (a0 s) : NextChanges [.ports] s (execCreditGrantTick a0 s) := by
  unfold execCreditGrantTick
  repeat' first
    | with_reducible exact OnlyChanges.refl _ _
    | assumption
    | with_reducible refine onUnit_frame _ ?_
    | with_reducible refine next_frame ?_
    | with_reducible exact fault_frame _ _ _
    | with_reducible refine (modPort_frame _ _ _).before ?_
    | extract_lets
    | with_reducible refine OnlyChanges.getD (fun _ _ => ?_) ?_
    | with_reducible refine OnlyChanges.foldl (fun _ _ => ?_) ?_
    | split

theorem purgeQueue_frame (a0 a1 s) : OnlyChanges [.recoveryLog, .ports, .packets, .queues, .room, .events,
    .counters, .crumbs] s (purgeQueue a0 a1 s) := by
  fun_induction purgeQueue a0 a1 s
  all_goals
  repeat' first
    | with_reducible exact OnlyChanges.refl _ _
    | assumption
    | with_reducible refine (releaseEntry_frame _ _ _).after (by decide) ?_
    | with_reducible refine (setVoq_frame _ _ _).after (by decide) ?_
    | with_reducible refine (countDrop_frame _ _ _).after (by decide) ?_
    | with_reducible refine (dropCopy_frame _ _).after (by decide) ?_
    | extract_lets
    | with_reducible refine OnlyChanges.getD (fun _ _ => ?_) ?_
    | with_reducible refine OnlyChanges.foldl (fun _ _ => ?_) ?_
    | split
    | extract_lets +lift
    | with_reducible refine OnlyChanges.foldl_fst (fun _ _ => ?_) ?_
    | with_reducible refine OnlyChanges.foldl_snd (fun _ _ => ?_) ?_
    | with_reducible refine OnlyChanges.of_fst (by assumption) ?_
    | with_reducible refine OnlyChanges.of_snd (by assumption) ?_
    | with_reducible refine OnlyChanges.trans ?_ (by assumption)

theorem purgePort_frame (a0 s) : OnlyChanges [.recoveryLog, .ports, .packets, .queues, .room, .events, .counters,
    .crumbs] s (purgePort a0 s) := by
  unfold purgePort
  repeat' first
    | with_reducible exact OnlyChanges.refl _ _
    | assumption
    | with_reducible refine (purgeQueue_frame _ _ _).before ?_
    | extract_lets
    | with_reducible refine OnlyChanges.getD (fun _ _ => ?_) ?_
    | with_reducible refine OnlyChanges.foldl (fun _ _ => ?_) ?_

theorem chargeShaper_frame (a0 a1 a2 s) : OnlyChanges [.classes] s (chargeShaper a0 a1 a2 s) := by
  unfold chargeShaper
  repeat' first
    | with_reducible exact OnlyChanges.refl _ _
    | assumption
    | extract_lets
    | with_reducible refine OnlyChanges.getD (fun _ _ => ?_) ?_
    | with_reducible refine OnlyChanges.foldl (fun _ _ => ?_) ?_
    | split
    | extract_lets +lift
    | with_reducible refine OnlyChanges.foldl_fst (fun _ _ => ?_) ?_
    | with_reducible refine OnlyChanges.foldl_snd (fun _ _ => ?_) ?_
    | with_reducible refine OnlyChanges.of_fst (by assumption) ?_
    | with_reducible refine OnlyChanges.of_snd (by assumption) ?_
    | with_reducible refine OnlyChanges.upd rfl ?_

theorem chargeLossy_frame (a0 a1 a2 s) : OnlyChanges [.classes] s (chargeLossy a0 a1 a2 s) := by
  unfold chargeLossy
  repeat' first
    | with_reducible exact OnlyChanges.refl _ _
    | assumption
    | extract_lets
    | with_reducible refine OnlyChanges.getD (fun _ _ => ?_) ?_
    | with_reducible refine OnlyChanges.foldl (fun _ _ => ?_) ?_
    | split
    | extract_lets +lift
    | with_reducible refine OnlyChanges.foldl_fst (fun _ _ => ?_) ?_
    | with_reducible refine OnlyChanges.foldl_snd (fun _ _ => ?_) ?_
    | with_reducible refine OnlyChanges.of_fst (by assumption) ?_
    | with_reducible refine OnlyChanges.of_snd (by assumption) ?_
    | with_reducible refine OnlyChanges.upd rfl ?_

theorem modSched_frame (a0 a1 s) : OnlyChanges [.classes] s (modSched a0 a1 s) := by
  unfold modSched
  repeat' first
    | with_reducible exact OnlyChanges.refl _ _
    | assumption
    | extract_lets
    | with_reducible refine OnlyChanges.getD (fun _ _ => ?_) ?_
    | with_reducible refine OnlyChanges.foldl (fun _ _ => ?_) ?_
    | split
    | extract_lets +lift
    | with_reducible refine OnlyChanges.foldl_fst (fun _ _ => ?_) ?_
    | with_reducible refine OnlyChanges.foldl_snd (fun _ _ => ?_) ?_
    | with_reducible refine OnlyChanges.of_fst (by assumption) ?_
    | with_reducible refine OnlyChanges.of_snd (by assumption) ?_
    | with_reducible refine OnlyChanges.upd rfl ?_

theorem c0Event_frame (a0 a1 s) : OnlyChanges [.recoveryLog, .classes, .events, .counters, .crumbs] s (c0Event a0
    a1 s) := by
  unfold c0Event
  repeat' first
    | with_reducible exact OnlyChanges.refl _ _
    | assumption
    | with_reducible refine (raise31_frame _ _ _).after (by decide) ?_
    | extract_lets
    | with_reducible refine OnlyChanges.getD (fun _ _ => ?_) ?_
    | with_reducible refine OnlyChanges.foldl (fun _ _ => ?_) ?_
    | split
    | extract_lets +lift
    | with_reducible refine OnlyChanges.foldl_fst (fun _ _ => ?_) ?_
    | with_reducible refine OnlyChanges.foldl_snd (fun _ _ => ?_) ?_
    | with_reducible refine OnlyChanges.of_fst (by assumption) ?_
    | with_reducible refine OnlyChanges.of_snd (by assumption) ?_
    | with_reducible refine OnlyChanges.upd rfl ?_

theorem c0Measure_frame (a0 s) : OnlyChanges [.recoveryLog, .classes, .events, .counters, .crumbs] s (c0Measure a0
    s) := by
  unfold c0Measure
  repeat' first
    | with_reducible exact OnlyChanges.refl _ _
    | assumption
    | with_reducible refine (c0Event_frame _ _ _).before ?_
    | with_reducible refine (countQueue_frame _ _ _ _ _).after (by decide) ?_
    | extract_lets
    | with_reducible refine OnlyChanges.getD (fun _ _ => ?_) ?_
    | with_reducible refine OnlyChanges.foldl (fun _ _ => ?_) ?_
    | split
    | extract_lets +lift
    | with_reducible refine OnlyChanges.foldl_fst (fun _ _ => ?_) ?_
    | with_reducible refine OnlyChanges.foldl_snd (fun _ _ => ?_) ?_
    | with_reducible refine OnlyChanges.of_fst (by assumption) ?_
    | with_reducible refine OnlyChanges.of_snd (by assumption) ?_
    | with_reducible refine OnlyChanges.upd rfl ?_

theorem launchStamp_frame (a0 a1 s) : OnlyChanges [.recoveryLog, .launches, .packets, .events, .counters, .crumbs]
    s (launchStamp a0 a1 s) := by
  unfold launchStamp
  repeat' first
    | with_reducible exact OnlyChanges.refl _ _
    | assumption
    | with_reducible refine (modStored_frame _ _ _).after (by decide) ?_
    | with_reducible refine modTime_frame _ ?_
    | with_reducible refine (raiseOwner_frame _ _ _ _ _).after (by decide) ?_
    | extract_lets
    | with_reducible refine OnlyChanges.getD (fun _ _ => ?_) ?_
    | with_reducible refine OnlyChanges.foldl (fun _ _ => ?_) ?_
    | split

theorem sendBlock_frame (a0 a1 a2 a3 a4 s) : OnlyChanges [.recoveryLog, .ports, .events, .counters, .crumbs, .out]
    s (sendBlock a0 a1 a2 a3 a4 s) := by
  unfold sendBlock
  repeat' first
    | with_reducible exact OnlyChanges.refl _ _
    | assumption
    | with_reducible refine (emit_frame _ _).after (by decide) ?_
    | with_reducible refine (countLane_frame _ _ _).after (by decide) ?_
    | with_reducible refine (modPort_frame _ _ _).after (by decide) ?_

theorem sendIdle_frame (a0 a1 s) : OnlyChanges [.recoveryLog, .ports, .events, .counters, .crumbs, .out] s
    (sendIdle a0 a1 s) := by
  unfold sendIdle
  repeat' first
    | with_reducible exact OnlyChanges.refl _ _
    | assumption
    | with_reducible refine (sendBlock_frame _ _ _ _ _ _).before ?_

theorem sendData_frame (a0 a1 a2 s) : OnlyChanges [.recoveryLog, .ports, .events, .counters, .crumbs, .out] s
    (sendData a0 a1 a2 s) := by
  unfold sendData
  repeat' first
    | with_reducible exact OnlyChanges.refl _ _
    | assumption
    | with_reducible refine (sendBlock_frame _ _ _ _ _ _).before ?_

theorem sendSlot_frame (a0 a1 a2 a3 s) : OnlyChanges [.recoveryLog, .launches, .ports, .packets, .numbering,
    .classes, .events, .counters, .crumbs, .out] s (sendSlot a0 a1 a2 a3 s) := by
  unfold sendSlot
  repeat' first
    | with_reducible exact OnlyChanges.refl _ _
    | assumption
    | with_reducible refine (modPort_frame _ _ _).after (by decide) ?_
    | with_reducible refine (launchStamp_frame _ _ _).after (by decide) ?_
    | with_reducible refine (countPort_frame _ _ _ _).after (by decide) ?_
    | with_reducible refine (c0Measure_frame _ _).after (by decide) ?_
    | with_reducible refine (sendData_frame _ _ _ _).after (by decide) ?_
    | with_reducible refine modBuf_frame _ ?_
    | extract_lets
    | with_reducible refine OnlyChanges.getD (fun _ _ => ?_) ?_
    | with_reducible refine OnlyChanges.foldl (fun _ _ => ?_) ?_
    | split

theorem beginCopy_frame (a0 a1 a2 s) : OnlyChanges [.recoveryLog, .ports, .queues, .events, .counters, .crumbs] s
    (beginCopy a0 a1 a2 s) := by
  unfold beginCopy
  repeat' first
    | with_reducible exact OnlyChanges.refl _ _
    | assumption
    | with_reducible refine modBuf_frame _ ?_
    | with_reducible refine (releaseEntry_frame _ _ _).after (by decide) ?_
    | with_reducible refine (setVoq_frame _ _ _).after (by decide) ?_
    | with_reducible refine (filterSlice_frame _ _ _ _).after (by decide) ?_
    | with_reducible refine (modPort_frame _ _ _).after (by decide) ?_
    | extract_lets
    | with_reducible refine OnlyChanges.getD (fun _ _ => ?_) ?_
    | with_reducible refine OnlyChanges.foldl (fun _ _ => ?_) ?_
    | split

theorem sendReplay_frame (a0 a1 a2 s) : OnlyChanges [.recoveryLog, .ports, .events, .counters, .crumbs, .out] s
    (sendReplay a0 a1 a2 s) := by
  unfold sendReplay
  repeat' first
    | with_reducible exact OnlyChanges.refl _ _
    | assumption
    | with_reducible refine (sendData_frame _ _ _ _).before ?_
    | with_reducible refine (modPort_frame _ _ _).after (by decide) ?_

theorem sendLocal_frame (a0 a1 a2 a3 s) : OnlyChanges [.recoveryLog, .ports, .events, .counters, .crumbs, .out] s
    (sendLocal a0 a1 a2 a3 s) := by
  unfold sendLocal
  repeat' first
    | with_reducible exact OnlyChanges.refl _ _
    | assumption
    | with_reducible refine (modPort_frame _ _ _).after (by decide) ?_
    | with_reducible refine (sendBlock_frame _ _ _ _ _ _).before ?_

theorem scheduleNew_frame (a0 s) : ∀ t, scheduleNew a0 s = some t → OnlyChanges [.recoveryLog, .ports, .queues,
    .classes, .events, .counters, .crumbs] s t.2.2 := by
  intro t ht
  revert ht
  unfold scheduleNew
  repeat' first
    | with_reducible exact OnlyChanges.refl _ _
    | assumption
    | with_reducible refine (modSched_frame _ _ _).after (by decide) ?_
    | with_reducible refine (chargeLossy_frame _ _ _ _).after (by decide) ?_
    | with_reducible refine (chargeShaper_frame _ _ _ _).after (by decide) ?_
    | with_reducible refine (modPort_frame _ _ _).after (by decide) ?_
    | with_reducible refine (beginCopy_frame _ _ _ _).after (by decide) ?_
    | (intro ht; (first | (injection ht with ht; subst ht) | (simp at ht; done)))
    | extract_lets
    | with_reducible refine OnlyChanges.getD (fun _ _ => ?_) ?_
    | with_reducible refine OnlyChanges.foldl (fun _ _ => ?_) ?_
    | split

theorem serveSlot_frame (a0 a1 s) : OnlyChanges [.recoveryLog, .launches, .ports, .packets, .queues, .room,
    .numbering, .classes, .events, .counters, .crumbs, .out] s (serveSlot a0 a1 s) := by
  unfold serveSlot
  repeat' first
    | with_reducible exact OnlyChanges.refl _ _
    | assumption
    | with_reducible refine (purgePort_frame _ _).after (by decide) ?_
    | with_reducible refine (c0Event_frame _ _ _).after (by decide) ?_
    | with_reducible refine (countQueue_frame _ _ _ _ _).after (by decide) ?_
    | with_reducible refine (sendReplay_frame _ _ _ _).after (by decide) ?_
    | with_reducible refine (sendLocal_frame _ _ _ _ _).after (by decide) ?_
    | with_reducible refine (sendSlot_frame _ _ _ _ _).after (by decide) ?_
    | with_reducible refine (beginCopy_frame _ _ _ _).after (by decide) ?_
    | with_reducible refine (sendIdle_frame _ _ _).after (by decide) ?_
    | with_reducible refine (scheduleNew_frame _ _ (_, _, _) (by assumption)).after (by decide) ?_
    | extract_lets
    | with_reducible refine OnlyChanges.getD (fun _ _ => ?_) ?_
    | with_reducible refine OnlyChanges.foldl (fun _ _ => ?_) ?_
    | split
    | extract_lets +lift
    | with_reducible refine OnlyChanges.foldl_fst (fun _ _ => ?_) ?_
    | with_reducible refine OnlyChanges.foldl_snd (fun _ _ => ?_) ?_
    | with_reducible refine OnlyChanges.of_fst (by assumption) ?_
    | with_reducible refine OnlyChanges.of_snd (by assumption) ?_
    | fail_if_no_progress (with_reducible refine OnlyChanges.upd rfl ?_)
    | dsimp +zetaDelta only []

theorem execBlockSlot_frame (a0 s) : NextChanges [.recoveryLog, .launches, .ports, .packets, .queues, .room,
    .numbering, .classes, .events, .counters, .crumbs, .out] s (execBlockSlot a0 s) := by
  unfold execBlockSlot
  repeat' first
    | with_reducible exact OnlyChanges.refl _ _
    | assumption
    | with_reducible refine onUnit_frame _ ?_
    | with_reducible refine next_frame ?_
    | with_reducible exact fault_frame _ _ _
    | with_reducible refine (serveSlot_frame _ _ _).before ?_
    | with_reducible refine (sendLocal_frame _ _ _ _ _).after (by decide) ?_
    | with_reducible refine (sendIdle_frame _ _ _).after (by decide) ?_
    | extract_lets
    | with_reducible refine OnlyChanges.getD (fun _ _ => ?_) ?_
    | with_reducible refine OnlyChanges.foldl (fun _ _ => ?_) ?_
    | split

end Sys2Proof.Machine
end

