-- ==== Sys2Proof/Laws/FramePortCmd.lean ====
section
/-! SUPPORT. What the operations of Machine/PortCmd.lean leave unchanged. -/

set_option Elab.async false

namespace Sys2Proof.Machine

theorem setWidth_frame (s a0) : OnlyChanges [.recoveryLog, .time, .lanes, .ports, .packets, .queues, .room,
    .tables, .groups, .events, .neighbours, .counters, .crumbs, .devTime, .linkKeys] s (setWidth s a0) := by
  unfold setWidth
  repeat' first
    | with_reducible exact OnlyChanges.refl _ _
    | assumption
    | with_reducible refine (modPort_frame _ _ _).after (by decide) ?_
    | with_reducible refine (enterDown_frame _ _ _).before ?_
    | with_reducible refine (tellNeighbours_frame _).after (by decide) ?_
    | with_reducible refine (tryHello_frame _ _).after (by decide) ?_
    | with_reducible refine (recheckBarriers_frame _).after (by decide) ?_
    | extract_lets
    | with_reducible refine OnlyChanges.getD (fun _ _ => ?_) ?_
    | with_reducible refine OnlyChanges.foldl (fun _ _ => ?_) ?_
    | split
    | extract_lets +lift
    | with_reducible refine OnlyChanges.foldl_fst (fun _ _ => ?_) ?_
    | with_reducible refine OnlyChanges.foldl_snd (fun _ _ => ?_) ?_
    | with_reducible refine OnlyChanges.of_fst (by assumption) ?_
    | with_reducible refine OnlyChanges.of_snd (by assumption) ?_
    | with_reducible refine OnlyChanges.upd rfl ?_

theorem execPortWidth_frame (a0 a1 s) : NextChanges [.recoveryLog, .time, .lanes, .ports, .packets, .queues, .room,
    .tables, .groups, .events, .mailboxes, .neighbours, .counters, .crumbs, .devTime, .out, .linkKeys] s
    (execPortWidth a0 a1 s) := by
  unfold execPortWidth
  repeat' first
    | with_reducible exact OnlyChanges.refl _ _
    | assumption
    | with_reducible refine onUnit_frame _ ?_
    | with_reducible refine next_frame ?_
    | with_reducible exact fault_frame _ _ _
    | with_reducible refine runCommand_frame _ _ _ (fun _ => ?_)
    | with_reducible refine (setWidth_frame _ _).after (by decide) ?_
    | with_reducible exact failWith_frame _ _ _
    | with_reducible refine okWith_frame ?_
    | with_reducible refine done_frame ?_
    | with_reducible refine fails_frame ?_
    | with_reducible refine later_frame ?_
    | with_reducible refine soon_frame ?_
    | with_reducible refine laterGrace_frame ?_
    | extract_lets
    | with_reducible refine OnlyChanges.getD (fun _ _ => ?_) ?_
    | with_reducible refine OnlyChanges.foldl (fun _ _ => ?_) ?_
    | split

theorem onPort_frame {ps : List Part} (p s) {f : State → CmdOutcome} (h : CmdChanges ps s (f s)) :
    CmdChanges ps s (onPort p f s) := by
  unfold onPort
  split
  · exact h
  · exact failWith_frame _ _ _

theorem execPortCompat_frame (a0 a1 a2 s) : NextChanges [.recoveryLog, .ports, .events, .mailboxes, .counters,
    .crumbs, .out] s (execPortCompat a0 a1 a2 s) := by
  unfold execPortCompat
  repeat' first
    | with_reducible exact OnlyChanges.refl _ _
    | assumption
    | with_reducible refine onUnit_frame _ ?_
    | with_reducible refine next_frame ?_
    | with_reducible exact fault_frame _ _ _
    | with_reducible refine runCommand_frame _ _ _ (fun _ => ?_)
    | with_reducible refine onPort_frame _ _ ?_
    | with_reducible refine (modPort_frame _ _ _).after (by decide) ?_
    | with_reducible exact failWith_frame _ _ _
    | with_reducible refine okWith_frame ?_

theorem execPortMode_frame (a0 a1 a2 s) : NextChanges [.recoveryLog, .ports, .events, .mailboxes, .counters,
    .crumbs, .out] s (execPortMode a0 a1 a2 s) := by
  unfold execPortMode
  repeat' first
    | with_reducible exact OnlyChanges.refl _ _
    | assumption
    | with_reducible refine onUnit_frame _ ?_
    | with_reducible refine next_frame ?_
    | with_reducible exact fault_frame _ _ _
    | with_reducible refine runCommand_frame _ _ _ (fun _ => ?_)
    | with_reducible refine onPort_frame _ _ ?_
    | with_reducible refine (modPort_frame _ _ _).after (by decide) ?_
    | with_reducible exact failWith_frame _ _ _
    | with_reducible refine okWith_frame ?_
    | with_reducible refine done_frame ?_
    | with_reducible refine fails_frame ?_
    | with_reducible refine later_frame ?_
    | with_reducible refine soon_frame ?_
    | with_reducible refine laterGrace_frame ?_
    | extract_lets
    | with_reducible refine OnlyChanges.getD (fun _ _ => ?_) ?_
    | with_reducible refine OnlyChanges.foldl (fun _ _ => ?_) ?_
    | split

theorem execPortSample_frame (a0 a1 a2 s) : NextChanges [.recoveryLog, .ports, .events, .mailboxes, .counters,
    .crumbs, .out] s (execPortSample a0 a1 a2 s) := by
  unfold execPortSample
  repeat' first
    | with_reducible exact OnlyChanges.refl _ _
    | assumption
    | with_reducible refine onUnit_frame _ ?_
    | with_reducible refine next_frame ?_
    | with_reducible exact fault_frame _ _ _
    | with_reducible refine runCommand_frame _ _ _ (fun _ => ?_)
    | with_reducible refine onPort_frame _ _ ?_
    | with_reducible refine (modPort_frame _ _ _).after (by decide) ?_
    | with_reducible exact failWith_frame _ _ _
    | with_reducible refine okWith_frame ?_
    | with_reducible refine done_frame ?_
    | with_reducible refine fails_frame ?_
    | with_reducible refine later_frame ?_
    | with_reducible refine soon_frame ?_
    | with_reducible refine laterGrace_frame ?_
    | extract_lets
    | with_reducible refine OnlyChanges.getD (fun _ _ => ?_) ?_
    | with_reducible refine OnlyChanges.foldl (fun _ _ => ?_) ?_
    | split

theorem execPortStale_frame (a0 a1 a2 a3 s) : NextChanges [.recoveryLog, .ports, .events, .mailboxes, .counters,
    .crumbs, .out] s (execPortStale a0 a1 a2 a3 s) := by
  unfold execPortStale
  repeat' first
    | with_reducible exact OnlyChanges.refl _ _
    | assumption
    | with_reducible refine onUnit_frame _ ?_
    | with_reducible refine next_frame ?_
    | with_reducible exact fault_frame _ _ _
    | with_reducible refine runCommand_frame _ _ _ (fun _ => ?_)
    | with_reducible refine onPort_frame _ _ ?_
    | with_reducible refine (modPort_frame _ _ _).after (by decide) ?_
    | with_reducible exact failWith_frame _ _ _
    | with_reducible refine okWith_frame ?_
    | with_reducible refine done_frame ?_
    | with_reducible refine fails_frame ?_
    | with_reducible refine later_frame ?_
    | with_reducible refine soon_frame ?_
    | with_reducible refine laterGrace_frame ?_
    | extract_lets
    | with_reducible refine OnlyChanges.getD (fun _ _ => ?_) ?_
    | with_reducible refine OnlyChanges.foldl (fun _ _ => ?_) ?_
    | split

theorem execPortHuskWait_frame (a0 a1 a2 a3 s) : NextChanges [.recoveryLog, .ports, .events, .mailboxes, .counters,
    .crumbs, .out] s (execPortHuskWait a0 a1 a2 a3 s) := by
  unfold execPortHuskWait
  repeat' first
    | with_reducible exact OnlyChanges.refl _ _
    | assumption
    | with_reducible refine onUnit_frame _ ?_
    | with_reducible refine next_frame ?_
    | with_reducible exact fault_frame _ _ _
    | with_reducible refine runCommand_frame _ _ _ (fun _ => ?_)
    | with_reducible refine onPort_frame _ _ ?_
    | with_reducible refine (modPort_frame _ _ _).after (by decide) ?_
    | with_reducible exact failWith_frame _ _ _
    | with_reducible refine okWith_frame ?_
    | with_reducible refine done_frame ?_
    | with_reducible refine fails_frame ?_
    | with_reducible refine later_frame ?_
    | with_reducible refine soon_frame ?_
    | with_reducible refine laterGrace_frame ?_
    | extract_lets
    | with_reducible refine OnlyChanges.getD (fun _ _ => ?_) ?_
    | with_reducible refine OnlyChanges.foldl (fun _ _ => ?_) ?_
    | split

theorem execPortRetrain_frame (a0 a1 s) : NextChanges [.recoveryLog, .time, .lanes, .ports, .groups, .events,
    .mailboxes, .neighbours, .counters, .crumbs, .devTime, .out, .linkKeys] s (execPortRetrain a0 a1 s) := by
  unfold execPortRetrain
  repeat' first
    | with_reducible exact OnlyChanges.refl _ _
    | assumption
    | with_reducible refine onUnit_frame _ ?_
    | with_reducible refine next_frame ?_
    | with_reducible exact fault_frame _ _ _
    | with_reducible refine runCommand_frame _ _ _ (fun _ => ?_)
    | with_reducible refine onPort_frame _ _ ?_
    | with_reducible refine (enterResume_frame _ _ _).after (by decide) ?_
    | with_reducible refine (sendMsg_frame _ _ _ _).after (by decide) ?_
    | with_reducible exact failWith_frame _ _ _
    | with_reducible refine okWith_frame ?_
    | with_reducible refine done_frame ?_
    | with_reducible refine fails_frame ?_
    | with_reducible refine later_frame ?_
    | with_reducible refine soon_frame ?_
    | with_reducible refine laterGrace_frame ?_
    | extract_lets
    | with_reducible refine OnlyChanges.getD (fun _ _ => ?_) ?_
    | with_reducible refine OnlyChanges.foldl (fun _ _ => ?_) ?_
    | split

theorem restoreLane_frame (s a0) : OnlyChanges [.recoveryLog, .lanes, .ports, .groups, .events, .neighbours,
    .counters, .crumbs, .linkKeys] s (restoreLane s a0) := by
  unfold restoreLane
  repeat' first
    | with_reducible exact OnlyChanges.refl _ _
    | assumption
    | with_reducible refine (modLane_frame _ _ _).after (by decide) ?_
    | with_reducible refine (laneReady_frame _ _).before ?_
    | extract_lets
    | with_reducible refine OnlyChanges.getD (fun _ _ => ?_) ?_
    | with_reducible refine OnlyChanges.foldl (fun _ _ => ?_) ?_
    | split

theorem execPortLane_frame (a0 a1 a2 a3 s) : NextChanges [.recoveryLog, .time, .lanes, .ports, .groups, .events,
    .mailboxes, .neighbours, .counters, .crumbs, .devTime, .out, .linkKeys] s (execPortLane a0 a1 a2 a3 s) := by
  unfold execPortLane
  repeat' first
    | with_reducible exact OnlyChanges.refl _ _
    | assumption
    | with_reducible refine onUnit_frame _ ?_
    | with_reducible refine next_frame ?_
    | with_reducible exact fault_frame _ _ _
    | with_reducible refine runCommand_frame _ _ _ (fun _ => ?_)
    | with_reducible refine onPort_frame _ _ ?_
    | with_reducible refine (holdLane_frame _ _ _).after (by decide) ?_
    | with_reducible refine (noteEntry_frame _ _ _).after (by decide) ?_
    | with_reducible refine (restoreLane_frame _ _).after (by decide) ?_
    | with_reducible exact failWith_frame _ _ _
    | with_reducible refine okWith_frame ?_
    | with_reducible refine done_frame ?_
    | with_reducible refine fails_frame ?_
    | with_reducible refine later_frame ?_
    | with_reducible refine soon_frame ?_
    | with_reducible refine laterGrace_frame ?_
    | extract_lets
    | with_reducible refine OnlyChanges.getD (fun _ _ => ?_) ?_
    | with_reducible refine OnlyChanges.foldl (fun _ _ => ?_) ?_
    | split

theorem execPortState_frame (a0 a1 s) : NextChanges [.recoveryLog, .events, .mailboxes, .counters, .crumbs, .out] s
    (execPortState a0 a1 s) := by
  unfold execPortState
  repeat' first
    | with_reducible exact OnlyChanges.refl _ _
    | assumption
    | with_reducible refine onUnit_frame _ ?_
    | with_reducible refine next_frame ?_
    | with_reducible exact fault_frame _ _ _
    | with_reducible refine runCommand_frame _ _ _ (fun _ => ?_)
    | with_reducible refine onPort_frame _ _ ?_
    | with_reducible exact failWith_frame _ _ _
    | with_reducible refine okWith_frame ?_
    | with_reducible refine done_frame ?_

end Sys2Proof.Machine
end

