-- ==== Sys2Proof/Laws/FrameClassCmd.lean ====
section
/-! SUPPORT. What the operations of Machine/ClassCmd.lean leave unchanged. -/

set_option Elab.async false

namespace Sys2Proof.Machine

theorem modSchedState_frame {qs : List Part} {s x : State} (f : SchedState → SchedState) (h : OnlyChanges qs s x)
    (hk : KeptSched qs x.sched (f x.sched) := by
      (refine KeptSched.lit ?_ ?_ ?_
       · first | exact Or.inl (by decide) | exact Or.inr ⟨rfl, rfl, rfl, rfl, rfl, rfl, rfl, rfl⟩
       · first | exact Or.inl (by decide) | exact Or.inr ⟨rfl, rfl⟩
       · first | exact Or.inl (by decide) | exact Or.inr ⟨rfl, rfl⟩)) : OnlyChanges qs s (modSchedState f x) :=
  OnlyChanges.upd rfl h (hsched := hk)

theorem execClassCreditWeight_frame (a0 a1 a2 s) : NextChanges [.recoveryLog, .ports, .events, .mailboxes,
    .counters, .crumbs, .out] s (execClassCreditWeight a0 a1 a2 s) := by
  unfold execClassCreditWeight
  repeat' first
    | with_reducible exact OnlyChanges.refl _ _
    | assumption
    | with_reducible refine onUnit_frame _ ?_
    | with_reducible refine next_frame ?_
    | with_reducible exact fault_frame _ _ _
    | with_reducible refine runCommand_frame _ _ _ (fun _ => ?_)
    | with_reducible refine onPort_frame _ _ ?_
    | with_reducible refine (modPort_frame _ _ _).after (by decide) ?_
    | with_reducible exact failWith_frame _ _ _
    | with_reducible refine okWith_frame ?_
    | with_reducible refine done_frame ?_
    | with_reducible refine fails_frame ?_
    | with_reducible refine later_frame ?_
    | with_reducible refine soon_frame ?_
    | with_reducible refine laterGrace_frame ?_
    | extract_lets
    | with_reducible refine OnlyChanges.getD (fun _ _ => ?_) ?_
    | with_reducible refine OnlyChanges.foldl (fun _ _ => ?_) ?_
    | split

theorem execClassSched_frame (a0 a1 a2 a3 a4 s) : NextChanges [.recoveryLog, .classes, .events, .mailboxes,
    .counters, .crumbs, .out] s (execClassSched a0 a1 a2 a3 a4 s) := by
  unfold execClassSched
  repeat' first
    | with_reducible exact OnlyChanges.refl _ _
    | assumption
    | with_reducible refine onUnit_frame _ ?_
    | with_reducible refine next_frame ?_
    | with_reducible exact fault_frame _ _ _
    | with_reducible refine runCommand_frame _ _ _ (fun _ => ?_)
    | with_reducible refine onPort_frame _ _ ?_
    | with_reducible refine modSchedState_frame _ ?_
    | with_reducible exact failWith_frame _ _ _
    | with_reducible refine okWith_frame ?_
    | with_reducible refine done_frame ?_
    | with_reducible refine fails_frame ?_
    | with_reducible refine later_frame ?_
    | with_reducible refine soon_frame ?_
    | with_reducible refine laterGrace_frame ?_
    | extract_lets
    | with_reducible refine OnlyChanges.getD (fun _ _ => ?_) ?_
    | with_reducible refine OnlyChanges.foldl (fun _ _ => ?_) ?_
    | split

theorem execClassShaper_frame (a0 a1 a2 a3 s) : NextChanges [.recoveryLog, .classes, .events, .mailboxes,
    .counters, .crumbs, .out] s (execClassShaper a0 a1 a2 a3 s) := by
  unfold execClassShaper
  repeat' first
    | with_reducible exact OnlyChanges.refl _ _
    | assumption
    | with_reducible refine onUnit_frame _ ?_
    | with_reducible refine next_frame ?_
    | with_reducible exact fault_frame _ _ _
    | with_reducible refine runCommand_frame _ _ _ (fun _ => ?_)
    | with_reducible refine onPort_frame _ _ ?_
    | with_reducible refine modSchedState_frame _ ?_
    | with_reducible exact failWith_frame _ _ _
    | with_reducible refine okWith_frame ?_
    | with_reducible refine done_frame ?_
    | with_reducible refine fails_frame ?_
    | with_reducible refine later_frame ?_
    | with_reducible refine soon_frame ?_
    | with_reducible refine laterGrace_frame ?_
    | extract_lets
    | with_reducible refine OnlyChanges.getD (fun _ _ => ?_) ?_
    | with_reducible refine OnlyChanges.foldl (fun _ _ => ?_) ?_
    | split

theorem execClassMarker_frame (a0 a1 a2 a3 s) : NextChanges [.recoveryLog, .classes, .events, .mailboxes,
    .counters, .crumbs, .out] s (execClassMarker a0 a1 a2 a3 s) := by
  unfold execClassMarker
  repeat' first
    | with_reducible exact OnlyChanges.refl _ _
    | assumption
    | with_reducible refine onUnit_frame _ ?_
    | with_reducible refine next_frame ?_
    | with_reducible exact fault_frame _ _ _
    | with_reducible refine runCommand_frame _ _ _ (fun _ => ?_)
    | with_reducible refine onPort_frame _ _ ?_
    | with_reducible refine modSchedState_frame _ ?_
    | with_reducible exact failWith_frame _ _ _
    | with_reducible refine okWith_frame ?_
    | with_reducible refine done_frame ?_
    | with_reducible refine fails_frame ?_
    | with_reducible refine later_frame ?_
    | with_reducible refine soon_frame ?_
    | with_reducible refine laterGrace_frame ?_
    | extract_lets
    | with_reducible refine OnlyChanges.getD (fun _ _ => ?_) ?_
    | with_reducible refine OnlyChanges.foldl (fun _ _ => ?_) ?_
    | split

theorem execClassProfile_frame (a0 a1 a2 s) : NextChanges [.recoveryLog, .classes, .events, .mailboxes, .counters,
    .crumbs, .out] s (execClassProfile a0 a1 a2 s) := by
  unfold execClassProfile
  repeat' first
    | with_reducible exact OnlyChanges.refl _ _
    | assumption
    | with_reducible refine onUnit_frame _ ?_
    | with_reducible refine next_frame ?_
    | with_reducible exact fault_frame _ _ _
    | with_reducible refine runCommand_frame _ _ _ (fun _ => ?_)
    | with_reducible refine modSchedState_frame _ ?_
    | with_reducible exact failWith_frame _ _ _
    | with_reducible refine okWith_frame ?_
    | with_reducible refine done_frame ?_
    | with_reducible refine fails_frame ?_
    | with_reducible refine later_frame ?_
    | with_reducible refine soon_frame ?_
    | with_reducible refine laterGrace_frame ?_
    | extract_lets
    | with_reducible refine OnlyChanges.getD (fun _ _ => ?_) ?_
    | with_reducible refine OnlyChanges.foldl (fun _ _ => ?_) ?_
    | split

theorem execClassQueue_frame (a0 a1 a2 a3 a4 a5 s) : NextChanges [.recoveryLog, .classes, .events, .mailboxes,
    .counters, .crumbs, .out] s (execClassQueue a0 a1 a2 a3 a4 a5 s) := by
  unfold execClassQueue
  repeat' first
    | with_reducible exact OnlyChanges.refl _ _
    | assumption
    | with_reducible refine onUnit_frame _ ?_
    | with_reducible refine next_frame ?_
    | with_reducible exact fault_frame _ _ _
    | with_reducible refine runCommand_frame _ _ _ (fun _ => ?_)
    | with_reducible refine onPort_frame _ _ ?_
    | with_reducible refine modSchedState_frame _ ?_
    | with_reducible exact failWith_frame _ _ _
    | with_reducible refine okWith_frame ?_
    | with_reducible refine done_frame ?_
    | with_reducible refine fails_frame ?_
    | with_reducible refine later_frame ?_
    | with_reducible refine soon_frame ?_
    | with_reducible refine laterGrace_frame ?_
    | extract_lets
    | with_reducible refine OnlyChanges.getD (fun _ _ => ?_) ?_
    | with_reducible refine OnlyChanges.foldl (fun _ _ => ?_) ?_
    | split

theorem execClassBudget_frame (a0 a1 a2 a3 s) : NextChanges [.recoveryLog, .budgets, .events, .mailboxes,
    .counters, .crumbs, .out] s (execClassBudget a0 a1 a2 a3 s) := by
  unfold execClassBudget
  repeat' first
    | with_reducible exact OnlyChanges.refl _ _
    | assumption
    | with_reducible refine onUnit_frame _ ?_
    | with_reducible refine next_frame ?_
    | with_reducible exact fault_frame _ _ _
    | with_reducible refine runCommand_frame _ _ _ (fun _ => ?_)
    | with_reducible refine modSchedState_frame _ ?_
    | with_reducible exact failWith_frame _ _ _
    | with_reducible refine okWith_frame ?_
    | with_reducible refine done_frame ?_
    | with_reducible refine fails_frame ?_
    | with_reducible refine later_frame ?_
    | with_reducible refine soon_frame ?_
    | with_reducible refine laterGrace_frame ?_
    | extract_lets
    | with_reducible refine OnlyChanges.getD (fun _ _ => ?_) ?_
    | with_reducible refine OnlyChanges.foldl (fun _ _ => ?_) ?_
    | split

theorem execClassBudgetRead_frame (a0 s) : NextChanges [.recoveryLog, .events, .mailboxes, .counters, .crumbs,
    .out] s (execClassBudgetRead a0 s) := by
  unfold execClassBudgetRead
  repeat' first
    | with_reducible exact OnlyChanges.refl _ _
    | assumption
    | with_reducible refine onUnit_frame _ ?_
    | with_reducible refine next_frame ?_
    | with_reducible exact fault_frame _ _ _
    | with_reducible refine runCommand_frame _ _ _ (fun _ => ?_)
    | with_reducible exact failWith_frame _ _ _
    | with_reducible refine okWith_frame ?_
    | with_reducible refine done_frame ?_

end Sys2Proof.Machine
end

