-- ==== Sys2Proof/Laws/FrameOptics.lean ====
section
/-! SUPPORT. What the operations of Machine/Optics.lean leave unchanged. -/

set_option Elab.async false

namespace Sys2Proof.Machine

theorem execRingSearchFull_frame (a0 a1 a2 a3 a4 s) : NextChanges [.alert, .flash, .recoveryLog, .rings, .circuits,
    .time, .lanes, .ports, .groups, .events, .neighbours, .counters, .crumbs, .devTime, .linkKeys] s
    (execRingSearchFull a0 a1 a2 a3 a4 s) := by
  unfold execRingSearchFull
  repeat' first
    | with_reducible exact OnlyChanges.refl _ _
    | assumption
    | with_reducible refine onUnit_frame _ ?_
    | with_reducible refine next_frame ?_
    | with_reducible exact fault_frame _ _ _
    | with_reducible refine (bindBus_frame _ _ _ _ _ _ _).before ?_

theorem execRingSearchPartial_frame (a0 a1 a2 a3 a4 s) : NextChanges [.alert, .flash, .recoveryLog, .rings,
    .circuits, .time, .lanes, .ports, .groups, .events, .neighbours, .counters, .crumbs, .devTime, .linkKeys] s
    (execRingSearchPartial a0 a1 a2 a3 a4 s) := by
  unfold execRingSearchPartial
  repeat' first
    | with_reducible exact OnlyChanges.refl _ _
    | assumption
    | with_reducible refine onUnit_frame _ ?_
    | with_reducible refine next_frame ?_
    | with_reducible exact fault_frame _ _ _
    | with_reducible refine (bindBus_frame _ _ _ _ _ _ _).before ?_
    | with_reducible refine modOpt_frame _ ?_
    | extract_lets
    | with_reducible refine OnlyChanges.getD (fun _ _ => ?_) ?_
    | with_reducible refine OnlyChanges.foldl (fun _ _ => ?_) ?_
    | split

theorem execDieTempOutOfWindow_frame (a0 a1 s) : NextChanges [.recoveryLog, .rings, .circuits, .time, .lanes,
    .ports, .groups, .events, .neighbours, .counters, .crumbs, .devTime, .linkKeys] s (execDieTempOutOfWindow a0 a1
    s) := by
  unfold execDieTempOutOfWindow
  repeat' first
    | with_reducible exact OnlyChanges.refl _ _
    | assumption
    | with_reducible refine onUnit_frame _ ?_
    | with_reducible refine next_frame ?_
    | with_reducible exact fault_frame _ _ _
    | with_reducible refine modOpt_frame _ ?_
    | with_reducible refine (unlockRing_frame _ _ _ _ _).before ?_
    | extract_lets
    | with_reducible refine OnlyChanges.getD (fun _ _ => ?_) ?_
    | with_reducible refine OnlyChanges.foldl (fun _ _ => ?_) ?_
    | split

theorem execPowerTelemetry_frame (a0 s) : NextChanges [.rings] s (execPowerTelemetry a0 s) := by
  unfold execPowerTelemetry
  repeat' first
    | with_reducible exact OnlyChanges.refl _ _
    | assumption
    | with_reducible refine onUnit_frame _ ?_
    | with_reducible refine next_frame ?_
    | with_reducible exact fault_frame _ _ _
    | with_reducible refine modOpt_frame _ ?_

theorem execRingUnlock_frame (a0 a1 a2 a3 s) : NextChanges [.recoveryLog, .rings, .circuits, .time, .lanes, .ports,
    .groups, .events, .neighbours, .counters, .crumbs, .devTime, .linkKeys] s (execRingUnlock a0 a1 a2 a3 s) := by
  unfold execRingUnlock
  repeat' first
    | with_reducible exact OnlyChanges.refl _ _
    | assumption
    | with_reducible refine onUnit_frame _ ?_
    | with_reducible refine next_frame ?_
    | with_reducible exact fault_frame _ _ _
    | with_reducible refine (unlockRing_frame _ _ _ _ _).before ?_

theorem execRingRelock_frame (a0 a1 a2 a3 s) : NextChanges [.rings, .circuits] s (execRingRelock a0 a1 a2 a3 s) :=
    by
  unfold execRingRelock
  repeat' first
    | with_reducible exact OnlyChanges.refl _ _
    | assumption
    | with_reducible refine onUnit_frame _ ?_
    | with_reducible refine next_frame ?_
    | with_reducible exact fault_frame _ _ _
    | with_reducible refine (setMode_frame _ _ _).after (by decide) ?_
    | with_reducible refine (relight_frame _ _).before ?_
    | extract_lets
    | with_reducible refine OnlyChanges.getD (fun _ _ => ?_) ?_
    | with_reducible refine OnlyChanges.foldl (fun _ _ => ?_) ?_
    | split

theorem execLaneRejoinTimeout_frame (a0 s) : NextChanges [.rings] s (execLaneRejoinTimeout a0 s) := by
  unfold execLaneRejoinTimeout
  repeat' first
    | with_reducible exact OnlyChanges.refl _ _
    | assumption
    | with_reducible refine onUnit_frame _ ?_
    | with_reducible refine next_frame ?_
    | with_reducible exact fault_frame _ _ _
    | with_reducible refine modOpt_frame _ ?_
    | extract_lets
    | with_reducible refine OnlyChanges.getD (fun _ _ => ?_) ?_
    | with_reducible refine OnlyChanges.foldl (fun _ _ => ?_) ?_
    | split

theorem execLaserMonitorSample_frame (a0 s) : NextChanges [.recoveryLog, .bays, .time, .lanes, .ports, .groups,
    .events, .neighbours, .counters, .crumbs, .devTime, .linkKeys] s (execLaserMonitorSample a0 s) := by
  unfold execLaserMonitorSample
  repeat' first
    | with_reducible exact OnlyChanges.refl _ _
    | assumption
    | with_reducible refine onUnit_frame _ ?_
    | with_reducible refine next_frame ?_
    | with_reducible exact fault_frame _ _ _
    | with_reducible refine (startCutover_frame _ _).after (by decide) ?_
    | with_reducible refine (holdLane_frame _ _ _).after (by decide) ?_
    | with_reducible refine (fadeEvent_frame _ _ _ _).after (by decide) ?_
    | with_reducible refine (modFade_frame _ _ _ _).after (by decide) ?_
    | with_reducible refine (darken_frame _ _ _).after (by decide) ?_
    | with_reducible refine (failLane_frame _ _ _).after (by decide) ?_
    | extract_lets
    | with_reducible refine OnlyChanges.getD (fun _ _ => ?_) ?_
    | with_reducible refine OnlyChanges.foldl (fun _ _ => ?_) ?_
    | split

theorem fadeAverage_frame (a0 s) : OnlyChanges [.recoveryLog, .bays, .events, .counters, .crumbs] s (fadeAverage a0
    s) := by
  unfold fadeAverage
  repeat' first
    | with_reducible exact OnlyChanges.refl _ _
    | assumption
    | with_reducible refine (modFade_frame _ _ _ _).after (by decide) ?_
    | with_reducible refine (fadeEvent_frame _ _ _ _).after (by decide) ?_
    | extract_lets
    | with_reducible refine OnlyChanges.getD (fun _ _ => ?_) ?_
    | with_reducible refine OnlyChanges.foldl (fun _ _ => ?_) ?_
    | split
    | extract_lets +lift
    | with_reducible refine OnlyChanges.foldl_fst (fun _ _ => ?_) ?_
    | with_reducible refine OnlyChanges.foldl_snd (fun _ _ => ?_) ?_
    | with_reducible refine OnlyChanges.of_fst (by assumption) ?_
    | with_reducible refine OnlyChanges.of_snd (by assumption) ?_
    | fail_if_no_progress (with_reducible refine OnlyChanges.upd rfl ?_)
    | dsimp +zetaDelta only []

theorem execLaserFadeAverage_frame (a0 s) : NextChanges [.recoveryLog, .bays, .events, .counters, .crumbs] s
    (execLaserFadeAverage a0 s) := by
  unfold execLaserFadeAverage
  repeat' first
    | with_reducible exact OnlyChanges.refl _ _
    | assumption
    | with_reducible refine onUnit_frame _ ?_
    | with_reducible refine next_frame ?_
    | with_reducible exact fault_frame _ _ _
    | with_reducible refine (fadeAverage_frame _ _).before ?_
    | with_reducible refine (startCutover_frame _ _).after (by decide) ?_
    | extract_lets
    | with_reducible refine OnlyChanges.getD (fun _ _ => ?_) ?_
    | with_reducible refine OnlyChanges.foldl (fun _ _ => ?_) ?_

theorem execSpareLocked_frame (a0 a1 s) : NextChanges [.alert, .flash, .bays, .ports] s (execSpareLocked a0 a1 s)
    := by
  unfold execSpareLocked
  repeat' first
    | with_reducible exact OnlyChanges.refl _ _
    | assumption
    | with_reducible refine onUnit_frame _ ?_
    | with_reducible refine next_frame ?_
    | with_reducible exact fault_frame _ _ _
    | with_reducible refine (modConfig_frame _ _).after (by decide) ?_
    | with_reducible refine (sendPause_frame _ _ _).after (by decide) ?_
    | with_reducible refine modOpt_frame _ ?_
    | extract_lets
    | with_reducible refine OnlyChanges.getD (fun _ _ => ?_) ?_
    | with_reducible refine OnlyChanges.foldl (fun _ _ => ?_) ?_
    | split

theorem dropCutover_frame (a0 a1 s) : OnlyChanges [.bays] s (dropCutover a0 a1 s) := by
  unfold dropCutover
  repeat' first
    | with_reducible exact OnlyChanges.refl _ _
    | assumption
    | with_reducible refine (modBay_frame _ _ _).before ?_
    | with_reducible refine modOpt_frame _ ?_

theorem execSpareLockTimeout_frame (a0 s) : NextChanges [.recoveryLog, .bays, .events, .mailboxes, .counters,
    .crumbs, .out] s (execSpareLockTimeout a0 s) := by
  unfold execSpareLockTimeout
  repeat' first
    | with_reducible exact OnlyChanges.refl _ _
    | assumption
    | with_reducible refine onUnit_frame _ ?_
    | with_reducible refine next_frame ?_
    | with_reducible exact fault_frame _ _ _
    | with_reducible refine (dropCutover_frame _ _ _).after (by decide) ?_
    | with_reducible refine (countDie_frame _ _ _).after (by decide) ?_
    | with_reducible refine (raise15_frame _ _ _).after (by decide) ?_
    | with_reducible refine (finish_frame _ _ _ _).after (by decide) ?_
    | with_reducible refine (beginCutover_frame _ _ _).after (by decide) ?_
    | extract_lets
    | with_reducible refine OnlyChanges.getD (fun _ _ => ?_) ?_
    | with_reducible refine OnlyChanges.foldl (fun _ _ => ?_) ?_
    | split

theorem execCutoverPauseTime_frame (a0 s) : NextChanges [.bays, .ports] s (execCutoverPauseTime a0 s) := by
  unfold execCutoverPauseTime
  repeat' first
    | with_reducible exact OnlyChanges.refl _ _
    | assumption
    | with_reducible refine onUnit_frame _ ?_
    | with_reducible refine next_frame ?_
    | with_reducible exact fault_frame _ _ _
    | with_reducible refine (modPort_frame _ _ _).after (by decide) ?_
    | with_reducible refine modOpt_frame _ ?_
    | extract_lets
    | with_reducible refine OnlyChanges.getD (fun _ _ => ?_) ?_
    | with_reducible refine OnlyChanges.foldl (fun _ _ => ?_) ?_
    | split

theorem endFades_frame (a0 s) : OnlyChanges [.recoveryLog, .bays, .lanes, .ports, .groups, .events, .neighbours,
    .counters, .crumbs, .linkKeys] s (endFades a0 s) := by
  unfold endFades
  repeat' first
    | with_reducible exact OnlyChanges.refl _ _
    | assumption
    | with_reducible refine (modLane_frame _ _ _).after (by decide) ?_
    | with_reducible refine (modFade_frame _ _ _ _).after (by decide) ?_
    | with_reducible refine (releaseHold_frame _ _ _).after (by decide) ?_
    | extract_lets
    | with_reducible refine OnlyChanges.getD (fun _ _ => ?_) ?_
    | with_reducible refine OnlyChanges.foldl (fun _ _ => ?_) ?_

theorem execCutoverSwitchSettled_frame (a0 s) : NextChanges [.alert, .flash, .recoveryLog, .bays, .lanes, .ports,
    .groups, .events, .neighbours, .counters, .crumbs, .linkKeys] s (execCutoverSwitchSettled a0 s) := by
  unfold execCutoverSwitchSettled
  repeat' first
    | with_reducible exact OnlyChanges.refl _ _
    | assumption
    | with_reducible refine onUnit_frame _ ?_
    | with_reducible refine next_frame ?_
    | with_reducible exact fault_frame _ _ _
    | with_reducible refine modOpt_frame _ ?_
    | with_reducible refine (modBay_frame _ _ _).after (by decide) ?_
    | with_reducible refine (modConfig_frame _ _).after (by decide) ?_
    | with_reducible refine (endFades_frame _ _).after (by decide) ?_
    | with_reducible refine (modPort_frame _ _ _).after (by decide) ?_
    | extract_lets
    | with_reducible refine OnlyChanges.getD (fun _ _ => ?_) ?_
    | with_reducible refine OnlyChanges.foldl (fun _ _ => ?_) ?_
    | split
    | extract_lets +lift
    | with_reducible refine OnlyChanges.foldl_fst (fun _ _ => ?_) ?_
    | with_reducible refine OnlyChanges.foldl_snd (fun _ _ => ?_) ?_
    | with_reducible refine OnlyChanges.of_fst (by assumption) ?_
    | with_reducible refine OnlyChanges.of_snd (by assumption) ?_
    | fail_if_no_progress (with_reducible refine OnlyChanges.upd rfl ?_)
    | dsimp +zetaDelta only []

theorem leaveBay_frame (a0 a1 s) : OnlyChanges [.bays] s (leaveBay a0 a1 s) := by
  unfold leaveBay
  repeat' first
    | with_reducible exact OnlyChanges.refl _ _
    | assumption
    | with_reducible refine (modBay_frame _ _ _).before ?_
    | extract_lets
    | with_reducible refine OnlyChanges.getD (fun _ _ => ?_) ?_
    | with_reducible refine OnlyChanges.foldl (fun _ _ => ?_) ?_
    | split

theorem execCutoverComplete_frame (a0 s) : NextChanges [.recoveryLog, .bays, .events, .mailboxes, .counters,
    .crumbs, .out] s (execCutoverComplete a0 s) := by
  unfold execCutoverComplete
  repeat' first
    | with_reducible exact OnlyChanges.refl _ _
    | assumption
    | with_reducible refine onUnit_frame _ ?_
    | with_reducible refine next_frame ?_
    | with_reducible exact fault_frame _ _ _
    | with_reducible refine modOpt_frame _ ?_
    | with_reducible refine (leaveBay_frame _ _ _).after (by decide) ?_
    | with_reducible refine (countDie_frame _ _ _).after (by decide) ?_
    | with_reducible refine (raise15_frame _ _ _).after (by decide) ?_
    | with_reducible refine (finish_frame _ _ _ _).after (by decide) ?_
    | extract_lets
    | with_reducible refine OnlyChanges.getD (fun _ _ => ?_) ?_
    | with_reducible refine OnlyChanges.foldl (fun _ _ => ?_) ?_
    | split

theorem execBayInterlockOpen_frame (a0 s) : NextChanges [.recoveryLog, .bays, .time, .lanes, .ports, .groups,
    .events, .neighbours, .counters, .crumbs, .devTime, .linkKeys] s (execBayInterlockOpen a0 s) := by
  unfold execBayInterlockOpen
  repeat' first
    | with_reducible exact OnlyChanges.refl _ _
    | assumption
    | with_reducible refine onUnit_frame _ ?_
    | with_reducible refine next_frame ?_
    | with_reducible exact fault_frame _ _ _
    | with_reducible refine (modBay_frame _ _ _).after (by decide) ?_
    | with_reducible refine (startCutover_frame _ _).after (by decide) ?_
    | with_reducible refine (holdLane_frame _ _ _).after (by decide) ?_
    | extract_lets
    | with_reducible refine OnlyChanges.getD (fun _ _ => ?_) ?_
    | with_reducible refine OnlyChanges.foldl (fun _ _ => ?_) ?_
    | split

theorem execBayInserted_frame (a0 s) : NextChanges [.bays] s (execBayInserted a0 s) := by
  unfold execBayInserted
  repeat' first
    | with_reducible exact OnlyChanges.refl _ _
    | assumption
    | with_reducible refine onUnit_frame _ ?_
    | with_reducible refine next_frame ?_
    | with_reducible exact fault_frame _ _ _
    | with_reducible refine (modBay_frame _ _ _).before ?_

theorem execBaySelfTestDone_frame (a0 s) : NextChanges [.bays] s (execBaySelfTestDone a0 s) := by
  unfold execBaySelfTestDone
  repeat' first
    | with_reducible exact OnlyChanges.refl _ _
    | assumption
    | with_reducible refine onUnit_frame _ ?_
    | with_reducible refine next_frame ?_
    | with_reducible exact fault_frame _ _ _
    | with_reducible refine (modBay_frame _ _ _).before ?_
    | extract_lets
    | with_reducible refine OnlyChanges.getD (fun _ _ => ?_) ?_
    | with_reducible refine OnlyChanges.foldl (fun _ _ => ?_) ?_
    | split

theorem openFibre_frame (a0 a1 s) : OnlyChanges [.recoveryLog, .rings, .bays, .fibres, .circuits, .time, .lanes,
    .ports, .groups, .events, .neighbours, .counters, .crumbs, .devTime, .linkKeys] s (openFibre a0 a1 s) := by
  unfold openFibre
  repeat' first
    | with_reducible exact OnlyChanges.refl _ _
    | assumption
    | with_reducible refine (modFibre_frame _ _ _).after (by decide) ?_
    | with_reducible refine (loseCircuit_frame _ _).after (by decide) ?_
    | with_reducible refine (setMode_frame _ _ _).after (by decide) ?_
    | with_reducible refine (darken_frame _ _ _).after (by decide) ?_
    | with_reducible refine (laneFalls_frame _ _ _).after (by decide) ?_
    | extract_lets
    | with_reducible refine OnlyChanges.getD (fun _ _ => ?_) ?_
    | with_reducible refine OnlyChanges.foldl (fun _ _ => ?_) ?_

theorem execOpenFibreDetect_frame (a0 a1 s) : NextChanges [.recoveryLog, .rings, .bays, .fibres, .circuits, .time,
    .lanes, .ports, .groups, .events, .neighbours, .counters, .crumbs, .devTime, .linkKeys] s (execOpenFibreDetect
    a0 a1 s) := by
  unfold execOpenFibreDetect
  repeat' first
    | with_reducible exact OnlyChanges.refl _ _
    | assumption
    | with_reducible refine onUnit_frame _ ?_
    | with_reducible refine next_frame ?_
    | with_reducible exact fault_frame _ _ _
    | with_reducible refine (raiseBoth_frame _ _ _).after (by decide) ?_
    | with_reducible refine (countFibre_frame _ _ _ _).after (by decide) ?_
    | with_reducible refine (openFibre_frame _ _ _).before ?_
    | extract_lets
    | with_reducible refine OnlyChanges.getD (fun _ _ => ?_) ?_
    | with_reducible refine OnlyChanges.foldl (fun _ _ => ?_) ?_
    | split

theorem execBackReflectionHigh_frame (a0 a1 s) : NextChanges [.recoveryLog, .events, .counters, .crumbs] s
    (execBackReflectionHigh a0 a1 s) := by
  unfold execBackReflectionHigh
  repeat' first
    | with_reducible exact OnlyChanges.refl _ _
    | assumption
    | with_reducible refine onUnit_frame _ ?_
    | with_reducible refine next_frame ?_
    | with_reducible exact fault_frame _ _ _
    | with_reducible refine (raise15_frame _ _ _).before ?_
    | with_reducible refine (countFibre_frame _ _ _ _).before ?_

theorem execEyeSafetyProbe_frame (a0 a1 s) : NextChanges [.recoveryLog, .fibres, .events, .counters, .crumbs] s
    (execEyeSafetyProbe a0 a1 s) := by
  unfold execEyeSafetyProbe
  repeat' first
    | with_reducible exact OnlyChanges.refl _ _
    | assumption
    | with_reducible refine onUnit_frame _ ?_
    | with_reducible refine next_frame ?_
    | with_reducible exact fault_frame _ _ _
    | with_reducible refine (countFibre_frame _ _ _ _).after (by decide) ?_
    | with_reducible refine (modFibre_frame _ _ _).after (by decide) ?_
    | extract_lets
    | with_reducible refine OnlyChanges.getD (fun _ _ => ?_) ?_
    | with_reducible refine OnlyChanges.foldl (fun _ _ => ?_) ?_
    | split

theorem execEyeSafetyProbeEnd_frame (a0 a1 a2 s) : NextChanges [.fibres] s (execEyeSafetyProbeEnd a0 a1 a2 s) := by
  unfold execEyeSafetyProbeEnd
  repeat' first
    | with_reducible exact OnlyChanges.refl _ _
    | assumption
    | with_reducible refine onUnit_frame _ ?_
    | with_reducible refine next_frame ?_
    | with_reducible exact fault_frame _ _ _
    | with_reducible refine (modFibre_frame _ _ _).before ?_
    | extract_lets
    | with_reducible refine OnlyChanges.getD (fun _ _ => ?_) ?_
    | with_reducible refine OnlyChanges.foldl (fun _ _ => ?_) ?_
    | split

theorem restoreFibre_frame (a0 a1 s) : OnlyChanges [.rings, .bays, .fibres, .circuits] s (restoreFibre a0 a1 s) :=
    by
  unfold restoreFibre
  repeat' first
    | with_reducible exact OnlyChanges.refl _ _
    | assumption
    | with_reducible refine (setMode_frame _ _ _).after (by decide) ?_
    | with_reducible refine (modFibre_frame _ _ _).after (by decide) ?_
    | with_reducible refine (brighten_frame _ _ _).after (by decide) ?_
    | with_reducible refine (relight_frame _ _).after (by decide) ?_
    | extract_lets
    | with_reducible refine OnlyChanges.getD (fun _ _ => ?_) ?_
    | with_reducible refine OnlyChanges.foldl (fun _ _ => ?_) ?_
    | split

theorem execEyeSafetyRestore_frame (a0 a1 s) : NextChanges [.recoveryLog, .rings, .bays, .fibres, .circuits,
    .events, .counters, .crumbs] s (execEyeSafetyRestore a0 a1 s) := by
  unfold execEyeSafetyRestore
  repeat' first
    | with_reducible exact OnlyChanges.refl _ _
    | assumption
    | with_reducible refine onUnit_frame _ ?_
    | with_reducible refine next_frame ?_
    | with_reducible exact fault_frame _ _ _
    | with_reducible refine (raiseBoth_frame _ _ _).after (by decide) ?_
    | with_reducible refine (restoreFibre_frame _ _ _).after (by decide) ?_
    | extract_lets
    | with_reducible refine OnlyChanges.getD (fun _ _ => ?_) ?_
    | with_reducible refine OnlyChanges.foldl (fun _ _ => ?_) ?_
    | split

theorem answerChange_frame (a0 s) : OnlyChanges [.recoveryLog, .events, .mailboxes, .counters, .crumbs, .out] s
    (answerChange a0 s) := by
  unfold answerChange
  repeat' first
    | with_reducible exact OnlyChanges.refl _ _
    | assumption
    | with_reducible refine (finish_frame _ _ _ _).before ?_
    | extract_lets
    | with_reducible refine OnlyChanges.getD (fun _ _ => ?_) ?_
    | with_reducible refine OnlyChanges.foldl (fun _ _ => ?_) ?_
    | split

theorem applyChanges_frame (a0 s) : OnlyChanges [.recoveryLog, .circuits, .ports, .events, .mailboxes, .counters,
    .crumbs, .out] s (applyChanges a0 s) := by
  unfold applyChanges
  repeat' first
    | with_reducible exact OnlyChanges.refl _ _
    | assumption
    | with_reducible refine (answerChange_frame _ _).after (by decide) ?_
    | with_reducible refine (crustNotice_frame _ _ _ _).after (by decide) ?_
    | with_reducible refine (modCircuit_frame _ _ _).after (by decide) ?_
    | extract_lets
    | with_reducible refine OnlyChanges.getD (fun _ _ => ?_) ?_
    | with_reducible refine OnlyChanges.foldl (fun _ _ => ?_) ?_

theorem execCrustChangeApply_frame (a0 s) : NextChanges [.recoveryLog, .circuits, .ports, .events, .mailboxes,
    .counters, .crumbs, .out] s (execCrustChangeApply a0 s) := by
  unfold execCrustChangeApply
  repeat' first
    | with_reducible exact OnlyChanges.refl _ _
    | assumption
    | with_reducible refine onUnit_frame _ ?_
    | with_reducible refine next_frame ?_
    | with_reducible exact fault_frame _ _ _
    | with_reducible refine modOpt_frame _ ?_
    | with_reducible refine (applyChanges_frame _ _).before ?_
    | extract_lets
    | with_reducible refine OnlyChanges.getD (fun _ _ => ?_) ?_
    | with_reducible refine OnlyChanges.foldl (fun _ _ => ?_) ?_
    | split

theorem lightCircuit_frame (a0 a1 s) : OnlyChanges [.recoveryLog, .rings, .circuits, .time, .lanes, .ports,
    .groups, .events, .neighbours, .counters, .crumbs, .devTime, .linkKeys] s (lightCircuit a0 a1 s) := by
  unfold lightCircuit
  repeat' first
    | with_reducible exact OnlyChanges.refl _ _
    | assumption
    | with_reducible refine (holdLane_frame _ _ _).after (by decide) ?_
    | with_reducible refine (crustNotice_frame _ _ _ _).after (by decide) ?_
    | with_reducible refine (modCircuit_frame _ _ _).after (by decide) ?_
    | with_reducible refine (setMode_frame _ _ _).after (by decide) ?_
    | extract_lets
    | with_reducible refine OnlyChanges.getD (fun _ _ => ?_) ?_
    | with_reducible refine OnlyChanges.foldl (fun _ _ => ?_) ?_
    | split

theorem endCircuit_frame (a0 a1 s) : OnlyChanges [.recoveryLog, .rings, .fibres, .circuits, .lanes, .ports,
    .groups, .events, .neighbours, .counters, .crumbs, .linkKeys] s (endCircuit a0 a1 s) := by
  unfold endCircuit
  repeat' first
    | with_reducible exact OnlyChanges.refl _ _
    | assumption
    | with_reducible refine modOpt_frame _ ?_
    | with_reducible refine (setMode_frame _ _ _).after (by decide) ?_
    | with_reducible refine (modFibre_frame _ _ _).after (by decide) ?_
    | with_reducible refine (releaseHold_frame _ _ _).after (by decide) ?_
    | extract_lets
    | with_reducible refine OnlyChanges.getD (fun _ _ => ?_) ?_
    | with_reducible refine OnlyChanges.foldl (fun _ _ => ?_) ?_
    | split
    | extract_lets +lift
    | with_reducible refine OnlyChanges.foldl_fst (fun _ _ => ?_) ?_
    | with_reducible refine OnlyChanges.foldl_snd (fun _ _ => ?_) ?_
    | with_reducible refine OnlyChanges.of_fst (by assumption) ?_
    | with_reducible refine OnlyChanges.of_snd (by assumption) ?_
    | fail_if_no_progress (with_reducible refine OnlyChanges.upd rfl ?_)
    | dsimp +zetaDelta only []

theorem execCrustEffective_frame (a0 s) : NextChanges [.recoveryLog, .rings, .fibres, .circuits, .time, .lanes,
    .ports, .groups, .events, .neighbours, .counters, .crumbs, .devTime, .linkKeys] s (execCrustEffective a0 s) :=
    by
  unfold execCrustEffective
  repeat' first
    | with_reducible exact OnlyChanges.refl _ _
    | assumption
    | with_reducible refine onUnit_frame _ ?_
    | with_reducible refine next_frame ?_
    | with_reducible exact fault_frame _ _ _
    | with_reducible refine (lightCircuit_frame _ _ _).after (by decide) ?_
    | with_reducible refine (endCircuit_frame _ _ _).after (by decide) ?_
    | extract_lets
    | with_reducible refine OnlyChanges.getD (fun _ _ => ?_) ?_
    | with_reducible refine OnlyChanges.foldl (fun _ _ => ?_) ?_

theorem execCrustLit_frame (a0 s) : NextChanges [.recoveryLog, .rings, .circuits, .ports, .events, .counters,
    .crumbs] s (execCrustLit a0 s) := by
  unfold execCrustLit
  repeat' first
    | with_reducible exact OnlyChanges.refl _ _
    | assumption
    | with_reducible refine onUnit_frame _ ?_
    | with_reducible refine next_frame ?_
    | with_reducible exact fault_frame _ _ _
    | with_reducible refine (crustNotice_frame _ _ _ _).after (by decide) ?_
    | with_reducible refine (modCircuit_frame _ _ _).after (by decide) ?_
    | with_reducible refine (setMode_frame _ _ _).after (by decide) ?_
    | extract_lets
    | with_reducible refine OnlyChanges.getD (fun _ _ => ?_) ?_
    | with_reducible refine OnlyChanges.foldl (fun _ _ => ?_) ?_
    | split

end Sys2Proof.Machine
end

