-- ==== Sys2Proof/Laws/FrameInject.lean ====
section
/-! SUPPORT. What the operations of Machine/Inject.lean leave unchanged. -/

set_option Elab.async false

namespace Sys2Proof.Machine

theorem placeAdaptive_frame (a0 a1 a2 a3 s) : OnlyChanges [.recoveryLog, .ports, .packets, .queues, .room, .events,
    .counters, .crumbs] s (placeAdaptive a0 a1 a2 a3 s) := by
  unfold placeAdaptive
  repeat' first
    | with_reducible exact OnlyChanges.refl _ _
    | assumption
    | with_reducible refine (countQueue_frame _ _ _ _ _).after (by decide) ?_
    | with_reducible refine (placeCopy_frame _ _ _ _ _ _).before ?_
    | extract_lets
    | with_reducible refine OnlyChanges.getD (fun _ _ => ?_) ?_
    | with_reducible refine OnlyChanges.foldl (fun _ _ => ?_) ?_
    | split

theorem numbered_frame (a0 s) : OnlyChanges [.numbering] s (numbered a0 s).2 := by
  unfold numbered
  repeat' first
    | with_reducible exact OnlyChanges.refl _ _
    | assumption
    | with_reducible refine modBuf_frame _ ?_

theorem notePause_frame (a0 a1 a2 s) : OnlyChanges [.recoveryLog, .queues, .events, .counters, .crumbs] s
    (notePause a0 a1 a2 s) := by
  unfold notePause
  repeat' first
    | with_reducible exact OnlyChanges.refl _ _
    | assumption
    | with_reducible refine (countQueue_frame _ _ _ _ _).after (by decide) ?_
    | with_reducible refine modBuf_frame _ ?_
    | extract_lets
    | with_reducible refine OnlyChanges.getD (fun _ _ => ?_) ?_
    | with_reducible refine OnlyChanges.foldl (fun _ _ => ?_) ?_
    | split

theorem chargePool_frame (a0 a1 a2 s) : OnlyChanges [.room] s (chargePool a0 a1 a2 s) := by
  unfold chargePool
  repeat' first
    | with_reducible exact OnlyChanges.refl _ _
    | assumption
    | with_reducible refine modBuf_frame _ ?_
    | with_reducible refine (chargeShared_frame _ _ _).before ?_
    | extract_lets
    | with_reducible refine OnlyChanges.getD (fun _ _ => ?_) ?_
    | with_reducible refine OnlyChanges.foldl (fun _ _ => ?_) ?_
    | split

theorem deliverTo_frame (a0 a1 s) : OnlyChanges [.firmware] s (deliverTo a0 a1 s) := by
  unfold deliverTo
  repeat' first
    | with_reducible exact OnlyChanges.refl _ _
    | assumption
    | with_reducible refine modBuf_frame _ ?_

theorem storeInjected_frame (a0 a1 a2 a3 a4 a5 a6 a7 s) : OnlyChanges [.recoveryLog, .ports, .packets, .queues,
    .room, .events, .counters, .crumbs] s (storeInjected a0 a1 a2 a3 a4 a5 a6 a7 s) := by
  unfold storeInjected
  repeat' first
    | with_reducible exact OnlyChanges.refl _ _
    | assumption
    | with_reducible refine (storePacket_frame _ _).after (by decide) ?_
    | with_reducible refine (chargePool_frame _ _ _ _).after (by decide) ?_
    | with_reducible refine (placeAdaptive_frame _ _ _ _ _).before ?_
    | with_reducible refine (placeCopy_frame _ _ _ _ _ _).before ?_
    | extract_lets
    | with_reducible refine OnlyChanges.getD (fun _ _ => ?_) ?_
    | with_reducible refine OnlyChanges.foldl (fun _ _ => ?_) ?_
    | split

theorem countRacksLost_frame (a0 a1 s) : OnlyChanges [.recoveryLog, .events, .counters, .crumbs] s (countRacksLost
    a0 a1 s) := by
  unfold countRacksLost
  repeat' first
    | with_reducible exact OnlyChanges.refl _ _
    | assumption
    | with_reducible refine (count_frame _ _ _).before ?_
    | extract_lets
    | with_reducible refine OnlyChanges.getD (fun _ _ => ?_) ?_
    | with_reducible refine OnlyChanges.foldl (fun _ _ => ?_) ?_
    | split

theorem injectTo_frame (a0 a1 a2 a3 a4 a5 a6 a7 a8 s) : ∀ t, injectTo a0 a1 a2 a3 a4 a5 a6 a7 a8 s = Injected.sent
    t → OnlyChanges [.recoveryLog, .ports, .packets, .queues, .room, .events, .counters, .crumbs] s t := by
  intro t ht
  revert ht
  unfold injectTo
  repeat' first
    | with_reducible exact OnlyChanges.refl _ _
    | assumption
    | with_reducible refine (notePause_frame _ _ _ _).after (by decide) ?_
    | with_reducible refine (storeInjected_frame _ _ _ _ _ _ _ _ _).before ?_
    | (intro ht; (first | (injection ht with ht; subst ht) | (simp at ht; done)))
    | extract_lets
    | with_reducible refine OnlyChanges.getD (fun _ _ => ?_) ?_
    | with_reducible refine OnlyChanges.foldl (fun _ _ => ?_) ?_
    | split

theorem tryInject_frame (a0 a1 a2 s) : ∀ t, tryInject a0 a1 a2 s = Injected.sent t → OnlyChanges [.recoveryLog,
    .ports, .packets, .queues, .room, .firmware, .tables, .events, .counters, .crumbs] s t := by
  intro t ht
  revert ht
  unfold tryInject
  repeat' first
    | with_reducible exact OnlyChanges.refl _ _
    | assumption
    | with_reducible refine (modSlice_frame _ _ _).after (by decide) ?_
    | with_reducible refine (lookupTouch_frame _ _ _).after (by decide) ?_
    | with_reducible refine (deliverTo_frame _ _ _).after (by decide) ?_
    | with_reducible refine (countSlice_frame _ _ _).after (by decide) ?_
    | (intro ht; with_reducible refine (injectTo_frame _ _ _ _ _ _ _ _ _ _ _ ht).after (by decide) ?_)
    | with_reducible refine (countRacksLost_frame _ _ _).after (by decide) ?_
    | (intro ht; (first | (injection ht with ht; subst ht) | (simp at ht; done)))
    | extract_lets
    | with_reducible refine OnlyChanges.getD (fun _ _ => ?_) ?_
    | with_reducible refine OnlyChanges.foldl (fun _ _ => ?_) ?_
    | split

theorem setWaiting_frame (a0 a1 s) : OnlyChanges [.queues] s (setWaiting a0 a1 s) := by
  unfold setWaiting
  repeat' first
    | with_reducible exact OnlyChanges.refl _ _
    | assumption
    | with_reducible refine modBuf_frame _ ?_

theorem injectFirst_frame (a0 a1 a2 s) : ∀ t, injectFirst a0 a1 a2 s = some t → OnlyChanges [.recoveryLog, .ports,
    .packets, .queues, .room, .firmware, .tables, .events, .counters, .crumbs] s t := by
  intro t ht
  revert ht
  fun_induction injectFirst a0 a1 a2 s
  all_goals
  repeat' first
    | with_reducible exact OnlyChanges.refl _ _
    | assumption
    | with_reducible refine (tryInject_frame _ _ _ _ _ (by assumption)).after (by decide) ?_
    | (intro ht; with_reducible refine (tryInject_frame _ _ _ _ _ ht).after (by decide) ?_)
    | with_reducible refine (setWaiting_frame _ _ _).after (by decide) ?_
    | (intro ht; (first | (injection ht with ht; subst ht) | (simp at ht; done)))

theorem injectNext_frame (a0 s) : ∀ t, injectNext a0 s = some t → OnlyChanges [.recoveryLog, .ports, .packets,
    .queues, .room, .firmware, .tables, .events, .counters, .crumbs] s t := by
  intro t ht
  revert ht
  unfold injectNext
  repeat' first
    | with_reducible exact OnlyChanges.refl _ _
    | assumption
    | (intro ht; with_reducible refine (injectFirst_frame _ _ _ _ _ ht).after (by decide) ?_)
    | (intro ht; (first | (injection ht with ht; subst ht) | (simp at ht; done)))

theorem refreshPauses_frame (a0 s) : OnlyChanges [.recoveryLog, .queues, .events, .counters, .crumbs] s
    (refreshPauses a0 s) := by
  unfold refreshPauses
  repeat' first
    | with_reducible exact OnlyChanges.refl _ _
    | assumption
    | with_reducible refine (notePause_frame _ _ _ _).before ?_
    | extract_lets
    | with_reducible refine OnlyChanges.getD (fun _ _ => ?_) ?_
    | with_reducible refine OnlyChanges.foldl (fun _ _ => ?_) ?_

theorem originateAt_frame (a0 a1 a2 a3 s) : OnlyChanges [.recoveryLog, .ports, .packets, .queues, .room,
    .numbering, .firmware, .tables, .events, .counters, .crumbs] s (originateAt a0 a1 a2 a3 s) := by
  unfold originateAt
  repeat' first
    | with_reducible exact OnlyChanges.refl _ _
    | assumption
    | with_reducible refine (numbered_frame _ _).after (by decide) ?_
    | with_reducible refine (setWaiting_frame _ _ _).after (by decide) ?_
    | with_reducible refine (injectNext_frame _ _ _ (by assumption)).after (by decide) ?_
    | extract_lets
    | with_reducible refine OnlyChanges.getD (fun _ _ => ?_) ?_

theorem originate_frame (a0 a1 s) : OnlyChanges [.recoveryLog, .ports, .packets, .queues, .room, .numbering,
    .firmware, .tables, .events, .counters, .crumbs] s (originate a0 a1 s) := by
  unfold originate
  repeat' first
    | with_reducible exact OnlyChanges.refl _ _
    | assumption
    | with_reducible refine (originateAt_frame _ _ _ _ _).before ?_

theorem sendControl_frame (a0 s) : OnlyChanges [.recoveryLog, .ports, .packets, .queues, .room, .numbering,
    .firmware, .tables, .events, .counters, .crumbs] s (sendControl a0 s) := by
  unfold sendControl
  repeat' first
    | with_reducible exact OnlyChanges.refl _ _
    | assumption
    | with_reducible refine (originate_frame _ _ _).before ?_
    | with_reducible refine modBuf_frame _ ?_
    | with_reducible refine (countControl_frame _ _).after (by decide) ?_
    | extract_lets
    | with_reducible refine OnlyChanges.getD (fun _ _ => ?_) ?_
    | with_reducible refine OnlyChanges.foldl (fun _ _ => ?_) ?_
    | split

end Sys2Proof.Machine
end

