-- ==== Sys2Proof/Laws/FrameForward.lean ====
section
/-! SUPPORT. What the operations of Machine/Forward.lean leave unchanged. -/

set_option Elab.async false

namespace Sys2Proof.Machine

theorem headerParity_frame (a0 a1 s) : OnlyChanges [.recoveryLog, .tables, .events, .counters, .crumbs] s
    (headerParity a0 a1 s) := by
  unfold headerParity
  repeat' first
    | with_reducible exact OnlyChanges.refl _ _
    | assumption
    | with_reducible refine (tellParity_frame _ _ _ _).before ?_
    | extract_lets
    | with_reducible refine OnlyChanges.getD (fun _ _ => ?_) ?_
    | with_reducible refine OnlyChanges.foldl (fun _ _ => ?_) ?_
    | split
    | extract_lets +lift
    | with_reducible refine OnlyChanges.foldl_fst (fun _ _ => ?_) ?_
    | with_reducible refine OnlyChanges.foldl_snd (fun _ _ => ?_) ?_
    | with_reducible refine OnlyChanges.of_fst (by assumption) ?_
    | with_reducible refine OnlyChanges.of_snd (by assumption) ?_
    | fail_if_no_progress (with_reducible refine OnlyChanges.upd rfl ?_)
    | dsimp +zetaDelta only []

theorem returnCells_frame (a0 a1 s) : OnlyChanges [.ports, .room] s (returnCells a0 a1 s) := by
  unfold returnCells
  repeat' first
    | with_reducible exact OnlyChanges.refl _ _
    | assumption
    | with_reducible refine (releaseHeadroom_frame _ _ _ _).before ?_
    | with_reducible refine (chargeHeadroom_frame _ _ _ _).after (by decide) ?_
    | extract_lets
    | with_reducible refine OnlyChanges.getD (fun _ _ => ?_) ?_
    | with_reducible refine OnlyChanges.foldl (fun _ _ => ?_) ?_
    | split

theorem colourPacket_frame (a0 a1 s) : OnlyChanges [.classes] s (colourPacket a0 a1 s).2 := by
  unfold colourPacket
  repeat' first
    | with_reducible exact OnlyChanges.refl _ _
    | assumption
    | extract_lets
    | with_reducible refine OnlyChanges.getD (fun _ _ => ?_) ?_
    | with_reducible refine OnlyChanges.foldl (fun _ _ => ?_) ?_
    | split
    | extract_lets +lift
    | with_reducible refine OnlyChanges.foldl_fst (fun _ _ => ?_) ?_
    | with_reducible refine OnlyChanges.foldl_snd (fun _ _ => ?_) ?_
    | with_reducible refine OnlyChanges.of_fst (by assumption) ?_
    | with_reducible refine OnlyChanges.of_snd (by assumption) ?_
    | with_reducible refine OnlyChanges.upd rfl ?_

theorem dropRed_frame (a0 s) : OnlyChanges [.recoveryLog, .events, .counters, .crumbs] s (dropRed a0 s) := by
  unfold dropRed
  repeat' first
    | with_reducible exact OnlyChanges.refl _ _
    | assumption
    | with_reducible refine (countDrop_frame _ _ _).before ?_

theorem noteTraffic_frame (a0 a1 a2 s) : OnlyChanges [.placement] s (noteTraffic a0 a1 a2 s) := by
  unfold noteTraffic
  repeat' first
    | with_reducible exact OnlyChanges.refl _ _
    | assumption
    | extract_lets
    | with_reducible refine OnlyChanges.getD (fun _ _ => ?_) ?_
    | with_reducible refine OnlyChanges.foldl (fun _ _ => ?_) ?_
    | split
    | extract_lets +lift
    | with_reducible refine OnlyChanges.foldl_fst (fun _ _ => ?_) ?_
    | with_reducible refine OnlyChanges.foldl_snd (fun _ _ => ?_) ?_
    | with_reducible refine OnlyChanges.of_fst (by assumption) ?_
    | with_reducible refine OnlyChanges.of_snd (by assumption) ?_
    | with_reducible refine OnlyChanges.upd rfl ?_

theorem storeUnicast_frame (a0 a1 a2 a3 a4 a5 s) : OnlyChanges [.recoveryLog, .ports, .packets, .queues, .room,
    .tables, .classes, .events, .counters, .crumbs, .placement] s (storeUnicast a0 a1 a2 a3 a4 a5 s).1 := by
  unfold storeUnicast
  repeat' first
    | with_reducible exact OnlyChanges.refl _ _
    | assumption
    | with_reducible refine (noteTraffic_frame _ _ _ _).after (by decide) ?_
    | with_reducible refine (placeAdaptive_frame _ _ _ _ _).after (by decide) ?_
    | with_reducible refine (placeCopy_frame _ _ _ _ _ _).after (by decide) ?_
    | with_reducible refine (chargeLossless_frame _ _ _ _ _).after (by decide) ?_
    | with_reducible refine (storePacket_frame _ _).after (by decide) ?_
    | with_reducible refine (redDecide_frame _ _ _ _).after (by decide) ?_
    | with_reducible refine (dropRed_frame _ _).after (by decide) ?_
    | with_reducible refine (lossyRoom_frame _ _ _ _).after (by decide) ?_
    | with_reducible refine (chargeShared_frame _ _ _).after (by decide) ?_
    | extract_lets
    | with_reducible refine OnlyChanges.getD (fun _ _ => ?_) ?_
    | with_reducible refine OnlyChanges.foldl (fun _ _ => ?_) ?_
    | split
    | extract_lets +lift
    | with_reducible refine OnlyChanges.foldl_fst (fun _ _ => ?_) ?_
    | with_reducible refine OnlyChanges.foldl_snd (fun _ _ => ?_) ?_
    | with_reducible refine OnlyChanges.of_fst (by assumption) ?_
    | with_reducible refine OnlyChanges.of_snd (by assumption) ?_

theorem storeMulticast_frame (a0 a1 s) : OnlyChanges [.recoveryLog, .ports, .packets, .queues, .room, .tables,
    .classes, .events, .counters, .crumbs, .placement] s (storeMulticast a0 a1 s).1 := by
  unfold storeMulticast
  repeat' first
    | with_reducible exact OnlyChanges.refl _ _
    | assumption
    | with_reducible refine (count_frame _ _ _).after (by decide) ?_
    | with_reducible refine (noteTraffic_frame _ _ _ _).after (by decide) ?_
    | with_reducible refine (placeCopy_frame _ _ _ _ _ _).after (by decide) ?_
    | with_reducible refine (returnCells_frame _ _ _).after (by decide) ?_
    | with_reducible refine (chargeLossless_frame _ _ _ _ _).after (by decide) ?_
    | with_reducible refine (storePacket_frame _ _).after (by decide) ?_
    | with_reducible refine (redDecide_frame _ _ _ _).after (by decide) ?_
    | with_reducible refine (dropRed_frame _ _).after (by decide) ?_
    | with_reducible refine (lossyRoom_frame _ _ _ _).after (by decide) ?_
    | with_reducible refine (chargeShared_frame _ _ _).after (by decide) ?_
    | extract_lets
    | with_reducible refine OnlyChanges.getD (fun _ _ => ?_) ?_
    | with_reducible refine OnlyChanges.foldl (fun _ _ => ?_) ?_
    | split
    | extract_lets +lift
    | with_reducible refine OnlyChanges.foldl_fst (fun _ _ => ?_) ?_
    | with_reducible refine OnlyChanges.foldl_snd (fun _ _ => ?_) ?_
    | with_reducible refine OnlyChanges.of_fst (by assumption) ?_
    | with_reducible refine OnlyChanges.of_snd (by assumption) ?_
    | fail_if_no_progress (with_reducible refine OnlyChanges.upd rfl ?_)
    | dsimp +zetaDelta only []

theorem storeOwn_frame (a0 a1 s) : OnlyChanges [.recoveryLog, .ports, .packets, .queues, .room, .events, .counters,
    .crumbs] s (storeOwn a0 a1 s).1 := by
  unfold storeOwn
  repeat' first
    | with_reducible exact OnlyChanges.refl _ _
    | assumption
    | with_reducible refine (chargeLossless_frame _ _ _ _ _).before ?_
    | with_reducible refine (storePacket_frame _ _).after (by decide) ?_
    | with_reducible refine (lossyRoom_frame _ _ _ _).before ?_
    | with_reducible refine (chargeShared_frame _ _ _).after (by decide) ?_
    | with_reducible refine (countDrop_frame _ _ _).after (by decide) ?_
    | with_reducible refine (chargeHeadroom_frame _ _ _ _).after (by decide) ?_
    | extract_lets
    | with_reducible refine OnlyChanges.getD (fun _ _ => ?_) ?_
    | with_reducible refine OnlyChanges.foldl (fun _ _ => ?_) ?_
    | split
    | extract_lets +lift
    | with_reducible refine OnlyChanges.foldl_fst (fun _ _ => ?_) ?_
    | with_reducible refine OnlyChanges.foldl_snd (fun _ _ => ?_) ?_
    | with_reducible refine OnlyChanges.of_fst (by assumption) ?_
    | with_reducible refine OnlyChanges.of_snd (by assumption) ?_

theorem routePacket_frame (a0 a1 s) : OnlyChanges [.recoveryLog, .ports, .packets, .queues, .room, .tables,
    .classes, .events, .counters, .crumbs, .placement] s (routePacket a0 a1 s).1 := by
  unfold routePacket
  repeat' first
    | with_reducible exact OnlyChanges.refl _ _
    | assumption
    | with_reducible refine (modSlice_frame _ _ _).after (by decide) ?_
    | with_reducible refine (lookupTouch_frame _ _ _).after (by decide) ?_
    | with_reducible refine (storeOwn_frame _ _ _).after (by decide) ?_
    | with_reducible refine (storeMulticast_frame _ _ _).before ?_
    | with_reducible refine (countSlice_frame _ _ _).after (by decide) ?_
    | with_reducible refine (storeUnicast_frame _ _ _ _ _ _ _).before ?_
    | with_reducible refine (returnCells_frame _ _ _).after (by decide) ?_
    | with_reducible refine (countDrop_frame _ _ _).after (by decide) ?_
    | extract_lets
    | with_reducible refine OnlyChanges.getD (fun _ _ => ?_) ?_
    | with_reducible refine OnlyChanges.foldl (fun _ _ => ?_) ?_
    | split

theorem sampleSeed_frame (a0 s) : OnlyChanges [.free] s (sampleSeed a0 s).2 := by
  unfold sampleSeed
  repeat' first
    | with_reducible exact OnlyChanges.refl _ _
    | assumption
    | with_reducible refine (drawFree_frame _).before ?_
    | extract_lets
    | with_reducible refine OnlyChanges.getD (fun _ _ => ?_) ?_
    | with_reducible refine OnlyChanges.foldl (fun _ _ => ?_) ?_
    | split

theorem samplePacket_frame (a0 a1 a2 s) : OnlyChanges [.recoveryLog, .ports, .tables, .gates, .events, .counters,
    .crumbs, .samples, .free] s (samplePacket a0 a1 a2 s) := by
  unfold samplePacket
  repeat' first
    | with_reducible exact OnlyChanges.refl _ _
    | assumption
    | with_reducible refine (sampleSeed_frame _ _).after (by decide) ?_
    | with_reducible refine (modPort_frame _ _ _).after (by decide) ?_
    | with_reducible refine (modSlice_frame _ _ _).after (by decide) ?_
    | with_reducible refine (startWork_frame _ _ _ _).after (by decide) ?_
    | with_reducible refine (countSlice_frame _ _ _).after (by decide) ?_
    | extract_lets
    | with_reducible refine OnlyChanges.getD (fun _ _ => ?_) ?_
    | with_reducible refine OnlyChanges.foldl (fun _ _ => ?_) ?_
    | split
    | extract_lets +lift
    | with_reducible refine OnlyChanges.foldl_fst (fun _ _ => ?_) ?_
    | with_reducible refine OnlyChanges.foldl_snd (fun _ _ => ?_) ?_
    | with_reducible refine OnlyChanges.of_fst (by assumption) ?_
    | with_reducible refine OnlyChanges.of_snd (by assumption) ?_
    | with_reducible refine OnlyChanges.upd rfl ?_

theorem policed_frame (a0 a1 s) : ∀ t, policed a0 a1 s = some t → OnlyChanges [.ports] s t := by
  intro t ht
  revert ht
  unfold policed
  repeat' first
    | with_reducible exact OnlyChanges.refl _ _
    | assumption
    | with_reducible refine (settleC0_frame _ _).before ?_
    | with_reducible refine (modPort_frame _ _ _).before ?_
    | (intro ht; (first | (injection ht with ht; subst ht) | (simp at ht; done)))
    | extract_lets
    | with_reducible refine OnlyChanges.getD (fun _ _ => ?_) ?_
    | with_reducible refine OnlyChanges.foldl (fun _ _ => ?_) ?_
    | split

theorem execPacketHeaderRx_frame (a0 a1 a2 s) : NextChanges [.recoveryLog, .ports, .packets, .queues, .room,
    .tables, .classes, .gates, .events, .counters, .crumbs, .samples, .placement, .free] s (execPacketHeaderRx a0
    a1 a2 s) := by
  unfold execPacketHeaderRx
  repeat' first
    | with_reducible exact OnlyChanges.refl _ _
    | assumption
    | with_reducible refine onUnit_frame _ ?_
    | with_reducible refine next_frame ?_
    | with_reducible exact fault_frame _ _ _
    | with_reducible refine (filterSlice_frame _ _ _ _).after (by decide) ?_
    | with_reducible refine (headerParity_frame _ _ _).after (by decide) ?_
    | with_reducible refine (samplePacket_frame _ _ _ _).after (by decide) ?_
    | with_reducible refine (returnCells_frame _ _ _).after (by decide) ?_
    | with_reducible refine (countDrop_frame _ _ _).after (by decide) ?_
    | with_reducible refine (colourPacket_frame _ _ _).after (by decide) ?_
    | with_reducible refine (modPort_frame _ _ _).after (by decide) ?_
    | with_reducible refine (countQueue_frame _ _ _ _ _).after (by decide) ?_
    | with_reducible refine (chargeHeadroom_frame _ _ _ _).after (by decide) ?_
    | with_reducible refine (settleC0_frame _ _).after (by decide) ?_
    | with_reducible refine (policed_frame _ _ _ _ (by assumption)).after (by decide) ?_
    | with_reducible refine (routePacket_frame _ _ _).after (by decide) ?_
    | extract_lets
    | with_reducible refine OnlyChanges.getD (fun _ _ => ?_) ?_
    | with_reducible refine OnlyChanges.foldl (fun _ _ => ?_) ?_
    | split
    | extract_lets +lift
    | with_reducible refine OnlyChanges.foldl_fst (fun _ _ => ?_) ?_
    | with_reducible refine OnlyChanges.foldl_snd (fun _ _ => ?_) ?_
    | with_reducible refine OnlyChanges.of_fst (by assumption) ?_
    | with_reducible refine OnlyChanges.of_snd (by assumption) ?_

theorem execC0PolicerRelease_frame (a0 s) : NextChanges [.recoveryLog, .ports, .packets, .queues, .room, .tables,
    .classes, .events, .counters, .crumbs, .placement] s (execC0PolicerRelease a0 s) := by
  unfold execC0PolicerRelease
  repeat' first
    | with_reducible exact OnlyChanges.refl _ _
    | assumption
    | with_reducible refine onUnit_frame _ ?_
    | with_reducible refine next_frame ?_
    | with_reducible exact fault_frame _ _ _
    | with_reducible refine (policed_frame _ _ _ _ (by assumption)).after (by decide) ?_
    | with_reducible refine modBuf_frame _ ?_
    | with_reducible refine (modPort_frame _ _ _).after (by decide) ?_
    | with_reducible refine (routePacket_frame _ _ _).before ?_
    | extract_lets
    | with_reducible refine OnlyChanges.getD (fun _ _ => ?_) ?_
    | with_reducible refine OnlyChanges.foldl (fun _ _ => ?_) ?_
    | split

theorem learn_frame (a0 a1 s) : OnlyChanges [.recoveryLog, .tables, .events, .counters, .crumbs] s (learn a0 a1 s)
    := by
  unfold learn
  repeat' first
    | with_reducible exact OnlyChanges.refl _ _
    | assumption
    | with_reducible refine (modSlice_frame _ _ _).after (by decide) ?_
    | with_reducible refine (countSlice_frame _ _ _).after (by decide) ?_
    | extract_lets
    | with_reducible refine OnlyChanges.getD (fun _ _ => ?_) ?_
    | with_reducible refine OnlyChanges.foldl (fun _ _ => ?_) ?_
    | split

theorem learnFrom_frame (a0 a1 a2 s) : OnlyChanges [.recoveryLog, .tables, .events, .counters, .crumbs] s
    (learnFrom a0 a1 a2 s) := by
  unfold learnFrom
  repeat' first
    | with_reducible exact OnlyChanges.refl _ _
    | assumption
    | with_reducible refine (modSlice_frame _ _ _).after (by decide) ?_
    | with_reducible refine (countSlice_frame _ _ _).after (by decide) ?_
    | with_reducible refine (learn_frame _ _ _).before ?_
    | extract_lets
    | with_reducible refine OnlyChanges.getD (fun _ _ => ?_) ?_
    | with_reducible refine OnlyChanges.foldl (fun _ _ => ?_) ?_
    | split

theorem execLearnMsgRx_frame (a0 s) : NextChanges [.recoveryLog, .tables, .gates, .events, .counters, .crumbs] s
    (execLearnMsgRx a0 s) := by
  unfold execLearnMsgRx
  repeat' first
    | with_reducible exact OnlyChanges.refl _ _
    | assumption
    | with_reducible refine onUnit_frame _ ?_
    | with_reducible refine next_frame ?_
    | with_reducible exact fault_frame _ _ _
    | with_reducible refine (learn_frame _ _ _).after (by decide) ?_
    | with_reducible refine (startWork_frame _ _ _ _).after (by decide) ?_
    | with_reducible refine (modSlice_frame _ _ _).after (by decide) ?_
    | extract_lets
    | with_reducible refine OnlyChanges.getD (fun _ _ => ?_) ?_
    | with_reducible refine OnlyChanges.foldl (fun _ _ => ?_) ?_
    | split

theorem modLinkSlot_frame (a0 a1 s) : OnlyChanges [.linkKeys] s (modLinkSlot a0 a1 s) := by
  unfold modLinkSlot
  repeat' first
    | with_reducible exact OnlyChanges.refl _ _
    | assumption
    | extract_lets
    | with_reducible refine OnlyChanges.getD (fun _ _ => ?_) ?_
    | with_reducible refine OnlyChanges.foldl (fun _ _ => ?_) ?_
    | split
    | extract_lets +lift
    | with_reducible refine OnlyChanges.foldl_fst (fun _ _ => ?_) ?_
    | with_reducible refine OnlyChanges.foldl_snd (fun _ _ => ?_) ?_
    | with_reducible refine OnlyChanges.of_fst (by assumption) ?_
    | with_reducible refine OnlyChanges.of_snd (by assumption) ?_
    | with_reducible refine OnlyChanges.upd rfl ?_

theorem instanceCheck_frame (a0 a1 a2 a3 s) : OnlyChanges [.recoveryLog, .events, .counters, .crumbs, .linkKeys] s
    (instanceCheck a0 a1 a2 a3 s).1 := by
  unfold instanceCheck
  repeat' first
    | with_reducible exact OnlyChanges.refl _ _
    | assumption
    | with_reducible refine (modLinkSlot_frame _ _ _).after (by decide) ?_
    | with_reducible refine (raiseOwner_frame _ _ _ _ _).after (by decide) ?_
    | extract_lets
    | with_reducible refine OnlyChanges.getD (fun _ _ => ?_) ?_
    | with_reducible refine OnlyChanges.foldl (fun _ _ => ?_) ?_
    | split

theorem execPacketTrailerCheck_frame (a0 a1 a2 s) : NextChanges [.recoveryLog, .ports, .packets, .queues, .room,
    .firmware, .tables, .events, .counters, .crumbs, .linkKeys] s (execPacketTrailerCheck a0 a1 a2 s) := by
  unfold execPacketTrailerCheck
  repeat' first
    | with_reducible exact OnlyChanges.refl _ _
    | assumption
    | with_reducible refine onUnit_frame _ ?_
    | with_reducible refine next_frame ?_
    | with_reducible exact fault_frame _ _ _
    | with_reducible refine (instanceCheck_frame _ _ _ _ _).after (by decide) ?_
    | with_reducible refine (cutShort_frame _ _ _).after (by decide) ?_
    | with_reducible refine (countDrop_frame _ _ _).after (by decide) ?_
    | with_reducible refine (learnFrom_frame _ _ _ _).after (by decide) ?_
    | with_reducible refine (modStored_frame _ _ _).after (by decide) ?_
    | with_reducible refine (deliverTo_frame _ _ _).after (by decide) ?_
    | with_reducible refine modBuf_frame _ ?_
    | extract_lets
    | with_reducible refine OnlyChanges.getD (fun _ _ => ?_) ?_
    | with_reducible refine OnlyChanges.foldl (fun _ _ => ?_) ?_
    | split
    | extract_lets +lift
    | with_reducible refine OnlyChanges.foldl_fst (fun _ _ => ?_) ?_
    | with_reducible refine OnlyChanges.foldl_snd (fun _ _ => ?_) ?_
    | with_reducible refine OnlyChanges.of_fst (by assumption) ?_

theorem releaseDelivered_frame (a0 s) : OnlyChanges [.ports, .packets, .room] s (releaseDelivered a0 s) := by
  unfold releaseDelivered
  repeat' first
    | with_reducible exact OnlyChanges.refl _ _
    | assumption
    | with_reducible refine (releaseShared_frame _ _ _).after (by decide) ?_
    | with_reducible refine (releaseHeadroom_frame _ _ _ _).after (by decide) ?_
    | with_reducible refine (retestQueue_frame _ _).before ?_
    | extract_lets
    | with_reducible refine OnlyChanges.getD (fun _ _ => ?_) ?_
    | with_reducible refine OnlyChanges.foldl (fun _ _ => ?_) ?_
    | split

theorem takeDelivered_frame (a0 s) : ∀ t, takeDelivered a0 s = some t → OnlyChanges [.ports, .packets, .room,
    .firmware] s t.2 := by
  intro t ht
  revert ht
  unfold takeDelivered
  repeat' first
    | with_reducible exact OnlyChanges.refl _ _
    | assumption
    | with_reducible refine (releaseDelivered_frame _ _).after (by decide) ?_
    | with_reducible refine modBuf_frame _ ?_
    | (intro ht; (first | (injection ht with ht; subst ht) | (simp at ht; done)))
    | extract_lets
    | with_reducible refine OnlyChanges.getD (fun _ _ => ?_) ?_
    | with_reducible refine OnlyChanges.foldl (fun _ _ => ?_) ?_
    | split

theorem execStagingWrite_frame (s) : NextChanges [.ports, .packets, .room, .firmware] s (execStagingWrite s) := by
  unfold execStagingWrite
  repeat' first
    | with_reducible exact OnlyChanges.refl _ _
    | assumption
    | with_reducible refine onUnit_frame _ ?_
    | with_reducible refine next_frame ?_
    | with_reducible exact fault_frame _ _ _
    | with_reducible refine (takeDelivered_frame _ _ (_, _) (by assumption)).after (by decide) ?_
    | with_reducible refine (deliverTo_frame _ _ _).after (by decide) ?_
    | extract_lets
    | with_reducible refine OnlyChanges.getD (fun _ _ => ?_) ?_
    | with_reducible refine OnlyChanges.foldl (fun _ _ => ?_) ?_
    | split

theorem execHeadroomFilled_frame (a0 s) : NextChanges [.recoveryLog, .ports, .groups, .events, .neighbours,
    .counters, .crumbs, .linkKeys] s (execHeadroomFilled a0 s) := by
  unfold execHeadroomFilled
  repeat' first
    | with_reducible exact OnlyChanges.refl _ _
    | assumption
    | with_reducible refine onUnit_frame _ ?_
    | with_reducible refine next_frame ?_
    | with_reducible exact fault_frame _ _ _
    | with_reducible refine (tryHello_frame _ _).before ?_
    | with_reducible refine (modPort_frame _ _ _).after (by decide) ?_
    | extract_lets
    | with_reducible refine OnlyChanges.getD (fun _ _ => ?_) ?_
    | with_reducible refine OnlyChanges.foldl (fun _ _ => ?_) ?_
    | split

theorem stalePort_frame (a0 a1 a2 s) : OnlyChanges [.alert, .lastLevel, .recoveryLog, .time, .lanes, .ports,
    .packets, .queues, .room, .tables, .groups, .events, .neighbours, .counters, .crumbs, .escalation, .devTime,
    .linkKeys] s (stalePort a0 a1 a2 s) := by
  unfold stalePort
  repeat' first
    | with_reducible exact OnlyChanges.refl _ _
    | assumption
    | with_reducible refine (enterDown_frame _ _ _).after (by decide) ?_
    | with_reducible refine (escalate_frame _ _ _ _ _).after (by decide) ?_
    | with_reducible refine (staleCrumb_frame _ _ _ _).after (by decide) ?_

theorem execQueueStalenessExpiry_frame (a0 a1 a2 s) : NextChanges [.alert, .lastLevel, .recoveryLog, .time, .lanes,
    .ports, .packets, .queues, .room, .tables, .groups, .events, .neighbours, .counters, .crumbs, .escalation,
    .devTime, .linkKeys] s (execQueueStalenessExpiry a0 a1 a2 s) := by
  unfold execQueueStalenessExpiry
  repeat' first
    | with_reducible exact OnlyChanges.refl _ _
    | assumption
    | with_reducible refine onUnit_frame _ ?_
    | with_reducible refine next_frame ?_
    | with_reducible exact fault_frame _ _ _
    | with_reducible refine (stalePort_frame _ _ _ _).before ?_
    | extract_lets
    | with_reducible refine OnlyChanges.getD (fun _ _ => ?_) ?_
    | with_reducible refine OnlyChanges.foldl (fun _ _ => ?_) ?_
    | split

theorem execPortStalenessExpiry_frame (a0 s) : NextChanges [.alert, .lastLevel, .recoveryLog, .time, .lanes,
    .ports, .packets, .queues, .room, .tables, .groups, .events, .neighbours, .counters, .crumbs, .escalation,
    .devTime, .linkKeys] s (execPortStalenessExpiry a0 s) := by
  unfold execPortStalenessExpiry
  repeat' first
    | with_reducible exact OnlyChanges.refl _ _
    | assumption
    | with_reducible refine onUnit_frame _ ?_
    | with_reducible refine next_frame ?_
    | with_reducible exact fault_frame _ _ _
    | with_reducible refine (stalePort_frame _ _ _ _).before ?_
    | extract_lets
    | with_reducible refine OnlyChanges.getD (fun _ _ => ?_) ?_
    | with_reducible refine OnlyChanges.foldl (fun _ _ => ?_) ?_
    | split

theorem moveCopy_frame (a0 a1 a2 s a3) : OnlyChanges [.recoveryLog, .ports, .packets, .queues, .room, .events,
    .counters, .crumbs] s (moveCopy a0 a1 a2 s a3) := by
  unfold moveCopy
  repeat' first
    | with_reducible exact OnlyChanges.refl _ _
    | assumption
    | with_reducible refine (setVoq_frame _ _ _).after (by decide) ?_
    | with_reducible refine (countQueue_frame _ _ _ _ _).after (by decide) ?_
    | with_reducible refine (placeCopy_frame _ _ _ _ _ _).before ?_
    | with_reducible refine (releaseEntry_frame _ _ _).after (by decide) ?_
    | extract_lets
    | with_reducible refine OnlyChanges.getD (fun _ _ => ?_) ?_
    | with_reducible refine OnlyChanges.foldl (fun _ _ => ?_) ?_
    | split

theorem execHuskWaitExpiry_frame (a0 a1 a2 s) : NextChanges [.recoveryLog, .ports, .packets, .queues, .room,
    .tables, .events, .counters, .crumbs] s (execHuskWaitExpiry a0 a1 a2 s) := by
  unfold execHuskWaitExpiry
  repeat' first
    | with_reducible exact OnlyChanges.refl _ _
    | assumption
    | with_reducible refine onUnit_frame _ ?_
    | with_reducible refine next_frame ?_
    | with_reducible exact fault_frame _ _ _
    | with_reducible refine (huskParity_frame _ _ _).after (by decide) ?_
    | with_reducible refine modBuf_frame _ ?_
    | with_reducible refine (moveCopy_frame _ _ _ _ _).after (by decide) ?_
    | with_reducible refine (setVoq_frame _ _ _).after (by decide) ?_
    | extract_lets
    | with_reducible refine OnlyChanges.getD (fun _ _ => ?_) ?_
    | with_reducible refine OnlyChanges.foldl (fun _ _ => ?_) ?_
    | split

theorem execHuskMoveEnd_frame (a0 a1 s) : NextChanges [.queues] s (execHuskMoveEnd a0 a1 s) := by
  unfold execHuskMoveEnd
  repeat' first
    | with_reducible exact OnlyChanges.refl _ _
    | assumption
    | with_reducible refine onUnit_frame _ ?_
    | with_reducible refine next_frame ?_
    | with_reducible exact fault_frame _ _ _
    | with_reducible refine modBuf_frame _ ?_

theorem unlockBucket_frame (a0 a1 s) : OnlyChanges [.recoveryLog, .tables, .events, .counters, .crumbs] s
    (unlockBucket a0 a1 s) := by
  unfold unlockBucket
  repeat' first
    | with_reducible exact OnlyChanges.refl _ _
    | assumption
    | with_reducible refine (modSlice_frame _ _ _).after (by decide) ?_
    | with_reducible refine (learn_frame _ _ _).before ?_
    | extract_lets
    | with_reducible refine OnlyChanges.getD (fun _ _ => ?_) ?_
    | with_reducible refine OnlyChanges.foldl (fun _ _ => ?_) ?_

theorem restoreBucket_frame (a0 a1 a2 s) : OnlyChanges [.tables] s (restoreBucket a0 a1 a2 s) := by
  unfold restoreBucket
  repeat' first
    | with_reducible exact OnlyChanges.refl _ _
    | assumption
    | with_reducible refine (modSlice_frame _ _ _).before ?_

theorem execBucketLockTimeout_frame (a0 a1 s) : NextChanges [.alert, .lastLevel, .recoveryLog, .tables, .events,
    .mailboxes, .counters, .crumbs, .out] s (execBucketLockTimeout a0 a1 s) := by
  unfold execBucketLockTimeout
  repeat' first
    | with_reducible exact OnlyChanges.refl _ _
    | assumption
    | with_reducible refine onUnit_frame _ ?_
    | with_reducible refine next_frame ?_
    | with_reducible exact fault_frame _ _ _
    | with_reducible refine (restoreBucket_frame _ _ _ _).after (by decide) ?_
    | with_reducible refine (finish_frame _ _ _ _).after (by decide) ?_
    | with_reducible refine (noteLevel_frame _ _).after (by decide) ?_
    | with_reducible refine (raise31_frame _ _ _).after (by decide) ?_
    | with_reducible refine (unlockBucket_frame _ _ _).after (by decide) ?_
    | extract_lets
    | with_reducible refine OnlyChanges.getD (fun _ _ => ?_) ?_
    | with_reducible refine OnlyChanges.foldl (fun _ _ => ?_) ?_
    | split

theorem execSweepTick_frame (a0 a1 s) : NextChanges [.recoveryLog, .tables, .events, .counters, .crumbs] s
    (execSweepTick a0 a1 s) := by
  unfold execSweepTick
  repeat' first
    | with_reducible exact OnlyChanges.refl _ _
    | assumption
    | with_reducible refine onUnit_frame _ ?_
    | with_reducible refine next_frame ?_
    | with_reducible exact fault_frame _ _ _
    | with_reducible refine (modSlice_frame _ _ _).after (by decide) ?_
    | with_reducible refine (raise31_frame _ _ _).after (by decide) ?_
    | with_reducible refine (countSlice_frame _ _ _).after (by decide) ?_
    | extract_lets
    | with_reducible refine OnlyChanges.getD (fun _ _ => ?_) ?_
    | with_reducible refine OnlyChanges.foldl (fun _ _ => ?_) ?_
    | split

end Sys2Proof.Machine
end

