-- ==== Sys2Proof/Laws/FrameGranOps.lean ====
section
/-! SUPPORT. What the operations of Machine/GranOps.lean leave unchanged. -/

set_option Elab.async false

namespace Sys2Proof.Machine

theorem modGran_frame {qs : List Part} {s x : State} (f : GranState → GranState) (h : OnlyChanges qs s x)
    (hk : KeptGran qs x.gran (f x.gran) := by
      (refine KeptGran.lit ?_ ?_ ?_ ?_ ?_ ?_
       · first | exact Or.inl (by decide) | exact Or.inr ⟨rfl, rfl, rfl, rfl⟩
       · first | exact Or.inl (by decide) | exact Or.inr ⟨rfl, rfl, rfl, rfl⟩
       · first | exact Or.inl (by decide) | exact Or.inr rfl
       · first | exact Or.inl (by decide) | exact Or.inr rfl
       · first | exact Or.inl (by decide) | exact Or.inr ⟨rfl, rfl, rfl, rfl⟩
       · first | exact Or.inl (by decide) | exact Or.inr ⟨rfl, rfl, rfl, rfl⟩)) : OnlyChanges qs s (modGran f x) :=
  OnlyChanges.upd rfl h (hgran := hk)

theorem modRegion_frame (a0 a1 s) : OnlyChanges [.regions] s (modRegion a0 a1 s) := by
  unfold modRegion
  repeat' first
    | with_reducible exact OnlyChanges.refl _ _
    | assumption
    | with_reducible refine modGran_frame _ ?_
    | extract_lets
    | with_reducible refine OnlyChanges.getD (fun _ _ => ?_) ?_
    | with_reducible refine OnlyChanges.foldl (fun _ _ => ?_) ?_
    | split

theorem countStack_frame (a0 a1 a2 s) : OnlyChanges [.recoveryLog, .events, .counters, .crumbs] s (countStack a0 a1
    a2 s) := by
  unfold countStack
  repeat' first
    | with_reducible exact OnlyChanges.refl _ _
    | assumption
    | with_reducible refine (count_frame _ _ _).before ?_

theorem countRange_frame (a0 a1 a2 a3 s) : OnlyChanges [.recoveryLog, .events, .counters, .crumbs] s (countRange a0
    a1 a2 a3 s) := by
  unfold countRange
  repeat' first
    | with_reducible exact OnlyChanges.refl _ _
    | assumption
    | with_reducible refine (countStack_frame _ _ _ _).before ?_
    | extract_lets
    | with_reducible refine OnlyChanges.getD (fun _ _ => ?_) ?_
    | with_reducible refine OnlyChanges.foldl (fun _ _ => ?_) ?_

theorem writeBytes_frame (a0 a1 a2 s) : OnlyChanges [.memory] s (writeBytes a0 a1 a2 s) := by
  unfold writeBytes
  repeat' first
    | with_reducible exact OnlyChanges.refl _ _
    | assumption
    | with_reducible refine modGran_frame _ ?_
    | extract_lets
    | with_reducible refine OnlyChanges.getD (fun _ _ => ?_) ?_
    | with_reducible refine OnlyChanges.foldl (fun _ _ => ?_) ?_

theorem zeroRegion_frame (a0 s) : OnlyChanges [.memory] s (zeroRegion a0 s) := by
  unfold zeroRegion
  repeat' first
    | with_reducible exact OnlyChanges.refl _ _
    | assumption
    | with_reducible refine modGran_frame _ ?_

theorem damageMirrors_frame (a0 s) : OnlyChanges [.recoveryLog, .events, .mirrors, .counters, .crumbs] s
    (damageMirrors a0 s) := by
  unfold damageMirrors
  repeat' first
    | with_reducible exact OnlyChanges.refl _ _
    | assumption
    | with_reducible refine (raiseOwner_frame _ _ _ _ _).after (by decide) ?_
    | with_reducible refine modGran_frame _ ?_
    | extract_lets
    | with_reducible refine OnlyChanges.getD (fun _ _ => ?_) ?_
    | with_reducible refine OnlyChanges.foldl (fun _ _ => ?_) ?_

theorem retireExtent_frame (a0 a1 a2 s) : OnlyChanges [.recoveryLog, .events, .regions, .counters, .crumbs] s
    (retireExtent a0 a1 a2 s) := by
  unfold retireExtent
  repeat' first
    | with_reducible exact OnlyChanges.refl _ _
    | assumption
    | with_reducible refine modGran_frame _ ?_
    | with_reducible refine (raise15_frame _ _ _).after (by decide) ?_
    | extract_lets
    | with_reducible refine OnlyChanges.getD (fun _ _ => ?_) ?_
    | with_reducible refine OnlyChanges.foldl (fun _ _ => ?_) ?_
    | split

theorem correctLine_frame (a0 a1 a2 s) : OnlyChanges [.recoveryLog, .events, .regions, .memory, .counters, .crumbs]
    s (correctLine a0 a1 a2 s) := by
  unfold correctLine
  repeat' first
    | with_reducible exact OnlyChanges.refl _ _
    | assumption
    | with_reducible refine (countStack_frame _ _ _ _).after (by decide) ?_
    | with_reducible refine modGran_frame _ ?_
    | with_reducible refine (retireExtent_frame _ _ _ _).after (by decide) ?_
    | extract_lets
    | with_reducible refine OnlyChanges.getD (fun _ _ => ?_) ?_
    | with_reducible refine OnlyChanges.foldl (fun _ _ => ?_) ?_
    | split

theorem poisonLine_frame (a0 a1 a2 s) : OnlyChanges [.recoveryLog, .events, .memory, .mirrors, .counters, .crumbs]
    s (poisonLine a0 a1 a2 s) := by
  unfold poisonLine
  repeat' first
    | with_reducible exact OnlyChanges.refl _ _
    | assumption
    | with_reducible refine (countStack_frame _ _ _ _).after (by decide) ?_
    | with_reducible refine modGran_frame _ ?_
    | with_reducible refine (damageMirrors_frame _ _).after (by decide) ?_
    | with_reducible refine (raiseOwner_frame _ _ _ _ _).after (by decide) ?_

theorem meetErrors_frame (a0 a1 a2 a3 s) : OnlyChanges [.recoveryLog, .events, .regions, .memory, .mirrors,
    .counters, .crumbs] s (meetErrors a0 a1 a2 a3 s) := by
  unfold meetErrors
  repeat' first
    | with_reducible exact OnlyChanges.refl _ _
    | assumption
    | with_reducible refine (poisonLine_frame _ _ _ _).after (by decide) ?_
    | with_reducible refine (correctLine_frame _ _ _ _).after (by decide) ?_
    | extract_lets
    | with_reducible refine OnlyChanges.getD (fun _ _ => ?_) ?_
    | with_reducible refine OnlyChanges.foldl (fun _ _ => ?_) ?_
    | split

theorem loseStack_frame (a0 s) : OnlyChanges [.recoveryLog, .events, .regions, .mirrors, .counters, .crumbs] s
    (loseStack a0 s) := by
  unfold loseStack
  repeat' first
    | with_reducible exact OnlyChanges.refl _ _
    | assumption
    | with_reducible refine modGran_frame _ ?_
    | with_reducible refine (damageMirrors_frame _ _).after (by decide) ?_
    | with_reducible refine (modRegion_frame _ _ _).after (by decide) ?_
    | extract_lets
    | with_reducible refine OnlyChanges.getD (fun _ _ => ?_) ?_
    | with_reducible refine OnlyChanges.foldl (fun _ _ => ?_) ?_

theorem addRegion_frame (a0 a1 s) : OnlyChanges [.regions] s (addRegion a0 a1 s) := by
  unfold addRegion
  repeat' first
    | with_reducible exact OnlyChanges.refl _ _
    | assumption
    | with_reducible refine modGran_frame _ ?_

theorem freeRegion_frame (a0 s) : OnlyChanges [.regions] s (freeRegion a0 s) := by
  unfold freeRegion
  repeat' first
    | with_reducible exact OnlyChanges.refl _ _
    | assumption
    | with_reducible refine (modRegion_frame _ _ _).before ?_

end Sys2Proof.Machine
end

