-- ==== Sys2Proof/Laws/FrameWinnowOps.lean ====
section
/-! SUPPORT. What the operations of Machine/WinnowOps.lean leave unchanged. -/

set_option Elab.async false

namespace Sys2Proof.Machine

theorem modWinnow_frame {qs : List Part} {s x : State} (f : WinnowState → WinnowState) (h : OnlyChanges qs s x)
    (hk : KeptWinnow qs x.winnow (f x.winnow) := by
      (refine KeptWinnow.lit ?_ ?_
       · first | exact Or.inl (by decide) | exact Or.inr ⟨rfl, rfl⟩
       · first | exact Or.inl (by decide) | exact Or.inr ⟨rfl, rfl, rfl, rfl, rfl, rfl, rfl, rfl, rfl⟩)) : OnlyChanges qs s (modWinnow f x) :=
  OnlyChanges.upd rfl h (hwinnow := hk)

theorem countWinnow_frame (a0 s) : OnlyChanges [.recoveryLog, .events, .counters, .crumbs] s (countWinnow a0 s) :=
    by
  unfold countWinnow
  repeat' first
    | with_reducible exact OnlyChanges.refl _ _
    | assumption
    | with_reducible refine (count_frame _ _ _).before ?_

theorem writeDecision_frame (a0 a1 a2 a3 a4 a5 s) : OnlyChanges [.recoveryLog, .events, .counters, .crumbs,
    .decisions] s (writeDecision a0 a1 a2 a3 a4 a5 s) := by
  unfold writeDecision
  repeat' first
    | with_reducible exact OnlyChanges.refl _ _
    | assumption
    | with_reducible refine modWinnow_frame _ ?_
    | with_reducible refine (countWinnow_frame _ _).after (by decide) ?_
    | extract_lets
    | with_reducible refine OnlyChanges.getD (fun _ _ => ?_) ?_
    | with_reducible refine OnlyChanges.foldl (fun _ _ => ?_) ?_
    | split

theorem noChoice_frame (a0 a1 a2 a3 s) : OnlyChanges [.recoveryLog, .events, .counters, .crumbs, .decisions] s
    (noChoice a0 a1 a2 a3 s) := by
  unfold noChoice
  repeat' first
    | with_reducible exact OnlyChanges.refl _ _
    | assumption
    | with_reducible refine (countWinnow_frame _ _).after (by decide) ?_
    | with_reducible refine (writeDecision_frame _ _ _ _ _ _ _).before ?_
    | with_reducible refine (raiseOwner_frame _ _ _ _ _).after (by decide) ?_
    | with_reducible refine (raise31_frame _ _ _).after (by decide) ?_
    | extract_lets
    | with_reducible refine OnlyChanges.getD (fun _ _ => ?_) ?_
    | with_reducible refine OnlyChanges.foldl (fun _ _ => ?_) ?_
    | split

theorem placeRegion_frame (a0 a1 a2 s) : OnlyChanges [.recoveryLog, .events, .counters, .crumbs, .decisions] s
    (placeRegion a0 a1 a2 s).2 := by
  unfold placeRegion
  repeat' first
    | with_reducible exact OnlyChanges.refl _ _
    | assumption
    | with_reducible refine (writeDecision_frame _ _ _ _ _ _ _).before ?_
    | with_reducible refine (noChoice_frame _ _ _ _ _).before ?_
    | extract_lets
    | with_reducible refine OnlyChanges.getD (fun _ _ => ?_) ?_
    | with_reducible refine OnlyChanges.foldl (fun _ _ => ?_) ?_
    | split

end Sys2Proof.Machine
end

