-- ==== Sys2Proof/Laws/FrameDmaOps.lean ====
section
/-! SUPPORT. What the operations of Machine/DmaOps.lean leave unchanged. -/

set_option Elab.async false

namespace Sys2Proof.Machine

theorem modChannel_frame (a0 a1 s) : OnlyChanges [.channels] s (modChannel a0 a1 s) := by
  unfold modChannel
  repeat' first
    | with_reducible exact OnlyChanges.refl _ _
    | assumption
    | with_reducible refine modGran_frame _ ?_

theorem countChannel_frame (a0 a1 a2 s) : OnlyChanges [.recoveryLog, .events, .counters, .crumbs] s (countChannel
    a0 a1 a2 s) := by
  unfold countChannel
  repeat' first
    | with_reducible exact OnlyChanges.refl _ _
    | assumption
    | with_reducible refine (count_frame _ _ _).before ?_

theorem channelSpend_frame (a0 a1 s) : OnlyChanges [.gates] s (channelSpend a0 a1 s) := by
  unfold channelSpend
  repeat' first
    | with_reducible exact OnlyChanges.refl _ _
    | assumption
    | with_reducible refine (startWork_frame _ _ _ _).before ?_
    | extract_lets
    | with_reducible refine OnlyChanges.getD (fun _ _ => ?_) ?_
    | with_reducible refine OnlyChanges.foldl (fun _ _ => ?_) ?_
    | split

theorem answerStops_frame (a0 a1 s) : OnlyChanges [.recoveryLog, .events, .mailboxes, .channels, .counters,
    .crumbs, .out] s (answerStops a0 a1 s) := by
  unfold answerStops
  repeat' first
    | with_reducible exact OnlyChanges.refl _ _
    | assumption
    | with_reducible refine (finish_frame _ _ _ _).after (by decide) ?_
    | with_reducible refine (modChannel_frame _ _ _).after (by decide) ?_
    | extract_lets
    | with_reducible refine OnlyChanges.getD (fun _ _ => ?_) ?_
    | with_reducible refine OnlyChanges.foldl (fun _ _ => ?_) ?_

theorem settleDisable_frame (s) : OnlyChanges [.recoveryLog, .events, .mailboxes, .accesses, .counters, .crumbs,
    .out] s (settleDisable s) := by
  unfold settleDisable
  repeat' first
    | with_reducible exact OnlyChanges.refl _ _
    | assumption
    | with_reducible refine (finish_frame _ _ _ _).after (by decide) ?_
    | with_reducible refine modGran_frame _ ?_
    | extract_lets
    | with_reducible refine OnlyChanges.getD (fun _ _ => ?_) ?_
    | with_reducible refine OnlyChanges.foldl (fun _ _ => ?_) ?_
    | split

theorem settleStop_frame (a0 s) : OnlyChanges [.recoveryLog, .events, .mailboxes, .channels, .accesses, .counters,
    .crumbs, .out] s (settleStop a0 s) := by
  unfold settleStop
  repeat' first
    | with_reducible exact OnlyChanges.refl _ _
    | assumption
    | with_reducible refine (settleDisable_frame _).after (by decide) ?_
    | with_reducible refine (answerStops_frame _ _ _).after (by decide) ?_
    | with_reducible refine (modChannel_frame _ _ _).after (by decide) ?_
    | extract_lets
    | with_reducible refine OnlyChanges.getD (fun _ _ => ?_) ?_
    | with_reducible refine OnlyChanges.foldl (fun _ _ => ?_) ?_
    | split

theorem clearOwn_frame (a0 a1 s) : OnlyChanges [.memory] s (clearOwn a0 a1 s) := by
  unfold clearOwn
  repeat' first
    | with_reducible exact OnlyChanges.refl _ _
    | assumption
    | with_reducible refine (writeBytes_frame _ _ _ _).before ?_

theorem writeCompletion_frame (a0 a1 a2 s) : OnlyChanges [.recoveryLog, .events, .memory, .channels, .counters,
    .crumbs] s (writeCompletion a0 a1 a2 s) := by
  unfold writeCompletion
  repeat' first
    | with_reducible exact OnlyChanges.refl _ _
    | assumption
    | with_reducible refine (writeBytes_frame _ _ _ _).after (by decide) ?_
    | with_reducible refine (clearOwn_frame _ _ _).after (by decide) ?_
    | with_reducible refine (countChannel_frame _ _ _ _).after (by decide) ?_
    | with_reducible refine (modChannel_frame _ _ _).after (by decide) ?_
    | with_reducible refine (raiseOwner_frame _ _ _ _ _).after (by decide) ?_
    | extract_lets
    | with_reducible refine OnlyChanges.getD (fun _ _ => ?_) ?_
    | with_reducible refine OnlyChanges.foldl (fun _ _ => ?_) ?_
    | split
    | extract_lets +lift
    | with_reducible refine OnlyChanges.foldl_fst (fun _ _ => ?_) ?_
    | with_reducible refine OnlyChanges.foldl_snd (fun _ _ => ?_) ?_
    | with_reducible refine OnlyChanges.of_fst (by assumption) ?_
    | with_reducible refine OnlyChanges.of_snd (by assumption) ?_
    | fail_if_no_progress (with_reducible refine OnlyChanges.upd rfl ?_)
    | dsimp +zetaDelta only []

theorem retireFlight_frame (a0 a1 s) : OnlyChanges [.recoveryLog, .events, .mailboxes, .memory, .channels,
    .accesses, .counters, .crumbs, .out] s (retireFlight a0 a1 s) := by
  fun_induction retireFlight a0 a1 s
  all_goals
  repeat' first
    | with_reducible exact OnlyChanges.refl _ _
    | assumption
    | with_reducible refine (settleStop_frame _ _).after (by decide) ?_
    | with_reducible refine (modChannel_frame _ _ _).after (by decide) ?_
    | with_reducible refine (writeCompletion_frame _ _ _ _).after (by decide) ?_
    | extract_lets
    | with_reducible refine OnlyChanges.getD (fun _ _ => ?_) ?_
    | with_reducible refine OnlyChanges.foldl (fun _ _ => ?_) ?_
    | split
    | extract_lets +lift
    | with_reducible refine OnlyChanges.foldl_fst (fun _ _ => ?_) ?_
    | with_reducible refine OnlyChanges.foldl_snd (fun _ _ => ?_) ?_
    | with_reducible refine OnlyChanges.of_fst (by assumption) ?_
    | with_reducible refine OnlyChanges.of_snd (by assumption) ?_
    | with_reducible refine OnlyChanges.trans ?_ (by assumption)

theorem completeDesc_frame (a0 a1 a2 s) : OnlyChanges [.recoveryLog, .events, .mailboxes, .memory, .channels,
    .accesses, .counters, .crumbs, .out] s (completeDesc a0 a1 a2 s) := by
  unfold completeDesc
  repeat' first
    | with_reducible exact OnlyChanges.refl _ _
    | assumption
    | with_reducible refine (modChannel_frame _ _ _).after (by decide) ?_
    | with_reducible refine (retireFlight_frame _ _ _).before ?_

theorem modFlight_frame (a0 a1 a2 s) : OnlyChanges [.channels] s (modFlight a0 a1 a2 s) := by
  unfold modFlight
  repeat' first
    | with_reducible exact OnlyChanges.refl _ _
    | assumption
    | with_reducible refine (modChannel_frame _ _ _).before ?_

theorem failFlight_frame (a0 a1 a2 s) : OnlyChanges [.recoveryLog, .events, .mailboxes, .memory, .channels,
    .accesses, .counters, .crumbs, .out] s (failFlight a0 a1 a2 s) := by
  unfold failFlight
  repeat' first
    | with_reducible exact OnlyChanges.refl _ _
    | assumption
    | with_reducible refine (graceCrumb_frame _ _ _ _).after (by decide) ?_
    | with_reducible refine (modChannel_frame _ _ _).after (by decide) ?_
    | with_reducible refine (retireFlight_frame _ _ _).before ?_
    | extract_lets
    | with_reducible refine OnlyChanges.getD (fun _ _ => ?_) ?_
    | with_reducible refine OnlyChanges.foldl (fun _ _ => ?_) ?_
    | split

theorem stopChannel_frame (a0 a1 s) : OnlyChanges [.recoveryLog, .events, .mailboxes, .channels, .accesses,
    .counters, .crumbs, .out] s (stopChannel a0 a1 s) := by
  unfold stopChannel
  repeat' first
    | with_reducible exact OnlyChanges.refl _ _
    | assumption
    | with_reducible refine (settleStop_frame _ _).before ?_
    | with_reducible refine (modChannel_frame _ _ _).after (by decide) ?_

theorem graceChannel_frame (a0 s) : OnlyChanges [.recoveryLog, .events, .mailboxes, .memory, .channels, .accesses,
    .counters, .crumbs, .out] s (graceChannel a0 s) := by
  unfold graceChannel
  repeat' first
    | with_reducible exact OnlyChanges.refl _ _
    | assumption
    | with_reducible refine modGran_frame _ ?_
    | with_reducible refine (finish_frame _ _ _ _).after (by decide) ?_
    | with_reducible refine (modChannel_frame _ _ _).after (by decide) ?_
    | with_reducible refine (failFlight_frame _ _ _ _).before ?_
    | extract_lets
    | with_reducible refine OnlyChanges.getD (fun _ _ => ?_) ?_
    | with_reducible refine OnlyChanges.foldl (fun _ _ => ?_) ?_
    | split

theorem sendRequest_frame (a0 a1 a2 a3 s) : OnlyChanges [.recoveryLog, .ports, .packets, .queues, .room,
    .numbering, .firmware, .tables, .events, .mailboxes, .memory, .channels, .accesses, .counters, .crumbs, .out] s
    (sendRequest a0 a1 a2 a3 s) := by
  unfold sendRequest
  repeat' first
    | with_reducible exact OnlyChanges.refl _ _
    | assumption
    | with_reducible refine (completeDesc_frame _ _ _ _).after (by decide) ?_
    | with_reducible refine (modFlight_frame _ _ _ _).after (by decide) ?_
    | with_reducible refine (countChannel_frame _ _ _ _).after (by decide) ?_
    | with_reducible refine (originate_frame _ _ _).after (by decide) ?_
    | extract_lets
    | with_reducible refine OnlyChanges.getD (fun _ _ => ?_) ?_
    | with_reducible refine OnlyChanges.foldl (fun _ _ => ?_) ?_
    | split
    | extract_lets +lift
    | with_reducible refine OnlyChanges.foldl_fst (fun _ _ => ?_) ?_
    | with_reducible refine OnlyChanges.foldl_snd (fun _ _ => ?_) ?_
    | with_reducible refine OnlyChanges.of_fst (by assumption) ?_
    | with_reducible refine OnlyChanges.of_snd (by assumption) ?_
    | fail_if_no_progress (with_reducible refine OnlyChanges.upd rfl ?_)
    | dsimp +zetaDelta only []

theorem settleRequests_frame (a0 a1 s) : OnlyChanges [.recoveryLog, .events, .mailboxes, .memory, .channels,
    .accesses, .counters, .crumbs, .out] s (settleRequests a0 a1 s) := by
  unfold settleRequests
  repeat' first
    | with_reducible exact OnlyChanges.refl _ _
    | assumption
    | with_reducible refine (completeDesc_frame _ _ _ _).before ?_
    | extract_lets
    | with_reducible refine OnlyChanges.getD (fun _ _ => ?_) ?_
    | with_reducible refine OnlyChanges.foldl (fun _ _ => ?_) ?_
    | split

theorem fenceChannels_frame (a0 s) : OnlyChanges [.recoveryLog, .events, .mailboxes, .memory, .channels, .accesses,
    .counters, .crumbs, .out] s (fenceChannels a0 s) := by
  unfold fenceChannels
  repeat' first
    | with_reducible exact OnlyChanges.refl _ _
    | assumption
    | with_reducible refine (graceChannel_frame _ _).before ?_
    | with_reducible refine (stopChannel_frame _ _ _).after (by decide) ?_
    | extract_lets
    | with_reducible refine OnlyChanges.getD (fun _ _ => ?_) ?_
    | with_reducible refine OnlyChanges.foldl (fun _ _ => ?_) ?_

end Sys2Proof.Machine
end

