-- ==== Sys2Proof/Laws/FrameGristOps.lean ====
section
/-! SUPPORT. What the operations of Machine/GristOps.lean leave unchanged. -/

set_option Elab.async false

namespace Sys2Proof.Machine

theorem modGrist_frame (a0 a1 s) : OnlyChanges [.grists] s (modGrist a0 a1 s) := by
  unfold modGrist
  repeat' first
    | with_reducible exact OnlyChanges.refl _ _
    | assumption
    | with_reducible refine modGran_frame _ ?_
    | extract_lets
    | with_reducible refine OnlyChanges.getD (fun _ _ => ?_) ?_
    | with_reducible refine OnlyChanges.foldl (fun _ _ => ?_) ?_
    | split

theorem countGrist_frame (a0 a1 a2 s) : OnlyChanges [.recoveryLog, .events, .counters, .crumbs] s (countGrist a0 a1
    a2 s) := by
  unfold countGrist
  repeat' first
    | with_reducible exact OnlyChanges.refl _ _
    | assumption
    | with_reducible refine (countStack_frame _ _ _ _).before ?_

theorem usePool_frame (a0 a1 a2 s) : OnlyChanges [.room] s (usePool a0 a1 a2 s) := by
  unfold usePool
  repeat' first
    | with_reducible exact OnlyChanges.refl _ _
    | assumption
    | with_reducible refine modBuf_frame _ ?_
    | extract_lets
    | with_reducible refine OnlyChanges.getD (fun _ _ => ?_) ?_
    | with_reducible refine OnlyChanges.foldl (fun _ _ => ?_) ?_
    | split

theorem dropStaged_frame (a0 s) : OnlyChanges [.room, .grists] s (dropStaged a0 s) := by
  unfold dropStaged
  repeat' first
    | with_reducible exact OnlyChanges.refl _ _
    | assumption
    | with_reducible refine (modGrist_frame _ _ _).after (by decide) ?_
    | with_reducible refine (usePool_frame _ _ _ _).after (by decide) ?_
    | extract_lets
    | with_reducible refine OnlyChanges.getD (fun _ _ => ?_) ?_
    | with_reducible refine OnlyChanges.foldl (fun _ _ => ?_) ?_
    | split

theorem abortGrist_frame (a0 s) : OnlyChanges [.room, .grists] s (abortGrist a0 s) := by
  unfold abortGrist
  repeat' first
    | with_reducible exact OnlyChanges.refl _ _
    | assumption
    | with_reducible refine (modGrist_frame _ _ _).after (by decide) ?_
    | with_reducible refine (dropStaged_frame _ _).before ?_

theorem releaseChunk_frame (a0 a1 a2 a3 a4 s) : OnlyChanges [.recoveryLog, .ports, .packets, .queues, .room,
    .numbering, .firmware, .tables, .events, .grists, .counters, .crumbs] s (releaseChunk a0 a1 a2 a3 a4 s) := by
  unfold releaseChunk
  repeat' first
    | with_reducible exact OnlyChanges.refl _ _
    | assumption
    | with_reducible refine (usePool_frame _ _ _ _).after (by decide) ?_
    | with_reducible refine (modGrist_frame _ _ _).after (by decide) ?_
    | with_reducible refine (countGrist_frame _ _ _ _).after (by decide) ?_
    | with_reducible refine (traceCrumb_frame _ _ _ _ _ _).after (by decide) ?_
    | with_reducible refine (originateAt_frame _ _ _ _ _).after (by decide) ?_
    | extract_lets
    | with_reducible refine OnlyChanges.getD (fun _ _ => ?_) ?_
    | with_reducible refine OnlyChanges.foldl (fun _ _ => ?_) ?_
    | split
    | extract_lets +lift
    | with_reducible refine OnlyChanges.foldl_fst (fun _ _ => ?_) ?_
    | with_reducible refine OnlyChanges.foldl_snd (fun _ _ => ?_) ?_
    | with_reducible refine OnlyChanges.of_fst (by assumption) ?_
    | with_reducible refine OnlyChanges.of_snd (by assumption) ?_
    | fail_if_no_progress (with_reducible refine OnlyChanges.upd rfl ?_)
    | dsimp +zetaDelta only []

theorem releaseHeld_frame (s) : OnlyChanges [.recoveryLog, .ports, .packets, .queues, .room, .numbering, .firmware,
    .tables, .events, .grists, .counters, .crumbs] s (releaseHeld s) := by
  unfold releaseHeld
  repeat' first
    | with_reducible exact OnlyChanges.refl _ _
    | assumption
    | with_reducible refine (releaseChunk_frame _ _ _ _ _ _).before ?_
    | extract_lets
    | with_reducible refine OnlyChanges.getD (fun _ _ => ?_) ?_
    | with_reducible refine OnlyChanges.foldl (fun _ _ => ?_) ?_

theorem fenceGrists_frame (a0 s) : OnlyChanges [.room, .grists] s (fenceGrists a0 s) := by
  unfold fenceGrists
  repeat' first
    | with_reducible exact OnlyChanges.refl _ _
    | assumption
    | with_reducible refine (abortGrist_frame _ _).before ?_
    | extract_lets
    | with_reducible refine OnlyChanges.getD (fun _ _ => ?_) ?_
    | with_reducible refine OnlyChanges.foldl (fun _ _ => ?_) ?_

end Sys2Proof.Machine
end

