-- ==== Sys2Proof/Laws/FrameGrist.lean ====
section
/-! SUPPORT. What the operations of Machine/Grist.lean leave unchanged. -/

set_option Elab.async false

namespace Sys2Proof.Machine

theorem stageChunk_frame (a0 a1 a2 a3 s) : OnlyChanges [.recoveryLog, .ports, .packets, .queues, .room, .numbering,
    .firmware, .tables, .gates, .events, .regions, .memory, .grists, .mirrors, .counters, .crumbs] s (stageChunk a0
    a1 a2 a3 s) := by
  unfold stageChunk
  repeat' first
    | with_reducible exact OnlyChanges.refl _ _
    | assumption
    | with_reducible refine (meetErrors_frame _ _ _ _ _).after (by decide) ?_
    | with_reducible refine (startWork_frame _ _ _ _).after (by decide) ?_
    | with_reducible refine (abortGrist_frame _ _).after (by decide) ?_
    | with_reducible refine (countGrist_frame _ _ _ _).after (by decide) ?_
    | with_reducible refine (count_frame _ _ _).after (by decide) ?_
    | with_reducible refine (usePool_frame _ _ _ _).after (by decide) ?_
    | with_reducible refine (modGrist_frame _ _ _).after (by decide) ?_
    | with_reducible refine (releaseChunk_frame _ _ _ _ _ _).after (by decide) ?_
    | extract_lets
    | with_reducible refine OnlyChanges.getD (fun _ _ => ?_) ?_
    | with_reducible refine OnlyChanges.foldl (fun _ _ => ?_) ?_
    | split
    | extract_lets +lift
    | with_reducible refine OnlyChanges.foldl_fst (fun _ _ => ?_) ?_
    | with_reducible refine OnlyChanges.foldl_snd (fun _ _ => ?_) ?_
    | with_reducible refine OnlyChanges.of_fst (by assumption) ?_
    | with_reducible refine OnlyChanges.of_snd (by assumption) ?_
    | fail_if_no_progress (with_reducible refine OnlyChanges.upd rfl ?_)
    | dsimp +zetaDelta only []

theorem execGristChunkStage_frame (a0 a1 s) : NextChanges [.recoveryLog, .ports, .packets, .queues, .room,
    .numbering, .firmware, .tables, .gates, .events, .regions, .memory, .grists, .mirrors, .counters, .crumbs] s
    (execGristChunkStage a0 a1 s) := by
  unfold execGristChunkStage
  repeat' first
    | with_reducible exact OnlyChanges.refl _ _
    | assumption
    | with_reducible refine onUnit_frame _ ?_
    | with_reducible refine next_frame ?_
    | with_reducible exact fault_frame _ _ _
    | with_reducible refine (stageChunk_frame _ _ _ _ _).before ?_
    | extract_lets
    | with_reducible refine OnlyChanges.getD (fun _ _ => ?_) ?_
    | with_reducible refine OnlyChanges.foldl (fun _ _ => ?_) ?_
    | split

theorem execGristLaunch_frame (a0 s) : NextChanges [.recoveryLog, .ports, .packets, .queues, .room, .numbering,
    .firmware, .tables, .events, .grists, .counters, .crumbs] s (execGristLaunch a0 s) := by
  unfold execGristLaunch
  repeat' first
    | with_reducible exact OnlyChanges.refl _ _
    | assumption
    | with_reducible refine onUnit_frame _ ?_
    | with_reducible refine next_frame ?_
    | with_reducible exact fault_frame _ _ _
    | with_reducible refine (releaseChunk_frame _ _ _ _ _ _).before ?_
    | extract_lets
    | with_reducible refine OnlyChanges.getD (fun _ _ => ?_) ?_
    | with_reducible refine OnlyChanges.foldl (fun _ _ => ?_) ?_
    | split

theorem execGristDone_frame (a0 s) : NextChanges [.recoveryLog, .events, .grists, .counters, .crumbs] s
    (execGristDone a0 s) := by
  unfold execGristDone
  repeat' first
    | with_reducible exact OnlyChanges.refl _ _
    | assumption
    | with_reducible refine onUnit_frame _ ?_
    | with_reducible refine next_frame ?_
    | with_reducible exact fault_frame _ _ _
    | with_reducible refine (raiseOwner_frame _ _ _ _ _).after (by decide) ?_
    | with_reducible refine (modGrist_frame _ _ _).after (by decide) ?_
    | extract_lets
    | with_reducible refine OnlyChanges.getD (fun _ _ => ?_) ?_
    | with_reducible refine OnlyChanges.foldl (fun _ _ => ?_) ?_
    | split

theorem execGristStalenessExpiry_frame (a0 s) : NextChanges [.alert, .lastLevel, .recoveryLog, .room, .grists,
    .counters, .crumbs] s (execGristStalenessExpiry a0 s) := by
  unfold execGristStalenessExpiry
  repeat' first
    | with_reducible exact OnlyChanges.refl _ _
    | assumption
    | with_reducible refine onUnit_frame _ ?_
    | with_reducible refine next_frame ?_
    | with_reducible exact fault_frame _ _ _
    | with_reducible refine (abortGrist_frame _ _).after (by decide) ?_
    | with_reducible refine (staleCrumb_frame _ _ _ _).after (by decide) ?_
    | extract_lets
    | with_reducible refine OnlyChanges.getD (fun _ _ => ?_) ?_
    | with_reducible refine OnlyChanges.foldl (fun _ _ => ?_) ?_
    | split

theorem execGristLoad_frame (a0 a1 a2 s) : NextChanges [.recoveryLog, .events, .mailboxes, .grists, .counters,
    .crumbs, .out] s (execGristLoad a0 a1 a2 s) := by
  unfold execGristLoad
  repeat' first
    | with_reducible exact OnlyChanges.refl _ _
    | assumption
    | with_reducible refine onUnit_frame _ ?_
    | with_reducible refine next_frame ?_
    | with_reducible exact fault_frame _ _ _
    | with_reducible refine runCommand_frame _ _ _ (fun _ => ?_)
    | with_reducible refine modGran_frame _ ?_
    | with_reducible exact failWith_frame _ _ _
    | with_reducible refine okWith_frame ?_
    | with_reducible refine done_frame ?_
    | with_reducible refine fails_frame ?_
    | with_reducible refine later_frame ?_
    | with_reducible refine soon_frame ?_
    | with_reducible refine laterGrace_frame ?_
    | extract_lets
    | with_reducible refine OnlyChanges.getD (fun _ _ => ?_) ?_
    | with_reducible refine OnlyChanges.foldl (fun _ _ => ?_) ?_
    | split

theorem withGrist_frame {ps : List Part} (a0 a1 s) {f : Grist → CmdOutcome} (h : ∀ g, CmdChanges ps s (f g)) :
    CmdChanges ps s (withGrist a0 a1 f s) := by
  unfold withGrist
  repeat' first
    | exact failWith_frame _ _ _
    | exact h _
    | split

theorem execGristStart_frame (a0 a1 s) : NextChanges [.recoveryLog, .events, .mailboxes, .grists, .counters,
    .crumbs, .out] s (execGristStart a0 a1 s) := by
  unfold execGristStart
  repeat' first
    | with_reducible exact OnlyChanges.refl _ _
    | assumption
    | with_reducible refine onUnit_frame _ ?_
    | with_reducible refine next_frame ?_
    | with_reducible exact fault_frame _ _ _
    | with_reducible refine runCommand_frame _ _ _ (fun _ => ?_)
    | with_reducible refine withGrist_frame _ _ _ (fun _ => ?_)
    | with_reducible refine (modGrist_frame _ _ _).after (by decide) ?_
    | with_reducible exact failWith_frame _ _ _
    | with_reducible refine okWith_frame ?_
    | with_reducible refine done_frame ?_
    | with_reducible refine fails_frame ?_
    | with_reducible refine later_frame ?_
    | with_reducible refine soon_frame ?_
    | with_reducible refine laterGrace_frame ?_
    | extract_lets
    | with_reducible refine OnlyChanges.getD (fun _ _ => ?_) ?_
    | with_reducible refine OnlyChanges.foldl (fun _ _ => ?_) ?_
    | split

theorem execGristStop_frame (a0 a1 s) : NextChanges [.recoveryLog, .room, .events, .mailboxes, .grists, .counters,
    .crumbs, .out] s (execGristStop a0 a1 s) := by
  unfold execGristStop
  repeat' first
    | with_reducible exact OnlyChanges.refl _ _
    | assumption
    | with_reducible refine onUnit_frame _ ?_
    | with_reducible refine next_frame ?_
    | with_reducible exact fault_frame _ _ _
    | with_reducible refine runCommand_frame _ _ _ (fun _ => ?_)
    | with_reducible refine withGrist_frame _ _ _ (fun _ => ?_)
    | with_reducible refine (modGrist_frame _ _ _).after (by decide) ?_
    | with_reducible refine (dropStaged_frame _ _).after (by decide) ?_
    | with_reducible exact failWith_frame _ _ _
    | with_reducible refine okWith_frame ?_
    | with_reducible refine done_frame ?_
    | with_reducible refine fails_frame ?_
    | with_reducible refine later_frame ?_
    | with_reducible refine soon_frame ?_
    | with_reducible refine laterGrace_frame ?_
    | extract_lets
    | with_reducible refine OnlyChanges.getD (fun _ _ => ?_) ?_
    | with_reducible refine OnlyChanges.foldl (fun _ _ => ?_) ?_
    | split

theorem execGristUnload_frame (a0 a1 s) : NextChanges [.recoveryLog, .events, .mailboxes, .grists, .counters,
    .crumbs, .out] s (execGristUnload a0 a1 s) := by
  unfold execGristUnload
  repeat' first
    | with_reducible exact OnlyChanges.refl _ _
    | assumption
    | with_reducible refine onUnit_frame _ ?_
    | with_reducible refine next_frame ?_
    | with_reducible exact fault_frame _ _ _
    | with_reducible refine runCommand_frame _ _ _ (fun _ => ?_)
    | with_reducible refine withGrist_frame _ _ _ (fun _ => ?_)
    | with_reducible refine modGran_frame _ ?_
    | with_reducible exact failWith_frame _ _ _
    | with_reducible refine okWith_frame ?_
    | with_reducible refine done_frame ?_
    | with_reducible refine fails_frame ?_
    | with_reducible refine later_frame ?_
    | with_reducible refine soon_frame ?_
    | with_reducible refine laterGrace_frame ?_
    | extract_lets
    | with_reducible refine OnlyChanges.getD (fun _ _ => ?_) ?_
    | with_reducible refine OnlyChanges.foldl (fun _ _ => ?_) ?_
    | split

theorem execGristStatus_frame (a0 a1 s) : NextChanges [.recoveryLog, .events, .mailboxes, .counters, .crumbs, .out]
    s (execGristStatus a0 a1 s) := by
  unfold execGristStatus
  repeat' first
    | with_reducible exact OnlyChanges.refl _ _
    | assumption
    | with_reducible refine onUnit_frame _ ?_
    | with_reducible refine next_frame ?_
    | with_reducible exact fault_frame _ _ _
    | with_reducible refine runCommand_frame _ _ _ (fun _ => ?_)
    | with_reducible refine withGrist_frame _ _ _ (fun _ => ?_)
    | with_reducible exact failWith_frame _ _ _
    | with_reducible refine okWith_frame ?_
    | with_reducible refine done_frame ?_

end Sys2Proof.Machine
end

