-- ==== Sys2Proof/Laws/FrameQuorumOps.lean ====
section
/-! SUPPORT. What the operations of Machine/QuorumOps.lean leave unchanged. -/

set_option Elab.async false

namespace Sys2Proof.Machine

theorem modSec_frame {qs : List Part} {s x : State} (f : SecState → SecState) (h : OnlyChanges qs s x)
    (hk : KeptSec qs x.sec (f x.sec) := by
      (refine KeptSec.lit ?_ ?_ ?_ ?_
       · first | exact Or.inl (by decide) | exact Or.inr rfl
       · first | exact Or.inl (by decide) | exact Or.inr rfl
       · first | exact Or.inl (by decide) | exact Or.inr ⟨rfl, rfl⟩
       · first | exact Or.inl (by decide) | exact Or.inr ⟨rfl, rfl, rfl⟩)) : OnlyChanges qs s (modSec f x) :=
  OnlyChanges.upd rfl h (hsec := hk)

theorem drawWide_frame (a0 s) : OnlyChanges [.free] s (drawWide a0 s).2 := by
  induction a0 generalizing s with
  | zero => exact OnlyChanges.refl _ _
  | succ n ih =>
    have h := ih (drawFree s).2
    exact ((drawFree_frame s).mono (by decide)).trans h

theorem drawNonce_frame (s) : OnlyChanges [.free] s (drawNonce s).2 := by
  unfold drawNonce
  repeat' first
    | with_reducible exact OnlyChanges.refl _ _
    | assumption
    | with_reducible refine (drawWide_frame _ _).before ?_

theorem drawKey_frame (s) : OnlyChanges [.free] s (drawKey s).2 := by
  unfold drawKey
  repeat' first
    | with_reducible exact OnlyChanges.refl _ _
    | assumption
    | with_reducible refine (drawWide_frame _ _).before ?_

theorem stageProposal_frame (a0 a1 s) : OnlyChanges [.free, .proposals] s (stageProposal a0 a1 s) := by
  unfold stageProposal
  repeat' first
    | with_reducible exact OnlyChanges.refl _ _
    | assumption
    | with_reducible refine (drawNonce_frame _).after (by decide) ?_
    | with_reducible refine modSec_frame _ ?_

theorem propose_frame (a0 a1 s) : CmdChanges [.free, .proposals] s (propose a0 a1 s) := by
  unfold propose
  repeat' first
    | with_reducible exact OnlyChanges.refl _ _
    | assumption
    | with_reducible refine (stageProposal_frame _ _ _).before ?_
    | with_reducible exact failWith_frame _ _ _
    | with_reducible refine okWith_frame ?_
    | with_reducible refine done_frame ?_
    | with_reducible refine fails_frame ?_
    | with_reducible refine later_frame ?_
    | with_reducible refine soon_frame ?_
    | with_reducible refine laterGrace_frame ?_
    | extract_lets
    | with_reducible refine OnlyChanges.getD (fun _ _ => ?_) ?_
    | with_reducible refine OnlyChanges.foldl (fun _ _ => ?_) ?_
    | split

theorem endProposal_frame (a0 a1 a2 s) : OnlyChanges [.recoveryLog, .events, .counters, .crumbs, .proposals] s
    (endProposal a0 a1 a2 s) := by
  unfold endProposal
  repeat' first
    | with_reducible exact OnlyChanges.refl _ _
    | assumption
    | with_reducible refine (raiseAt_frame _ _ _ _ _).after (by decide) ?_
    | with_reducible refine modSec_frame _ ?_
    | extract_lets
    | with_reducible refine OnlyChanges.getD (fun _ _ => ?_) ?_
    | with_reducible refine OnlyChanges.foldl (fun _ _ => ?_) ?_
    | split

end Sys2Proof.Machine
end

