-- ==== Sys2Proof/Laws/FrameDma.lean ====
section
/-! SUPPORT. What the operations of Machine/Dma.lean leave unchanged. -/

set_option Elab.async false

namespace Sys2Proof.Machine

theorem takeDescriptor_frame (a0 a1 a2 s) : OnlyChanges [.recoveryLog, .ports, .packets, .queues, .room,
    .numbering, .firmware, .tables, .gates, .events, .mailboxes, .memory, .channels, .accesses, .counters, .crumbs,
    .out] s (takeDescriptor a0 a1 a2 s) := by
  unfold takeDescriptor
  repeat' first
    | with_reducible exact OnlyChanges.refl _ _
    | assumption
    | with_reducible refine (modChannel_frame _ _ _).after (by decide) ?_
    | with_reducible refine (completeDesc_frame _ _ _ _).after (by decide) ?_
    | with_reducible refine (channelSpend_frame _ _ _).after (by decide) ?_
    | with_reducible refine (modFlight_frame _ _ _ _).after (by decide) ?_
    | with_reducible refine (sendRequest_frame _ _ _ _ _).after (by decide) ?_
    | extract_lets
    | with_reducible refine OnlyChanges.getD (fun _ _ => ?_) ?_
    | with_reducible refine OnlyChanges.foldl (fun _ _ => ?_) ?_
    | split

theorem execDmaDescriptorStart_frame (a0 s) : NextChanges [.recoveryLog, .ports, .packets, .queues, .room,
    .numbering, .firmware, .tables, .gates, .events, .mailboxes, .memory, .channels, .accesses, .counters, .crumbs,
    .out] s (execDmaDescriptorStart a0 s) := by
  unfold execDmaDescriptorStart
  repeat' first
    | with_reducible exact OnlyChanges.refl _ _
    | assumption
    | with_reducible refine onUnit_frame _ ?_
    | with_reducible refine next_frame ?_
    | with_reducible exact fault_frame _ _ _
    | with_reducible refine (takeDescriptor_frame _ _ _ _).before ?_
    | extract_lets
    | with_reducible refine OnlyChanges.getD (fun _ _ => ?_) ?_
    | with_reducible refine OnlyChanges.foldl (fun _ _ => ?_) ?_
    | split

theorem nextBurst_frame (a0 a1 a2 s) : OnlyChanges [.recoveryLog, .gates, .events, .mailboxes, .regions, .memory,
    .channels, .mirrors, .accesses, .counters, .crumbs, .out] s (nextBurst a0 a1 a2 s) := by
  unfold nextBurst
  repeat' first
    | with_reducible exact OnlyChanges.refl _ _
    | assumption
    | with_reducible refine (meetErrors_frame _ _ _ _ _).after (by decide) ?_
    | with_reducible refine (completeDesc_frame _ _ _ _).after (by decide) ?_
    | with_reducible refine (writeBytes_frame _ _ _ _).after (by decide) ?_
    | with_reducible refine (channelSpend_frame _ _ _).after (by decide) ?_
    | with_reducible refine (modFlight_frame _ _ _ _).after (by decide) ?_
    | extract_lets
    | with_reducible refine OnlyChanges.getD (fun _ _ => ?_) ?_
    | with_reducible refine OnlyChanges.foldl (fun _ _ => ?_) ?_
    | split
    | extract_lets +lift
    | with_reducible refine OnlyChanges.foldl_fst (fun _ _ => ?_) ?_
    | with_reducible refine OnlyChanges.foldl_snd (fun _ _ => ?_) ?_
    | with_reducible refine OnlyChanges.of_fst (by assumption) ?_
    | with_reducible refine OnlyChanges.of_snd (by assumption) ?_
    | fail_if_no_progress (with_reducible refine OnlyChanges.upd rfl ?_)
    | dsimp +zetaDelta only []

theorem execDmaWriteResponse_frame (a0 a1 a2 s) : NextChanges [.recoveryLog, .gates, .events, .mailboxes, .regions,
    .memory, .channels, .mirrors, .accesses, .counters, .crumbs, .out] s (execDmaWriteResponse a0 a1 a2 s) := by
  unfold execDmaWriteResponse
  repeat' first
    | with_reducible exact OnlyChanges.refl _ _
    | assumption
    | with_reducible refine onUnit_frame _ ?_
    | with_reducible refine next_frame ?_
    | with_reducible exact fault_frame _ _ _
    | with_reducible refine (settleRequests_frame _ _ _).after (by decide) ?_
    | with_reducible refine (channelSpend_frame _ _ _).after (by decide) ?_
    | with_reducible refine (modFlight_frame _ _ _ _).after (by decide) ?_
    | with_reducible refine (writeBytes_frame _ _ _ _).after (by decide) ?_
    | with_reducible refine (nextBurst_frame _ _ _ _).before ?_
    | extract_lets
    | with_reducible refine OnlyChanges.getD (fun _ _ => ?_) ?_
    | with_reducible refine OnlyChanges.foldl (fun _ _ => ?_) ?_
    | split

theorem markRequest_frame (a0 a1 a2 a3 s) : OnlyChanges [.channels] s (markRequest a0 a1 a2 a3 s) := by
  unfold markRequest
  repeat' first
    | with_reducible exact OnlyChanges.refl _ _
    | assumption
    | with_reducible refine (modFlight_frame _ _ _ _).before ?_

theorem takeReply_frame (a0 a1 a2 a3 s) : OnlyChanges [.channels] s (takeReply a0 a1 a2 a3 s) := by
  unfold takeReply
  repeat' first
    | with_reducible exact OnlyChanges.refl _ _
    | assumption
    | with_reducible refine (modFlight_frame _ _ _ _).before ?_
    | with_reducible refine (markRequest_frame _ _ _ _ _).before ?_

theorem execReplyRx_frame (s) : NextChanges [.recoveryLog, .ports, .packets, .room, .firmware, .events, .mailboxes,
    .memory, .channels, .accesses, .counters, .crumbs, .out] s (execReplyRx s) := by
  unfold execReplyRx
  repeat' first
    | with_reducible exact OnlyChanges.refl _ _
    | assumption
    | with_reducible refine onUnit_frame _ ?_
    | with_reducible refine next_frame ?_
    | with_reducible exact fault_frame _ _ _
    | with_reducible refine (takeDelivered_frame _ _ (_, _) (by assumption)).after (by decide) ?_
    | with_reducible refine (countChannel_frame _ _ _ _).after (by decide) ?_
    | with_reducible refine (settleRequests_frame _ _ _).after (by decide) ?_
    | with_reducible refine (takeReply_frame _ _ _ _ _).after (by decide) ?_
    | with_reducible refine (completeDesc_frame _ _ _ _).after (by decide) ?_
    | with_reducible refine (markRequest_frame _ _ _ _ _).after (by decide) ?_
    | extract_lets
    | with_reducible refine OnlyChanges.getD (fun _ _ => ?_) ?_
    | with_reducible refine OnlyChanges.foldl (fun _ _ => ?_) ?_
    | split

theorem onRequest_frame (a0 a1 a2 a3 s) : OnlyChanges [.recoveryLog, .ports, .packets, .queues, .room, .numbering,
    .firmware, .tables, .events, .mailboxes, .memory, .channels, .accesses, .counters, .crumbs, .out] s (onRequest
    a0 a1 a2 a3 s) := by
  unfold onRequest
  repeat' first
    | with_reducible exact OnlyChanges.refl _ _
    | assumption
    | with_reducible refine (sendRequest_frame _ _ _ _ _).before ?_
    | extract_lets
    | with_reducible refine OnlyChanges.getD (fun _ _ => ?_) ?_
    | with_reducible refine OnlyChanges.foldl (fun _ _ => ?_) ?_
    | split

theorem execDmaRequestTimeout_frame (a0 a1 a2 s) : NextChanges [.recoveryLog, .ports, .packets, .queues, .room,
    .numbering, .firmware, .tables, .events, .mailboxes, .memory, .channels, .accesses, .counters, .crumbs, .out] s
    (execDmaRequestTimeout a0 a1 a2 s) := by
  unfold execDmaRequestTimeout
  repeat' first
    | with_reducible exact OnlyChanges.refl _ _
    | assumption
    | with_reducible refine onUnit_frame _ ?_
    | with_reducible refine next_frame ?_
    | with_reducible exact fault_frame _ _ _
    | with_reducible refine (onRequest_frame _ _ _ _ _).before ?_

theorem execDmaNoBufferRetry_frame (a0 a1 a2 s) : NextChanges [.recoveryLog, .ports, .packets, .queues, .room,
    .numbering, .firmware, .tables, .events, .mailboxes, .memory, .channels, .accesses, .counters, .crumbs, .out] s
    (execDmaNoBufferRetry a0 a1 a2 s) := by
  unfold execDmaNoBufferRetry
  repeat' first
    | with_reducible exact OnlyChanges.refl _ _
    | assumption
    | with_reducible refine onUnit_frame _ ?_
    | with_reducible refine next_frame ?_
    | with_reducible exact fault_frame _ _ _
    | with_reducible refine (onRequest_frame _ _ _ _ _).before ?_

theorem execDmaDescriptorStaleness_frame (a0 a1 s) : NextChanges [.alert, .lastLevel, .recoveryLog, .events,
    .mailboxes, .memory, .channels, .accesses, .counters, .crumbs, .out] s (execDmaDescriptorStaleness a0 a1 s) :=
    by
  unfold execDmaDescriptorStaleness
  repeat' first
    | with_reducible exact OnlyChanges.refl _ _
    | assumption
    | with_reducible refine onUnit_frame _ ?_
    | with_reducible refine next_frame ?_
    | with_reducible exact fault_frame _ _ _
    | with_reducible refine (completeDesc_frame _ _ _ _).after (by decide) ?_
    | with_reducible refine (modChannel_frame _ _ _).after (by decide) ?_
    | with_reducible refine (staleCrumb_frame _ _ _ _).after (by decide) ?_
    | extract_lets
    | with_reducible refine OnlyChanges.getD (fun _ _ => ?_) ?_
    | with_reducible refine OnlyChanges.foldl (fun _ _ => ?_) ?_
    | split

theorem execDmaGraceExpiry_frame (a0 s) : NextChanges [.recoveryLog, .events, .mailboxes, .memory, .channels,
    .accesses, .counters, .crumbs, .out] s (execDmaGraceExpiry a0 s) := by
  unfold execDmaGraceExpiry
  repeat' first
    | with_reducible exact OnlyChanges.refl _ _
    | assumption
    | with_reducible refine onUnit_frame _ ?_
    | with_reducible refine next_frame ?_
    | with_reducible exact fault_frame _ _ _
    | with_reducible refine (graceChannel_frame _ _).before ?_

end Sys2Proof.Machine
end

