-- ==== Sys2Proof/Laws/FrameGranary.lean ====
section
/-! SUPPORT. What the operations of Machine/Granary.lean leave unchanged. -/

set_option Elab.async false

namespace Sys2Proof.Machine

theorem respond_frame (a0 a1 a2 s) : OnlyChanges [.recoveryLog, .ports, .packets, .queues, .room, .numbering,
    .firmware, .tables, .events, .counters, .crumbs] s (respond a0 a1 a2 s) := by
  unfold respond
  repeat' first
    | with_reducible exact OnlyChanges.refl _ _
    | assumption
    | with_reducible refine (originate_frame _ _ _).before ?_

theorem postAll_frame (a0 s) : OnlyChanges [.memory, .channels] s (postAll a0 s) := by
  unfold postAll
  repeat' first
    | with_reducible exact OnlyChanges.refl _ _
    | assumption
    | with_reducible refine (writeBytes_frame _ _ _ _).after (by decide) ?_
    | with_reducible refine (modChannel_frame _ _ _).after (by decide) ?_
    | extract_lets
    | with_reducible refine OnlyChanges.getD (fun _ _ => ?_) ?_
    | with_reducible refine OnlyChanges.foldl (fun _ _ => ?_) ?_

theorem serveAccess_frame (a0 s) : OnlyChanges [.recoveryLog, .ports, .packets, .queues, .room, .numbering,
    .firmware, .tables, .gates, .events, .memory, .channels, .accesses, .counters, .crumbs] s (serveAccess a0 s) :=
    by
  unfold serveAccess
  repeat' first
    | with_reducible exact OnlyChanges.refl _ _
    | assumption
    | with_reducible refine (respond_frame _ _ _ _).after (by decide) ?_
    | with_reducible refine (writeBytes_frame _ _ _ _).after (by decide) ?_
    | with_reducible refine (countRange_frame _ _ _ _ _).after (by decide) ?_
    | with_reducible refine (startWork_frame _ _ _ _).after (by decide) ?_
    | with_reducible refine modGran_frame _ ?_
    | with_reducible refine (postAll_frame _ _).after (by decide) ?_
    | extract_lets
    | with_reducible refine OnlyChanges.getD (fun _ _ => ?_) ?_
    | with_reducible refine OnlyChanges.foldl (fun _ _ => ?_) ?_
    | split
    | extract_lets +lift
    | with_reducible refine OnlyChanges.foldl_fst (fun _ _ => ?_) ?_
    | with_reducible refine OnlyChanges.foldl_snd (fun _ _ => ?_) ?_
    | with_reducible refine OnlyChanges.of_fst (by assumption) ?_
    | with_reducible refine OnlyChanges.of_snd (by assumption) ?_
    | fail_if_no_progress (with_reducible refine OnlyChanges.upd rfl ?_)
    | dsimp +zetaDelta only []

theorem execGranaryAccessRx_frame (s) : NextChanges [.recoveryLog, .ports, .packets, .queues, .room, .numbering,
    .firmware, .tables, .gates, .events, .memory, .channels, .accesses, .counters, .crumbs] s (execGranaryAccessRx
    s) := by
  unfold execGranaryAccessRx
  repeat' first
    | with_reducible exact OnlyChanges.refl _ _
    | assumption
    | with_reducible refine onUnit_frame _ ?_
    | with_reducible refine next_frame ?_
    | with_reducible exact fault_frame _ _ _
    | with_reducible refine (releaseDelivered_frame _ _).after (by decide) ?_
    | with_reducible refine modBuf_frame _ ?_
    | with_reducible refine (serveAccess_frame _ _).before ?_
    | with_reducible refine (filterGranary_frame _ _).after (by decide) ?_
    | extract_lets
    | with_reducible refine OnlyChanges.getD (fun _ _ => ?_) ?_
    | with_reducible refine OnlyChanges.foldl (fun _ _ => ?_) ?_
    | split

theorem execGranaryWriteDone_frame (a0 s) : NextChanges [.recoveryLog, .ports, .packets, .queues, .room,
    .numbering, .firmware, .tables, .events, .accesses, .counters, .crumbs] s (execGranaryWriteDone a0 s) := by
  unfold execGranaryWriteDone
  repeat' first
    | with_reducible exact OnlyChanges.refl _ _
    | assumption
    | with_reducible refine onUnit_frame _ ?_
    | with_reducible refine next_frame ?_
    | with_reducible exact fault_frame _ _ _
    | with_reducible refine (respond_frame _ _ _ _).after (by decide) ?_
    | with_reducible refine modGran_frame _ ?_
    | extract_lets
    | with_reducible refine OnlyChanges.getD (fun _ _ => ?_) ?_
    | with_reducible refine OnlyChanges.foldl (fun _ _ => ?_) ?_
    | split

theorem answerRead_frame (a0 a1 s) : OnlyChanges [.recoveryLog, .ports, .packets, .queues, .room, .numbering,
    .firmware, .tables, .events, .regions, .memory, .mirrors, .counters, .crumbs] s (answerRead a0 a1 s) := by
  unfold answerRead
  repeat' first
    | with_reducible exact OnlyChanges.refl _ _
    | assumption
    | with_reducible refine (meetErrors_frame _ _ _ _ _).after (by decide) ?_
    | with_reducible refine (respond_frame _ _ _ _).after (by decide) ?_
    | extract_lets
    | with_reducible refine OnlyChanges.getD (fun _ _ => ?_) ?_
    | with_reducible refine OnlyChanges.foldl (fun _ _ => ?_) ?_
    | split

theorem execGranaryReadDone_frame (a0 a1 s) : NextChanges [.recoveryLog, .ports, .packets, .queues, .room,
    .numbering, .firmware, .tables, .events, .regions, .memory, .mirrors, .accesses, .counters, .crumbs] s
    (execGranaryReadDone a0 a1 s) := by
  unfold execGranaryReadDone
  repeat' first
    | with_reducible exact OnlyChanges.refl _ _
    | assumption
    | with_reducible refine onUnit_frame _ ?_
    | with_reducible refine next_frame ?_
    | with_reducible exact fault_frame _ _ _
    | with_reducible refine (answerRead_frame _ _ _).after (by decide) ?_
    | with_reducible refine modGran_frame _ ?_
    | extract_lets
    | with_reducible refine OnlyChanges.getD (fun _ _ => ?_) ?_
    | with_reducible refine OnlyChanges.foldl (fun _ _ => ?_) ?_
    | split

theorem execExtentRetireDone_frame (a0 a1 a2 s) : NextChanges [.recoveryLog, .gates, .events, .regions, .counters,
    .crumbs] s (execExtentRetireDone a0 a1 a2 s) := by
  unfold execExtentRetireDone
  repeat' first
    | with_reducible exact OnlyChanges.refl _ _
    | assumption
    | with_reducible refine onUnit_frame _ ?_
    | with_reducible refine next_frame ?_
    | with_reducible exact fault_frame _ _ _
    | with_reducible refine (countStack_frame _ _ _ _).after (by decide) ?_
    | with_reducible refine (startWork_frame _ _ _ _).after (by decide) ?_
    | with_reducible refine modGran_frame _ ?_
    | extract_lets
    | with_reducible refine OnlyChanges.getD (fun _ _ => ?_) ?_
    | with_reducible refine OnlyChanges.foldl (fun _ _ => ?_) ?_
    | split

theorem execScrubLine_frame (a0 s) : NextChanges [.recoveryLog, .gates, .events, .regions, .memory, .mirrors,
    .accesses, .counters, .crumbs] s (execScrubLine a0 s) := by
  unfold execScrubLine
  repeat' first
    | with_reducible exact OnlyChanges.refl _ _
    | assumption
    | with_reducible refine onUnit_frame _ ?_
    | with_reducible refine next_frame ?_
    | with_reducible exact fault_frame _ _ _
    | with_reducible refine (startWork_frame _ _ _ _).after (by decide) ?_
    | with_reducible refine (countStack_frame _ _ _ _).after (by decide) ?_
    | with_reducible refine modGran_frame _ ?_
    | with_reducible refine (meetErrors_frame _ _ _ _ _).after (by decide) ?_
    | extract_lets
    | with_reducible refine OnlyChanges.getD (fun _ _ => ?_) ?_
    | with_reducible refine OnlyChanges.foldl (fun _ _ => ?_) ?_
    | split

theorem execRegionZeroed_frame (a0 s) : NextChanges [.gates, .regions, .memory] s (execRegionZeroed a0 s) := by
  unfold execRegionZeroed
  repeat' first
    | with_reducible exact OnlyChanges.refl _ _
    | assumption
    | with_reducible refine onUnit_frame _ ?_
    | with_reducible refine next_frame ?_
    | with_reducible exact fault_frame _ _ _
    | with_reducible refine (startWork_frame _ _ _ _).after (by decide) ?_
    | with_reducible refine (zeroRegion_frame _ _).after (by decide) ?_
    | with_reducible refine (modRegion_frame _ _ _).after (by decide) ?_
    | with_reducible refine modGran_frame _ ?_
    | extract_lets
    | with_reducible refine OnlyChanges.getD (fun _ _ => ?_) ?_
    | with_reducible refine OnlyChanges.foldl (fun _ _ => ?_) ?_
    | split

theorem checkMirror_frame (a0 a1 a2 s) : OnlyChanges [.recoveryLog, .gates, .events, .mailboxes, .regions,
    .mirrors, .counters, .crumbs, .out] s (checkMirror a0 a1 a2 s) := by
  unfold checkMirror
  repeat' first
    | with_reducible exact OnlyChanges.refl _ _
    | assumption
    | with_reducible refine (startWork_frame _ _ _ _).after (by decide) ?_
    | with_reducible refine (finish_frame _ _ _ _).after (by decide) ?_
    | with_reducible refine modGran_frame _ ?_
    | with_reducible refine (freeRegion_frame _ _).after (by decide) ?_
    | extract_lets
    | with_reducible refine OnlyChanges.getD (fun _ _ => ?_) ?_
    | with_reducible refine OnlyChanges.foldl (fun _ _ => ?_) ?_
    | split
    | extract_lets +lift
    | with_reducible refine OnlyChanges.foldl_fst (fun _ _ => ?_) ?_
    | with_reducible refine OnlyChanges.foldl_snd (fun _ _ => ?_) ?_
    | with_reducible refine OnlyChanges.of_fst (by assumption) ?_
    | with_reducible refine OnlyChanges.of_snd (by assumption) ?_
    | fail_if_no_progress (with_reducible refine OnlyChanges.upd rfl ?_)
    | dsimp +zetaDelta only []

theorem execMirrorReadbackDone_frame (a0 s) : NextChanges [.recoveryLog, .gates, .events, .mailboxes, .regions,
    .mirrors, .counters, .crumbs, .out] s (execMirrorReadbackDone a0 s) := by
  unfold execMirrorReadbackDone
  repeat' first
    | with_reducible exact OnlyChanges.refl _ _
    | assumption
    | with_reducible refine onUnit_frame _ ?_
    | with_reducible refine next_frame ?_
    | with_reducible exact fault_frame _ _ _
    | with_reducible refine modGran_frame _ ?_
    | with_reducible refine (finish_frame _ _ _ _).after (by decide) ?_
    | with_reducible refine (checkMirror_frame _ _ _ _).before ?_
    | extract_lets
    | with_reducible refine OnlyChanges.getD (fun _ _ => ?_) ?_
    | with_reducible refine OnlyChanges.foldl (fun _ _ => ?_) ?_
    | split

end Sys2Proof.Machine
end

