-- ==== Sys2Proof/Laws/FrameLoafOps.lean ====
section
/-! SUPPORT. What the operations of Machine/LoafOps.lean leave unchanged. -/

set_option Elab.async false

namespace Sys2Proof.Machine

theorem modLoaf_frame {qs : List Part} {s x : State} (f : LoafState → LoafState) (h : OnlyChanges qs s x)
    (hk : KeptLoaf qs x.loaf (f x.loaf) := by
      (refine KeptLoaf.lit ?_ ?_
       · first | exact Or.inl (by decide) | exact Or.inr ⟨rfl, rfl⟩
       · first | exact Or.inl (by decide) | exact Or.inr ⟨rfl, rfl, rfl, rfl, rfl, rfl, rfl⟩)) : OnlyChanges qs s (modLoaf f x) :=
  OnlyChanges.upd rfl h (hloaf := hk)

theorem modCtx_frame (a0 a1 s) : OnlyChanges [.loafs] s (modCtx a0 a1 s) := by
  unfold modCtx
  repeat' first
    | with_reducible exact OnlyChanges.refl _ _
    | assumption
    | with_reducible refine modLoaf_frame _ ?_
    | extract_lets
    | with_reducible refine OnlyChanges.getD (fun _ _ => ?_) ?_
    | with_reducible refine OnlyChanges.foldl (fun _ _ => ?_) ?_
    | split

theorem modHeld_frame (a0 a1 a2 s) : OnlyChanges [.loafs] s (modHeld a0 a1 a2 s) := by
  unfold modHeld
  repeat' first
    | with_reducible exact OnlyChanges.refl _ _
    | assumption
    | with_reducible refine modLoaf_frame _ ?_
    | extract_lets
    | with_reducible refine OnlyChanges.getD (fun _ _ => ?_) ?_
    | with_reducible refine OnlyChanges.foldl (fun _ _ => ?_) ?_
    | split

theorem countKnead_frame (a0 a1 a2 s) : OnlyChanges [.recoveryLog, .events, .counters, .crumbs] s (countKnead a0 a1
    a2 s) := by
  unfold countKnead
  repeat' first
    | with_reducible exact OnlyChanges.refl _ _
    | assumption
    | with_reducible refine (count_frame _ _ _).before ?_

theorem sendNotice_frame (a0 a1 a2 a3 a4 a5 a6 a7 s) : OnlyChanges [.recoveryLog, .ports, .packets, .queues, .room,
    .numbering, .firmware, .tables, .events, .counters, .crumbs] s (sendNotice a0 a1 a2 a3 a4 a5 a6 a7 s) := by
  unfold sendNotice
  repeat' first
    | with_reducible exact OnlyChanges.refl _ _
    | assumption
    | with_reducible refine (sendControl_frame _ _).before ?_

theorem takeControl_frame (a0 s) : ∀ t, takeControl a0 s = some t → OnlyChanges [.firmware] s t.2 := by
  intro t ht
  revert ht
  unfold takeControl
  repeat' first
    | with_reducible exact OnlyChanges.refl _ _
    | assumption
    | with_reducible refine modBuf_frame _ ?_
    | (intro ht; (first | (injection ht with ht; subst ht) | (simp at ht; done)))
    | extract_lets
    | with_reducible refine OnlyChanges.getD (fun _ _ => ?_) ?_
    | with_reducible refine OnlyChanges.foldl (fun _ _ => ?_) ?_
    | split

theorem takeNotice_frame (a0 s) : ∀ t, takeNotice a0 s = some t → OnlyChanges [.firmware] s t.2 := by
  intro t ht
  revert ht
  unfold takeNotice
  repeat' first
    | with_reducible exact OnlyChanges.refl _ _
    | assumption
    | (intro ht; with_reducible refine (takeControl_frame _ _ (_, _) ht).after (by decide) ?_)
    | (intro ht; (first | (injection ht with ht; subst ht) | (simp at ht; done)))

theorem freeSpill_frame (a0 s) : OnlyChanges [.regions] s (freeSpill a0 s) := by
  unfold freeSpill
  repeat' first
    | with_reducible exact OnlyChanges.refl _ _
    | assumption
    | with_reducible refine (freeRegion_frame _ _).before ?_
    | extract_lets
    | with_reducible refine OnlyChanges.getD (fun _ _ => ?_) ?_
    | with_reducible refine OnlyChanges.foldl (fun _ _ => ?_) ?_
    | split

theorem settleClose_frame (a0 s) : OnlyChanges [.recoveryLog, .loafs, .events, .mailboxes, .counters, .crumbs,
    .out] s (settleClose a0 s) := by
  unfold settleClose
  repeat' first
    | with_reducible exact OnlyChanges.refl _ _
    | assumption
    | with_reducible refine (finish_frame _ _ _ _).after (by decide) ?_
    | with_reducible refine (traceCrumb_frame _ _ _ _ _ _).after (by decide) ?_
    | with_reducible refine modLoaf_frame _ ?_
    | extract_lets
    | with_reducible refine OnlyChanges.getD (fun _ _ => ?_) ?_
    | with_reducible refine OnlyChanges.foldl (fun _ _ => ?_) ?_
    | split

theorem closedBy_frame (a0 a1 s) : OnlyChanges [.recoveryLog, .loafs, .events, .mailboxes, .counters, .crumbs,
    .out] s (closedBy a0 a1 s) := by
  unfold closedBy
  repeat' first
    | with_reducible exact OnlyChanges.refl _ _
    | assumption
    | with_reducible refine (settleClose_frame _ _).before ?_
    | with_reducible refine modLoaf_frame _ ?_

theorem answerClosers_frame (a0 a1 a2 s) : OnlyChanges [.recoveryLog, .ports, .packets, .queues, .room, .numbering,
    .firmware, .tables, .loafs, .events, .mailboxes, .counters, .crumbs, .out] s (answerClosers a0 a1 a2 s) := by
  unfold answerClosers
  repeat' first
    | with_reducible exact OnlyChanges.refl _ _
    | assumption
    | with_reducible refine (closedBy_frame _ _ _).after (by decide) ?_
    | with_reducible refine (sendNotice_frame _ _ _ _ _ _ _ _ _).after (by decide) ?_
    | extract_lets
    | with_reducible refine OnlyChanges.getD (fun _ _ => ?_) ?_
    | with_reducible refine OnlyChanges.foldl (fun _ _ => ?_) ?_
    | split

theorem dropRecipe_frame (a0 a1 s) : OnlyChanges [.recoveryLog, .ports, .packets, .queues, .room, .numbering,
    .firmware, .tables, .loafs, .events, .mailboxes, .regions, .counters, .crumbs, .out] s (dropRecipe a0 a1 s) :=
    by
  unfold dropRecipe
  repeat' first
    | with_reducible exact OnlyChanges.refl _ _
    | assumption
    | with_reducible refine (answerClosers_frame _ _ _ _).after (by decide) ?_
    | with_reducible refine (freeSpill_frame _ _).after (by decide) ?_
    | with_reducible refine modLoaf_frame _ ?_
    | extract_lets
    | with_reducible refine OnlyChanges.getD (fun _ _ => ?_) ?_
    | with_reducible refine OnlyChanges.foldl (fun _ _ => ?_) ?_
    | split

theorem settleRecipe_frame (a0 a1 s) : OnlyChanges [.recoveryLog, .ports, .packets, .queues, .room, .numbering,
    .firmware, .tables, .loafs, .events, .mailboxes, .regions, .counters, .crumbs, .out] s (settleRecipe a0 a1 s)
    := by
  unfold settleRecipe
  repeat' first
    | with_reducible exact OnlyChanges.refl _ _
    | assumption
    | with_reducible refine (dropRecipe_frame _ _ _).before ?_
    | extract_lets
    | with_reducible refine OnlyChanges.getD (fun _ _ => ?_) ?_
    | with_reducible refine OnlyChanges.foldl (fun _ _ => ?_) ?_
    | split

theorem releaseCtx_frame (a0 s) : OnlyChanges [.recoveryLog, .ports, .packets, .queues, .room, .numbering,
    .firmware, .tables, .loafs, .events, .mailboxes, .regions, .counters, .crumbs, .out] s (releaseCtx a0 s) := by
  unfold releaseCtx
  repeat' first
    | with_reducible exact OnlyChanges.refl _ _
    | assumption
    | with_reducible refine (settleRecipe_frame _ _ _).before ?_
    | with_reducible refine modLoaf_frame _ ?_
    | extract_lets
    | with_reducible refine OnlyChanges.getD (fun _ _ => ?_) ?_
    | with_reducible refine OnlyChanges.foldl (fun _ _ => ?_) ?_
    | split

theorem releaseRecipe_frame (a0 a1 s) : OnlyChanges [.recoveryLog, .ports, .packets, .queues, .room, .numbering,
    .firmware, .tables, .loafs, .events, .mailboxes, .regions, .counters, .crumbs, .out] s (releaseRecipe a0 a1 s)
    := by
  unfold releaseRecipe
  repeat' first
    | with_reducible exact OnlyChanges.refl _ _
    | assumption
    | with_reducible refine (dropRecipe_frame _ _ _).before ?_
    | with_reducible refine modLoaf_frame _ ?_

theorem settleKnead_frame (s) : OnlyChanges [.recoveryLog, .loafs, .events, .mailboxes, .counters, .crumbs, .out] s
    (settleKnead s) := by
  unfold settleKnead
  repeat' first
    | with_reducible exact OnlyChanges.refl _ _
    | assumption
    | with_reducible refine (finish_frame _ _ _ _).after (by decide) ?_
    | with_reducible refine modLoaf_frame _ ?_
    | extract_lets
    | with_reducible refine OnlyChanges.getD (fun _ _ => ?_) ?_
    | with_reducible refine OnlyChanges.foldl (fun _ _ => ?_) ?_

theorem releaseIdle_frame (a0 s) : OnlyChanges [.recoveryLog, .ports, .packets, .queues, .room, .numbering,
    .firmware, .tables, .loafs, .events, .mailboxes, .regions, .counters, .crumbs, .out] s (releaseIdle a0 s) := by
  unfold releaseIdle
  repeat' first
    | with_reducible exact OnlyChanges.refl _ _
    | assumption
    | with_reducible refine (settleKnead_frame _).after (by decide) ?_
    | with_reducible refine (releaseCtx_frame _ _).before ?_
    | extract_lets
    | with_reducible refine OnlyChanges.getD (fun _ _ => ?_) ?_
    | with_reducible refine OnlyChanges.foldl (fun _ _ => ?_) ?_
    | split

theorem endLoaf_frame (a0 a1 a2 s) : OnlyChanges [.recoveryLog, .ports, .packets, .queues, .room, .numbering,
    .firmware, .tables, .loafs, .events, .mailboxes, .regions, .counters, .crumbs, .out] s (endLoaf a0 a1 a2 s) :=
    by
  unfold endLoaf
  repeat' first
    | with_reducible exact OnlyChanges.refl _ _
    | assumption
    | with_reducible refine (releaseIdle_frame _ _).before ?_
    | with_reducible refine (modCtx_frame _ _ _).after (by decide) ?_

theorem sendAborts_frame (a0 a1 a2 a3 a4 s) : OnlyChanges [.recoveryLog, .ports, .packets, .queues, .room,
    .numbering, .firmware, .tables, .events, .counters, .crumbs] s (sendAborts a0 a1 a2 a3 a4 s) := by
  unfold sendAborts
  repeat' first
    | with_reducible exact OnlyChanges.refl _ _
    | assumption
    | with_reducible refine (originate_frame _ _ _).before ?_
    | extract_lets
    | with_reducible refine OnlyChanges.getD (fun _ _ => ?_) ?_
    | with_reducible refine OnlyChanges.foldl (fun _ _ => ?_) ?_
    | split

theorem abortLoaf_frame (a0 a1 a2 s) : OnlyChanges [.recoveryLog, .ports, .packets, .queues, .room, .numbering,
    .firmware, .tables, .loafs, .events, .mailboxes, .regions, .counters, .crumbs, .out] s (abortLoaf a0 a1 a2 s)
    := by
  unfold abortLoaf
  repeat' first
    | with_reducible exact OnlyChanges.refl _ _
    | assumption
    | with_reducible refine (crumb_frame _ _ _ _ _).after (by decide) ?_
    | with_reducible refine (countKnead_frame _ _ _ _).after (by decide) ?_
    | with_reducible refine (endLoaf_frame _ _ _ _).before ?_
    | with_reducible refine (sendAborts_frame _ _ _ _ _ _).after (by decide) ?_
    | extract_lets
    | with_reducible refine OnlyChanges.getD (fun _ _ => ?_) ?_
    | with_reducible refine OnlyChanges.foldl (fun _ _ => ?_) ?_
    | split

theorem abortCtx_frame (a0 a1 s) : OnlyChanges [.recoveryLog, .ports, .packets, .queues, .room, .numbering,
    .firmware, .tables, .loafs, .events, .mailboxes, .regions, .counters, .crumbs, .out] s (abortCtx a0 a1 s) := by
  unfold abortCtx
  repeat' first
    | with_reducible exact OnlyChanges.refl _ _
    | assumption
    | with_reducible refine (abortLoaf_frame _ _ _ _).before ?_
    | extract_lets
    | with_reducible refine OnlyChanges.getD (fun _ _ => ?_) ?_
    | with_reducible refine OnlyChanges.foldl (fun _ _ => ?_) ?_
    | split

theorem closeHere_frame (a0 a1 a2 s) : OnlyChanges [.recoveryLog, .ports, .packets, .queues, .room, .numbering,
    .firmware, .tables, .loafs, .events, .mailboxes, .regions, .counters, .crumbs, .out] s (closeHere a0 a1 a2 s)
    := by
  unfold closeHere
  repeat' first
    | with_reducible exact OnlyChanges.refl _ _
    | assumption
    | with_reducible refine (modHeld_frame _ _ _ _).after (by decide) ?_
    | with_reducible refine (modCtx_frame _ _ _).after (by decide) ?_
    | with_reducible refine modLoaf_frame _ ?_
    | with_reducible refine (settleRecipe_frame _ _ _).before ?_
    | extract_lets
    | with_reducible refine OnlyChanges.getD (fun _ _ => ?_) ?_
    | with_reducible refine OnlyChanges.foldl (fun _ _ => ?_) ?_
    | split

theorem fenceLoafs_frame (a0 s) : OnlyChanges [.recoveryLog, .ports, .packets, .queues, .room, .numbering,
    .firmware, .tables, .loafs, .events, .mailboxes, .regions, .counters, .crumbs, .out] s (fenceLoafs a0 s) := by
  unfold fenceLoafs
  repeat' first
    | with_reducible exact OnlyChanges.refl _ _
    | assumption
    | with_reducible refine (abortCtx_frame _ _ _).before ?_
    | with_reducible refine (releaseRecipe_frame _ _ _).before ?_
    | with_reducible refine modLoaf_frame _ ?_
    | with_reducible refine (freeSpill_frame _ _).after (by decide) ?_
    | extract_lets
    | with_reducible refine OnlyChanges.getD (fun _ _ => ?_) ?_
    | with_reducible refine OnlyChanges.foldl (fun _ _ => ?_) ?_

end Sys2Proof.Machine
end

