-- ==== Sys2Proof/Laws/FrameLoaf.lean ====
section
/-! SUPPORT. What the operations of Machine/Loaf.lean leave unchanged. -/

set_option Elab.async false

namespace Sys2Proof.Machine

theorem restoreSlots_frame (a0 a1 a2 a3 s) : OnlyChanges [.recoveryLog, .ports, .packets, .queues, .room,
    .numbering, .firmware, .tables, .gates, .loafs, .events, .mailboxes, .regions, .memory, .mirrors, .counters,
    .crumbs, .out] s (restoreSlots a0 a1 a2 a3 s) := by
  unfold restoreSlots
  repeat' first
    | with_reducible exact OnlyChanges.refl _ _
    | assumption
    | with_reducible refine (meetErrors_frame _ _ _ _ _).after (by decide) ?_
    | with_reducible refine (startWork_frame _ _ _ _).after (by decide) ?_
    | with_reducible refine (abortCtx_frame _ _ _).after (by decide) ?_
    | with_reducible refine (modCtx_frame _ _ _).after (by decide) ?_
    | extract_lets
    | with_reducible refine OnlyChanges.getD (fun _ _ => ?_) ?_
    | with_reducible refine OnlyChanges.foldl (fun _ _ => ?_) ?_
    | split

theorem combine_frame (a0 a1 a2 a3 s) : OnlyChanges [.recoveryLog, .loafs, .events, .counters, .crumbs] s (combine
    a0 a1 a2 a3 s) := by
  unfold combine
  repeat' first
    | with_reducible exact OnlyChanges.refl _ _
    | assumption
    | with_reducible refine (countKnead_frame _ _ _ _).after (by decide) ?_
    | with_reducible refine (modCtx_frame _ _ _).after (by decide) ?_
    | extract_lets
    | with_reducible refine OnlyChanges.getD (fun _ _ => ?_) ?_
    | with_reducible refine OnlyChanges.foldl (fun _ _ => ?_) ?_
    | split

theorem stageGather_frame (a0 a1 a2 a3 a4 s) : OnlyChanges [.recoveryLog, .ports, .packets, .queues, .room,
    .numbering, .firmware, .tables, .gates, .loafs, .events, .mailboxes, .regions, .memory, .counters, .crumbs,
    .out] s (stageGather a0 a1 a2 a3 a4 s) := by
  unfold stageGather
  repeat' first
    | with_reducible exact OnlyChanges.refl _ _
    | assumption
    | with_reducible refine (startWork_frame _ _ _ _).after (by decide) ?_
    | with_reducible refine (writeBytes_frame _ _ _ _).after (by decide) ?_
    | with_reducible refine (countKnead_frame _ _ _ _).after (by decide) ?_
    | with_reducible refine (modCtx_frame _ _ _).after (by decide) ?_
    | with_reducible refine (endLoaf_frame _ _ _ _).after (by decide) ?_
    | extract_lets
    | with_reducible refine OnlyChanges.getD (fun _ _ => ?_) ?_
    | with_reducible refine OnlyChanges.foldl (fun _ _ => ?_) ?_
    | split

theorem accept1_frame (a0 a1 a2 a3 s) : OnlyChanges [.recoveryLog, .ports, .packets, .queues, .room, .numbering,
    .firmware, .tables, .gates, .loafs, .events, .mailboxes, .regions, .memory, .mirrors, .counters, .crumbs, .out]
    s (accept1 a0 a1 a2 a3 s) := by
  unfold accept1
  repeat' first
    | with_reducible exact OnlyChanges.refl _ _
    | assumption
    | with_reducible refine (abortCtx_frame _ _ _).after (by decide) ?_
    | with_reducible refine (modCtx_frame _ _ _).after (by decide) ?_
    | with_reducible refine (restoreSlots_frame _ _ _ _ _).before ?_
    | with_reducible refine (startWork_frame _ _ _ _).after (by decide) ?_
    | with_reducible refine (stageGather_frame _ _ _ _ _ _).after (by decide) ?_
    | with_reducible refine (combine_frame _ _ _ _ _).after (by decide) ?_
    | extract_lets
    | with_reducible refine OnlyChanges.getD (fun _ _ => ?_) ?_
    | with_reducible refine OnlyChanges.foldl (fun _ _ => ?_) ?_
    | split
    | extract_lets +lift
    | with_reducible refine OnlyChanges.foldl_fst (fun _ _ => ?_) ?_
    | with_reducible refine OnlyChanges.foldl_snd (fun _ _ => ?_) ?_
    | with_reducible refine OnlyChanges.of_fst (by assumption) ?_
    | with_reducible refine OnlyChanges.of_snd (by assumption) ?_
    | fail_if_no_progress (with_reducible refine OnlyChanges.upd rfl ?_)
    | dsimp +zetaDelta only []

theorem beginLoaf_frame (a0 a1 a2 s) : OnlyChanges [.loafs] s (beginLoaf a0 a1 a2 s) := by
  unfold beginLoaf
  repeat' first
    | with_reducible exact OnlyChanges.refl _ _
    | assumption
    | with_reducible refine (modCtx_frame _ _ _).before ?_
    | extract_lets
    | with_reducible refine OnlyChanges.getD (fun _ _ => ?_) ?_
    | with_reducible refine OnlyChanges.foldl (fun _ _ => ?_) ?_
    | split

theorem startLoaf_frame (a0 a1 a2 a3 s) : OnlyChanges [.recoveryLog, .ports, .packets, .queues, .room, .numbering,
    .firmware, .tables, .gates, .loafs, .events, .mailboxes, .regions, .memory, .mirrors, .counters, .crumbs, .out]
    s (startLoaf a0 a1 a2 a3 s) := by
  unfold startLoaf
  repeat' first
    | with_reducible exact OnlyChanges.refl _ _
    | assumption
    | with_reducible refine (beginLoaf_frame _ _ _ _).after (by decide) ?_
    | with_reducible refine (abortCtx_frame _ _ _).after (by decide) ?_
    | with_reducible refine (accept1_frame _ _ _ _ _).before ?_
    | extract_lets
    | with_reducible refine OnlyChanges.getD (fun _ _ => ?_) ?_
    | with_reducible refine OnlyChanges.foldl (fun _ _ => ?_) ?_
    | split

theorem execContributionRx_frame (a0 s) : NextChanges [.recoveryLog, .ports, .packets, .queues, .room, .numbering,
    .firmware, .tables, .gates, .loafs, .events, .mailboxes, .regions, .memory, .mirrors, .counters, .crumbs, .out]
    s (execContributionRx a0 s) := by
  unfold execContributionRx
  repeat' first
    | with_reducible exact OnlyChanges.refl _ _
    | assumption
    | with_reducible refine onUnit_frame _ ?_
    | with_reducible refine next_frame ?_
    | with_reducible exact fault_frame _ _ _
    | with_reducible refine (takeDelivered_frame _ _ (_, _) (by assumption)).after (by decide) ?_
    | with_reducible refine (countSlice_frame _ _ _).after (by decide) ?_
    | with_reducible refine (countKnead_frame _ _ _ _).after (by decide) ?_
    | with_reducible refine (accept1_frame _ _ _ _ _).before ?_
    | with_reducible refine (startLoaf_frame _ _ _ _ _).before ?_
    | extract_lets
    | with_reducible refine OnlyChanges.getD (fun _ _ => ?_) ?_
    | with_reducible refine OnlyChanges.foldl (fun _ _ => ?_) ?_
    | split

theorem writeResult_frame (a0 a1 a2 a3 a4 a5 a6 s) : OnlyChanges [.recoveryLog, .ports, .packets, .queues, .room,
    .numbering, .firmware, .tables, .loafs, .events, .mailboxes, .regions, .counters, .crumbs, .out] s (writeResult
    a0 a1 a2 a3 a4 a5 a6 s) := by
  unfold writeResult
  repeat' first
    | with_reducible exact OnlyChanges.refl _ _
    | assumption
    | with_reducible refine (originate_frame _ _ _).after (by decide) ?_
    | with_reducible refine (abortCtx_frame _ _ _).before ?_
    | with_reducible refine (modCtx_frame _ _ _).after (by decide) ?_
    | with_reducible refine (endLoaf_frame _ _ _ _).before ?_
    | extract_lets
    | with_reducible refine OnlyChanges.getD (fun _ _ => ?_) ?_
    | with_reducible refine OnlyChanges.foldl (fun _ _ => ?_) ?_
    | split

theorem execSlotResultWritten_frame (a0 a1 a2 s) : NextChanges [.recoveryLog, .ports, .packets, .queues, .room,
    .numbering, .firmware, .tables, .loafs, .events, .mailboxes, .regions, .counters, .crumbs, .out] s
    (execSlotResultWritten a0 a1 a2 s) := by
  unfold execSlotResultWritten
  repeat' first
    | with_reducible exact OnlyChanges.refl _ _
    | assumption
    | with_reducible refine onUnit_frame _ ?_
    | with_reducible refine next_frame ?_
    | with_reducible exact fault_frame _ _ _
    | with_reducible refine (writeResult_frame _ _ _ _ _ _ _ _).before ?_
    | extract_lets
    | with_reducible refine OnlyChanges.getD (fun _ _ => ?_) ?_
    | with_reducible refine OnlyChanges.foldl (fun _ _ => ?_) ?_
    | split

theorem lostResult_frame (a0 s) : OnlyChanges [.recoveryLog, .ports, .packets, .queues, .room, .numbering,
    .firmware, .tables, .loafs, .events, .mailboxes, .regions, .counters, .crumbs, .out] s (lostResult a0 s) := by
  unfold lostResult
  repeat' first
    | with_reducible exact OnlyChanges.refl _ _
    | assumption
    | with_reducible refine (abortLoaf_frame _ _ _ _).before ?_
    | extract_lets
    | with_reducible refine OnlyChanges.getD (fun _ _ => ?_) ?_
    | with_reducible refine OnlyChanges.foldl (fun _ _ => ?_) ?_
    | split

theorem reportLost_frame (a0 a1 s) : OnlyChanges [.recoveryLog, .ports, .packets, .queues, .room, .numbering,
    .firmware, .tables, .loafs, .events, .mailboxes, .regions, .counters, .crumbs, .out] s (reportLost a0 a1 s) :=
    by
  unfold reportLost
  repeat' first
    | with_reducible exact OnlyChanges.refl _ _
    | assumption
    | with_reducible refine (lostResult_frame _ _).before ?_
    | extract_lets
    | with_reducible refine OnlyChanges.getD (fun _ _ => ?_) ?_
    | with_reducible refine OnlyChanges.foldl (fun _ _ => ?_) ?_
    | split

theorem execInjectionWrite_frame (a0 s) : NextChanges [.recoveryLog, .ports, .packets, .queues, .room, .numbering,
    .firmware, .tables, .loafs, .events, .mailboxes, .regions, .counters, .crumbs, .out] s (execInjectionWrite a0
    s) := by
  unfold execInjectionWrite
  repeat' first
    | with_reducible exact OnlyChanges.refl _ _
    | assumption
    | with_reducible refine onUnit_frame _ ?_
    | with_reducible refine next_frame ?_
    | with_reducible exact fault_frame _ _ _
    | with_reducible refine (refreshPauses_frame _ _).after (by decide) ?_
    | with_reducible refine (injectNext_frame _ _ _ (by assumption)).after (by decide) ?_
    | with_reducible refine (reportLost_frame _ _ _).before ?_
    | extract_lets
    | with_reducible refine OnlyChanges.getD (fun _ _ => ?_) ?_
    | with_reducible refine OnlyChanges.foldl (fun _ _ => ?_) ?_
    | split

theorem acknowledgeGather_frame (a0 a1 a2 s) : OnlyChanges [.recoveryLog, .ports, .packets, .queues, .room,
    .numbering, .firmware, .tables, .loafs, .events, .mailboxes, .regions, .counters, .crumbs, .out] s
    (acknowledgeGather a0 a1 a2 s) := by
  unfold acknowledgeGather
  repeat' first
    | with_reducible exact OnlyChanges.refl _ _
    | assumption
    | with_reducible refine (releaseIdle_frame _ _).before ?_
    | with_reducible refine (modCtx_frame _ _ _).after (by decide) ?_
    | with_reducible refine (originate_frame _ _ _).after (by decide) ?_
    | extract_lets
    | with_reducible refine OnlyChanges.getD (fun _ _ => ?_) ?_
    | with_reducible refine OnlyChanges.foldl (fun _ _ => ?_) ?_

theorem sendGather_frame (a0 a1 a2 a3 a4 a5 s) : OnlyChanges [.recoveryLog, .ports, .packets, .queues, .room,
    .numbering, .firmware, .tables, .gates, .loafs, .events, .mailboxes, .regions, .memory, .mirrors, .counters,
    .crumbs, .out] s (sendGather a0 a1 a2 a3 a4 a5 s) := by
  unfold sendGather
  repeat' first
    | with_reducible exact OnlyChanges.refl _ _
    | assumption
    | with_reducible refine (meetErrors_frame _ _ _ _ _).after (by decide) ?_
    | with_reducible refine (startWork_frame _ _ _ _).after (by decide) ?_
    | with_reducible refine (abortLoaf_frame _ _ _ _).after (by decide) ?_
    | with_reducible refine (originate_frame _ _ _).after (by decide) ?_
    | with_reducible refine (modCtx_frame _ _ _).after (by decide) ?_
    | with_reducible refine (acknowledgeGather_frame _ _ _ _).after (by decide) ?_
    | extract_lets
    | with_reducible refine OnlyChanges.getD (fun _ _ => ?_) ?_
    | with_reducible refine OnlyChanges.foldl (fun _ _ => ?_) ?_
    | split

theorem execGatherSend_frame (a0 a1 a2 s) : NextChanges [.recoveryLog, .ports, .packets, .queues, .room,
    .numbering, .firmware, .tables, .gates, .loafs, .events, .mailboxes, .regions, .memory, .mirrors, .counters,
    .crumbs, .out] s (execGatherSend a0 a1 a2 s) := by
  unfold execGatherSend
  repeat' first
    | with_reducible exact OnlyChanges.refl _ _
    | assumption
    | with_reducible refine onUnit_frame _ ?_
    | with_reducible refine next_frame ?_
    | with_reducible exact fault_frame _ _ _
    | with_reducible refine (sendGather_frame _ _ _ _ _ _ _).before ?_
    | extract_lets
    | with_reducible refine OnlyChanges.getD (fun _ _ => ?_) ?_
    | with_reducible refine OnlyChanges.foldl (fun _ _ => ?_) ?_
    | split

theorem execSpillIdleTimeout_frame (a0 a1 s) : NextChanges [.loafs] s (execSpillIdleTimeout a0 a1 s) := by
  unfold execSpillIdleTimeout
  repeat' first
    | with_reducible exact OnlyChanges.refl _ _
    | assumption
    | with_reducible refine onUnit_frame _ ?_
    | with_reducible refine next_frame ?_
    | with_reducible exact fault_frame _ _ _
    | with_reducible refine (modCtx_frame _ _ _).before ?_
    | extract_lets
    | with_reducible refine OnlyChanges.getD (fun _ _ => ?_) ?_
    | with_reducible refine OnlyChanges.foldl (fun _ _ => ?_) ?_
    | split

theorem writeSpill_frame (a0 a1 a2 s) : OnlyChanges [.gates, .memory] s (writeSpill a0 a1 a2 s) := by
  unfold writeSpill
  repeat' first
    | with_reducible exact OnlyChanges.refl _ _
    | assumption
    | with_reducible refine (startWork_frame _ _ _ _).after (by decide) ?_
    | with_reducible refine (writeBytes_frame _ _ _ _).after (by decide) ?_
    | extract_lets
    | with_reducible refine OnlyChanges.getD (fun _ _ => ?_) ?_
    | with_reducible refine OnlyChanges.foldl (fun _ _ => ?_) ?_

theorem execSpillComplete_frame (a0 a1 s) : NextChanges [.recoveryLog, .gates, .loafs, .events, .memory, .counters,
    .crumbs] s (execSpillComplete a0 a1 s) := by
  unfold execSpillComplete
  repeat' first
    | with_reducible exact OnlyChanges.refl _ _
    | assumption
    | with_reducible refine onUnit_frame _ ?_
    | with_reducible refine next_frame ?_
    | with_reducible exact fault_frame _ _ _
    | with_reducible refine (countKnead_frame _ _ _ _).after (by decide) ?_
    | with_reducible refine (modCtx_frame _ _ _).after (by decide) ?_
    | with_reducible refine (writeSpill_frame _ _ _ _).after (by decide) ?_
    | extract_lets
    | with_reducible refine OnlyChanges.getD (fun _ _ => ?_) ?_
    | with_reducible refine OnlyChanges.foldl (fun _ _ => ?_) ?_
    | split

theorem execSpillRestore_frame (a0 a1 a2 s) : NextChanges [.recoveryLog, .ports, .packets, .queues, .room,
    .numbering, .firmware, .tables, .gates, .loafs, .events, .mailboxes, .regions, .memory, .mirrors, .counters,
    .crumbs, .out] s (execSpillRestore a0 a1 a2 s) := by
  unfold execSpillRestore
  repeat' first
    | with_reducible exact OnlyChanges.refl _ _
    | assumption
    | with_reducible refine onUnit_frame _ ?_
    | with_reducible refine next_frame ?_
    | with_reducible exact fault_frame _ _ _
    | with_reducible refine (restoreSlots_frame _ _ _ _ _).before ?_
    | extract_lets
    | with_reducible refine OnlyChanges.getD (fun _ _ => ?_) ?_
    | with_reducible refine OnlyChanges.foldl (fun _ _ => ?_) ?_
    | split

theorem execLoafStalenessExpiry_frame (a0 a1 s) : NextChanges [.alert, .lastLevel, .recoveryLog, .ports, .packets,
    .queues, .room, .numbering, .firmware, .tables, .loafs, .events, .mailboxes, .regions, .counters, .crumbs,
    .out] s (execLoafStalenessExpiry a0 a1 s) := by
  unfold execLoafStalenessExpiry
  repeat' first
    | with_reducible exact OnlyChanges.refl _ _
    | assumption
    | with_reducible refine onUnit_frame _ ?_
    | with_reducible refine next_frame ?_
    | with_reducible exact fault_frame _ _ _
    | with_reducible refine (abortCtx_frame _ _ _).after (by decide) ?_
    | with_reducible refine (staleCrumb_frame _ _ _ _).after (by decide) ?_
    | extract_lets
    | with_reducible refine OnlyChanges.getD (fun _ _ => ?_) ?_
    | with_reducible refine OnlyChanges.foldl (fun _ _ => ?_) ?_
    | split

theorem execAbortRx_frame (s) : NextChanges [.recoveryLog, .ports, .packets, .queues, .room, .numbering, .firmware,
    .tables, .loafs, .events, .mailboxes, .regions, .counters, .crumbs, .out] s (execAbortRx s) := by
  unfold execAbortRx
  repeat' first
    | with_reducible exact OnlyChanges.refl _ _
    | assumption
    | with_reducible refine onUnit_frame _ ?_
    | with_reducible refine next_frame ?_
    | with_reducible exact fault_frame _ _ _
    | with_reducible refine (takeDelivered_frame _ _ (_, _) (by assumption)).after (by decide) ?_
    | with_reducible refine (countControl_frame _ _).after (by decide) ?_
    | with_reducible refine (endLoaf_frame _ _ _ _).before ?_
    | extract_lets
    | with_reducible refine OnlyChanges.getD (fun _ _ => ?_) ?_
    | with_reducible refine OnlyChanges.foldl (fun _ _ => ?_) ?_
    | split

theorem execStagingSramError_frame (a0 a1 a2 s) : NextChanges [.recoveryLog, .ports, .packets, .queues, .room,
    .numbering, .firmware, .tables, .loafs, .events, .mailboxes, .regions, .counters, .crumbs, .out] s
    (execStagingSramError a0 a1 a2 s) := by
  unfold execStagingSramError
  repeat' first
    | with_reducible exact OnlyChanges.refl _ _
    | assumption
    | with_reducible refine onUnit_frame _ ?_
    | with_reducible refine next_frame ?_
    | with_reducible exact fault_frame _ _ _
    | with_reducible refine (countKnead_frame _ _ _ _).after (by decide) ?_
    | with_reducible refine (abortCtx_frame _ _ _).before ?_
    | with_reducible refine (count_frame _ _ _).after (by decide) ?_
    | extract_lets
    | with_reducible refine OnlyChanges.getD (fun _ _ => ?_) ?_
    | with_reducible refine OnlyChanges.foldl (fun _ _ => ?_) ?_
    | split

end Sys2Proof.Machine
end

