-- ==== Sys2Proof/Laws/FrameNotices.lean ====
section
/-! SUPPORT. What the operations of Machine/Notices.lean leave unchanged. -/

set_option Elab.async false

namespace Sys2Proof.Machine

theorem placeSpill_frame (a0 a1 a2 s) : OnlyChanges [.recoveryLog, .events, .regions, .counters, .crumbs,
    .decisions] s (placeSpill a0 a1 a2 s).2 := by
  unfold placeSpill
  repeat' first
    | with_reducible exact OnlyChanges.refl _ _
    | assumption
    | with_reducible refine (placeRegion_frame _ _ _ _).after (by decide) ?_
    | with_reducible refine (addRegion_frame _ _ _).after (by decide) ?_
    | extract_lets
    | with_reducible refine OnlyChanges.getD (fun _ _ => ?_) ?_
    | with_reducible refine OnlyChanges.foldl (fun _ _ => ?_) ?_
    | split
    | extract_lets +lift
    | with_reducible refine OnlyChanges.foldl_fst (fun _ _ => ?_) ?_
    | with_reducible refine OnlyChanges.foldl_snd (fun _ _ => ?_) ?_
    | with_reducible refine OnlyChanges.of_fst (by assumption) ?_
    | with_reducible refine OnlyChanges.of_snd (by assumption) ?_

theorem reserveSpill_frame (a0 a1 a2 a3 s) : OnlyChanges [.recoveryLog, .events, .regions, .counters, .crumbs,
    .decisions] s (reserveSpill a0 a1 a2 a3 s).2 := by
  unfold reserveSpill
  repeat' first
    | with_reducible exact OnlyChanges.refl _ _
    | assumption
    | with_reducible refine (placeSpill_frame _ _ _ _).before ?_
    | extract_lets
    | with_reducible refine OnlyChanges.getD (fun _ _ => ?_) ?_
    | with_reducible refine OnlyChanges.foldl (fun _ _ => ?_) ?_
    | split

theorem serveReserve_frame (a0 a1 a2 a3 s) : OnlyChanges [.recoveryLog, .ports, .packets, .queues, .room,
    .numbering, .firmware, .tables, .loafs, .events, .regions, .counters, .crumbs, .decisions] s (serveReserve a0
    a1 a2 a3 s) := by
  unfold serveReserve
  repeat' first
    | with_reducible exact OnlyChanges.refl _ _
    | assumption
    | with_reducible refine (sendNotice_frame _ _ _ _ _ _ _ _ _).after (by decide) ?_
    | with_reducible refine (reserveSpill_frame _ _ _ _ _).after (by decide) ?_
    | with_reducible refine modLoaf_frame _ ?_
    | extract_lets
    | with_reducible refine OnlyChanges.getD (fun _ _ => ?_) ?_
    | with_reducible refine OnlyChanges.foldl (fun _ _ => ?_) ?_
    | split
    | extract_lets +lift
    | with_reducible refine OnlyChanges.foldl_fst (fun _ _ => ?_) ?_
    | with_reducible refine OnlyChanges.foldl_snd (fun _ _ => ?_) ?_
    | with_reducible refine OnlyChanges.of_fst (by assumption) ?_
    | with_reducible refine OnlyChanges.of_snd (by assumption) ?_

theorem execReserveRx_frame (s) : NextChanges [.recoveryLog, .ports, .packets, .queues, .room, .numbering,
    .firmware, .tables, .loafs, .events, .regions, .counters, .crumbs, .decisions] s (execReserveRx s) := by
  unfold execReserveRx
  repeat' first
    | with_reducible exact OnlyChanges.refl _ _
    | assumption
    | with_reducible refine onUnit_frame _ ?_
    | with_reducible refine next_frame ?_
    | with_reducible exact fault_frame _ _ _
    | with_reducible refine (takeNotice_frame _ _ (_, _) (by assumption)).after (by decide) ?_
    | with_reducible refine (serveReserve_frame _ _ _ _ _).before ?_
    | extract_lets
    | with_reducible refine OnlyChanges.getD (fun _ _ => ?_) ?_
    | with_reducible refine OnlyChanges.foldl (fun _ _ => ?_) ?_
    | split

theorem dropReservation_frame (a0 a1 s) : OnlyChanges [.loafs, .regions] s (dropReservation a0 a1 s) := by
  unfold dropReservation
  repeat' first
    | with_reducible exact OnlyChanges.refl _ _
    | assumption
    | with_reducible refine modLoaf_frame _ ?_
    | with_reducible refine (freeSpill_frame _ _).after (by decide) ?_
    | extract_lets
    | with_reducible refine OnlyChanges.getD (fun _ _ => ?_) ?_
    | with_reducible refine OnlyChanges.foldl (fun _ _ => ?_) ?_

theorem execReservationExpiry_frame (a0 a1 s) : NextChanges [.recoveryLog, .loafs, .events, .regions, .counters,
    .crumbs] s (execReservationExpiry a0 a1 s) := by
  unfold execReservationExpiry
  repeat' first
    | with_reducible exact OnlyChanges.refl _ _
    | assumption
    | with_reducible refine onUnit_frame _ ?_
    | with_reducible refine next_frame ?_
    | with_reducible exact fault_frame _ _ _
    | with_reducible refine (raise31_frame _ _ _).after (by decide) ?_
    | with_reducible refine (dropReservation_frame _ _ _).after (by decide) ?_
    | extract_lets
    | with_reducible refine OnlyChanges.getD (fun _ _ => ?_) ?_
    | with_reducible refine OnlyChanges.foldl (fun _ _ => ?_) ?_
    | split

theorem commitContexts_frame (a0 s) : OnlyChanges [.loafs] s (commitContexts a0 s) := by
  unfold commitContexts
  repeat' first
    | with_reducible exact OnlyChanges.refl _ _
    | assumption
    | with_reducible refine modLoaf_frame _ ?_
    | extract_lets
    | with_reducible refine OnlyChanges.getD (fun _ _ => ?_) ?_
    | with_reducible refine OnlyChanges.foldl (fun _ _ => ?_) ?_

theorem commitRecipe_frame (a0 a1 s) : OnlyChanges [.recoveryLog, .ports, .packets, .queues, .room, .numbering,
    .firmware, .tables, .loafs, .events, .counters, .crumbs] s (commitRecipe a0 a1 s) := by
  unfold commitRecipe
  repeat' first
    | with_reducible exact OnlyChanges.refl _ _
    | assumption
    | with_reducible refine modLoaf_frame _ ?_
    | with_reducible refine (sendNotice_frame _ _ _ _ _ _ _ _ _).after (by decide) ?_
    | with_reducible refine (commitContexts_frame _ _).after (by decide) ?_

theorem execCommitRx_frame (s) : NextChanges [.recoveryLog, .ports, .packets, .queues, .room, .numbering,
    .firmware, .tables, .loafs, .events, .counters, .crumbs] s (execCommitRx s) := by
  unfold execCommitRx
  repeat' first
    | with_reducible exact OnlyChanges.refl _ _
    | assumption
    | with_reducible refine onUnit_frame _ ?_
    | with_reducible refine next_frame ?_
    | with_reducible exact fault_frame _ _ _
    | with_reducible refine (takeNotice_frame _ _ (_, _) (by assumption)).after (by decide) ?_
    | with_reducible refine (sendNotice_frame _ _ _ _ _ _ _ _ _).after (by decide) ?_
    | with_reducible refine modLoaf_frame _ ?_
    | with_reducible refine (commitRecipe_frame _ _ _).before ?_
    | extract_lets
    | with_reducible refine OnlyChanges.getD (fun _ _ => ?_) ?_
    | with_reducible refine OnlyChanges.foldl (fun _ _ => ?_) ?_
    | split

theorem execReleaseRx_frame (s) : NextChanges [.recoveryLog, .ports, .packets, .queues, .room, .numbering,
    .firmware, .tables, .loafs, .events, .mailboxes, .regions, .counters, .crumbs, .out] s (execReleaseRx s) := by
  unfold execReleaseRx
  repeat' first
    | with_reducible exact OnlyChanges.refl _ _
    | assumption
    | with_reducible refine onUnit_frame _ ?_
    | with_reducible refine next_frame ?_
    | with_reducible exact fault_frame _ _ _
    | with_reducible refine (takeNotice_frame _ _ (_, _) (by assumption)).after (by decide) ?_
    | with_reducible refine (dropReservation_frame _ _ _).after (by decide) ?_
    | with_reducible refine (releaseRecipe_frame _ _ _).before ?_
    | with_reducible refine (countControl_frame _ _).after (by decide) ?_
    | extract_lets
    | with_reducible refine OnlyChanges.getD (fun _ _ => ?_) ?_
    | with_reducible refine OnlyChanges.foldl (fun _ _ => ?_) ?_
    | split

theorem releaseSpines_frame (a0 a1 a2 s) : OnlyChanges [.recoveryLog, .ports, .packets, .queues, .room, .numbering,
    .firmware, .tables, .events, .counters, .crumbs] s (releaseSpines a0 a1 a2 s) := by
  unfold releaseSpines
  repeat' first
    | with_reducible exact OnlyChanges.refl _ _
    | assumption
    | with_reducible refine (sendNotice_frame _ _ _ _ _ _ _ _ _).before ?_
    | extract_lets
    | with_reducible refine OnlyChanges.getD (fun _ _ => ?_) ?_
    | with_reducible refine OnlyChanges.foldl (fun _ _ => ?_) ?_

theorem modOpen_frame (a0 a1 s) : OnlyChanges [.loafs] s (modOpen a0 a1 s) := by
  unfold modOpen
  repeat' first
    | with_reducible exact OnlyChanges.refl _ _
    | assumption
    | with_reducible refine modLoaf_frame _ ?_

theorem failOpen_frame (a0 a1 s) : OnlyChanges [.recoveryLog, .loafs, .events, .mailboxes, .counters, .crumbs,
    .out] s (failOpen a0 a1 s) := by
  unfold failOpen
  repeat' first
    | with_reducible exact OnlyChanges.refl _ _
    | assumption
    | with_reducible refine (finish_frame _ _ _ _).after (by decide) ?_
    | with_reducible refine modLoaf_frame _ ?_
    | extract_lets
    | with_reducible refine OnlyChanges.getD (fun _ _ => ?_) ?_
    | with_reducible refine OnlyChanges.foldl (fun _ _ => ?_) ?_
    | split

theorem placeRound_frame (a0 s) : OnlyChanges [.recoveryLog, .ports, .packets, .queues, .room, .numbering,
    .firmware, .tables, .loafs, .events, .mailboxes, .counters, .crumbs, .decisions, .out] s (placeRound a0 s) :=
    by
  unfold placeRound
  repeat' first
    | with_reducible exact OnlyChanges.refl _ _
    | assumption
    | with_reducible refine (failOpen_frame _ _ _).after (by decide) ?_
    | with_reducible refine (noChoice_frame _ _ _ _ _).after (by decide) ?_
    | with_reducible refine (writeDecision_frame _ _ _ _ _ _ _).after (by decide) ?_
    | with_reducible refine (modOpen_frame _ _ _).after (by decide) ?_
    | with_reducible refine (sendNotice_frame _ _ _ _ _ _ _ _ _).after (by decide) ?_
    | extract_lets
    | with_reducible refine OnlyChanges.getD (fun _ _ => ?_) ?_
    | with_reducible refine OnlyChanges.foldl (fun _ _ => ?_) ?_
    | split

theorem sendCommits_frame (a0 a1 s) : OnlyChanges [.recoveryLog, .ports, .packets, .queues, .room, .numbering,
    .firmware, .tables, .events, .counters, .crumbs] s (sendCommits a0 a1 s) := by
  unfold sendCommits
  repeat' first
    | with_reducible exact OnlyChanges.refl _ _
    | assumption
    | with_reducible refine (sendNotice_frame _ _ _ _ _ _ _ _ _).before ?_
    | extract_lets
    | with_reducible refine OnlyChanges.getD (fun _ _ => ?_) ?_
    | with_reducible refine OnlyChanges.foldl (fun _ _ => ?_) ?_

theorem settleRound_frame (a0 s) : OnlyChanges [.recoveryLog, .ports, .packets, .queues, .room, .numbering,
    .firmware, .tables, .loafs, .events, .mailboxes, .counters, .crumbs, .decisions, .out] s (settleRound a0 s) :=
    by
  unfold settleRound
  repeat' first
    | with_reducible exact OnlyChanges.refl _ _
    | assumption
    | with_reducible refine (releaseSpines_frame _ _ _ _).after (by decide) ?_
    | with_reducible refine (failOpen_frame _ _ _).after (by decide) ?_
    | with_reducible refine (placeRound_frame _ _).before ?_
    | with_reducible refine (modOpen_frame _ _ _).after (by decide) ?_
    | with_reducible refine (sendCommits_frame _ _ _).after (by decide) ?_
    | extract_lets
    | with_reducible refine OnlyChanges.getD (fun _ _ => ?_) ?_
    | with_reducible refine OnlyChanges.foldl (fun _ _ => ?_) ?_
    | split

theorem execReservedRx_frame (s) : NextChanges [.recoveryLog, .ports, .packets, .queues, .room, .numbering,
    .firmware, .tables, .loafs, .events, .mailboxes, .counters, .crumbs, .decisions, .out] s (execReservedRx s) :=
    by
  unfold execReservedRx
  repeat' first
    | with_reducible exact OnlyChanges.refl _ _
    | assumption
    | with_reducible refine onUnit_frame _ ?_
    | with_reducible refine next_frame ?_
    | with_reducible exact fault_frame _ _ _
    | with_reducible refine (takeNotice_frame _ _ (_, _) (by assumption)).after (by decide) ?_
    | with_reducible refine (sendNotice_frame _ _ _ _ _ _ _ _ _).after (by decide) ?_
    | with_reducible refine (settleRound_frame _ _).before ?_
    | with_reducible refine (modOpen_frame _ _ _).after (by decide) ?_
    | extract_lets
    | with_reducible refine OnlyChanges.getD (fun _ _ => ?_) ?_
    | with_reducible refine OnlyChanges.foldl (fun _ _ => ?_) ?_
    | split

theorem refuseBy_frame (a0 a1 a2 s) : OnlyChanges [.recoveryLog, .ports, .packets, .queues, .room, .numbering,
    .firmware, .tables, .loafs, .events, .mailboxes, .counters, .crumbs, .decisions, .out] s (refuseBy a0 a1 a2 s)
    := by
  unfold refuseBy
  repeat' first
    | with_reducible exact OnlyChanges.refl _ _
    | assumption
    | with_reducible refine (settleRound_frame _ _).before ?_
    | with_reducible refine (modOpen_frame _ _ _).after (by decide) ?_

theorem execRefusedRx_frame (s) : NextChanges [.recoveryLog, .ports, .packets, .queues, .room, .numbering,
    .firmware, .tables, .loafs, .events, .mailboxes, .counters, .crumbs, .decisions, .out] s (execRefusedRx s) :=
    by
  unfold execRefusedRx
  repeat' first
    | with_reducible exact OnlyChanges.refl _ _
    | assumption
    | with_reducible refine onUnit_frame _ ?_
    | with_reducible refine next_frame ?_
    | with_reducible exact fault_frame _ _ _
    | with_reducible refine (takeNotice_frame _ _ (_, _) (by assumption)).after (by decide) ?_
    | with_reducible refine (failOpen_frame _ _ _).after (by decide) ?_
    | with_reducible refine (releaseSpines_frame _ _ _ _).after (by decide) ?_
    | with_reducible refine (refuseBy_frame _ _ _ _).before ?_
    | extract_lets
    | with_reducible refine OnlyChanges.getD (fun _ _ => ?_) ?_
    | with_reducible refine OnlyChanges.foldl (fun _ _ => ?_) ?_
    | split

theorem execReserveAnswerTimeout_frame (a0 a1 s) : NextChanges [.recoveryLog, .ports, .packets, .queues, .room,
    .numbering, .firmware, .tables, .loafs, .events, .mailboxes, .counters, .crumbs, .decisions, .out] s
    (execReserveAnswerTimeout a0 a1 s) := by
  unfold execReserveAnswerTimeout
  repeat' first
    | with_reducible exact OnlyChanges.refl _ _
    | assumption
    | with_reducible refine onUnit_frame _ ?_
    | with_reducible refine next_frame ?_
    | with_reducible exact fault_frame _ _ _
    | with_reducible refine (refuseBy_frame _ _ _ _).before ?_
    | extract_lets
    | with_reducible refine OnlyChanges.getD (fun _ _ => ?_) ?_
    | with_reducible refine OnlyChanges.foldl (fun _ _ => ?_) ?_
    | split

theorem openComplete_frame (a0 a1 s) : OnlyChanges [.recoveryLog, .loafs, .events, .mailboxes, .counters, .crumbs,
    .out] s (openComplete a0 a1 s) := by
  unfold openComplete
  repeat' first
    | with_reducible exact OnlyChanges.refl _ _
    | assumption
    | with_reducible refine modLoaf_frame _ ?_
    | with_reducible refine (modHeld_frame _ _ _ _).after (by decide) ?_
    | with_reducible refine (finish_frame _ _ _ _).after (by decide) ?_
    | with_reducible refine (traceCrumb_frame _ _ _ _ _ _).after (by decide) ?_
    | extract_lets
    | with_reducible refine OnlyChanges.getD (fun _ _ => ?_) ?_
    | with_reducible refine OnlyChanges.foldl (fun _ _ => ?_) ?_
    | split

theorem execCommittedRx_frame (s) : NextChanges [.recoveryLog, .firmware, .loafs, .events, .mailboxes, .counters,
    .crumbs, .out] s (execCommittedRx s) := by
  unfold execCommittedRx
  repeat' first
    | with_reducible exact OnlyChanges.refl _ _
    | assumption
    | with_reducible refine onUnit_frame _ ?_
    | with_reducible refine next_frame ?_
    | with_reducible exact fault_frame _ _ _
    | with_reducible refine (takeNotice_frame _ _ (_, _) (by assumption)).after (by decide) ?_
    | with_reducible refine (modOpen_frame _ _ _).after (by decide) ?_
    | with_reducible refine (openComplete_frame _ _ _).after (by decide) ?_
    | extract_lets
    | with_reducible refine OnlyChanges.getD (fun _ _ => ?_) ?_
    | with_reducible refine OnlyChanges.foldl (fun _ _ => ?_) ?_
    | split

theorem execCommitTimeout_frame (a0 s) : NextChanges [.recoveryLog, .ports, .packets, .queues, .room, .numbering,
    .firmware, .tables, .loafs, .events, .mailboxes, .counters, .crumbs, .out] s (execCommitTimeout a0 s) := by
  unfold execCommitTimeout
  repeat' first
    | with_reducible exact OnlyChanges.refl _ _
    | assumption
    | with_reducible refine onUnit_frame _ ?_
    | with_reducible refine next_frame ?_
    | with_reducible exact fault_frame _ _ _
    | with_reducible refine (failOpen_frame _ _ _).after (by decide) ?_
    | with_reducible refine (releaseSpines_frame _ _ _ _).after (by decide) ?_
    | extract_lets
    | with_reducible refine OnlyChanges.getD (fun _ _ => ?_) ?_
    | with_reducible refine OnlyChanges.foldl (fun _ _ => ?_) ?_
    | split

theorem execCloseRx_frame (s) : NextChanges [.recoveryLog, .ports, .packets, .queues, .room, .numbering, .firmware,
    .tables, .loafs, .events, .mailboxes, .regions, .counters, .crumbs, .out] s (execCloseRx s) := by
  unfold execCloseRx
  repeat' first
    | with_reducible exact OnlyChanges.refl _ _
    | assumption
    | with_reducible refine onUnit_frame _ ?_
    | with_reducible refine next_frame ?_
    | with_reducible exact fault_frame _ _ _
    | with_reducible refine (takeNotice_frame _ _ (_, _) (by assumption)).after (by decide) ?_
    | with_reducible refine (sendNotice_frame _ _ _ _ _ _ _ _ _).after (by decide) ?_
    | with_reducible refine (closeHere_frame _ _ _ _).before ?_
    | extract_lets
    | with_reducible refine OnlyChanges.getD (fun _ _ => ?_) ?_
    | with_reducible refine OnlyChanges.foldl (fun _ _ => ?_) ?_
    | split

theorem execClosedRx_frame (s) : NextChanges [.recoveryLog, .firmware, .loafs, .events, .mailboxes, .counters,
    .crumbs, .out] s (execClosedRx s) := by
  unfold execClosedRx
  repeat' first
    | with_reducible exact OnlyChanges.refl _ _
    | assumption
    | with_reducible refine onUnit_frame _ ?_
    | with_reducible refine next_frame ?_
    | with_reducible exact fault_frame _ _ _
    | with_reducible refine (takeNotice_frame _ _ (_, _) (by assumption)).after (by decide) ?_
    | with_reducible refine (closedBy_frame _ _ _).after (by decide) ?_
    | extract_lets
    | with_reducible refine OnlyChanges.getD (fun _ _ => ?_) ?_
    | with_reducible refine OnlyChanges.foldl (fun _ _ => ?_) ?_
    | split

theorem sendCloses_frame (a0 s) : OnlyChanges [.recoveryLog, .ports, .packets, .queues, .room, .numbering,
    .firmware, .tables, .events, .counters, .crumbs] s (sendCloses a0 s) := by
  unfold sendCloses
  repeat' first
    | with_reducible exact OnlyChanges.refl _ _
    | assumption
    | with_reducible refine (sendNotice_frame _ _ _ _ _ _ _ _ _).before ?_
    | extract_lets
    | with_reducible refine OnlyChanges.getD (fun _ _ => ?_) ?_
    | with_reducible refine OnlyChanges.foldl (fun _ _ => ?_) ?_
    | split

theorem execCloseRepeatTick_frame (a0 s) : NextChanges [.recoveryLog, .ports, .packets, .queues, .room, .numbering,
    .firmware, .tables, .loafs, .events, .mailboxes, .counters, .crumbs, .out] s (execCloseRepeatTick a0 s) := by
  unfold execCloseRepeatTick
  repeat' first
    | with_reducible exact OnlyChanges.refl _ _
    | assumption
    | with_reducible refine onUnit_frame _ ?_
    | with_reducible refine next_frame ?_
    | with_reducible exact fault_frame _ _ _
    | with_reducible refine modLoaf_frame _ ?_
    | with_reducible refine (sendCloses_frame _ _).after (by decide) ?_
    | with_reducible refine (settleClose_frame _ _).after (by decide) ?_
    | extract_lets
    | with_reducible refine OnlyChanges.getD (fun _ _ => ?_) ?_
    | with_reducible refine OnlyChanges.foldl (fun _ _ => ?_) ?_
    | split

theorem graceAbort_frame (a0 s) : OnlyChanges [.recoveryLog, .ports, .packets, .queues, .room, .numbering,
    .firmware, .tables, .loafs, .events, .mailboxes, .regions, .counters, .crumbs, .out] s (graceAbort a0 s) := by
  unfold graceAbort
  repeat' first
    | with_reducible exact OnlyChanges.refl _ _
    | assumption
    | with_reducible refine (abortLoaf_frame _ _ _ _).before ?_
    | with_reducible refine (graceCrumb_frame _ _ _ _).after (by decide) ?_
    | extract_lets
    | with_reducible refine OnlyChanges.getD (fun _ _ => ?_) ?_
    | with_reducible refine OnlyChanges.foldl (fun _ _ => ?_) ?_
    | split

theorem expireKnead_frame (a0 s) : OnlyChanges [.recoveryLog, .ports, .packets, .queues, .room, .numbering,
    .firmware, .tables, .loafs, .events, .mailboxes, .regions, .counters, .crumbs, .out] s (expireKnead a0 s) := by
  unfold expireKnead
  repeat' first
    | with_reducible exact OnlyChanges.refl _ _
    | assumption
    | with_reducible refine modLoaf_frame _ ?_
    | with_reducible refine (finish_frame _ _ _ _).after (by decide) ?_
    | with_reducible refine (graceAbort_frame _ _).before ?_

theorem execLoafGraceExpiry_frame (a0 s) : NextChanges [.recoveryLog, .ports, .packets, .queues, .room, .numbering,
    .firmware, .tables, .loafs, .events, .mailboxes, .regions, .counters, .crumbs, .out] s (execLoafGraceExpiry a0
    s) := by
  unfold execLoafGraceExpiry
  repeat' first
    | with_reducible exact OnlyChanges.refl _ _
    | assumption
    | with_reducible refine onUnit_frame _ ?_
    | with_reducible refine next_frame ?_
    | with_reducible exact fault_frame _ _ _
    | with_reducible refine (graceAbort_frame _ _).before ?_
    | with_reducible refine (expireKnead_frame _ _).before ?_
    | extract_lets
    | with_reducible refine OnlyChanges.getD (fun _ _ => ?_) ?_
    | with_reducible refine OnlyChanges.foldl (fun _ _ => ?_) ?_
    | split

end Sys2Proof.Machine
end

