-- ==== Sys2Proof/Laws/FrameLoafCmd.lean ====
section
/-! SUPPORT. What the operations of Machine/LoafCmd.lean leave unchanged. -/

set_option Elab.async false

namespace Sys2Proof.Machine

theorem execLoafGroupDefine_frame (a0 a1 a2 a3 a4 s) : NextChanges [.recoveryLog, .groups, .events, .mailboxes,
    .counters, .crumbs, .out] s (execLoafGroupDefine a0 a1 a2 a3 a4 s) := by
  unfold execLoafGroupDefine
  repeat' first
    | with_reducible exact OnlyChanges.refl _ _
    | assumption
    | with_reducible refine onUnit_frame _ ?_
    | with_reducible refine next_frame ?_
    | with_reducible exact fault_frame _ _ _
    | with_reducible refine runCommand_frame _ _ _ (fun _ => ?_)
    | with_reducible refine modLoaf_frame _ ?_
    | with_reducible exact failWith_frame _ _ _
    | with_reducible refine okWith_frame ?_
    | with_reducible refine done_frame ?_
    | with_reducible refine fails_frame ?_
    | with_reducible refine later_frame ?_
    | with_reducible refine soon_frame ?_
    | with_reducible refine laterGrace_frame ?_
    | extract_lets
    | with_reducible refine OnlyChanges.getD (fun _ _ => ?_) ?_
    | with_reducible refine OnlyChanges.foldl (fun _ _ => ?_) ?_
    | split

theorem execLoafGroupDelete_frame (a0 a1 s) : NextChanges [.recoveryLog, .groups, .events, .mailboxes, .counters,
    .crumbs, .out] s (execLoafGroupDelete a0 a1 s) := by
  unfold execLoafGroupDelete
  repeat' first
    | with_reducible exact OnlyChanges.refl _ _
    | assumption
    | with_reducible refine onUnit_frame _ ?_
    | with_reducible refine next_frame ?_
    | with_reducible exact fault_frame _ _ _
    | with_reducible refine runCommand_frame _ _ _ (fun _ => ?_)
    | with_reducible refine modLoaf_frame _ ?_
    | with_reducible exact failWith_frame _ _ _
    | with_reducible refine okWith_frame ?_
    | with_reducible refine done_frame ?_
    | with_reducible refine fails_frame ?_
    | with_reducible refine later_frame ?_
    | with_reducible refine soon_frame ?_
    | with_reducible refine laterGrace_frame ?_
    | extract_lets
    | with_reducible refine OnlyChanges.getD (fun _ _ => ?_) ?_
    | with_reducible refine OnlyChanges.foldl (fun _ _ => ?_) ?_
    | split

theorem execLoafLive_frame (a0 a1 a2 a3 s) : NextChanges [.recoveryLog, .groups, .events, .mailboxes, .counters,
    .crumbs, .out] s (execLoafLive a0 a1 a2 a3 s) := by
  unfold execLoafLive
  repeat' first
    | with_reducible exact OnlyChanges.refl _ _
    | assumption
    | with_reducible refine onUnit_frame _ ?_
    | with_reducible refine next_frame ?_
    | with_reducible exact fault_frame _ _ _
    | with_reducible refine runCommand_frame _ _ _ (fun _ => ?_)
    | with_reducible refine modLoaf_frame _ ?_
    | with_reducible exact failWith_frame _ _ _
    | with_reducible refine okWith_frame ?_
    | with_reducible refine done_frame ?_
    | with_reducible refine fails_frame ?_
    | with_reducible refine later_frame ?_
    | with_reducible refine soon_frame ?_
    | with_reducible refine laterGrace_frame ?_
    | extract_lets
    | with_reducible refine OnlyChanges.getD (fun _ _ => ?_) ?_
    | with_reducible refine OnlyChanges.foldl (fun _ _ => ?_) ?_
    | split

theorem execLoafOpen_frame (a0 a1 a2 s) : NextChanges [.recoveryLog, .ports, .packets, .queues, .room, .numbering,
    .firmware, .tables, .loafs, .events, .mailboxes, .counters, .crumbs, .decisions, .out] s (execLoafOpen a0 a1 a2
    s) := by
  unfold execLoafOpen
  repeat' first
    | with_reducible exact OnlyChanges.refl _ _
    | assumption
    | with_reducible refine onUnit_frame _ ?_
    | with_reducible refine next_frame ?_
    | with_reducible exact fault_frame _ _ _
    | with_reducible refine runCommand_frame _ _ _ (fun _ => ?_)
    | with_reducible refine modLoaf_frame _ ?_
    | with_reducible refine (placeRound_frame _ _).before ?_
    | with_reducible exact failWith_frame _ _ _
    | with_reducible refine okWith_frame ?_
    | with_reducible refine done_frame ?_
    | with_reducible refine fails_frame ?_
    | with_reducible refine later_frame ?_
    | with_reducible refine soon_frame ?_
    | with_reducible refine laterGrace_frame ?_
    | extract_lets
    | with_reducible refine OnlyChanges.getD (fun _ _ => ?_) ?_
    | with_reducible refine OnlyChanges.foldl (fun _ _ => ?_) ?_
    | split

theorem beginClose_frame (a0 a1 a2 a3 s) : OnlyChanges [.recoveryLog, .ports, .packets, .queues, .room, .numbering,
    .firmware, .tables, .loafs, .events, .mailboxes, .regions, .counters, .crumbs, .out] s (beginClose a0 a1 a2 a3
    s) := by
  unfold beginClose
  repeat' first
    | with_reducible exact OnlyChanges.refl _ _
    | assumption
    | with_reducible refine (abortCtx_frame _ _ _).before ?_
    | with_reducible refine (sendCloses_frame _ _).after (by decide) ?_
    | with_reducible refine (settleClose_frame _ _).after (by decide) ?_
    | with_reducible refine (closeHere_frame _ _ _ _).before ?_
    | extract_lets
    | with_reducible refine OnlyChanges.getD (fun _ _ => ?_) ?_
    | with_reducible refine OnlyChanges.foldl (fun _ _ => ?_) ?_
    | split

theorem execLoafClose_frame (a0 a1 a2 a3 s) : NextChanges [.recoveryLog, .ports, .packets, .queues, .room,
    .numbering, .firmware, .tables, .loafs, .events, .mailboxes, .regions, .counters, .crumbs, .out] s
    (execLoafClose a0 a1 a2 a3 s) := by
  unfold execLoafClose
  repeat' first
    | with_reducible exact OnlyChanges.refl _ _
    | assumption
    | with_reducible refine onUnit_frame _ ?_
    | with_reducible refine next_frame ?_
    | with_reducible exact fault_frame _ _ _
    | with_reducible refine runCommand_frame _ _ _ (fun _ => ?_)
    | with_reducible refine modLoaf_frame _ ?_
    | with_reducible refine (beginClose_frame _ _ _ _ _).before ?_
    | with_reducible exact failWith_frame _ _ _
    | with_reducible refine okWith_frame ?_
    | with_reducible refine done_frame ?_
    | with_reducible refine fails_frame ?_
    | with_reducible refine later_frame ?_
    | with_reducible refine soon_frame ?_
    | with_reducible refine laterGrace_frame ?_
    | extract_lets
    | with_reducible refine OnlyChanges.getD (fun _ _ => ?_) ?_
    | with_reducible refine OnlyChanges.foldl (fun _ _ => ?_) ?_
    | split

theorem execLoafAbortCommand_frame (a0 a1 a2 s) : NextChanges [.recoveryLog, .ports, .packets, .queues, .room,
    .numbering, .firmware, .tables, .loafs, .events, .mailboxes, .regions, .counters, .crumbs, .out] s
    (execLoafAbortCommand a0 a1 a2 s) := by
  unfold execLoafAbortCommand
  repeat' first
    | with_reducible exact OnlyChanges.refl _ _
    | assumption
    | with_reducible refine onUnit_frame _ ?_
    | with_reducible refine next_frame ?_
    | with_reducible exact fault_frame _ _ _
    | with_reducible refine runCommand_frame _ _ _ (fun _ => ?_)
    | with_reducible refine (abortLoaf_frame _ _ _ _).before ?_
    | with_reducible exact failWith_frame _ _ _
    | with_reducible refine okWith_frame ?_
    | with_reducible refine done_frame ?_
    | with_reducible refine fails_frame ?_
    | with_reducible refine later_frame ?_
    | with_reducible refine soon_frame ?_
    | with_reducible refine laterGrace_frame ?_
    | extract_lets
    | with_reducible refine OnlyChanges.getD (fun _ _ => ?_) ?_
    | with_reducible refine OnlyChanges.foldl (fun _ _ => ?_) ?_
    | split

theorem abortGroup_frame (a0 a1 s) : OnlyChanges [.recoveryLog, .ports, .packets, .queues, .room, .numbering,
    .firmware, .tables, .loafs, .events, .mailboxes, .regions, .counters, .crumbs, .out] s (abortGroup a0 a1 s) :=
    by
  unfold abortGroup
  repeat' first
    | with_reducible exact OnlyChanges.refl _ _
    | assumption
    | with_reducible refine (abortCtx_frame _ _ _).before ?_
    | extract_lets
    | with_reducible refine OnlyChanges.getD (fun _ _ => ?_) ?_
    | with_reducible refine OnlyChanges.foldl (fun _ _ => ?_) ?_

theorem execLoafMemberLost_frame (a0 a1 a2 s) : NextChanges [.recoveryLog, .ports, .packets, .queues, .room,
    .numbering, .firmware, .tables, .loafs, .events, .mailboxes, .regions, .counters, .crumbs, .out] s
    (execLoafMemberLost a0 a1 a2 s) := by
  unfold execLoafMemberLost
  repeat' first
    | with_reducible exact OnlyChanges.refl _ _
    | assumption
    | with_reducible refine onUnit_frame _ ?_
    | with_reducible refine next_frame ?_
    | with_reducible exact fault_frame _ _ _
    | with_reducible refine runCommand_frame _ _ _ (fun _ => ?_)
    | with_reducible refine (abortGroup_frame _ _ _).before ?_
    | with_reducible exact failWith_frame _ _ _
    | with_reducible refine okWith_frame ?_
    | with_reducible refine done_frame ?_
    | with_reducible refine fails_frame ?_
    | with_reducible refine later_frame ?_
    | with_reducible refine soon_frame ?_
    | with_reducible refine laterGrace_frame ?_
    | extract_lets
    | with_reducible refine OnlyChanges.getD (fun _ _ => ?_) ?_
    | with_reducible refine OnlyChanges.foldl (fun _ _ => ?_) ?_
    | split

theorem execLoafSizing_frame (a0 a1 a2 a3 s) : NextChanges [.recoveryLog, .groups, .events, .mailboxes, .counters,
    .crumbs, .out] s (execLoafSizing a0 a1 a2 a3 s) := by
  unfold execLoafSizing
  repeat' first
    | with_reducible exact OnlyChanges.refl _ _
    | assumption
    | with_reducible refine onUnit_frame _ ?_
    | with_reducible refine next_frame ?_
    | with_reducible exact fault_frame _ _ _
    | with_reducible refine runCommand_frame _ _ _ (fun _ => ?_)
    | with_reducible refine modLoaf_frame _ ?_
    | with_reducible exact failWith_frame _ _ _
    | with_reducible refine okWith_frame ?_
    | with_reducible refine done_frame ?_
    | with_reducible refine fails_frame ?_
    | with_reducible refine later_frame ?_
    | with_reducible refine soon_frame ?_
    | with_reducible refine laterGrace_frame ?_
    | extract_lets
    | with_reducible refine OnlyChanges.getD (fun _ _ => ?_) ?_
    | with_reducible refine OnlyChanges.foldl (fun _ _ => ?_) ?_
    | split

theorem execLoafKnead_frame (a0 a1 a2 a3 a4 s) : NextChanges [.alert, .flash, .recoveryLog, .loafs, .events,
    .mailboxes, .counters, .crumbs, .out] s (execLoafKnead a0 a1 a2 a3 a4 s) := by
  unfold execLoafKnead
  repeat' first
    | with_reducible exact OnlyChanges.refl _ _
    | assumption
    | with_reducible refine onUnit_frame _ ?_
    | with_reducible refine next_frame ?_
    | with_reducible exact fault_frame _ _ _
    | with_reducible refine runCommand_frame _ _ _ (fun _ => ?_)
    | with_reducible refine (modConfig_frame _ _).after (by decide) ?_
    | with_reducible refine modLoaf_frame _ ?_
    | with_reducible exact failWith_frame _ _ _
    | with_reducible refine okWith_frame ?_
    | with_reducible refine done_frame ?_
    | with_reducible refine fails_frame ?_
    | with_reducible refine later_frame ?_
    | with_reducible refine soon_frame ?_
    | with_reducible refine laterGrace_frame ?_
    | extract_lets
    | with_reducible refine OnlyChanges.getD (fun _ _ => ?_) ?_
    | with_reducible refine OnlyChanges.foldl (fun _ _ => ?_) ?_
    | split

theorem execLoafRecipes_frame (a0 a1 s) : NextChanges [.recoveryLog, .events, .mailboxes, .counters, .crumbs, .out]
    s (execLoafRecipes a0 a1 s) := by
  unfold execLoafRecipes
  repeat' first
    | with_reducible exact OnlyChanges.refl _ _
    | assumption
    | with_reducible refine onUnit_frame _ ?_
    | with_reducible refine next_frame ?_
    | with_reducible exact fault_frame _ _ _
    | with_reducible refine runCommand_frame _ _ _ (fun _ => ?_)
    | with_reducible exact failWith_frame _ _ _
    | with_reducible refine okWith_frame ?_
    | with_reducible refine done_frame ?_
    | with_reducible refine fails_frame ?_
    | with_reducible refine later_frame ?_
    | with_reducible refine soon_frame ?_
    | with_reducible refine laterGrace_frame ?_
    | extract_lets
    | with_reducible refine OnlyChanges.getD (fun _ _ => ?_) ?_
    | with_reducible refine OnlyChanges.foldl (fun _ _ => ?_) ?_
    | split

end Sys2Proof.Machine
end

