-- ==== Sys2Proof/Laws/FrameMillOps.lean ====
section
/-! SUPPORT. What the operations of Machine/MillOps.lean leave unchanged. -/

set_option Elab.async false

namespace Sys2Proof.Machine

theorem modMill_frame {qs : List Part} {s x : State} (f : MillState → MillState) (h : OnlyChanges qs s x)
    (hk : KeptMill qs x.mill (f x.mill) := by
      (refine KeptMill.lit ?_; first | exact Or.inl (by decide) | exact Or.inr ⟨rfl, rfl, rfl, rfl, rfl, rfl, rfl, rfl, rfl, rfl⟩)) : OnlyChanges qs s (modMill f x) :=
  OnlyChanges.upd rfl h (hmill := hk)

theorem modDctx_frame (a0 a1 s) : OnlyChanges [.mill] s (modDctx a0 a1 s) := by
  unfold modDctx
  repeat' first
    | with_reducible exact OnlyChanges.refl _ _
    | assumption
    | with_reducible refine modMill_frame _ ?_
    | extract_lets
    | with_reducible refine OnlyChanges.getD (fun _ _ => ?_) ?_
    | with_reducible refine OnlyChanges.foldl (fun _ _ => ?_) ?_
    | split

theorem countMill_frame (a0 a1 s) : OnlyChanges [.recoveryLog, .events, .counters, .crumbs] s (countMill a0 a1 s)
    := by
  unfold countMill
  repeat' first
    | with_reducible exact OnlyChanges.refl _ _
    | assumption
    | with_reducible refine (count_frame _ _ _).before ?_

theorem modToken_frame (a0 a1 a2 a3 s) : OnlyChanges [.mill] s (modToken a0 a1 a2 a3 s) := by
  unfold modToken
  repeat' first
    | with_reducible exact OnlyChanges.refl _ _
    | assumption
    | with_reducible refine (modDctx_frame _ _ _).before ?_

theorem failureReturn_frame (a0 a1 a2 s) : OnlyChanges [.recoveryLog, .ports, .packets, .queues, .room, .numbering,
    .firmware, .tables, .events, .counters, .crumbs] s (failureReturn a0 a1 a2 s) := by
  unfold failureReturn
  repeat' first
    | with_reducible exact OnlyChanges.refl _ _
    | assumption
    | with_reducible refine (originate_frame _ _ _).before ?_

theorem modReplicas_frame (a0 a1 a2 s) : OnlyChanges [.mill] s (modReplicas a0 a1 a2 s) := by
  unfold modReplicas
  repeat' first
    | with_reducible exact OnlyChanges.refl _ _
    | assumption
    | with_reducible refine (modDctx_frame _ _ _).before ?_

theorem dropCount_frame (a0 a1 s) : OnlyChanges [.mill] s (dropCount a0 a1 s) := by
  unfold dropCount
  repeat' first
    | with_reducible exact OnlyChanges.refl _ _
    | assumption
    | with_reducible refine (modReplicas_frame _ _ _ _).before ?_
    | extract_lets
    | with_reducible refine OnlyChanges.getD (fun _ _ => ?_) ?_
    | with_reducible refine OnlyChanges.foldl (fun _ _ => ?_) ?_
    | split

theorem settleMill_frame (s) : OnlyChanges [.recoveryLog, .events, .mailboxes, .mill, .counters, .crumbs, .out] s
    (settleMill s) := by
  unfold settleMill
  repeat' first
    | with_reducible exact OnlyChanges.refl _ _
    | assumption
    | with_reducible refine (finish_frame _ _ _ _).after (by decide) ?_
    | with_reducible refine (modDctx_frame _ _ _).after (by decide) ?_
    | with_reducible refine modMill_frame _ ?_
    | extract_lets
    | with_reducible refine OnlyChanges.getD (fun _ _ => ?_) ?_
    | with_reducible refine OnlyChanges.foldl (fun _ _ => ?_) ?_
    | split

theorem removeToken_frame (a0 a1 s) : OnlyChanges [.recoveryLog, .events, .mailboxes, .mill, .counters, .crumbs,
    .out] s (removeToken a0 a1 s) := by
  unfold removeToken
  repeat' first
    | with_reducible exact OnlyChanges.refl _ _
    | assumption
    | with_reducible refine (settleMill_frame _).before ?_
    | with_reducible refine (modDctx_frame _ _ _).after (by decide) ?_
    | with_reducible refine (dropCount_frame _ _ _).after (by decide) ?_
    | extract_lets
    | with_reducible refine OnlyChanges.getD (fun _ _ => ?_) ?_
    | with_reducible refine OnlyChanges.foldl (fun _ _ => ?_) ?_

theorem failToken_frame (a0 a1 a2 s) : OnlyChanges [.recoveryLog, .ports, .packets, .queues, .room, .numbering,
    .firmware, .tables, .events, .mailboxes, .mill, .counters, .crumbs, .out] s (failToken a0 a1 a2 s) := by
  unfold failToken
  repeat' first
    | with_reducible exact OnlyChanges.refl _ _
    | assumption
    | with_reducible refine (removeToken_frame _ _ _).after (by decide) ?_
    | with_reducible refine (failureReturn_frame _ _ _ _).after (by decide) ?_
    | extract_lets
    | with_reducible refine OnlyChanges.getD (fun _ _ => ?_) ?_
    | with_reducible refine OnlyChanges.foldl (fun _ _ => ?_) ?_
    | split

theorem discardToken_frame (a0 a1 a2 s) : OnlyChanges [.recoveryLog, .events, .mailboxes, .mill, .counters,
    .crumbs, .out] s (discardToken a0 a1 a2 s) := by
  unfold discardToken
  repeat' first
    | with_reducible exact OnlyChanges.refl _ _
    | assumption
    | with_reducible refine (removeToken_frame _ _ _).before ?_
    | extract_lets
    | with_reducible refine OnlyChanges.getD (fun _ _ => ?_) ?_
    | with_reducible refine OnlyChanges.foldl (fun _ _ => ?_) ?_
    | split

theorem failTokens_frame (a0 a1 s) : OnlyChanges [.recoveryLog, .ports, .packets, .queues, .room, .numbering,
    .firmware, .tables, .events, .mailboxes, .mill, .counters, .crumbs, .out] s (failTokens a0 a1 s) := by
  unfold failTokens
  repeat' first
    | with_reducible exact OnlyChanges.refl _ _
    | assumption
    | with_reducible refine (failToken_frame _ _ _ _).before ?_
    | extract_lets
    | with_reducible refine OnlyChanges.getD (fun _ _ => ?_) ?_
    | with_reducible refine OnlyChanges.foldl (fun _ _ => ?_) ?_
    | split

theorem closeBatch_frame (a0 s) : OnlyChanges [.mill] s (closeBatch a0 s) := by
  unfold closeBatch
  repeat' first
    | with_reducible exact OnlyChanges.refl _ _
    | assumption
    | with_reducible refine modMill_frame _ ?_
    | with_reducible refine (modDctx_frame _ _ _).before ?_
    | extract_lets
    | with_reducible refine OnlyChanges.getD (fun _ _ => ?_) ?_
    | with_reducible refine OnlyChanges.foldl (fun _ _ => ?_) ?_
    | split

theorem countSteps_frame (a0 a1 a2 a3 s) : OnlyChanges [.recoveryLog, .events, .counters, .crumbs] s (countSteps a0
    a1 a2 a3 s) := by
  unfold countSteps
  repeat' first
    | with_reducible exact OnlyChanges.refl _ _
    | assumption
    | with_reducible refine (countMill_frame _ _ _).before ?_
    | extract_lets
    | with_reducible refine OnlyChanges.getD (fun _ _ => ?_) ?_
    | with_reducible refine OnlyChanges.foldl (fun _ _ => ?_) ?_
    | split

theorem setSram_frame (a0 a1 a2 s) : OnlyChanges [.mill] s (setSram a0 a1 a2 s) := by
  unfold setSram
  repeat' first
    | with_reducible exact OnlyChanges.refl _ _
    | assumption
    | with_reducible refine modMill_frame _ ?_

theorem putElem_frame (a0 a1 a2 s) : OnlyChanges [.mill] s (putElem a0 a1 a2 s) := by
  unfold putElem
  repeat' first
    | with_reducible exact OnlyChanges.refl _ _
    | assumption
    | with_reducible refine (setSram_frame _ _ _ _).before ?_
    | extract_lets
    | with_reducible refine OnlyChanges.getD (fun _ _ => ?_) ?_
    | with_reducible refine OnlyChanges.foldl (fun _ _ => ?_) ?_

theorem runMma_frame (a0 a1 a2 s) : OnlyChanges [.recoveryLog, .events, .mill, .counters, .crumbs] s (runMma a0 a1
    a2 s) := by
  unfold runMma
  repeat' first
    | with_reducible exact OnlyChanges.refl _ _
    | assumption
    | with_reducible refine (countSteps_frame _ _ _ _ _).after (by decide) ?_
    | with_reducible refine (putElem_frame _ _ _ _).after (by decide) ?_
    | extract_lets
    | with_reducible refine OnlyChanges.getD (fun _ _ => ?_) ?_
    | with_reducible refine OnlyChanges.foldl (fun _ _ => ?_) ?_

theorem runVec_frame (a0 a1 a2 s) : OnlyChanges [.mill] s (runVec a0 a1 a2 s) := by
  unfold runVec
  repeat' first
    | with_reducible exact OnlyChanges.refl _ _
    | assumption
    | with_reducible refine (putElem_frame _ _ _ _).before ?_
    | extract_lets
    | with_reducible refine OnlyChanges.getD (fun _ _ => ?_) ?_
    | with_reducible refine OnlyChanges.foldl (fun _ _ => ?_) ?_

theorem modProgram_frame (a0 a1 s) : OnlyChanges [.mill] s (modProgram a0 a1 s) := by
  unfold modProgram
  repeat' first
    | with_reducible exact OnlyChanges.refl _ _
    | assumption
    | with_reducible refine modMill_frame _ ?_
    | extract_lets
    | with_reducible refine OnlyChanges.getD (fun _ _ => ?_) ?_
    | with_reducible refine OnlyChanges.foldl (fun _ _ => ?_) ?_
    | split

theorem endProgram_frame (a0 a1 s) : OnlyChanges [.recoveryLog, .events, .mailboxes, .mill, .counters, .crumbs,
    .out] s (endProgram a0 a1 s) := by
  unfold endProgram
  repeat' first
    | with_reducible exact OnlyChanges.refl _ _
    | assumption
    | with_reducible refine (settleMill_frame _).before ?_
    | with_reducible refine (raiseOwner_frame _ _ _ _ _).after (by decide) ?_
    | with_reducible refine (modProgram_frame _ _ _).after (by decide) ?_
    | extract_lets
    | with_reducible refine OnlyChanges.getD (fun _ _ => ?_) ?_
    | with_reducible refine OnlyChanges.foldl (fun _ _ => ?_) ?_
    | split

theorem runCopy_frame (a0 a1 s) : OnlyChanges [.mill, .memory] s (runCopy a0 a1 s) := by
  unfold runCopy
  repeat' first
    | with_reducible exact OnlyChanges.refl _ _
    | assumption
    | with_reducible refine (putElem_frame _ _ _ _).after (by decide) ?_
    | with_reducible refine (writeBytes_frame _ _ _ _).after (by decide) ?_
    | extract_lets
    | with_reducible refine OnlyChanges.getD (fun _ _ => ?_) ?_
    | with_reducible refine OnlyChanges.foldl (fun _ _ => ?_) ?_
    | split

theorem bumpCounter_frame (a0 a1 a2 s) : OnlyChanges [.mill] s (bumpCounter a0 a1 a2 s) := by
  unfold bumpCounter
  repeat' first
    | with_reducible exact OnlyChanges.refl _ _
    | assumption
    | with_reducible refine (modProgram_frame _ _ _).before ?_

theorem fenceMill_frame (a0 s) : OnlyChanges [.recoveryLog, .events, .mailboxes, .mill, .counters, .crumbs, .out] s
    (fenceMill a0 s) := by
  unfold fenceMill
  repeat' first
    | with_reducible exact OnlyChanges.refl _ _
    | assumption
    | with_reducible refine (modDctx_frame _ _ _).after (by decide) ?_
    | with_reducible refine (discardToken_frame _ _ _ _).before ?_
    | with_reducible refine modMill_frame _ ?_
    | with_reducible refine (endProgram_frame _ _ _).before ?_
    | extract_lets
    | with_reducible refine OnlyChanges.getD (fun _ _ => ?_) ?_
    | with_reducible refine OnlyChanges.foldl (fun _ _ => ?_) ?_

theorem endpointDownMill_frame (a0 s) : OnlyChanges [.recoveryLog, .ports, .packets, .queues, .room, .numbering,
    .firmware, .tables, .events, .mailboxes, .mill, .counters, .crumbs, .out] s (endpointDownMill a0 s) := by
  unfold endpointDownMill
  repeat' first
    | with_reducible exact OnlyChanges.refl _ _
    | assumption
    | with_reducible refine (modDctx_frame _ _ _).after (by decide) ?_
    | with_reducible refine (countMill_frame _ _ _).after (by decide) ?_
    | with_reducible refine (failTokens_frame _ _ _).before ?_
    | with_reducible refine (discardToken_frame _ _ _ _).after (by decide) ?_
    | extract_lets
    | with_reducible refine OnlyChanges.getD (fun _ _ => ?_) ?_
    | with_reducible refine OnlyChanges.foldl (fun _ _ => ?_) ?_
    | split

end Sys2Proof.Machine
end

