-- ==== Sys2Proof/Laws/FrameMill.lean ====
section
/-! SUPPORT. What the operations of Machine/Mill.lean leave unchanged. -/

set_option Elab.async false

namespace Sys2Proof.Machine

theorem addPart_frame (a0 a1 a2 s) : OnlyChanges [.mill] s (addPart a0 a1 a2 s) := by
  unfold addPart
  repeat' first
    | with_reducible exact OnlyChanges.refl _ _
    | assumption
    | with_reducible refine (modDctx_frame _ _ _).before ?_

theorem closeFull_frame (a0 s) : OnlyChanges [.mill] s (closeFull a0 s) := by
  unfold closeFull
  repeat' first
    | with_reducible exact OnlyChanges.refl _ _
    | assumption
    | with_reducible refine (closeBatch_frame _ _).before ?_
    | extract_lets
    | with_reducible refine OnlyChanges.getD (fun _ _ => ?_) ?_
    | with_reducible refine OnlyChanges.foldl (fun _ _ => ?_) ?_
    | split

theorem execDispatchRx_frame (s) : NextChanges [.recoveryLog, .ports, .packets, .queues, .room, .numbering,
    .firmware, .tables, .events, .mill, .counters, .crumbs] s (execDispatchRx s) := by
  unfold execDispatchRx
  repeat' first
    | with_reducible exact OnlyChanges.refl _ _
    | assumption
    | with_reducible refine onUnit_frame _ ?_
    | with_reducible refine next_frame ?_
    | with_reducible exact fault_frame _ _ _
    | with_reducible refine (takeDelivered_frame _ _ (_, _) (by assumption)).after (by decide) ?_
    | with_reducible refine (countMill_frame _ _ _).after (by decide) ?_
    | with_reducible refine (closeFull_frame _ _).after (by decide) ?_
    | with_reducible refine (addPart_frame _ _ _ _).after (by decide) ?_
    | with_reducible refine (failureReturn_frame _ _ _ _).after (by decide) ?_
    | extract_lets
    | with_reducible refine OnlyChanges.getD (fun _ _ => ?_) ?_
    | with_reducible refine OnlyChanges.foldl (fun _ _ => ?_) ?_
    | split

theorem execBatchWaitExpiry_frame (a0 s) : NextChanges [.mill] s (execBatchWaitExpiry a0 s) := by
  unfold execBatchWaitExpiry
  repeat' first
    | with_reducible exact OnlyChanges.refl _ _
    | assumption
    | with_reducible refine onUnit_frame _ ?_
    | with_reducible refine next_frame ?_
    | with_reducible exact fault_frame _ _ _
    | with_reducible refine (closeBatch_frame _ _).before ?_

theorem accessFault_frame (a0 s) : OnlyChanges [.recoveryLog, .events, .mailboxes, .mill, .counters, .crumbs, .out]
    s (accessFault a0 s) := by
  unfold accessFault
  repeat' first
    | with_reducible exact OnlyChanges.refl _ _
    | assumption
    | with_reducible refine (endProgram_frame _ _ _).before ?_

theorem issueInstr_frame (a0 s) : OnlyChanges [.recoveryLog, .events, .mailboxes, .mill, .counters, .crumbs, .out]
    s (issueInstr a0 s) := by
  unfold issueInstr
  repeat' first
    | with_reducible exact OnlyChanges.refl _ _
    | assumption
    | with_reducible refine modMill_frame _ ?_
    | with_reducible refine (modProgram_frame _ _ _).after (by decide) ?_
    | with_reducible refine (endProgram_frame _ _ _).before ?_
    | with_reducible refine (accessFault_frame _ _).before ?_
    | with_reducible refine (bumpCounter_frame _ _ _ _).after (by decide) ?_
    | with_reducible refine (raiseOwner_frame _ _ _ _ _).after (by decide) ?_
    | extract_lets
    | with_reducible refine OnlyChanges.getD (fun _ _ => ?_) ?_
    | with_reducible refine OnlyChanges.foldl (fun _ _ => ?_) ?_
    | split

theorem execMillInstructionIssue_frame (s) : NextChanges [.recoveryLog, .events, .mailboxes, .mill, .counters,
    .crumbs, .out] s (execMillInstructionIssue s) := by
  unfold execMillInstructionIssue
  repeat' first
    | with_reducible exact OnlyChanges.refl _ _
    | assumption
    | with_reducible refine onUnit_frame _ ?_
    | with_reducible refine next_frame ?_
    | with_reducible exact fault_frame _ _ _
    | with_reducible refine modMill_frame _ ?_
    | with_reducible refine (issueInstr_frame _ _).before ?_
    | extract_lets
    | with_reducible refine OnlyChanges.getD (fun _ _ => ?_) ?_
    | with_reducible refine OnlyChanges.foldl (fun _ _ => ?_) ?_
    | split

theorem routeToken_frame (a0 a1 a2 s) : OnlyChanges [.recoveryLog, .ports, .packets, .queues, .room, .numbering,
    .firmware, .tables, .events, .mailboxes, .mill, .counters, .crumbs, .out] s (routeToken a0 a1 a2 s) := by
  unfold routeToken
  repeat' first
    | with_reducible exact OnlyChanges.refl _ _
    | assumption
    | with_reducible refine (failToken_frame _ _ _ _).before ?_
    | with_reducible refine (countMill_frame _ _ _).after (by decide) ?_
    | with_reducible refine (modToken_frame _ _ _ _ _).after (by decide) ?_
    | extract_lets
    | with_reducible refine OnlyChanges.getD (fun _ _ => ?_) ?_
    | with_reducible refine OnlyChanges.foldl (fun _ _ => ?_) ?_
    | split

theorem reloadBad_frame (s) : OnlyChanges [.mill] s (reloadBad s) := by
  unfold reloadBad
  repeat' first
    | with_reducible exact OnlyChanges.refl _ _
    | assumption
    | with_reducible refine modMill_frame _ ?_
    | extract_lets
    | with_reducible refine OnlyChanges.getD (fun _ _ => ?_) ?_
    | with_reducible refine OnlyChanges.foldl (fun _ _ => ?_) ?_

theorem routeBatch_frame (a0 a1 s) : OnlyChanges [.recoveryLog, .ports, .packets, .queues, .room, .numbering,
    .firmware, .tables, .events, .mailboxes, .mill, .counters, .crumbs, .out] s (routeBatch a0 a1 s) := by
  unfold routeBatch
  repeat' first
    | with_reducible exact OnlyChanges.refl _ _
    | assumption
    | with_reducible refine (reloadBad_frame _).after (by decide) ?_
    | with_reducible refine (routeToken_frame _ _ _ _).before ?_
    | with_reducible refine (countSteps_frame _ _ _ _ _).after (by decide) ?_
    | extract_lets
    | with_reducible refine OnlyChanges.getD (fun _ _ => ?_) ?_
    | with_reducible refine OnlyChanges.foldl (fun _ _ => ?_) ?_

theorem execRouterMmaDone_frame (s) : NextChanges [.recoveryLog, .ports, .packets, .queues, .room, .numbering,
    .firmware, .tables, .events, .mailboxes, .mill, .counters, .crumbs, .out] s (execRouterMmaDone s) := by
  unfold execRouterMmaDone
  repeat' first
    | with_reducible exact OnlyChanges.refl _ _
    | assumption
    | with_reducible refine onUnit_frame _ ?_
    | with_reducible refine next_frame ?_
    | with_reducible exact fault_frame _ _ _
    | with_reducible refine modMill_frame _ ?_
    | with_reducible refine (routeBatch_frame _ _ _).before ?_
    | extract_lets
    | with_reducible refine OnlyChanges.getD (fun _ _ => ?_) ?_
    | with_reducible refine OnlyChanges.foldl (fun _ _ => ?_) ?_
    | split

theorem runIssued_frame (a0 a1 a2 s) : OnlyChanges [.recoveryLog, .events, .mailboxes, .mill, .counters, .crumbs,
    .out] s (runIssued a0 a1 a2 s) := by
  unfold runIssued
  repeat' first
    | with_reducible exact OnlyChanges.refl _ _
    | assumption
    | with_reducible refine (runMma_frame _ _ _ _).after (by decide) ?_
    | with_reducible refine (runVec_frame _ _ _ _).after (by decide) ?_
    | with_reducible refine (endProgram_frame _ _ _).before ?_
    | extract_lets
    | with_reducible refine OnlyChanges.getD (fun _ _ => ?_) ?_
    | with_reducible refine OnlyChanges.foldl (fun _ _ => ?_) ?_
    | split
    | extract_lets +lift
    | with_reducible refine OnlyChanges.foldl_fst (fun _ _ => ?_) ?_
    | with_reducible refine OnlyChanges.foldl_snd (fun _ _ => ?_) ?_
    | with_reducible refine OnlyChanges.of_fst (by assumption) ?_
    | with_reducible refine OnlyChanges.of_snd (by assumption) ?_
    | fail_if_no_progress (with_reducible refine OnlyChanges.upd rfl ?_)
    | dsimp +zetaDelta only []

theorem execMmaDone_frame (s) : NextChanges [.recoveryLog, .events, .mailboxes, .mill, .counters, .crumbs, .out] s
    (execMmaDone s) := by
  unfold execMmaDone
  repeat' first
    | with_reducible exact OnlyChanges.refl _ _
    | assumption
    | with_reducible refine onUnit_frame _ ?_
    | with_reducible refine next_frame ?_
    | with_reducible exact fault_frame _ _ _
    | with_reducible refine modMill_frame _ ?_
    | with_reducible refine (runIssued_frame _ _ _ _).before ?_
    | extract_lets
    | with_reducible refine OnlyChanges.getD (fun _ _ => ?_) ?_
    | with_reducible refine OnlyChanges.foldl (fun _ _ => ?_) ?_
    | split

theorem finishCopy_frame (a0 a1 a2 a3 a4 s) : OnlyChanges [.recoveryLog, .gates, .events, .mailboxes, .mill,
    .regions, .memory, .mirrors, .counters, .crumbs, .out] s (finishCopy a0 a1 a2 a3 a4 s) := by
  unfold finishCopy
  repeat' first
    | with_reducible exact OnlyChanges.refl _ _
    | assumption
    | with_reducible refine (meetErrors_frame _ _ _ _ _).after (by decide) ?_
    | with_reducible refine (startWork_frame _ _ _ _).after (by decide) ?_
    | with_reducible refine (modProgram_frame _ _ _).after (by decide) ?_
    | with_reducible refine (accessFault_frame _ _).after (by decide) ?_
    | with_reducible refine (bumpCounter_frame _ _ _ _).after (by decide) ?_
    | with_reducible refine (runCopy_frame _ _ _).after (by decide) ?_
    | extract_lets
    | with_reducible refine OnlyChanges.getD (fun _ _ => ?_) ?_
    | with_reducible refine OnlyChanges.foldl (fun _ _ => ?_) ?_
    | split

theorem execMillCopyDone_frame (a0 a1 a2 s) : NextChanges [.recoveryLog, .gates, .events, .mailboxes, .mill,
    .regions, .memory, .mirrors, .counters, .crumbs, .out] s (execMillCopyDone a0 a1 a2 s) := by
  unfold execMillCopyDone
  repeat' first
    | with_reducible exact OnlyChanges.refl _ _
    | assumption
    | with_reducible refine onUnit_frame _ ?_
    | with_reducible refine next_frame ?_
    | with_reducible exact fault_frame _ _ _
    | with_reducible refine (finishCopy_frame _ _ _ _ _ _).before ?_
    | extract_lets
    | with_reducible refine OnlyChanges.getD (fun _ _ => ?_) ?_
    | with_reducible refine OnlyChanges.foldl (fun _ _ => ?_) ?_
    | split

theorem execProgramStalenessExpiry_frame (a0 s) : NextChanges [.alert, .lastLevel, .recoveryLog, .events,
    .mailboxes, .mill, .counters, .crumbs, .out] s (execProgramStalenessExpiry a0 s) := by
  unfold execProgramStalenessExpiry
  repeat' first
    | with_reducible exact OnlyChanges.refl _ _
    | assumption
    | with_reducible refine onUnit_frame _ ?_
    | with_reducible refine next_frame ?_
    | with_reducible exact fault_frame _ _ _
    | with_reducible refine (endProgram_frame _ _ _).after (by decide) ?_
    | with_reducible refine (staleCrumb_frame _ _ _ _).after (by decide) ?_
    | extract_lets
    | with_reducible refine OnlyChanges.getD (fun _ _ => ?_) ?_
    | with_reducible refine OnlyChanges.foldl (fun _ _ => ?_) ?_
    | split

theorem countReplica_frame (a0 a1 a2 a3 s) : OnlyChanges [.recoveryLog, .events, .counters, .crumbs] s
    (countReplica a0 a1 a2 a3 s) := by
  unfold countReplica
  repeat' first
    | with_reducible exact OnlyChanges.refl _ _
    | assumption
    | with_reducible refine (count_frame _ _ _).before ?_

theorem modSlot_frame (a0 a1 a2 a3 a4 s) : OnlyChanges [.mill] s (modSlot a0 a1 a2 a3 a4 s) := by
  unfold modSlot
  repeat' first
    | with_reducible exact OnlyChanges.refl _ _
    | assumption
    | with_reducible refine (modToken_frame _ _ _ _ _).before ?_

theorem chooseReplica_frame (a0 a1 a2 a3 a4 a5 s) : OnlyChanges [.recoveryLog, .events, .mill, .counters, .crumbs]
    s (chooseReplica a0 a1 a2 a3 a4 a5 s) := by
  unfold chooseReplica
  repeat' first
    | with_reducible exact OnlyChanges.refl _ _
    | assumption
    | with_reducible refine (modToken_frame _ _ _ _ _).after (by decide) ?_
    | with_reducible refine (countReplica_frame _ _ _ _ _).after (by decide) ?_
    | with_reducible refine (modSlot_frame _ _ _ _ _ _).after (by decide) ?_
    | with_reducible refine (modReplicas_frame _ _ _ _).after (by decide) ?_
    | with_reducible refine (modDctx_frame _ _ _).after (by decide) ?_
    | with_reducible refine (countMill_frame _ _ _).after (by decide) ?_
    | extract_lets
    | with_reducible refine OnlyChanges.getD (fun _ _ => ?_) ?_
    | with_reducible refine OnlyChanges.foldl (fun _ _ => ?_) ?_
    | split

theorem execReplicaChoice_frame (a0 a1 a2 a3 s) : NextChanges [.recoveryLog, .events, .mill, .counters, .crumbs] s
    (execReplicaChoice a0 a1 a2 a3 s) := by
  unfold execReplicaChoice
  repeat' first
    | with_reducible exact OnlyChanges.refl _ _
    | assumption
    | with_reducible refine onUnit_frame _ ?_
    | with_reducible refine next_frame ?_
    | with_reducible exact fault_frame _ _ _
    | with_reducible refine (chooseReplica_frame _ _ _ _ _ _ _).before ?_
    | extract_lets
    | with_reducible refine OnlyChanges.getD (fun _ _ => ?_) ?_
    | with_reducible refine OnlyChanges.foldl (fun _ _ => ?_) ?_
    | split

theorem sendZeros_frame (a0 a1 a2 s) : OnlyChanges [.recoveryLog, .ports, .packets, .queues, .room, .numbering,
    .firmware, .tables, .events, .counters, .crumbs] s (sendZeros a0 a1 a2 s) := by
  unfold sendZeros
  repeat' first
    | with_reducible exact OnlyChanges.refl _ _
    | assumption
    | with_reducible refine (originate_frame _ _ _).before ?_
    | extract_lets
    | with_reducible refine OnlyChanges.getD (fun _ _ => ?_) ?_
    | with_reducible refine OnlyChanges.foldl (fun _ _ => ?_) ?_

theorem sendExperts_frame (a0 a1 a2 s) : OnlyChanges [.recoveryLog, .ports, .packets, .queues, .room, .numbering,
    .firmware, .tables, .events, .counters, .crumbs] s (sendExperts a0 a1 a2 s) := by
  unfold sendExperts
  repeat' first
    | with_reducible exact OnlyChanges.refl _ _
    | assumption
    | with_reducible refine (originate_frame _ _ _).before ?_
    | extract_lets
    | with_reducible refine OnlyChanges.getD (fun _ _ => ?_) ?_
    | with_reducible refine OnlyChanges.foldl (fun _ _ => ?_) ?_

theorem execTokenDispatch_frame (a0 a1 a2 s) : NextChanges [.recoveryLog, .ports, .packets, .queues, .room,
    .numbering, .firmware, .tables, .events, .mailboxes, .mill, .counters, .crumbs, .out] s (execTokenDispatch a0
    a1 a2 s) := by
  unfold execTokenDispatch
  repeat' first
    | with_reducible exact OnlyChanges.refl _ _
    | assumption
    | with_reducible refine onUnit_frame _ ?_
    | with_reducible refine next_frame ?_
    | with_reducible exact fault_frame _ _ _
    | with_reducible refine (removeToken_frame _ _ _).after (by decide) ?_
    | with_reducible refine (sendZeros_frame _ _ _ _).after (by decide) ?_
    | with_reducible refine (modToken_frame _ _ _ _ _).after (by decide) ?_
    | with_reducible refine (sendExperts_frame _ _ _ _).after (by decide) ?_
    | extract_lets
    | with_reducible refine OnlyChanges.getD (fun _ _ => ?_) ?_
    | with_reducible refine OnlyChanges.foldl (fun _ _ => ?_) ?_
    | split

theorem tryCombine_frame (a0 a1 a2 a3 s) : OnlyChanges [.recoveryLog, .ports, .packets, .queues, .room, .numbering,
    .firmware, .tables, .events, .mailboxes, .mill, .counters, .crumbs, .out] s (tryCombine a0 a1 a2 a3 s) := by
  unfold tryCombine
  repeat' first
    | with_reducible exact OnlyChanges.refl _ _
    | assumption
    | with_reducible refine (originate_frame _ _ _).after (by decide) ?_
    | with_reducible refine (countKnead_frame _ _ _ _).after (by decide) ?_
    | with_reducible refine (removeToken_frame _ _ _).after (by decide) ?_
    | with_reducible refine (modToken_frame _ _ _ _ _).after (by decide) ?_
    | extract_lets
    | with_reducible refine OnlyChanges.getD (fun _ _ => ?_) ?_
    | with_reducible refine OnlyChanges.foldl (fun _ _ => ?_) ?_
    | split

theorem holdReturn_frame (a0 a1 a2 a3 a4 s) : OnlyChanges [.recoveryLog, .events, .mill, .counters, .crumbs] s
    (holdReturn a0 a1 a2 a3 a4 s) := by
  unfold holdReturn
  repeat' first
    | with_reducible exact OnlyChanges.refl _ _
    | assumption
    | with_reducible refine (countKnead_frame _ _ _ _).after (by decide) ?_
    | with_reducible refine (dropCount_frame _ _ _).after (by decide) ?_
    | with_reducible refine (modSlot_frame _ _ _ _ _ _).after (by decide) ?_
    | extract_lets
    | with_reducible refine OnlyChanges.getD (fun _ _ => ?_) ?_
    | with_reducible refine OnlyChanges.foldl (fun _ _ => ?_) ?_
    | split

theorem execExpertReturnRx_frame (s) : NextChanges [.recoveryLog, .ports, .packets, .queues, .room, .numbering,
    .firmware, .tables, .events, .mailboxes, .mill, .counters, .crumbs, .out] s (execExpertReturnRx s) := by
  unfold execExpertReturnRx
  repeat' first
    | with_reducible exact OnlyChanges.refl _ _
    | assumption
    | with_reducible refine onUnit_frame _ ?_
    | with_reducible refine next_frame ?_
    | with_reducible exact fault_frame _ _ _
    | with_reducible refine (takeDelivered_frame _ _ (_, _) (by assumption)).after (by decide) ?_
    | with_reducible refine (countMill_frame _ _ _).after (by decide) ?_
    | with_reducible refine (tryCombine_frame _ _ _ _ _).before ?_
    | with_reducible refine (holdReturn_frame _ _ _ _ _ _).after (by decide) ?_
    | extract_lets
    | with_reducible refine OnlyChanges.getD (fun _ _ => ?_) ?_
    | with_reducible refine OnlyChanges.foldl (fun _ _ => ?_) ?_
    | split

theorem execTokenStalenessExpiry_frame (a0 a1 a2 s) : NextChanges [.alert, .lastLevel, .recoveryLog, .ports,
    .packets, .queues, .room, .numbering, .firmware, .tables, .events, .mailboxes, .mill, .counters, .crumbs, .out]
    s (execTokenStalenessExpiry a0 a1 a2 s) := by
  unfold execTokenStalenessExpiry
  repeat' first
    | with_reducible exact OnlyChanges.refl _ _
    | assumption
    | with_reducible refine onUnit_frame _ ?_
    | with_reducible refine next_frame ?_
    | with_reducible exact fault_frame _ _ _
    | with_reducible refine (failToken_frame _ _ _ _).after (by decide) ?_
    | with_reducible refine (countMill_frame _ _ _).after (by decide) ?_
    | with_reducible refine (staleCrumb_frame _ _ _ _).after (by decide) ?_
    | extract_lets
    | with_reducible refine OnlyChanges.getD (fun _ _ => ?_) ?_
    | with_reducible refine OnlyChanges.foldl (fun _ _ => ?_) ?_
    | split

theorem graceTokens_frame (a0 s) : OnlyChanges [.recoveryLog, .ports, .packets, .queues, .room, .numbering,
    .firmware, .tables, .events, .mailboxes, .mill, .counters, .crumbs, .out] s (graceTokens a0 s) := by
  unfold graceTokens
  repeat' first
    | with_reducible exact OnlyChanges.refl _ _
    | assumption
    | with_reducible refine (failToken_frame _ _ _ _).before ?_
    | with_reducible refine (graceCrumb_frame _ _ _ _).after (by decide) ?_
    | extract_lets
    | with_reducible refine OnlyChanges.getD (fun _ _ => ?_) ?_
    | with_reducible refine OnlyChanges.foldl (fun _ _ => ?_) ?_
    | split

theorem graceMill_frame (s) : OnlyChanges [.recoveryLog, .ports, .packets, .queues, .room, .numbering, .firmware,
    .tables, .events, .mailboxes, .mill, .counters, .crumbs, .out] s (graceMill s) := by
  unfold graceMill
  repeat' first
    | with_reducible exact OnlyChanges.refl _ _
    | assumption
    | with_reducible refine modMill_frame _ ?_
    | with_reducible refine (graceTokens_frame _ _).before ?_
    | with_reducible refine (endProgram_frame _ _ _).after (by decide) ?_
    | with_reducible refine (graceCrumb_frame _ _ _ _).after (by decide) ?_
    | with_reducible refine (finish_frame _ _ _ _).after (by decide) ?_
    | extract_lets
    | with_reducible refine OnlyChanges.getD (fun _ _ => ?_) ?_
    | with_reducible refine OnlyChanges.foldl (fun _ _ => ?_) ?_
    | split

theorem graceContext_frame (a0 s) : OnlyChanges [.recoveryLog, .ports, .packets, .queues, .room, .numbering,
    .firmware, .tables, .events, .mailboxes, .mill, .counters, .crumbs, .out] s (graceContext a0 s) := by
  unfold graceContext
  repeat' first
    | with_reducible exact OnlyChanges.refl _ _
    | assumption
    | with_reducible refine (finish_frame _ _ _ _).after (by decide) ?_
    | with_reducible refine (modDctx_frame _ _ _).after (by decide) ?_
    | with_reducible refine (graceTokens_frame _ _).before ?_
    | extract_lets
    | with_reducible refine OnlyChanges.getD (fun _ _ => ?_) ?_
    | with_reducible refine OnlyChanges.foldl (fun _ _ => ?_) ?_
    | split

theorem execMillGraceExpiry_frame (a0 s) : NextChanges [.recoveryLog, .ports, .packets, .queues, .room, .numbering,
    .firmware, .tables, .events, .mailboxes, .mill, .counters, .crumbs, .out] s (execMillGraceExpiry a0 s) := by
  unfold execMillGraceExpiry
  repeat' first
    | with_reducible exact OnlyChanges.refl _ _
    | assumption
    | with_reducible refine onUnit_frame _ ?_
    | with_reducible refine next_frame ?_
    | with_reducible exact fault_frame _ _ _
    | with_reducible refine (graceContext_frame _ _).before ?_
    | with_reducible refine (graceMill_frame _).before ?_
    | extract_lets
    | with_reducible refine OnlyChanges.getD (fun _ _ => ?_) ?_
    | with_reducible refine OnlyChanges.foldl (fun _ _ => ?_) ?_
    | split

theorem strikeWeights_frame (a0 s) : OnlyChanges [.mill] s (strikeWeights a0 s) := by
  unfold strikeWeights
  repeat' first
    | with_reducible exact OnlyChanges.refl _ _
    | assumption
    | with_reducible refine modMill_frame _ ?_
    | extract_lets
    | with_reducible refine OnlyChanges.getD (fun _ _ => ?_) ?_
    | with_reducible refine OnlyChanges.foldl (fun _ _ => ?_) ?_
    | split

theorem execMillSramError_frame (a0 a1 s) : NextChanges [.recoveryLog, .ports, .packets, .queues, .room,
    .numbering, .firmware, .tables, .events, .mailboxes, .mill, .counters, .crumbs, .out] s (execMillSramError a0
    a1 s) := by
  unfold execMillSramError
  repeat' first
    | with_reducible exact OnlyChanges.refl _ _
    | assumption
    | with_reducible refine onUnit_frame _ ?_
    | with_reducible refine next_frame ?_
    | with_reducible exact fault_frame _ _ _
    | with_reducible refine (countMill_frame _ _ _).after (by decide) ?_
    | with_reducible refine (strikeWeights_frame _ _).after (by decide) ?_
    | with_reducible refine (failToken_frame _ _ _ _).before ?_
    | with_reducible refine (endProgram_frame _ _ _).after (by decide) ?_
    | extract_lets
    | with_reducible refine OnlyChanges.getD (fun _ _ => ?_) ?_
    | with_reducible refine OnlyChanges.foldl (fun _ _ => ?_) ?_
    | split

theorem abortGroupsOf_frame (a0 s) : OnlyChanges [.recoveryLog, .ports, .packets, .queues, .room, .numbering,
    .firmware, .tables, .loafs, .events, .mailboxes, .regions, .counters, .crumbs, .out] s (abortGroupsOf a0 s) :=
    by
  unfold abortGroupsOf
  repeat' first
    | with_reducible exact OnlyChanges.refl _ _
    | assumption
    | with_reducible refine (abortCtx_frame _ _ _).before ?_
    | extract_lets
    | with_reducible refine OnlyChanges.getD (fun _ _ => ?_) ?_
    | with_reducible refine OnlyChanges.foldl (fun _ _ => ?_) ?_

theorem execEndpointDownRx_frame (s) : NextChanges [.recoveryLog, .ports, .packets, .queues, .room, .numbering,
    .firmware, .tables, .loafs, .events, .mailboxes, .mill, .regions, .counters, .crumbs, .out] s
    (execEndpointDownRx s) := by
  unfold execEndpointDownRx
  repeat' first
    | with_reducible exact OnlyChanges.refl _ _
    | assumption
    | with_reducible refine onUnit_frame _ ?_
    | with_reducible refine next_frame ?_
    | with_reducible exact fault_frame _ _ _
    | with_reducible refine (takeNotice_frame _ _ (_, _) (by assumption)).after (by decide) ?_
    | with_reducible refine (endpointDownMill_frame _ _).after (by decide) ?_
    | with_reducible refine (abortGroupsOf_frame _ _).after (by decide) ?_
    | extract_lets
    | with_reducible refine OnlyChanges.getD (fun _ _ => ?_) ?_
    | with_reducible refine OnlyChanges.foldl (fun _ _ => ?_) ?_
    | split

end Sys2Proof.Machine
end

