-- ==== Sys2Proof/Laws/FrameResetOps.lean ====
section
/-! SUPPORT. What the operations of Machine/ResetOps.lean leave unchanged. -/

set_option Elab.async false

namespace Sys2Proof.Machine

theorem modCtl_frame {qs : List Part} {s x : State} (f : CtlState → CtlState) (h : OnlyChanges qs s x)
    (hk : KeptCtl qs x.ctl (f x.ctl) := by
      (refine KeptCtl.lit ?_ ?_ ?_
       · first | exact Or.inl (by decide) | exact Or.inr rfl
       · first | exact Or.inl (by decide) | exact Or.inr rfl
       · first | exact Or.inl (by decide) | exact Or.inr ⟨rfl, rfl, rfl, rfl⟩)) : OnlyChanges qs s (modCtl f x) :=
  OnlyChanges.upd rfl h (hctl := hk)

theorem modRst_frame {qs : List Part} {s x : State} (f : RstState → RstState) (h : OnlyChanges qs s x)
    (hk : KeptRst qs x.rst (f x.rst) := by
      (refine KeptRst.lit ?_; first | exact Or.inl (by decide) | exact Or.inr ⟨rfl, rfl, rfl, rfl⟩)) : OnlyChanges qs s (modRst f x) :=
  OnlyChanges.upd rfl h (hrst := hk)

theorem modTele_frame {qs : List Part} {s x : State} (f : TeleState → TeleState) (h : OnlyChanges qs s x)
    (hk : KeptTele qs x.tele (f x.tele) := by
      (refine KeptTele.lit ?_ ?_ ?_ ?_ ?_
       · first | exact Or.inl (by decide) | exact Or.inr rfl
       · first | exact Or.inl (by decide) | exact Or.inr ⟨rfl, rfl⟩
       · first | exact Or.inl (by decide) | exact Or.inr ⟨rfl, rfl, rfl⟩
       · first | exact Or.inl (by decide) | exact Or.inr ⟨rfl, rfl, rfl⟩
       · first | exact Or.inl (by decide) | exact Or.inr ⟨rfl, rfl, rfl⟩)) : OnlyChanges qs s (modTele f x) :=
  OnlyChanges.upd rfl h (htele := hk)

theorem countIsland_frame (a0 a1 a2 s) : OnlyChanges [.recoveryLog, .events, .counters, .crumbs] s (countIsland a0
    a1 a2 s) := by
  unfold countIsland
  repeat' first
    | with_reducible exact OnlyChanges.refl _ _
    | assumption
    | with_reducible refine (count_frame _ _ _).before ?_
    | extract_lets
    | with_reducible refine OnlyChanges.getD (fun _ _ => ?_) ?_
    | with_reducible refine OnlyChanges.foldl (fun _ _ => ?_) ?_
    | split

theorem failSnapshots_frame (a0 s) : OnlyChanges [.recoveryLog, .events, .mailboxes, .counters, .crumbs,
    .snapshots, .out] s (failSnapshots a0 s) := by
  unfold failSnapshots
  repeat' first
    | with_reducible exact OnlyChanges.refl _ _
    | assumption
    | with_reducible refine (finish_frame _ _ _ _).after (by decide) ?_
    | with_reducible refine modTele_frame _ ?_
    | extract_lets
    | with_reducible refine OnlyChanges.getD (fun _ _ => ?_) ?_
    | with_reducible refine OnlyChanges.foldl (fun _ _ => ?_) ?_

theorem holdIsland_frame (a0 s) : OnlyChanges [.recoveryLog, .islands, .crossings, .events, .counters, .crumbs] s
    (holdIsland a0 s) := by
  unfold holdIsland
  repeat' first
    | with_reducible exact OnlyChanges.refl _ _
    | assumption
    | with_reducible refine (countIsland_frame _ _ _ _).after (by decide) ?_
    | with_reducible refine (modIsland_frame _ _ _).after (by decide) ?_
    | with_reducible refine modCtl_frame _ ?_
    | extract_lets
    | with_reducible refine OnlyChanges.getD (fun _ _ => ?_) ?_
    | with_reducible refine OnlyChanges.foldl (fun _ _ => ?_) ?_
    | split

theorem holdIslands_frame (a0 s) : OnlyChanges [.recoveryLog, .islands, .crossings, .events, .mailboxes, .counters,
    .crumbs, .snapshots, .out] s (holdIslands a0 s) := by
  unfold holdIslands
  repeat' first
    | with_reducible exact OnlyChanges.refl _ _
    | assumption
    | with_reducible refine (holdIsland_frame _ _).after (by decide) ?_
    | with_reducible refine (failSnapshots_frame _ _).after (by decide) ?_
    | extract_lets
    | with_reducible refine OnlyChanges.getD (fun _ _ => ?_) ?_
    | with_reducible refine OnlyChanges.foldl (fun _ _ => ?_) ?_

theorem releaseIsland_frame (a0 s) : OnlyChanges [.islands] s (releaseIsland a0 s) := by
  unfold releaseIsland
  repeat' first
    | with_reducible exact OnlyChanges.refl _ _
    | assumption
    | with_reducible refine (modIsland_frame _ _ _).before ?_

theorem zeroCounters_frame (a0 a1 s) : OnlyChanges [.counters] s (zeroCounters a0 a1 s) := by
  unfold zeroCounters
  repeat' first
    | with_reducible exact OnlyChanges.refl _ _
    | assumption
    | with_reducible refine modTele_frame _ ?_

theorem dropStagedAt_frame (a0 s) : OnlyChanges [.firmware] s (dropStagedAt a0 s) := by
  unfold dropStagedAt
  repeat' first
    | with_reducible exact OnlyChanges.refl _ _
    | assumption
    | with_reducible refine modBuf_frame _ ?_

theorem abortContexts_frame (a0 s) : OnlyChanges [.recoveryLog, .ports, .packets, .queues, .room, .numbering,
    .firmware, .tables, .loafs, .events, .mailboxes, .regions, .counters, .crumbs, .out] s (abortContexts a0 s) :=
    by
  unfold abortContexts
  repeat' first
    | with_reducible exact OnlyChanges.refl _ _
    | assumption
    | with_reducible refine (abortCtx_frame _ _ _).before ?_
    | extract_lets
    | with_reducible refine OnlyChanges.getD (fun _ _ => ?_) ?_
    | with_reducible refine OnlyChanges.foldl (fun _ _ => ?_) ?_

theorem clearKnead_frame (a0 s) : OnlyChanges [.recoveryLog, .ports, .packets, .queues, .room, .numbering,
    .firmware, .tables, .loafs, .events, .mailboxes, .mill, .regions, .counters, .crumbs, .out] s (clearKnead a0 s)
    := by
  unfold clearKnead
  repeat' first
    | with_reducible exact OnlyChanges.refl _ _
    | assumption
    | with_reducible refine (finish_frame _ _ _ _).after (by decide) ?_
    | with_reducible refine modLoaf_frame _ ?_
    | with_reducible refine (abortContexts_frame _ _).after (by decide) ?_
    | with_reducible refine (dropStagedAt_frame _ _).after (by decide) ?_
    | with_reducible refine (failTokens_frame _ _ _).after (by decide) ?_
    | with_reducible refine (zeroCounters_frame _ _ _).after (by decide) ?_
    | extract_lets
    | with_reducible refine OnlyChanges.getD (fun _ _ => ?_) ?_
    | with_reducible refine OnlyChanges.foldl (fun _ _ => ?_) ?_

theorem clearMill_frame (s) : OnlyChanges [.recoveryLog, .ports, .packets, .queues, .room, .numbering, .firmware,
    .tables, .events, .mailboxes, .mill, .counters, .crumbs, .out] s (clearMill s) := by
  unfold clearMill
  repeat' first
    | with_reducible exact OnlyChanges.refl _ _
    | assumption
    | with_reducible refine (finish_frame _ _ _ _).after (by decide) ?_
    | with_reducible refine modMill_frame _ ?_
    | with_reducible refine (failTokens_frame _ _ _).before ?_
    | with_reducible refine (endProgram_frame _ _ _).after (by decide) ?_
    | with_reducible refine (zeroCounters_frame _ _ _).after (by decide) ?_
    | with_reducible refine (reloadBad_frame _).after (by decide) ?_
    | extract_lets
    | with_reducible refine OnlyChanges.getD (fun _ _ => ?_) ?_
    | with_reducible refine OnlyChanges.foldl (fun _ _ => ?_) ?_

theorem clearChannel_frame (a0 s) : OnlyChanges [.recoveryLog, .events, .mailboxes, .memory, .channels, .accesses,
    .counters, .crumbs, .out] s (clearChannel a0 s) := by
  unfold clearChannel
  repeat' first
    | with_reducible exact OnlyChanges.refl _ _
    | assumption
    | with_reducible refine (finish_frame _ _ _ _).after (by decide) ?_
    | with_reducible refine modGran_frame _ ?_
    | with_reducible refine (failFlight_frame _ _ _ _).before ?_
    | with_reducible refine (answerStops_frame _ _ _).after (by decide) ?_
    | with_reducible refine (zeroCounters_frame _ _ _).after (by decide) ?_
    | with_reducible refine (modChannel_frame _ _ _).after (by decide) ?_
    | extract_lets
    | with_reducible refine OnlyChanges.getD (fun _ _ => ?_) ?_
    | with_reducible refine OnlyChanges.foldl (fun _ _ => ?_) ?_
    | split

theorem clearStack_frame (a0 a1 s) : OnlyChanges [.recoveryLog, .ports, .packets, .queues, .room, .numbering,
    .firmware, .tables, .loafs, .events, .mailboxes, .regions, .memory, .channels, .mirrors, .accesses, .counters,
    .crumbs, .out, .regionKeys] s (clearStack a0 a1 s) := by
  unfold clearStack
  repeat' first
    | with_reducible exact OnlyChanges.refl _ _
    | assumption
    | with_reducible refine modGran_frame _ ?_
    | with_reducible refine (respond_frame _ _ _ _).after (by decide) ?_
    | with_reducible refine (completeDesc_frame _ _ _ _).after (by decide) ?_
    | with_reducible refine (abortContexts_frame _ _).after (by decide) ?_
    | with_reducible refine (zeroCounters_frame _ _ _).after (by decide) ?_
    | with_reducible refine (loseStack_frame _ _).after (by decide) ?_
    | extract_lets
    | with_reducible refine OnlyChanges.getD (fun _ _ => ?_) ?_
    | with_reducible refine OnlyChanges.foldl (fun _ _ => ?_) ?_
    | split
    | extract_lets +lift
    | with_reducible refine OnlyChanges.foldl_fst (fun _ _ => ?_) ?_
    | with_reducible refine OnlyChanges.foldl_snd (fun _ _ => ?_) ?_
    | with_reducible refine OnlyChanges.of_fst (by assumption) ?_
    | with_reducible refine OnlyChanges.of_snd (by assumption) ?_
    | with_reducible refine OnlyChanges.upd rfl ?_

theorem clearGroup_frame (a0 s) : OnlyChanges [.recoveryLog, .rings, .circuits, .time, .lanes, .ports, .groups,
    .events, .neighbours, .counters, .crumbs, .devTime, .linkKeys] s (clearGroup a0 s) := by
  unfold clearGroup
  repeat' first
    | with_reducible exact OnlyChanges.refl _ _
    | assumption
    | with_reducible refine (unlockRing_frame _ _ _ _ _).before ?_
    | with_reducible refine (laneFalls_frame _ _ _).after (by decide) ?_
    | with_reducible refine modOpt_frame _ ?_
    | with_reducible refine (zeroCounters_frame _ _ _).after (by decide) ?_
    | extract_lets
    | with_reducible refine OnlyChanges.getD (fun _ _ => ?_) ?_
    | with_reducible refine OnlyChanges.foldl (fun _ _ => ?_) ?_
    | split

theorem clearPort_frame (a0 s) : OnlyChanges [.recoveryLog, .time, .lanes, .ports, .packets, .queues, .room,
    .tables, .groups, .events, .neighbours, .counters, .crumbs, .devTime, .linkKeys] s (clearPort a0 s) := by
  unfold clearPort
  repeat' first
    | with_reducible exact OnlyChanges.refl _ _
    | assumption
    | with_reducible refine (tryHello_frame _ _).after (by decide) ?_
    | with_reducible refine (zeroCounters_frame _ _ _).after (by decide) ?_
    | with_reducible refine (enterDown_frame _ _ _).before ?_

theorem clearEngine_frame (a0 a1 a2 s) : OnlyChanges wideParts3 s (clearEngine a0 a1 a2 s) := by
  unfold clearEngine
  repeat' first
    | with_reducible exact OnlyChanges.refl _ _
    | assumption
    | with_reducible refine (clearKnead_frame _ _).after (by decide) ?_
    | with_reducible refine (clearMill_frame _).after (by decide) ?_
    | with_reducible refine (clearChannel_frame _ _).after (by decide) ?_
    | with_reducible refine (clearStack_frame _ _ _).after (by decide) ?_
    | with_reducible refine (clearGroup_frame _ _).after (by decide) ?_
    | with_reducible refine (clearPort_frame _ _).after (by decide) ?_
    | extract_lets
    | with_reducible refine OnlyChanges.getD (fun _ _ => ?_) ?_
    | with_reducible refine OnlyChanges.foldl (fun _ _ => ?_) ?_
    | split

theorem clearCluster_frame (a0 s) : OnlyChanges [.recoveryLog, .time, .lanes, .ports, .packets, .queues, .room,
    .tables, .groups, .events, .neighbours, .counters, .crumbs, .devTime, .linkKeys] s (clearCluster a0 s) := by
  unfold clearCluster
  repeat' first
    | with_reducible exact OnlyChanges.refl _ _
    | assumption
    | with_reducible refine (enterDown_frame _ _ _).before ?_
    | with_reducible refine (modLane_frame _ _ _).after (by decide) ?_
    | extract_lets
    | with_reducible refine OnlyChanges.getD (fun _ _ => ?_) ?_
    | with_reducible refine OnlyChanges.foldl (fun _ _ => ?_) ?_
    | split
    | extract_lets +lift
    | with_reducible refine OnlyChanges.foldl_fst (fun _ _ => ?_) ?_
    | with_reducible refine OnlyChanges.foldl_snd (fun _ _ => ?_) ?_
    | with_reducible refine OnlyChanges.of_fst (by assumption) ?_
    | with_reducible refine OnlyChanges.of_snd (by assumption) ?_
    | with_reducible refine OnlyChanges.upd rfl ?_

theorem restoreSlice_frame (a0 s) : OnlyChanges [.tables] s (restoreSlice a0 s) := by
  unfold restoreSlice
  repeat' first
    | with_reducible exact OnlyChanges.refl _ _
    | assumption
    | with_reducible refine (modSlice_frame _ _ _).before ?_

theorem endKeySessions_frame (s) : OnlyChanges [.recoveryLog, .events, .mailboxes, .counters, .crumbs, .out,
    .keySessions] s (endKeySessions s) := by
  unfold endKeySessions
  repeat' first
    | with_reducible exact OnlyChanges.refl _ _
    | assumption
    | with_reducible refine (answer_frame _ _ _ _ _).after (by decide) ?_
    | extract_lets
    | with_reducible refine OnlyChanges.getD (fun _ _ => ?_) ?_
    | with_reducible refine OnlyChanges.foldl (fun _ _ => ?_) ?_
    | split
    | extract_lets +lift
    | with_reducible refine OnlyChanges.foldl_fst (fun _ _ => ?_) ?_
    | with_reducible refine OnlyChanges.foldl_snd (fun _ _ => ?_) ?_
    | with_reducible refine OnlyChanges.of_fst (by assumption) ?_
    | with_reducible refine OnlyChanges.of_snd (by assumption) ?_
    | with_reducible refine OnlyChanges.upd rfl ?_

theorem clearIsland_frame (a0 a1 s) : OnlyChanges wideParts4 s (clearIsland a0 a1 s) := by
  unfold clearIsland
  repeat' first
    | with_reducible exact OnlyChanges.refl _ _
    | assumption
    | with_reducible refine (clearCluster_frame _ _).after (by decide) ?_
    | with_reducible refine (restoreSlice_frame _ _).after (by decide) ?_
    | with_reducible refine (clearEngine_frame _ _ _ _).after (by decide) ?_
    | with_reducible refine modLoaf_frame _ ?_
    | with_reducible refine (endKeySessions_frame _).after (by decide) ?_
    | with_reducible refine (zeroCounters_frame _ _ _).after (by decide) ?_
    | extract_lets
    | with_reducible refine OnlyChanges.getD (fun _ _ => ?_) ?_
    | with_reducible refine OnlyChanges.foldl (fun _ _ => ?_) ?_
    | split

theorem clearChip_frame (s) : OnlyChanges wideParts5 s (clearChip s) := by
  unfold clearChip
  repeat' first
    | with_reducible exact OnlyChanges.refl _ _
    | assumption
    | extract_lets
    | with_reducible refine OnlyChanges.getD (fun _ _ => ?_) ?_
    | with_reducible refine OnlyChanges.foldl (fun _ _ => ?_) ?_
    | split
    | extract_lets +lift
    | with_reducible refine OnlyChanges.foldl_fst (fun _ _ => ?_) ?_
    | with_reducible refine OnlyChanges.foldl_snd (fun _ _ => ?_) ?_
    | with_reducible refine OnlyChanges.of_fst (by assumption) ?_
    | with_reducible refine OnlyChanges.of_snd (by assumption) ?_
    | with_reducible refine OnlyChanges.upd rfl ?_

theorem holdAll_frame (s) : OnlyChanges [.islands] s (holdAll s) := by
  unfold holdAll
  repeat' first
    | with_reducible exact OnlyChanges.refl _ _
    | assumption
    | extract_lets
    | with_reducible refine OnlyChanges.getD (fun _ _ => ?_) ?_
    | with_reducible refine OnlyChanges.foldl (fun _ _ => ?_) ?_
    | split
    | extract_lets +lift
    | with_reducible refine OnlyChanges.foldl_fst (fun _ _ => ?_) ?_
    | with_reducible refine OnlyChanges.foldl_snd (fun _ _ => ?_) ?_
    | with_reducible refine OnlyChanges.of_fst (by assumption) ?_
    | with_reducible refine OnlyChanges.of_snd (by assumption) ?_
    | with_reducible refine OnlyChanges.upd rfl ?_

theorem darkOptics_frame (s) : OnlyChanges [.rings, .bays, .circuits] s (darkOptics s) := by
  unfold darkOptics
  repeat' first
    | with_reducible exact OnlyChanges.refl _ _
    | assumption
    | with_reducible refine modOpt_frame _ ?_

theorem clearAll_frame (s) : OnlyChanges wideParts6 s (clearAll s) := by
  unfold clearAll
  repeat' first
    | with_reducible exact OnlyChanges.refl _ _
    | assumption
    | with_reducible refine (clearChip_frame _).after (by decide) ?_
    | extract_lets
    | with_reducible refine OnlyChanges.getD (fun _ _ => ?_) ?_
    | with_reducible refine OnlyChanges.foldl (fun _ _ => ?_) ?_
    | split
    | extract_lets +lift
    | with_reducible refine OnlyChanges.foldl_fst (fun _ _ => ?_) ?_
    | with_reducible refine OnlyChanges.foldl_snd (fun _ _ => ?_) ?_
    | with_reducible refine OnlyChanges.of_fst (by assumption) ?_
    | with_reducible refine OnlyChanges.of_snd (by assumption) ?_
    | with_reducible refine OnlyChanges.upd rfl ?_

end Sys2Proof.Machine
end

