-- ==== Sys2Proof/Laws/FrameRecords.lean ====
section
/-! SUPPORT. What the operations of Machine/Records.lean leave unchanged. -/

set_option Elab.async false

namespace Sys2Proof.Machine

theorem writeDump_frame (a0 a1 a2 a3 a4 s) : OnlyChanges [.alert, .dumpValid, .recoveryLog, .events, .memory,
    .counters, .crumbs, .snapshots] s (writeDump a0 a1 a2 a3 a4 s) := by
  unfold writeDump
  repeat' first
    | with_reducible exact OnlyChanges.refl _ _
    | assumption
    | with_reducible refine (writeBytes_frame _ _ _ _).after (by decide) ?_
    | with_reducible refine modStart_frame _ ?_
    | with_reducible refine (countControl_frame _ _).after (by decide) ?_
    | with_reducible refine modTele_frame _ ?_
    | extract_lets
    | with_reducible refine OnlyChanges.getD (fun _ _ => ?_) ?_
    | with_reducible refine OnlyChanges.foldl (fun _ _ => ?_) ?_
    | split

end Sys2Proof.Machine
end

