-- ==== Sys2Proof/Laws/FrameReset.lean ====
section
/-! SUPPORT. What the operations of Machine/Reset.lean leave unchanged. -/

set_option Elab.async false

namespace Sys2Proof.Machine

theorem beginReset_frame (a0 s) : OnlyChanges [.alert, .lastLevel, .dumpValid, .recoveryLog, .events, .memory,
    .counters, .crumbs, .snapshots] s (beginReset a0 s) := by
  unfold beginReset
  repeat' first
    | with_reducible exact OnlyChanges.refl _ _
    | assumption
    | with_reducible refine (writeDump_frame _ _ _ _ _ _).after (by decide) ?_
    | with_reducible refine (raiseBoth_frame _ _ _).after (by decide) ?_
    | with_reducible refine (noteLevel_frame _ _).after (by decide) ?_
    | extract_lets
    | with_reducible refine OnlyChanges.getD (fun _ _ => ?_) ?_
    | with_reducible refine OnlyChanges.foldl (fun _ _ => ?_) ?_
    | split

theorem dropAsked_frame (a0 s) : OnlyChanges [.escalation] s (dropAsked a0 s) := by
  unfold dropAsked
  repeat' first
    | with_reducible exact OnlyChanges.refl _ _
    | assumption
    | with_reducible refine modRst_frame _ ?_

theorem resetEngine_frame (a0 a1 a2 s) : OnlyChanges wideParts16 s (resetEngine a0 a1 a2 s) := by
  unfold resetEngine
  repeat' first
    | with_reducible exact OnlyChanges.refl _ _
    | assumption
    | with_reducible refine (escalateIsland_frame _ _ _ _).after (by decide) ?_
    | with_reducible refine (dropAsked_frame _ _).after (by decide) ?_
    | with_reducible refine (clearEngine_frame _ _ _ _).after (by decide) ?_
    | with_reducible refine modRst_frame _ ?_
    | with_reducible refine (beginReset_frame _ _).after (by decide) ?_
    | extract_lets
    | with_reducible refine OnlyChanges.getD (fun _ _ => ?_) ?_
    | with_reducible refine OnlyChanges.foldl (fun _ _ => ?_) ?_
    | split

theorem execEngineReset_frame (a0 a1 a2 s) : NextChanges wideParts16 s (execEngineReset a0 a1 a2 s) := by
  unfold execEngineReset
  repeat' first
    | with_reducible exact OnlyChanges.refl _ _
    | assumption
    | with_reducible refine onUnit_frame _ ?_
    | with_reducible refine next_frame ?_
    | with_reducible exact fault_frame _ _ _
    | with_reducible refine (resetEngine_frame _ _ _ _).before ?_

theorem returnScope_frame (a0 s) : OnlyChanges [.islands] s (returnScope a0 s) := by
  unfold returnScope
  repeat' first
    | with_reducible exact OnlyChanges.refl _ _
    | assumption
    | with_reducible refine (modIsland_frame _ _ _).before ?_
    | with_reducible refine (releaseIsland_frame _ _).before ?_
    | extract_lets
    | with_reducible refine OnlyChanges.getD (fun _ _ => ?_) ?_
    | with_reducible refine OnlyChanges.foldl (fun _ _ => ?_) ?_

theorem resetScope_frame (a0 a1 s) : OnlyChanges wideParts17 s (resetScope a0 a1 s) := by
  unfold resetScope
  repeat' first
    | with_reducible exact OnlyChanges.refl _ _
    | assumption
    | with_reducible refine (escalate_frame _ _ _ _ _).after (by decide) ?_
    | with_reducible refine (dropAsked_frame _ _).after (by decide) ?_
    | with_reducible refine modRst_frame _ ?_
    | with_reducible refine (holdIslands_frame _ _).after (by decide) ?_
    | with_reducible refine (beginReset_frame _ _).after (by decide) ?_
    | with_reducible refine (clearIsland_frame _ _ _).after (by decide) ?_
    | with_reducible refine (returnScope_frame _ _).after (by decide) ?_
    | extract_lets
    | with_reducible refine OnlyChanges.getD (fun _ _ => ?_) ?_
    | with_reducible refine OnlyChanges.foldl (fun _ _ => ?_) ?_
    | split

theorem execScopeReset_frame (a0 a1 s) : NextChanges wideParts17 s (execScopeReset a0 a1 s) := by
  unfold execScopeReset
  repeat' first
    | with_reducible exact OnlyChanges.refl _ _
    | assumption
    | with_reducible refine onUnit_frame _ ?_
    | with_reducible refine next_frame ?_
    | with_reducible exact fault_frame _ _ _
    | with_reducible refine (resetScope_frame _ _ _).before ?_

theorem execL1Overrun_frame (a0 a1 a2 a3 s) : NextChanges [.recoveryLog, .events, .counters, .crumbs, .escalation]
    s (execL1Overrun a0 a1 a2 a3 s) := by
  unfold execL1Overrun
  repeat' first
    | with_reducible exact OnlyChanges.refl _ _
    | assumption
    | with_reducible refine onUnit_frame _ ?_
    | with_reducible refine next_frame ?_
    | with_reducible exact fault_frame _ _ _
    | with_reducible refine (escalate_frame _ _ _ _ _).before ?_

theorem execL2Overrun_frame (a0 a1 s) : NextChanges [.recoveryLog, .events, .counters, .crumbs, .escalation] s
    (execL2Overrun a0 a1 s) := by
  unfold execL2Overrun
  repeat' first
    | with_reducible exact OnlyChanges.refl _ _
    | assumption
    | with_reducible refine onUnit_frame _ ?_
    | with_reducible refine next_frame ?_
    | with_reducible exact fault_frame _ _ _
    | with_reducible refine (escalateIsland_frame _ _ _ _).before ?_
    | with_reducible refine (dropAsked_frame _ _).after (by decide) ?_
    | extract_lets
    | with_reducible refine OnlyChanges.getD (fun _ _ => ?_) ?_
    | with_reducible refine OnlyChanges.foldl (fun _ _ => ?_) ?_
    | split

theorem execL3Overrun_frame (a0 s) : NextChanges [.recoveryLog, .events, .counters, .crumbs, .escalation] s
    (execL3Overrun a0 s) := by
  unfold execL3Overrun
  repeat' first
    | with_reducible exact OnlyChanges.refl _ _
    | assumption
    | with_reducible refine onUnit_frame _ ?_
    | with_reducible refine next_frame ?_
    | with_reducible exact fault_frame _ _ _
    | with_reducible refine (escalate_frame _ _ _ _ _).before ?_
    | with_reducible refine (dropAsked_frame _ _).after (by decide) ?_
    | extract_lets
    | with_reducible refine OnlyChanges.getD (fun _ _ => ?_) ?_
    | with_reducible refine OnlyChanges.foldl (fun _ _ => ?_) ?_
    | split

theorem execDumpTimeout_frame (s) : NextChanges [.alert, .dumpValid, .escalation] s (execDumpTimeout s) := by
  unfold execDumpTimeout
  repeat' first
    | with_reducible exact OnlyChanges.refl _ _
    | assumption
    | with_reducible refine onUnit_frame _ ?_
    | with_reducible refine next_frame ?_
    | with_reducible exact fault_frame _ _ _
    | with_reducible refine modStart_frame _ ?_
    | with_reducible refine modRst_frame _ ?_
    | extract_lets
    | with_reducible refine OnlyChanges.getD (fun _ _ => ?_) ?_
    | with_reducible refine OnlyChanges.foldl (fun _ _ => ?_) ?_
    | split

theorem execWatchdogExpiry_frame (a0 s) : NextChanges [.alert, .dumpValid, .recoveryLog, .events, .memory,
    .counters, .crumbs, .snapshots, .escalation] s (execWatchdogExpiry a0 s) := by
  unfold execWatchdogExpiry
  repeat' first
    | with_reducible exact OnlyChanges.refl _ _
    | assumption
    | with_reducible refine onUnit_frame _ ?_
    | with_reducible refine next_frame ?_
    | with_reducible exact fault_frame _ _ _
    | with_reducible refine (writeDump_frame _ _ _ _ _ _).after (by decide) ?_
    | with_reducible refine (escalate_frame _ _ _ _ _).after (by decide) ?_
    | with_reducible refine modRst_frame _ ?_
    | extract_lets
    | with_reducible refine OnlyChanges.getD (fun _ _ => ?_) ?_
    | with_reducible refine OnlyChanges.foldl (fun _ _ => ?_) ?_
    | split

theorem execProtectedSramError_frame (s) : NextChanges [.recoveryLog, .events, .counters, .crumbs, .escalation] s
    (execProtectedSramError s) := by
  unfold execProtectedSramError
  repeat' first
    | with_reducible exact OnlyChanges.refl _ _
    | assumption
    | with_reducible refine onUnit_frame _ ?_
    | with_reducible refine next_frame ?_
    | with_reducible exact fault_frame _ _ _
    | with_reducible refine (escalate_frame _ _ _ _ _).before ?_
    | extract_lets
    | with_reducible refine OnlyChanges.getD (fun _ _ => ?_) ?_
    | with_reducible refine OnlyChanges.foldl (fun _ _ => ?_) ?_
    | split

end Sys2Proof.Machine
end

