-- ==== Sys2Proof/Laws/FrameStart.lean ====
section
/-! SUPPORT. What the operations of Machine/Start.lean leave unchanged. -/

set_option Elab.async false

namespace Sys2Proof.Machine

theorem modPower_frame {qs : List Part} {s x : State} (f : PowerState → PowerState) (h : OnlyChanges qs s x)
    (hk : KeptPower qs x.power (f x.power) := by
      (refine KeptPower.lit ?_ ?_ ?_ ?_ ?_
       · first | exact Or.inl (by decide) | exact Or.inr rfl
       · first | exact Or.inl (by decide) | exact Or.inr ⟨rfl, rfl, rfl, rfl, rfl, rfl, rfl, rfl, rfl, rfl, rfl⟩
       · first | exact Or.inl (by decide) | exact Or.inr ⟨rfl, rfl⟩
       · first | exact Or.inl (by decide) | exact Or.inr ⟨rfl, rfl, rfl, rfl, rfl⟩
       · first | exact Or.inl (by decide) | exact Or.inr rfl)) : OnlyChanges qs s (modPower f x) :=
  OnlyChanges.upd rfl h (hpower := hk)

theorem coldHold_frame (s) : OnlyChanges wideParts7 s (coldHold s) := by
  unfold coldHold
  repeat' first
    | with_reducible exact OnlyChanges.refl _ _
    | assumption
    | with_reducible refine modStart_frame _ ?_
    | with_reducible refine (clearAll_frame _).after (by decide) ?_

theorem dropPower_frame (s) : OnlyChanges wideParts8 s (dropPower s) := by
  unfold dropPower
  repeat' first
    | with_reducible exact OnlyChanges.refl _ _
    | assumption
    | with_reducible refine modPower_frame _ ?_
    | with_reducible refine (coldHold_frame _).after (by decide) ?_

theorem beginCold_frame (s) : OnlyChanges [.alert, .startPhase] s (beginCold s) := by
  unfold beginCold
  repeat' first
    | with_reducible exact OnlyChanges.refl _ _
    | assumption
    | with_reducible refine modStart_frame _ ?_

theorem storeNow_frame (a0 s) : OnlyChanges [.alert, .flash] s (storeNow a0 s) := by
  unfold storeNow
  refine modStart_frame _ (OnlyChanges.refl _ _) (hs := ?_)
  have h := beginStoreWrite_kept { s.start with cfg := a0 s.start.cfg }
  have k := completeWrite_kept (beginStoreWrite { s.start with cfg := a0 s.start.cfg })
  simp [KeptStart] at h k ⊢
  simp_all

theorem lockIslands_frame (a0 s) : OnlyChanges [.islands] s (lockIslands a0 s) := by
  unfold lockIslands
  repeat' first
    | with_reducible exact OnlyChanges.refl _ _
    | assumption
    | with_reducible refine (modIsland_frame _ _ _).before ?_
    | extract_lets
    | with_reducible refine OnlyChanges.getD (fun _ _ => ?_) ?_
    | with_reducible refine OnlyChanges.foldl (fun _ _ => ?_) ?_

theorem releaseOnly_frame (a0 s) : OnlyChanges [.islands] s (releaseOnly a0 s) := by
  unfold releaseOnly
  repeat' first
    | with_reducible exact OnlyChanges.refl _ _
    | assumption
    | with_reducible refine (modIsland_frame _ _ _).before ?_
    | extract_lets
    | with_reducible refine OnlyChanges.getD (fun _ _ => ?_) ?_
    | with_reducible refine OnlyChanges.foldl (fun _ _ => ?_) ?_

theorem mgmtUp_frame (a0 s) : OnlyChanges [.sessions] s (mgmtUp a0 s) := by
  unfold mgmtUp
  repeat' first
    | with_reducible exact OnlyChanges.refl _ _
    | assumption
    | extract_lets
    | with_reducible refine OnlyChanges.getD (fun _ _ => ?_) ?_
    | with_reducible refine OnlyChanges.foldl (fun _ _ => ?_) ?_
    | split
    | extract_lets +lift
    | with_reducible refine OnlyChanges.foldl_fst (fun _ _ => ?_) ?_
    | with_reducible refine OnlyChanges.foldl_snd (fun _ _ => ?_) ?_
    | with_reducible refine OnlyChanges.of_fst (by assumption) ?_
    | with_reducible refine OnlyChanges.of_snd (by assumption) ?_
    | with_reducible refine OnlyChanges.upd rfl ?_

theorem startEvent_frame (a0 a1 s) : OnlyChanges [.recoveryLog, .events, .counters, .crumbs] s (startEvent a0 a1 s)
    := by
  unfold startEvent
  repeat' first
    | with_reducible exact OnlyChanges.refl _ _
    | assumption
    | with_reducible refine (raiseBoth_frame _ _ _).before ?_

theorem enterRecovery_frame (s) : OnlyChanges [.alert, .startPhase, .recoveryLog, .islands, .events, .sessions,
    .counters, .crumbs] s (enterRecovery s) := by
  unfold enterRecovery
  repeat' first
    | with_reducible exact OnlyChanges.refl _ _
    | assumption
    | with_reducible refine (startEvent_frame _ _ _).after (by decide) ?_
    | with_reducible refine (mgmtUp_frame _ _).after (by decide) ?_
    | with_reducible refine modStart_frame _ ?_
    | with_reducible refine (lockIslands_frame _ _).after (by decide) ?_

theorem sramOutcome_frame (a0 s) : OnlyChanges [.alert, .flash, .room] s (sramOutcome a0 s) := by
  unfold sramOutcome
  repeat' first
    | with_reducible exact OnlyChanges.refl _ _
    | assumption
    | with_reducible refine modBuf_frame _ ?_
    | with_reducible refine (storeNow_frame _ _).after (by decide) ?_
    | extract_lets
    | with_reducible refine OnlyChanges.getD (fun _ _ => ?_) ?_
    | with_reducible refine OnlyChanges.foldl (fun _ _ => ?_) ?_
    | split

theorem seedSlices_frame (s) : OnlyChanges [.tables, .free] s (seedSlices s) := by
  unfold seedSlices
  repeat' first
    | with_reducible exact OnlyChanges.refl _ _
    | assumption
    | with_reducible refine (drawFree_frame _).after (by decide) ?_
    | with_reducible refine (modSlice_frame _ _ _).after (by decide) ?_
    | extract_lets
    | with_reducible refine OnlyChanges.getD (fun _ _ => ?_) ?_
    | with_reducible refine OnlyChanges.foldl (fun _ _ => ?_) ?_

theorem loadImage_frame (a0 s) : OnlyChanges [.alert, .startPhase] s (loadImage a0 s) := by
  unfold loadImage
  repeat' first
    | with_reducible exact OnlyChanges.refl _ _
    | assumption
    | with_reducible refine modStart_frame _ ?_

theorem failStart_frame (a0 s) : OnlyChanges [.alert, .startPhase, .recoveryLog, .events, .counters, .crumbs,
    .escalation] s (failStart a0 s) := by
  unfold failStart
  repeat' first
    | with_reducible exact OnlyChanges.refl _ _
    | assumption
    | with_reducible refine (escalate_frame _ _ _ _ _).after (by decide) ?_
    | with_reducible refine modStart_frame _ ?_

theorem replaceBay_frame (a0 s) : OnlyChanges [.alert, .flash, .recoveryLog, .bays, .time, .lanes, .ports, .groups,
    .events, .neighbours, .counters, .crumbs, .devTime, .linkKeys] s (replaceBay a0 s) := by
  unfold replaceBay
  repeat' first
    | with_reducible exact OnlyChanges.refl _ _
    | assumption
    | with_reducible refine (countDie_frame _ _ _).after (by decide) ?_
    | with_reducible refine (raise15_frame _ _ _).after (by decide) ?_
    | with_reducible refine (storeNow_frame _ _).after (by decide) ?_
    | with_reducible refine (modBay_frame _ _ _).after (by decide) ?_
    | with_reducible refine (failLane_frame _ _ _).after (by decide) ?_
    | extract_lets
    | with_reducible refine OnlyChanges.getD (fun _ _ => ?_) ?_
    | with_reducible refine OnlyChanges.foldl (fun _ _ => ?_) ?_
    | split

theorem warmBays_frame (a0 s) : OnlyChanges [.alert, .flash, .recoveryLog, .bays, .time, .lanes, .ports, .groups,
    .events, .neighbours, .counters, .crumbs, .devTime, .linkKeys] s (warmBays a0 s) := by
  unfold warmBays
  repeat' first
    | with_reducible exact OnlyChanges.refl _ _
    | assumption
    | with_reducible refine (modBay_frame _ _ _).after (by decide) ?_
    | with_reducible refine (storeNow_frame _ _).after (by decide) ?_
    | with_reducible refine (replaceBay_frame _ _).before ?_
    | extract_lets
    | with_reducible refine OnlyChanges.getD (fun _ _ => ?_) ?_
    | with_reducible refine OnlyChanges.foldl (fun _ _ => ?_) ?_

theorem commissionPowers_frame (a0 s) : OnlyChanges [.alert, .flash] s (commissionPowers a0 s) := by
  unfold commissionPowers
  repeat' first
    | with_reducible exact OnlyChanges.refl _ _
    | assumption
    | with_reducible refine (storeNow_frame _ _).before ?_
    | extract_lets
    | with_reducible refine OnlyChanges.getD (fun _ _ => ?_) ?_
    | with_reducible refine OnlyChanges.foldl (fun _ _ => ?_) ?_
    | split

theorem coldRun_frame (a0 s) : OnlyChanges [.alert, .startPhase, .flash, .recoveryLog, .islands, .rings, .bays,
    .time, .lanes, .ports, .room, .tables, .groups, .events, .sessions, .neighbours, .regions, .counters, .crumbs,
    .escalation, .devTime, .free, .linkKeys] s (coldRun a0 s) := by
  unfold coldRun
  repeat' first
    | with_reducible exact OnlyChanges.refl _ _
    | assumption
    | with_reducible refine (failStart_frame _ _).after (by decide) ?_
    | with_reducible refine (sramOutcome_frame _ _).after (by decide) ?_
    | with_reducible refine (storeNow_frame _ _).after (by decide) ?_
    | with_reducible refine modStart_frame _ ?_
    | with_reducible refine modGran_frame _ ?_
    | with_reducible refine (commissionPowers_frame _ _).after (by decide) ?_
    | with_reducible refine (warmBays_frame _ _).after (by decide) ?_
    | with_reducible refine (seedSlices_frame _).after (by decide) ?_
    | with_reducible refine (lockIslands_frame _ _).after (by decide) ?_
    | with_reducible refine modOpt_frame _ ?_
    | with_reducible refine (mgmtUp_frame _ _).after (by decide) ?_
    | with_reducible refine (startEvent_frame _ _ _).after (by decide) ?_
    | extract_lets
    | with_reducible refine OnlyChanges.getD (fun _ _ => ?_) ?_
    | with_reducible refine OnlyChanges.foldl (fun _ _ => ?_) ?_
    | split

theorem coldPrepared_frame (a0 s) : OnlyChanges wideParts9 s (coldPrepared a0 s) := by
  unfold coldPrepared
  repeat' first
    | with_reducible exact OnlyChanges.refl _ _
    | assumption
    | with_reducible refine (storeNow_frame _ _).after (by decide) ?_
    | with_reducible refine modStart_frame _ ?_
    | with_reducible refine modPower_frame _ ?_
    | with_reducible refine (clearAll_frame _).after (by decide) ?_

theorem execColdStart_frame (a0 s) : NextChanges wideParts10 s (execColdStart a0 s) := by
  unfold execColdStart
  repeat' first
    | with_reducible exact OnlyChanges.refl _ _
    | assumption
    | with_reducible refine onUnit_frame _ ?_
    | with_reducible refine next_frame ?_
    | with_reducible exact fault_frame _ _ _
    | with_reducible refine (coldPrepared_frame _ _).after (by decide) ?_
    | with_reducible refine (enterRecovery_frame _).after (by decide) ?_
    | with_reducible refine modStart_frame _ ?_
    | with_reducible refine (lockIslands_frame _ _).after (by decide) ?_
    | with_reducible refine (storeNow_frame _ _).after (by decide) ?_
    | with_reducible refine (coldRun_frame _ _).after (by decide) ?_
    | with_reducible refine (loadImage_frame _ _).after (by decide) ?_
    | extract_lets
    | with_reducible refine OnlyChanges.getD (fun _ _ => ?_) ?_
    | with_reducible refine OnlyChanges.foldl (fun _ _ => ?_) ?_
    | split

theorem returnRings_frame (a0 a1 s) : OnlyChanges [.rings] s (returnRings a0 a1 s) := by
  unfold returnRings
  repeat' first
    | with_reducible exact OnlyChanges.refl _ _
    | assumption
    | with_reducible refine modOpt_frame _ ?_
    | extract_lets
    | with_reducible refine OnlyChanges.getD (fun _ _ => ?_) ?_
    | with_reducible refine OnlyChanges.foldl (fun _ _ => ?_) ?_
    | split

theorem countLostProposals_frame (a0 s) : OnlyChanges [.recoveryLog, .events, .counters, .crumbs] s
    (countLostProposals a0 s) := by
  unfold countLostProposals
  repeat' first
    | with_reducible exact OnlyChanges.refl _ _
    | assumption
    | with_reducible refine (count_frame _ _ _).before ?_
    | extract_lets
    | with_reducible refine OnlyChanges.getD (fun _ _ => ?_) ?_
    | with_reducible refine OnlyChanges.foldl (fun _ _ => ?_) ?_
    | split

theorem warmRun_frame (a0 a1 a2 s) : OnlyChanges [.alert, .startPhase, .flash, .recoveryLog, .islands, .rings,
    .bays, .room, .tables, .events, .sessions, .regions, .mirrors, .counters, .crumbs, .free] s (warmRun a0 a1 a2
    s) := by
  unfold warmRun
  repeat' first
    | with_reducible exact OnlyChanges.refl _ _
    | assumption
    | with_reducible refine (loseStack_frame _ _).after (by decide) ?_
    | with_reducible refine (sramOutcome_frame _ _).after (by decide) ?_
    | with_reducible refine (returnRings_frame _ _ _).after (by decide) ?_
    | with_reducible refine (seedSlices_frame _).after (by decide) ?_
    | with_reducible refine (lockIslands_frame _ _).after (by decide) ?_
    | with_reducible refine modOpt_frame _ ?_
    | with_reducible refine (storeNow_frame _ _).after (by decide) ?_
    | with_reducible refine (mgmtUp_frame _ _).after (by decide) ?_
    | with_reducible refine (startEvent_frame _ _ _).after (by decide) ?_
    | with_reducible refine (countLostProposals_frame _ _).after (by decide) ?_
    | with_reducible refine modStart_frame _ ?_
    | extract_lets
    | with_reducible refine OnlyChanges.getD (fun _ _ => ?_) ?_
    | with_reducible refine OnlyChanges.foldl (fun _ _ => ?_) ?_

theorem warmPrepared_frame (a0 s) : OnlyChanges wideParts11 s (warmPrepared a0 s) := by
  unfold warmPrepared
  repeat' first
    | with_reducible exact OnlyChanges.refl _ _
    | assumption
    | with_reducible refine modRst_frame _ ?_
    | with_reducible refine (beginReset_frame _ _).after (by decide) ?_
    | with_reducible refine modStart_frame _ ?_
    | with_reducible refine (holdAll_frame _).after (by decide) ?_
    | with_reducible refine (clearChip_frame _).after (by decide) ?_

theorem execWarmStart_frame (a0 s) : NextChanges wideParts12 s (execWarmStart a0 s) := by
  unfold execWarmStart
  repeat' first
    | with_reducible exact OnlyChanges.refl _ _
    | assumption
    | with_reducible refine onUnit_frame _ ?_
    | with_reducible refine next_frame ?_
    | with_reducible exact fault_frame _ _ _
    | with_reducible refine (escalate_frame _ _ _ _ _).after (by decide) ?_
    | with_reducible refine (dropAsked_frame _ _).after (by decide) ?_
    | with_reducible refine (warmPrepared_frame _ _).after (by decide) ?_
    | with_reducible refine (failStart_frame _ _).after (by decide) ?_
    | with_reducible refine (storeNow_frame _ _).after (by decide) ?_
    | with_reducible refine (warmRun_frame _ _ _ _).after (by decide) ?_
    | with_reducible refine (enterRecovery_frame _).after (by decide) ?_
    | with_reducible refine (clearAll_frame _).after (by decide) ?_
    | with_reducible refine (loadImage_frame _ _).after (by decide) ?_
    | extract_lets
    | with_reducible refine OnlyChanges.getD (fun _ _ => ?_) ?_
    | with_reducible refine OnlyChanges.foldl (fun _ _ => ?_) ?_
    | split

theorem countStart_frame (s) : OnlyChanges [.alert, .flash] s (countStart s) := by
  unfold countStart
  repeat' first
    | with_reducible exact OnlyChanges.refl _ _
    | assumption
    | with_reducible refine (storeNow_frame _ _).before ?_

theorem execStartTimeout_frame (a0 s) : NextChanges wideParts13 s (execStartTimeout a0 s) := by
  unfold execStartTimeout
  repeat' first
    | with_reducible exact OnlyChanges.refl _ _
    | assumption
    | with_reducible refine onUnit_frame _ ?_
    | with_reducible refine next_frame ?_
    | with_reducible exact fault_frame _ _ _
    | with_reducible refine (countStart_frame _).after (by decide) ?_
    | with_reducible refine (failStart_frame _ _).after (by decide) ?_
    | with_reducible refine modStart_frame _ ?_
    | with_reducible refine (warmPrepared_frame _ _).after (by decide) ?_
    | extract_lets
    | with_reducible refine OnlyChanges.getD (fun _ _ => ?_) ?_
    | with_reducible refine OnlyChanges.foldl (fun _ _ => ?_) ?_
    | split
    | extract_lets +lift
    | with_reducible refine OnlyChanges.foldl_fst (fun _ _ => ?_) ?_
    | with_reducible refine OnlyChanges.foldl_snd (fun _ _ => ?_) ?_
    | with_reducible refine OnlyChanges.of_fst (by assumption) ?_
    | with_reducible refine OnlyChanges.of_snd (by assumption) ?_
    | fail_if_no_progress (with_reducible refine OnlyChanges.upd rfl ?_)
    | dsimp +zetaDelta only []

theorem holdModule_frame (a0 s) : OnlyChanges wideParts14 s (holdModule a0 s) := by
  unfold holdModule
  repeat' first
    | with_reducible exact OnlyChanges.refl _ _
    | assumption
    | with_reducible refine (beginReset_frame _ _).after (by decide) ?_
    | with_reducible refine modStart_frame _ ?_
    | with_reducible refine (darkOptics_frame _).after (by decide) ?_
    | with_reducible refine (clearChip_frame _).after (by decide) ?_
    | with_reducible refine (mgmtUp_frame _ _).after (by decide) ?_
    | with_reducible refine (releaseOnly_frame _ _).after (by decide) ?_
    | extract_lets
    | with_reducible refine OnlyChanges.getD (fun _ _ => ?_) ?_
    | with_reducible refine OnlyChanges.foldl (fun _ _ => ?_) ?_
    | split
    | extract_lets +lift
    | with_reducible refine OnlyChanges.foldl_fst (fun _ _ => ?_) ?_
    | with_reducible refine OnlyChanges.foldl_snd (fun _ _ => ?_) ?_
    | with_reducible refine OnlyChanges.of_fst (by assumption) ?_
    | with_reducible refine OnlyChanges.of_snd (by assumption) ?_
    | with_reducible refine OnlyChanges.upd rfl ?_

theorem execModuleCycleHold_frame (s) : NextChanges wideParts14 s (execModuleCycleHold s) := by
  unfold execModuleCycleHold
  repeat' first
    | with_reducible exact OnlyChanges.refl _ _
    | assumption
    | with_reducible refine onUnit_frame _ ?_
    | with_reducible refine next_frame ?_
    | with_reducible exact fault_frame _ _ _
    | with_reducible refine (holdModule_frame _ _).before ?_
    | extract_lets
    | with_reducible refine OnlyChanges.getD (fun _ _ => ?_) ?_
    | with_reducible refine OnlyChanges.foldl (fun _ _ => ?_) ?_
    | split

theorem requestCycle_frame (s) : OnlyChanges [.alert, .supply, .startPhase, .flash, .islands, .events, .mailboxes,
    .sessions, .turns] s (requestCycle s) := by
  unfold requestCycle
  repeat' first
    | with_reducible exact OnlyChanges.refl _ _
    | assumption
    | with_reducible refine modPower_frame _ ?_
    | with_reducible refine (modConfig_frame _ _).after (by decide) ?_
    | with_reducible refine modStart_frame _ ?_
    | with_reducible refine (holdAll_frame _).after (by decide) ?_
    | extract_lets
    | with_reducible refine OnlyChanges.getD (fun _ _ => ?_) ?_
    | with_reducible refine OnlyChanges.foldl (fun _ _ => ?_) ?_
    | split
    | extract_lets +lift
    | with_reducible refine OnlyChanges.foldl_fst (fun _ _ => ?_) ?_
    | with_reducible refine OnlyChanges.foldl_snd (fun _ _ => ?_) ?_
    | with_reducible refine OnlyChanges.of_fst (by assumption) ?_
    | with_reducible refine OnlyChanges.of_snd (by assumption) ?_
    | with_reducible refine OnlyChanges.upd rfl ?_

theorem execCycleHoldExpiry_frame (s) : NextChanges [.alert, .supply, .startPhase, .flash, .islands, .events,
    .mailboxes, .sessions, .turns] s (execCycleHoldExpiry s) := by
  unfold execCycleHoldExpiry
  repeat' first
    | with_reducible exact OnlyChanges.refl _ _
    | assumption
    | with_reducible refine onUnit_frame _ ?_
    | with_reducible refine next_frame ?_
    | with_reducible exact fault_frame _ _ _
    | with_reducible refine (requestCycle_frame _).before ?_
    | extract_lets
    | with_reducible refine OnlyChanges.getD (fun _ _ => ?_) ?_
    | with_reducible refine OnlyChanges.foldl (fun _ _ => ?_) ?_
    | split

theorem execCycleRequestTimeout_frame (s) : NextChanges [.supply, .islands, .rings, .bays, .circuits] s
    (execCycleRequestTimeout s) := by
  unfold execCycleRequestTimeout
  repeat' first
    | with_reducible exact OnlyChanges.refl _ _
    | assumption
    | with_reducible refine onUnit_frame _ ?_
    | with_reducible refine next_frame ?_
    | with_reducible exact fault_frame _ _ _
    | with_reducible refine (holdAll_frame _).after (by decide) ?_
    | with_reducible refine (darkOptics_frame _).after (by decide) ?_
    | with_reducible refine modPower_frame _ ?_
    | extract_lets
    | with_reducible refine OnlyChanges.getD (fun _ _ => ?_) ?_
    | with_reducible refine OnlyChanges.foldl (fun _ _ => ?_) ?_
    | split

theorem completed_frame {qs : List Part} (s) (ha : qs.contains .alert = true := by decide +kernel)
    (hf : qs.contains .flash = true := by decide +kernel) : OnlyChanges qs s (modStart completeWrite s) := by
  refine modStart_frame _ (OnlyChanges.refl _ _) (hs := ?_) (ha := ha)
  have h := completeWrite_kept s.start
  simp [KeptStart] at h hf ⊢
  simp_all

theorem execFlashWriteComplete_frame (s) : NextChanges [.alert, .flash, .recoveryLog, .events, .mailboxes, .counters, .crumbs, .out] s (execFlashWriteComplete s) := by
  unfold execFlashWriteComplete
  refine next_frame ?_
  extract_lets
  split
  · exact (finish_frame _ _ _ _).after (by decide) ((modConfig_frame _ _).after (by decide) (completed_frame s))
  · exact completed_frame s

end Sys2Proof.Machine
end

