-- ==== Sys2Proof/Laws/FrameControl.lean ====
section
/-! SUPPORT. What the operations of Machine/Control.lean leave unchanged. -/

set_option Elab.async false

namespace Sys2Proof.Machine

theorem pushAgentEvent_frame (a0 a1 s) : OnlyChanges [.recoveryLog, .islands, .events, .counters, .crumbs] s
    (pushAgentEvent a0 a1 s) := by
  unfold pushAgentEvent
  repeat' first
    | with_reducible exact OnlyChanges.refl _ _
    | assumption
    | with_reducible refine (modIsland_frame _ _ _).after (by decide) ?_
    | with_reducible refine (countIsland_frame _ _ _ _).after (by decide) ?_
    | extract_lets
    | with_reducible refine OnlyChanges.getD (fun _ _ => ?_) ?_
    | with_reducible refine OnlyChanges.foldl (fun _ _ => ?_) ?_
    | split

theorem execAgentEventDelivery_frame (a0 s) : NextChanges [.islands, .registers] s (execAgentEventDelivery a0 s) :=
    by
  unfold execAgentEventDelivery
  repeat' first
    | with_reducible exact OnlyChanges.refl _ _
    | assumption
    | with_reducible refine onUnit_frame _ ?_
    | with_reducible refine next_frame ?_
    | with_reducible exact fault_frame _ _ _
    | with_reducible refine modCtl_frame _ ?_
    | with_reducible refine (modIsland_frame _ _ _).after (by decide) ?_
    | extract_lets
    | with_reducible refine OnlyChanges.getD (fun _ _ => ?_) ?_
    | with_reducible refine OnlyChanges.foldl (fun _ _ => ?_) ?_
    | split

theorem execPllUnlock_frame (a0 s) : NextChanges [.recoveryLog, .islands, .crossings, .time, .lanes, .ports,
    .packets, .queues, .room, .tables, .groups, .events, .mailboxes, .neighbours, .counters, .crumbs, .snapshots,
    .escalation, .devTime, .out, .linkKeys] s (execPllUnlock a0 s) := by
  unfold execPllUnlock
  repeat' first
    | with_reducible exact OnlyChanges.refl _ _
    | assumption
    | with_reducible refine onUnit_frame _ ?_
    | with_reducible refine next_frame ?_
    | with_reducible exact fault_frame _ _ _
    | with_reducible refine (countIsland_frame _ _ _ _).after (by decide) ?_
    | with_reducible refine (modIsland_frame _ _ _).after (by decide) ?_
    | with_reducible refine (holdIslands_frame _ _).after (by decide) ?_
    | with_reducible refine (pushAgentEvent_frame _ _ _).after (by decide) ?_
    | with_reducible refine (clearCluster_frame _ _).after (by decide) ?_
    | with_reducible refine (escalate_frame _ _ _ _ _).after (by decide) ?_
    | extract_lets
    | with_reducible refine OnlyChanges.getD (fun _ _ => ?_) ?_
    | with_reducible refine OnlyChanges.foldl (fun _ _ => ?_) ?_
    | split
    | extract_lets +lift
    | with_reducible refine OnlyChanges.foldl_fst (fun _ _ => ?_) ?_
    | with_reducible refine OnlyChanges.foldl_snd (fun _ _ => ?_) ?_
    | with_reducible refine OnlyChanges.of_fst (by assumption) ?_
    | with_reducible refine OnlyChanges.of_snd (by assumption) ?_
    | fail_if_no_progress (with_reducible refine OnlyChanges.upd rfl ?_)
    | dsimp +zetaDelta only []

theorem execPllRelock_frame (a0 s) : NextChanges [.islands, .escalation] s (execPllRelock a0 s) := by
  unfold execPllRelock
  repeat' first
    | with_reducible exact OnlyChanges.refl _ _
    | assumption
    | with_reducible refine onUnit_frame _ ?_
    | with_reducible refine next_frame ?_
    | with_reducible exact fault_frame _ _ _
    | with_reducible refine (modIsland_frame _ _ _).after (by decide) ?_
    | with_reducible refine (returnScope_frame _ _).after (by decide) ?_
    | with_reducible refine (dropAsked_frame _ _).after (by decide) ?_
    | with_reducible refine (releaseIsland_frame _ _).after (by decide) ?_
    | extract_lets
    | with_reducible refine OnlyChanges.getD (fun _ _ => ?_) ?_
    | with_reducible refine OnlyChanges.foldl (fun _ _ => ?_) ?_
    | split

theorem execPllRelockTimeout_frame (a0 s) : NextChanges [.recoveryLog, .events, .counters, .crumbs, .escalation] s
    (execPllRelockTimeout a0 s) := by
  unfold execPllRelockTimeout
  repeat' first
    | with_reducible exact OnlyChanges.refl _ _
    | assumption
    | with_reducible refine onUnit_frame _ ?_
    | with_reducible refine next_frame ?_
    | with_reducible exact fault_frame _ _ _
    | with_reducible refine (escalateIsland_frame _ _ _ _).before ?_
    | extract_lets
    | with_reducible refine OnlyChanges.getD (fun _ _ => ?_) ?_
    | with_reducible refine OnlyChanges.foldl (fun _ _ => ?_) ?_
    | split

theorem addressError_frame (a0 s) : OnlyChanges [.recoveryLog, .islands, .events, .counters, .crumbs] s
    (addressError a0 s) := by
  unfold addressError
  repeat' first
    | with_reducible exact OnlyChanges.refl _ _
    | assumption
    | with_reducible refine (countIsland_frame _ _ _ _).after (by decide) ?_
    | with_reducible refine (modIsland_frame _ _ _).after (by decide) ?_
    | extract_lets
    | with_reducible refine OnlyChanges.getD (fun _ _ => ?_) ?_
    | with_reducible refine OnlyChanges.foldl (fun _ _ => ?_) ?_
    | split

theorem doAccess_frame (a0 s) : OnlyChanges [.recoveryLog, .islands, .registers, .events, .counters, .crumbs, .out]
    s (doAccess a0 s) := by
  unfold doAccess
  repeat' first
    | with_reducible exact OnlyChanges.refl _ _
    | assumption
    | with_reducible refine (emit_frame _ _).after (by decide) ?_
    | with_reducible refine (addressError_frame _ _).after (by decide) ?_
    | with_reducible refine modCtl_frame _ ?_
    | with_reducible refine (modIsland_frame _ _ _).after (by decide) ?_
    | extract_lets
    | with_reducible refine OnlyChanges.getD (fun _ _ => ?_) ?_
    | with_reducible refine OnlyChanges.foldl (fun _ _ => ?_) ?_
    | split

theorem sendAccesses_frame (a0 a1 s) : OnlyChanges [.islands, .registers] s (sendAccesses a0 a1 s) := by
  unfold sendAccesses
  repeat' first
    | with_reducible exact OnlyChanges.refl _ _
    | assumption
    | with_reducible refine modCtl_frame _ ?_
    | with_reducible refine (modIsland_frame _ _ _).after (by decide) ?_

theorem execControlAgentAccess_frame (a0 a1 s) : NextChanges [.recoveryLog, .islands, .registers, .events,
    .counters, .crumbs, .out] s (execControlAgentAccess a0 a1 s) := by
  unfold execControlAgentAccess
  repeat' first
    | with_reducible exact OnlyChanges.refl _ _
    | assumption
    | with_reducible refine onUnit_frame _ ?_
    | with_reducible refine next_frame ?_
    | with_reducible exact fault_frame _ _ _
    | with_reducible refine (sendAccesses_frame _ _ _).after (by decide) ?_
    | with_reducible refine (doAccess_frame _ _).before ?_
    | with_reducible refine (modIsland_frame _ _ _).after (by decide) ?_
    | extract_lets
    | with_reducible refine OnlyChanges.getD (fun _ _ => ?_) ?_
    | with_reducible refine OnlyChanges.foldl (fun _ _ => ?_) ?_
    | split

theorem execRegisterWrite_frame (a0 a1 s) : NextChanges [.registers] s (execRegisterWrite a0 a1 s) := by
  unfold execRegisterWrite
  repeat' first
    | with_reducible exact OnlyChanges.refl _ _
    | assumption
    | with_reducible refine onUnit_frame _ ?_
    | with_reducible refine next_frame ?_
    | with_reducible exact fault_frame _ _ _
    | with_reducible refine modCtl_frame _ ?_
    | extract_lets
    | with_reducible refine OnlyChanges.getD (fun _ _ => ?_) ?_
    | with_reducible refine OnlyChanges.foldl (fun _ _ => ?_) ?_
    | split

theorem execAddrErrClear_frame (a0 a1 s) : NextChanges [.recoveryLog, .islands, .events, .counters, .crumbs] s
    (execAddrErrClear a0 a1 s) := by
  unfold execAddrErrClear
  repeat' first
    | with_reducible exact OnlyChanges.refl _ _
    | assumption
    | with_reducible refine onUnit_frame _ ?_
    | with_reducible refine next_frame ?_
    | with_reducible exact fault_frame _ _ _
    | with_reducible refine (addressError_frame _ _).before ?_
    | with_reducible refine (modIsland_frame _ _ _).after (by decide) ?_
    | extract_lets
    | with_reducible refine OnlyChanges.getD (fun _ _ => ?_) ?_
    | with_reducible refine OnlyChanges.foldl (fun _ _ => ?_) ?_
    | split

theorem execAgentTimeout_frame (a0 a1 s) : NextChanges [.recoveryLog, .islands, .events, .counters, .crumbs,
    .escalation] s (execAgentTimeout a0 a1 s) := by
  unfold execAgentTimeout
  repeat' first
    | with_reducible exact OnlyChanges.refl _ _
    | assumption
    | with_reducible refine onUnit_frame _ ?_
    | with_reducible refine next_frame ?_
    | with_reducible exact fault_frame _ _ _
    | with_reducible refine (escalateIsland_frame _ _ _ _).after (by decide) ?_
    | with_reducible refine (crumb_frame _ _ _ _ _).after (by decide) ?_
    | with_reducible refine (modIsland_frame _ _ _).after (by decide) ?_
    | extract_lets
    | with_reducible refine OnlyChanges.getD (fun _ _ => ?_) ?_
    | with_reducible refine OnlyChanges.foldl (fun _ _ => ?_) ?_
    | split

theorem execCrossingDelivery_frame (a0 a1 a2 s) : NextChanges [.crossings] s (execCrossingDelivery a0 a1 a2 s) :=
    by
  unfold execCrossingDelivery
  repeat' first
    | with_reducible exact OnlyChanges.refl _ _
    | assumption
    | with_reducible refine onUnit_frame _ ?_
    | with_reducible refine next_frame ?_
    | with_reducible exact fault_frame _ _ _
    | with_reducible refine modCtl_frame _ ?_
    | extract_lets
    | with_reducible refine OnlyChanges.getD (fun _ _ => ?_) ?_
    | with_reducible refine OnlyChanges.foldl (fun _ _ => ?_) ?_
    | split

theorem leaveTest_frame (s) : OnlyChanges [.alert, .startPhase] s (leaveTest s) := by
  unfold leaveTest
  repeat' first
    | with_reducible exact OnlyChanges.refl _ _
    | assumption
    | with_reducible refine (beginCold_frame _).before ?_
    | extract_lets
    | with_reducible refine OnlyChanges.getD (fun _ _ => ?_) ?_
    | with_reducible refine OnlyChanges.foldl (fun _ _ => ?_) ?_
    | split

theorem execJtagInstructionLoad_frame (a0 s) : NextChanges wideParts7 s (execJtagInstructionLoad a0 s) := by
  unfold execJtagInstructionLoad
  repeat' first
    | with_reducible exact OnlyChanges.refl _ _
    | assumption
    | with_reducible refine onUnit_frame _ ?_
    | with_reducible refine next_frame ?_
    | with_reducible exact fault_frame _ _ _
    | with_reducible refine modStart_frame _ ?_
    | with_reducible refine modTele_frame _ ?_
    | with_reducible refine (coldHold_frame _).before ?_
    | with_reducible refine (leaveTest_frame _).after (by decide) ?_
    | extract_lets
    | with_reducible refine OnlyChanges.getD (fun _ _ => ?_) ?_
    | with_reducible refine OnlyChanges.foldl (fun _ _ => ?_) ?_
    | split

theorem execJtagTestLogicReset_frame (s) : NextChanges [.alert, .startPhase, .snapshots] s (execJtagTestLogicReset
    s) := by
  unfold execJtagTestLogicReset
  repeat' first
    | with_reducible exact OnlyChanges.refl _ _
    | assumption
    | with_reducible refine onUnit_frame _ ?_
    | with_reducible refine next_frame ?_
    | with_reducible exact fault_frame _ _ _
    | with_reducible refine modTele_frame _ ?_
    | with_reducible refine (leaveTest_frame _).after (by decide) ?_
    | extract_lets
    | with_reducible refine OnlyChanges.getD (fun _ _ => ?_) ?_
    | with_reducible refine OnlyChanges.foldl (fun _ _ => ?_) ?_
    | split

end Sys2Proof.Machine
end

