-- ==== Sys2Proof/Laws/FrameMirror.lean ====
section
/-! SUPPORT. What the operations of Machine/Mirror.lean leave unchanged. -/

set_option Elab.async false

namespace Sys2Proof.Machine

theorem sendFirmware_frame (a0 a1 s) : OnlyChanges [.recoveryLog, .ports, .packets, .queues, .room, .numbering,
    .firmware, .tables, .events, .counters, .crumbs] s (sendFirmware a0 a1 s) := by
  unfold sendFirmware
  repeat' first
    | with_reducible exact OnlyChanges.refl _ _
    | assumption
    | with_reducible refine (sendControl_frame _ _).before ?_

theorem takeFirmware_frame (a0 s) : ∀ t, takeFirmware a0 s = some t → OnlyChanges [.firmware] s t.2 := by
  intro t ht
  revert ht
  unfold takeFirmware
  repeat' first
    | with_reducible exact OnlyChanges.refl _ _
    | assumption
    | (intro ht; with_reducible refine (takeControl_frame _ _ (_, _) ht).after (by decide) ?_)
    | (intro ht; (first | (injection ht with ht; subst ht) | (simp at ht; done)))

theorem dropDamaged_frame (a0 s) : OnlyChanges [.regions] s (dropDamaged a0 s) := by
  unfold dropDamaged
  repeat' first
    | with_reducible exact OnlyChanges.refl _ _
    | assumption
    | with_reducible refine (freeRegion_frame _ _).before ?_
    | extract_lets
    | with_reducible refine OnlyChanges.getD (fun _ _ => ?_) ?_
    | with_reducible refine OnlyChanges.foldl (fun _ _ => ?_) ?_
    | split

theorem enterMirror_frame (a0 a1 a2 a3 a4 s) : OnlyChanges [.regions, .mirrors] s (enterMirror a0 a1 a2 a3 a4 s) :=
    by
  unfold enterMirror
  repeat' first
    | with_reducible exact OnlyChanges.refl _ _
    | assumption
    | with_reducible refine modGran_frame _ ?_
    | with_reducible refine (dropDamaged_frame _ _).after (by decide) ?_

theorem mirrorReplica_frame (a0 s) : OnlyChanges [.recoveryLog, .events, .mailboxes, .regions, .mirrors, .counters,
    .crumbs, .decisions, .out] s (mirrorReplica a0 s) := by
  unfold mirrorReplica
  repeat' first
    | with_reducible exact OnlyChanges.refl _ _
    | assumption
    | with_reducible refine (writeDecision_frame _ _ _ _ _ _ _).after (by decide) ?_
    | with_reducible refine (enterMirror_frame _ _ _ _ _ _).after (by decide) ?_
    | with_reducible refine (finish_frame _ _ _ _).after (by decide) ?_
    | with_reducible refine (raise31_frame _ _ _).after (by decide) ?_
    | with_reducible refine (noChoice_frame _ _ _ _ _).after (by decide) ?_
    | extract_lets
    | with_reducible refine OnlyChanges.getD (fun _ _ => ?_) ?_
    | with_reducible refine OnlyChanges.foldl (fun _ _ => ?_) ?_
    | split

theorem askNext_frame (a0 s) : OnlyChanges [.recoveryLog, .ports, .packets, .queues, .room, .numbering, .firmware,
    .tables, .events, .mailboxes, .regions, .mirrors, .counters, .crumbs, .decisions, .out] s (askNext a0 s) := by
  unfold askNext
  repeat' first
    | with_reducible exact OnlyChanges.refl _ _
    | assumption
    | with_reducible refine modGran_frame _ ?_
    | with_reducible refine (mirrorReplica_frame _ _).after (by decide) ?_
    | with_reducible refine (sendFirmware_frame _ _ _).after (by decide) ?_
    | extract_lets
    | with_reducible refine OnlyChanges.getD (fun _ _ => ?_) ?_
    | with_reducible refine OnlyChanges.foldl (fun _ _ => ?_) ?_
    | split

theorem answerAsk_frame (a0 a1 a2 s) : OnlyChanges [.recoveryLog, .ports, .packets, .queues, .room, .numbering,
    .firmware, .tables, .events, .counters, .crumbs] s (answerAsk a0 a1 a2 s) := by
  unfold answerAsk
  repeat' first
    | with_reducible exact OnlyChanges.refl _ _
    | assumption
    | with_reducible refine (sendFirmware_frame _ _ _).before ?_

theorem grantMirror_frame (a0 a1 a2 a3 s) : OnlyChanges [.recoveryLog, .ports, .packets, .queues, .room,
    .numbering, .firmware, .tables, .events, .regions, .counters, .crumbs, .decisions] s (grantMirror a0 a1 a2 a3
    s) := by
  unfold grantMirror
  repeat' first
    | with_reducible exact OnlyChanges.refl _ _
    | assumption
    | with_reducible refine (answerAsk_frame _ _ _ _).after (by decide) ?_
    | with_reducible refine (placeRegion_frame _ _ _ _).after (by decide) ?_
    | with_reducible refine (addRegion_frame _ _ _).after (by decide) ?_
    | extract_lets
    | with_reducible refine OnlyChanges.getD (fun _ _ => ?_) ?_
    | with_reducible refine OnlyChanges.foldl (fun _ _ => ?_) ?_
    | split
    | extract_lets +lift
    | with_reducible refine OnlyChanges.foldl_fst (fun _ _ => ?_) ?_
    | with_reducible refine OnlyChanges.foldl_snd (fun _ _ => ?_) ?_
    | with_reducible refine OnlyChanges.of_fst (by assumption) ?_
    | with_reducible refine OnlyChanges.of_snd (by assumption) ?_

theorem execMirrorAskRx_frame (s) : NextChanges [.recoveryLog, .ports, .packets, .queues, .room, .numbering,
    .firmware, .tables, .events, .regions, .counters, .crumbs, .decisions] s (execMirrorAskRx s) := by
  unfold execMirrorAskRx
  repeat' first
    | with_reducible exact OnlyChanges.refl _ _
    | assumption
    | with_reducible refine onUnit_frame _ ?_
    | with_reducible refine next_frame ?_
    | with_reducible exact fault_frame _ _ _
    | with_reducible refine (takeFirmware_frame _ _ (_, _) (by assumption)).after (by decide) ?_
    | with_reducible refine (answerAsk_frame _ _ _ _).after (by decide) ?_
    | with_reducible refine (grantMirror_frame _ _ _ _ _).before ?_
    | extract_lets
    | with_reducible refine OnlyChanges.getD (fun _ _ => ?_) ?_
    | with_reducible refine OnlyChanges.foldl (fun _ _ => ?_) ?_
    | split

theorem mirrorGranted_frame (a0 a1 s) : OnlyChanges [.recoveryLog, .events, .mailboxes, .regions, .mirrors,
    .counters, .crumbs, .decisions, .out] s (mirrorGranted a0 a1 s) := by
  unfold mirrorGranted
  repeat' first
    | with_reducible exact OnlyChanges.refl _ _
    | assumption
    | with_reducible refine (writeDecision_frame _ _ _ _ _ _ _).after (by decide) ?_
    | with_reducible refine (enterMirror_frame _ _ _ _ _ _).after (by decide) ?_
    | with_reducible refine (finish_frame _ _ _ _).after (by decide) ?_

theorem execMirrorGrantRx_frame (s) : NextChanges [.recoveryLog, .firmware, .events, .mailboxes, .regions,
    .mirrors, .counters, .crumbs, .decisions, .out] s (execMirrorGrantRx s) := by
  unfold execMirrorGrantRx
  repeat' first
    | with_reducible exact OnlyChanges.refl _ _
    | assumption
    | with_reducible refine onUnit_frame _ ?_
    | with_reducible refine next_frame ?_
    | with_reducible exact fault_frame _ _ _
    | with_reducible refine (takeFirmware_frame _ _ (_, _) (by assumption)).after (by decide) ?_
    | with_reducible refine modGran_frame _ ?_
    | with_reducible refine (mirrorGranted_frame _ _ _).after (by decide) ?_
    | extract_lets
    | with_reducible refine OnlyChanges.getD (fun _ _ => ?_) ?_
    | with_reducible refine OnlyChanges.foldl (fun _ _ => ?_) ?_
    | split

theorem execMirrorDenyRx_frame (s) : NextChanges [.recoveryLog, .ports, .packets, .queues, .room, .numbering,
    .firmware, .tables, .events, .mailboxes, .regions, .mirrors, .counters, .crumbs, .decisions, .out] s
    (execMirrorDenyRx s) := by
  unfold execMirrorDenyRx
  repeat' first
    | with_reducible exact OnlyChanges.refl _ _
    | assumption
    | with_reducible refine onUnit_frame _ ?_
    | with_reducible refine next_frame ?_
    | with_reducible exact fault_frame _ _ _
    | with_reducible refine (takeFirmware_frame _ _ (_, _) (by assumption)).after (by decide) ?_
    | with_reducible refine (askNext_frame _ _).before ?_
    | extract_lets
    | with_reducible refine OnlyChanges.getD (fun _ _ => ?_) ?_
    | with_reducible refine OnlyChanges.foldl (fun _ _ => ?_) ?_
    | split

theorem execMirrorAskTimeout_frame (a0 s) : NextChanges [.recoveryLog, .ports, .packets, .queues, .room,
    .numbering, .firmware, .tables, .events, .mailboxes, .regions, .mirrors, .counters, .crumbs, .decisions, .out]
    s (execMirrorAskTimeout a0 s) := by
  unfold execMirrorAskTimeout
  repeat' first
    | with_reducible exact OnlyChanges.refl _ _
    | assumption
    | with_reducible refine onUnit_frame _ ?_
    | with_reducible refine next_frame ?_
    | with_reducible exact fault_frame _ _ _
    | with_reducible refine (askNext_frame _ _).before ?_

end Sys2Proof.Machine
end

