-- ==== Sys2Proof/Laws/FrameFirmware.lean ====
section
/-! SUPPORT. What the operations of Machine/Firmware.lean leave unchanged. -/

set_option Elab.async false

namespace Sys2Proof.Machine

theorem execSpineRequestRx_frame (s) : NextChanges [.recoveryLog, .ports, .packets, .queues, .room, .numbering,
    .firmware, .tables, .gates, .events, .counters, .crumbs] s (execSpineRequestRx s) := by
  unfold execSpineRequestRx
  repeat' first
    | with_reducible exact OnlyChanges.refl _ _
    | assumption
    | with_reducible refine onUnit_frame _ ?_
    | with_reducible refine next_frame ?_
    | with_reducible exact fault_frame _ _ _
    | with_reducible refine (takeDelivered_frame _ _ (_, _) (by assumption)).after (by decide) ?_
    | with_reducible refine (startWork_frame _ _ _ _).after (by decide) ?_
    | with_reducible refine (originate_frame _ _ _).after (by decide) ?_
    | extract_lets
    | with_reducible refine OnlyChanges.getD (fun _ _ => ?_) ?_
    | with_reducible refine OnlyChanges.foldl (fun _ _ => ?_) ?_
    | split

theorem execSpinePacketDiscard_frame (s) : NextChanges [.recoveryLog, .ports, .packets, .room, .firmware, .gates,
    .events, .counters, .crumbs] s (execSpinePacketDiscard s) := by
  unfold execSpinePacketDiscard
  repeat' first
    | with_reducible exact OnlyChanges.refl _ _
    | assumption
    | with_reducible refine onUnit_frame _ ?_
    | with_reducible refine next_frame ?_
    | with_reducible exact fault_frame _ _ _
    | with_reducible refine (takeDelivered_frame _ _ (_, _) (by assumption)).after (by decide) ?_
    | with_reducible refine (countControl_frame _ _).after (by decide) ?_
    | with_reducible refine (startWork_frame _ _ _ _).after (by decide) ?_
    | extract_lets
    | with_reducible refine OnlyChanges.getD (fun _ _ => ?_) ?_
    | with_reducible refine OnlyChanges.foldl (fun _ _ => ?_) ?_
    | split

theorem execFirmwareControlRx_frame (s) : NextChanges [.recoveryLog, .ports, .packets, .room, .firmware, .events,
    .counters, .crumbs] s (execFirmwareControlRx s) := by
  unfold execFirmwareControlRx
  repeat' first
    | with_reducible exact OnlyChanges.refl _ _
    | assumption
    | with_reducible refine onUnit_frame _ ?_
    | with_reducible refine next_frame ?_
    | with_reducible exact fault_frame _ _ _
    | with_reducible refine (takeDelivered_frame _ _ (_, _) (by assumption)).after (by decide) ?_
    | with_reducible refine (countControl_frame _ _).after (by decide) ?_
    | with_reducible refine (countWinnow_frame _ _).after (by decide) ?_
    | with_reducible refine modBuf_frame _ ?_
    | extract_lets
    | with_reducible refine OnlyChanges.getD (fun _ _ => ?_) ?_
    | with_reducible refine OnlyChanges.foldl (fun _ _ => ?_) ?_
    | split

theorem execFwOutboundDrain_frame (s) : NextChanges [.recoveryLog, .ports, .packets, .queues, .room, .numbering,
    .firmware, .tables, .events, .counters, .crumbs] s (execFwOutboundDrain s) := by
  unfold execFwOutboundDrain
  repeat' first
    | with_reducible exact OnlyChanges.refl _ _
    | assumption
    | with_reducible refine onUnit_frame _ ?_
    | with_reducible refine next_frame ?_
    | with_reducible exact fault_frame _ _ _
    | with_reducible refine (originate_frame _ _ _).before ?_
    | with_reducible refine modBuf_frame _ ?_
    | extract_lets
    | with_reducible refine OnlyChanges.getD (fun _ _ => ?_) ?_
    | with_reducible refine OnlyChanges.foldl (fun _ _ => ?_) ?_
    | split

end Sys2Proof.Machine
end

