-- ==== Sys2Proof/Laws/FrameMgmtOps.lean ====
section
/-! SUPPORT. What the operations of Machine/MgmtOps.lean leave unchanged. -/

set_option Elab.async false

namespace Sys2Proof.Machine

theorem modMgmt_frame {qs : List Part} {s x : State} (f : MgmtState → MgmtState) (h : OnlyChanges qs s x)
    (hk : KeptMgmt qs x.mgmt (f x.mgmt) := by
      (refine KeptMgmt.lit ?_ ?_ ?_ ?_
       · first | exact Or.inl (by decide) | exact Or.inr rfl
       · first | exact Or.inl (by decide) | exact Or.inr ⟨rfl, rfl⟩
       · first | exact Or.inl (by decide) | exact Or.inr ⟨rfl, rfl, rfl⟩
       · first | exact Or.inl (by decide) | exact Or.inr ⟨rfl, rfl⟩)) : OnlyChanges qs s (modMgmt f x) :=
  OnlyChanges.upd rfl h (hmgmt := hk)

theorem sendFrame_frame (a0 a1 s) : OnlyChanges [.recoveryLog, .events, .counters, .crumbs, .out] s (sendFrame a0
    a1 s) := by
  unfold sendFrame
  repeat' first
    | with_reducible exact OnlyChanges.refl _ _
    | assumption
    | with_reducible refine (countTx_frame _ _ _).after (by decide) ?_
    | with_reducible refine (emit_frame _ _).after (by decide) ?_
    | extract_lets
    | with_reducible refine OnlyChanges.getD (fun _ _ => ?_) ?_
    | with_reducible refine OnlyChanges.foldl (fun _ _ => ?_) ?_
    | split

theorem closeSession_frame (a0 s) : OnlyChanges [.mailboxes, .sessions] s (closeSession a0 s) := by
  unfold closeSession
  repeat' first
    | with_reducible exact OnlyChanges.refl _ _
    | assumption
    | with_reducible refine modMgmt_frame _ ?_

theorem flushUnsent_frame (a0 s) : OnlyChanges [.recoveryLog, .events, .mailboxes, .counters, .crumbs, .out] s
    (flushUnsent a0 s) := by
  unfold flushUnsent
  repeat' first
    | with_reducible exact OnlyChanges.refl _ _
    | assumption
    | with_reducible refine (sendResponse_frame _ _ _).before ?_
    | with_reducible refine (modMailbox_frame _ _ _).after (by decide) ?_
    | extract_lets
    | with_reducible refine OnlyChanges.getD (fun _ _ => ?_) ?_
    | with_reducible refine OnlyChanges.foldl (fun _ _ => ?_) ?_

theorem bindMailbox_frame (a0 a1 s) : OnlyChanges [.recoveryLog, .events, .mailboxes, .counters, .crumbs, .out] s
    (bindMailbox a0 a1 s) := by
  unfold bindMailbox
  repeat' first
    | with_reducible exact OnlyChanges.refl _ _
    | assumption
    | with_reducible refine (flushUnsent_frame _ _).before ?_
    | with_reducible refine (modEventQueue_frame _ _ _).after (by decide) ?_
    | with_reducible refine (modMailbox_frame _ _ _).after (by decide) ?_
    | extract_lets
    | with_reducible refine OnlyChanges.getD (fun _ _ => ?_) ?_
    | with_reducible refine OnlyChanges.foldl (fun _ _ => ?_) ?_
    | split

theorem datagramArrives_frame (a0 a1 s) : ∀ t, datagramArrives a0 a1 s = some t → OnlyChanges [.recoveryLog,
    .events, .sessions, .counters, .crumbs] s t.2 := by
  intro t ht
  revert ht
  unfold datagramArrives
  repeat' first
    | with_reducible exact OnlyChanges.refl _ _
    | assumption
    | with_reducible refine (countMgmt_frame _ _ _).after (by decide) ?_
    | with_reducible refine modMgmt_frame _ ?_
    | (intro ht; (first | (injection ht with ht; subst ht) | (simp at ht; done)))
    | extract_lets
    | with_reducible refine OnlyChanges.getD (fun _ _ => ?_) ?_
    | with_reducible refine OnlyChanges.foldl (fun _ _ => ?_) ?_
    | split

theorem discardPeel_frame (a0 s) : OnlyChanges [.recoveryLog, .events, .counters, .crumbs] s (discardPeel a0 s) :=
    by
  unfold discardPeel
  repeat' first
    | with_reducible exact OnlyChanges.refl _ _
    | assumption
    | with_reducible refine (countMgmt_frame _ _ _).before ?_

theorem enterCommand_frame (a0 a1 a2 s) : OnlyChanges [.recoveryLog, .events, .mailboxes, .counters, .crumbs] s
    (enterCommand a0 a1 a2 s) := by
  unfold enterCommand
  repeat' first
    | with_reducible exact OnlyChanges.refl _ _
    | assumption
    | with_reducible refine (modMailbox_frame _ _ _).after (by decide) ?_
    | with_reducible refine (takeSeq_frame _ _).before ?_

theorem rejectTo_frame (a0 a1 a2 a3 a4 s) : OnlyChanges [.recoveryLog, .events, .counters, .crumbs, .out] s
    (rejectTo a0 a1 a2 a3 a4 s) := by
  unfold rejectTo
  repeat' first
    | with_reducible exact OnlyChanges.refl _ _
    | assumption
    | with_reducible refine (emitResponse_frame _ _ _ _).before ?_

theorem receiveCommand_frame (a0 a1 a2 a3 a4 s) : OnlyChanges [.recoveryLog, .events, .mailboxes, .counters,
    .crumbs, .out] s (receiveCommand a0 a1 a2 a3 a4 s) := by
  unfold receiveCommand
  repeat' first
    | with_reducible exact OnlyChanges.refl _ _
    | assumption
    | with_reducible refine (rejectTo_frame _ _ _ _ _ _).after (by decide) ?_
    | with_reducible refine (filterCommand_frame _ _ _).after (by decide) ?_
    | with_reducible refine (bindMailbox_frame _ _ _).before ?_
    | with_reducible refine (sendAccepted_frame _ _ _).before ?_
    | with_reducible refine (sendResponse_frame _ _ _).before ?_
    | with_reducible refine (reject_frame _ _ _ _ _).before ?_
    | with_reducible refine (enterCommand_frame _ _ _ _).after (by decide) ?_
    | extract_lets
    | with_reducible refine OnlyChanges.getD (fun _ _ => ?_) ?_
    | with_reducible refine OnlyChanges.foldl (fun _ _ => ?_) ?_
    | split

theorem dropMessage_frame (a0 a1 a2 s) : OnlyChanges [.mailboxes] s (dropMessage a0 a1 a2 s) := by
  unfold dropMessage
  repeat' first
    | with_reducible exact OnlyChanges.refl _ _
    | assumption
    | with_reducible refine (modMailbox_frame _ _ _).before ?_

theorem assemble_frame (a0 a1 a2 a3 s) : OnlyChanges [.recoveryLog, .events, .mailboxes, .counters, .crumbs, .out]
    s (assemble a0 a1 a2 a3 s) := by
  unfold assemble
  repeat' first
    | with_reducible exact OnlyChanges.refl _ _
    | assumption
    | with_reducible refine (discardPeel_frame _ _).after (by decide) ?_
    | with_reducible refine (dropMessage_frame _ _ _ _).after (by decide) ?_
    | with_reducible refine (receiveCommand_frame _ _ _ _ _ _).before ?_
    | with_reducible refine (modMailbox_frame _ _ _).after (by decide) ?_
    | extract_lets
    | with_reducible refine OnlyChanges.getD (fun _ _ => ?_) ?_
    | with_reducible refine OnlyChanges.foldl (fun _ _ => ?_) ?_
    | split

theorem dispatchStep_frame (s) : OnlyChanges [.mailboxes, .turns] s (dispatchStep s) := by
  unfold dispatchStep
  repeat' first
    | with_reducible exact OnlyChanges.refl _ _
    | assumption
    | with_reducible refine (modMailbox_frame _ _ _).after (by decide) ?_
    | with_reducible refine modMgmt_frame _ ?_
    | extract_lets
    | with_reducible refine OnlyChanges.getD (fun _ _ => ?_) ?_
    | with_reducible refine OnlyChanges.foldl (fun _ _ => ?_) ?_
    | split

theorem sendEvents_frame (a0 s) : OnlyChanges [.recoveryLog, .events, .counters, .crumbs, .out] s (sendEvents a0 s)
    := by
  unfold sendEvents
  repeat' first
    | with_reducible exact OnlyChanges.refl _ _
    | assumption
    | with_reducible refine (countTx_frame _ _ _).after (by decide) ?_
    | with_reducible refine (emit_frame _ _).after (by decide) ?_
    | with_reducible refine (modEventQueue_frame _ _ _).after (by decide) ?_
    | with_reducible refine (countQuiet_frame _ _ _).after (by decide) ?_
    | extract_lets
    | with_reducible refine OnlyChanges.getD (fun _ _ => ?_) ?_
    | with_reducible refine OnlyChanges.foldl (fun _ _ => ?_) ?_
    | split

end Sys2Proof.Machine
end

