-- ==== Sys2Proof/Laws/FrameFwCmd.lean ====
section
/-! SUPPORT. What the operations of Machine/FwCmd.lean leave unchanged. -/

set_option Elab.async false

namespace Sys2Proof.Machine

theorem execFwCaps_frame (a0 s) : NextChanges [.recoveryLog, .events, .mailboxes, .counters, .crumbs, .out] s
    (execFwCaps a0 s) := by
  unfold execFwCaps
  repeat' first
    | with_reducible exact OnlyChanges.refl _ _
    | assumption
    | with_reducible refine onUnit_frame _ ?_
    | with_reducible refine next_frame ?_
    | with_reducible exact fault_frame _ _ _
    | with_reducible refine runCommand_frame _ _ _ (fun _ => ?_)
    | with_reducible exact failWith_frame _ _ _
    | with_reducible refine okWith_frame ?_
    | with_reducible refine done_frame ?_

theorem execFwInfo_frame (a0 s) : NextChanges [.recoveryLog, .events, .mailboxes, .counters, .crumbs, .out] s
    (execFwInfo a0 s) := by
  unfold execFwInfo
  repeat' first
    | with_reducible exact OnlyChanges.refl _ _
    | assumption
    | with_reducible refine onUnit_frame _ ?_
    | with_reducible refine next_frame ?_
    | with_reducible exact fault_frame _ _ _
    | with_reducible refine runCommand_frame _ _ _ (fun _ => ?_)
    | with_reducible exact failWith_frame _ _ _
    | with_reducible refine okWith_frame ?_
    | with_reducible refine done_frame ?_

theorem writeImage_frame (a0 a1 s) : OnlyChanges [.alert, .flash] s (writeImage a0 a1 s) := by
  unfold writeImage
  refine modStart_frame _ (OnlyChanges.refl _ _) (hs := ?_)
  have h := completeWrite_kept s.start
  simp [KeptStart] at h ⊢
  simp_all

theorem execFwUpdate_frame (a0 a1 a2 s) : NextChanges [.alert, .flash, .recoveryLog, .events, .mailboxes,
    .counters, .crumbs, .free, .out, .proposals] s (execFwUpdate a0 a1 a2 s) := by
  unfold execFwUpdate
  repeat' first
    | with_reducible exact OnlyChanges.refl _ _
    | assumption
    | with_reducible refine onUnit_frame _ ?_
    | with_reducible refine next_frame ?_
    | with_reducible exact fault_frame _ _ _
    | with_reducible refine runCommand_frame _ _ _ (fun _ => ?_)
    | with_reducible refine (writeImage_frame _ _ _).after (by decide) ?_
    | with_reducible refine (propose_frame _ _ _).mono (by decide)
    | with_reducible exact failWith_frame _ _ _
    | with_reducible refine okWith_frame ?_
    | with_reducible refine done_frame ?_
    | with_reducible refine fails_frame ?_
    | with_reducible refine later_frame ?_
    | with_reducible refine soon_frame ?_
    | with_reducible refine laterGrace_frame ?_
    | extract_lets
    | with_reducible refine OnlyChanges.getD (fun _ _ => ?_) ?_
    | with_reducible refine OnlyChanges.foldl (fun _ _ => ?_) ?_
    | split

theorem execFwStage_frame (a0 a1 a2 s) : NextChanges [.alert, .recoveryLog, .staging, .events, .mailboxes,
    .counters, .crumbs, .out] s (execFwStage a0 a1 a2 s) := by
  unfold execFwStage
  repeat' first
    | with_reducible exact OnlyChanges.refl _ _
    | assumption
    | with_reducible refine onUnit_frame _ ?_
    | with_reducible refine next_frame ?_
    | with_reducible exact fault_frame _ _ _
    | with_reducible refine runCommand_frame _ _ _ (fun _ => ?_)
    | with_reducible refine modStart_frame _ ?_
    | with_reducible exact failWith_frame _ _ _
    | with_reducible refine okWith_frame ?_
    | with_reducible refine done_frame ?_
    | with_reducible refine fails_frame ?_
    | with_reducible refine later_frame ?_
    | with_reducible refine soon_frame ?_
    | with_reducible refine laterGrace_frame ?_
    | extract_lets
    | with_reducible refine OnlyChanges.getD (fun _ _ => ?_) ?_
    | with_reducible refine OnlyChanges.foldl (fun _ _ => ?_) ?_
    | split

theorem execFwCredit_frame (a0 a1 a2 s) : NextChanges [.recoveryLog, .events, .mailboxes, .counters, .crumbs, .out]
    s (execFwCredit a0 a1 a2 s) := by
  unfold execFwCredit
  repeat' first
    | with_reducible exact OnlyChanges.refl _ _
    | assumption
    | with_reducible refine onUnit_frame _ ?_
    | with_reducible refine next_frame ?_
    | with_reducible exact fault_frame _ _ _
    | with_reducible refine runCommand_frame _ _ _ (fun _ => ?_)
    | with_reducible refine (modMailbox_frame _ _ _).after (by decide) ?_
    | with_reducible exact failWith_frame _ _ _
    | with_reducible refine okWith_frame ?_
    | with_reducible refine done_frame ?_
    | with_reducible refine fails_frame ?_
    | with_reducible refine later_frame ?_
    | with_reducible refine soon_frame ?_
    | with_reducible refine laterGrace_frame ?_
    | extract_lets
    | with_reducible refine OnlyChanges.getD (fun _ _ => ?_) ?_
    | with_reducible refine OnlyChanges.foldl (fun _ _ => ?_) ?_
    | split

theorem execFwBindMailbox_frame (a0 a1 a2 a3 s) : NextChanges [.recoveryLog, .events, .mailboxes, .counters,
    .crumbs, .out] s (execFwBindMailbox a0 a1 a2 a3 s) := by
  unfold execFwBindMailbox
  repeat' first
    | with_reducible exact OnlyChanges.refl _ _
    | assumption
    | with_reducible refine onUnit_frame _ ?_
    | with_reducible refine next_frame ?_
    | with_reducible exact fault_frame _ _ _
    | with_reducible refine runCommand_frame _ _ _ (fun _ => ?_)
    | with_reducible refine (modMailbox_frame _ _ _).after (by decide) ?_
    | with_reducible exact failWith_frame _ _ _
    | with_reducible refine okWith_frame ?_
    | with_reducible refine done_frame ?_
    | with_reducible refine fails_frame ?_
    | with_reducible refine later_frame ?_
    | with_reducible refine soon_frame ?_
    | with_reducible refine laterGrace_frame ?_
    | extract_lets
    | with_reducible refine OnlyChanges.getD (fun _ _ => ?_) ?_
    | with_reducible refine OnlyChanges.foldl (fun _ _ => ?_) ?_
    | split

theorem setCredentials_frame (a0 s) : OnlyChanges [.alert, .flash] s (setCredentials a0 s) := by
  unfold setCredentials
  repeat' first
    | with_reducible exact OnlyChanges.refl _ _
    | assumption
    | with_reducible refine (modConfig_frame _ _).before ?_

theorem execFwCredential_frame (a0 a1 a2 a3 s) : NextChanges [.alert, .flash, .recoveryLog, .events, .mailboxes,
    .counters, .crumbs, .out] s (execFwCredential a0 a1 a2 a3 s) := by
  unfold execFwCredential
  repeat' first
    | with_reducible exact OnlyChanges.refl _ _
    | assumption
    | with_reducible refine onUnit_frame _ ?_
    | with_reducible refine next_frame ?_
    | with_reducible exact fault_frame _ _ _
    | with_reducible refine runCommand_frame _ _ _ (fun _ => ?_)
    | with_reducible refine (setCredentials_frame _ _).after (by decide) ?_
    | with_reducible exact failWith_frame _ _ _
    | with_reducible refine okWith_frame ?_
    | with_reducible refine done_frame ?_
    | with_reducible refine fails_frame ?_
    | with_reducible refine later_frame ?_
    | with_reducible refine soon_frame ?_
    | with_reducible refine laterGrace_frame ?_
    | extract_lets
    | with_reducible refine OnlyChanges.getD (fun _ _ => ?_) ?_
    | with_reducible refine OnlyChanges.foldl (fun _ _ => ?_) ?_
    | split

theorem execFwNetwork_frame (a0 a1 a2 a3 a4 s) : NextChanges [.alert, .flash, .recoveryLog, .events, .mailboxes,
    .counters, .crumbs, .out] s (execFwNetwork a0 a1 a2 a3 a4 s) := by
  unfold execFwNetwork
  repeat' first
    | with_reducible exact OnlyChanges.refl _ _
    | assumption
    | with_reducible refine onUnit_frame _ ?_
    | with_reducible refine next_frame ?_
    | with_reducible exact fault_frame _ _ _
    | with_reducible refine runCommand_frame _ _ _ (fun _ => ?_)
    | with_reducible refine (modConfig_frame _ _).after (by decide) ?_
    | with_reducible exact failWith_frame _ _ _
    | with_reducible refine okWith_frame ?_
    | with_reducible refine done_frame ?_
    | with_reducible refine fails_frame ?_
    | with_reducible refine later_frame ?_
    | with_reducible refine soon_frame ?_
    | with_reducible refine laterGrace_frame ?_
    | extract_lets
    | with_reducible refine OnlyChanges.getD (fun _ _ => ?_) ?_
    | with_reducible refine OnlyChanges.foldl (fun _ _ => ?_) ?_
    | split

theorem accessRefused_frame (a0 a1 s) : OnlyChanges [.recoveryLog, .islands, .events, .counters, .crumbs] s
    (accessRefused a0 a1 s) := by
  unfold accessRefused
  repeat' first
    | with_reducible exact OnlyChanges.refl _ _
    | assumption
    | with_reducible refine (addressError_frame _ _).before ?_
    | extract_lets
    | with_reducible refine OnlyChanges.getD (fun _ _ => ?_) ?_
    | with_reducible refine OnlyChanges.foldl (fun _ _ => ?_) ?_
    | split

theorem execFwRegRead_frame (a0 a1 a2 s) : NextChanges [.recoveryLog, .islands, .events, .mailboxes, .counters,
    .crumbs, .out] s (execFwRegRead a0 a1 a2 s) := by
  unfold execFwRegRead
  repeat' first
    | with_reducible exact OnlyChanges.refl _ _
    | assumption
    | with_reducible refine onUnit_frame _ ?_
    | with_reducible refine next_frame ?_
    | with_reducible exact fault_frame _ _ _
    | with_reducible refine runCommand_frame _ _ _ (fun _ => ?_)
    | with_reducible refine (accessRefused_frame _ _ _).after (by decide) ?_
    | with_reducible exact failWith_frame _ _ _
    | with_reducible refine okWith_frame ?_
    | with_reducible refine done_frame ?_
    | with_reducible refine fails_frame ?_
    | with_reducible refine later_frame ?_
    | with_reducible refine soon_frame ?_
    | with_reducible refine laterGrace_frame ?_
    | extract_lets
    | with_reducible refine OnlyChanges.getD (fun _ _ => ?_) ?_
    | with_reducible refine OnlyChanges.foldl (fun _ _ => ?_) ?_
    | split

theorem execFwRegWrite_frame (a0 a1 a2 a3 s) : NextChanges [.recoveryLog, .islands, .registers, .events,
    .mailboxes, .counters, .crumbs, .out] s (execFwRegWrite a0 a1 a2 a3 s) := by
  unfold execFwRegWrite
  repeat' first
    | with_reducible exact OnlyChanges.refl _ _
    | assumption
    | with_reducible refine onUnit_frame _ ?_
    | with_reducible refine next_frame ?_
    | with_reducible exact fault_frame _ _ _
    | with_reducible refine runCommand_frame _ _ _ (fun _ => ?_)
    | with_reducible refine (accessRefused_frame _ _ _).after (by decide) ?_
    | with_reducible refine modCtl_frame _ ?_
    | with_reducible refine (modIsland_frame _ _ _).after (by decide) ?_
    | with_reducible exact failWith_frame _ _ _
    | with_reducible refine okWith_frame ?_
    | with_reducible refine done_frame ?_
    | with_reducible refine fails_frame ?_
    | with_reducible refine later_frame ?_
    | with_reducible refine soon_frame ?_
    | with_reducible refine laterGrace_frame ?_
    | extract_lets
    | with_reducible refine OnlyChanges.getD (fun _ _ => ?_) ?_
    | with_reducible refine OnlyChanges.foldl (fun _ _ => ?_) ?_
    | split

theorem execFwDebugUnlock_frame (a0 a1 a2 s) : NextChanges [.recoveryLog, .events, .mailboxes, .counters, .crumbs,
    .free, .out, .proposals] s (execFwDebugUnlock a0 a1 a2 s) := by
  unfold execFwDebugUnlock
  repeat' first
    | with_reducible exact OnlyChanges.refl _ _
    | assumption
    | with_reducible refine onUnit_frame _ ?_
    | with_reducible refine next_frame ?_
    | with_reducible exact fault_frame _ _ _
    | with_reducible refine runCommand_frame _ _ _ (fun _ => ?_)
    | with_reducible refine (propose_frame _ _ _).mono (by decide)
    | with_reducible exact failWith_frame _ _ _
    | with_reducible refine okWith_frame ?_
    | with_reducible refine done_frame ?_
    | with_reducible refine fails_frame ?_
    | with_reducible refine later_frame ?_
    | with_reducible refine soon_frame ?_
    | with_reducible refine laterGrace_frame ?_
    | extract_lets
    | with_reducible refine OnlyChanges.getD (fun _ _ => ?_) ?_
    | with_reducible refine OnlyChanges.foldl (fun _ _ => ?_) ?_
    | split

end Sys2Proof.Machine
end

