-- ==== Sys2Proof/Laws/FrameMillCmd.lean ====
section
/-! SUPPORT. What the operations of Machine/MillCmd.lean leave unchanged. -/

set_option Elab.async false

namespace Sys2Proof.Machine

theorem execMillAlloc_frame (a0 a1 a2 s) : NextChanges [.recoveryLog, .events, .mailboxes, .mill, .counters,
    .crumbs, .out] s (execMillAlloc a0 a1 a2 s) := by
  unfold execMillAlloc
  repeat' first
    | with_reducible exact OnlyChanges.refl _ _
    | assumption
    | with_reducible refine onUnit_frame _ ?_
    | with_reducible refine next_frame ?_
    | with_reducible exact fault_frame _ _ _
    | with_reducible refine runCommand_frame _ _ _ (fun _ => ?_)
    | with_reducible refine modMill_frame _ ?_
    | with_reducible exact failWith_frame _ _ _
    | with_reducible refine okWith_frame ?_
    | with_reducible refine done_frame ?_
    | with_reducible refine fails_frame ?_
    | with_reducible refine later_frame ?_
    | with_reducible refine soon_frame ?_
    | with_reducible refine laterGrace_frame ?_
    | extract_lets
    | with_reducible refine OnlyChanges.getD (fun _ _ => ?_) ?_
    | with_reducible refine OnlyChanges.foldl (fun _ _ => ?_) ?_
    | split

theorem execMillLoad_frame (a0 a1 a2 a3 a4 a5 s) : NextChanges [.recoveryLog, .events, .mailboxes, .mill,
    .counters, .crumbs, .out] s (execMillLoad a0 a1 a2 a3 a4 a5 s) := by
  unfold execMillLoad
  repeat' first
    | with_reducible exact OnlyChanges.refl _ _
    | assumption
    | with_reducible refine onUnit_frame _ ?_
    | with_reducible refine next_frame ?_
    | with_reducible exact fault_frame _ _ _
    | with_reducible refine runCommand_frame _ _ _ (fun _ => ?_)
    | with_reducible refine modMill_frame _ ?_
    | with_reducible exact failWith_frame _ _ _
    | with_reducible refine okWith_frame ?_
    | with_reducible refine done_frame ?_
    | with_reducible refine fails_frame ?_
    | with_reducible refine later_frame ?_
    | with_reducible refine soon_frame ?_
    | with_reducible refine laterGrace_frame ?_
    | extract_lets
    | with_reducible refine OnlyChanges.getD (fun _ _ => ?_) ?_
    | with_reducible refine OnlyChanges.foldl (fun _ _ => ?_) ?_
    | split

theorem withProgram_frame {ps : List Part} (a0 a1 s) {f : MillProgram → CmdOutcome} (h : ∀ g, CmdChanges ps s (f g)) :
    CmdChanges ps s (withProgram a0 a1 f s) := by
  unfold withProgram
  repeat' first
    | exact failWith_frame _ _ _
    | exact h _
    | split

theorem execMillRun_frame (a0 a1 s) : NextChanges [.recoveryLog, .events, .mailboxes, .mill, .counters, .crumbs,
    .out] s (execMillRun a0 a1 s) := by
  unfold execMillRun
  repeat' first
    | with_reducible exact OnlyChanges.refl _ _
    | assumption
    | with_reducible refine onUnit_frame _ ?_
    | with_reducible refine next_frame ?_
    | with_reducible exact fault_frame _ _ _
    | with_reducible refine runCommand_frame _ _ _ (fun _ => ?_)
    | with_reducible refine withProgram_frame _ _ _ (fun _ => ?_)
    | with_reducible refine (modProgram_frame _ _ _).after (by decide) ?_
    | with_reducible exact failWith_frame _ _ _
    | with_reducible refine okWith_frame ?_
    | with_reducible refine done_frame ?_
    | with_reducible refine fails_frame ?_
    | with_reducible refine later_frame ?_
    | with_reducible refine soon_frame ?_
    | with_reducible refine laterGrace_frame ?_
    | extract_lets
    | with_reducible refine OnlyChanges.getD (fun _ _ => ?_) ?_
    | with_reducible refine OnlyChanges.foldl (fun _ _ => ?_) ?_
    | split

theorem execMillStop_frame (a0 a1 s) : NextChanges [.recoveryLog, .events, .mailboxes, .mill, .counters, .crumbs,
    .out] s (execMillStop a0 a1 s) := by
  unfold execMillStop
  repeat' first
    | with_reducible exact OnlyChanges.refl _ _
    | assumption
    | with_reducible refine onUnit_frame _ ?_
    | with_reducible refine next_frame ?_
    | with_reducible exact fault_frame _ _ _
    | with_reducible refine runCommand_frame _ _ _ (fun _ => ?_)
    | with_reducible refine withProgram_frame _ _ _ (fun _ => ?_)
    | with_reducible refine (endProgram_frame _ _ _).before ?_
    | with_reducible exact failWith_frame _ _ _
    | with_reducible refine okWith_frame ?_
    | with_reducible refine done_frame ?_
    | with_reducible refine fails_frame ?_
    | with_reducible refine later_frame ?_
    | with_reducible refine soon_frame ?_
    | with_reducible refine laterGrace_frame ?_
    | extract_lets
    | with_reducible refine OnlyChanges.getD (fun _ _ => ?_) ?_
    | with_reducible refine OnlyChanges.foldl (fun _ _ => ?_) ?_
    | split

theorem setContext_frame (a0 a1 s) : OnlyChanges [.mill] s (setContext a0 a1 s) := by
  unfold setContext
  repeat' first
    | with_reducible exact OnlyChanges.refl _ _
    | assumption
    | with_reducible refine modMill_frame _ ?_

theorem execMillContext_frame (a0 a1 a2 s) : NextChanges [.recoveryLog, .events, .mailboxes, .mill, .counters,
    .crumbs, .decisions, .out] s (execMillContext a0 a1 a2 s) := by
  unfold execMillContext
  repeat' first
    | with_reducible exact OnlyChanges.refl _ _
    | assumption
    | with_reducible refine onUnit_frame _ ?_
    | with_reducible refine next_frame ?_
    | with_reducible exact fault_frame _ _ _
    | with_reducible refine runCommand_frame _ _ _ (fun _ => ?_)
    | with_reducible refine (modDctx_frame _ _ _).after (by decide) ?_
    | with_reducible refine (setContext_frame _ _ _).after (by decide) ?_
    | with_reducible refine (noChoice_frame _ _ _ _ _).after (by decide) ?_
    | with_reducible refine (writeDecision_frame _ _ _ _ _ _ _).after (by decide) ?_
    | with_reducible exact failWith_frame _ _ _
    | with_reducible refine okWith_frame ?_
    | with_reducible refine done_frame ?_
    | with_reducible refine fails_frame ?_
    | with_reducible refine later_frame ?_
    | with_reducible refine soon_frame ?_
    | with_reducible refine laterGrace_frame ?_
    | extract_lets
    | with_reducible refine OnlyChanges.getD (fun _ _ => ?_) ?_
    | with_reducible refine OnlyChanges.foldl (fun _ _ => ?_) ?_
    | split

theorem execMillReplicas_frame (a0 a1 a2 a3 s) : NextChanges [.recoveryLog, .events, .mailboxes, .mill, .counters,
    .crumbs, .out] s (execMillReplicas a0 a1 a2 a3 s) := by
  unfold execMillReplicas
  repeat' first
    | with_reducible exact OnlyChanges.refl _ _
    | assumption
    | with_reducible refine onUnit_frame _ ?_
    | with_reducible refine next_frame ?_
    | with_reducible exact fault_frame _ _ _
    | with_reducible refine runCommand_frame _ _ _ (fun _ => ?_)
    | with_reducible refine (modDctx_frame _ _ _).after (by decide) ?_
    | with_reducible exact failWith_frame _ _ _
    | with_reducible refine okWith_frame ?_
    | with_reducible refine done_frame ?_
    | with_reducible refine fails_frame ?_
    | with_reducible refine later_frame ?_
    | with_reducible refine soon_frame ?_
    | with_reducible refine laterGrace_frame ?_
    | extract_lets
    | with_reducible refine OnlyChanges.getD (fun _ _ => ?_) ?_
    | with_reducible refine OnlyChanges.foldl (fun _ _ => ?_) ?_
    | split

theorem loadWeights_frame (a0 a1 a2 a3 a4 a5 a6 s) : OnlyChanges [.mill] s (loadWeights a0 a1 a2 a3 a4 a5 a6 s) :=
    by
  unfold loadWeights
  repeat' first
    | with_reducible exact OnlyChanges.refl _ _
    | assumption
    | with_reducible refine modMill_frame _ ?_

theorem execMillWeights_frame (a0 a1 a2 a3 a4 a5 a6 a7 a8 s) : NextChanges [.recoveryLog, .gates, .events,
    .mailboxes, .mill, .regions, .memory, .mirrors, .counters, .crumbs, .out] s (execMillWeights a0 a1 a2 a3 a4 a5
    a6 a7 a8 s) := by
  unfold execMillWeights
  repeat' first
    | with_reducible exact OnlyChanges.refl _ _
    | assumption
    | with_reducible refine onUnit_frame _ ?_
    | with_reducible refine next_frame ?_
    | with_reducible exact fault_frame _ _ _
    | with_reducible refine runCommand_frame _ _ _ (fun _ => ?_)
    | with_reducible refine (meetErrors_frame _ _ _ _ _).after (by decide) ?_
    | with_reducible refine (startWork_frame _ _ _ _).after (by decide) ?_
    | with_reducible refine (loadWeights_frame _ _ _ _ _ _ _ _).after (by decide) ?_
    | with_reducible exact failWith_frame _ _ _
    | with_reducible refine okWith_frame ?_
    | with_reducible refine done_frame ?_
    | with_reducible refine fails_frame ?_
    | with_reducible refine later_frame ?_
    | with_reducible refine soon_frame ?_
    | with_reducible refine laterGrace_frame ?_
    | extract_lets
    | with_reducible refine OnlyChanges.getD (fun _ _ => ?_) ?_
    | with_reducible refine OnlyChanges.foldl (fun _ _ => ?_) ?_
    | split

theorem execMillRestore_frame (a0 a1 a2 s) : NextChanges [.recoveryLog, .events, .mailboxes, .mill, .counters,
    .crumbs, .out] s (execMillRestore a0 a1 a2 s) := by
  unfold execMillRestore
  repeat' first
    | with_reducible exact OnlyChanges.refl _ _
    | assumption
    | with_reducible refine onUnit_frame _ ?_
    | with_reducible refine next_frame ?_
    | with_reducible exact fault_frame _ _ _
    | with_reducible refine runCommand_frame _ _ _ (fun _ => ?_)
    | with_reducible refine (modDctx_frame _ _ _).after (by decide) ?_
    | with_reducible exact failWith_frame _ _ _
    | with_reducible refine okWith_frame ?_
    | with_reducible refine done_frame ?_
    | with_reducible refine fails_frame ?_
    | with_reducible refine later_frame ?_
    | with_reducible refine soon_frame ?_
    | with_reducible refine laterGrace_frame ?_
    | extract_lets
    | with_reducible refine OnlyChanges.getD (fun _ _ => ?_) ?_
    | with_reducible refine OnlyChanges.foldl (fun _ _ => ?_) ?_
    | split

theorem stopPrograms_frame (s) : OnlyChanges [.alert, .flash, .recoveryLog, .events, .mailboxes, .mill, .counters,
    .crumbs, .out] s (stopPrograms s) := by
  unfold stopPrograms
  repeat' first
    | with_reducible exact OnlyChanges.refl _ _
    | assumption
    | with_reducible refine (modConfig_frame _ _).after (by decide) ?_
    | with_reducible refine (endProgram_frame _ _ _).after (by decide) ?_
    | extract_lets
    | with_reducible refine OnlyChanges.getD (fun _ _ => ?_) ?_
    | with_reducible refine OnlyChanges.foldl (fun _ _ => ?_) ?_

theorem execMillEnable_frame (a0 a1 a2 s) : NextChanges [.alert, .flash, .recoveryLog, .events, .mailboxes, .mill, .counters, .crumbs, .out] s (execMillEnable a0 a1 a2 s) := by
  unfold execMillEnable
  refine next_frame (runCommand_frame _ _ _ (fun x => ?_))
  have h : ∀ f, OnlyChanges [.alert, .flash, .recoveryLog, .events, .mailboxes, .mill, .counters, .crumbs, .out] x (modConfig f x) := fun f => (modConfig_frame _ _).mono (by decide)
  split
  · exact failWith_frame _ _ _
  · split
    · exact okWith_frame (h _)
    · extract_lets s2
      have h2 : OnlyChanges [.alert, .flash, .recoveryLog, .events, .mailboxes, .mill, .counters, .crumbs, .out] x s2 := (stopPrograms_frame _).mono (by decide)
      split
      · exact okWith_frame h2
      · exact laterGrace_frame (modMill_frame _ h2)

end Sys2Proof.Machine
end

