-- ==== Sys2Proof/Laws/FrameGranCmd.lean ====
section
/-! SUPPORT. What the operations of Machine/GranCmd.lean leave unchanged. -/

set_option Elab.async false

namespace Sys2Proof.Machine

theorem execGranaryCreate_frame (a0 a1 a2 a3 s) : NextChanges [.recoveryLog, .events, .mailboxes, .regions,
    .counters, .crumbs, .decisions, .out] s (execGranaryCreate a0 a1 a2 a3 s) := by
  unfold execGranaryCreate
  repeat' first
    | with_reducible exact OnlyChanges.refl _ _
    | assumption
    | with_reducible refine onUnit_frame _ ?_
    | with_reducible refine next_frame ?_
    | with_reducible exact fault_frame _ _ _
    | with_reducible refine runCommand_frame _ _ _ (fun _ => ?_)
    | with_reducible refine (placeRegion_frame _ _ _ _).after (by decide) ?_
    | with_reducible refine (addRegion_frame _ _ _).after (by decide) ?_
    | with_reducible refine (writeDecision_frame _ _ _ _ _ _ _).after (by decide) ?_
    | with_reducible exact failWith_frame _ _ _
    | with_reducible refine okWith_frame ?_
    | with_reducible refine done_frame ?_
    | with_reducible refine fails_frame ?_
    | with_reducible refine later_frame ?_
    | with_reducible refine soon_frame ?_
    | with_reducible refine laterGrace_frame ?_
    | extract_lets
    | with_reducible refine OnlyChanges.getD (fun _ _ => ?_) ?_
    | with_reducible refine OnlyChanges.foldl (fun _ _ => ?_) ?_
    | split
    | extract_lets +lift
    | with_reducible refine OnlyChanges.foldl_fst (fun _ _ => ?_) ?_
    | with_reducible refine OnlyChanges.foldl_snd (fun _ _ => ?_) ?_
    | with_reducible refine OnlyChanges.of_fst (by assumption) ?_
    | with_reducible refine OnlyChanges.of_snd (by assumption) ?_

theorem withRegion_frame {ps : List Part} (a0 a1 s) {f : Region → CmdOutcome} (h : ∀ g, CmdChanges ps s (f g)) :
    CmdChanges ps s (withRegion a0 a1 f s) := by
  unfold withRegion
  repeat' first
    | exact failWith_frame _ _ _
    | exact h _
    | split

theorem execGranaryFree_frame (a0 a1 s) : NextChanges [.recoveryLog, .events, .mailboxes, .regions, .counters,
    .crumbs, .out] s (execGranaryFree a0 a1 s) := by
  unfold execGranaryFree
  repeat' first
    | with_reducible exact OnlyChanges.refl _ _
    | assumption
    | with_reducible refine onUnit_frame _ ?_
    | with_reducible refine next_frame ?_
    | with_reducible exact fault_frame _ _ _
    | with_reducible refine runCommand_frame _ _ _ (fun _ => ?_)
    | with_reducible refine withRegion_frame _ _ _ (fun _ => ?_)
    | with_reducible refine (freeRegion_frame _ _).after (by decide) ?_
    | with_reducible exact failWith_frame _ _ _
    | with_reducible refine okWith_frame ?_
    | with_reducible refine done_frame ?_
    | with_reducible refine fails_frame ?_
    | with_reducible refine later_frame ?_
    | with_reducible refine soon_frame ?_
    | with_reducible refine laterGrace_frame ?_
    | extract_lets
    | with_reducible refine OnlyChanges.getD (fun _ _ => ?_) ?_
    | with_reducible refine OnlyChanges.foldl (fun _ _ => ?_) ?_
    | split

theorem setRights_frame (a0 a1 s) : OnlyChanges [.regions] s (setRights a0 a1 s) := by
  unfold setRights
  repeat' first
    | with_reducible exact OnlyChanges.refl _ _
    | assumption
    | with_reducible refine (modRegion_frame _ _ _).before ?_

theorem execGranarySet_frame (a0 a1 a2 s) : NextChanges [.recoveryLog, .events, .mailboxes, .regions, .counters,
    .crumbs, .free, .out, .proposals] s (execGranarySet a0 a1 a2 s) := by
  unfold execGranarySet
  repeat' first
    | with_reducible exact OnlyChanges.refl _ _
    | assumption
    | with_reducible refine onUnit_frame _ ?_
    | with_reducible refine next_frame ?_
    | with_reducible exact fault_frame _ _ _
    | with_reducible refine runCommand_frame _ _ _ (fun _ => ?_)
    | with_reducible refine withRegion_frame _ _ _ (fun _ => ?_)
    | with_reducible refine (propose_frame _ _ _).mono (by decide)
    | with_reducible refine (setRights_frame _ _ _).after (by decide) ?_
    | with_reducible exact failWith_frame _ _ _
    | with_reducible refine okWith_frame ?_
    | with_reducible refine done_frame ?_
    | with_reducible refine fails_frame ?_
    | with_reducible refine later_frame ?_
    | with_reducible refine soon_frame ?_
    | with_reducible refine laterGrace_frame ?_
    | extract_lets
    | with_reducible refine OnlyChanges.getD (fun _ _ => ?_) ?_
    | with_reducible refine OnlyChanges.foldl (fun _ _ => ?_) ?_
    | split

theorem execGranaryQuery_frame (a0 a1 s) : NextChanges [.recoveryLog, .events, .mailboxes, .counters, .crumbs,
    .out] s (execGranaryQuery a0 a1 s) := by
  unfold execGranaryQuery
  repeat' first
    | with_reducible exact OnlyChanges.refl _ _
    | assumption
    | with_reducible refine onUnit_frame _ ?_
    | with_reducible refine next_frame ?_
    | with_reducible exact fault_frame _ _ _
    | with_reducible refine runCommand_frame _ _ _ (fun _ => ?_)
    | with_reducible exact failWith_frame _ _ _
    | with_reducible refine okWith_frame ?_
    | with_reducible refine done_frame ?_
    | with_reducible refine fails_frame ?_
    | with_reducible refine later_frame ?_
    | with_reducible refine soon_frame ?_
    | with_reducible refine laterGrace_frame ?_
    | extract_lets
    | with_reducible refine OnlyChanges.getD (fun _ _ => ?_) ?_
    | with_reducible refine OnlyChanges.foldl (fun _ _ => ?_) ?_
    | split

theorem execGranaryMirrorOpen_frame (a0 a1 a2 a3 a4 a5 a6 s) : NextChanges [.recoveryLog, .ports, .packets,
    .queues, .room, .numbering, .firmware, .tables, .events, .mailboxes, .regions, .mirrors, .counters, .crumbs,
    .decisions, .out] s (execGranaryMirrorOpen a0 a1 a2 a3 a4 a5 a6 s) := by
  unfold execGranaryMirrorOpen
  repeat' first
    | with_reducible exact OnlyChanges.refl _ _
    | assumption
    | with_reducible refine onUnit_frame _ ?_
    | with_reducible refine next_frame ?_
    | with_reducible exact fault_frame _ _ _
    | with_reducible refine runCommand_frame _ _ _ (fun _ => ?_)
    | with_reducible refine modGran_frame _ ?_
    | with_reducible refine (askNext_frame _ _).before ?_
    | with_reducible exact failWith_frame _ _ _
    | with_reducible refine okWith_frame ?_
    | with_reducible refine done_frame ?_
    | with_reducible refine fails_frame ?_
    | with_reducible refine later_frame ?_
    | with_reducible refine soon_frame ?_
    | with_reducible refine laterGrace_frame ?_
    | extract_lets
    | with_reducible refine OnlyChanges.getD (fun _ _ => ?_) ?_
    | with_reducible refine OnlyChanges.foldl (fun _ _ => ?_) ?_
    | split

theorem execGranaryMirrorCommit_frame (a0 a1 a2 a3 s) : NextChanges [.recoveryLog, .events, .mailboxes, .mirrors,
    .counters, .crumbs, .out] s (execGranaryMirrorCommit a0 a1 a2 a3 s) := by
  unfold execGranaryMirrorCommit
  repeat' first
    | with_reducible exact OnlyChanges.refl _ _
    | assumption
    | with_reducible refine onUnit_frame _ ?_
    | with_reducible refine next_frame ?_
    | with_reducible exact fault_frame _ _ _
    | with_reducible refine runCommand_frame _ _ _ (fun _ => ?_)
    | with_reducible refine modGran_frame _ ?_
    | with_reducible exact failWith_frame _ _ _
    | with_reducible refine okWith_frame ?_
    | with_reducible refine done_frame ?_
    | with_reducible refine fails_frame ?_
    | with_reducible refine later_frame ?_
    | with_reducible refine soon_frame ?_
    | with_reducible refine laterGrace_frame ?_
    | extract_lets
    | with_reducible refine OnlyChanges.getD (fun _ _ => ?_) ?_
    | with_reducible refine OnlyChanges.foldl (fun _ _ => ?_) ?_
    | split

theorem execGranaryMirrorQuery_frame (a0 a1 s) : NextChanges [.recoveryLog, .events, .mailboxes, .counters,
    .crumbs, .out] s (execGranaryMirrorQuery a0 a1 s) := by
  unfold execGranaryMirrorQuery
  repeat' first
    | with_reducible exact OnlyChanges.refl _ _
    | assumption
    | with_reducible refine onUnit_frame _ ?_
    | with_reducible refine next_frame ?_
    | with_reducible exact fault_frame _ _ _
    | with_reducible refine runCommand_frame _ _ _ (fun _ => ?_)
    | with_reducible exact failWith_frame _ _ _
    | with_reducible refine okWith_frame ?_
    | with_reducible refine done_frame ?_
    | with_reducible refine fails_frame ?_
    | with_reducible refine later_frame ?_
    | with_reducible refine soon_frame ?_
    | with_reducible refine laterGrace_frame ?_
    | extract_lets
    | with_reducible refine OnlyChanges.getD (fun _ _ => ?_) ?_
    | with_reducible refine OnlyChanges.foldl (fun _ _ => ?_) ?_
    | split

theorem freeMirrorRegion_frame (a0 a1 s) : OnlyChanges [.regions] s (freeMirrorRegion a0 a1 s) := by
  unfold freeMirrorRegion
  repeat' first
    | with_reducible exact OnlyChanges.refl _ _
    | assumption
    | with_reducible refine (freeRegion_frame _ _).before ?_
    | extract_lets
    | with_reducible refine OnlyChanges.getD (fun _ _ => ?_) ?_
    | with_reducible refine OnlyChanges.foldl (fun _ _ => ?_) ?_
    | split

theorem execGranaryMirrorClose_frame (a0 a1 s) : NextChanges [.recoveryLog, .events, .mailboxes, .regions,
    .mirrors, .counters, .crumbs, .out] s (execGranaryMirrorClose a0 a1 s) := by
  unfold execGranaryMirrorClose
  repeat' first
    | with_reducible exact OnlyChanges.refl _ _
    | assumption
    | with_reducible refine onUnit_frame _ ?_
    | with_reducible refine next_frame ?_
    | with_reducible exact fault_frame _ _ _
    | with_reducible refine runCommand_frame _ _ _ (fun _ => ?_)
    | with_reducible refine (freeMirrorRegion_frame _ _ _).after (by decide) ?_
    | with_reducible refine modGran_frame _ ?_
    | with_reducible exact failWith_frame _ _ _
    | with_reducible refine okWith_frame ?_
    | with_reducible refine done_frame ?_
    | with_reducible refine fails_frame ?_
    | with_reducible refine later_frame ?_
    | with_reducible refine soon_frame ?_
    | with_reducible refine laterGrace_frame ?_
    | extract_lets
    | with_reducible refine OnlyChanges.getD (fun _ _ => ?_) ?_
    | with_reducible refine OnlyChanges.foldl (fun _ _ => ?_) ?_
    | split

theorem execGranaryChannelBind_frame (a0 a1 a2 a3 s) : NextChanges [.recoveryLog, .events, .mailboxes, .channels,
    .counters, .crumbs, .out] s (execGranaryChannelBind a0 a1 a2 a3 s) := by
  unfold execGranaryChannelBind
  repeat' first
    | with_reducible exact OnlyChanges.refl _ _
    | assumption
    | with_reducible refine onUnit_frame _ ?_
    | with_reducible refine next_frame ?_
    | with_reducible exact fault_frame _ _ _
    | with_reducible refine runCommand_frame _ _ _ (fun _ => ?_)
    | with_reducible refine (modChannel_frame _ _ _).after (by decide) ?_
    | with_reducible exact failWith_frame _ _ _
    | with_reducible refine okWith_frame ?_
    | with_reducible refine done_frame ?_
    | with_reducible refine fails_frame ?_
    | with_reducible refine later_frame ?_
    | with_reducible refine soon_frame ?_
    | with_reducible refine laterGrace_frame ?_
    | extract_lets
    | with_reducible refine OnlyChanges.getD (fun _ _ => ?_) ?_
    | with_reducible refine OnlyChanges.foldl (fun _ _ => ?_) ?_
    | split

theorem execGranaryChannelSet_frame (a0 a1 a2 s) : NextChanges [.recoveryLog, .events, .mailboxes, .channels,
    .counters, .crumbs, .out] s (execGranaryChannelSet a0 a1 a2 s) := by
  unfold execGranaryChannelSet
  repeat' first
    | with_reducible exact OnlyChanges.refl _ _
    | assumption
    | with_reducible refine onUnit_frame _ ?_
    | with_reducible refine next_frame ?_
    | with_reducible exact fault_frame _ _ _
    | with_reducible refine runCommand_frame _ _ _ (fun _ => ?_)
    | with_reducible refine (modChannel_frame _ _ _).after (by decide) ?_
    | with_reducible exact failWith_frame _ _ _
    | with_reducible refine okWith_frame ?_
    | with_reducible refine done_frame ?_
    | with_reducible refine fails_frame ?_
    | with_reducible refine later_frame ?_
    | with_reducible refine soon_frame ?_
    | with_reducible refine laterGrace_frame ?_
    | extract_lets
    | with_reducible refine OnlyChanges.getD (fun _ _ => ?_) ?_
    | with_reducible refine OnlyChanges.foldl (fun _ _ => ?_) ?_
    | split

theorem execGranaryChannelStart_frame (a0 a1 s) : NextChanges [.recoveryLog, .events, .mailboxes, .channels,
    .counters, .crumbs, .out] s (execGranaryChannelStart a0 a1 s) := by
  unfold execGranaryChannelStart
  repeat' first
    | with_reducible exact OnlyChanges.refl _ _
    | assumption
    | with_reducible refine onUnit_frame _ ?_
    | with_reducible refine next_frame ?_
    | with_reducible exact fault_frame _ _ _
    | with_reducible refine runCommand_frame _ _ _ (fun _ => ?_)
    | with_reducible refine (modChannel_frame _ _ _).after (by decide) ?_
    | with_reducible exact failWith_frame _ _ _
    | with_reducible refine okWith_frame ?_
    | with_reducible refine done_frame ?_
    | with_reducible refine fails_frame ?_
    | with_reducible refine later_frame ?_
    | with_reducible refine soon_frame ?_
    | with_reducible refine laterGrace_frame ?_
    | extract_lets
    | with_reducible refine OnlyChanges.getD (fun _ _ => ?_) ?_
    | with_reducible refine OnlyChanges.foldl (fun _ _ => ?_) ?_
    | split

theorem execGranaryChannelStop_frame (a0 a1 a2 s) : NextChanges [.recoveryLog, .events, .mailboxes, .channels,
    .accesses, .counters, .crumbs, .out] s (execGranaryChannelStop a0 a1 a2 s) := by
  unfold execGranaryChannelStop
  repeat' first
    | with_reducible exact OnlyChanges.refl _ _
    | assumption
    | with_reducible refine onUnit_frame _ ?_
    | with_reducible refine next_frame ?_
    | with_reducible exact fault_frame _ _ _
    | with_reducible refine runCommand_frame _ _ _ (fun _ => ?_)
    | with_reducible refine (modChannel_frame _ _ _).after (by decide) ?_
    | with_reducible refine (stopChannel_frame _ _ _).before ?_
    | with_reducible exact failWith_frame _ _ _
    | with_reducible refine okWith_frame ?_
    | with_reducible refine done_frame ?_
    | with_reducible refine fails_frame ?_
    | with_reducible refine later_frame ?_
    | with_reducible refine soon_frame ?_
    | with_reducible refine laterGrace_frame ?_
    | extract_lets
    | with_reducible refine OnlyChanges.getD (fun _ _ => ?_) ?_
    | with_reducible refine OnlyChanges.foldl (fun _ _ => ?_) ?_
    | split

theorem stopChannels_frame (s) : OnlyChanges [.alert, .flash, .recoveryLog, .events, .mailboxes, .channels,
    .accesses, .counters, .crumbs, .out] s (stopChannels s) := by
  unfold stopChannels
  repeat' first
    | with_reducible exact OnlyChanges.refl _ _
    | assumption
    | with_reducible refine (modConfig_frame _ _).after (by decide) ?_
    | with_reducible refine (stopChannel_frame _ _ _).after (by decide) ?_
    | extract_lets
    | with_reducible refine OnlyChanges.getD (fun _ _ => ?_) ?_
    | with_reducible refine OnlyChanges.foldl (fun _ _ => ?_) ?_

theorem execGranaryEnable_frame (a0 a1 a2 s) : NextChanges [.alert, .flash, .recoveryLog, .events, .mailboxes, .channels, .accesses, .counters, .crumbs, .out] s (execGranaryEnable a0 a1 a2 s) := by
  unfold execGranaryEnable
  refine next_frame (runCommand_frame _ _ _ (fun x => ?_))
  have h : ∀ f, OnlyChanges [.alert, .flash, .recoveryLog, .events, .mailboxes, .channels, .accesses, .counters, .crumbs, .out] x (modConfig f x) := fun f => (modConfig_frame _ _).mono (by decide)
  split
  · exact failWith_frame _ _ _
  · split
    · exact failWith_frame _ _ _
    · split
      · exact okWith_frame (h _)
      · extract_lets s2
        have h2 : OnlyChanges [.alert, .flash, .recoveryLog, .events, .mailboxes, .channels, .accesses, .counters, .crumbs, .out] x s2 := (stopChannels_frame _).mono (by decide)
        split
        · exact laterGrace_frame (modGran_frame _ h2)
        · exact okWith_frame h2

end Sys2Proof.Machine
end

