-- ==== Sys2Proof/Laws/FrameWinnow.lean ====
section
/-! SUPPORT. What the operations of Machine/Winnow.lean leave unchanged. -/

set_option Elab.async false

namespace Sys2Proof.Machine

theorem weighSet_frame (a0 a1 s) : OnlyChanges [.recoveryLog, .tables, .events, .counters, .crumbs] s (weighSet a0
    a1 s) := by
  unfold weighSet
  repeat' first
    | with_reducible exact OnlyChanges.refl _ _
    | assumption
    | with_reducible refine (count_frame _ _ _).after (by decide) ?_
    | with_reducible refine (modSlice_frame _ _ _).after (by decide) ?_
    | extract_lets
    | with_reducible refine OnlyChanges.getD (fun _ _ => ?_) ?_
    | with_reducible refine OnlyChanges.foldl (fun _ _ => ?_) ?_
    | split

theorem weighAll_frame (s) : OnlyChanges [.recoveryLog, .tables, .events, .counters, .crumbs] s (weighAll s) := by
  unfold weighAll
  repeat' first
    | with_reducible exact OnlyChanges.refl _ _
    | assumption
    | with_reducible refine (weighSet_frame _ _ _).before ?_
    | extract_lets
    | with_reducible refine OnlyChanges.getD (fun _ _ => ?_) ?_
    | with_reducible refine OnlyChanges.foldl (fun _ _ => ?_) ?_

theorem execWinnowWeightTick_frame (s) : NextChanges [.recoveryLog, .tables, .events, .counters, .crumbs] s
    (execWinnowWeightTick s) := by
  unfold execWinnowWeightTick
  repeat' first
    | with_reducible exact OnlyChanges.refl _ _
    | assumption
    | with_reducible refine onUnit_frame _ ?_
    | with_reducible refine next_frame ?_
    | with_reducible exact fault_frame _ _ _
    | with_reducible refine (weighAll_frame _).before ?_
    | extract_lets
    | with_reducible refine OnlyChanges.getD (fun _ _ => ?_) ?_
    | with_reducible refine OnlyChanges.foldl (fun _ _ => ?_) ?_
    | split

theorem addCircuit_frame (a0 s) : OnlyChanges [.circuits] s (addCircuit a0 s) := by
  unfold addCircuit
  repeat' first
    | with_reducible exact OnlyChanges.refl _ _
    | assumption
    | with_reducible refine modOpt_frame _ ?_

theorem crustDecision_frame (a0 a1 a2 a3 a4 s) : OnlyChanges [.recoveryLog, .events, .counters, .crumbs,
    .decisions] s (crustDecision a0 a1 a2 a3 a4 s) := by
  unfold crustDecision
  repeat' first
    | with_reducible exact OnlyChanges.refl _ _
    | assumption
    | with_reducible refine (writeDecision_frame _ _ _ _ _ _ _).before ?_
    | with_reducible refine (raise31_frame _ _ _).after (by decide) ?_

theorem setUpPair_frame (a0 s a1) : OnlyChanges [.recoveryLog, .circuits, .events, .counters, .crumbs, .decisions]
    s (setUpPair a0 s a1) := by
  unfold setUpPair
  repeat' first
    | with_reducible exact OnlyChanges.refl _ _
    | assumption
    | with_reducible refine (crustDecision_frame _ _ _ _ _ _).after (by decide) ?_
    | with_reducible refine (addCircuit_frame _ _).after (by decide) ?_
    | extract_lets
    | with_reducible refine OnlyChanges.getD (fun _ _ => ?_) ?_
    | with_reducible refine OnlyChanges.foldl (fun _ _ => ?_) ?_
    | split

theorem tearDownPair_frame (a0 s a1) : OnlyChanges [.recoveryLog, .circuits, .events, .counters, .crumbs,
    .decisions] s (tearDownPair a0 s a1) := by
  unfold tearDownPair
  repeat' first
    | with_reducible exact OnlyChanges.refl _ _
    | assumption
    | with_reducible refine (crustDecision_frame _ _ _ _ _ _).after (by decide) ?_
    | with_reducible refine modOpt_frame _ ?_
    | with_reducible refine (modCircuit_frame _ _ _).after (by decide) ?_
    | extract_lets
    | with_reducible refine OnlyChanges.getD (fun _ _ => ?_) ?_
    | with_reducible refine OnlyChanges.foldl (fun _ _ => ?_) ?_
    | split

theorem countLow_frame (a0 s) : OnlyChanges [.placement] s (countLow a0 s) := by
  unfold countLow
  repeat' first
    | with_reducible exact OnlyChanges.refl _ _
    | assumption
    | with_reducible refine modWinnow_frame _ ?_
    | extract_lets
    | with_reducible refine OnlyChanges.getD (fun _ _ => ?_) ?_
    | with_reducible refine OnlyChanges.foldl (fun _ _ => ?_) ?_

theorem formChanges_frame (a0 s) : OnlyChanges [.recoveryLog, .circuits, .events, .counters, .crumbs, .decisions] s
    (formChanges a0 s) := by
  unfold formChanges
  repeat' first
    | with_reducible exact OnlyChanges.refl _ _
    | assumption
    | with_reducible refine (setUpPair_frame _ _ _).before ?_
    | with_reducible refine (tearDownPair_frame _ _ _).before ?_
    | extract_lets
    | with_reducible refine OnlyChanges.getD (fun _ _ => ?_) ?_
    | with_reducible refine OnlyChanges.foldl (fun _ _ => ?_) ?_
    | split

theorem formAll_frame (s) : OnlyChanges [.recoveryLog, .circuits, .events, .counters, .crumbs, .decisions,
    .placement] s (formAll s) := by
  unfold formAll
  repeat' first
    | with_reducible exact OnlyChanges.refl _ _
    | assumption
    | with_reducible refine (formChanges_frame _ _).after (by decide) ?_
    | with_reducible refine (countLow_frame _ _).after (by decide) ?_
    | extract_lets
    | with_reducible refine OnlyChanges.getD (fun _ _ => ?_) ?_
    | with_reducible refine OnlyChanges.foldl (fun _ _ => ?_) ?_

theorem execCrustWindowEnd_frame (s) : NextChanges [.recoveryLog, .circuits, .events, .counters, .crumbs,
    .decisions, .placement] s (execCrustWindowEnd s) := by
  unfold execCrustWindowEnd
  repeat' first
    | with_reducible exact OnlyChanges.refl _ _
    | assumption
    | with_reducible refine onUnit_frame _ ?_
    | with_reducible refine next_frame ?_
    | with_reducible exact fault_frame _ _ _
    | with_reducible refine (formAll_frame _).before ?_
    | with_reducible refine modWinnow_frame _ ?_
    | extract_lets
    | with_reducible refine OnlyChanges.getD (fun _ _ => ?_) ?_
    | with_reducible refine OnlyChanges.foldl (fun _ _ => ?_) ?_
    | split

theorem loseMirrors_frame (s) : OnlyChanges [.recoveryLog, .events, .mirrors, .counters, .crumbs] s (loseMirrors s)
    := by
  unfold loseMirrors
  repeat' first
    | with_reducible exact OnlyChanges.refl _ _
    | assumption
    | with_reducible refine (raiseOwner_frame _ _ _ _ _).after (by decide) ?_
    | with_reducible refine modGran_frame _ ?_
    | extract_lets
    | with_reducible refine OnlyChanges.getD (fun _ _ => ?_) ?_
    | with_reducible refine OnlyChanges.foldl (fun _ _ => ?_) ?_

theorem execSummaryTick_frame (a0 s) : NextChanges [.recoveryLog, .ports, .packets, .queues, .room, .numbering,
    .firmware, .tables, .events, .mirrors, .counters, .crumbs, .placement] s (execSummaryTick a0 s) := by
  unfold execSummaryTick
  repeat' first
    | with_reducible exact OnlyChanges.refl _ _
    | assumption
    | with_reducible refine onUnit_frame _ ?_
    | with_reducible refine next_frame ?_
    | with_reducible exact fault_frame _ _ _
    | with_reducible refine (loseMirrors_frame _).after (by decide) ?_
    | with_reducible refine modWinnow_frame _ ?_
    | with_reducible refine (sendFirmware_frame _ _ _).after (by decide) ?_
    | extract_lets
    | with_reducible refine OnlyChanges.getD (fun _ _ => ?_) ?_
    | with_reducible refine OnlyChanges.foldl (fun _ _ => ?_) ?_

theorem execSummaryRx_frame (s) : NextChanges [.firmware, .placement] s (execSummaryRx s) := by
  unfold execSummaryRx
  repeat' first
    | with_reducible exact OnlyChanges.refl _ _
    | assumption
    | with_reducible refine onUnit_frame _ ?_
    | with_reducible refine next_frame ?_
    | with_reducible exact fault_frame _ _ _
    | with_reducible refine (takeFirmware_frame _ _ (_, _) (by assumption)).after (by decide) ?_
    | with_reducible refine modWinnow_frame _ ?_
    | extract_lets
    | with_reducible refine OnlyChanges.getD (fun _ _ => ?_) ?_
    | with_reducible refine OnlyChanges.foldl (fun _ _ => ?_) ?_
    | split

theorem setPolicy_frame (a0 a1 s) : OnlyChanges [.placement] s (setPolicy a0 a1 s) := by
  unfold setPolicy
  repeat' first
    | with_reducible exact OnlyChanges.refl _ _
    | assumption
    | with_reducible refine modWinnow_frame _ ?_

theorem execWinnowPolicy_frame (a0 a1 a2 s) : NextChanges [.recoveryLog, .events, .mailboxes, .counters, .crumbs,
    .placement, .free, .out, .proposals] s (execWinnowPolicy a0 a1 a2 s) := by
  unfold execWinnowPolicy
  repeat' first
    | with_reducible exact OnlyChanges.refl _ _
    | assumption
    | with_reducible refine onUnit_frame _ ?_
    | with_reducible refine next_frame ?_
    | with_reducible exact fault_frame _ _ _
    | with_reducible refine runCommand_frame _ _ _ (fun _ => ?_)
    | with_reducible refine (propose_frame _ _ _).mono (by decide)
    | with_reducible refine (setPolicy_frame _ _ _).after (by decide) ?_
    | with_reducible exact failWith_frame _ _ _
    | with_reducible refine okWith_frame ?_
    | with_reducible refine done_frame ?_
    | with_reducible refine fails_frame ?_
    | with_reducible refine later_frame ?_
    | with_reducible refine soon_frame ?_
    | with_reducible refine laterGrace_frame ?_
    | extract_lets
    | with_reducible refine OnlyChanges.getD (fun _ _ => ?_) ?_
    | with_reducible refine OnlyChanges.foldl (fun _ _ => ?_) ?_
    | split

theorem execWinnowTags_frame (a0 a1 s) : NextChanges [.recoveryLog, .events, .mailboxes, .counters, .crumbs,
    .placement, .out] s (execWinnowTags a0 a1 s) := by
  unfold execWinnowTags
  repeat' first
    | with_reducible exact OnlyChanges.refl _ _
    | assumption
    | with_reducible refine onUnit_frame _ ?_
    | with_reducible refine next_frame ?_
    | with_reducible exact fault_frame _ _ _
    | with_reducible refine runCommand_frame _ _ _ (fun _ => ?_)
    | with_reducible refine modWinnow_frame _ ?_
    | with_reducible exact failWith_frame _ _ _
    | with_reducible refine okWith_frame ?_
    | with_reducible refine done_frame ?_
    | with_reducible refine fails_frame ?_
    | with_reducible refine later_frame ?_
    | with_reducible refine soon_frame ?_
    | with_reducible refine laterGrace_frame ?_
    | extract_lets
    | with_reducible refine OnlyChanges.getD (fun _ _ => ?_) ?_
    | with_reducible refine OnlyChanges.foldl (fun _ _ => ?_) ?_
    | split

theorem logPin_frame (a0 a1 s) : OnlyChanges [.recoveryLog, .events, .counters, .crumbs, .decisions] s (logPin a0
    a1 s) := by
  unfold logPin
  repeat' first
    | with_reducible exact OnlyChanges.refl _ _
    | assumption
    | with_reducible refine (writeDecision_frame _ _ _ _ _ _ _).before ?_

theorem setPin_frame (a0 s) : OnlyChanges [.tables, .placement] s (setPin a0 s) := by
  unfold setPin
  repeat' first
    | with_reducible exact OnlyChanges.refl _ _
    | assumption
    | with_reducible refine (modSlice_frame _ _ _).after (by decide) ?_
    | with_reducible refine modWinnow_frame _ ?_
    | extract_lets
    | with_reducible refine OnlyChanges.getD (fun _ _ => ?_) ?_
    | with_reducible refine OnlyChanges.foldl (fun _ _ => ?_) ?_
    | split

theorem execWinnowPin_frame (a0 a1 s) : NextChanges [.recoveryLog, .tables, .events, .mailboxes, .counters,
    .crumbs, .decisions, .placement, .out] s (execWinnowPin a0 a1 s) := by
  unfold execWinnowPin
  repeat' first
    | with_reducible exact OnlyChanges.refl _ _
    | assumption
    | with_reducible refine onUnit_frame _ ?_
    | with_reducible refine next_frame ?_
    | with_reducible exact fault_frame _ _ _
    | with_reducible refine runCommand_frame _ _ _ (fun _ => ?_)
    | with_reducible refine (logPin_frame _ _ _).after (by decide) ?_
    | with_reducible refine (setPin_frame _ _).after (by decide) ?_
    | with_reducible exact failWith_frame _ _ _
    | with_reducible refine okWith_frame ?_
    | with_reducible refine done_frame ?_
    | with_reducible refine fails_frame ?_
    | with_reducible refine later_frame ?_
    | with_reducible refine soon_frame ?_
    | with_reducible refine laterGrace_frame ?_
    | extract_lets
    | with_reducible refine OnlyChanges.getD (fun _ _ => ?_) ?_
    | with_reducible refine OnlyChanges.foldl (fun _ _ => ?_) ?_
    | split

theorem clearPin_frame (a0 s) : OnlyChanges [.tables, .placement] s (clearPin a0 s) := by
  unfold clearPin
  repeat' first
    | with_reducible exact OnlyChanges.refl _ _
    | assumption
    | with_reducible refine (modSlice_frame _ _ _).after (by decide) ?_
    | with_reducible refine modWinnow_frame _ ?_
    | extract_lets
    | with_reducible refine OnlyChanges.getD (fun _ _ => ?_) ?_
    | with_reducible refine OnlyChanges.foldl (fun _ _ => ?_) ?_
    | split

theorem execWinnowUnpin_frame (a0 a1 s) : NextChanges [.recoveryLog, .tables, .events, .mailboxes, .counters,
    .crumbs, .decisions, .placement, .out] s (execWinnowUnpin a0 a1 s) := by
  unfold execWinnowUnpin
  repeat' first
    | with_reducible exact OnlyChanges.refl _ _
    | assumption
    | with_reducible refine onUnit_frame _ ?_
    | with_reducible refine next_frame ?_
    | with_reducible exact fault_frame _ _ _
    | with_reducible refine runCommand_frame _ _ _ (fun _ => ?_)
    | with_reducible refine (logPin_frame _ _ _).after (by decide) ?_
    | with_reducible refine (clearPin_frame _ _).after (by decide) ?_
    | with_reducible exact failWith_frame _ _ _
    | with_reducible refine okWith_frame ?_
    | with_reducible refine done_frame ?_
    | with_reducible refine fails_frame ?_
    | with_reducible refine later_frame ?_
    | with_reducible refine soon_frame ?_
    | with_reducible refine laterGrace_frame ?_
    | extract_lets
    | with_reducible refine OnlyChanges.getD (fun _ _ => ?_) ?_
    | with_reducible refine OnlyChanges.foldl (fun _ _ => ?_) ?_
    | split

theorem execWinnowCrustMask_frame (a0 a1 a2 s) : NextChanges [.recoveryLog, .events, .mailboxes, .counters,
    .crumbs, .placement, .out] s (execWinnowCrustMask a0 a1 a2 s) := by
  unfold execWinnowCrustMask
  repeat' first
    | with_reducible exact OnlyChanges.refl _ _
    | assumption
    | with_reducible refine onUnit_frame _ ?_
    | with_reducible refine next_frame ?_
    | with_reducible exact fault_frame _ _ _
    | with_reducible refine runCommand_frame _ _ _ (fun _ => ?_)
    | with_reducible refine modWinnow_frame _ ?_
    | with_reducible exact failWith_frame _ _ _
    | with_reducible refine okWith_frame ?_
    | with_reducible refine done_frame ?_
    | with_reducible refine fails_frame ?_
    | with_reducible refine later_frame ?_
    | with_reducible refine soon_frame ?_
    | with_reducible refine laterGrace_frame ?_
    | extract_lets
    | with_reducible refine OnlyChanges.getD (fun _ _ => ?_) ?_
    | with_reducible refine OnlyChanges.foldl (fun _ _ => ?_) ?_
    | split

theorem execWinnowLog_frame (a0 a1 a2 s) : NextChanges [.recoveryLog, .events, .mailboxes, .counters, .crumbs,
    .out] s (execWinnowLog a0 a1 a2 s) := by
  unfold execWinnowLog
  repeat' first
    | with_reducible exact OnlyChanges.refl _ _
    | assumption
    | with_reducible refine onUnit_frame _ ?_
    | with_reducible refine next_frame ?_
    | with_reducible exact fault_frame _ _ _
    | with_reducible refine runCommand_frame _ _ _ (fun _ => ?_)
    | with_reducible exact failWith_frame _ _ _
    | with_reducible refine okWith_frame ?_
    | with_reducible refine done_frame ?_
    | with_reducible refine fails_frame ?_
    | with_reducible refine later_frame ?_
    | with_reducible refine soon_frame ?_
    | with_reducible refine laterGrace_frame ?_
    | extract_lets
    | with_reducible refine OnlyChanges.getD (fun _ _ => ?_) ?_
    | with_reducible refine OnlyChanges.foldl (fun _ _ => ?_) ?_
    | split

end Sys2Proof.Machine
end

