-- ==== Sys2Proof/Laws/FrameMgmt.lean ====
section
/-! SUPPORT. What the operations of Machine/Mgmt.lean leave unchanged. -/

set_option Elab.async false

namespace Sys2Proof.Machine

theorem execDtlsHandshake_frame (a0 a1 a2 a3 s) : NextChanges [.recoveryLog, .events, .sessions, .counters,
    .crumbs] s (execDtlsHandshake a0 a1 a2 a3 s) := by
  unfold execDtlsHandshake
  repeat' first
    | with_reducible exact OnlyChanges.refl _ _
    | assumption
    | with_reducible refine onUnit_frame _ ?_
    | with_reducible refine next_frame ?_
    | with_reducible exact fault_frame _ _ _
    | with_reducible refine (countMgmt_frame _ _ _).after (by decide) ?_
    | with_reducible refine modMgmt_frame _ ?_
    | extract_lets
    | with_reducible refine OnlyChanges.getD (fun _ _ => ?_) ?_
    | with_reducible refine OnlyChanges.foldl (fun _ _ => ?_) ?_
    | split

theorem execSessionIdleTimeout_frame (a0 s) : NextChanges [.mailboxes, .sessions] s (execSessionIdleTimeout a0 s)
    := by
  unfold execSessionIdleTimeout
  repeat' first
    | with_reducible exact OnlyChanges.refl _ _
    | assumption
    | with_reducible refine onUnit_frame _ ?_
    | with_reducible refine next_frame ?_
    | with_reducible exact fault_frame _ _ _
    | with_reducible refine (closeSession_frame _ _).before ?_

theorem execPacketTooBigRx_frame (a0 a1 s) : NextChanges [.sessions] s (execPacketTooBigRx a0 a1 s) := by
  unfold execPacketTooBigRx
  repeat' first
    | with_reducible exact OnlyChanges.refl _ _
    | assumption
    | with_reducible refine onUnit_frame _ ?_
    | with_reducible refine next_frame ?_
    | with_reducible exact fault_frame _ _ _
    | with_reducible refine modMgmt_frame _ ?_

theorem execCommandPeelRx_frame (a0 a1 a2 a3 s) : NextChanges [.recoveryLog, .events, .mailboxes, .sessions,
    .counters, .crumbs, .out] s (execCommandPeelRx a0 a1 a2 a3 s) := by
  unfold execCommandPeelRx
  repeat' first
    | with_reducible exact OnlyChanges.refl _ _
    | assumption
    | with_reducible refine onUnit_frame _ ?_
    | with_reducible refine next_frame ?_
    | with_reducible exact fault_frame _ _ _
    | with_reducible refine (datagramArrives_frame _ _ _ (_, _) (by assumption)).after (by decide) ?_
    | with_reducible refine (discardPeel_frame _ _).after (by decide) ?_
    | with_reducible refine (receiveCommand_frame _ _ _ _ _ _).after (by decide) ?_
    | with_reducible refine (assemble_frame _ _ _ _ _).after (by decide) ?_
    | extract_lets
    | with_reducible refine OnlyChanges.getD (fun _ _ => ?_) ?_
    | with_reducible refine OnlyChanges.foldl (fun _ _ => ?_) ?_
    | split

theorem execSegmentTimeout_frame (a0 a1 a2 s) : NextChanges [.recoveryLog, .events, .mailboxes, .counters, .crumbs]
    s (execSegmentTimeout a0 a1 a2 s) := by
  unfold execSegmentTimeout
  repeat' first
    | with_reducible exact OnlyChanges.refl _ _
    | assumption
    | with_reducible refine onUnit_frame _ ?_
    | with_reducible refine next_frame ?_
    | with_reducible exact fault_frame _ _ _
    | with_reducible refine (countMailbox_frame _ _ _).after (by decide) ?_
    | with_reducible refine (dropMessage_frame _ _ _ _).after (by decide) ?_
    | extract_lets
    | with_reducible refine OnlyChanges.getD (fun _ _ => ?_) ?_
    | with_reducible refine OnlyChanges.foldl (fun _ _ => ?_) ?_
    | split

theorem execCommandStepDispatch_frame (s) : NextChanges [.mailboxes, .turns] s (execCommandStepDispatch s) := by
  unfold execCommandStepDispatch
  repeat' first
    | with_reducible exact OnlyChanges.refl _ _
    | assumption
    | with_reducible refine onUnit_frame _ ?_
    | with_reducible refine next_frame ?_
    | with_reducible exact fault_frame _ _ _
    | with_reducible refine (dispatchStep_frame _).before ?_

theorem abandonWork_frame (a0 a1 s) : OnlyChanges [.recoveryLog, .time, .ports, .packets, .queues, .room,
    .numbering, .firmware, .tables, .loafs, .events, .mill, .mirrors, .counters, .crumbs, .snapshots] s
    (abandonWork a0 a1 s) := by
  unfold abandonWork
  repeat' first
    | with_reducible exact OnlyChanges.refl _ _
    | assumption
    | with_reducible refine (releaseSpines_frame _ _ _ _).after (by decide) ?_
    | with_reducible refine modLoaf_frame _ ?_
    | with_reducible refine modTele_frame _ ?_
    | with_reducible refine modMill_frame _ ?_
    | extract_lets
    | with_reducible refine OnlyChanges.getD (fun _ _ => ?_) ?_
    | with_reducible refine OnlyChanges.foldl (fun _ _ => ?_) ?_
    | split
    | extract_lets +lift
    | with_reducible refine OnlyChanges.foldl_fst (fun _ _ => ?_) ?_
    | with_reducible refine OnlyChanges.foldl_snd (fun _ _ => ?_) ?_
    | with_reducible refine OnlyChanges.of_fst (by assumption) ?_
    | with_reducible refine OnlyChanges.of_snd (by assumption) ?_
    | with_reducible refine OnlyChanges.upd rfl ?_

theorem expireCommand_frame (a0 a1 s) : OnlyChanges [.alert, .lastLevel, .recoveryLog, .time, .ports, .packets,
    .queues, .room, .numbering, .firmware, .tables, .loafs, .events, .mailboxes, .mill, .mirrors, .counters,
    .crumbs, .snapshots, .out] s (expireCommand a0 a1 s) := by
  unfold expireCommand
  repeat' first
    | with_reducible exact OnlyChanges.refl _ _
    | assumption
    | with_reducible refine (staleCrumb_frame _ _ _ _).after (by decide) ?_
    | with_reducible refine (answer_frame _ _ _ _ _).after (by decide) ?_
    | with_reducible refine (countMailbox_frame _ _ _).after (by decide) ?_
    | with_reducible refine (abandonWork_frame _ _ _).after (by decide) ?_
    | extract_lets
    | with_reducible refine OnlyChanges.getD (fun _ _ => ?_) ?_
    | with_reducible refine OnlyChanges.foldl (fun _ _ => ?_) ?_
    | split

theorem execCommandDeadlineExpiry_frame (a0 a1 s) : NextChanges [.alert, .lastLevel, .recoveryLog, .time, .ports,
    .packets, .queues, .room, .numbering, .firmware, .tables, .loafs, .events, .mailboxes, .mill, .mirrors,
    .counters, .crumbs, .snapshots, .out] s (execCommandDeadlineExpiry a0 a1 s) := by
  unfold execCommandDeadlineExpiry
  repeat' first
    | with_reducible exact OnlyChanges.refl _ _
    | assumption
    | with_reducible refine onUnit_frame _ ?_
    | with_reducible refine next_frame ?_
    | with_reducible exact fault_frame _ _ _
    | with_reducible refine (expireCommand_frame _ _ _).before ?_
    | extract_lets
    | with_reducible refine OnlyChanges.getD (fun _ _ => ?_) ?_
    | with_reducible refine OnlyChanges.foldl (fun _ _ => ?_) ?_
    | split

theorem execStepOverrun_frame (a0 a1 a2 a3 s) : NextChanges [.recoveryLog, .events, .counters, .crumbs,
    .escalation] s (execStepOverrun a0 a1 a2 a3 s) := by
  unfold execStepOverrun
  repeat' first
    | with_reducible exact OnlyChanges.refl _ _
    | assumption
    | with_reducible refine onUnit_frame _ ?_
    | with_reducible refine next_frame ?_
    | with_reducible exact fault_frame _ _ _
    | with_reducible refine (escalate_frame _ _ _ _ _).before ?_
    | extract_lets
    | with_reducible refine OnlyChanges.getD (fun _ _ => ?_) ?_
    | with_reducible refine OnlyChanges.foldl (fun _ _ => ?_) ?_
    | split

theorem execEventAckRx_frame (a0 a1 a2 s) : NextChanges [.recoveryLog, .events, .mailboxes, .sessions, .counters,
    .crumbs, .out] s (execEventAckRx a0 a1 a2 s) := by
  unfold execEventAckRx
  repeat' first
    | with_reducible exact OnlyChanges.refl _ _
    | assumption
    | with_reducible refine onUnit_frame _ ?_
    | with_reducible refine next_frame ?_
    | with_reducible exact fault_frame _ _ _
    | with_reducible refine (datagramArrives_frame _ _ _ (_, _) (by assumption)).after (by decide) ?_
    | with_reducible refine (discardPeel_frame _ _).after (by decide) ?_
    | with_reducible refine (bindMailbox_frame _ _ _).after (by decide) ?_
    | with_reducible refine (modEventQueue_frame _ _ _).after (by decide) ?_
    | extract_lets
    | with_reducible refine OnlyChanges.getD (fun _ _ => ?_) ?_
    | with_reducible refine OnlyChanges.foldl (fun _ _ => ?_) ?_
    | split

theorem execEventSend_frame (a0 s) : NextChanges [.recoveryLog, .events, .counters, .crumbs, .out] s (execEventSend
    a0 s) := by
  unfold execEventSend
  repeat' first
    | with_reducible exact OnlyChanges.refl _ _
    | assumption
    | with_reducible refine onUnit_frame _ ?_
    | with_reducible refine next_frame ?_
    | with_reducible exact fault_frame _ _ _
    | with_reducible refine (sendEvents_frame _ _).before ?_

theorem execEventResendTimeout_frame (a0 s) : NextChanges [.recoveryLog, .events, .counters, .crumbs, .out] s
    (execEventResendTimeout a0 s) := by
  unfold execEventResendTimeout
  repeat' first
    | with_reducible exact OnlyChanges.refl _ _
    | assumption
    | with_reducible refine onUnit_frame _ ?_
    | with_reducible refine next_frame ?_
    | with_reducible exact fault_frame _ _ _
    | with_reducible refine (sendEvents_frame _ _).before ?_
    | with_reducible refine (modEventQueue_frame _ _ _).after (by decide) ?_
    | extract_lets
    | with_reducible refine OnlyChanges.getD (fun _ _ => ?_) ?_
    | with_reducible refine OnlyChanges.foldl (fun _ _ => ?_) ?_
    | split

theorem execLldpTick_frame (a0 s) : NextChanges [.recoveryLog, .events, .counters, .crumbs, .out] s (execLldpTick
    a0 s) := by
  unfold execLldpTick
  repeat' first
    | with_reducible exact OnlyChanges.refl _ _
    | assumption
    | with_reducible refine onUnit_frame _ ?_
    | with_reducible refine next_frame ?_
    | with_reducible exact fault_frame _ _ _
    | with_reducible refine (sendFrame_frame _ _ _).before ?_

theorem execLldpRx_frame (a0 a1 s) : NextChanges [.recoveryLog, .events, .sessions, .counters, .crumbs] s
    (execLldpRx a0 a1 s) := by
  unfold execLldpRx
  repeat' first
    | with_reducible exact OnlyChanges.refl _ _
    | assumption
    | with_reducible refine onUnit_frame _ ?_
    | with_reducible refine next_frame ?_
    | with_reducible exact fault_frame _ _ _
    | with_reducible refine (countMgmt_frame _ _ _).after (by decide) ?_
    | with_reducible refine modMgmt_frame _ ?_
    | extract_lets
    | with_reducible refine OnlyChanges.getD (fun _ _ => ?_) ?_
    | with_reducible refine OnlyChanges.foldl (fun _ _ => ?_) ?_
    | split

theorem execNeighborDiscoveryRx_frame (a0 a1 a2 a3 a4 s) : NextChanges [.recoveryLog, .events, .counters, .crumbs,
    .out] s (execNeighborDiscoveryRx a0 a1 a2 a3 a4 s) := by
  unfold execNeighborDiscoveryRx
  repeat' first
    | with_reducible exact OnlyChanges.refl _ _
    | assumption
    | with_reducible refine onUnit_frame _ ?_
    | with_reducible refine next_frame ?_
    | with_reducible exact fault_frame _ _ _
    | with_reducible refine (countMgmt_frame _ _ _).after (by decide) ?_
    | with_reducible refine (sendFrame_frame _ _ _).before ?_
    | extract_lets
    | with_reducible refine OnlyChanges.getD (fun _ _ => ?_) ?_
    | with_reducible refine OnlyChanges.foldl (fun _ _ => ?_) ?_
    | split

theorem execIcmpEchoRx_frame (a0 a1 a2 a3 a4 a5 a6 s) : NextChanges [.recoveryLog, .events, .counters, .crumbs,
    .out] s (execIcmpEchoRx a0 a1 a2 a3 a4 a5 a6 s) := by
  unfold execIcmpEchoRx
  repeat' first
    | with_reducible exact OnlyChanges.refl _ _
    | assumption
    | with_reducible refine onUnit_frame _ ?_
    | with_reducible refine next_frame ?_
    | with_reducible exact fault_frame _ _ _
    | with_reducible refine (countMgmt_frame _ _ _).after (by decide) ?_
    | with_reducible refine (sendFrame_frame _ _ _).before ?_
    | extract_lets
    | with_reducible refine OnlyChanges.getD (fun _ _ => ?_) ?_
    | with_reducible refine OnlyChanges.foldl (fun _ _ => ?_) ?_
    | split

theorem flushAll_frame (s) : OnlyChanges [.recoveryLog, .events, .mailboxes, .counters, .crumbs, .out] s (flushAll
    s) := by
  unfold flushAll
  repeat' first
    | with_reducible exact OnlyChanges.refl _ _
    | assumption
    | with_reducible refine (flushUnsent_frame _ _).before ?_
    | extract_lets
    | with_reducible refine OnlyChanges.getD (fun _ _ => ?_) ?_
    | with_reducible refine OnlyChanges.foldl (fun _ _ => ?_) ?_

theorem execMgmtPortLinkChange_frame (a0 a1 s) : NextChanges [.recoveryLog, .events, .mailboxes, .sessions,
    .counters, .crumbs, .out] s (execMgmtPortLinkChange a0 a1 s) := by
  unfold execMgmtPortLinkChange
  repeat' first
    | with_reducible exact OnlyChanges.refl _ _
    | assumption
    | with_reducible refine onUnit_frame _ ?_
    | with_reducible refine next_frame ?_
    | with_reducible exact fault_frame _ _ _
    | with_reducible refine modMgmt_frame _ ?_
    | with_reducible refine (flushAll_frame _).after (by decide) ?_

end Sys2Proof.Machine
end

