-- ==== Sys2Proof/Laws/FramePower.lean ====
section
/-! SUPPORT. What the operations of Machine/Power.lean leave unchanged. -/

set_option Elab.async false

namespace Sys2Proof.Machine

theorem execPowerOn_frame (s) : NextChanges [.alert, .supply, .startPhase] s (execPowerOn s) := by
  unfold execPowerOn
  repeat' first
    | with_reducible exact OnlyChanges.refl _ _
    | assumption
    | with_reducible refine onUnit_frame _ ?_
    | with_reducible refine next_frame ?_
    | with_reducible exact fault_frame _ _ _
    | with_reducible refine modPower_frame _ ?_
    | with_reducible refine (beginCold_frame _).after (by decide) ?_
    | extract_lets
    | with_reducible refine OnlyChanges.getD (fun _ _ => ?_) ?_
    | with_reducible refine OnlyChanges.foldl (fun _ _ => ?_) ?_
    | split

theorem execInputUndervoltage_frame (s) : NextChanges wideParts8 s (execInputUndervoltage s) := by
  unfold execInputUndervoltage
  repeat' first
    | with_reducible exact OnlyChanges.refl _ _
    | assumption
    | with_reducible refine onUnit_frame _ ?_
    | with_reducible refine next_frame ?_
    | with_reducible exact fault_frame _ _ _
    | with_reducible refine (dropPower_frame _).before ?_

theorem latchOff_frame (s) : OnlyChanges wideParts8 s (latchOff s) := by
  unfold latchOff
  repeat' first
    | with_reducible exact OnlyChanges.refl _ _
    | assumption
    | with_reducible refine modPower_frame _ ?_
    | with_reducible refine (dropPower_frame _).before ?_

theorem execInputOvervoltage_frame (s) : NextChanges wideParts8 s (execInputOvervoltage s) := by
  unfold execInputOvervoltage
  repeat' first
    | with_reducible exact OnlyChanges.refl _ _
    | assumption
    | with_reducible refine onUnit_frame _ ?_
    | with_reducible refine next_frame ?_
    | with_reducible exact fault_frame _ _ _
    | with_reducible refine (latchOff_frame _).before ?_

theorem execInputOvercurrent_frame (s) : NextChanges wideParts8 s (execInputOvercurrent s) := by
  unfold execInputOvercurrent
  repeat' first
    | with_reducible exact OnlyChanges.refl _ _
    | assumption
    | with_reducible refine onUnit_frame _ ?_
    | with_reducible refine next_frame ?_
    | with_reducible exact fault_frame _ _ _
    | with_reducible refine (latchOff_frame _).before ?_

theorem execLatchClear_frame (s) : NextChanges wideParts8 s (execLatchClear s) := by
  unfold execLatchClear
  repeat' first
    | with_reducible exact OnlyChanges.refl _ _
    | assumption
    | with_reducible refine onUnit_frame _ ?_
    | with_reducible refine next_frame ?_
    | with_reducible exact fault_frame _ _ _
    | with_reducible refine modPower_frame _ ?_
    | with_reducible refine (dropPower_frame _).before ?_

theorem execSupplyLoss_frame (s) : NextChanges wideParts8 s (execSupplyLoss s) := by
  unfold execSupplyLoss
  repeat' first
    | with_reducible exact OnlyChanges.refl _ _
    | assumption
    | with_reducible refine onUnit_frame _ ?_
    | with_reducible refine next_frame ?_
    | with_reducible exact fault_frame _ _ _
    | with_reducible refine (dropPower_frame _).before ?_

theorem execModRstNAssert_frame (s) : NextChanges wideParts8 s (execModRstNAssert s) := by
  unfold execModRstNAssert
  repeat' first
    | with_reducible exact OnlyChanges.refl _ _
    | assumption
    | with_reducible refine onUnit_frame _ ?_
    | with_reducible refine next_frame ?_
    | with_reducible exact fault_frame _ _ _
    | with_reducible refine (coldHold_frame _).after (by decide) ?_
    | with_reducible refine modPower_frame _ ?_

theorem execModRstNRelease_frame (s) : NextChanges [.alert, .supply, .startPhase] s (execModRstNRelease s) := by
  unfold execModRstNRelease
  repeat' first
    | with_reducible exact OnlyChanges.refl _ _
    | assumption
    | with_reducible refine onUnit_frame _ ?_
    | with_reducible refine next_frame ?_
    | with_reducible exact fault_frame _ _ _
    | with_reducible refine modPower_frame _ ?_
    | with_reducible refine (beginCold_frame _).after (by decide) ?_
    | extract_lets
    | with_reducible refine OnlyChanges.getD (fun _ _ => ?_) ?_
    | with_reducible refine OnlyChanges.foldl (fun _ _ => ?_) ?_
    | split

theorem execRefclkLoss_frame (s) : NextChanges wideParts8 s (execRefclkLoss s) := by
  unfold execRefclkLoss
  repeat' first
    | with_reducible exact OnlyChanges.refl _ _
    | assumption
    | with_reducible refine onUnit_frame _ ?_
    | with_reducible refine next_frame ?_
    | with_reducible exact fault_frame _ _ _
    | with_reducible refine modStart_frame _ ?_
    | with_reducible refine modPower_frame _ ?_
    | with_reducible refine (coldHold_frame _).after (by decide) ?_
    | extract_lets
    | with_reducible refine OnlyChanges.getD (fun _ _ => ?_) ?_
    | with_reducible refine OnlyChanges.foldl (fun _ _ => ?_) ?_
    | split

theorem execThermalTrip_frame (s) : NextChanges wideParts8 s (execThermalTrip s) := by
  unfold execThermalTrip
  repeat' first
    | with_reducible exact OnlyChanges.refl _ _
    | assumption
    | with_reducible refine onUnit_frame _ ?_
    | with_reducible refine next_frame ?_
    | with_reducible exact fault_frame _ _ _
    | with_reducible refine modPower_frame _ ?_
    | with_reducible refine (coldHold_frame _).after (by decide) ?_
    | extract_lets
    | with_reducible refine OnlyChanges.getD (fun _ _ => ?_) ?_
    | with_reducible refine OnlyChanges.foldl (fun _ _ => ?_) ?_
    | split

theorem execTelemetryUpdate_frame (a0 s) : NextChanges [.readings] s (execTelemetryUpdate a0 s) := by
  unfold execTelemetryUpdate
  repeat' first
    | with_reducible exact OnlyChanges.refl _ _
    | assumption
    | with_reducible refine onUnit_frame _ ?_
    | with_reducible refine next_frame ?_
    | with_reducible exact fault_frame _ _ _
    | with_reducible refine modPower_frame _ ?_
    | extract_lets
    | with_reducible refine OnlyChanges.getD (fun _ _ => ?_) ?_
    | with_reducible refine OnlyChanges.foldl (fun _ _ => ?_) ?_
    | split

theorem execCoolantDeltaAlarm_frame (s) : NextChanges [.readings] s (execCoolantDeltaAlarm s) := by
  unfold execCoolantDeltaAlarm
  repeat' first
    | with_reducible exact OnlyChanges.refl _ _
    | assumption
    | with_reducible refine onUnit_frame _ ?_
    | with_reducible refine next_frame ?_
    | with_reducible exact fault_frame _ _ _
    | with_reducible refine modPower_frame _ ?_
    | extract_lets
    | with_reducible refine OnlyChanges.getD (fun _ _ => ?_) ?_
    | with_reducible refine OnlyChanges.foldl (fun _ _ => ?_) ?_
    | split

theorem execThrottleEvaluation_frame (a0 s) : NextChanges [.throttle, .recoveryLog, .events, .counters, .crumbs] s
    (execThrottleEvaluation a0 s) := by
  unfold execThrottleEvaluation
  repeat' first
    | with_reducible exact OnlyChanges.refl _ _
    | assumption
    | with_reducible refine onUnit_frame _ ?_
    | with_reducible refine next_frame ?_
    | with_reducible exact fault_frame _ _ _
    | with_reducible refine modPower_frame _ ?_
    | with_reducible refine (raise15_frame _ _ _).after (by decide) ?_
    | extract_lets
    | with_reducible refine OnlyChanges.getD (fun _ _ => ?_) ?_
    | with_reducible refine OnlyChanges.foldl (fun _ _ => ?_) ?_
    | split

theorem execCapUnattainable_frame (s) : NextChanges [.throttle, .recoveryLog, .events, .counters, .crumbs] s
    (execCapUnattainable s) := by
  unfold execCapUnattainable
  repeat' first
    | with_reducible exact OnlyChanges.refl _ _
    | assumption
    | with_reducible refine onUnit_frame _ ?_
    | with_reducible refine next_frame ?_
    | with_reducible exact fault_frame _ _ _
    | with_reducible refine (raise15_frame _ _ _).after (by decide) ?_
    | with_reducible refine modPower_frame _ ?_
    | extract_lets
    | with_reducible refine OnlyChanges.getD (fun _ _ => ?_) ?_
    | with_reducible refine OnlyChanges.foldl (fun _ _ => ?_) ?_
    | split

theorem execStartStatusRead_frame (a0 s) : NextChanges [.alert, .out] s (execStartStatusRead a0 s) := by
  unfold execStartStatusRead
  repeat' first
    | with_reducible exact OnlyChanges.refl _ _
    | assumption
    | with_reducible refine onUnit_frame _ ?_
    | with_reducible refine next_frame ?_
    | with_reducible exact fault_frame _ _ _
    | with_reducible refine (emit_frame _ _).after (by decide) ?_
    | with_reducible refine modPower_frame _ ?_
    | extract_lets
    | with_reducible refine OnlyChanges.getD (fun _ _ => ?_) ?_
    | with_reducible refine OnlyChanges.foldl (fun _ _ => ?_) ?_
    | split

end Sys2Proof.Machine
end

