-- ==== Sys2Proof/Laws/FrameResetCmd.lean ====
section
/-! SUPPORT. What the operations of Machine/ResetCmd.lean leave unchanged. -/

set_option Elab.async false

namespace Sys2Proof.Machine

theorem resetLoaf_frame (a0 a1 a2 s) : CmdChanges [.alert, .lastLevel, .recoveryLog, .ports, .packets, .queues,
    .room, .numbering, .firmware, .tables, .loafs, .events, .mailboxes, .regions, .counters, .crumbs, .out] s
    (resetLoaf a0 a1 a2 s) := by
  unfold resetLoaf
  repeat' first
    | with_reducible exact OnlyChanges.refl _ _
    | assumption
    | with_reducible refine (noteLevel_frame _ _).after (by decide) ?_
    | with_reducible refine (abortLoaf_frame _ _ _ _).after (by decide) ?_
    | with_reducible exact failWith_frame _ _ _
    | with_reducible refine okWith_frame ?_
    | with_reducible refine done_frame ?_
    | with_reducible refine fails_frame ?_
    | with_reducible refine later_frame ?_
    | with_reducible refine soon_frame ?_
    | with_reducible refine laterGrace_frame ?_
    | extract_lets
    | with_reducible refine OnlyChanges.getD (fun _ _ => ?_) ?_
    | with_reducible refine OnlyChanges.foldl (fun _ _ => ?_) ?_
    | split

theorem resetGrist_frame (a0 a1 s) : CmdChanges [.alert, .lastLevel, .recoveryLog, .room, .grists, .counters,
    .crumbs] s (resetGrist a0 a1 s) := by
  unfold resetGrist
  repeat' first
    | with_reducible exact OnlyChanges.refl _ _
    | assumption
    | with_reducible refine (abortGrist_frame _ _).after (by decide) ?_
    | with_reducible refine (staleCrumb_frame _ _ _ _).after (by decide) ?_
    | with_reducible exact failWith_frame _ _ _
    | with_reducible refine okWith_frame ?_
    | with_reducible refine done_frame ?_
    | with_reducible refine fails_frame ?_
    | with_reducible refine later_frame ?_
    | with_reducible refine soon_frame ?_
    | with_reducible refine laterGrace_frame ?_
    | extract_lets
    | with_reducible refine OnlyChanges.getD (fun _ _ => ?_) ?_
    | with_reducible refine OnlyChanges.foldl (fun _ _ => ?_) ?_
    | split

theorem resetChannel_frame (a0 a1 s) : CmdChanges [.alert, .lastLevel, .recoveryLog, .events, .mailboxes, .memory,
    .channels, .accesses, .counters, .crumbs, .out] s (resetChannel a0 a1 s) := by
  unfold resetChannel
  repeat' first
    | with_reducible exact OnlyChanges.refl _ _
    | assumption
    | with_reducible refine (modChannel_frame _ _ _).after (by decide) ?_
    | with_reducible refine (staleCrumb_frame _ _ _ _).after (by decide) ?_
    | with_reducible refine (settleStop_frame _ _).after (by decide) ?_
    | with_reducible refine (failFlight_frame _ _ _ _).after (by decide) ?_
    | with_reducible exact failWith_frame _ _ _
    | with_reducible refine okWith_frame ?_
    | with_reducible refine done_frame ?_
    | with_reducible refine fails_frame ?_
    | with_reducible refine later_frame ?_
    | with_reducible refine soon_frame ?_
    | with_reducible refine laterGrace_frame ?_
    | extract_lets
    | with_reducible refine OnlyChanges.getD (fun _ _ => ?_) ?_
    | with_reducible refine OnlyChanges.foldl (fun _ _ => ?_) ?_
    | split

theorem resetCommand_frame (a0 a1 a2 s) : CmdChanges [.alert, .lastLevel, .recoveryLog, .time, .ports, .packets,
    .queues, .room, .numbering, .firmware, .tables, .loafs, .events, .mailboxes, .mill, .mirrors, .counters,
    .crumbs, .snapshots, .out] s (resetCommand a0 a1 a2 s) := by
  unfold resetCommand
  repeat' first
    | with_reducible exact OnlyChanges.refl _ _
    | assumption
    | with_reducible refine (expireCommand_frame _ _ _).before ?_
    | with_reducible exact failWith_frame _ _ _
    | with_reducible refine okWith_frame ?_
    | with_reducible refine done_frame ?_
    | with_reducible refine fails_frame ?_
    | with_reducible refine later_frame ?_
    | with_reducible refine soon_frame ?_
    | with_reducible refine laterGrace_frame ?_
    | extract_lets
    | with_reducible refine OnlyChanges.getD (fun _ _ => ?_) ?_
    | with_reducible refine OnlyChanges.foldl (fun _ _ => ?_) ?_
    | split

theorem execResetContext_frame (a0 a1 a2 a3 s) : NextChanges wideParts15 s (execResetContext a0 a1 a2 a3 s) := by
  unfold execResetContext
  repeat' first
    | with_reducible exact OnlyChanges.refl _ _
    | assumption
    | with_reducible refine onUnit_frame _ ?_
    | with_reducible refine next_frame ?_
    | with_reducible exact fault_frame _ _ _
    | with_reducible refine runCommand_frame _ _ _ (fun _ => ?_)
    | with_reducible refine (resetLoaf_frame _ _ _ _).mono (by decide)
    | with_reducible refine (resetGrist_frame _ _ _).mono (by decide)
    | with_reducible refine (resetChannel_frame _ _ _).mono (by decide)
    | with_reducible refine (resetCommand_frame _ _ _ _).mono (by decide)
    | with_reducible exact failWith_frame _ _ _
    | with_reducible refine okWith_frame ?_
    | with_reducible refine done_frame ?_
    | with_reducible refine fails_frame ?_
    | with_reducible refine later_frame ?_
    | with_reducible refine soon_frame ?_
    | with_reducible refine laterGrace_frame ?_
    | extract_lets
    | with_reducible refine OnlyChanges.getD (fun _ _ => ?_) ?_
    | with_reducible refine OnlyChanges.foldl (fun _ _ => ?_) ?_
    | split

theorem execResetEngine_frame (a0 a1 a2 s) : NextChanges wideParts16 s (execResetEngine a0 a1 a2 s) := by
  unfold execResetEngine
  repeat' first
    | with_reducible exact OnlyChanges.refl _ _
    | assumption
    | with_reducible refine onUnit_frame _ ?_
    | with_reducible refine next_frame ?_
    | with_reducible exact fault_frame _ _ _
    | with_reducible refine runCommand_frame _ _ _ (fun _ => ?_)
    | with_reducible refine (escalate_frame _ _ _ _ _).after (by decide) ?_
    | with_reducible refine (resetEngine_frame _ _ _ _).before ?_
    | with_reducible exact failWith_frame _ _ _
    | with_reducible refine okWith_frame ?_
    | with_reducible refine done_frame ?_
    | with_reducible refine fails_frame ?_
    | with_reducible refine later_frame ?_
    | with_reducible refine soon_frame ?_
    | with_reducible refine laterGrace_frame ?_
    | extract_lets
    | with_reducible refine OnlyChanges.getD (fun _ _ => ?_) ?_
    | with_reducible refine OnlyChanges.foldl (fun _ _ => ?_) ?_
    | split

theorem execResetSlice_frame (a0 a1 a2 s) : NextChanges wideParts17 s (execResetSlice a0 a1 a2 s) := by
  unfold execResetSlice
  repeat' first
    | with_reducible exact OnlyChanges.refl _ _
    | assumption
    | with_reducible refine onUnit_frame _ ?_
    | with_reducible refine next_frame ?_
    | with_reducible exact fault_frame _ _ _
    | with_reducible refine runCommand_frame _ _ _ (fun _ => ?_)
    | with_reducible refine (escalate_frame _ _ _ _ _).after (by decide) ?_
    | with_reducible refine (resetScope_frame _ _ _).before ?_
    | with_reducible exact failWith_frame _ _ _
    | with_reducible refine okWith_frame ?_
    | with_reducible refine done_frame ?_
    | with_reducible refine fails_frame ?_
    | with_reducible refine later_frame ?_
    | with_reducible refine soon_frame ?_
    | with_reducible refine laterGrace_frame ?_
    | extract_lets
    | with_reducible refine OnlyChanges.getD (fun _ _ => ?_) ?_
    | with_reducible refine OnlyChanges.foldl (fun _ _ => ?_) ?_
    | split

theorem execResetChip_frame (a0 s) : NextChanges [.alert, .startPhase, .recoveryLog, .events, .mailboxes,
    .counters, .crumbs, .escalation, .out] s (execResetChip a0 s) := by
  unfold execResetChip
  repeat' first
    | with_reducible exact OnlyChanges.refl _ _
    | assumption
    | with_reducible refine onUnit_frame _ ?_
    | with_reducible refine next_frame ?_
    | with_reducible exact fault_frame _ _ _
    | with_reducible refine runCommand_frame _ _ _ (fun _ => ?_)
    | with_reducible refine (beginCold_frame _).after (by decide) ?_
    | with_reducible refine (escalate_frame _ _ _ _ _).after (by decide) ?_
    | with_reducible exact failWith_frame _ _ _
    | with_reducible refine okWith_frame ?_
    | with_reducible refine done_frame ?_
    | with_reducible refine fails_frame ?_
    | with_reducible refine later_frame ?_
    | with_reducible refine soon_frame ?_
    | with_reducible refine laterGrace_frame ?_
    | extract_lets
    | with_reducible refine OnlyChanges.getD (fun _ _ => ?_) ?_
    | with_reducible refine OnlyChanges.foldl (fun _ _ => ?_) ?_
    | split

theorem execResetCycle_frame (a0 s) : NextChanges [.recoveryLog, .events, .mailboxes, .counters, .crumbs,
    .escalation, .out] s (execResetCycle a0 s) := by
  unfold execResetCycle
  repeat' first
    | with_reducible exact OnlyChanges.refl _ _
    | assumption
    | with_reducible refine onUnit_frame _ ?_
    | with_reducible refine next_frame ?_
    | with_reducible exact fault_frame _ _ _
    | with_reducible refine runCommand_frame _ _ _ (fun _ => ?_)
    | with_reducible refine (escalate_frame _ _ _ _ _).after (by decide) ?_
    | with_reducible exact failWith_frame _ _ _
    | with_reducible refine okWith_frame ?_
    | with_reducible refine done_frame ?_
    | with_reducible refine fails_frame ?_
    | with_reducible refine later_frame ?_

theorem execPowerCap_frame (a0 a1 s) : NextChanges [.powerCap, .recoveryLog, .events, .mailboxes, .counters,
    .crumbs, .out] s (execPowerCap a0 a1 s) := by
  unfold execPowerCap
  repeat' first
    | with_reducible exact OnlyChanges.refl _ _
    | assumption
    | with_reducible refine onUnit_frame _ ?_
    | with_reducible refine next_frame ?_
    | with_reducible exact fault_frame _ _ _
    | with_reducible refine runCommand_frame _ _ _ (fun _ => ?_)
    | with_reducible refine modPower_frame _ ?_
    | with_reducible exact failWith_frame _ _ _
    | with_reducible refine okWith_frame ?_
    | with_reducible refine done_frame ?_
    | with_reducible refine fails_frame ?_
    | with_reducible refine later_frame ?_
    | with_reducible refine soon_frame ?_
    | with_reducible refine laterGrace_frame ?_
    | extract_lets
    | with_reducible refine OnlyChanges.getD (fun _ _ => ?_) ?_
    | with_reducible refine OnlyChanges.foldl (fun _ _ => ?_) ?_
    | split

theorem execPowerStatus_frame (a0 s) : NextChanges [.recoveryLog, .events, .mailboxes, .counters, .crumbs, .out] s
    (execPowerStatus a0 s) := by
  unfold execPowerStatus
  repeat' first
    | with_reducible exact OnlyChanges.refl _ _
    | assumption
    | with_reducible refine onUnit_frame _ ?_
    | with_reducible refine next_frame ?_
    | with_reducible exact fault_frame _ _ _
    | with_reducible refine runCommand_frame _ _ _ (fun _ => ?_)
    | with_reducible exact failWith_frame _ _ _
    | with_reducible refine okWith_frame ?_
    | with_reducible refine done_frame ?_

end Sys2Proof.Machine
end

