-- ==== Sys2Proof/Laws/FrameSched.lean ====
section
/-! SUPPORT. What the operations of Machine/Sched.lean leave unchanged. -/

set_option Elab.async false

namespace Sys2Proof.Machine

theorem countBudget_frame (a0 a1 a2 a3 s) : OnlyChanges [.recoveryLog, .events, .counters, .crumbs] s (countBudget
    a0 a1 a2 a3 s) := by
  unfold countBudget
  repeat' first
    | with_reducible exact OnlyChanges.refl _ _
    | assumption
    | with_reducible refine (count_frame _ _ _).before ?_
    | extract_lets
    | with_reducible refine OnlyChanges.getD (fun _ _ => ?_) ?_
    | with_reducible refine OnlyChanges.foldl (fun _ _ => ?_) ?_
    | split

theorem closeGate_frame (a0 a1 s) : OnlyChanges [.recoveryLog, .gates, .events, .counters, .crumbs] s (closeGate a0
    a1 s) := by
  unfold closeGate
  repeat' first
    | with_reducible exact OnlyChanges.refl _ _
    | assumption
    | with_reducible refine (countBudget_frame _ _ _ _ _).after (by decide) ?_
    | with_reducible refine (modGate_frame _ _ _ _).after (by decide) ?_

theorem closeGateList_frame (l : List (Nat × Nat)) (s) : OnlyChanges [.recoveryLog, .gates, .events, .counters, .crumbs] s
    (l.foldl (fun s x => closeGate x.1 x.2 s) s) :=
  OnlyChanges.foldl (fun _ _ => (closeGate_frame _ _ _).mono (by decide)) (OnlyChanges.refl _ _)

theorem closeGates_frame (s) : OnlyChanges [.recoveryLog, .gates, .events, .counters, .crumbs] s (closeGates s) := by
  unfold closeGates
  exact closeGateList_frame allGates s

theorem closePeriod_frame (s) : OnlyChanges [.recoveryLog, .budgets, .gates, .events, .counters, .crumbs] s
    (closePeriod s) := by
  unfold closePeriod
  repeat' first
    | with_reducible exact OnlyChanges.refl _ _
    | assumption
    | with_reducible refine (closeGates_frame _).after (by decide) ?_
    | extract_lets
    | with_reducible refine OnlyChanges.getD (fun _ _ => ?_) ?_
    | with_reducible refine OnlyChanges.foldl (fun _ _ => ?_) ?_
    | split
    | extract_lets +lift
    | with_reducible refine OnlyChanges.foldl_fst (fun _ _ => ?_) ?_
    | with_reducible refine OnlyChanges.foldl_snd (fun _ _ => ?_) ?_
    | with_reducible refine OnlyChanges.of_fst (by assumption) ?_
    | with_reducible refine OnlyChanges.of_snd (by assumption) ?_
    | with_reducible refine OnlyChanges.upd rfl ?_

theorem periodEnd_frame {s t : State} (h : OnlyChanges [.recoveryLog, .budgets, .gates, .events, .counters, .crumbs] s t) : NextChanges [.recoveryLog, .budgets, .gates, .events, .counters, .crumbs] s
    (.next { t with sched := { t.sched with
      lentPool := [], budgets := t.sched.nextBudgets.getD t.sched.budgets, nextBudgets := none } }) :=
  next_frame (OnlyChanges.upd rfl h)

theorem execProofPeriodBoundary_frame (s) : NextChanges [.recoveryLog, .budgets, .gates, .events, .counters, .crumbs] s (execProofPeriodBoundary s) :=
  periodEnd_frame ((closeGates_frame s).mono (by decide))

theorem execLendIdleTimeout_frame (a0 a1 s) : NextChanges [.gates] s (execLendIdleTimeout a0 a1 s) := by
  unfold execLendIdleTimeout
  repeat' first
    | with_reducible exact OnlyChanges.refl _ _
    | assumption
    | with_reducible refine onUnit_frame _ ?_
    | with_reducible refine next_frame ?_
    | with_reducible exact fault_frame _ _ _
    | with_reducible refine (modGate_frame _ _ _ _).before ?_
    | extract_lets
    | with_reducible refine OnlyChanges.getD (fun _ _ => ?_) ?_
    | with_reducible refine OnlyChanges.foldl (fun _ _ => ?_) ?_
    | split
    | extract_lets +lift
    | with_reducible refine OnlyChanges.foldl_fst (fun _ _ => ?_) ?_
    | with_reducible refine OnlyChanges.foldl_snd (fun _ _ => ?_) ?_
    | with_reducible refine OnlyChanges.of_fst (by assumption) ?_
    | with_reducible refine OnlyChanges.of_snd (by assumption) ?_
    | with_reducible refine OnlyChanges.upd rfl ?_

end Sys2Proof.Machine
end

