-- ==== Sys2Proof/Laws/FrameTableCmd.lean ====
section
/-! SUPPORT. What the operations of Machine/TableCmd.lean leave unchanged. -/

set_option Elab.async false

namespace Sys2Proof.Machine

theorem setSlice_frame (a0 a1 s) : OnlyChanges [.tables] s (setSlice a0 a1 s) := by
  unfold setSlice
  repeat' first
    | with_reducible exact OnlyChanges.refl _ _
    | assumption
    | with_reducible refine (modSlice_frame _ _ _).before ?_

theorem writeSlices_frame (a0 a1 a2 a3 s) : ∀ t, writeSlices a0 a1 a2 a3 s = some t → OnlyChanges [.tables] s t := by
  induction a3 generalizing s with
  | nil => intro t h; injection h with h; subst h; exact OnlyChanges.refl _ _
  | cons n ns ih =>
    intro t h
    rw [writeSlices] at h
    split at h
    · cases h
    · exact ((setSlice_frame _ _ _).mono (by decide)).trans (ih _ t h)

theorem execTableWrite_frame (a0 a1 a2 a3 a4 a5 s) : NextChanges [.recoveryLog, .tables, .gates, .events,
    .mailboxes, .counters, .crumbs, .out] s (execTableWrite a0 a1 a2 a3 a4 a5 s) := by
  unfold execTableWrite
  repeat' first
    | with_reducible exact OnlyChanges.refl _ _
    | assumption
    | with_reducible refine onUnit_frame _ ?_
    | with_reducible refine next_frame ?_
    | with_reducible exact fault_frame _ _ _
    | with_reducible refine runCommand_frame _ _ _ (fun _ => ?_)
    | with_reducible refine (modSlice_frame _ _ _).after (by decide) ?_
    | with_reducible refine (writeSlices_frame _ _ _ _ _ _ (by assumption)).after (by decide) ?_
    | with_reducible refine (startWork_frame _ _ _ _).after (by decide) ?_
    | with_reducible exact failWith_frame _ _ _
    | with_reducible refine okWith_frame ?_
    | with_reducible refine done_frame ?_
    | with_reducible refine fails_frame ?_
    | with_reducible refine later_frame ?_
    | with_reducible refine soon_frame ?_
    | with_reducible refine laterGrace_frame ?_
    | extract_lets
    | with_reducible refine OnlyChanges.getD (fun _ _ => ?_) ?_
    | with_reducible refine OnlyChanges.foldl (fun _ _ => ?_) ?_
    | split

theorem execTableRead_frame (a0 a1 a2 a3 a4 s) : NextChanges [.recoveryLog, .gates, .events, .mailboxes, .counters,
    .crumbs, .out] s (execTableRead a0 a1 a2 a3 a4 s) := by
  unfold execTableRead
  repeat' first
    | with_reducible exact OnlyChanges.refl _ _
    | assumption
    | with_reducible refine onUnit_frame _ ?_
    | with_reducible refine next_frame ?_
    | with_reducible exact fault_frame _ _ _
    | with_reducible refine runCommand_frame _ _ _ (fun _ => ?_)
    | with_reducible refine (startWork_frame _ _ _ _).after (by decide) ?_
    | with_reducible exact failWith_frame _ _ _
    | with_reducible refine okWith_frame ?_
    | with_reducible refine done_frame ?_
    | with_reducible refine fails_frame ?_
    | with_reducible refine later_frame ?_
    | with_reducible refine soon_frame ?_
    | with_reducible refine laterGrace_frame ?_
    | extract_lets
    | with_reducible refine OnlyChanges.getD (fun _ _ => ?_) ?_
    | with_reducible refine OnlyChanges.foldl (fun _ _ => ?_) ?_
    | split

theorem execTablePurge_frame (a0 a1 a2 a3 s) : NextChanges [.recoveryLog, .tables, .gates, .events, .mailboxes,
    .counters, .crumbs, .out] s (execTablePurge a0 a1 a2 a3 s) := by
  unfold execTablePurge
  repeat' first
    | with_reducible exact OnlyChanges.refl _ _
    | assumption
    | with_reducible refine onUnit_frame _ ?_
    | with_reducible refine next_frame ?_
    | with_reducible exact fault_frame _ _ _
    | with_reducible refine runCommand_frame _ _ _ (fun _ => ?_)
    | with_reducible refine (modSlice_frame _ _ _).after (by decide) ?_
    | with_reducible refine (startWork_frame _ _ _ _).after (by decide) ?_
    | with_reducible exact failWith_frame _ _ _
    | with_reducible refine okWith_frame ?_
    | with_reducible refine done_frame ?_
    | with_reducible refine fails_frame ?_
    | with_reducible refine later_frame ?_
    | with_reducible refine soon_frame ?_
    | with_reducible refine laterGrace_frame ?_
    | extract_lets
    | with_reducible refine OnlyChanges.getD (fun _ _ => ?_) ?_
    | with_reducible refine OnlyChanges.foldl (fun _ _ => ?_) ?_
    | split

theorem execTableParams_frame (a0 a1 a2 s) : NextChanges [.recoveryLog, .tables, .events, .mailboxes, .counters,
    .crumbs, .out] s (execTableParams a0 a1 a2 s) := by
  unfold execTableParams
  repeat' first
    | with_reducible exact OnlyChanges.refl _ _
    | assumption
    | with_reducible refine onUnit_frame _ ?_
    | with_reducible refine next_frame ?_
    | with_reducible exact fault_frame _ _ _
    | with_reducible refine runCommand_frame _ _ _ (fun _ => ?_)
    | with_reducible refine (modSlice_frame _ _ _).after (by decide) ?_
    | with_reducible exact failWith_frame _ _ _
    | with_reducible refine okWith_frame ?_
    | with_reducible refine done_frame ?_
    | with_reducible refine fails_frame ?_
    | with_reducible refine later_frame ?_
    | with_reducible refine soon_frame ?_
    | with_reducible refine laterGrace_frame ?_
    | extract_lets
    | with_reducible refine OnlyChanges.getD (fun _ _ => ?_) ?_
    | with_reducible refine OnlyChanges.foldl (fun _ _ => ?_) ?_
    | split

theorem execTableRootPriority_frame (a0 a1 s) : NextChanges [.recoveryLog, .rootPriority, .events, .mailboxes,
    .counters, .crumbs, .out] s (execTableRootPriority a0 a1 s) := by
  unfold execTableRootPriority
  repeat' first
    | with_reducible exact OnlyChanges.refl _ _
    | assumption
    | with_reducible refine onUnit_frame _ ?_
    | with_reducible refine next_frame ?_
    | with_reducible exact fault_frame _ _ _
    | with_reducible refine runCommand_frame _ _ _ (fun _ => ?_)
    | with_reducible exact failWith_frame _ _ _
    | with_reducible refine okWith_frame ?_
    | with_reducible refine done_frame ?_
    | with_reducible refine fails_frame ?_
    | with_reducible refine later_frame ?_
    | with_reducible refine soon_frame ?_
    | with_reducible refine laterGrace_frame ?_
    | extract_lets
    | with_reducible refine OnlyChanges.getD (fun _ _ => ?_) ?_
    | with_reducible refine OnlyChanges.foldl (fun _ _ => ?_) ?_
    | split
    | extract_lets +lift
    | with_reducible refine OnlyChanges.foldl_fst (fun _ _ => ?_) ?_
    | with_reducible refine OnlyChanges.foldl_snd (fun _ _ => ?_) ?_
    | with_reducible refine OnlyChanges.of_fst (by assumption) ?_
    | with_reducible refine OnlyChanges.of_snd (by assumption) ?_
    | with_reducible refine OnlyChanges.upd rfl ?_

theorem modPartition_frame (a0 a1 s) : OnlyChanges [.tables] s (modPartition a0 a1 s) := by
  unfold modPartition
  repeat' first
    | with_reducible exact OnlyChanges.refl _ _
    | assumption
    | with_reducible refine (modSlice_frame _ _ _).before ?_
    | extract_lets
    | with_reducible refine OnlyChanges.getD (fun _ _ => ?_) ?_
    | with_reducible refine OnlyChanges.foldl (fun _ _ => ?_) ?_

theorem endPartitionWork_frame (a0 s) : OnlyChanges [.recoveryLog, .ports, .packets, .queues, .room, .numbering,
    .firmware, .tables, .loafs, .events, .mailboxes, .mill, .regions, .memory, .channels, .grists, .accesses,
    .counters, .crumbs, .out] s (endPartitionWork a0 s) := by
  unfold endPartitionWork
  repeat' first
    | with_reducible exact OnlyChanges.refl _ _
    | assumption
    | with_reducible refine (fenceChannels_frame _ _).after (by decide) ?_
    | with_reducible refine (fenceGrists_frame _ _).after (by decide) ?_
    | with_reducible refine (fenceMill_frame _ _).after (by decide) ?_
    | with_reducible refine (fenceLoafs_frame _ _).after (by decide) ?_

theorem applyPartition_frame (a0 a1 a2 s) : OnlyChanges [.recoveryLog, .ports, .packets, .queues, .room,
    .numbering, .firmware, .tables, .gates, .loafs, .events, .mailboxes, .mill, .regions, .memory, .channels,
    .grists, .accesses, .counters, .crumbs, .out] s (applyPartition a0 a1 a2 s) := by
  unfold applyPartition
  repeat' first
    | with_reducible exact OnlyChanges.refl _ _
    | assumption
    | with_reducible refine (startWork_frame _ _ _ _).after (by decide) ?_
    | with_reducible refine (modPartition_frame _ _ _).after (by decide) ?_
    | with_reducible refine (endPartitionWork_frame _ _).after (by decide) ?_
    | extract_lets
    | with_reducible refine OnlyChanges.getD (fun _ _ => ?_) ?_
    | with_reducible refine OnlyChanges.foldl (fun _ _ => ?_) ?_
    | split

theorem execTablePartition_frame (a0 a1 a2 a3 s) : NextChanges [.recoveryLog, .events, .mailboxes, .counters,
    .crumbs, .free, .out, .proposals] s (execTablePartition a0 a1 a2 a3 s) := by
  unfold execTablePartition
  repeat' first
    | with_reducible exact OnlyChanges.refl _ _
    | assumption
    | with_reducible refine onUnit_frame _ ?_
    | with_reducible refine next_frame ?_
    | with_reducible exact fault_frame _ _ _
    | with_reducible refine runCommand_frame _ _ _ (fun _ => ?_)
    | with_reducible refine (propose_frame _ _ _).mono (by decide)
    | with_reducible exact failWith_frame _ _ _
    | with_reducible refine okWith_frame ?_
    | with_reducible refine done_frame ?_
    | with_reducible refine fails_frame ?_
    | with_reducible refine later_frame ?_
    | with_reducible refine soon_frame ?_
    | with_reducible refine laterGrace_frame ?_
    | extract_lets
    | with_reducible refine OnlyChanges.getD (fun _ _ => ?_) ?_
    | with_reducible refine OnlyChanges.foldl (fun _ _ => ?_) ?_
    | split

theorem onPartition_frame {ps : List Part} (p s) {f : State → CmdOutcome} (h : CmdChanges ps s (f s)) :
    CmdChanges ps s (onPartition p f s) := by
  unfold onPartition
  split
  · exact failWith_frame _ _ _
  · exact h

theorem execTableFence_frame (a0 a1 a2 s) : NextChanges [.recoveryLog, .ports, .packets, .queues, .room,
    .numbering, .firmware, .tables, .gates, .loafs, .events, .mailboxes, .mill, .regions, .memory, .channels,
    .grists, .accesses, .counters, .crumbs, .out] s (execTableFence a0 a1 a2 s) := by
  unfold execTableFence
  repeat' first
    | with_reducible exact OnlyChanges.refl _ _
    | assumption
    | with_reducible refine onUnit_frame _ ?_
    | with_reducible refine next_frame ?_
    | with_reducible exact fault_frame _ _ _
    | with_reducible refine runCommand_frame _ _ _ (fun _ => ?_)
    | with_reducible refine onPartition_frame _ _ ?_
    | with_reducible refine (startWork_frame _ _ _ _).after (by decide) ?_
    | with_reducible refine (modPartition_frame _ _ _).after (by decide) ?_
    | with_reducible refine (originate_frame _ _ _).after (by decide) ?_
    | with_reducible refine (endPartitionWork_frame _ _).after (by decide) ?_
    | with_reducible exact failWith_frame _ _ _
    | with_reducible refine okWith_frame ?_
    | with_reducible refine done_frame ?_
    | with_reducible refine fails_frame ?_
    | with_reducible refine later_frame ?_
    | with_reducible refine soon_frame ?_
    | with_reducible refine laterGrace_frame ?_
    | extract_lets
    | with_reducible refine OnlyChanges.getD (fun _ _ => ?_) ?_
    | with_reducible refine OnlyChanges.foldl (fun _ _ => ?_) ?_
    | split

theorem execTableAdvance_frame (a0 a1 a2 s) : NextChanges [.recoveryLog, .tables, .gates, .events, .mailboxes,
    .counters, .crumbs, .out] s (execTableAdvance a0 a1 a2 s) := by
  unfold execTableAdvance
  repeat' first
    | with_reducible exact OnlyChanges.refl _ _
    | assumption
    | with_reducible refine onUnit_frame _ ?_
    | with_reducible refine next_frame ?_
    | with_reducible exact fault_frame _ _ _
    | with_reducible refine runCommand_frame _ _ _ (fun _ => ?_)
    | with_reducible refine onPartition_frame _ _ ?_
    | with_reducible refine (startWork_frame _ _ _ _).after (by decide) ?_
    | with_reducible refine (modPartition_frame _ _ _).after (by decide) ?_
    | with_reducible exact failWith_frame _ _ _
    | with_reducible refine okWith_frame ?_
    | with_reducible refine done_frame ?_
    | with_reducible refine fails_frame ?_
    | with_reducible refine later_frame ?_
    | with_reducible refine soon_frame ?_
    | with_reducible refine laterGrace_frame ?_
    | extract_lets
    | with_reducible refine OnlyChanges.getD (fun _ _ => ?_) ?_
    | with_reducible refine OnlyChanges.foldl (fun _ _ => ?_) ?_
    | split

theorem execTableOpen_frame (a0 a1 s) : NextChanges [.recoveryLog, .tables, .gates, .events, .mailboxes, .counters,
    .crumbs, .out] s (execTableOpen a0 a1 s) := by
  unfold execTableOpen
  repeat' first
    | with_reducible exact OnlyChanges.refl _ _
    | assumption
    | with_reducible refine onUnit_frame _ ?_
    | with_reducible refine next_frame ?_
    | with_reducible exact fault_frame _ _ _
    | with_reducible refine runCommand_frame _ _ _ (fun _ => ?_)
    | with_reducible refine onPartition_frame _ _ ?_
    | with_reducible refine (startWork_frame _ _ _ _).after (by decide) ?_
    | with_reducible refine (modPartition_frame _ _ _).after (by decide) ?_
    | with_reducible exact failWith_frame _ _ _
    | with_reducible refine okWith_frame ?_
    | with_reducible refine done_frame ?_
    | with_reducible refine fails_frame ?_
    | with_reducible refine later_frame ?_
    | with_reducible refine soon_frame ?_
    | with_reducible refine laterGrace_frame ?_
    | extract_lets
    | with_reducible refine OnlyChanges.getD (fun _ _ => ?_) ?_
    | with_reducible refine OnlyChanges.foldl (fun _ _ => ?_) ?_
    | split

end Sys2Proof.Machine
end

