-- ==== Sys2Proof/Laws/FrameSec.lean ====
section
/-! SUPPORT. What the operations of Machine/Sec.lean leave unchanged. -/

set_option Elab.async false

namespace Sys2Proof.Machine

theorem nameSlot_frame (a0 a1 a2 s) : OnlyChanges [.regions] s (nameSlot a0 a1 a2 s) := by
  unfold nameSlot
  repeat' first
    | with_reducible exact OnlyChanges.refl _ _
    | assumption
    | with_reducible refine (modRegion_frame _ _ _).before ?_

theorem applyBind_frame (a0 a1 a2 a3 a4 s) : OnlyChanges [.regions, .linkKeys, .regionKeys] s (applyBind a0 a1 a2
    a3 a4 s) := by
  unfold applyBind
  repeat' first
    | with_reducible exact OnlyChanges.refl _ _
    | assumption
    | with_reducible refine modSec_frame _ ?_
    | with_reducible refine (nameSlot_frame _ _ _ _).after (by decide) ?_
    | extract_lets
    | with_reducible refine OnlyChanges.getD (fun _ _ => ?_) ?_
    | with_reducible refine OnlyChanges.foldl (fun _ _ => ?_) ?_
    | split

theorem execKeyBind_frame (a0 a1 a2 a3 a4 a5 s) : NextChanges [.recoveryLog, .events, .mailboxes, .counters,
    .crumbs, .free, .out, .proposals] s (execKeyBind a0 a1 a2 a3 a4 a5 s) := by
  unfold execKeyBind
  repeat' first
    | with_reducible exact OnlyChanges.refl _ _
    | assumption
    | with_reducible refine onUnit_frame _ ?_
    | with_reducible refine next_frame ?_
    | with_reducible exact fault_frame _ _ _
    | with_reducible refine runCommand_frame _ _ _ (fun _ => ?_)
    | with_reducible refine (propose_frame _ _ _).mono (by decide)
    | with_reducible exact failWith_frame _ _ _
    | with_reducible refine okWith_frame ?_
    | with_reducible refine done_frame ?_
    | with_reducible refine fails_frame ?_
    | with_reducible refine later_frame ?_
    | with_reducible refine soon_frame ?_
    | with_reducible refine laterGrace_frame ?_
    | extract_lets
    | with_reducible refine OnlyChanges.getD (fun _ _ => ?_) ?_
    | with_reducible refine OnlyChanges.foldl (fun _ _ => ?_) ?_
    | split

theorem zeroizeSlot_frame (a0 a1 s) : OnlyChanges [.linkKeys, .regionKeys] s (zeroizeSlot a0 a1 s) := by
  unfold zeroizeSlot
  repeat' first
    | with_reducible exact OnlyChanges.refl _ _
    | assumption
    | with_reducible refine modSec_frame _ ?_
    | extract_lets
    | with_reducible refine OnlyChanges.getD (fun _ _ => ?_) ?_
    | with_reducible refine OnlyChanges.foldl (fun _ _ => ?_) ?_
    | split

theorem execKeyZeroize_frame (a0 a1 a2 s) : NextChanges [.recoveryLog, .events, .mailboxes, .counters, .crumbs,
    .out, .linkKeys, .regionKeys] s (execKeyZeroize a0 a1 a2 s) := by
  unfold execKeyZeroize
  repeat' first
    | with_reducible exact OnlyChanges.refl _ _
    | assumption
    | with_reducible refine onUnit_frame _ ?_
    | with_reducible refine next_frame ?_
    | with_reducible exact fault_frame _ _ _
    | with_reducible refine runCommand_frame _ _ _ (fun _ => ?_)
    | with_reducible refine (zeroizeSlot_frame _ _ _).after (by decide) ?_
    | with_reducible exact failWith_frame _ _ _
    | with_reducible refine okWith_frame ?_
    | with_reducible refine done_frame ?_
    | with_reducible refine fails_frame ?_
    | with_reducible refine later_frame ?_
    | with_reducible refine soon_frame ?_
    | with_reducible refine laterGrace_frame ?_
    | extract_lets
    | with_reducible refine OnlyChanges.getD (fun _ _ => ?_) ?_
    | with_reducible refine OnlyChanges.foldl (fun _ _ => ?_) ?_
    | split

theorem sessionDraws_frame (s) : OnlyChanges [.free] s (sessionDraws s).2.2 := by
  unfold sessionDraws
  repeat' first
    | with_reducible exact OnlyChanges.refl _ _
    | assumption
    | with_reducible refine (drawWide_frame _ _).before ?_
    | with_reducible refine (drawNonce_frame _).before ?_

theorem addSession_frame (a0 a1 a2 s) : OnlyChanges [.free, .keySessions] s (addSession a0 a1 a2 s) := by
  unfold addSession
  repeat' first
    | with_reducible exact OnlyChanges.refl _ _
    | assumption
    | with_reducible refine (sessionDraws_frame _).after (by decide) ?_
    | with_reducible refine modSec_frame _ ?_

theorem execKeySession_frame (a0 a1 a2 s) : NextChanges [.recoveryLog, .events, .mailboxes, .counters, .crumbs,
    .free, .out, .keySessions] s (execKeySession a0 a1 a2 s) := by
  unfold execKeySession
  repeat' first
    | with_reducible exact OnlyChanges.refl _ _
    | assumption
    | with_reducible refine onUnit_frame _ ?_
    | with_reducible refine next_frame ?_
    | with_reducible exact fault_frame _ _ _
    | with_reducible refine runCommand_frame _ _ _ (fun _ => ?_)
    | with_reducible refine (addSession_frame _ _ _ _).after (by decide) ?_
    | with_reducible exact failWith_frame _ _ _
    | with_reducible refine okWith_frame ?_
    | with_reducible refine done_frame ?_
    | with_reducible refine fails_frame ?_
    | with_reducible refine later_frame ?_
    | with_reducible refine soon_frame ?_
    | with_reducible refine laterGrace_frame ?_
    | extract_lets
    | with_reducible refine OnlyChanges.getD (fun _ _ => ?_) ?_
    | with_reducible refine OnlyChanges.foldl (fun _ _ => ?_) ?_
    | split

theorem execSessionKeyExpiry_frame (a0 s) : NextChanges [.keySessions] s (execSessionKeyExpiry a0 s) := by
  unfold execSessionKeyExpiry
  repeat' first
    | with_reducible exact OnlyChanges.refl _ _
    | assumption
    | with_reducible refine onUnit_frame _ ?_
    | with_reducible refine next_frame ?_
    | with_reducible exact fault_frame _ _ _
    | with_reducible refine modSec_frame _ ?_

theorem loadKey_frame (a0 a1 a2 s) : OnlyChanges [.linkKeys, .regionKeys] s (loadKey a0 a1 a2 s) := by
  unfold loadKey
  repeat' first
    | with_reducible exact OnlyChanges.refl _ _
    | assumption
    | with_reducible refine modSec_frame _ ?_
    | extract_lets
    | with_reducible refine OnlyChanges.getD (fun _ _ => ?_) ?_
    | with_reducible refine OnlyChanges.foldl (fun _ _ => ?_) ?_
    | split

theorem execKeyLoad_frame (a0 a1 a2 a3 a4 a5 s) : NextChanges [.recoveryLog, .events, .mailboxes, .counters,
    .crumbs, .out, .linkKeys, .regionKeys, .keySessions] s (execKeyLoad a0 a1 a2 a3 a4 a5 s) := by
  unfold execKeyLoad
  repeat' first
    | with_reducible exact OnlyChanges.refl _ _
    | assumption
    | with_reducible refine onUnit_frame _ ?_
    | with_reducible refine next_frame ?_
    | with_reducible exact fault_frame _ _ _
    | with_reducible refine runCommand_frame _ _ _ (fun _ => ?_)
    | with_reducible refine (loadKey_frame _ _ _ _).after (by decide) ?_
    | with_reducible refine modSec_frame _ ?_
    | with_reducible exact failWith_frame _ _ _
    | with_reducible refine okWith_frame ?_
    | with_reducible refine done_frame ?_
    | with_reducible refine fails_frame ?_
    | with_reducible refine later_frame ?_
    | with_reducible refine soon_frame ?_
    | with_reducible refine laterGrace_frame ?_
    | extract_lets
    | with_reducible refine OnlyChanges.getD (fun _ _ => ?_) ?_
    | with_reducible refine OnlyChanges.foldl (fun _ _ => ?_) ?_
    | split

theorem applyUnlock_frame (a0 a1 s) : OnlyChanges [.recoveryLog, .events, .counters, .crumbs, .linkKeys,
    .regionKeys, .keySessions] s (applyUnlock a0 a1 s) := by
  unfold applyUnlock
  repeat' first
    | with_reducible exact OnlyChanges.refl _ _
    | assumption
    | with_reducible refine modSec_frame _ ?_
    | with_reducible refine (raiseAt_frame _ _ _ _ _).after (by decide) ?_

theorem execDebugLockReturn_frame (s) : NextChanges [.keySessions] s (execDebugLockReturn s) := by
  unfold execDebugLockReturn
  repeat' first
    | with_reducible exact OnlyChanges.refl _ _
    | assumption
    | with_reducible refine onUnit_frame _ ?_
    | with_reducible refine next_frame ?_
    | with_reducible exact fault_frame _ _ _
    | with_reducible refine modSec_frame _ ?_

theorem applyStaged_frame (a0 a1 s) : OnlyChanges wideParts1 s (applyStaged a0 a1 s).2 := by
  unfold applyStaged
  repeat' first
    | with_reducible exact OnlyChanges.refl _ _
    | assumption
    | with_reducible refine (applyPartition_frame _ _ _ _).after (by decide) ?_
    | with_reducible refine (applyBind_frame _ _ _ _ _ _).after (by decide) ?_
    | with_reducible refine (applyUnlock_frame _ _ _).after (by decide) ?_
    | with_reducible refine (writeImage_frame _ _ _).after (by decide) ?_
    | with_reducible refine (setRights_frame _ _ _).after (by decide) ?_
    | with_reducible refine (setPolicy_frame _ _ _).after (by decide) ?_
    | extract_lets
    | with_reducible refine OnlyChanges.getD (fun _ _ => ?_) ?_
    | with_reducible refine OnlyChanges.foldl (fun _ _ => ?_) ?_
    | split

theorem recordSide_frame (a0 a1 s) : OnlyChanges [.proposals] s (recordSide a0 a1 s) := by
  unfold recordSide
  repeat' first
    | with_reducible exact OnlyChanges.refl _ _
    | assumption
    | with_reducible refine modSec_frame _ ?_

theorem completeProposal_frame (a0 a1 s) : OnlyChanges wideParts2 s (completeProposal a0 a1 s) := by
  unfold completeProposal
  repeat' first
    | with_reducible exact OnlyChanges.refl _ _
    | assumption
    | with_reducible refine (applyStaged_frame _ _ _).after (by decide) ?_
    | with_reducible refine (endProposal_frame _ _ _ _).after (by decide) ?_
    | extract_lets
    | with_reducible refine OnlyChanges.getD (fun _ _ => ?_) ?_
    | with_reducible refine OnlyChanges.foldl (fun _ _ => ?_) ?_
    | split

theorem execQuorumApprove_frame (a0 a1 a2 a3 s) : NextChanges wideParts2 s (execQuorumApprove a0 a1 a2 a3 s) := by
  unfold execQuorumApprove
  repeat' first
    | with_reducible exact OnlyChanges.refl _ _
    | assumption
    | with_reducible refine onUnit_frame _ ?_
    | with_reducible refine next_frame ?_
    | with_reducible exact fault_frame _ _ _
    | with_reducible refine runCommand_frame _ _ _ (fun _ => ?_)
    | with_reducible refine (endProposal_frame _ _ _ _).after (by decide) ?_
    | with_reducible refine (recordSide_frame _ _ _).after (by decide) ?_
    | with_reducible refine (completeProposal_frame _ _ _).before ?_
    | with_reducible exact failWith_frame _ _ _
    | with_reducible refine okWith_frame ?_
    | with_reducible refine done_frame ?_
    | with_reducible refine fails_frame ?_
    | with_reducible refine later_frame ?_
    | with_reducible refine soon_frame ?_
    | with_reducible refine laterGrace_frame ?_
    | extract_lets
    | with_reducible refine OnlyChanges.getD (fun _ _ => ?_) ?_
    | with_reducible refine OnlyChanges.foldl (fun _ _ => ?_) ?_
    | split

theorem execProposalExpiry_frame (a0 s) : NextChanges [.recoveryLog, .events, .counters, .crumbs, .proposals] s
    (execProposalExpiry a0 s) := by
  unfold execProposalExpiry
  repeat' first
    | with_reducible exact OnlyChanges.refl _ _
    | assumption
    | with_reducible refine onUnit_frame _ ?_
    | with_reducible refine next_frame ?_
    | with_reducible exact fault_frame _ _ _
    | with_reducible refine (endProposal_frame _ _ _ _).before ?_
    | extract_lets
    | with_reducible refine OnlyChanges.getD (fun _ _ => ?_) ?_
    | with_reducible refine OnlyChanges.foldl (fun _ _ => ?_) ?_
    | split

theorem execQuorumWithdraw_frame (a0 a1 s) : NextChanges [.recoveryLog, .events, .mailboxes, .counters, .crumbs,
    .out, .proposals] s (execQuorumWithdraw a0 a1 s) := by
  unfold execQuorumWithdraw
  repeat' first
    | with_reducible exact OnlyChanges.refl _ _
    | assumption
    | with_reducible refine onUnit_frame _ ?_
    | with_reducible refine next_frame ?_
    | with_reducible exact fault_frame _ _ _
    | with_reducible refine runCommand_frame _ _ _ (fun _ => ?_)
    | with_reducible refine (endProposal_frame _ _ _ _).after (by decide) ?_
    | with_reducible exact failWith_frame _ _ _
    | with_reducible refine okWith_frame ?_
    | with_reducible refine done_frame ?_
    | with_reducible refine fails_frame ?_
    | with_reducible refine later_frame ?_
    | with_reducible refine soon_frame ?_
    | with_reducible refine laterGrace_frame ?_
    | extract_lets
    | with_reducible refine OnlyChanges.getD (fun _ _ => ?_) ?_
    | with_reducible refine OnlyChanges.foldl (fun _ _ => ?_) ?_
    | split

theorem execQuorumList_frame (a0 s) : NextChanges [.recoveryLog, .events, .mailboxes, .counters, .crumbs, .out] s
    (execQuorumList a0 s) := by
  unfold execQuorumList
  repeat' first
    | with_reducible exact OnlyChanges.refl _ _
    | assumption
    | with_reducible refine onUnit_frame _ ?_
    | with_reducible refine next_frame ?_
    | with_reducible exact fault_frame _ _ _
    | with_reducible refine runCommand_frame _ _ _ (fun _ => ?_)
    | with_reducible exact failWith_frame _ _ _
    | with_reducible refine okWith_frame ?_
    | with_reducible refine done_frame ?_

theorem execAttestReport_frame (a0 a1 s) : NextChanges [.recoveryLog, .events, .mailboxes, .counters, .crumbs,
    .out] s (execAttestReport a0 a1 s) := by
  unfold execAttestReport
  repeat' first
    | with_reducible exact OnlyChanges.refl _ _
    | assumption
    | with_reducible refine onUnit_frame _ ?_
    | with_reducible refine next_frame ?_
    | with_reducible exact fault_frame _ _ _
    | with_reducible refine runCommand_frame _ _ _ (fun _ => ?_)
    | with_reducible exact failWith_frame _ _ _
    | with_reducible refine okWith_frame ?_
    | with_reducible refine done_frame ?_

theorem execAttestChain_frame (a0 s) : NextChanges [.recoveryLog, .events, .mailboxes, .counters, .crumbs, .out] s
    (execAttestChain a0 s) := by
  unfold execAttestChain
  repeat' first
    | with_reducible exact OnlyChanges.refl _ _
    | assumption
    | with_reducible refine onUnit_frame _ ?_
    | with_reducible refine next_frame ?_
    | with_reducible exact fault_frame _ _ _
    | with_reducible refine runCommand_frame _ _ _ (fun _ => ?_)
    | with_reducible exact failWith_frame _ _ _
    | with_reducible refine okWith_frame ?_
    | with_reducible refine done_frame ?_

end Sys2Proof.Machine
end

