-- ==== Sys2Proof/Laws/FrameTime.lean ====
section
/-! SUPPORT. What the operations of Machine/Time.lean leave unchanged. -/

set_option Elab.async false

namespace Sys2Proof.Machine

theorem sendTime_frame (s a0) : OnlyChanges [.time, .ports] s (sendTime s a0) := by
  unfold sendTime
  repeat' first
    | with_reducible exact OnlyChanges.refl _ _
    | assumption
    | with_reducible refine (queueLocal_frame _ _ _ _).after (by decide) ?_
    | with_reducible refine modTime_frame _ ?_
    | with_reducible refine (modPort_frame _ _ _).after (by decide) ?_
    | extract_lets
    | with_reducible refine OnlyChanges.getD (fun _ _ => ?_) ?_
    | with_reducible refine OnlyChanges.foldl (fun _ _ => ?_) ?_
    | split

theorem execTimeMsgTick_frame (s) : NextChanges [.time, .ports] s (execTimeMsgTick s) := by
  unfold execTimeMsgTick
  repeat' first
    | with_reducible exact OnlyChanges.refl _ _
    | assumption
    | with_reducible refine onUnit_frame _ ?_
    | with_reducible refine next_frame ?_
    | with_reducible exact fault_frame _ _ _
    | with_reducible refine (sendTime_frame _ _).before ?_
    | with_reducible refine modTime_frame _ ?_
    | extract_lets
    | with_reducible refine OnlyChanges.getD (fun _ _ => ?_) ?_
    | with_reducible refine OnlyChanges.foldl (fun _ _ => ?_) ?_
    | split

theorem slew_frame (a0 a1 s) : OnlyChanges [.time, .devTime] s (slew a0 a1 s) := by
  unfold slew
  repeat' first
    | with_reducible exact OnlyChanges.refl _ _
    | assumption
    | extract_lets
    | with_reducible refine OnlyChanges.getD (fun _ _ => ?_) ?_
    | with_reducible refine OnlyChanges.foldl (fun _ _ => ?_) ?_
    | split
    | extract_lets +lift
    | with_reducible refine OnlyChanges.foldl_fst (fun _ _ => ?_) ?_
    | with_reducible refine OnlyChanges.foldl_snd (fun _ _ => ?_) ?_
    | with_reducible refine OnlyChanges.of_fst (by assumption) ?_
    | with_reducible refine OnlyChanges.of_snd (by assumption) ?_
    | with_reducible refine OnlyChanges.upd rfl ?_

theorem setDevice_frame (a0 s) : OnlyChanges [.time, .devTime] s (setDevice a0 s) := by
  unfold setDevice
  repeat' first
    | with_reducible exact OnlyChanges.refl _ _
    | assumption
    | extract_lets
    | with_reducible refine OnlyChanges.getD (fun _ _ => ?_) ?_
    | with_reducible refine OnlyChanges.foldl (fun _ _ => ?_) ?_
    | split
    | extract_lets +lift
    | with_reducible refine OnlyChanges.foldl_fst (fun _ _ => ?_) ?_
    | with_reducible refine OnlyChanges.foldl_snd (fun _ _ => ?_) ?_
    | with_reducible refine OnlyChanges.of_fst (by assumption) ?_
    | with_reducible refine OnlyChanges.of_snd (by assumption) ?_
    | with_reducible refine OnlyChanges.upd rfl ?_

theorem jumpTo_frame (a0 s) : OnlyChanges [.recoveryLog, .time, .ports, .packets, .queues, .room, .numbering,
    .firmware, .tables, .budgets, .gates, .events, .grists, .counters, .crumbs, .devTime] s (jumpTo a0 s) := by
  unfold jumpTo
  repeat' first
    | with_reducible exact OnlyChanges.refl _ _
    | assumption
    | with_reducible refine (releaseHeld_frame _).after (by decide) ?_
    | with_reducible refine (setDevice_frame _ _).after (by decide) ?_
    | with_reducible refine (closePeriod_frame _).after (by decide) ?_

theorem stepTime_frame (a0 s) : OnlyChanges [.recoveryLog, .time, .ports, .packets, .queues, .room, .numbering,
    .firmware, .tables, .budgets, .gates, .events, .grists, .counters, .crumbs, .devTime] s (stepTime a0 s) := by
  unfold stepTime
  repeat' first
    | with_reducible exact OnlyChanges.refl _ _
    | assumption
    | with_reducible refine (jumpTo_frame _ _).before ?_

theorem refuseJump_frame (a0 s) : OnlyChanges [.recoveryLog, .time, .events, .counters, .crumbs, .devTime] s
    (refuseJump a0 s) := by
  unfold refuseJump
  repeat' first
    | with_reducible exact OnlyChanges.refl _ _
    | assumption
    | with_reducible refine modTime_frame _ ?_
    | with_reducible refine (enterHoldover_frame _).after (by decide) ?_
    | with_reducible refine (raiseBoth_frame _ _ _).after (by decide) ?_
    | extract_lets
    | with_reducible refine OnlyChanges.getD (fun _ _ => ?_) ?_
    | with_reducible refine OnlyChanges.foldl (fun _ _ => ?_) ?_
    | split

theorem copyGm_frame (s) : OnlyChanges [.time] s (copyGm s) := by
  unfold copyGm
  repeat' first
    | with_reducible exact OnlyChanges.refl _ _
    | assumption
    | with_reducible refine modTime_frame _ ?_
    | extract_lets
    | with_reducible refine OnlyChanges.getD (fun _ _ => ?_) ?_
    | with_reducible refine OnlyChanges.foldl (fun _ _ => ?_) ?_
    | split

theorem enterLocked_frame (s) : OnlyChanges [.recoveryLog, .time, .events, .mailboxes, .counters, .crumbs, .out] s
    (enterLocked s) := by
  unfold enterLocked
  repeat' first
    | with_reducible exact OnlyChanges.refl _ _
    | assumption
    | with_reducible refine (copyGm_frame _).after (by decide) ?_
    | with_reducible refine (setTimePhase_frame _ _).after (by decide) ?_
    | with_reducible refine modTime_frame _ ?_
    | with_reducible refine (finish_frame _ _ _ _).after (by decide) ?_
    | extract_lets
    | with_reducible refine OnlyChanges.getD (fun _ _ => ?_) ?_
    | with_reducible refine OnlyChanges.foldl (fun _ _ => ?_) ?_
    | split

theorem acceptSample_frame (a0 a1 s) : OnlyChanges [.recoveryLog, .time, .ports, .packets, .queues, .room,
    .numbering, .firmware, .tables, .budgets, .gates, .events, .mailboxes, .grists, .counters, .crumbs, .devTime,
    .out] s (acceptSample a0 a1 s) := by
  unfold acceptSample
  repeat' first
    | with_reducible exact OnlyChanges.refl _ _
    | assumption
    | with_reducible refine modTime_frame _ ?_
    | with_reducible refine (finish_frame _ _ _ _).after (by decide) ?_
    | with_reducible refine (enterLocked_frame _).after (by decide) ?_
    | with_reducible refine (stepTime_frame _ _).after (by decide) ?_
    | extract_lets
    | with_reducible refine OnlyChanges.getD (fun _ _ => ?_) ?_
    | with_reducible refine OnlyChanges.foldl (fun _ _ => ?_) ?_
    | split

theorem takeSample_frame (a0 s) : OnlyChanges [.recoveryLog, .time, .ports, .packets, .queues, .room, .numbering,
    .firmware, .tables, .budgets, .gates, .events, .mailboxes, .grists, .counters, .crumbs, .devTime, .out] s
    (takeSample a0 s) := by
  unfold takeSample
  repeat' first
    | with_reducible exact OnlyChanges.refl _ _
    | assumption
    | with_reducible refine modTime_frame _ ?_
    | with_reducible refine (enterLocked_frame _).after (by decide) ?_
    | with_reducible refine (stepTime_frame _ _).after (by decide) ?_
    | with_reducible refine (refuseJump_frame _ _).after (by decide) ?_
    | with_reducible refine (copyGm_frame _).after (by decide) ?_
    | with_reducible refine (slew_frame _ _ _).after (by decide) ?_
    | with_reducible refine (acceptSample_frame _ _ _).before ?_
    | extract_lets
    | with_reducible refine OnlyChanges.getD (fun _ _ => ?_) ?_
    | with_reducible refine OnlyChanges.foldl (fun _ _ => ?_) ?_
    | split

theorem heardTime_frame (a0 a1 a2 s) : OnlyChanges [.recoveryLog, .time, .ports, .counters, .crumbs, .devTime] s
    (heardTime a0 a1 a2 s) := by
  unfold heardTime
  repeat' first
    | with_reducible exact OnlyChanges.refl _ _
    | assumption
    | with_reducible refine (modPort_frame _ _ _).after (by decide) ?_
    | with_reducible refine (electParent_frame _).after (by decide) ?_
    | with_reducible refine modTime_frame _ ?_

theorem execTimeMsgRx_frame (a0 a1 a2 s) : NextChanges [.recoveryLog, .time, .ports, .packets, .queues, .room,
    .numbering, .firmware, .tables, .budgets, .gates, .events, .mailboxes, .grists, .counters, .crumbs, .devTime,
    .out] s (execTimeMsgRx a0 a1 a2 s) := by
  unfold execTimeMsgRx
  repeat' first
    | with_reducible exact OnlyChanges.refl _ _
    | assumption
    | with_reducible refine onUnit_frame _ ?_
    | with_reducible refine next_frame ?_
    | with_reducible exact fault_frame _ _ _
    | with_reducible refine (heardTime_frame _ _ _ _).after (by decide) ?_
    | with_reducible refine (takeSample_frame _ _).before ?_
    | with_reducible refine (copyGm_frame _).after (by decide) ?_
    | with_reducible refine (countPort_frame _ _ _ _).after (by decide) ?_
    | extract_lets
    | with_reducible refine OnlyChanges.getD (fun _ _ => ?_) ?_
    | with_reducible refine OnlyChanges.foldl (fun _ _ => ?_) ?_
    | split

theorem modPeer_frame (a0 a1 s) : OnlyChanges [.recoveryLog, .time, .counters, .crumbs, .devTime] s (modPeer a0 a1
    s) := by
  unfold modPeer
  repeat' first
    | with_reducible exact OnlyChanges.refl _ _
    | assumption
    | with_reducible refine (electParent_frame _).before ?_
    | with_reducible refine modTime_frame _ ?_
    | extract_lets
    | with_reducible refine OnlyChanges.getD (fun _ _ => ?_) ?_
    | with_reducible refine OnlyChanges.foldl (fun _ _ => ?_) ?_
    | split

theorem execParentLostTimeout_frame (s) : NextChanges [.recoveryLog, .time, .counters, .crumbs, .devTime] s
    (execParentLostTimeout s) := by
  unfold execParentLostTimeout
  repeat' first
    | with_reducible exact OnlyChanges.refl _ _
    | assumption
    | with_reducible refine onUnit_frame _ ?_
    | with_reducible refine next_frame ?_
    | with_reducible exact fault_frame _ _ _
    | with_reducible refine (modPeer_frame _ _ _).before ?_
    | extract_lets
    | with_reducible refine OnlyChanges.getD (fun _ _ => ?_) ?_
    | with_reducible refine OnlyChanges.foldl (fun _ _ => ?_) ?_
    | split

theorem execGmSeqStall_frame (a0 s) : NextChanges [.recoveryLog, .time, .counters, .crumbs, .devTime] s
    (execGmSeqStall a0 s) := by
  unfold execGmSeqStall
  repeat' first
    | with_reducible exact OnlyChanges.refl _ _
    | assumption
    | with_reducible refine onUnit_frame _ ?_
    | with_reducible refine next_frame ?_
    | with_reducible exact fault_frame _ _ _
    | with_reducible refine (modPeer_frame _ _ _).before ?_

theorem execAcquiringTimeout_frame (s) : NextChanges [.recoveryLog, .time, .counters, .crumbs] s
    (execAcquiringTimeout s) := by
  unfold execAcquiringTimeout
  repeat' first
    | with_reducible exact OnlyChanges.refl _ _
    | assumption
    | with_reducible refine onUnit_frame _ ?_
    | with_reducible refine next_frame ?_
    | with_reducible exact fault_frame _ _ _
    | with_reducible refine (setTimePhase_frame _ _).before ?_
    | with_reducible refine modTime_frame _ ?_
    | extract_lets
    | with_reducible refine OnlyChanges.getD (fun _ _ => ?_) ?_
    | with_reducible refine OnlyChanges.foldl (fun _ _ => ?_) ?_
    | split

theorem execAcceptStepSampleTimeout_frame (s) : NextChanges [.recoveryLog, .time, .events, .mailboxes, .counters,
    .crumbs, .out] s (execAcceptStepSampleTimeout s) := by
  unfold execAcceptStepSampleTimeout
  repeat' first
    | with_reducible exact OnlyChanges.refl _ _
    | assumption
    | with_reducible refine onUnit_frame _ ?_
    | with_reducible refine next_frame ?_
    | with_reducible exact fault_frame _ _ _
    | with_reducible refine (finish_frame _ _ _ _).after (by decide) ?_
    | with_reducible refine modTime_frame _ ?_
    | extract_lets
    | with_reducible refine OnlyChanges.getD (fun _ _ => ?_) ?_
    | with_reducible refine OnlyChanges.foldl (fun _ _ => ?_) ?_
    | split

theorem tieTo_frame (a0 s) : OnlyChanges [.recoveryLog, .time, .ports, .packets, .queues, .room, .numbering,
    .firmware, .tables, .budgets, .gates, .events, .grists, .counters, .crumbs, .devTime] s (tieTo a0 s) := by
  unfold tieTo
  repeat' first
    | with_reducible exact OnlyChanges.refl _ _
    | assumption
    | with_reducible refine (becomeMaster_frame _).after (by decide) ?_
    | with_reducible refine modTime_frame _ ?_
    | with_reducible refine (jumpTo_frame _ _).before ?_

theorem landTie_frame (a0 a1 s) : OnlyChanges [.recoveryLog, .time, .ports, .packets, .queues, .room, .numbering,
    .firmware, .tables, .budgets, .gates, .events, .mailboxes, .grists, .counters, .crumbs, .devTime, .out] s
    (landTie a0 a1 s) := by
  unfold landTie
  repeat' first
    | with_reducible exact OnlyChanges.refl _ _
    | assumption
    | with_reducible refine (finish_frame _ _ _ _).after (by decide) ?_
    | with_reducible refine (tieTo_frame _ _).after (by decide) ?_
    | with_reducible refine modTime_frame _ ?_
    | extract_lets
    | with_reducible refine OnlyChanges.getD (fun _ _ => ?_) ?_
    | with_reducible refine OnlyChanges.foldl (fun _ _ => ?_) ?_
    | split

theorem execPpsInEdge_frame (s) : NextChanges [.recoveryLog, .time, .ports, .packets, .queues, .room, .numbering,
    .firmware, .tables, .budgets, .gates, .events, .mailboxes, .grists, .counters, .crumbs, .devTime, .out] s
    (execPpsInEdge s) := by
  unfold execPpsInEdge
  repeat' first
    | with_reducible exact OnlyChanges.refl _ _
    | assumption
    | with_reducible refine onUnit_frame _ ?_
    | with_reducible refine next_frame ?_
    | with_reducible exact fault_frame _ _ _
    | with_reducible refine (landTie_frame _ _ _).before ?_
    | with_reducible refine modTime_frame _ ?_
    | with_reducible refine (refuseJump_frame _ _).after (by decide) ?_
    | with_reducible refine (slew_frame _ _ _).after (by decide) ?_
    | extract_lets
    | with_reducible refine OnlyChanges.getD (fun _ _ => ?_) ?_
    | with_reducible refine OnlyChanges.foldl (fun _ _ => ?_) ?_
    | split

theorem execPpsOutSecond_frame (a0 s) : NextChanges [.time, .out] s (execPpsOutSecond a0 s) := by
  unfold execPpsOutSecond
  repeat' first
    | with_reducible exact OnlyChanges.refl _ _
    | assumption
    | with_reducible refine onUnit_frame _ ?_
    | with_reducible refine next_frame ?_
    | with_reducible exact fault_frame _ _ _
    | with_reducible refine (emit_frame _ _).after (by decide) ?_
    | with_reducible refine modTime_frame _ ?_
    | extract_lets
    | with_reducible refine OnlyChanges.getD (fun _ _ => ?_) ?_
    | with_reducible refine OnlyChanges.foldl (fun _ _ => ?_) ?_
    | split

theorem execPtpMessageRx_frame (a0 a1 a2 s) : NextChanges [.recoveryLog, .time, .ports, .packets, .queues, .room,
    .numbering, .firmware, .tables, .budgets, .gates, .events, .mailboxes, .grists, .counters, .crumbs, .devTime,
    .out] s (execPtpMessageRx a0 a1 a2 s) := by
  unfold execPtpMessageRx
  repeat' first
    | with_reducible exact OnlyChanges.refl _ _
    | assumption
    | with_reducible refine onUnit_frame _ ?_
    | with_reducible refine next_frame ?_
    | with_reducible exact fault_frame _ _ _
    | with_reducible refine (countMgmt_frame _ _ _).after (by decide) ?_
    | with_reducible refine modTime_frame _ ?_
    | with_reducible refine (landTie_frame _ _ _).before ?_
    | extract_lets
    | with_reducible refine OnlyChanges.getD (fun _ _ => ?_) ?_
    | with_reducible refine OnlyChanges.foldl (fun _ _ => ?_) ?_
    | split

theorem execTieSourceTimeout_frame (s) : NextChanges [.recoveryLog, .time, .events, .mailboxes, .counters, .crumbs,
    .out] s (execTieSourceTimeout s) := by
  unfold execTieSourceTimeout
  repeat' first
    | with_reducible exact OnlyChanges.refl _ _
    | assumption
    | with_reducible refine onUnit_frame _ ?_
    | with_reducible refine next_frame ?_
    | with_reducible exact fault_frame _ _ _
    | with_reducible refine (finish_frame _ _ _ _).after (by decide) ?_
    | with_reducible refine modTime_frame _ ?_
    | extract_lets
    | with_reducible refine OnlyChanges.getD (fun _ _ => ?_) ?_
    | with_reducible refine OnlyChanges.foldl (fun _ _ => ?_) ?_
    | split

theorem execTimeTie_frame (a0 a1 a2 a3 s) : NextChanges [.recoveryLog, .time, .ports, .packets, .queues, .room,
    .numbering, .firmware, .tables, .budgets, .gates, .events, .mailboxes, .grists, .counters, .crumbs, .devTime,
    .out] s (execTimeTie a0 a1 a2 a3 s) := by
  unfold execTimeTie
  repeat' first
    | with_reducible exact OnlyChanges.refl _ _
    | assumption
    | with_reducible refine onUnit_frame _ ?_
    | with_reducible refine next_frame ?_
    | with_reducible exact fault_frame _ _ _
    | with_reducible refine runCommand_frame _ _ _ (fun _ => ?_)
    | with_reducible refine (tieTo_frame _ _).after (by decide) ?_
    | with_reducible refine modTime_frame _ ?_
    | with_reducible exact failWith_frame _ _ _
    | with_reducible refine okWith_frame ?_
    | with_reducible refine done_frame ?_
    | with_reducible refine fails_frame ?_
    | with_reducible refine later_frame ?_
    | with_reducible refine soon_frame ?_
    | with_reducible refine laterGrace_frame ?_
    | extract_lets
    | with_reducible refine OnlyChanges.getD (fun _ _ => ?_) ?_
    | with_reducible refine OnlyChanges.foldl (fun _ _ => ?_) ?_
    | split

theorem execTimeAcceptStep_frame (a0 a1 s) : NextChanges [.recoveryLog, .time, .events, .mailboxes, .counters,
    .crumbs, .out] s (execTimeAcceptStep a0 a1 s) := by
  unfold execTimeAcceptStep
  repeat' first
    | with_reducible exact OnlyChanges.refl _ _
    | assumption
    | with_reducible refine onUnit_frame _ ?_
    | with_reducible refine next_frame ?_
    | with_reducible exact fault_frame _ _ _
    | with_reducible refine runCommand_frame _ _ _ (fun _ => ?_)
    | with_reducible refine modTime_frame _ ?_
    | with_reducible exact failWith_frame _ _ _
    | with_reducible refine okWith_frame ?_
    | with_reducible refine done_frame ?_
    | with_reducible refine fails_frame ?_
    | with_reducible refine later_frame ?_
    | with_reducible refine soon_frame ?_
    | with_reducible refine laterGrace_frame ?_
    | extract_lets
    | with_reducible refine OnlyChanges.getD (fun _ _ => ?_) ?_
    | with_reducible refine OnlyChanges.foldl (fun _ _ => ?_) ?_
    | split

theorem execTimeThresh_frame (a0 a1 s) : NextChanges [.recoveryLog, .time, .events, .mailboxes, .counters, .crumbs,
    .out] s (execTimeThresh a0 a1 s) := by
  unfold execTimeThresh
  repeat' first
    | with_reducible exact OnlyChanges.refl _ _
    | assumption
    | with_reducible refine onUnit_frame _ ?_
    | with_reducible refine next_frame ?_
    | with_reducible exact fault_frame _ _ _
    | with_reducible refine runCommand_frame _ _ _ (fun _ => ?_)
    | with_reducible refine modTime_frame _ ?_
    | with_reducible exact failWith_frame _ _ _
    | with_reducible refine okWith_frame ?_
    | with_reducible refine done_frame ?_
    | with_reducible refine fails_frame ?_
    | with_reducible refine later_frame ?_
    | with_reducible refine soon_frame ?_
    | with_reducible refine laterGrace_frame ?_
    | extract_lets
    | with_reducible refine OnlyChanges.getD (fun _ _ => ?_) ?_
    | with_reducible refine OnlyChanges.foldl (fun _ _ => ?_) ?_
    | split

theorem execTimeAsym_frame (a0 a1 a2 s) : NextChanges [.recoveryLog, .ports, .events, .mailboxes, .counters,
    .crumbs, .out] s (execTimeAsym a0 a1 a2 s) := by
  unfold execTimeAsym
  repeat' first
    | with_reducible exact OnlyChanges.refl _ _
    | assumption
    | with_reducible refine onUnit_frame _ ?_
    | with_reducible refine next_frame ?_
    | with_reducible exact fault_frame _ _ _
    | with_reducible refine runCommand_frame _ _ _ (fun _ => ?_)
    | with_reducible refine (modPort_frame _ _ _).after (by decide) ?_
    | with_reducible exact failWith_frame _ _ _
    | with_reducible refine okWith_frame ?_
    | with_reducible refine done_frame ?_
    | with_reducible refine fails_frame ?_
    | with_reducible refine later_frame ?_
    | with_reducible refine soon_frame ?_
    | with_reducible refine laterGrace_frame ?_
    | extract_lets
    | with_reducible refine OnlyChanges.getD (fun _ _ => ?_) ?_
    | with_reducible refine OnlyChanges.foldl (fun _ _ => ?_) ?_
    | split

theorem execTimePriority_frame (a0 a1 s) : NextChanges [.recoveryLog, .time, .events, .mailboxes, .counters,
    .crumbs, .out] s (execTimePriority a0 a1 s) := by
  unfold execTimePriority
  repeat' first
    | with_reducible exact OnlyChanges.refl _ _
    | assumption
    | with_reducible refine onUnit_frame _ ?_
    | with_reducible refine next_frame ?_
    | with_reducible exact fault_frame _ _ _
    | with_reducible refine runCommand_frame _ _ _ (fun _ => ?_)
    | with_reducible refine modTime_frame _ ?_
    | with_reducible exact failWith_frame _ _ _
    | with_reducible refine okWith_frame ?_
    | with_reducible refine done_frame ?_
    | with_reducible refine fails_frame ?_
    | with_reducible refine later_frame ?_
    | with_reducible refine soon_frame ?_
    | with_reducible refine laterGrace_frame ?_
    | extract_lets
    | with_reducible refine OnlyChanges.getD (fun _ _ => ?_) ?_
    | with_reducible refine OnlyChanges.foldl (fun _ _ => ?_) ?_
    | split

theorem execTimePps_frame (a0 a1 s) : NextChanges [.recoveryLog, .time, .events, .mailboxes, .counters, .crumbs,
    .out] s (execTimePps a0 a1 s) := by
  unfold execTimePps
  repeat' first
    | with_reducible exact OnlyChanges.refl _ _
    | assumption
    | with_reducible refine onUnit_frame _ ?_
    | with_reducible refine next_frame ?_
    | with_reducible exact fault_frame _ _ _
    | with_reducible refine runCommand_frame _ _ _ (fun _ => ?_)
    | with_reducible refine modTime_frame _ ?_
    | with_reducible exact failWith_frame _ _ _
    | with_reducible refine okWith_frame ?_

theorem execTimeLaunchRead_frame (a0 a1 s) : NextChanges [.recoveryLog, .launches, .events, .mailboxes, .counters,
    .crumbs, .out] s (execTimeLaunchRead a0 a1 s) := by
  unfold execTimeLaunchRead
  repeat' first
    | with_reducible exact OnlyChanges.refl _ _
    | assumption
    | with_reducible refine onUnit_frame _ ?_
    | with_reducible refine next_frame ?_
    | with_reducible exact fault_frame _ _ _
    | with_reducible refine runCommand_frame _ _ _ (fun _ => ?_)
    | with_reducible refine modTime_frame _ ?_
    | with_reducible exact failWith_frame _ _ _
    | with_reducible refine okWith_frame ?_
    | with_reducible refine done_frame ?_
    | with_reducible refine fails_frame ?_
    | with_reducible refine later_frame ?_
    | with_reducible refine soon_frame ?_
    | with_reducible refine laterGrace_frame ?_
    | extract_lets
    | with_reducible refine OnlyChanges.getD (fun _ _ => ?_) ?_
    | with_reducible refine OnlyChanges.foldl (fun _ _ => ?_) ?_
    | split

theorem execTimeStatus_frame (a0 s) : NextChanges [.recoveryLog, .events, .mailboxes, .counters, .crumbs, .out] s
    (execTimeStatus a0 s) := by
  unfold execTimeStatus
  repeat' first
    | with_reducible exact OnlyChanges.refl _ _
    | assumption
    | with_reducible refine onUnit_frame _ ?_
    | with_reducible refine next_frame ?_
    | with_reducible exact fault_frame _ _ _
    | with_reducible refine runCommand_frame _ _ _ (fun _ => ?_)
    | with_reducible exact failWith_frame _ _ _
    | with_reducible refine okWith_frame ?_
    | with_reducible refine done_frame ?_

end Sys2Proof.Machine
end

