-- ==== Sys2Proof/Laws/Memory.lean ====
section
/-! SUPPORT. Tables in canonical form, and the bytes of the Granary: what a read gives after a write, and that every
operation on them keeps the canonical form. -/

set_option Elab.async false

namespace Sys2Proof.Machine

/-! ## Tables -/

theorem tabRisesFrom_mono {α : Type} {a b : Nat} (h : a ≤ b) : ∀ {t : Tab α}, tabRisesFrom b t = true → tabRisesFrom a t = true
  | [], _ => rfl
  | (k, v) :: t, ht => by
    simp only [tabRisesFrom, Bool.and_eq_true, decide_eq_true_eq] at *
    exact ⟨Nat.le_trans h ht.1, ht.2⟩

theorem tabGet?_none_of_rises {α : Type} {n b : Nat} (hn : n < b) : ∀ {t : Tab α}, tabRisesFrom b t = true → tabGet? t n = none
  | [], _ => rfl
  | (k, v) :: t, ht => by
    simp only [tabRisesFrom, Bool.and_eq_true, decide_eq_true_eq] at ht
    unfold tabGet?
    rw [if_neg (by omega), if_pos (by omega)]

theorem tabGet?_tabPut_self {α : Type} (n : Nat) (x : α) : ∀ t : Tab α, tabGet? (tabPut t n x) n = some x
  | [] => by simp [tabPut, tabGet?]
  | (k, v) :: t => by
    unfold tabPut
    split
    · simp [tabGet?]
    · split
      · simp [tabGet?]
      · rename_i h1 h2
        unfold tabGet?
        rw [if_neg h1, if_neg h2]
        exact tabGet?_tabPut_self n x t

theorem tabGet?_tabPut_ne {α : Type} {n m : Nat} (x : α) (h : m ≠ n) : ∀ t : Tab α, tabGet? (tabPut t n x) m = tabGet? t m
  | [] => by
    simp only [tabPut, tabGet?]
    rw [if_neg h]; split <;> rfl
  | (k, v) :: t => by
    unfold tabPut
    split
    · rename_i e; subst e
      simp only [tabGet?, if_neg h]
    · split
      · rename_i h1 h2
        rw [tabGet?, if_neg h]
        split
        · rw [tabGet?, if_neg (by omega), if_pos (by omega)]
        · rfl
      · rw [tabGet?, tabGet?, tabGet?_tabPut_ne x h t]

theorem tabGet?_tabDel_ne {α : Type} {n m b : Nat} (h : m ≠ n) :
    ∀ {t : Tab α}, tabRisesFrom b t = true → tabGet? (tabDel t n) m = tabGet? t m
  | [], _ => rfl
  | (k, v) :: t, ht => by
    simp only [tabRisesFrom, Bool.and_eq_true, decide_eq_true_eq] at ht
    unfold tabDel
    split
    · rename_i e; subst e
      rw [tabGet?, if_neg h]
      split
      · exact tabGet?_none_of_rises (by omega) ht.2
      · rfl
    · split
      · rfl
      · rw [tabGet?, tabGet?, tabGet?_tabDel_ne h ht.2]

theorem tabGet?_tabDel_self {α : Type} {n b : Nat} : ∀ {t : Tab α}, tabRisesFrom b t = true → tabGet? (tabDel t n) n = none
  | [], _ => rfl
  | (k, v) :: t, ht => by
    simp only [tabRisesFrom, Bool.and_eq_true, decide_eq_true_eq] at ht
    unfold tabDel
    split
    · rename_i e; subst e
      exact tabGet?_none_of_rises (by omega) ht.2
    · split
      · rename_i h1 h2
        rw [tabGet?, if_neg h1, if_pos h2]
      · rename_i h1 h2
        rw [tabGet?, if_neg h1, if_neg h2]
        exact tabGet?_tabDel_self ht.2

theorem tabRisesFrom_tabPut {α : Type} {n b : Nat} (x : α) (hb : b ≤ n) :
    ∀ {t : Tab α}, tabRisesFrom b t = true → tabRisesFrom b (tabPut t n x) = true
  | [], _ => by simp [tabPut, tabRisesFrom, hb]
  | (k, v) :: t, ht => by
    simp only [tabRisesFrom, Bool.and_eq_true, decide_eq_true_eq] at ht
    unfold tabPut
    split
    · rename_i e; subst e
      simp [tabRisesFrom, ht.1, ht.2]
    · split
      · rename_i h1 h2
        simp only [tabRisesFrom, Bool.and_eq_true, decide_eq_true_eq]
        exact ⟨hb, by omega, ht.2⟩
      · simp only [tabRisesFrom, Bool.and_eq_true, decide_eq_true_eq]
        exact ⟨ht.1, tabRisesFrom_tabPut x (by omega) ht.2⟩

theorem tabRisesFrom_tabDel {α : Type} {n b : Nat} :
    ∀ {t : Tab α}, tabRisesFrom b t = true → tabRisesFrom b (tabDel t n) = true
  | [], _ => rfl
  | (k, v) :: t, ht => by
    have h := ht
    simp only [tabRisesFrom, Bool.and_eq_true, decide_eq_true_eq] at ht
    unfold tabDel
    split
    · exact tabRisesFrom_mono (by omega) ht.2
    · split
      · exact h
      · simp only [tabRisesFrom, Bool.and_eq_true, decide_eq_true_eq]
        exact ⟨ht.1, tabRisesFrom_tabDel ht.2⟩

theorem tabRisesFrom_filter {α : Type} {p : Nat × α → Bool} :
    ∀ {b : Nat} {t : Tab α}, tabRisesFrom b t = true → tabRisesFrom b (t.filter p) = true
  | _, [], _ => rfl
  | b, (k, v) :: t, ht => by
    simp only [tabRisesFrom, Bool.and_eq_true, decide_eq_true_eq] at ht
    have h := tabRisesFrom_filter (p := p) ht.2
    rw [List.filter_cons]
    split
    · simp only [tabRisesFrom, Bool.and_eq_true, decide_eq_true_eq]
      exact ⟨ht.1, h⟩
    · exact tabRisesFrom_mono (by omega) h

theorem mem_tabPut {α : Type} {n : Nat} {x : α} {e : Nat × α} : ∀ {t : Tab α}, e ∈ tabPut t n x → e = (n, x) ∨ e ∈ t
  | [], h => by simp [tabPut] at h; exact .inl h
  | (k, v) :: t, h => by
    unfold tabPut at h
    split at h
    · rcases List.mem_cons.1 h with h | h
      · exact .inl h
      · exact .inr (List.mem_cons_of_mem _ h)
    · split at h
      · rcases List.mem_cons.1 h with h | h
        · exact .inl h
        · exact .inr h
      · rcases List.mem_cons.1 h with h | h
        · exact .inr (h ▸ List.mem_cons_self ..)
        · exact (mem_tabPut h).imp id (List.mem_cons_of_mem _)

theorem mem_tabDel {α : Type} {n : Nat} {e : Nat × α} : ∀ {t : Tab α}, e ∈ tabDel t n → e ∈ t
  | [], h => h
  | (k, v) :: t, h => by
    unfold tabDel at h
    split at h
    · exact List.mem_cons_of_mem _ h
    · split at h
      · exact h
      · rcases List.mem_cons.1 h with h | h
        · exact h ▸ List.mem_cons_self ..
        · exact List.mem_cons_of_mem _ (mem_tabDel h)

theorem tabTotalWf_iff {α : Type} [DecidableEq α] {d : Nat → α} {t : Tab α} :
    tabTotalWf d t = true ↔ tabRisesFrom 0 t = true ∧ ∀ e ∈ t, e.2 ≠ d e.1 := by
  simp [tabTotalWf, tabWf]

theorem tabTotalWf_tabSet {α : Type} [DecidableEq α] {d : Nat → α} {t : Tab α} (n : Nat) (x : α)
    (h : tabTotalWf d t = true) : tabTotalWf d (tabSet d t n x) = true := by
  rw [tabTotalWf_iff] at *
  unfold tabSet
  split
  · exact ⟨tabRisesFrom_tabDel h.1, fun e he => h.2 e (mem_tabDel he)⟩
  · rename_i hx
    refine ⟨tabRisesFrom_tabPut x (Nat.zero_le _) h.1, fun e he => ?_⟩
    rcases mem_tabPut he with rfl | he
    · exact hx
    · exact h.2 e he

theorem tabGet_tabSet_self {α : Type} [DecidableEq α] {d : Nat → α} {t : Tab α} (n : Nat) (x : α) (h : tabWf t = true) :
    tabGet d (tabSet d t n x) n = x := by
  unfold tabGet tabSet
  split
  · rename_i hx; rw [tabGet?_tabDel_self h, hx]; rfl
  · rw [tabGet?_tabPut_self]; rfl

theorem tabGet_tabSet_ne {α : Type} [DecidableEq α] {d : Nat → α} {t : Tab α} {n m : Nat} (x : α) (hm : m ≠ n)
    (h : tabWf t = true) : tabGet d (tabSet d t n x) m = tabGet d t m := by
  unfold tabGet tabSet
  split
  · rw [tabGet?_tabDel_ne hm h]
  · rw [tabGet?_tabPut_ne x hm]

theorem tabTotalWf_filter {α : Type} [DecidableEq α] {d : Nat → α} {t : Tab α} (p : Nat × α → Bool)
    (h : tabTotalWf d t = true) : tabTotalWf d (t.filter p) = true := by
  rw [tabTotalWf_iff] at *
  exact ⟨tabRisesFrom_filter h.1, fun e he => h.2 e (List.mem_filter.1 he).1⟩

theorem tabWf_of_total {α : Type} [DecidableEq α] {d : Nat → α} {t : Tab α} (h : tabTotalWf d t = true) : tabWf t = true :=
  (tabTotalWf_iff.1 h).1

/-! ## Bytes of the Granary -/

/-- Storing a run of bytes keeps the canonical form. -/
theorem storeRun_wf (key : Nat → Nat) : ∀ (l : List (Byte × Nat)) (m : Tab Byte), Memory.wf m = true →
    Memory.wf (l.foldl (fun m x => tabSet (fun _ => 0) m (key x.2) x.1) m) = true
  | [], _, h => h
  | _ :: l, _, h => storeRun_wf key l _ (tabTotalWf_tabSet _ _ h)

/-- A run of bytes leaves every key that is none of its own. -/
theorem storeRun_other {k : Nat} (key : Nat → Nat) : ∀ (l : List (Byte × Nat)) (m : Tab Byte), Memory.wf m = true →
    (∀ x ∈ l, key x.2 ≠ k) →
    tabGet (fun _ => 0) (l.foldl (fun m x => tabSet (fun _ => 0) m (key x.2) x.1) m) k = tabGet (fun _ => 0) m k
  | [], _, _, _ => rfl
  | x :: l, m, h, hk => by
    rw [List.foldl_cons, storeRun_other key l _ (tabTotalWf_tabSet _ _ h) (fun y hy => hk y (List.mem_cons_of_mem _ hy))]
    exact tabGet_tabSet_ne _ (Ne.symm (hk x (List.mem_cons_self ..))) (tabWf_of_total h)

theorem putLine_inv {r ln : Nat} {key : Option Nat} {bs : List Byte} {g : GranState}
    (h : Memory.wf g.mem = true) (hk : tabWf g.lineKeys = true) :
    Memory.wf (putLine r key ln bs g).mem = true ∧ tabWf (putLine r key ln bs g).lineKeys = true := by
  refine ⟨storeRun_wf (fun i => memKey r (64 * ln + i)) _ _ h, ?_⟩
  unfold putLine
  cases key
  · exact tabRisesFrom_tabDel hk
  · exact tabRisesFrom_tabPut _ (Nat.zero_le _) hk

theorem foldl_inv {σ β : Type} {P : σ → Prop} {f : σ → β → σ} (hf : ∀ s b, P s → P (f s b)) :
    ∀ (l : List β) {s : σ}, P s → P (l.foldl f s)
  | [], _, h => h
  | b :: l, _, h => foldl_inv hf l (hf _ b h)

/-- Writing a range keeps the Granary's tables in canonical form. -/
theorem writeBytes_inv (r o : Nat) (bs : List Byte) {s : State} (h : MemoryInv s) : MemoryInv (writeBytes r o bs s) := by
  unfold writeBytes
  refine foldl_inv (P := MemoryInv) (fun t ln ht => ?_) _ h
  exact putLine_inv (g := t.gran) ht.1 ht.2

/-- Zeroing a region keeps the Granary's tables in canonical form. -/
theorem zeroRegion_inv (r : Nat) {s : State} (h : MemoryInv s) : MemoryInv (zeroRegion r s) :=
  ⟨tabTotalWf_filter _ h.1, tabRisesFrom_filter h.2⟩

/-- The Granary is empty at reset. -/
theorem reset_memory_wf : Memory.wf State.reset.gran.mem = true := rfl

end Sys2Proof.Machine
end

