-- ==== Sys2Proof/Laws/State.lean ====
section
/-! SUPPORT. What each update of the state leaves in each field, for the simplifier. -/

set_option Elab.async false

namespace Sys2Proof.Machine

@[simp] theorem modBuf_power (f s) : (modBuf f s).power = s.power := (rfl)
@[simp] theorem modBuf_start (f s) : (modBuf f s).start = s.start := (rfl)
@[simp] theorem modBuf_ctl (f s) : (modBuf f s).ctl = s.ctl := (rfl)
@[simp] theorem modBuf_opt (f s) : (modBuf f s).opt = s.opt := (rfl)
@[simp] theorem modBuf_time (f s) : (modBuf f s).time = s.time := (rfl)
@[simp] theorem modBuf_link (f s) : (modBuf f s).link = s.link := (rfl)
@[simp] theorem modBuf_buf (f s) : (modBuf f s).buf = f s.buf := (rfl)
@[simp] theorem modBuf_tbl (f s) : (modBuf f s).tbl = s.tbl := (rfl)
@[simp] theorem modBuf_sched (f s) : (modBuf f s).sched = s.sched := (rfl)
@[simp] theorem modBuf_loaf (f s) : (modBuf f s).loaf = s.loaf := (rfl)
@[simp] theorem modBuf_mgmt (f s) : (modBuf f s).mgmt = s.mgmt := (rfl)
@[simp] theorem modBuf_fab (f s) : (modBuf f s).fab = s.fab := (rfl)
@[simp] theorem modBuf_mill (f s) : (modBuf f s).mill = s.mill := (rfl)
@[simp] theorem modBuf_gran (f s) : (modBuf f s).gran = s.gran := (rfl)
@[simp] theorem modBuf_tele (f s) : (modBuf f s).tele = s.tele := (rfl)
@[simp] theorem modBuf_winnow (f s) : (modBuf f s).winnow = s.winnow := (rfl)
@[simp] theorem modBuf_rst (f s) : (modBuf f s).rst = s.rst := (rfl)
@[simp] theorem modBuf_clk (f s) : (modBuf f s).clk = s.clk := (rfl)
@[simp] theorem modBuf_free (f s) : (modBuf f s).free = s.free := (rfl)
@[simp] theorem modBuf_out (f s) : (modBuf f s).out = s.out := (rfl)
@[simp] theorem modBuf_sec (f s) : (modBuf f s).sec = s.sec := (rfl)
@[simp] theorem modBuf_pending (f s) : (modBuf f s).pending = s.pending := (rfl)
@[simp] theorem modSchedState_power (f s) : (modSchedState f s).power = s.power := (rfl)
@[simp] theorem modSchedState_start (f s) : (modSchedState f s).start = s.start := (rfl)
@[simp] theorem modSchedState_ctl (f s) : (modSchedState f s).ctl = s.ctl := (rfl)
@[simp] theorem modSchedState_opt (f s) : (modSchedState f s).opt = s.opt := (rfl)
@[simp] theorem modSchedState_time (f s) : (modSchedState f s).time = s.time := (rfl)
@[simp] theorem modSchedState_link (f s) : (modSchedState f s).link = s.link := (rfl)
@[simp] theorem modSchedState_buf (f s) : (modSchedState f s).buf = s.buf := (rfl)
@[simp] theorem modSchedState_tbl (f s) : (modSchedState f s).tbl = s.tbl := (rfl)
@[simp] theorem modSchedState_sched (f s) : (modSchedState f s).sched = f s.sched := (rfl)
@[simp] theorem modSchedState_loaf (f s) : (modSchedState f s).loaf = s.loaf := (rfl)
@[simp] theorem modSchedState_mgmt (f s) : (modSchedState f s).mgmt = s.mgmt := (rfl)
@[simp] theorem modSchedState_fab (f s) : (modSchedState f s).fab = s.fab := (rfl)
@[simp] theorem modSchedState_mill (f s) : (modSchedState f s).mill = s.mill := (rfl)
@[simp] theorem modSchedState_gran (f s) : (modSchedState f s).gran = s.gran := (rfl)
@[simp] theorem modSchedState_tele (f s) : (modSchedState f s).tele = s.tele := (rfl)
@[simp] theorem modSchedState_winnow (f s) : (modSchedState f s).winnow = s.winnow := (rfl)
@[simp] theorem modSchedState_rst (f s) : (modSchedState f s).rst = s.rst := (rfl)
@[simp] theorem modSchedState_clk (f s) : (modSchedState f s).clk = s.clk := (rfl)
@[simp] theorem modSchedState_free (f s) : (modSchedState f s).free = s.free := (rfl)
@[simp] theorem modSchedState_out (f s) : (modSchedState f s).out = s.out := (rfl)
@[simp] theorem modSchedState_sec (f s) : (modSchedState f s).sec = s.sec := (rfl)
@[simp] theorem modSchedState_pending (f s) : (modSchedState f s).pending = s.pending := (rfl)
@[simp] theorem modGran_power (f s) : (modGran f s).power = s.power := (rfl)
@[simp] theorem modGran_start (f s) : (modGran f s).start = s.start := (rfl)
@[simp] theorem modGran_ctl (f s) : (modGran f s).ctl = s.ctl := (rfl)
@[simp] theorem modGran_opt (f s) : (modGran f s).opt = s.opt := (rfl)
@[simp] theorem modGran_time (f s) : (modGran f s).time = s.time := (rfl)
@[simp] theorem modGran_link (f s) : (modGran f s).link = s.link := (rfl)
@[simp] theorem modGran_buf (f s) : (modGran f s).buf = s.buf := (rfl)
@[simp] theorem modGran_tbl (f s) : (modGran f s).tbl = s.tbl := (rfl)
@[simp] theorem modGran_sched (f s) : (modGran f s).sched = s.sched := (rfl)
@[simp] theorem modGran_loaf (f s) : (modGran f s).loaf = s.loaf := (rfl)
@[simp] theorem modGran_mgmt (f s) : (modGran f s).mgmt = s.mgmt := (rfl)
@[simp] theorem modGran_fab (f s) : (modGran f s).fab = s.fab := (rfl)
@[simp] theorem modGran_mill (f s) : (modGran f s).mill = s.mill := (rfl)
@[simp] theorem modGran_gran (f s) : (modGran f s).gran = f s.gran := (rfl)
@[simp] theorem modGran_tele (f s) : (modGran f s).tele = s.tele := (rfl)
@[simp] theorem modGran_winnow (f s) : (modGran f s).winnow = s.winnow := (rfl)
@[simp] theorem modGran_rst (f s) : (modGran f s).rst = s.rst := (rfl)
@[simp] theorem modGran_clk (f s) : (modGran f s).clk = s.clk := (rfl)
@[simp] theorem modGran_free (f s) : (modGran f s).free = s.free := (rfl)
@[simp] theorem modGran_out (f s) : (modGran f s).out = s.out := (rfl)
@[simp] theorem modGran_sec (f s) : (modGran f s).sec = s.sec := (rfl)
@[simp] theorem modGran_pending (f s) : (modGran f s).pending = s.pending := (rfl)
@[simp] theorem modLoaf_power (f s) : (modLoaf f s).power = s.power := (rfl)
@[simp] theorem modLoaf_start (f s) : (modLoaf f s).start = s.start := (rfl)
@[simp] theorem modLoaf_ctl (f s) : (modLoaf f s).ctl = s.ctl := (rfl)
@[simp] theorem modLoaf_opt (f s) : (modLoaf f s).opt = s.opt := (rfl)
@[simp] theorem modLoaf_time (f s) : (modLoaf f s).time = s.time := (rfl)
@[simp] theorem modLoaf_link (f s) : (modLoaf f s).link = s.link := (rfl)
@[simp] theorem modLoaf_buf (f s) : (modLoaf f s).buf = s.buf := (rfl)
@[simp] theorem modLoaf_tbl (f s) : (modLoaf f s).tbl = s.tbl := (rfl)
@[simp] theorem modLoaf_sched (f s) : (modLoaf f s).sched = s.sched := (rfl)
@[simp] theorem modLoaf_loaf (f s) : (modLoaf f s).loaf = f s.loaf := (rfl)
@[simp] theorem modLoaf_mgmt (f s) : (modLoaf f s).mgmt = s.mgmt := (rfl)
@[simp] theorem modLoaf_fab (f s) : (modLoaf f s).fab = s.fab := (rfl)
@[simp] theorem modLoaf_mill (f s) : (modLoaf f s).mill = s.mill := (rfl)
@[simp] theorem modLoaf_gran (f s) : (modLoaf f s).gran = s.gran := (rfl)
@[simp] theorem modLoaf_tele (f s) : (modLoaf f s).tele = s.tele := (rfl)
@[simp] theorem modLoaf_winnow (f s) : (modLoaf f s).winnow = s.winnow := (rfl)
@[simp] theorem modLoaf_rst (f s) : (modLoaf f s).rst = s.rst := (rfl)
@[simp] theorem modLoaf_clk (f s) : (modLoaf f s).clk = s.clk := (rfl)
@[simp] theorem modLoaf_free (f s) : (modLoaf f s).free = s.free := (rfl)
@[simp] theorem modLoaf_out (f s) : (modLoaf f s).out = s.out := (rfl)
@[simp] theorem modLoaf_sec (f s) : (modLoaf f s).sec = s.sec := (rfl)
@[simp] theorem modLoaf_pending (f s) : (modLoaf f s).pending = s.pending := (rfl)
@[simp] theorem modMgmt_power (f s) : (modMgmt f s).power = s.power := (rfl)
@[simp] theorem modMgmt_start (f s) : (modMgmt f s).start = s.start := (rfl)
@[simp] theorem modMgmt_ctl (f s) : (modMgmt f s).ctl = s.ctl := (rfl)
@[simp] theorem modMgmt_opt (f s) : (modMgmt f s).opt = s.opt := (rfl)
@[simp] theorem modMgmt_time (f s) : (modMgmt f s).time = s.time := (rfl)
@[simp] theorem modMgmt_link (f s) : (modMgmt f s).link = s.link := (rfl)
@[simp] theorem modMgmt_buf (f s) : (modMgmt f s).buf = s.buf := (rfl)
@[simp] theorem modMgmt_tbl (f s) : (modMgmt f s).tbl = s.tbl := (rfl)
@[simp] theorem modMgmt_sched (f s) : (modMgmt f s).sched = s.sched := (rfl)
@[simp] theorem modMgmt_loaf (f s) : (modMgmt f s).loaf = s.loaf := (rfl)
@[simp] theorem modMgmt_mgmt (f s) : (modMgmt f s).mgmt = f s.mgmt := (rfl)
@[simp] theorem modMgmt_fab (f s) : (modMgmt f s).fab = s.fab := (rfl)
@[simp] theorem modMgmt_mill (f s) : (modMgmt f s).mill = s.mill := (rfl)
@[simp] theorem modMgmt_gran (f s) : (modMgmt f s).gran = s.gran := (rfl)
@[simp] theorem modMgmt_tele (f s) : (modMgmt f s).tele = s.tele := (rfl)
@[simp] theorem modMgmt_winnow (f s) : (modMgmt f s).winnow = s.winnow := (rfl)
@[simp] theorem modMgmt_rst (f s) : (modMgmt f s).rst = s.rst := (rfl)
@[simp] theorem modMgmt_clk (f s) : (modMgmt f s).clk = s.clk := (rfl)
@[simp] theorem modMgmt_free (f s) : (modMgmt f s).free = s.free := (rfl)
@[simp] theorem modMgmt_out (f s) : (modMgmt f s).out = s.out := (rfl)
@[simp] theorem modMgmt_sec (f s) : (modMgmt f s).sec = s.sec := (rfl)
@[simp] theorem modMgmt_pending (f s) : (modMgmt f s).pending = s.pending := (rfl)
@[simp] theorem modMill_power (f s) : (modMill f s).power = s.power := (rfl)
@[simp] theorem modMill_start (f s) : (modMill f s).start = s.start := (rfl)
@[simp] theorem modMill_ctl (f s) : (modMill f s).ctl = s.ctl := (rfl)
@[simp] theorem modMill_opt (f s) : (modMill f s).opt = s.opt := (rfl)
@[simp] theorem modMill_time (f s) : (modMill f s).time = s.time := (rfl)
@[simp] theorem modMill_link (f s) : (modMill f s).link = s.link := (rfl)
@[simp] theorem modMill_buf (f s) : (modMill f s).buf = s.buf := (rfl)
@[simp] theorem modMill_tbl (f s) : (modMill f s).tbl = s.tbl := (rfl)
@[simp] theorem modMill_sched (f s) : (modMill f s).sched = s.sched := (rfl)
@[simp] theorem modMill_loaf (f s) : (modMill f s).loaf = s.loaf := (rfl)
@[simp] theorem modMill_mgmt (f s) : (modMill f s).mgmt = s.mgmt := (rfl)
@[simp] theorem modMill_fab (f s) : (modMill f s).fab = s.fab := (rfl)
@[simp] theorem modMill_mill (f s) : (modMill f s).mill = f s.mill := (rfl)
@[simp] theorem modMill_gran (f s) : (modMill f s).gran = s.gran := (rfl)
@[simp] theorem modMill_tele (f s) : (modMill f s).tele = s.tele := (rfl)
@[simp] theorem modMill_winnow (f s) : (modMill f s).winnow = s.winnow := (rfl)
@[simp] theorem modMill_rst (f s) : (modMill f s).rst = s.rst := (rfl)
@[simp] theorem modMill_clk (f s) : (modMill f s).clk = s.clk := (rfl)
@[simp] theorem modMill_free (f s) : (modMill f s).free = s.free := (rfl)
@[simp] theorem modMill_out (f s) : (modMill f s).out = s.out := (rfl)
@[simp] theorem modMill_sec (f s) : (modMill f s).sec = s.sec := (rfl)
@[simp] theorem modMill_pending (f s) : (modMill f s).pending = s.pending := (rfl)
@[simp] theorem modOpt_power (f s) : (modOpt f s).power = s.power := (rfl)
@[simp] theorem modOpt_start (f s) : (modOpt f s).start = s.start := (rfl)
@[simp] theorem modOpt_ctl (f s) : (modOpt f s).ctl = s.ctl := (rfl)
@[simp] theorem modOpt_opt (f s) : (modOpt f s).opt = f s.opt := (rfl)
@[simp] theorem modOpt_time (f s) : (modOpt f s).time = s.time := (rfl)
@[simp] theorem modOpt_link (f s) : (modOpt f s).link = s.link := (rfl)
@[simp] theorem modOpt_buf (f s) : (modOpt f s).buf = s.buf := (rfl)
@[simp] theorem modOpt_tbl (f s) : (modOpt f s).tbl = s.tbl := (rfl)
@[simp] theorem modOpt_sched (f s) : (modOpt f s).sched = s.sched := (rfl)
@[simp] theorem modOpt_loaf (f s) : (modOpt f s).loaf = s.loaf := (rfl)
@[simp] theorem modOpt_mgmt (f s) : (modOpt f s).mgmt = s.mgmt := (rfl)
@[simp] theorem modOpt_fab (f s) : (modOpt f s).fab = s.fab := (rfl)
@[simp] theorem modOpt_mill (f s) : (modOpt f s).mill = s.mill := (rfl)
@[simp] theorem modOpt_gran (f s) : (modOpt f s).gran = s.gran := (rfl)
@[simp] theorem modOpt_tele (f s) : (modOpt f s).tele = s.tele := (rfl)
@[simp] theorem modOpt_winnow (f s) : (modOpt f s).winnow = s.winnow := (rfl)
@[simp] theorem modOpt_rst (f s) : (modOpt f s).rst = s.rst := (rfl)
@[simp] theorem modOpt_clk (f s) : (modOpt f s).clk = s.clk := (rfl)
@[simp] theorem modOpt_free (f s) : (modOpt f s).free = s.free := (rfl)
@[simp] theorem modOpt_out (f s) : (modOpt f s).out = s.out := (rfl)
@[simp] theorem modOpt_sec (f s) : (modOpt f s).sec = s.sec := (rfl)
@[simp] theorem modOpt_pending (f s) : (modOpt f s).pending = s.pending := (rfl)
@[simp] theorem modSec_power (f s) : (modSec f s).power = s.power := (rfl)
@[simp] theorem modSec_start (f s) : (modSec f s).start = s.start := (rfl)
@[simp] theorem modSec_ctl (f s) : (modSec f s).ctl = s.ctl := (rfl)
@[simp] theorem modSec_opt (f s) : (modSec f s).opt = s.opt := (rfl)
@[simp] theorem modSec_time (f s) : (modSec f s).time = s.time := (rfl)
@[simp] theorem modSec_link (f s) : (modSec f s).link = s.link := (rfl)
@[simp] theorem modSec_buf (f s) : (modSec f s).buf = s.buf := (rfl)
@[simp] theorem modSec_tbl (f s) : (modSec f s).tbl = s.tbl := (rfl)
@[simp] theorem modSec_sched (f s) : (modSec f s).sched = s.sched := (rfl)
@[simp] theorem modSec_loaf (f s) : (modSec f s).loaf = s.loaf := (rfl)
@[simp] theorem modSec_mgmt (f s) : (modSec f s).mgmt = s.mgmt := (rfl)
@[simp] theorem modSec_fab (f s) : (modSec f s).fab = s.fab := (rfl)
@[simp] theorem modSec_mill (f s) : (modSec f s).mill = s.mill := (rfl)
@[simp] theorem modSec_gran (f s) : (modSec f s).gran = s.gran := (rfl)
@[simp] theorem modSec_tele (f s) : (modSec f s).tele = s.tele := (rfl)
@[simp] theorem modSec_winnow (f s) : (modSec f s).winnow = s.winnow := (rfl)
@[simp] theorem modSec_rst (f s) : (modSec f s).rst = s.rst := (rfl)
@[simp] theorem modSec_clk (f s) : (modSec f s).clk = s.clk := (rfl)
@[simp] theorem modSec_free (f s) : (modSec f s).free = s.free := (rfl)
@[simp] theorem modSec_out (f s) : (modSec f s).out = s.out := (rfl)
@[simp] theorem modSec_sec (f s) : (modSec f s).sec = f s.sec := (rfl)
@[simp] theorem modSec_pending (f s) : (modSec f s).pending = s.pending := (rfl)
@[simp] theorem modCtl_power (f s) : (modCtl f s).power = s.power := (rfl)
@[simp] theorem modCtl_start (f s) : (modCtl f s).start = s.start := (rfl)
@[simp] theorem modCtl_ctl (f s) : (modCtl f s).ctl = f s.ctl := (rfl)
@[simp] theorem modCtl_opt (f s) : (modCtl f s).opt = s.opt := (rfl)
@[simp] theorem modCtl_time (f s) : (modCtl f s).time = s.time := (rfl)
@[simp] theorem modCtl_link (f s) : (modCtl f s).link = s.link := (rfl)
@[simp] theorem modCtl_buf (f s) : (modCtl f s).buf = s.buf := (rfl)
@[simp] theorem modCtl_tbl (f s) : (modCtl f s).tbl = s.tbl := (rfl)
@[simp] theorem modCtl_sched (f s) : (modCtl f s).sched = s.sched := (rfl)
@[simp] theorem modCtl_loaf (f s) : (modCtl f s).loaf = s.loaf := (rfl)
@[simp] theorem modCtl_mgmt (f s) : (modCtl f s).mgmt = s.mgmt := (rfl)
@[simp] theorem modCtl_fab (f s) : (modCtl f s).fab = s.fab := (rfl)
@[simp] theorem modCtl_mill (f s) : (modCtl f s).mill = s.mill := (rfl)
@[simp] theorem modCtl_gran (f s) : (modCtl f s).gran = s.gran := (rfl)
@[simp] theorem modCtl_tele (f s) : (modCtl f s).tele = s.tele := (rfl)
@[simp] theorem modCtl_winnow (f s) : (modCtl f s).winnow = s.winnow := (rfl)
@[simp] theorem modCtl_rst (f s) : (modCtl f s).rst = s.rst := (rfl)
@[simp] theorem modCtl_clk (f s) : (modCtl f s).clk = s.clk := (rfl)
@[simp] theorem modCtl_free (f s) : (modCtl f s).free = s.free := (rfl)
@[simp] theorem modCtl_out (f s) : (modCtl f s).out = s.out := (rfl)
@[simp] theorem modCtl_sec (f s) : (modCtl f s).sec = s.sec := (rfl)
@[simp] theorem modCtl_pending (f s) : (modCtl f s).pending = s.pending := (rfl)
@[simp] theorem modRst_power (f s) : (modRst f s).power = s.power := (rfl)
@[simp] theorem modRst_start (f s) : (modRst f s).start = s.start := (rfl)
@[simp] theorem modRst_ctl (f s) : (modRst f s).ctl = s.ctl := (rfl)
@[simp] theorem modRst_opt (f s) : (modRst f s).opt = s.opt := (rfl)
@[simp] theorem modRst_time (f s) : (modRst f s).time = s.time := (rfl)
@[simp] theorem modRst_link (f s) : (modRst f s).link = s.link := (rfl)
@[simp] theorem modRst_buf (f s) : (modRst f s).buf = s.buf := (rfl)
@[simp] theorem modRst_tbl (f s) : (modRst f s).tbl = s.tbl := (rfl)
@[simp] theorem modRst_sched (f s) : (modRst f s).sched = s.sched := (rfl)
@[simp] theorem modRst_loaf (f s) : (modRst f s).loaf = s.loaf := (rfl)
@[simp] theorem modRst_mgmt (f s) : (modRst f s).mgmt = s.mgmt := (rfl)
@[simp] theorem modRst_fab (f s) : (modRst f s).fab = s.fab := (rfl)
@[simp] theorem modRst_mill (f s) : (modRst f s).mill = s.mill := (rfl)
@[simp] theorem modRst_gran (f s) : (modRst f s).gran = s.gran := (rfl)
@[simp] theorem modRst_tele (f s) : (modRst f s).tele = s.tele := (rfl)
@[simp] theorem modRst_winnow (f s) : (modRst f s).winnow = s.winnow := (rfl)
@[simp] theorem modRst_rst (f s) : (modRst f s).rst = f s.rst := (rfl)
@[simp] theorem modRst_clk (f s) : (modRst f s).clk = s.clk := (rfl)
@[simp] theorem modRst_free (f s) : (modRst f s).free = s.free := (rfl)
@[simp] theorem modRst_out (f s) : (modRst f s).out = s.out := (rfl)
@[simp] theorem modRst_sec (f s) : (modRst f s).sec = s.sec := (rfl)
@[simp] theorem modRst_pending (f s) : (modRst f s).pending = s.pending := (rfl)
@[simp] theorem modTele_power (f s) : (modTele f s).power = s.power := (rfl)
@[simp] theorem modTele_start (f s) : (modTele f s).start = s.start := (rfl)
@[simp] theorem modTele_ctl (f s) : (modTele f s).ctl = s.ctl := (rfl)
@[simp] theorem modTele_opt (f s) : (modTele f s).opt = s.opt := (rfl)
@[simp] theorem modTele_time (f s) : (modTele f s).time = s.time := (rfl)
@[simp] theorem modTele_link (f s) : (modTele f s).link = s.link := (rfl)
@[simp] theorem modTele_buf (f s) : (modTele f s).buf = s.buf := (rfl)
@[simp] theorem modTele_tbl (f s) : (modTele f s).tbl = s.tbl := (rfl)
@[simp] theorem modTele_sched (f s) : (modTele f s).sched = s.sched := (rfl)
@[simp] theorem modTele_loaf (f s) : (modTele f s).loaf = s.loaf := (rfl)
@[simp] theorem modTele_mgmt (f s) : (modTele f s).mgmt = s.mgmt := (rfl)
@[simp] theorem modTele_fab (f s) : (modTele f s).fab = s.fab := (rfl)
@[simp] theorem modTele_mill (f s) : (modTele f s).mill = s.mill := (rfl)
@[simp] theorem modTele_gran (f s) : (modTele f s).gran = s.gran := (rfl)
@[simp] theorem modTele_tele (f s) : (modTele f s).tele = f s.tele := (rfl)
@[simp] theorem modTele_winnow (f s) : (modTele f s).winnow = s.winnow := (rfl)
@[simp] theorem modTele_rst (f s) : (modTele f s).rst = s.rst := (rfl)
@[simp] theorem modTele_clk (f s) : (modTele f s).clk = s.clk := (rfl)
@[simp] theorem modTele_free (f s) : (modTele f s).free = s.free := (rfl)
@[simp] theorem modTele_out (f s) : (modTele f s).out = s.out := (rfl)
@[simp] theorem modTele_sec (f s) : (modTele f s).sec = s.sec := (rfl)
@[simp] theorem modTele_pending (f s) : (modTele f s).pending = s.pending := (rfl)
@[simp] theorem modPower_power (f s) : (modPower f s).power = f s.power := (rfl)
@[simp] theorem modPower_start (f s) : (modPower f s).start = s.start := (rfl)
@[simp] theorem modPower_ctl (f s) : (modPower f s).ctl = s.ctl := (rfl)
@[simp] theorem modPower_opt (f s) : (modPower f s).opt = s.opt := (rfl)
@[simp] theorem modPower_time (f s) : (modPower f s).time = s.time := (rfl)
@[simp] theorem modPower_link (f s) : (modPower f s).link = s.link := (rfl)
@[simp] theorem modPower_buf (f s) : (modPower f s).buf = s.buf := (rfl)
@[simp] theorem modPower_tbl (f s) : (modPower f s).tbl = s.tbl := (rfl)
@[simp] theorem modPower_sched (f s) : (modPower f s).sched = s.sched := (rfl)
@[simp] theorem modPower_loaf (f s) : (modPower f s).loaf = s.loaf := (rfl)
@[simp] theorem modPower_mgmt (f s) : (modPower f s).mgmt = s.mgmt := (rfl)
@[simp] theorem modPower_fab (f s) : (modPower f s).fab = s.fab := (rfl)
@[simp] theorem modPower_mill (f s) : (modPower f s).mill = s.mill := (rfl)
@[simp] theorem modPower_gran (f s) : (modPower f s).gran = s.gran := (rfl)
@[simp] theorem modPower_tele (f s) : (modPower f s).tele = s.tele := (rfl)
@[simp] theorem modPower_winnow (f s) : (modPower f s).winnow = s.winnow := (rfl)
@[simp] theorem modPower_rst (f s) : (modPower f s).rst = s.rst := (rfl)
@[simp] theorem modPower_clk (f s) : (modPower f s).clk = s.clk := (rfl)
@[simp] theorem modPower_free (f s) : (modPower f s).free = s.free := (rfl)
@[simp] theorem modPower_out (f s) : (modPower f s).out = s.out := (rfl)
@[simp] theorem modPower_sec (f s) : (modPower f s).sec = s.sec := (rfl)
@[simp] theorem modPower_pending (f s) : (modPower f s).pending = s.pending := (rfl)
@[simp] theorem modTime_power (f s) : (modTime f s).power = s.power := (rfl)
@[simp] theorem modTime_start (f s) : (modTime f s).start = s.start := (rfl)
@[simp] theorem modTime_ctl (f s) : (modTime f s).ctl = s.ctl := (rfl)
@[simp] theorem modTime_opt (f s) : (modTime f s).opt = s.opt := (rfl)
@[simp] theorem modTime_time (f s) : (modTime f s).time = f s.time := (rfl)
@[simp] theorem modTime_link (f s) : (modTime f s).link = s.link := (rfl)
@[simp] theorem modTime_buf (f s) : (modTime f s).buf = s.buf := (rfl)
@[simp] theorem modTime_tbl (f s) : (modTime f s).tbl = s.tbl := (rfl)
@[simp] theorem modTime_sched (f s) : (modTime f s).sched = s.sched := (rfl)
@[simp] theorem modTime_loaf (f s) : (modTime f s).loaf = s.loaf := (rfl)
@[simp] theorem modTime_mgmt (f s) : (modTime f s).mgmt = s.mgmt := (rfl)
@[simp] theorem modTime_fab (f s) : (modTime f s).fab = s.fab := (rfl)
@[simp] theorem modTime_mill (f s) : (modTime f s).mill = s.mill := (rfl)
@[simp] theorem modTime_gran (f s) : (modTime f s).gran = s.gran := (rfl)
@[simp] theorem modTime_tele (f s) : (modTime f s).tele = s.tele := (rfl)
@[simp] theorem modTime_winnow (f s) : (modTime f s).winnow = s.winnow := (rfl)
@[simp] theorem modTime_rst (f s) : (modTime f s).rst = s.rst := (rfl)
@[simp] theorem modTime_clk (f s) : (modTime f s).clk = s.clk := (rfl)
@[simp] theorem modTime_free (f s) : (modTime f s).free = s.free := (rfl)
@[simp] theorem modTime_out (f s) : (modTime f s).out = s.out := (rfl)
@[simp] theorem modTime_sec (f s) : (modTime f s).sec = s.sec := (rfl)
@[simp] theorem modTime_pending (f s) : (modTime f s).pending = s.pending := (rfl)
@[simp] theorem modWinnow_power (f s) : (modWinnow f s).power = s.power := (rfl)
@[simp] theorem modWinnow_start (f s) : (modWinnow f s).start = s.start := (rfl)
@[simp] theorem modWinnow_ctl (f s) : (modWinnow f s).ctl = s.ctl := (rfl)
@[simp] theorem modWinnow_opt (f s) : (modWinnow f s).opt = s.opt := (rfl)
@[simp] theorem modWinnow_time (f s) : (modWinnow f s).time = s.time := (rfl)
@[simp] theorem modWinnow_link (f s) : (modWinnow f s).link = s.link := (rfl)
@[simp] theorem modWinnow_buf (f s) : (modWinnow f s).buf = s.buf := (rfl)
@[simp] theorem modWinnow_tbl (f s) : (modWinnow f s).tbl = s.tbl := (rfl)
@[simp] theorem modWinnow_sched (f s) : (modWinnow f s).sched = s.sched := (rfl)
@[simp] theorem modWinnow_loaf (f s) : (modWinnow f s).loaf = s.loaf := (rfl)
@[simp] theorem modWinnow_mgmt (f s) : (modWinnow f s).mgmt = s.mgmt := (rfl)
@[simp] theorem modWinnow_fab (f s) : (modWinnow f s).fab = s.fab := (rfl)
@[simp] theorem modWinnow_mill (f s) : (modWinnow f s).mill = s.mill := (rfl)
@[simp] theorem modWinnow_gran (f s) : (modWinnow f s).gran = s.gran := (rfl)
@[simp] theorem modWinnow_tele (f s) : (modWinnow f s).tele = s.tele := (rfl)
@[simp] theorem modWinnow_winnow (f s) : (modWinnow f s).winnow = f s.winnow := (rfl)
@[simp] theorem modWinnow_rst (f s) : (modWinnow f s).rst = s.rst := (rfl)
@[simp] theorem modWinnow_clk (f s) : (modWinnow f s).clk = s.clk := (rfl)
@[simp] theorem modWinnow_free (f s) : (modWinnow f s).free = s.free := (rfl)
@[simp] theorem modWinnow_out (f s) : (modWinnow f s).out = s.out := (rfl)
@[simp] theorem modWinnow_sec (f s) : (modWinnow f s).sec = s.sec := (rfl)
@[simp] theorem modWinnow_pending (f s) : (modWinnow f s).pending = s.pending := (rfl)
@[simp] theorem emit_power (x s) : (emit x s).power = s.power := (rfl)
@[simp] theorem emit_start (x s) : (emit x s).start = s.start := (rfl)
@[simp] theorem emit_ctl (x s) : (emit x s).ctl = s.ctl := (rfl)
@[simp] theorem emit_opt (x s) : (emit x s).opt = s.opt := (rfl)
@[simp] theorem emit_time (x s) : (emit x s).time = s.time := (rfl)
@[simp] theorem emit_link (x s) : (emit x s).link = s.link := (rfl)
@[simp] theorem emit_buf (x s) : (emit x s).buf = s.buf := (rfl)
@[simp] theorem emit_tbl (x s) : (emit x s).tbl = s.tbl := (rfl)
@[simp] theorem emit_sched (x s) : (emit x s).sched = s.sched := (rfl)
@[simp] theorem emit_loaf (x s) : (emit x s).loaf = s.loaf := (rfl)
@[simp] theorem emit_mgmt (x s) : (emit x s).mgmt = s.mgmt := (rfl)
@[simp] theorem emit_fab (x s) : (emit x s).fab = s.fab := (rfl)
@[simp] theorem emit_mill (x s) : (emit x s).mill = s.mill := (rfl)
@[simp] theorem emit_gran (x s) : (emit x s).gran = s.gran := (rfl)
@[simp] theorem emit_tele (x s) : (emit x s).tele = s.tele := (rfl)
@[simp] theorem emit_winnow (x s) : (emit x s).winnow = s.winnow := (rfl)
@[simp] theorem emit_rst (x s) : (emit x s).rst = s.rst := (rfl)
@[simp] theorem emit_clk (x s) : (emit x s).clk = s.clk := (rfl)
@[simp] theorem emit_free (x s) : (emit x s).free = s.free := (rfl)
@[simp] theorem emit_out (x s) : (emit x s).out = s.out ++ [x] := (rfl)
@[simp] theorem emit_sec (x s) : (emit x s).sec = s.sec := (rfl)
@[simp] theorem emit_pending (x s) : (emit x s).pending = s.pending := (rfl)
@[simp] theorem modIsland_power (i f s) : (modIsland i f s).power = s.power := (rfl)
@[simp] theorem modIsland_start (i f s) : (modIsland i f s).start = s.start := (rfl)
@[simp] theorem modIsland_ctl (i f s) : (modIsland i f s).ctl =
    { s.ctl with islands := tabMod islandReset f s.ctl.islands i } := (rfl)
@[simp] theorem modIsland_opt (i f s) : (modIsland i f s).opt = s.opt := (rfl)
@[simp] theorem modIsland_time (i f s) : (modIsland i f s).time = s.time := (rfl)
@[simp] theorem modIsland_link (i f s) : (modIsland i f s).link = s.link := (rfl)
@[simp] theorem modIsland_buf (i f s) : (modIsland i f s).buf = s.buf := (rfl)
@[simp] theorem modIsland_tbl (i f s) : (modIsland i f s).tbl = s.tbl := (rfl)
@[simp] theorem modIsland_sched (i f s) : (modIsland i f s).sched = s.sched := (rfl)
@[simp] theorem modIsland_loaf (i f s) : (modIsland i f s).loaf = s.loaf := (rfl)
@[simp] theorem modIsland_mgmt (i f s) : (modIsland i f s).mgmt = s.mgmt := (rfl)
@[simp] theorem modIsland_fab (i f s) : (modIsland i f s).fab = s.fab := (rfl)
@[simp] theorem modIsland_mill (i f s) : (modIsland i f s).mill = s.mill := (rfl)
@[simp] theorem modIsland_gran (i f s) : (modIsland i f s).gran = s.gran := (rfl)
@[simp] theorem modIsland_tele (i f s) : (modIsland i f s).tele = s.tele := (rfl)
@[simp] theorem modIsland_winnow (i f s) : (modIsland i f s).winnow = s.winnow := (rfl)
@[simp] theorem modIsland_rst (i f s) : (modIsland i f s).rst = s.rst := (rfl)
@[simp] theorem modIsland_clk (i f s) : (modIsland i f s).clk = s.clk := (rfl)
@[simp] theorem modIsland_free (i f s) : (modIsland i f s).free = s.free := (rfl)
@[simp] theorem modIsland_out (i f s) : (modIsland i f s).out = s.out := (rfl)
@[simp] theorem modIsland_sec (i f s) : (modIsland i f s).sec = s.sec := (rfl)
@[simp] theorem modIsland_pending (i f s) : (modIsland i f s).pending = s.pending := (rfl)
@[simp] theorem modLane_power (l f s) : (modLane l f s).power = s.power := (rfl)
@[simp] theorem modLane_start (l f s) : (modLane l f s).start = s.start := (rfl)
@[simp] theorem modLane_ctl (l f s) : (modLane l f s).ctl = s.ctl := (rfl)
@[simp] theorem modLane_opt (l f s) : (modLane l f s).opt = s.opt := (rfl)
@[simp] theorem modLane_time (l f s) : (modLane l f s).time = s.time := (rfl)
@[simp] theorem modLane_link (l f s) : (modLane l f s).link =
    { s.link with lanes := tabMod laneReset f s.link.lanes l } := (rfl)
@[simp] theorem modLane_buf (l f s) : (modLane l f s).buf = s.buf := (rfl)
@[simp] theorem modLane_tbl (l f s) : (modLane l f s).tbl = s.tbl := (rfl)
@[simp] theorem modLane_sched (l f s) : (modLane l f s).sched = s.sched := (rfl)
@[simp] theorem modLane_loaf (l f s) : (modLane l f s).loaf = s.loaf := (rfl)
@[simp] theorem modLane_mgmt (l f s) : (modLane l f s).mgmt = s.mgmt := (rfl)
@[simp] theorem modLane_fab (l f s) : (modLane l f s).fab = s.fab := (rfl)
@[simp] theorem modLane_mill (l f s) : (modLane l f s).mill = s.mill := (rfl)
@[simp] theorem modLane_gran (l f s) : (modLane l f s).gran = s.gran := (rfl)
@[simp] theorem modLane_tele (l f s) : (modLane l f s).tele = s.tele := (rfl)
@[simp] theorem modLane_winnow (l f s) : (modLane l f s).winnow = s.winnow := (rfl)
@[simp] theorem modLane_rst (l f s) : (modLane l f s).rst = s.rst := (rfl)
@[simp] theorem modLane_clk (l f s) : (modLane l f s).clk = s.clk := (rfl)
@[simp] theorem modLane_free (l f s) : (modLane l f s).free = s.free := (rfl)
@[simp] theorem modLane_out (l f s) : (modLane l f s).out = s.out := (rfl)
@[simp] theorem modLane_sec (l f s) : (modLane l f s).sec = s.sec := (rfl)
@[simp] theorem modLane_pending (l f s) : (modLane l f s).pending = s.pending := (rfl)
@[simp] theorem modPort_power (p f s) : (modPort p f s).power = s.power := (rfl)
@[simp] theorem modPort_start (p f s) : (modPort p f s).start = s.start := (rfl)
@[simp] theorem modPort_ctl (p f s) : (modPort p f s).ctl = s.ctl := (rfl)
@[simp] theorem modPort_opt (p f s) : (modPort p f s).opt = s.opt := (rfl)
@[simp] theorem modPort_time (p f s) : (modPort p f s).time = s.time := (rfl)
@[simp] theorem modPort_link (p f s) : (modPort p f s).link =
    { s.link with ports := tabMod portReset f s.link.ports p } := (rfl)
@[simp] theorem modPort_buf (p f s) : (modPort p f s).buf = s.buf := (rfl)
@[simp] theorem modPort_tbl (p f s) : (modPort p f s).tbl = s.tbl := (rfl)
@[simp] theorem modPort_sched (p f s) : (modPort p f s).sched = s.sched := (rfl)
@[simp] theorem modPort_loaf (p f s) : (modPort p f s).loaf = s.loaf := (rfl)
@[simp] theorem modPort_mgmt (p f s) : (modPort p f s).mgmt = s.mgmt := (rfl)
@[simp] theorem modPort_fab (p f s) : (modPort p f s).fab = s.fab := (rfl)
@[simp] theorem modPort_mill (p f s) : (modPort p f s).mill = s.mill := (rfl)
@[simp] theorem modPort_gran (p f s) : (modPort p f s).gran = s.gran := (rfl)
@[simp] theorem modPort_tele (p f s) : (modPort p f s).tele = s.tele := (rfl)
@[simp] theorem modPort_winnow (p f s) : (modPort p f s).winnow = s.winnow := (rfl)
@[simp] theorem modPort_rst (p f s) : (modPort p f s).rst = s.rst := (rfl)
@[simp] theorem modPort_clk (p f s) : (modPort p f s).clk = s.clk := (rfl)
@[simp] theorem modPort_free (p f s) : (modPort p f s).free = s.free := (rfl)
@[simp] theorem modPort_out (p f s) : (modPort p f s).out = s.out := (rfl)
@[simp] theorem modPort_sec (p f s) : (modPort p f s).sec = s.sec := (rfl)
@[simp] theorem modPort_pending (p f s) : (modPort p f s).pending = s.pending := (rfl)
@[simp] theorem modSlice_power (n f s) : (modSlice n f s).power = s.power := (rfl)
@[simp] theorem modSlice_start (n f s) : (modSlice n f s).start = s.start := (rfl)
@[simp] theorem modSlice_ctl (n f s) : (modSlice n f s).ctl = s.ctl := (rfl)
@[simp] theorem modSlice_opt (n f s) : (modSlice n f s).opt = s.opt := (rfl)
@[simp] theorem modSlice_time (n f s) : (modSlice n f s).time = s.time := (rfl)
@[simp] theorem modSlice_link (n f s) : (modSlice n f s).link = s.link := (rfl)
@[simp] theorem modSlice_buf (n f s) : (modSlice n f s).buf = s.buf := (rfl)
@[simp] theorem modSlice_tbl (n f s) : (modSlice n f s).tbl =
    { s.tbl with slices := tabMod sliceReset f s.tbl.slices n } := (rfl)
@[simp] theorem modSlice_sched (n f s) : (modSlice n f s).sched = s.sched := (rfl)
@[simp] theorem modSlice_loaf (n f s) : (modSlice n f s).loaf = s.loaf := (rfl)
@[simp] theorem modSlice_mgmt (n f s) : (modSlice n f s).mgmt = s.mgmt := (rfl)
@[simp] theorem modSlice_fab (n f s) : (modSlice n f s).fab = s.fab := (rfl)
@[simp] theorem modSlice_mill (n f s) : (modSlice n f s).mill = s.mill := (rfl)
@[simp] theorem modSlice_gran (n f s) : (modSlice n f s).gran = s.gran := (rfl)
@[simp] theorem modSlice_tele (n f s) : (modSlice n f s).tele = s.tele := (rfl)
@[simp] theorem modSlice_winnow (n f s) : (modSlice n f s).winnow = s.winnow := (rfl)
@[simp] theorem modSlice_rst (n f s) : (modSlice n f s).rst = s.rst := (rfl)
@[simp] theorem modSlice_clk (n f s) : (modSlice n f s).clk = s.clk := (rfl)
@[simp] theorem modSlice_free (n f s) : (modSlice n f s).free = s.free := (rfl)
@[simp] theorem modSlice_out (n f s) : (modSlice n f s).out = s.out := (rfl)
@[simp] theorem modSlice_sec (n f s) : (modSlice n f s).sec = s.sec := (rfl)
@[simp] theorem modSlice_pending (n f s) : (modSlice n f s).pending = s.pending := (rfl)
@[simp] theorem modGate_power (a r f s) : (modGate a r f s).power = s.power := (rfl)
@[simp] theorem modGate_start (a r f s) : (modGate a r f s).start = s.start := (rfl)
@[simp] theorem modGate_ctl (a r f s) : (modGate a r f s).ctl = s.ctl := (rfl)
@[simp] theorem modGate_opt (a r f s) : (modGate a r f s).opt = s.opt := (rfl)
@[simp] theorem modGate_time (a r f s) : (modGate a r f s).time = s.time := (rfl)
@[simp] theorem modGate_link (a r f s) : (modGate a r f s).link = s.link := (rfl)
@[simp] theorem modGate_buf (a r f s) : (modGate a r f s).buf = s.buf := (rfl)
@[simp] theorem modGate_tbl (a r f s) : (modGate a r f s).tbl = s.tbl := (rfl)
@[simp] theorem modGate_sched (a r f s) : (modGate a r f s).sched =
    { s.sched with gates := tabMod gateReset f s.sched.gates (a * 4 + r) } := (rfl)
@[simp] theorem modGate_loaf (a r f s) : (modGate a r f s).loaf = s.loaf := (rfl)
@[simp] theorem modGate_mgmt (a r f s) : (modGate a r f s).mgmt = s.mgmt := (rfl)
@[simp] theorem modGate_fab (a r f s) : (modGate a r f s).fab = s.fab := (rfl)
@[simp] theorem modGate_mill (a r f s) : (modGate a r f s).mill = s.mill := (rfl)
@[simp] theorem modGate_gran (a r f s) : (modGate a r f s).gran = s.gran := (rfl)
@[simp] theorem modGate_tele (a r f s) : (modGate a r f s).tele = s.tele := (rfl)
@[simp] theorem modGate_winnow (a r f s) : (modGate a r f s).winnow = s.winnow := (rfl)
@[simp] theorem modGate_rst (a r f s) : (modGate a r f s).rst = s.rst := (rfl)
@[simp] theorem modGate_clk (a r f s) : (modGate a r f s).clk = s.clk := (rfl)
@[simp] theorem modGate_free (a r f s) : (modGate a r f s).free = s.free := (rfl)
@[simp] theorem modGate_out (a r f s) : (modGate a r f s).out = s.out := (rfl)
@[simp] theorem modGate_sec (a r f s) : (modGate a r f s).sec = s.sec := (rfl)
@[simp] theorem modGate_pending (a r f s) : (modGate a r f s).pending = s.pending := (rfl)
@[simp] theorem modMailbox_power (n f s) : (modMailbox n f s).power = s.power := (rfl)
@[simp] theorem modMailbox_start (n f s) : (modMailbox n f s).start = s.start := (rfl)
@[simp] theorem modMailbox_ctl (n f s) : (modMailbox n f s).ctl = s.ctl := (rfl)
@[simp] theorem modMailbox_opt (n f s) : (modMailbox n f s).opt = s.opt := (rfl)
@[simp] theorem modMailbox_time (n f s) : (modMailbox n f s).time = s.time := (rfl)
@[simp] theorem modMailbox_link (n f s) : (modMailbox n f s).link = s.link := (rfl)
@[simp] theorem modMailbox_buf (n f s) : (modMailbox n f s).buf = s.buf := (rfl)
@[simp] theorem modMailbox_tbl (n f s) : (modMailbox n f s).tbl = s.tbl := (rfl)
@[simp] theorem modMailbox_sched (n f s) : (modMailbox n f s).sched = s.sched := (rfl)
@[simp] theorem modMailbox_loaf (n f s) : (modMailbox n f s).loaf = s.loaf := (rfl)
@[simp] theorem modMailbox_mgmt (n f s) : (modMailbox n f s).mgmt =
    { s.mgmt with mailboxes := tabMod mailboxReset f s.mgmt.mailboxes n } := (rfl)
@[simp] theorem modMailbox_fab (n f s) : (modMailbox n f s).fab = s.fab := (rfl)
@[simp] theorem modMailbox_mill (n f s) : (modMailbox n f s).mill = s.mill := (rfl)
@[simp] theorem modMailbox_gran (n f s) : (modMailbox n f s).gran = s.gran := (rfl)
@[simp] theorem modMailbox_tele (n f s) : (modMailbox n f s).tele = s.tele := (rfl)
@[simp] theorem modMailbox_winnow (n f s) : (modMailbox n f s).winnow = s.winnow := (rfl)
@[simp] theorem modMailbox_rst (n f s) : (modMailbox n f s).rst = s.rst := (rfl)
@[simp] theorem modMailbox_clk (n f s) : (modMailbox n f s).clk = s.clk := (rfl)
@[simp] theorem modMailbox_free (n f s) : (modMailbox n f s).free = s.free := (rfl)
@[simp] theorem modMailbox_out (n f s) : (modMailbox n f s).out = s.out := (rfl)
@[simp] theorem modMailbox_sec (n f s) : (modMailbox n f s).sec = s.sec := (rfl)
@[simp] theorem modMailbox_pending (n f s) : (modMailbox n f s).pending = s.pending := (rfl)
@[simp] theorem modEventQueue_power (n f s) : (modEventQueue n f s).power = s.power := (rfl)
@[simp] theorem modEventQueue_start (n f s) : (modEventQueue n f s).start = s.start := (rfl)
@[simp] theorem modEventQueue_ctl (n f s) : (modEventQueue n f s).ctl = s.ctl := (rfl)
@[simp] theorem modEventQueue_opt (n f s) : (modEventQueue n f s).opt = s.opt := (rfl)
@[simp] theorem modEventQueue_time (n f s) : (modEventQueue n f s).time = s.time := (rfl)
@[simp] theorem modEventQueue_link (n f s) : (modEventQueue n f s).link = s.link := (rfl)
@[simp] theorem modEventQueue_buf (n f s) : (modEventQueue n f s).buf = s.buf := (rfl)
@[simp] theorem modEventQueue_tbl (n f s) : (modEventQueue n f s).tbl = s.tbl := (rfl)
@[simp] theorem modEventQueue_sched (n f s) : (modEventQueue n f s).sched = s.sched := (rfl)
@[simp] theorem modEventQueue_loaf (n f s) : (modEventQueue n f s).loaf = s.loaf := (rfl)
@[simp] theorem modEventQueue_mgmt (n f s) : (modEventQueue n f s).mgmt =
    { s.mgmt with events := tabMod eventQueueReset f s.mgmt.events n } := (rfl)
@[simp] theorem modEventQueue_fab (n f s) : (modEventQueue n f s).fab = s.fab := (rfl)
@[simp] theorem modEventQueue_mill (n f s) : (modEventQueue n f s).mill = s.mill := (rfl)
@[simp] theorem modEventQueue_gran (n f s) : (modEventQueue n f s).gran = s.gran := (rfl)
@[simp] theorem modEventQueue_tele (n f s) : (modEventQueue n f s).tele = s.tele := (rfl)
@[simp] theorem modEventQueue_winnow (n f s) : (modEventQueue n f s).winnow = s.winnow := (rfl)
@[simp] theorem modEventQueue_rst (n f s) : (modEventQueue n f s).rst = s.rst := (rfl)
@[simp] theorem modEventQueue_clk (n f s) : (modEventQueue n f s).clk = s.clk := (rfl)
@[simp] theorem modEventQueue_free (n f s) : (modEventQueue n f s).free = s.free := (rfl)
@[simp] theorem modEventQueue_out (n f s) : (modEventQueue n f s).out = s.out := (rfl)
@[simp] theorem modEventQueue_sec (n f s) : (modEventQueue n f s).sec = s.sec := (rfl)
@[simp] theorem modEventQueue_pending (n f s) : (modEventQueue n f s).pending = s.pending := (rfl)
@[simp] theorem modRing_power (k f s) : (modRing k f s).power = s.power := (rfl)
@[simp] theorem modRing_start (k f s) : (modRing k f s).start = s.start := (rfl)
@[simp] theorem modRing_ctl (k f s) : (modRing k f s).ctl = s.ctl := (rfl)
@[simp] theorem modRing_opt (k f s) : (modRing k f s).opt =
    { s.opt with rings := tabMod ringReset f s.opt.rings k } := (rfl)
@[simp] theorem modRing_time (k f s) : (modRing k f s).time = s.time := (rfl)
@[simp] theorem modRing_link (k f s) : (modRing k f s).link = s.link := (rfl)
@[simp] theorem modRing_buf (k f s) : (modRing k f s).buf = s.buf := (rfl)
@[simp] theorem modRing_tbl (k f s) : (modRing k f s).tbl = s.tbl := (rfl)
@[simp] theorem modRing_sched (k f s) : (modRing k f s).sched = s.sched := (rfl)
@[simp] theorem modRing_loaf (k f s) : (modRing k f s).loaf = s.loaf := (rfl)
@[simp] theorem modRing_mgmt (k f s) : (modRing k f s).mgmt = s.mgmt := (rfl)
@[simp] theorem modRing_fab (k f s) : (modRing k f s).fab = s.fab := (rfl)
@[simp] theorem modRing_mill (k f s) : (modRing k f s).mill = s.mill := (rfl)
@[simp] theorem modRing_gran (k f s) : (modRing k f s).gran = s.gran := (rfl)
@[simp] theorem modRing_tele (k f s) : (modRing k f s).tele = s.tele := (rfl)
@[simp] theorem modRing_winnow (k f s) : (modRing k f s).winnow = s.winnow := (rfl)
@[simp] theorem modRing_rst (k f s) : (modRing k f s).rst = s.rst := (rfl)
@[simp] theorem modRing_clk (k f s) : (modRing k f s).clk = s.clk := (rfl)
@[simp] theorem modRing_free (k f s) : (modRing k f s).free = s.free := (rfl)
@[simp] theorem modRing_out (k f s) : (modRing k f s).out = s.out := (rfl)
@[simp] theorem modRing_sec (k f s) : (modRing k f s).sec = s.sec := (rfl)
@[simp] theorem modRing_pending (k f s) : (modRing k f s).pending = s.pending := (rfl)
@[simp] theorem modFibre_power (k f s) : (modFibre k f s).power = s.power := (rfl)
@[simp] theorem modFibre_start (k f s) : (modFibre k f s).start = s.start := (rfl)
@[simp] theorem modFibre_ctl (k f s) : (modFibre k f s).ctl = s.ctl := (rfl)
@[simp] theorem modFibre_opt (k f s) : (modFibre k f s).opt =
    { s.opt with fibres := tabMod fibreReset f s.opt.fibres k } := (rfl)
@[simp] theorem modFibre_time (k f s) : (modFibre k f s).time = s.time := (rfl)
@[simp] theorem modFibre_link (k f s) : (modFibre k f s).link = s.link := (rfl)
@[simp] theorem modFibre_buf (k f s) : (modFibre k f s).buf = s.buf := (rfl)
@[simp] theorem modFibre_tbl (k f s) : (modFibre k f s).tbl = s.tbl := (rfl)
@[simp] theorem modFibre_sched (k f s) : (modFibre k f s).sched = s.sched := (rfl)
@[simp] theorem modFibre_loaf (k f s) : (modFibre k f s).loaf = s.loaf := (rfl)
@[simp] theorem modFibre_mgmt (k f s) : (modFibre k f s).mgmt = s.mgmt := (rfl)
@[simp] theorem modFibre_fab (k f s) : (modFibre k f s).fab = s.fab := (rfl)
@[simp] theorem modFibre_mill (k f s) : (modFibre k f s).mill = s.mill := (rfl)
@[simp] theorem modFibre_gran (k f s) : (modFibre k f s).gran = s.gran := (rfl)
@[simp] theorem modFibre_tele (k f s) : (modFibre k f s).tele = s.tele := (rfl)
@[simp] theorem modFibre_winnow (k f s) : (modFibre k f s).winnow = s.winnow := (rfl)
@[simp] theorem modFibre_rst (k f s) : (modFibre k f s).rst = s.rst := (rfl)
@[simp] theorem modFibre_clk (k f s) : (modFibre k f s).clk = s.clk := (rfl)
@[simp] theorem modFibre_free (k f s) : (modFibre k f s).free = s.free := (rfl)
@[simp] theorem modFibre_out (k f s) : (modFibre k f s).out = s.out := (rfl)
@[simp] theorem modFibre_sec (k f s) : (modFibre k f s).sec = s.sec := (rfl)
@[simp] theorem modFibre_pending (k f s) : (modFibre k f s).pending = s.pending := (rfl)
@[simp] theorem modBay_power (b f s) : (modBay b f s).power = s.power := (rfl)
@[simp] theorem modBay_start (b f s) : (modBay b f s).start = s.start := (rfl)
@[simp] theorem modBay_ctl (b f s) : (modBay b f s).ctl = s.ctl := (rfl)
@[simp] theorem modBay_opt (b f s) : (modBay b f s).opt =
    { s.opt with bays := tabMod bayReset f s.opt.bays b } := (rfl)
@[simp] theorem modBay_time (b f s) : (modBay b f s).time = s.time := (rfl)
@[simp] theorem modBay_link (b f s) : (modBay b f s).link = s.link := (rfl)
@[simp] theorem modBay_buf (b f s) : (modBay b f s).buf = s.buf := (rfl)
@[simp] theorem modBay_tbl (b f s) : (modBay b f s).tbl = s.tbl := (rfl)
@[simp] theorem modBay_sched (b f s) : (modBay b f s).sched = s.sched := (rfl)
@[simp] theorem modBay_loaf (b f s) : (modBay b f s).loaf = s.loaf := (rfl)
@[simp] theorem modBay_mgmt (b f s) : (modBay b f s).mgmt = s.mgmt := (rfl)
@[simp] theorem modBay_fab (b f s) : (modBay b f s).fab = s.fab := (rfl)
@[simp] theorem modBay_mill (b f s) : (modBay b f s).mill = s.mill := (rfl)
@[simp] theorem modBay_gran (b f s) : (modBay b f s).gran = s.gran := (rfl)
@[simp] theorem modBay_tele (b f s) : (modBay b f s).tele = s.tele := (rfl)
@[simp] theorem modBay_winnow (b f s) : (modBay b f s).winnow = s.winnow := (rfl)
@[simp] theorem modBay_rst (b f s) : (modBay b f s).rst = s.rst := (rfl)
@[simp] theorem modBay_clk (b f s) : (modBay b f s).clk = s.clk := (rfl)
@[simp] theorem modBay_free (b f s) : (modBay b f s).free = s.free := (rfl)
@[simp] theorem modBay_out (b f s) : (modBay b f s).out = s.out := (rfl)
@[simp] theorem modBay_sec (b f s) : (modBay b f s).sec = s.sec := (rfl)
@[simp] theorem modBay_pending (b f s) : (modBay b f s).pending = s.pending := (rfl)
@[simp] theorem modFade_power (e k f s) : (modFade e k f s).power = s.power := (rfl)
@[simp] theorem modFade_start (e k f s) : (modFade e k f s).start = s.start := (rfl)
@[simp] theorem modFade_ctl (e k f s) : (modFade e k f s).ctl = s.ctl := (rfl)
@[simp] theorem modFade_opt (e k f s) : (modFade e k f s).opt =
    { s.opt with fades := tabMod fadeReset f s.opt.fades (e * 8 + k) } := (rfl)
@[simp] theorem modFade_time (e k f s) : (modFade e k f s).time = s.time := (rfl)
@[simp] theorem modFade_link (e k f s) : (modFade e k f s).link = s.link := (rfl)
@[simp] theorem modFade_buf (e k f s) : (modFade e k f s).buf = s.buf := (rfl)
@[simp] theorem modFade_tbl (e k f s) : (modFade e k f s).tbl = s.tbl := (rfl)
@[simp] theorem modFade_sched (e k f s) : (modFade e k f s).sched = s.sched := (rfl)
@[simp] theorem modFade_loaf (e k f s) : (modFade e k f s).loaf = s.loaf := (rfl)
@[simp] theorem modFade_mgmt (e k f s) : (modFade e k f s).mgmt = s.mgmt := (rfl)
@[simp] theorem modFade_fab (e k f s) : (modFade e k f s).fab = s.fab := (rfl)
@[simp] theorem modFade_mill (e k f s) : (modFade e k f s).mill = s.mill := (rfl)
@[simp] theorem modFade_gran (e k f s) : (modFade e k f s).gran = s.gran := (rfl)
@[simp] theorem modFade_tele (e k f s) : (modFade e k f s).tele = s.tele := (rfl)
@[simp] theorem modFade_winnow (e k f s) : (modFade e k f s).winnow = s.winnow := (rfl)
@[simp] theorem modFade_rst (e k f s) : (modFade e k f s).rst = s.rst := (rfl)
@[simp] theorem modFade_clk (e k f s) : (modFade e k f s).clk = s.clk := (rfl)
@[simp] theorem modFade_free (e k f s) : (modFade e k f s).free = s.free := (rfl)
@[simp] theorem modFade_out (e k f s) : (modFade e k f s).out = s.out := (rfl)
@[simp] theorem modFade_sec (e k f s) : (modFade e k f s).sec = s.sec := (rfl)
@[simp] theorem modFade_pending (e k f s) : (modFade e k f s).pending = s.pending := (rfl)
@[simp] theorem modSched_power (p f s) : (modSched p f s).power = s.power := (rfl)
@[simp] theorem modSched_start (p f s) : (modSched p f s).start = s.start := (rfl)
@[simp] theorem modSched_ctl (p f s) : (modSched p f s).ctl = s.ctl := (rfl)
@[simp] theorem modSched_opt (p f s) : (modSched p f s).opt = s.opt := (rfl)
@[simp] theorem modSched_time (p f s) : (modSched p f s).time = s.time := (rfl)
@[simp] theorem modSched_link (p f s) : (modSched p f s).link = s.link := (rfl)
@[simp] theorem modSched_buf (p f s) : (modSched p f s).buf = s.buf := (rfl)
@[simp] theorem modSched_tbl (p f s) : (modSched p f s).tbl = s.tbl := (rfl)
@[simp] theorem modSched_sched (p f s) : (modSched p f s).sched =
    { s.sched with scheds := tabMod schedReset f s.sched.scheds p } := (rfl)
@[simp] theorem modSched_loaf (p f s) : (modSched p f s).loaf = s.loaf := (rfl)
@[simp] theorem modSched_mgmt (p f s) : (modSched p f s).mgmt = s.mgmt := (rfl)
@[simp] theorem modSched_fab (p f s) : (modSched p f s).fab = s.fab := (rfl)
@[simp] theorem modSched_mill (p f s) : (modSched p f s).mill = s.mill := (rfl)
@[simp] theorem modSched_gran (p f s) : (modSched p f s).gran = s.gran := (rfl)
@[simp] theorem modSched_tele (p f s) : (modSched p f s).tele = s.tele := (rfl)
@[simp] theorem modSched_winnow (p f s) : (modSched p f s).winnow = s.winnow := (rfl)
@[simp] theorem modSched_rst (p f s) : (modSched p f s).rst = s.rst := (rfl)
@[simp] theorem modSched_clk (p f s) : (modSched p f s).clk = s.clk := (rfl)
@[simp] theorem modSched_free (p f s) : (modSched p f s).free = s.free := (rfl)
@[simp] theorem modSched_out (p f s) : (modSched p f s).out = s.out := (rfl)
@[simp] theorem modSched_sec (p f s) : (modSched p f s).sec = s.sec := (rfl)
@[simp] theorem modSched_pending (p f s) : (modSched p f s).pending = s.pending := (rfl)
@[simp] theorem modChannel_power (c f s) : (modChannel c f s).power = s.power := (rfl)
@[simp] theorem modChannel_start (c f s) : (modChannel c f s).start = s.start := (rfl)
@[simp] theorem modChannel_ctl (c f s) : (modChannel c f s).ctl = s.ctl := (rfl)
@[simp] theorem modChannel_opt (c f s) : (modChannel c f s).opt = s.opt := (rfl)
@[simp] theorem modChannel_time (c f s) : (modChannel c f s).time = s.time := (rfl)
@[simp] theorem modChannel_link (c f s) : (modChannel c f s).link = s.link := (rfl)
@[simp] theorem modChannel_buf (c f s) : (modChannel c f s).buf = s.buf := (rfl)
@[simp] theorem modChannel_tbl (c f s) : (modChannel c f s).tbl = s.tbl := (rfl)
@[simp] theorem modChannel_sched (c f s) : (modChannel c f s).sched = s.sched := (rfl)
@[simp] theorem modChannel_loaf (c f s) : (modChannel c f s).loaf = s.loaf := (rfl)
@[simp] theorem modChannel_mgmt (c f s) : (modChannel c f s).mgmt = s.mgmt := (rfl)
@[simp] theorem modChannel_fab (c f s) : (modChannel c f s).fab = s.fab := (rfl)
@[simp] theorem modChannel_mill (c f s) : (modChannel c f s).mill = s.mill := (rfl)
@[simp] theorem modChannel_gran (c f s) : (modChannel c f s).gran =
    { s.gran with channels := tabMod channelReset f s.gran.channels c } := (rfl)
@[simp] theorem modChannel_tele (c f s) : (modChannel c f s).tele = s.tele := (rfl)
@[simp] theorem modChannel_winnow (c f s) : (modChannel c f s).winnow = s.winnow := (rfl)
@[simp] theorem modChannel_rst (c f s) : (modChannel c f s).rst = s.rst := (rfl)
@[simp] theorem modChannel_clk (c f s) : (modChannel c f s).clk = s.clk := (rfl)
@[simp] theorem modChannel_free (c f s) : (modChannel c f s).free = s.free := (rfl)
@[simp] theorem modChannel_out (c f s) : (modChannel c f s).out = s.out := (rfl)
@[simp] theorem modChannel_sec (c f s) : (modChannel c f s).sec = s.sec := (rfl)
@[simp] theorem modChannel_pending (c f s) : (modChannel c f s).pending = s.pending := (rfl)
@[simp] theorem modEntries_power (n f s) : (modEntries n f s).power = s.power := (rfl)
@[simp] theorem modEntries_start (n f s) : (modEntries n f s).start = s.start := (rfl)
@[simp] theorem modEntries_ctl (n f s) : (modEntries n f s).ctl = s.ctl := (rfl)
@[simp] theorem modEntries_opt (n f s) : (modEntries n f s).opt = s.opt := (rfl)
@[simp] theorem modEntries_time (n f s) : (modEntries n f s).time = s.time := (rfl)
@[simp] theorem modEntries_link (n f s) : (modEntries n f s).link = s.link := (rfl)
@[simp] theorem modEntries_buf (n f s) : (modEntries n f s).buf =
    { s.buf with entries := tabMod (fun _ => (0, 0)) f s.buf.entries n } := (rfl)
@[simp] theorem modEntries_tbl (n f s) : (modEntries n f s).tbl = s.tbl := (rfl)
@[simp] theorem modEntries_sched (n f s) : (modEntries n f s).sched = s.sched := (rfl)
@[simp] theorem modEntries_loaf (n f s) : (modEntries n f s).loaf = s.loaf := (rfl)
@[simp] theorem modEntries_mgmt (n f s) : (modEntries n f s).mgmt = s.mgmt := (rfl)
@[simp] theorem modEntries_fab (n f s) : (modEntries n f s).fab = s.fab := (rfl)
@[simp] theorem modEntries_mill (n f s) : (modEntries n f s).mill = s.mill := (rfl)
@[simp] theorem modEntries_gran (n f s) : (modEntries n f s).gran = s.gran := (rfl)
@[simp] theorem modEntries_tele (n f s) : (modEntries n f s).tele = s.tele := (rfl)
@[simp] theorem modEntries_winnow (n f s) : (modEntries n f s).winnow = s.winnow := (rfl)
@[simp] theorem modEntries_rst (n f s) : (modEntries n f s).rst = s.rst := (rfl)
@[simp] theorem modEntries_clk (n f s) : (modEntries n f s).clk = s.clk := (rfl)
@[simp] theorem modEntries_free (n f s) : (modEntries n f s).free = s.free := (rfl)
@[simp] theorem modEntries_out (n f s) : (modEntries n f s).out = s.out := (rfl)
@[simp] theorem modEntries_sec (n f s) : (modEntries n f s).sec = s.sec := (rfl)
@[simp] theorem modEntries_pending (n f s) : (modEntries n f s).pending = s.pending := (rfl)
@[simp] theorem modCircuit_power (id f s) : (modCircuit id f s).power = s.power := by unfold modCircuit; split <;> rfl
@[simp] theorem modCircuit_start (id f s) : (modCircuit id f s).start = s.start := by unfold modCircuit; split <;> rfl
@[simp] theorem modCircuit_ctl (id f s) : (modCircuit id f s).ctl = s.ctl := by unfold modCircuit; split <;> rfl
@[simp] theorem modCircuit_time (id f s) : (modCircuit id f s).time = s.time := by unfold modCircuit; split <;> rfl
@[simp] theorem modCircuit_link (id f s) : (modCircuit id f s).link = s.link := by unfold modCircuit; split <;> rfl
@[simp] theorem modCircuit_buf (id f s) : (modCircuit id f s).buf = s.buf := by unfold modCircuit; split <;> rfl
@[simp] theorem modCircuit_tbl (id f s) : (modCircuit id f s).tbl = s.tbl := by unfold modCircuit; split <;> rfl
@[simp] theorem modCircuit_sched (id f s) : (modCircuit id f s).sched = s.sched := by unfold modCircuit; split <;> rfl
@[simp] theorem modCircuit_loaf (id f s) : (modCircuit id f s).loaf = s.loaf := by unfold modCircuit; split <;> rfl
@[simp] theorem modCircuit_mgmt (id f s) : (modCircuit id f s).mgmt = s.mgmt := by unfold modCircuit; split <;> rfl
@[simp] theorem modCircuit_fab (id f s) : (modCircuit id f s).fab = s.fab := by unfold modCircuit; split <;> rfl
@[simp] theorem modCircuit_mill (id f s) : (modCircuit id f s).mill = s.mill := by unfold modCircuit; split <;> rfl
@[simp] theorem modCircuit_gran (id f s) : (modCircuit id f s).gran = s.gran := by unfold modCircuit; split <;> rfl
@[simp] theorem modCircuit_tele (id f s) : (modCircuit id f s).tele = s.tele := by unfold modCircuit; split <;> rfl
@[simp] theorem modCircuit_winnow (id f s) : (modCircuit id f s).winnow =
    s.winnow := by unfold modCircuit; split <;> rfl
@[simp] theorem modCircuit_rst (id f s) : (modCircuit id f s).rst = s.rst := by unfold modCircuit; split <;> rfl
@[simp] theorem modCircuit_clk (id f s) : (modCircuit id f s).clk = s.clk := by unfold modCircuit; split <;> rfl
@[simp] theorem modCircuit_free (id f s) : (modCircuit id f s).free = s.free := by unfold modCircuit; split <;> rfl
@[simp] theorem modCircuit_out (id f s) : (modCircuit id f s).out = s.out := by unfold modCircuit; split <;> rfl
@[simp] theorem modCircuit_sec (id f s) : (modCircuit id f s).sec = s.sec := by unfold modCircuit; split <;> rfl
@[simp] theorem modCircuit_pending (id f s) : (modCircuit id f s).pending =
    s.pending := by unfold modCircuit; split <;> rfl
@[simp] theorem modRegion_power (r f s) : (modRegion r f s).power = s.power := by unfold modRegion; split <;> rfl
@[simp] theorem modRegion_start (r f s) : (modRegion r f s).start = s.start := by unfold modRegion; split <;> rfl
@[simp] theorem modRegion_ctl (r f s) : (modRegion r f s).ctl = s.ctl := by unfold modRegion; split <;> rfl
@[simp] theorem modRegion_opt (r f s) : (modRegion r f s).opt = s.opt := by unfold modRegion; split <;> rfl
@[simp] theorem modRegion_time (r f s) : (modRegion r f s).time = s.time := by unfold modRegion; split <;> rfl
@[simp] theorem modRegion_link (r f s) : (modRegion r f s).link = s.link := by unfold modRegion; split <;> rfl
@[simp] theorem modRegion_buf (r f s) : (modRegion r f s).buf = s.buf := by unfold modRegion; split <;> rfl
@[simp] theorem modRegion_tbl (r f s) : (modRegion r f s).tbl = s.tbl := by unfold modRegion; split <;> rfl
@[simp] theorem modRegion_sched (r f s) : (modRegion r f s).sched = s.sched := by unfold modRegion; split <;> rfl
@[simp] theorem modRegion_loaf (r f s) : (modRegion r f s).loaf = s.loaf := by unfold modRegion; split <;> rfl
@[simp] theorem modRegion_mgmt (r f s) : (modRegion r f s).mgmt = s.mgmt := by unfold modRegion; split <;> rfl
@[simp] theorem modRegion_fab (r f s) : (modRegion r f s).fab = s.fab := by unfold modRegion; split <;> rfl
@[simp] theorem modRegion_mill (r f s) : (modRegion r f s).mill = s.mill := by unfold modRegion; split <;> rfl
@[simp] theorem modRegion_tele (r f s) : (modRegion r f s).tele = s.tele := by unfold modRegion; split <;> rfl
@[simp] theorem modRegion_winnow (r f s) : (modRegion r f s).winnow = s.winnow := by unfold modRegion; split <;> rfl
@[simp] theorem modRegion_rst (r f s) : (modRegion r f s).rst = s.rst := by unfold modRegion; split <;> rfl
@[simp] theorem modRegion_clk (r f s) : (modRegion r f s).clk = s.clk := by unfold modRegion; split <;> rfl
@[simp] theorem modRegion_free (r f s) : (modRegion r f s).free = s.free := by unfold modRegion; split <;> rfl
@[simp] theorem modRegion_out (r f s) : (modRegion r f s).out = s.out := by unfold modRegion; split <;> rfl
@[simp] theorem modRegion_sec (r f s) : (modRegion r f s).sec = s.sec := by unfold modRegion; split <;> rfl
@[simp] theorem modRegion_pending (r f s) : (modRegion r f s).pending =
    s.pending := by unfold modRegion; split <;> rfl
@[simp] theorem modGrist_power (n f s) : (modGrist n f s).power = s.power := by unfold modGrist; split <;> rfl
@[simp] theorem modGrist_start (n f s) : (modGrist n f s).start = s.start := by unfold modGrist; split <;> rfl
@[simp] theorem modGrist_ctl (n f s) : (modGrist n f s).ctl = s.ctl := by unfold modGrist; split <;> rfl
@[simp] theorem modGrist_opt (n f s) : (modGrist n f s).opt = s.opt := by unfold modGrist; split <;> rfl
@[simp] theorem modGrist_time (n f s) : (modGrist n f s).time = s.time := by unfold modGrist; split <;> rfl
@[simp] theorem modGrist_link (n f s) : (modGrist n f s).link = s.link := by unfold modGrist; split <;> rfl
@[simp] theorem modGrist_buf (n f s) : (modGrist n f s).buf = s.buf := by unfold modGrist; split <;> rfl
@[simp] theorem modGrist_tbl (n f s) : (modGrist n f s).tbl = s.tbl := by unfold modGrist; split <;> rfl
@[simp] theorem modGrist_sched (n f s) : (modGrist n f s).sched = s.sched := by unfold modGrist; split <;> rfl
@[simp] theorem modGrist_loaf (n f s) : (modGrist n f s).loaf = s.loaf := by unfold modGrist; split <;> rfl
@[simp] theorem modGrist_mgmt (n f s) : (modGrist n f s).mgmt = s.mgmt := by unfold modGrist; split <;> rfl
@[simp] theorem modGrist_fab (n f s) : (modGrist n f s).fab = s.fab := by unfold modGrist; split <;> rfl
@[simp] theorem modGrist_mill (n f s) : (modGrist n f s).mill = s.mill := by unfold modGrist; split <;> rfl
@[simp] theorem modGrist_tele (n f s) : (modGrist n f s).tele = s.tele := by unfold modGrist; split <;> rfl
@[simp] theorem modGrist_winnow (n f s) : (modGrist n f s).winnow = s.winnow := by unfold modGrist; split <;> rfl
@[simp] theorem modGrist_rst (n f s) : (modGrist n f s).rst = s.rst := by unfold modGrist; split <;> rfl
@[simp] theorem modGrist_clk (n f s) : (modGrist n f s).clk = s.clk := by unfold modGrist; split <;> rfl
@[simp] theorem modGrist_free (n f s) : (modGrist n f s).free = s.free := by unfold modGrist; split <;> rfl
@[simp] theorem modGrist_out (n f s) : (modGrist n f s).out = s.out := by unfold modGrist; split <;> rfl
@[simp] theorem modGrist_sec (n f s) : (modGrist n f s).sec = s.sec := by unfold modGrist; split <;> rfl
@[simp] theorem modGrist_pending (n f s) : (modGrist n f s).pending = s.pending := by unfold modGrist; split <;> rfl
@[simp] theorem modCtx_power (k f s) : (modCtx k f s).power = s.power := by unfold modCtx; split <;> rfl
@[simp] theorem modCtx_start (k f s) : (modCtx k f s).start = s.start := by unfold modCtx; split <;> rfl
@[simp] theorem modCtx_ctl (k f s) : (modCtx k f s).ctl = s.ctl := by unfold modCtx; split <;> rfl
@[simp] theorem modCtx_opt (k f s) : (modCtx k f s).opt = s.opt := by unfold modCtx; split <;> rfl
@[simp] theorem modCtx_time (k f s) : (modCtx k f s).time = s.time := by unfold modCtx; split <;> rfl
@[simp] theorem modCtx_link (k f s) : (modCtx k f s).link = s.link := by unfold modCtx; split <;> rfl
@[simp] theorem modCtx_buf (k f s) : (modCtx k f s).buf = s.buf := by unfold modCtx; split <;> rfl
@[simp] theorem modCtx_tbl (k f s) : (modCtx k f s).tbl = s.tbl := by unfold modCtx; split <;> rfl
@[simp] theorem modCtx_sched (k f s) : (modCtx k f s).sched = s.sched := by unfold modCtx; split <;> rfl
@[simp] theorem modCtx_mgmt (k f s) : (modCtx k f s).mgmt = s.mgmt := by unfold modCtx; split <;> rfl
@[simp] theorem modCtx_fab (k f s) : (modCtx k f s).fab = s.fab := by unfold modCtx; split <;> rfl
@[simp] theorem modCtx_mill (k f s) : (modCtx k f s).mill = s.mill := by unfold modCtx; split <;> rfl
@[simp] theorem modCtx_gran (k f s) : (modCtx k f s).gran = s.gran := by unfold modCtx; split <;> rfl
@[simp] theorem modCtx_tele (k f s) : (modCtx k f s).tele = s.tele := by unfold modCtx; split <;> rfl
@[simp] theorem modCtx_winnow (k f s) : (modCtx k f s).winnow = s.winnow := by unfold modCtx; split <;> rfl
@[simp] theorem modCtx_rst (k f s) : (modCtx k f s).rst = s.rst := by unfold modCtx; split <;> rfl
@[simp] theorem modCtx_clk (k f s) : (modCtx k f s).clk = s.clk := by unfold modCtx; split <;> rfl
@[simp] theorem modCtx_free (k f s) : (modCtx k f s).free = s.free := by unfold modCtx; split <;> rfl
@[simp] theorem modCtx_out (k f s) : (modCtx k f s).out = s.out := by unfold modCtx; split <;> rfl
@[simp] theorem modCtx_sec (k f s) : (modCtx k f s).sec = s.sec := by unfold modCtx; split <;> rfl
@[simp] theorem modCtx_pending (k f s) : (modCtx k f s).pending = s.pending := by unfold modCtx; split <;> rfl
@[simp] theorem modHeld_power (g r f s) : (modHeld g r f s).power = s.power := by unfold modHeld; split <;> rfl
@[simp] theorem modHeld_start (g r f s) : (modHeld g r f s).start = s.start := by unfold modHeld; split <;> rfl
@[simp] theorem modHeld_ctl (g r f s) : (modHeld g r f s).ctl = s.ctl := by unfold modHeld; split <;> rfl
@[simp] theorem modHeld_opt (g r f s) : (modHeld g r f s).opt = s.opt := by unfold modHeld; split <;> rfl
@[simp] theorem modHeld_time (g r f s) : (modHeld g r f s).time = s.time := by unfold modHeld; split <;> rfl
@[simp] theorem modHeld_link (g r f s) : (modHeld g r f s).link = s.link := by unfold modHeld; split <;> rfl
@[simp] theorem modHeld_buf (g r f s) : (modHeld g r f s).buf = s.buf := by unfold modHeld; split <;> rfl
@[simp] theorem modHeld_tbl (g r f s) : (modHeld g r f s).tbl = s.tbl := by unfold modHeld; split <;> rfl
@[simp] theorem modHeld_sched (g r f s) : (modHeld g r f s).sched = s.sched := by unfold modHeld; split <;> rfl
@[simp] theorem modHeld_mgmt (g r f s) : (modHeld g r f s).mgmt = s.mgmt := by unfold modHeld; split <;> rfl
@[simp] theorem modHeld_fab (g r f s) : (modHeld g r f s).fab = s.fab := by unfold modHeld; split <;> rfl
@[simp] theorem modHeld_mill (g r f s) : (modHeld g r f s).mill = s.mill := by unfold modHeld; split <;> rfl
@[simp] theorem modHeld_gran (g r f s) : (modHeld g r f s).gran = s.gran := by unfold modHeld; split <;> rfl
@[simp] theorem modHeld_tele (g r f s) : (modHeld g r f s).tele = s.tele := by unfold modHeld; split <;> rfl
@[simp] theorem modHeld_winnow (g r f s) : (modHeld g r f s).winnow = s.winnow := by unfold modHeld; split <;> rfl
@[simp] theorem modHeld_rst (g r f s) : (modHeld g r f s).rst = s.rst := by unfold modHeld; split <;> rfl
@[simp] theorem modHeld_clk (g r f s) : (modHeld g r f s).clk = s.clk := by unfold modHeld; split <;> rfl
@[simp] theorem modHeld_free (g r f s) : (modHeld g r f s).free = s.free := by unfold modHeld; split <;> rfl
@[simp] theorem modHeld_out (g r f s) : (modHeld g r f s).out = s.out := by unfold modHeld; split <;> rfl
@[simp] theorem modHeld_sec (g r f s) : (modHeld g r f s).sec = s.sec := by unfold modHeld; split <;> rfl
@[simp] theorem modHeld_pending (g r f s) : (modHeld g r f s).pending = s.pending := by unfold modHeld; split <;> rfl
@[simp] theorem modDctx_power (c f s) : (modDctx c f s).power = s.power := by unfold modDctx; split <;> rfl
@[simp] theorem modDctx_start (c f s) : (modDctx c f s).start = s.start := by unfold modDctx; split <;> rfl
@[simp] theorem modDctx_ctl (c f s) : (modDctx c f s).ctl = s.ctl := by unfold modDctx; split <;> rfl
@[simp] theorem modDctx_opt (c f s) : (modDctx c f s).opt = s.opt := by unfold modDctx; split <;> rfl
@[simp] theorem modDctx_time (c f s) : (modDctx c f s).time = s.time := by unfold modDctx; split <;> rfl
@[simp] theorem modDctx_link (c f s) : (modDctx c f s).link = s.link := by unfold modDctx; split <;> rfl
@[simp] theorem modDctx_buf (c f s) : (modDctx c f s).buf = s.buf := by unfold modDctx; split <;> rfl
@[simp] theorem modDctx_tbl (c f s) : (modDctx c f s).tbl = s.tbl := by unfold modDctx; split <;> rfl
@[simp] theorem modDctx_sched (c f s) : (modDctx c f s).sched = s.sched := by unfold modDctx; split <;> rfl
@[simp] theorem modDctx_loaf (c f s) : (modDctx c f s).loaf = s.loaf := by unfold modDctx; split <;> rfl
@[simp] theorem modDctx_mgmt (c f s) : (modDctx c f s).mgmt = s.mgmt := by unfold modDctx; split <;> rfl
@[simp] theorem modDctx_fab (c f s) : (modDctx c f s).fab = s.fab := by unfold modDctx; split <;> rfl
@[simp] theorem modDctx_gran (c f s) : (modDctx c f s).gran = s.gran := by unfold modDctx; split <;> rfl
@[simp] theorem modDctx_tele (c f s) : (modDctx c f s).tele = s.tele := by unfold modDctx; split <;> rfl
@[simp] theorem modDctx_winnow (c f s) : (modDctx c f s).winnow = s.winnow := by unfold modDctx; split <;> rfl
@[simp] theorem modDctx_rst (c f s) : (modDctx c f s).rst = s.rst := by unfold modDctx; split <;> rfl
@[simp] theorem modDctx_clk (c f s) : (modDctx c f s).clk = s.clk := by unfold modDctx; split <;> rfl
@[simp] theorem modDctx_free (c f s) : (modDctx c f s).free = s.free := by unfold modDctx; split <;> rfl
@[simp] theorem modDctx_out (c f s) : (modDctx c f s).out = s.out := by unfold modDctx; split <;> rfl
@[simp] theorem modDctx_sec (c f s) : (modDctx c f s).sec = s.sec := by unfold modDctx; split <;> rfl
@[simp] theorem modDctx_pending (c f s) : (modDctx c f s).pending = s.pending := by unfold modDctx; split <;> rfl
@[simp] theorem modProgram_power (n f s) : (modProgram n f s).power = s.power := by unfold modProgram; split <;> rfl
@[simp] theorem modProgram_start (n f s) : (modProgram n f s).start = s.start := by unfold modProgram; split <;> rfl
@[simp] theorem modProgram_ctl (n f s) : (modProgram n f s).ctl = s.ctl := by unfold modProgram; split <;> rfl
@[simp] theorem modProgram_opt (n f s) : (modProgram n f s).opt = s.opt := by unfold modProgram; split <;> rfl
@[simp] theorem modProgram_time (n f s) : (modProgram n f s).time = s.time := by unfold modProgram; split <;> rfl
@[simp] theorem modProgram_link (n f s) : (modProgram n f s).link = s.link := by unfold modProgram; split <;> rfl
@[simp] theorem modProgram_buf (n f s) : (modProgram n f s).buf = s.buf := by unfold modProgram; split <;> rfl
@[simp] theorem modProgram_tbl (n f s) : (modProgram n f s).tbl = s.tbl := by unfold modProgram; split <;> rfl
@[simp] theorem modProgram_sched (n f s) : (modProgram n f s).sched = s.sched := by unfold modProgram; split <;> rfl
@[simp] theorem modProgram_loaf (n f s) : (modProgram n f s).loaf = s.loaf := by unfold modProgram; split <;> rfl
@[simp] theorem modProgram_mgmt (n f s) : (modProgram n f s).mgmt = s.mgmt := by unfold modProgram; split <;> rfl
@[simp] theorem modProgram_fab (n f s) : (modProgram n f s).fab = s.fab := by unfold modProgram; split <;> rfl
@[simp] theorem modProgram_gran (n f s) : (modProgram n f s).gran = s.gran := by unfold modProgram; split <;> rfl
@[simp] theorem modProgram_tele (n f s) : (modProgram n f s).tele = s.tele := by unfold modProgram; split <;> rfl
@[simp] theorem modProgram_winnow (n f s) : (modProgram n f s).winnow =
    s.winnow := by unfold modProgram; split <;> rfl
@[simp] theorem modProgram_rst (n f s) : (modProgram n f s).rst = s.rst := by unfold modProgram; split <;> rfl
@[simp] theorem modProgram_clk (n f s) : (modProgram n f s).clk = s.clk := by unfold modProgram; split <;> rfl
@[simp] theorem modProgram_free (n f s) : (modProgram n f s).free = s.free := by unfold modProgram; split <;> rfl
@[simp] theorem modProgram_out (n f s) : (modProgram n f s).out = s.out := by unfold modProgram; split <;> rfl
@[simp] theorem modProgram_sec (n f s) : (modProgram n f s).sec = s.sec := by unfold modProgram; split <;> rfl
@[simp] theorem modProgram_pending (n f s) : (modProgram n f s).pending =
    s.pending := by unfold modProgram; split <;> rfl
@[simp] theorem modStored_power (n f s) : (modStored n f s).power = s.power := by unfold modStored; split <;> rfl
@[simp] theorem modStored_start (n f s) : (modStored n f s).start = s.start := by unfold modStored; split <;> rfl
@[simp] theorem modStored_ctl (n f s) : (modStored n f s).ctl = s.ctl := by unfold modStored; split <;> rfl
@[simp] theorem modStored_opt (n f s) : (modStored n f s).opt = s.opt := by unfold modStored; split <;> rfl
@[simp] theorem modStored_time (n f s) : (modStored n f s).time = s.time := by unfold modStored; split <;> rfl
@[simp] theorem modStored_link (n f s) : (modStored n f s).link = s.link := by unfold modStored; split <;> rfl
@[simp] theorem modStored_tbl (n f s) : (modStored n f s).tbl = s.tbl := by unfold modStored; split <;> rfl
@[simp] theorem modStored_sched (n f s) : (modStored n f s).sched = s.sched := by unfold modStored; split <;> rfl
@[simp] theorem modStored_loaf (n f s) : (modStored n f s).loaf = s.loaf := by unfold modStored; split <;> rfl
@[simp] theorem modStored_mgmt (n f s) : (modStored n f s).mgmt = s.mgmt := by unfold modStored; split <;> rfl
@[simp] theorem modStored_fab (n f s) : (modStored n f s).fab = s.fab := by unfold modStored; split <;> rfl
@[simp] theorem modStored_mill (n f s) : (modStored n f s).mill = s.mill := by unfold modStored; split <;> rfl
@[simp] theorem modStored_gran (n f s) : (modStored n f s).gran = s.gran := by unfold modStored; split <;> rfl
@[simp] theorem modStored_tele (n f s) : (modStored n f s).tele = s.tele := by unfold modStored; split <;> rfl
@[simp] theorem modStored_winnow (n f s) : (modStored n f s).winnow = s.winnow := by unfold modStored; split <;> rfl
@[simp] theorem modStored_rst (n f s) : (modStored n f s).rst = s.rst := by unfold modStored; split <;> rfl
@[simp] theorem modStored_clk (n f s) : (modStored n f s).clk = s.clk := by unfold modStored; split <;> rfl
@[simp] theorem modStored_free (n f s) : (modStored n f s).free = s.free := by unfold modStored; split <;> rfl
@[simp] theorem modStored_out (n f s) : (modStored n f s).out = s.out := by unfold modStored; split <;> rfl
@[simp] theorem modStored_sec (n f s) : (modStored n f s).sec = s.sec := by unfold modStored; split <;> rfl
@[simp] theorem modStored_pending (n f s) : (modStored n f s).pending =
    s.pending := by unfold modStored; split <;> rfl
@[simp] theorem modStart_start (f s) : (modStart f s).start = f s.start := by
  unfold modStart alertOf; split <;> rfl
@[simp] theorem modStart_ctl (f s) : (modStart f s).ctl = s.ctl := by
  unfold modStart alertOf; split <;> rfl
@[simp] theorem modStart_opt (f s) : (modStart f s).opt = s.opt := by
  unfold modStart alertOf; split <;> rfl
@[simp] theorem modStart_time (f s) : (modStart f s).time = s.time := by
  unfold modStart alertOf; split <;> rfl
@[simp] theorem modStart_link (f s) : (modStart f s).link = s.link := by
  unfold modStart alertOf; split <;> rfl
@[simp] theorem modStart_buf (f s) : (modStart f s).buf = s.buf := by
  unfold modStart alertOf; split <;> rfl
@[simp] theorem modStart_tbl (f s) : (modStart f s).tbl = s.tbl := by
  unfold modStart alertOf; split <;> rfl
@[simp] theorem modStart_sched (f s) : (modStart f s).sched = s.sched := by
  unfold modStart alertOf; split <;> rfl
@[simp] theorem modStart_loaf (f s) : (modStart f s).loaf = s.loaf := by
  unfold modStart alertOf; split <;> rfl
@[simp] theorem modStart_mgmt (f s) : (modStart f s).mgmt = s.mgmt := by
  unfold modStart alertOf; split <;> rfl
@[simp] theorem modStart_fab (f s) : (modStart f s).fab = s.fab := by
  unfold modStart alertOf; split <;> rfl
@[simp] theorem modStart_mill (f s) : (modStart f s).mill = s.mill := by
  unfold modStart alertOf; split <;> rfl
@[simp] theorem modStart_gran (f s) : (modStart f s).gran = s.gran := by
  unfold modStart alertOf; split <;> rfl
@[simp] theorem modStart_tele (f s) : (modStart f s).tele = s.tele := by
  unfold modStart alertOf; split <;> rfl
@[simp] theorem modStart_winnow (f s) : (modStart f s).winnow = s.winnow := by
  unfold modStart alertOf; split <;> rfl
@[simp] theorem modStart_rst (f s) : (modStart f s).rst = s.rst := by
  unfold modStart alertOf; split <;> rfl
@[simp] theorem modStart_clk (f s) : (modStart f s).clk = s.clk := by
  unfold modStart alertOf; split <;> rfl
@[simp] theorem modStart_free (f s) : (modStart f s).free = s.free := by
  unfold modStart alertOf; split <;> rfl
@[simp] theorem modStart_out (f s) : (modStart f s).out = s.out := by
  unfold modStart alertOf; split <;> rfl
@[simp] theorem modStart_sec (f s) : (modStart f s).sec = s.sec := by
  unfold modStart alertOf; split <;> rfl
@[simp] theorem modStart_pending (f s) : (modStart f s).pending = s.pending := by
  unfold modStart alertOf; split <;> rfl
@[simp] theorem modStart_power_vinOn (f s) : (modStart f s).power.vinOn = s.power.vinOn := by
  unfold modStart alertOf; split <;> rfl
@[simp] theorem modStart_power_rails (f s) : (modStart f s).power.rails = s.power.rails := by
  unfold modStart alertOf; split <;> rfl
@[simp] theorem modStart_power_pwrOk (f s) : (modStart f s).power.pwrOk = s.power.pwrOk := by
  unfold modStart alertOf; split <;> rfl
@[simp] theorem modStart_power_latched (f s) : (modStart f s).power.latched = s.power.latched := by
  unfold modStart alertOf; split <;> rfl
@[simp] theorem modStart_power_thermTrip (f s) : (modStart f s).power.thermTrip = s.power.thermTrip := by
  unfold modStart alertOf; split <;> rfl
@[simp] theorem modStart_power_cycleReq (f s) : (modStart f s).power.cycleReq = s.power.cycleReq := by
  unfold modStart alertOf; split <;> rfl
@[simp] theorem modStart_power_statusOnly (f s) : (modStart f s).power.statusOnly = s.power.statusOnly := by
  unfold modStart alertOf; split <;> rfl
@[simp] theorem modStart_power_modRst (f s) : (modStart f s).power.modRst = s.power.modRst := by
  unfold modStart alertOf; split <;> rfl
@[simp] theorem modStart_power_refclk (f s) : (modStart f s).power.refclk = s.power.refclk := by
  unfold modStart alertOf; split <;> rfl
@[simp] theorem modStart_power_bootMode (f s) : (modStart f s).power.bootMode = s.power.bootMode := by
  unfold modStart alertOf; split <;> rfl
@[simp] theorem modStart_power_modSlot (f s) : (modStart f s).power.modSlot = s.power.modSlot := by
  unfold modStart alertOf; split <;> rfl
@[simp] theorem modStart_power_telemetry (f s) : (modStart f s).power.telemetry = s.power.telemetry := by
  unfold modStart alertOf; split <;> rfl
@[simp] theorem modStart_power_capUnattainable (f s) : (modStart f s).power.capUnattainable =
    s.power.capUnattainable := by
  unfold modStart alertOf; split <;> rfl
@[simp] theorem modStart_power_coolantDelta (f s) : (modStart f s).power.coolantDelta = s.power.coolantDelta := by
  unfold modStart alertOf; split <;> rfl
@[simp] theorem modStart_power_depth (f s) : (modStart f s).power.depth = s.power.depth := by
  unfold modStart alertOf; split <;> rfl
@[simp] theorem modStart_power_underRun (f s) : (modStart f s).power.underRun = s.power.underRun := by
  unfold modStart alertOf; split <;> rfl
@[simp] theorem modStart_power_fullRun (f s) : (modStart f s).power.fullRun = s.power.fullRun := by
  unfold modStart alertOf; split <;> rfl
@[simp] theorem modStart_power_capEventRaised (f s) : (modStart f s).power.capEventRaised =
    s.power.capEventRaised := by
  unfold modStart alertOf; split <;> rfl
@[simp] theorem modStart_power_cap (f s) : (modStart f s).power.cap = s.power.cap := by
  unfold modStart alertOf; split <;> rfl

theorem beginStoreWrite_cfg (st) : (beginStoreWrite st).cfg = st.cfg := by
  unfold beginStoreWrite; repeat' split
  all_goals rfl

@[simp] theorem modConfig_start (f s) : (modConfig f s).start =
    beginStoreWrite { s.start with cfg := f s.start.cfg } := by
  unfold modConfig; simp
@[simp] theorem modConfig_ctl (f s) : (modConfig f s).ctl = s.ctl := by
  unfold modConfig; simp
@[simp] theorem modConfig_opt (f s) : (modConfig f s).opt = s.opt := by
  unfold modConfig; simp
@[simp] theorem modConfig_time (f s) : (modConfig f s).time = s.time := by
  unfold modConfig; simp
@[simp] theorem modConfig_link (f s) : (modConfig f s).link = s.link := by
  unfold modConfig; simp
@[simp] theorem modConfig_buf (f s) : (modConfig f s).buf = s.buf := by
  unfold modConfig; simp
@[simp] theorem modConfig_tbl (f s) : (modConfig f s).tbl = s.tbl := by
  unfold modConfig; simp
@[simp] theorem modConfig_sched (f s) : (modConfig f s).sched = s.sched := by
  unfold modConfig; simp
@[simp] theorem modConfig_loaf (f s) : (modConfig f s).loaf = s.loaf := by
  unfold modConfig; simp
@[simp] theorem modConfig_mgmt (f s) : (modConfig f s).mgmt = s.mgmt := by
  unfold modConfig; simp
@[simp] theorem modConfig_fab (f s) : (modConfig f s).fab = s.fab := by
  unfold modConfig; simp
@[simp] theorem modConfig_mill (f s) : (modConfig f s).mill = s.mill := by
  unfold modConfig; simp
@[simp] theorem modConfig_gran (f s) : (modConfig f s).gran = s.gran := by
  unfold modConfig; simp
@[simp] theorem modConfig_tele (f s) : (modConfig f s).tele = s.tele := by
  unfold modConfig; simp
@[simp] theorem modConfig_winnow (f s) : (modConfig f s).winnow = s.winnow := by
  unfold modConfig; simp
@[simp] theorem modConfig_rst (f s) : (modConfig f s).rst = s.rst := by
  unfold modConfig; simp
@[simp] theorem modConfig_clk (f s) : (modConfig f s).clk = s.clk := by
  unfold modConfig; simp
@[simp] theorem modConfig_free (f s) : (modConfig f s).free = s.free := by
  unfold modConfig; simp
@[simp] theorem modConfig_out (f s) : (modConfig f s).out = s.out := by
  unfold modConfig; simp
@[simp] theorem modConfig_sec (f s) : (modConfig f s).sec = s.sec := by
  unfold modConfig; simp
@[simp] theorem modConfig_pending (f s) : (modConfig f s).pending = s.pending := by
  unfold modConfig; simp
@[simp] theorem modConfig_power_vinOn (f s) : (modConfig f s).power.vinOn = s.power.vinOn := by
  unfold modConfig; simp
@[simp] theorem modConfig_power_rails (f s) : (modConfig f s).power.rails = s.power.rails := by
  unfold modConfig; simp
@[simp] theorem modConfig_power_pwrOk (f s) : (modConfig f s).power.pwrOk = s.power.pwrOk := by
  unfold modConfig; simp
@[simp] theorem modConfig_power_latched (f s) : (modConfig f s).power.latched = s.power.latched := by
  unfold modConfig; simp
@[simp] theorem modConfig_power_thermTrip (f s) : (modConfig f s).power.thermTrip = s.power.thermTrip := by
  unfold modConfig; simp
@[simp] theorem modConfig_power_cycleReq (f s) : (modConfig f s).power.cycleReq = s.power.cycleReq := by
  unfold modConfig; simp
@[simp] theorem modConfig_power_statusOnly (f s) : (modConfig f s).power.statusOnly = s.power.statusOnly := by
  unfold modConfig; simp
@[simp] theorem modConfig_power_modRst (f s) : (modConfig f s).power.modRst = s.power.modRst := by
  unfold modConfig; simp
@[simp] theorem modConfig_power_refclk (f s) : (modConfig f s).power.refclk = s.power.refclk := by
  unfold modConfig; simp
@[simp] theorem modConfig_power_bootMode (f s) : (modConfig f s).power.bootMode = s.power.bootMode := by
  unfold modConfig; simp
@[simp] theorem modConfig_power_modSlot (f s) : (modConfig f s).power.modSlot = s.power.modSlot := by
  unfold modConfig; simp
@[simp] theorem modConfig_power_telemetry (f s) : (modConfig f s).power.telemetry = s.power.telemetry := by
  unfold modConfig; simp
@[simp] theorem modConfig_power_capUnattainable (f s) : (modConfig f s).power.capUnattainable =
    s.power.capUnattainable := by
  unfold modConfig; simp
@[simp] theorem modConfig_power_coolantDelta (f s) : (modConfig f s).power.coolantDelta = s.power.coolantDelta := by
  unfold modConfig; simp
@[simp] theorem modConfig_power_depth (f s) : (modConfig f s).power.depth = s.power.depth := by
  unfold modConfig; simp
@[simp] theorem modConfig_power_underRun (f s) : (modConfig f s).power.underRun = s.power.underRun := by
  unfold modConfig; simp
@[simp] theorem modConfig_power_fullRun (f s) : (modConfig f s).power.fullRun = s.power.fullRun := by
  unfold modConfig; simp
@[simp] theorem modConfig_power_capEventRaised (f s) : (modConfig f s).power.capEventRaised =
    s.power.capEventRaised := by
  unfold modConfig; simp
@[simp] theorem modConfig_power_cap (f s) : (modConfig f s).power.cap = s.power.cap := by
  unfold modConfig; simp
@[simp] theorem modConfig_cfg (f s) : (modConfig f s).start.cfg = f s.start.cfg := by simp [beginStoreWrite_cfg]

end Sys2Proof.Machine
end

