-- ==== Sys2Proof/Tests/States.lean ====
section
/-! SUPPORT. Small states and operands for the tests: a device in service, and what each test changes in it. -/

set_option Elab.async false

namespace Sys2Proof.Tests

open Sys2Proof Sys2Proof.Machine

def oper : Origin := ⟨0, .operator, 1, 0⟩
def manager : Origin := ⟨16, .fabricManager, 1, 0⟩
def tenant : Origin := ⟨32, .tenant, 1, 1⟩
def opSec : Origin := ⟨1, .operatorSecurity, 1, 0⟩
def pgSec : Origin := ⟨17, .programmeSecurity, 1, 0⟩
/-- The device in service with SID 5 and partition 7 at epoch 3. -/
def run : State := { State.reset with
  start := { State.reset.start with phase := .running, cfg := { State.reset.start.cfg with sid := some 5 } }
  tbl := { State.reset.tbl with slices := (List.range 8).map (fun n => (n, { slice State.reset n with parts := tabSet partReset (slice State.reset n).parts 7 { defined := true, fenced := false, isProtected := false, learn := true, epoch := 3, ports := 2 ^ 256 - 1 } })) }
  ctl := { State.reset.ctl with islands := ((List.range 2) ++ (List.range 48).map (· + 8) ++ [0x38] ++ (List.range 24).map (· + 0x40)).map (fun n => (n, { islandReset n with pllLock := true, dataReset := false })) }
  mgmt := { State.reset.mgmt with mailboxes := [(32, { mailboxReset 32 with pid := some 7, cert := 1 })] } }
def pkt0 : Packet := ⟨0x10040000, 0x00020000, 0, 0x00070007, 0, 0, 0, 0, [], 0⟩
def block0 : Block := ⟨0, 0, 0, [], 0, false⟩
def found0 : StartOutcome := ⟨2, 0, false, 0, [], false, [], [], true, List.range 10, [2500, 2500, 2500, 2500, 2500, 2500, 2500, 2500], []⟩
def telem0 : Telemetry := ⟨42000, 30000, 1260, 5000, 5000, 5000, 5000, 2500, 3500⟩
def peel0 : Peel := ⟨0, 0, 0, 0, 0, 0, 0, 0, []⟩
def region0 : RegionRec := ⟨0, false, true, true, false, 7⟩
def dispatch0 : DispatchRec := ⟨true, 7, 3, 0, 64, 8, 2, 2, 2, 0, false, false, 64, 10, 64, 0, 1, 0, 0⟩
def policy0 : Policy := ⟨false, 0xE, 0xFFFF, 2 ^ 64 - 1, []⟩
def grist0 : GristParams := ⟨7, 3, 2, 0, 1, 0, 1, 0, 0, 0⟩
def open0 : OpenParams := ⟨1, 1, 4, 0, false, false, 0, 4, 1024, 0, 0, 0, 0, []⟩
def chan0 : ChannelRec := ⟨true, 4, 7, 1, 0, 1, 4096, 0, 0, 1000000⟩
def filter0 : FilterRec := ⟨true, 0, 0, 255, 255, 7, 0, 0, 0, false, 0, 0, 65535, 0⟩
def parts (f : PartEntry → PartEntry) (pid : Nat) (s : State) : State := { s with tbl := { s.tbl with slices := tabRemap sliceReset (fun _ x => { x with parts := tabMod partReset f x.parts pid }) s.tbl.slices } }
def twoPid : State := parts (fun e => { e with defined := true, fenced := false }) 9 run
def fencedRun : State := parts (fun e => { e with fenced := true }) 7 run
def circuit0 : Circuit := { engine := 0, inFibre := 0, colour := 0, outFibre := 0, loop := true, effective := 0, phase := .lit, tearDown := false, caller := none }
def linkCtx : State := modMill (fun m => { m with contexts := [(0, { record := dispatch0, replicas := [], last := [], tokens := [], draining := none })] }) run
def linkLoop : State := modOpt (fun o => { o with circuits := [(1, circuit0)] }) run
def linkBadRing : State := modOpt (fun o => { o with rings := (List.range 1280).map (fun n => (n, { line := 0, shift := 0, failed := true, mode := .unpowered })) }) run
def linkSpare : State := modConfig (fun c => { c with cutover := [(0, 8)], perm := [(0, { ts := 0, searches := 1, entries := [], check := 0 })] }) run
def portUp : State := modPort 0 (fun p => { p with phase := .up }) run
def portResume : State := modPort 0 (fun p => { p with phase := .resume }) run
def lanesOn (s : State) : State := { s with
  link := { s.link with lanes := (List.range 8).map (fun n => (n, { laneReset n with phase := .joined })) }
  opt := { s.opt with rings := (List.range 320).map (fun n => (n, { line := n % 8, shift := 0, failed := false, mode := .locked })) } }
def portJoined : State := lanesOn portUp
def portFade : State := modLane 0 (fun l => { l with cause := some .fade }) portJoined
def linkLanes : State := lanesOn run
def linkLoopLanes : State := lanesOn linkLoop
def proposal0 : Proposal := { opcode := 0x0305, state := .pending, opApproved := false, pgApproved := false, origin := ⟨16, .fabricManager, 1, 0⟩, pid := 7, finalStatus := 0, created := 0, expiry := 1000, nonce := 0, bodyDigest := 0, bodyLen := 0, staged := .tablePartition 7 0 [] }
def propsFull : State := modSec (fun x => { x with proposals := (List.range 64).map (fun n => (n + 1, proposal0)) }) run
def propOne : State := modSec (fun x => { x with proposals := [(1, proposal0)] }) run
def propHalf : State := modSec (fun x => { x with proposals := [(1, { proposal0 with opApproved := true })] }) run
def propOld : State := modSec (fun x => { x with proposals := [(1, { proposal0 with expiry := 0 })] }) run
def propDone : State := modSec (fun x => { x with proposals := [(1, { proposal0 with state := .applied })] }) run
def group0 : Group := { pid := 7, members := [10, 11], live := 3, changes := [], delivery := [], boundTold := false }
def recipe0 : Recipe := { recipeId := 1, signature := 0, gid := 1, base := 0, pattern := 0, op := 1, dtype := 0x14, round := 0, ordered := false, all := false, parts := 1, epf := 1024, window := 4, elements := 1024, root := 0, stale := 1000000, home := 5, epoch := 3, map := [(5, 0)] }
def held0 : Held := { recipe := recipe0, openId := 0, spill := 0xE000, closers := [], closing := false, pinned := [] }
def ctx0 : LoafCtx := { index := 0, recipeId := 1, portion := 0, knead := 0, phase := .idle, fresh := true, seq := 0, aborted := false, lstatus := 0, live := 3, done := 0, slots := [], sram := true, spilling := false, staged := [], sent := [] }
def loafCtx' (c : LoafCtx) (s : State) : State := modLoaf (fun l => { l with groups := [(1, group0)], recipes := [(65537, held0)], contexts := [(4096, c)] }) s
def loafGroup : State := modLoaf (fun l => { l with groups := [(1, group0)] }) twoPid
def loafRecipe : State := loafCtx' ctx0 run
def loafRuns : State := loafCtx' { ctx0 with phase := .running, fresh := false, seq := 1 } run
def loafOther : State := modLoaf (fun l => { l with groups := [(1, { group0 with pid := 9 })] }) twoPid
def loafSized : State := modLoaf (fun l => { l with sizing := [(7, { reach := 30, limit := 1 })] }) run
def loafPolicy : State := modWinnow (fun w => { w with policies := [(7, { policy0 with spines := [5, 6] })] }) loafGroup
def prog0 : MillProgram := { pid := 7, stale := 1000000, code := [[0, 0, 0, 0]], agds := [], counters := [], pc := 0, running := false, copies := [] }
def millProg : State := modMill (fun m => { m with pages := [(7, 100)], programs := [(0, prog0)] }) run
def millRuns : State := modMill (fun m => { m with pages := [(7, 100)], programs := [(0, { prog0 with running := true })] }) run
def millFenced : State := modMill (fun m => { m with programs := [(0, prog0)] }) fencedRun
def millOff : State := modConfig (fun c => { c with millOff := true }) millProg
def millForeign : State := modMill (fun m => { m with programs := [(0, { prog0 with pid := 9 })] }) twoPid
def millFull : State := modMill (fun m => { m with pages := [(9, 1536)] }) run
def rec0 : DispatchRec := { dispatch0 with d := 64, actFmt := 0x12, retFmt := 0x12, k := 2, e := 8, batch := 4, stale := 1000000 }
def token0 : Token := { origin := 10, originSpine := false, ident := 0, entropy := 0, parts := [], phase := .arriving, slots := [], claimed := false, combined := [] }
def dctx0 : DispatchCtx := { record := rec0, replicas := [(0, [{ address := 10, cap := 4, outstanding := 0, excluded := false }])], last := [], tokens := [], draining := none }
def millCtx : State := modMill (fun m => { m with pages := [(7, 1000)], contexts := [(0, dctx0)] }) twoPid
def millTokens : State := modMill (fun m => { m with pages := [(7, 100)], contexts := [(0, { dctx0 with tokens := [token0] })] }) run
def millNoKnead : State := modWinnow (fun w => { w with policies := [(7, { policy0 with kneadMask := 0 })] }) millCtx
def reg0 : Region := { kind := .general, encrypted := false, epRead := true, epWrite := true, epPost := false, pid := 7, keySlot := 0, stackSet := 1, phase := .ready, extents := 1, pinned := false }
def regions (l : Tab Region) (s : State) : State := modGran (fun g => { g with regions := l ++ fixedRegions }) s
def millRegion : State := regions [(1, reg0)] millCtx
def granReg : State := regions [(1, reg0)] twoPid
def granFree : State := regions [(1, { reg0 with phase := .freeing })] run
def granForeign : State := regions [(1, { reg0 with pid := 9 })] twoPid
def granMirrorReg : State := regions [(1, { reg0 with kind := .mirror })] run
def granNone : State := modWinnow (fun w => { w with policies := [(7, { policy0 with stackMask := 0 })] }) run
def mirror0 : Mirror := { owner := 10, phase := 0, sid := 5, region := 1, generation := 1, prevSid := 0, prevRegion := 0, prevGeneration := 0, crc := 0, replica := 0, size := 4096 }
def granMirror : State := modGran (fun g => { g with mirrors := [(7 * 2 ^ 32 + 1, mirror0)] }) granMirrorReg
def granMirrorDone : State := modGran (fun g => { g with mirrors := [(7 * 2 ^ 32 + 1, { mirror0 with phase := 1 })] }) granMirrorReg
def granPolicy : State := modWinnow (fun w => { w with policies := [(7, { policy0 with spines := [5, 6] })] }) run
def desc0 : Descriptor := { own := true, fence := false, c5 := false, op := 0, length := 64, source := 1 * 2 ^ 48, target := 1 * 2 ^ 48 + 4096, ea := 10, user := 0, reserved := false }
def flight0 : InFlight := { index := 0, desc := desc0, pieces := [], unwritten := [], requests := [], status := none }
def chan (f : Channel → Channel) (s : State) : State := modChannel 24 f s
def granChan : State := chan (fun c => { c with cfg := chan0 }) (regions [(1, { reg0 with kind := .ring })] run)
def granChanRun : State := chan (fun c => { c with phase := .running, cfg := chan0, flight := [flight0] }) (regions [(1, { reg0 with kind := .ring })] run)
def granDisabling : State := modGran (fun g => { g with disabling := some (⟨16, .fabricManager, 9, 0⟩, false) }) run
def gristEntry0 : GristEntry := { region := 1, offset := 0, length := 64, mcast := false, dest := 10, launchS := 0, launchNs := 0, launchId := 0, srcFmt := 0x14, dlvFmt := 0x14, reserved := false }
def prm0 : GristParams := { pid := 7, epoch := 3, cls := 4, entropy := 0, region := 1, offset := 0, count := 1, lead := 100, sow := 0, stale := 1000000 }
def grist1 : Grist := { params := prm0, entries := [gristEntry0], phase := .loaded, next := 0, staged := [], lateCount := 0 }
def grists (g : Grist) (s : State) : State := modGran (fun x => { x with grists := [(0, g)] }) (regions [(1, reg0)] s)
def gristIdle : State := grists grist1 run
def gristRuns : State := grists { grist1 with phase := .running } run
def gristFenced : State := grists grist1 fencedRun
def gristOther : State := grists { grist1 with params := { prm0 with pid := 9 } } run
def gristRead : State := writeBytes 1 0 ((List.range 32).map (fun i => if i = 1 then 1 else if i = 11 then 64 else if i = 26 then 0x14 else if i = 27 then 0x14 else 0)) (regions [(1, reg0)] run)
def winnowPinned : State := modWinnow (fun w => { w with replicaPins := [(0, 11)], crustPins := [1] }) millCtx
def timeLocked : State := modTime (fun x => { x with phase := .locked }) run
def timeRefused : State := modTime (fun x => { x with jumpRefused := true }) run
def timeAccept : State := modTime (fun x => { x with jumpRefused := true, accept := some { origin := ⟨0, .operator, 9, 0⟩, limit := 100, samples := [] } }) run
def poisonCrumb : State := modGran (fun g => { g with poisoned := [0xFFFF * 2 ^ 42] }) { run with start := { run.start with stacksTrained := true } }
def poisonNot : State := { run with start := { run.start with stacksTrained := true } }
def busyMail : State := modMailbox 32 (fun m => { m with outstanding := [{ seq := 7, opcode := 0x0504, ordered := false, cls := .tenant, received := 0, deadline := 100, body := [], stepsDone := 1, stepsTotal := 2, running := false, acceptedSent := true }] }) run
def resetBusy : State := modRst (fun r => { r with asked := [⟨4, 0, 1, [], true⟩] }) run
def recovery : State := { run with start := { run.start with phase := .recovery } }
def secUnlocked : State := modSec (fun x => { x with unlocked := 1 }) run
def secSession : State := modSec (fun x => { x with sessions := [(1, { pid := 7, sk := 0, counter := none })], linkSlots := [(0, { port := 0, rx := false, pid := 7, rk := none, inst := 0, tk := none, misses := 0 })] }) run
def secSessions : State := modSec (fun x => { x with sessions := (List.range 64).map (fun n => (n + 1, { pid := 7, sk := 0, counter := none })) }) run
def secForeign : State := modSec (fun x => { x with linkSlots := [(0, { port := 0, rx := false, pid := 9, rk := none, inst := 0, tk := none, misses := 0 })] }) run
def creds : State := modConfig (fun c => { c with credentials := [(.operator, 1), (.operatorSecurity, 2)] }) run
def pw (f : PowerState → PowerState) (s : State) : State := { s with power := f s.power }
def st (f : StartState → StartState) (s : State) : State := { s with start := f s.start }
def supOff : State := pw (fun p => { p with modRst := false }) State.reset
def supOn : State := pw (fun p => { p with vinOn := true, rails := true, pwrOk := true, modRst := false, refclk := true }) run
def supHeld : State := pw (fun p => { p with vinOn := true, rails := true, modRst := true }) run
def supRun : State := pw (fun p => { p with fullRun := 100 }) run
def startCold : State := st (fun x => { x with phase := .cold }) supOn
def startCold3 : State := modConfig (fun c => { c with attempts := 3 }) startCold
def startImage : State := st (fun x => { x with flashImage := some ⟨100, 1, true, 1, 0, 0⟩ }) startCold
def asked (l scope : Nat) (s : State) : State := modRst (fun r => { r with asked := [⟨l, scope, 1, [], false⟩] }) s
def askedL4 : State := asked 4 0 supOn
def askedOften : State := modRst (fun r => { r with l4Times := [0, 0, 0] }) askedL4
def askedTried : State := modConfig (fun c => { c with attempts := 3 }) askedL4
def askedL5 : State := asked 5 0 supOn
def startHold : State := st (fun x => { x with phase := .cycleHold }) supOn
def startCycle : State := st (fun x => { x with phase := .cycleRequested }) supOn
def supOnly : State := pw (fun p => { p with statusOnly := true }) startCycle
def flashFor : State := st (fun x => { x with flashWrite := some (.image ⟨100, 1, true, 1, 0, 0⟩ (some ⟨0, .operator, 1, 0⟩)) }) supOn
def flashNone : State := st (fun x => { x with flashWrite := some (.image ⟨100, 1, true, 1, 0, 0⟩ none) }) supOn
def ctlStaged : State := { run with ctl := { run.ctl with staged := [(0x01000005, 1)] } }
def ctlAccess : State := modIsland 1 (fun i => { i with accesses := [⟨0x01000005, none⟩], events := [⟨0, 5, 0⟩] }) run
def ctlUnlocked : State := modIsland 1 (fun i => { i with pllLock := false }) run
def ringsIn (m : RingMode) : State := modOpt (fun o => { o with rings := (List.range 320).map (fun n => (n, { line := n % 8, shift := 0, failed := false, mode := m })) }) run
def ringTrack : State := ringsIn .tracking
def ringLoose : State := ringsIn .unlocked
def ringFade : State := modConfig (fun c => { c with commission := [(0, 1000)] }) run
def ringFaded : State := modOpt (fun o => { o with fades := [(0, { below1 := 0, below2 := 0, suspended := true, failed := false })] }) ringFade
def cut (st : CutStage) (back : Bool) (who : Option Origin) (s : State) : State := modOpt (fun o => { o with cutovers := [(0, { spare := 8, stage := st, pauseTime := 0, back := back, caller := who })] }) s
def ringWarm : State := cut .warming false none run
def ringWarmTwo : State := modOpt (fun o => { o with bays := [(9, { fitted := true, use := .idle, darkColours := 0 })] }) ringWarm
def ringBack : State := cut .warming true (some ⟨0, .operator, 1, 0⟩) run
def ringNoticed : State := cut .noticed false none run
def ringSwitch : State := cut .switching false none run
def ringSwitchBack : State := cut .switching true none run
def ringSettled : State := cut .settled false none run
def ringSettledFor : State := cut .settled true (some ⟨0, .operator, 1, 0⟩) run
def ringBay : State := modOpt (fun o => { o with bays := [(0, { fitted := true, use := .active, darkColours := 0 }), (1, { fitted := true, use := .selfTest, darkColours := 0 })] }) run
def fibreLow : State := modFibre 0 (fun f => { f with reduced := true, probing := true, probeLow := some true }) run
def fibreWaits : State := modOpt (fun o => { o with circuits := [(0, { circuit0 with phase := .deferred })] }) run
def fibreLights : State := modOpt (fun o => { o with circuits := [(0, { circuit0 with phase := .lighting })] }) (lanesOn run)
def laneIs (p : LanePhase) : State := modLane 0 (fun l => { l with phase := p }) run
def laneAcq : State := laneIs .acquire
def laneDel : State := laneIs .delineate
def laneVer : State := laneIs .verify
def laneVerOdd : State := modLane 0 (fun l => { l with miswired := true }) laneVer
def laneErr : State := modLane 0 (fun l => { l with errorTimes := [0, 0] }) portJoined
def laneReady0 : State := modLane 0 (fun l => { l with phase := .ready }) run
def portPause : State := modPort 0 (fun p => { p with pause := some { time := 0, len := 10, lanes := 1 } }) portUp
def portHello : State := modPort 0 (fun p => { p with phase := .hello }) run
def portCredit : State := modPort 0 (fun p => { p with phase := .credit, replays := 8 }) run
def portKnows : State := modPort 0 (fun p => { p with identity := some { role := 1, address := 99, sid := 0, sidValid := false, v1 := false, v2 := true, width := 3, laneMask := 255, port := 0 } }) portUp
def helloPkt : Packet := { localPacket 0 1 0 [0x21B0FF00, 0x00001000, 0, 0, 0, 0, 0] with w6 := 0 }
def goodBlock (w0 w1 w2 : Word) (slot : List Byte) : Block := ⟨w0, w1, w2, slot, blockCheck w0 w1 w2 slot, false⟩
def idleBlock : Block := goodBlock 0x00000000 0x40000000 0 (List.replicate 256 0)
def dataBlock : Block := goodBlock 0x10000000 0x40000000 0x6000 (List.replicate 256 0)
def localSlot (k : Packet) : List Byte :=
  let k1 := { k with e2e := 0 }
  (wordsBytes (headerWords k1) ++ k1.payload ++ wordBytes 0 ++ wordBytes (packetCrc k1) ++ List.replicate 256 0).take 256
def localBlock : Block := goodBlock 0x20000000 0x40000000 0 (localSlot (localPacket 0 4 1 []))
def badLocal : Block := goodBlock 0x20000000 0x40000000 0 (List.replicate 256 0)
def blockNarrow : State := modPort 0 (fun p => { p with width := 4 }) run
def blockUp : State := modPort 0 (fun p => { p with window := [(3, dataBlock)], unacked := [{ seq := 0, cls := 2, vc := 0, pkt := 0, slotNo := 0, sop := true, eop := true, data := [] }] }) portJoined
def blockLocal : State := modPort 0 (fun p => { p with localOut := [(0, localPacket 0 4 1 [])] }) laneReady0
def blockVerify : State := laneVer
def c0pkt : Packet := { pkt0 with w0 := 0x22000000, w1 := 0x00000007, w3 := 0x00030000 }
def d5pkt : Packet := { pkt0 with w0 := 0x20A00000, w1 := 0x00000007, w3 := 0x00030000 }
def stored0 : Stored := { pkt := d5pkt, inPort := some 0, slice := 0, src := 0, cells := 1, pool := .headroom, onHeadroom := 0, chargeKey := 0, copies := 1, complete := false, storeForward := true, stomp := false, set := 0, mask := 0, hopsIn := 0, multicast := false, consumer := none, admitKey := 0, launch := none }
def hold (k : Stored) (s : State) : State := modBuf (fun b => { b with packets := [(0, k)] }) s
def fwdHeld : State := modPort 0 (fun p => { p with c0Held := [c0pkt] }) run
def fwdHeldOk : State := modPort 0 (fun p => { p with c0Level := 100000 }) fwdHeld
def fwdLevel : State := modPort 0 (fun p => { p with c0Level := 100000 }) run
def spent (s : State) : State := { s with sched := { s.sched with gates := (List.range 40).map (fun n => (n, { used := 1000000000000, overdraw := 0, lent := 0, borrowed := 0 })), lentPool := [] } }
def fwdLearn : State := modSlice 0 (fun x => { x with learnQueue := [⟨7, 100, 0⟩] }) run
def fwdLearnBusy : State := spent fwdLearn
def fwdDone : State := hold { stored0 with complete := true } run
def fwdPart : State := hold stored0 run
def fwdEnc : State := hold { stored0 with pkt := { d5pkt with w0 := 0x20A10000 } } run
def fwdDelivered : State := modBuf (fun b => { b with consumers := [(0, [⟨some 0, c0pkt, 0, 0, 0, 0⟩])] }) run
def fwdShared : State := modBuf (fun b => { b with sharedUsed := 3000000 }) run
def queue0 (s : State) : State := modBuf (fun b => { b with packets := [(0, { stored0 with pkt := { c0pkt with w1 := 0x00000007 }, complete := true })], queues := [(0, [⟨0, 0, false⟩])] }) s
def fwdQueued : State := queue0 portJoined
def fwdHusk : State := modSlice 0 (fun x => { x with huskRow := [(0, 0x80000000)] }) fwdQueued
def fwdCredit : State := modPort 0 (fun p => { p with crTotal := [(0, 5)] }) fwdQueued
def fwdLock : State := modSlice 0 (fun x => { x with locks := [⟨0, [], ⟨0, .operator, 1, 0⟩, 0⟩] }) run
def loafPkt (seq : Nat) : Packet := { c0pkt with w4 := 0x00001000, w5 := w32 seq, w6 := 0, w7 := 0 }
def got (c : Nat) (k : Packet) (s : State) : State := modBuf (fun b => { b with consumers := [(c, [⟨some 0, k, 0, 0, 0, 0⟩])] }) s
def levNone : State := got 1 (loafPkt 1) run
def levNoRecipe : State := got 1 (loafPkt 1) (modLoaf (fun l => { l with recipes := [] }) loafRecipe)
def levFresh : State := got 1 (loafPkt 1) loafRecipe
def levRuns : State := got 1 (loafPkt 1) loafRuns
def levAhead : State := got 1 (loafPkt 2) loafRuns
def levBehind : State := got 1 (loafPkt 0) loafRuns
def slot0 (full : Bool) : KneadSlot := { frag := 1, seen := [0], accs := [], leaves := [], full := full, result := [] }
def levHeld : State := got 1 (loafPkt 1) (loafCtx' { ctx0 with phase := .running, fresh := false, seq := 1, slots := [(0, slot0 true)] } run)
def levOpen : State := loafCtx' { ctx0 with phase := .running, fresh := false, seq := 1, slots := [(0, slot0 false)] } run
def gather0 : Held := { held0 with recipe := { recipe0 with pattern := 4, op := 0, all := false } }
def levGather : State := modLoaf (fun l => { l with groups := [(1, group0)], recipes := [(65537, gather0)], contexts := [(4096, { ctx0 with phase := .running, fresh := false, seq := 1, done := 2, staged := [(0, (0, 8)), (1, (1, 8))] })] }) run
def levGatherBusy : State := spent levGather
def levSpilling : State := loafCtx' { ctx0 with phase := .running, fresh := false, seq := 1, spilling := true } run
def levSpilled : State := loafCtx' { ctx0 with phase := .spilled, fresh := false, seq := 1, sram := false } run
def abort0 : Packet := { c0pkt with w0 := 0x25000000, w4 := 0x01010000, w5 := 0x00001000, w6 := 1 }
def levAbortNone : State := got 6 abort0 run
def levAbort : State := got 6 abort0 loafRuns
def levWaiting : State := modBuf (fun b => { b with waiting := [(8, [(⟨c0pkt, 0⟩, none)])] }) run
def notice (t open' gid recipe : Nat) (ws : List Word) : Packet := { pkt0 with w0 := 0x25400000, w1 := 0x00005000, w2 := 0x00005000, w3 := 0x00004000, w4 := 0x03000000, payload := wordsBytes ([wordOf [at_ 31 24 t, at_ 23 0 open'], wordOf [at_ 31 12 gid], wordOf [at_ 31 16 recipe, at_ 15 0 ws.length]] ++ ws) }
def heard (k : Packet) (s : State) : State := modBuf (fun b => { b with fwIn := [k] }) s
def ntc (t : Nat) (s : State) : State := heard (notice t 0 1 1 []) s
def resv : Reservation := { home := 5, openId := 0, recipe := { recipe0 with map := [] }, mine := [(0, 0)], spill := 0, words := [] }
def resvS : State := modLoaf (fun l => { l with groups := [(1, group0)], reservations := [resv] }) run
def openJob (c : Bool) : OpenJob := { origin := ⟨32, .tenant, 7, 1⟩, params := open0, recipe := recipe0, round := 1, refused := [], badIds := [], badRanges := [], waiting := [5], reserved := [], failed := false, committing := c }
def opening (c : Bool) : State := modLoaf (fun l => { l with groups := [(1, group0)], opens := [(0, openJob c)] }) busyMail
def ntcReserve : State := ntc 16 loafGroup
def ntcResv : State := resvS
def ntcCommitNone : State := ntc 19 run
def ntcCommitPart : State := ntc 19 resvS
def ntcCommit : State := heard { notice 19 0 1 1 [] with payload := wordsBytes ([wordOf [at_ 31 24 19], wordOf [at_ 31 12 1], wordOf [at_ 31 16 1, at_ 15 0 1]] ++ List.replicate 11 0 ++ [wordOf [at_ 31 19 5]]) } resvS
def ntcReleaseResv : State := ntc 21 resvS
def ntcReleaseHeld : State := ntc 21 loafRecipe
def ntcReleaseNone : State := ntc 21 run
def ntcReservedNone : State := ntc 17 run
def ntcReservedLate : State := ntc 17 (opening true)
def ntcReserved : State := ntc 17 (opening false)
def ntcRefusedNone : State := ntc 18 run
def ntcRefusedLate : State := ntc 18 (opening true)
def ntcRefused : State := ntc 18 (opening false)
def ntcCommittedEarly : State := ntc 20 (opening false)
def ntcCommitted : State := ntc 20 (opening true)
def ntcCommittedPart : State := ntc 20 (modLoaf (fun l => { l with opens := [(0, { openJob true with waiting := [5, 6] })] }) busyMail)
def ntcOpen : State := opening false
def ntcCommitting : State := opening true
def ntcCloseNone : State := ntc 22 run
def ntcClose : State := ntc 22 loafRecipe
def ntcCloseAgain : State := ntc 22 (modLoaf (fun l => { l with recipes := [(65537, { held0 with closers := [(5, 0)] })] }) loafRecipe)
def ntcClosed : State := ntc 23 run
def closing (s : State) : State := modLoaf (fun l => { l with closes := [(0, { origin := ⟨32, .tenant, 7, 1⟩, gid := 1, recipeId := 1, grace := 0, waiting := [5] })] }) s
def ntcClosing : State := closing busyMail
def ntcClosingEnded : State := closing run
def ntcHeldClosing : State := modLoaf (fun l => { l with recipes := [(65537, { held0 with closing := true })] }) loafRecipe
def ntcKnead : State := modLoaf (fun l => { l with kneadJobs := [(⟨32, .tenant, 7, 1⟩, [0])] }) busyMail
def part0 : Packet := { pkt0 with w0 := 0x26400080, w1 := 0x00000007, w3 := 0x00030000, w4 := 0, w5 := 0x14, w6 := 0, w7 := 0, payload := List.replicate 128 0 }
def tok5 : Token := { origin := 0, originSpine := false, ident := 5, entropy := 0, parts := [], phase := .arriving, slots := [], claimed := false, combined := [] }
def ctxWith (ts : List Token) (s : State) : State := modMill (fun m => { m with pages := [(7, 1000)], contexts := [(0, { dctx0 with tokens := ts })] }) s
def mevNoCtx : State := got 3 part0 run
def mevBad : State := got 3 { part0 with w7 := 1 } (ctxWith [] run)
def mevDup : State := got 3 part0 (ctxWith [{ tok5 with phase := .complete }] run)
def mevFull : State := got 3 part0 (ctxWith [{ tok5 with parts := [(1, List.replicate 1000 0)] }] run)
def mevPart : State := got 3 part0 (ctxWith [tok5] run)
def mevOff : State := got 3 part0 (modConfig (fun c => { c with millOff := true }) (ctxWith [] run))
def mevNewFull : State := got 3 part0 (ctxWith [{ tok5 with ident := 6, parts := [(1, List.replicate 1000 0)] }] run)
def mevNew : State := got 3 part0 (ctxWith [] run)
def batch0 : Batch := { context := 0, tokens := [(0, 5)], weights := none }
def mevBatch : State := modMill (fun m => { m with batches := [batch0] }) (ctxWith [{ tok5 with phase := .batched }] run)
def mevBoth : State := modMill (fun m => { m with batches := [batch0] }) millRuns
def mevTurn : State := modMill (fun m => { m with runLength := 8 }) mevBoth
def mevWork : State := modMill (fun m => { m with work := some (.batch batch0) }) mevBatch
def mevWorkGone : State := modMill (fun m => { m with work := some (.batch batch0) }) run
def mevInstr : State := modMill (fun m => { m with work := some (.instr 0) }) millRuns
def mevInstrStop : State := modMill (fun m => { m with work := some (.instr 0) }) millProg
def mevInstrGone : State := modMill (fun m => { m with work := some (.instr 0) }) run
def copying (r : Bool) : State := modMill (fun m => { m with pages := [(7, 100)], programs := [(0, { prog0 with running := r, copies := [[0, 0, 0, 0]] })] }) run
def mevCopy : State := copying true
def mevCopyStop : State := copying false
def mevCopyFull : State := spent (copying true)
def tslot0 : TokenSlot := { expert := 0, gate := 0, replica := none, skipped := false, waited := false, returned := [], counted := false }
def routed (cl : Bool) (sl : List TokenSlot) : Token := { tok5 with phase := .routed, slots := sl, claimed := cl }
def mevRouted : State := ctxWith [routed true [tslot0]] run
def mevRoutedWait : State := modMill (fun m => { m with contexts := [(0, { dctx0 with record := { rec0 with inflight := 0 }, tokens := [routed false [tslot0]] })] }) run
def mevRoutedDone : State := ctxWith [routed true [{ tslot0 with replica := some 10 }]] run
def mevSkipped : State := ctxWith [routed true [{ tslot0 with skipped := true }]] run
def ret0 : Packet := { pkt0 with w0 := 0x27600080, w1 := 0x00000007, w2 := 0x0000A000, w3 := 0x00030000, w4 := 0, w5 := 0x14, w6 := 0, w7 := 0, payload := List.replicate 128 0 }
def sentOut (sl : TokenSlot) : State := ctxWith [{ tok5 with phase := .dispatched, slots := [sl], claimed := true }] run
def mevRetNoCtx : State := got 2 ret0 run
def mevRetNone : State := got 2 ret0 (ctxWith [] run)
def mevRetOther : State := got 2 ret0 (sentOut { tslot0 with replica := some 11, counted := true })
def mevRetTwice : State := got 2 ret0 (sentOut { tslot0 with replica := some 10, returned := [(0, [])] })
def mevRet : State := got 2 ret0 (sentOut { tslot0 with replica := some 10, counted := true })
def mevDrain : State := modMill (fun m => { m with contexts := [(0, { dctx0 with draining := some (⟨32, .tenant, 7, 1⟩, rec0) })] }) run
def mevDisable : State := modMill (fun m => { m with disabling := [⟨16, .fabricManager, 9, 0⟩] }) run
def mevNotice : State := ntc 1 run
def chunk0 : Chunk := { entry := 0, packets := [d5pkt], inPool := 0, source := 8, cells := 1 }
def greEnd : State := grists { grist1 with phase := .running, next := 1 } run
def greStaged : State := grists { grist1 with phase := .running, next := 1, staged := [chunk0] } run
def greEarly : State := grists { grist1 with phase := .running, entries := [{ gristEntry0 with launchS := 100 }], next := 1, staged := [chunk0] } run
def grePend : State := modBuf (fun b => { b with waiting := [(8, [(⟨{ pkt0 with w0 := 0x24800000, w1 := 0x00000007, w3 := 0x00000200, w6 := 0 }, 0⟩, none)])] }) greEnd
def gpkt (op : Nat) : Packet := { pkt0 with w0 := (if op < 128 then 0x28400000 else 0x28600000), w1 := 0x00000007, w3 := 0x00030000, w4 := w32 (op * 2 ^ 24), w5 := 0x00010000, w6 := 0, w7 := 16 }
def gevRead : State := got 4 (gpkt 1) granReg
def gevReply : State := got 4 (gpkt 0x81) granReg
def gevWrites : State := modGran (fun g => { g with writes := [⟨gpkt 2, [1, 2, 3]⟩] }) granReg
def gevReads : State := modGran (fun g => { g with reads := [⟨gpkt 1, []⟩] }) granReg
def gevRetire : State := modGran (fun g => { g with retiring := [(0, 0, 0)] }) granReg
def gevSpent : State := spent run
def gevZeroing : State := regions [(1, { reg0 with phase := .zeroing })] run
def commit0 : MirrorCommit := { origin := ⟨32, .tenant, 7, 1⟩, key := 7 * 2 ^ 32 + 1, crc := 0 }
def gevCommitNone : State := modGran (fun g => { g with commits := [commit0] }) busyMail
def gevCommit : State := modGran (fun g => { g with commits := [commit0], mirrors := [(7 * 2 ^ 32 + 1, mirror0)] }) busyMail
def gevCommitLate : State := spent gevCommit
def fwMsg (ws : List Word) : Packet := { pkt0 with w0 := 0x25400000, w1 := 0x00005000, w2 := 0x00005000, w3 := 0x00004000, w4 := 0x04000000, payload := wordsBytes ws }
def gevAskBad : State := heard (fwMsg [0x02000000, 1, 0]) run
def gevAsk : State := heard (fwMsg [0x02000000, 1, 7, 0, 1, 0, 4096, 4096, 0, 0, 0, 0, 0, 0, 0, 0]) run
def ask0 : MirrorAsk := { origin := ⟨32, .tenant, 7, 1⟩, pid := 7, shard := 1, owner := 10, tags := ⟨1, 2, 3, 4⟩, generation := 1, size := 4096, replicas := [], left := [], asked := 5, count := 1 }
def askS (s : State) : State := modGran (fun g => { g with asks := [(0, ask0)] }) s
def gevGrantNone : State := heard (fwMsg [0x03000000, 1, 7]) run
def gevGrant : State := askS (heard (fwMsg [0x03000000, 1, 7]) busyMail)
def gevGrantEnded : State := askS (heard (fwMsg [0x03000000, 1, 7]) run)
def gevDenyNone : State := heard (fwMsg [0x04000000, 1, 7]) run
def gevDeny : State := askS (heard (fwMsg [0x04000000, 1, 7]) busyMail)
def gevTake : State := chan (fun c => { c with phase := .running, cfg := { chan0 with producer := 1 } }) (regions [(1, { reg0 with kind := .ring })] run)
def chanFly (n op : Nat) (f : InFlight → InFlight) (s : State) : State := modChannel n (fun c => { c with phase := .running, cfg := chan0, flight := [f { flight0 with desc := { desc0 with op := op } }] }) (regions [(1, { reg0 with kind := .ring })] s)
def gevBusy : State := spent (chanFly 0 0 id run)
def gevPush : State := chanFly 24 2 id run
def gevPull : State := chanFly 24 3 (fun f => { f with unwritten := [0], pieces := [(0, [])] }) run
def repl (st : Nat) : Packet := { pkt0 with w0 := 0x21600000, w1 := 0x00000007, w3 := 0x00030000, w4 := 0, w5 := w32 (st * 2 ^ 24) }
def gevReplyNone : State := got 5 (repl 0) run
def asked0 (st : Nat) : State := got 5 (repl st) (chanFly 0 2 (fun f => { f with requests := [⟨0, 1, false, false⟩] }) run)
def gevReply0 : State := asked0 0
def gevReply1 : State := asked0 1
def gevReply2 : State := asked0 2
def gevReply3 : State := asked0 3
def gevReply4 : State := asked0 4
def fweReq : State := got 8 pkt0 run
def fweDrop : State := got 9 pkt0 run
def fweFull : State := modBuf (fun b => { b with fwIn := List.replicate 8192 pkt0 }) (got 7 (notice 1 0 1 1 []) run)
def fweOddNotice : State := got 7 (notice 2 0 1 1 []) run
def fweOddFirmware : State := got 7 (fwMsg [0x09000000]) run
def fweNotice : State := got 7 (notice 1 0 1 1 []) run
def fweFirmware : State := got 7 (fwMsg [0x01000000]) run
def fweOut : State := modBuf (fun b => { b with fwOut := [fwMsg [0x01000000]] }) run
def fweOutWait : State := modBuf (fun b => { b with waiting := [(17, [(⟨pkt0, 0⟩, none)])] }) fweOut
def fweSummary : State := heard (fwMsg [0x01000000]) run
def tmeMaster : State := modTime (fun x => { x with phase := .master }) run
def tmePps : State := modTime (fun x => { x with discipline := true }) tmeMaster
def tmePpsFar : State := { tmePps with clk := { tmePps.clk with dev := 30000000000000 } }
def timePkt (hops : Nat) (ack : Word) : Packet := { pkt0 with w0 := 0x29000000, w4 := 0x01000000, payload := wordsBytes [wordOf [at_ 31 28 4, at_ 26 23 hops], 0x00480000, 0, 0, 0, 0, ack, 0, 0, 0, 0, 0, 0, 0, 0, 0] }
def tmeUp : State := portUp
def tmeParent : State := modTime (fun x => { x with parent := some 0 }) run
def tmeAcq : State := modTime (fun x => { x with phase := .acquiring }) run
def tie0 (src n : Nat) : TieWait := { origin := ⟨0, .operator, 9, 0⟩, source := src, domain := 0, seconds := 0, offsets := List.replicate n 0 }
def tmeTie0 : State := modTime (fun x => { x with tie := some (tie0 0 0) }) run
def tmeTie15 : State := modTime (fun x => { x with tie := some (tie0 0 15) }) run
def tmeTie1 : State := modTime (fun x => { x with tie := some (tie0 1 0) }) run
def tmeTied1 : State := modTime (fun x => { x with phase := .master }) tmeTie1
def tmeTied15 : State := modTime (fun x => { x with phase := .master }) tmeTie15
def tmeHigh : State := modTime (fun x => { x with ppsHigh := true }) run
def tmeSent : State := modTime (fun x => { x with sentSeqs := [(0, [0])] }) portUp
def telNear : State := { run with fab := { run.fab with holdoff := true } }
def telChanged : State := { run with fab := { run.fab with holdoff := true, generation := 1 } }
def telSample : State := modTele (fun t => { t with sampleHoldoff := true, sampleNew := true }) run
def telSampleOld : State := modTele (fun t => { t with sampleHoldoff := true }) run
def crumb0 : CrumbRec := ⟨1, 0, 0, 0, true, 0, 0, 0⟩
def telCrumb : State := modTele (fun t => { t with crumbQueue := [crumb0] }) run
def telCrumbLate : State := spent telCrumb
def telRec : State := modTele (fun t => { t with sampleQueue := [([1], [])] }) run
def telRecLate : State := spent telRec
def telSnap : State := modTele (fun t => { t with snapshots := [⟨⟨0, .operator, 1, 0⟩, 0, []⟩] }) run
def mgeUp : State := modMgmt (fun m => { m with ports := [(0, { up := true, lldp := [] })] }) run
def mgeSession : State := modMgmt (fun m => { m with sessions := [(0, { network := 0, cls := .operator, cert := 1, port := 0, datagram := 1000 })] }) mgeUp
def mgePart : State := modMailbox 0 (fun m => { m with assembling := [{ seq := 7, opcode := 0x0101, ordered := false, deadline := 0, length := 100, cmajor := 1, cminor := 0, segments := [], session := 1 }] }) run
def mgeTimeout : State := modMailbox 0 (fun m => { m with kept := [⟨7, 0x0101, statusCode .timeout, 4, []⟩] }) run
def mgeEvents : State := modMgmt (fun m => { m with events := [(0, { queue := [⟨0x0101, 0, 0, 0, false, 0, 0, 0, 0, []⟩], nextSeq := 1, discarded := 0, inFlight := 1, sent := 1 })] }) mgeSession
def mgeBound : State := modMailbox 0 (fun m => { m with session := some 0 }) mgeEvents
def mgeAddr : State := modConfig (fun c => { c with netA := (1, 64, 1280) }) mgeUp
def rseEngine : State := asked 2 (engineScope 1 0) run
def rseIsland : State := asked 3 (islandScope (l3Home 8)) run
def k2 : DestEntry := { dest := 200, pid := 7, isStatic := false, hit := false, aged := false, gen := 0, poppy := 0, mask := 1 }
def twoCuckoo : State := modSlice 0 (fun x =>
  let y := { x with params := { x.params with cuckoo := true } }
  let at2 (i : Nat) (t : Tab DestEntry) : Tab DestEntry := tabPut t i k2
  { y with dest := ((destSlots y 7 100) ++ (destSlots y 7 200)).foldl (fun t i => at2 i t) [] }) run

end Sys2Proof.Tests
end

