-- ==== Sys2Proof/WellFormed.lean ====
section
/-! DEFINITION. Well-formed commands: every operand lies within the width that the spec gives the thing it names. A
command of the contract may carry any value that its body words hold; whether the value is accepted is the command's own
rule. -/

namespace Sys2Proof

/-- Lanes, ports, engines, fibres, slices, stacks, bays and management ports (00 Table 0.4). -/
def isLane (n : Nat) : Bool := decide (n < 2048)
def isPort (n : Nat) : Bool := decide (n < 2048)
def isEngine (n : Nat) : Bool := decide (n < 32)
def isFibre (n : Nat) : Bool := decide (n < 8)
def isSlice (n : Nat) : Bool := decide (n < 8)
def isStack (n : Nat) : Bool := decide (n < 16)
def isBay (n : Nat) : Bool := decide (n < 10)
def isMgmtPort (n : Nat) : Bool := decide (n < 8)
def isClass (n : Nat) : Bool := decide (n < 8)
def isMailbox (n : Nat) : Bool := decide (n < 64)

/-- The assigned island IDs: control, compute, slices, clusters, Knead groups, the Mill, stacks, optical dies (01 R22). -/
def isIsland (n : Nat) : Bool :=
  decide (n < 2) || (decide (8 ≤ n) && decide (n < 0x38)) || decide (n = 0x38) || (decide (0x40 ≤ n) && decide (n < 0x58))

/-- An engine scope of L2 by TYPE and INDEX: Knead units, the Mill, DMA channels, stacks, lane groups, ports (17 R552). -/
def isUnit (typ n : Nat) : Bool :=
  decide (typ = 1) && decide (n < 64) || decide (typ = 2) && decide (n = 0) || decide (typ = 3) && decide (n < 32) ||
    decide (typ = 4) && isStack n || decide (typ = 5) && decide (n < 256) || decide (typ = 6) && isPort n

/-- Spine IDs and group IDs (00 Table 0.4). -/
def isSid (n : Nat) : Bool := decide (n < 2 ^ 13)
def isGid (n : Nat) : Bool := decide (n < 2 ^ 20)

/-- Bytes, half words, words, MAC and IPv6 addresses. -/
def isByte (n : Nat) : Bool := decide (n < 256)
def isU16 (n : Nat) : Bool := decide (n < 2 ^ 16)
def isU32 (n : Nat) : Bool := decide (n < 2 ^ 32)
def isMac (n : Nat) : Bool := decide (n < 2 ^ 48)
def isIp (n : Nat) : Bool := decide (n < 2 ^ 128)

/-- A caller: a mailbox that exists and a SEQ of 32 bits (15 Table 15.1, Table 15.2). -/
def originOk (o : Origin) : Bool := isMailbox o.mailbox && isU32 o.seq && decide (o.cert < 2 ^ 256)

/-- A packet's payload has the length of its header, 0 to 8,192 (04 Table 4.1). -/
def packetOk (p : Packet) : Bool := decide (p.payload.length = (p.w0 &&& 0xFFFF#32).toNat) && decide (p.payload.length ≤ 8192)

/-- A block carries a data slot of 256 bytes (03 R88). -/
def blockOk (b : Block) : Bool := decide (b.slot.length = 256)

/-- What a start finds names units that exist (20 R619; 00 Table 0.4). -/
def startOk (o : StartOutcome) : Bool :=
  decide (o.bootMode < 4) && decide (o.modSlot < 64) && o.badStacks.all isStack && o.badBays.all isBay && o.baysFitted.all isBay

/-- A monitor photodiode: one for each engine and colour (02 R60). -/
def fadeOk (m : FadeLevel) : Bool := isEngine m.engine && decide (m.colour < 8)

/-- The fields of a tag set (12 Table 12.3). -/
def tagsOk (t : TagSet) : Bool := isU32 t.tray && isU32 t.powerShelf && isU32 t.coolingLoop && isU32 t.switch

/-- The fields of a policy (12 Table 12.2). -/
def policyOk (p : Policy) : Bool := isU32 p.diversity && isU32 p.stackMask && p.spines.all isSid

/-- Well-formed commands. -/
def Instr.wellFormed (i : Instr) : Bool :=
  match i with
  | .powerOn => true
  | .inputUndervoltage => true
  | .inputOvervoltage => true
  | .inputOvercurrent => true
  | .latchClear => true
  | .supplyLoss => true
  | .modRstNAssert => true
  | .modRstNRelease => true
  | .coldStart o => startOk o
  | .startTimeout step => decide (step < 16)
  | .warmStart o => startOk o
  | .refclkLoss => true
  | .thermalTrip => true
  | .throttleEvaluation _ => true
  | .capUnattainable => true
  | .telemetryUpdate _ => true
  | .coolantDeltaAlarm => true
  | .startStatusRead code => isByte code
  | .bayInterlockOpen bay => isBay bay
  | .bayInserted bay => isBay bay
  | .jtagInstructionLoad code => isByte code
  | .jtagTestLogicReset => true
  | .pllUnlock isl => isIsland isl
  | .pllRelock isl => isIsland isl
  | .pllRelockTimeout isl => isIsland isl
  | .controlAgentAccess isl _ => isIsland isl
  | .registerWrite addr _ => isIsland (addr / 2 ^ 24)
  | .addrErrClear isl _ => isIsland isl
  | .agentTimeout isl addr => isIsland isl && isIsland (addr / 2 ^ 24)
  | .agentEventDelivery isl => isIsland isl
  | .crossingDelivery src dst _ => isIsland src && isIsland dst
  | .ringSearchFull engine fibre _ _ seen => isEngine engine && isFibre fibre && decide (seen.length ≤ 40)
  | .ringSearchPartial engine fibre _ _ found => isEngine engine && isFibre fibre && decide (found.length ≤ 40)
  | .dieTempOutOfWindow d _ => decide (d < 8)
  | .powerTelemetry _ => true
  | .ringUnlock engine fibre row slot => isEngine engine && isFibre fibre && decide (row < 5) && decide (slot < 8)
  | .ringRelock engine fibre row slot => isEngine engine && isFibre fibre && decide (row < 5) && decide (slot < 8)
  | .laneRejoinTimeout lane => isLane lane
  | .laserMonitorSample m => fadeOk m
  | .laserFadeAverage levels => levels.all fadeOk
  | .spareLocked pos _ => isBay pos
  | .spareLockTimeout pos => isBay pos
  | .cutoverPauseTime bay => decide (bay < 8)
  | .cutoverSwitchSettled bay => decide (bay < 8)
  | .cutoverComplete bay => decide (bay < 8)
  | .openFibreDetect engine fibre => isEngine engine && isFibre fibre
  | .backReflectionHigh engine fibre => isEngine engine && isFibre fibre
  | .eyeSafetyProbe engine fibre => isEngine engine && isFibre fibre
  | .eyeSafetyProbeEnd engine fibre _ => isEngine engine && isFibre fibre
  | .eyeSafetyRestore engine fibre => isEngine engine && isFibre fibre
  | .crustWindowEnd => true
  | .crustChangeApply engine => isEngine engine
  | .crustEffective engine => isEngine engine
  | .crustLit _ => true
  | .blockSlot lane => isLane lane
  | .dataBlockRx lane block => isLane lane && blockOk block
  | .idleBlockRx lane block => isLane lane && blockOk block
  | .localBlockRx lane block => isLane lane && blockOk block
  | .nakGapTimeout port => isPort port
  | .ackTimeoutReplay port => isPort port
  | .replayLimit port => isPort port
  | .creditRepeatTick port => isPort port
  | .creditTargetTick port => isPort port
  | .creditGrantTick port => isPort port
  | .delineationLock lane => isLane lane
  | .delineationLoss lane => isLane lane
  | .laneErrorRate lane => isLane lane
  | .signalDetect lane => isLane lane
  | .lightLost lane => isLane lane
  | .acquireLock lane => isLane lane
  | .acquireTimeout lane => isLane lane
  | .delineateTimeout lane => isLane lane
  | .verifyPass lane received => isLane lane && decide (received < 2048)
  | .laneMessageRx port msgId action lanes => isPort port && isByte msgId && decide (action < 2) && isByte lanes
  | .pauseRx port msgId time len lanes => isPort port && isByte msgId && isU32 time && isU16 len && isByte lanes
  | .pauseWindowEnd port => isPort port
  | .retrainRx port msgId => isPort port && isByte msgId
  | .llAckRx port llType msgId => isPort port && isByte llType && isByte msgId
  | .llRetryTick port => isPort port
  | .helloRx port pkt arrival => isPort port && packetOk pkt && isU32 arrival
  | .helloTick port => isPort port
  | .helloWait port => isPort port
  | .creditTimeout port => isPort port
  | .resumeTimeout port => isPort port
  | .packetHeaderRx port pkt slots => isPort port && packetOk pkt && decide (slots ≤ 129)
  | .c0PolicerRelease port => isPort port
  | .packetTrailerCheck _ _ _ => true
  | .learnMsgRx slice => isSlice slice
  | .stagingWrite => true
  | .headroomFilled slice => isSlice slice
  | .injectionWrite source => decide (8 ≤ source) && decide (source ≤ 17)
  | .queueStalenessExpiry port cls vc => isPort port && decide (cls < 5) && decide (vc < 2)
  | .portStalenessExpiry port => isPort port
  | .huskWaitExpiry port cls src => isPort port && decide (cls < 5) && decide (src < 17)
  | .huskMoveEnd port cls => isPort port && decide (cls < 5)
  | .bucketLockTimeout slice bucket => isSlice slice && isU32 bucket
  | .sweepTick slice _ => isSlice slice
  | .winnowWeightTick => true
  | .proofPeriodBoundary => true
  | .lendIdleTimeout act res => decide (act < 10) && decide (res < 4)
  | .contributionRx _ => true
  | .slotResultWritten gid portion slot => isGid gid && decide (portion < 4096) && decide (slot < 256)
  | .gatherSend gid _ _ => isGid gid
  | .spillIdleTimeout gid portion => isGid gid && decide (portion < 4096)
  | .spillComplete gid portion => isGid gid && decide (portion < 4096)
  | .spillRestore gid portion _ => isGid gid && decide (portion < 4096)
  | .loafStalenessExpiry gid portion => isGid gid && decide (portion < 4096)
  | .abortRx => true
  | .stagingSramError unit _ _ => decide (unit < 64)
  | .reserveRx => true
  | .reservedRx => true
  | .refusedRx => true
  | .commitRx => true
  | .committedRx => true
  | .releaseRx => true
  | .closeRx => true
  | .closedRx => true
  | .endpointDownRx => true
  | .reserveAnswerTimeout _ sid => isSid sid
  | .reservationExpiry home _ => isSid home
  | .commitTimeout _ => true
  | .closeRepeatTick _ => true
  | .loafGraceExpiry _ => true
  | .spineRequestRx => true
  | .spinePacketDiscard => true
  | .firmwareControlRx => true
  | .fwOutboundDrain => true
  | .summaryTick load => decide (load ≤ 256)
  | .summaryRx => true
  | .mirrorAskRx => true
  | .mirrorGrantRx => true
  | .mirrorDenyRx => true
  | .mirrorAskTimeout _ => true
  | .replyRx => true
  | .dispatchRx => true
  | .batchWaitExpiry context => decide (context < 128)
  | .routerMmaDone => true
  | .replicaChoice context _ _ slot => decide (context < 128) && decide (slot < 16)
  | .tokenDispatch context _ _ => decide (context < 128)
  | .expertReturnRx => true
  | .tokenStalenessExpiry context _ _ => decide (context < 128)
  | .millInstructionIssue => true
  | .mmaDone => true
  | .millCopyDone slot _ _ => decide (slot < 16)
  | .programStalenessExpiry slot => decide (slot < 16)
  | .millGraceExpiry _ => true
  | .millSramError _ _ => true
  | .granaryAccessRx => true
  | .granaryWriteDone _ => true
  | .granaryReadDone _ _ => true
  | .extentRetireDone region stack extent => isU32 region && isStack stack && isU32 extent
  | .scrubLine _ => true
  | .regionZeroed region => isU32 region
  | .mirrorReadbackDone _ => true
  | .gristChunkStage slot _ => decide (slot < 64)
  | .gristLaunch slot => decide (slot < 64)
  | .gristDone slot => decide (slot < 64)
  | .gristStalenessExpiry slot => decide (slot < 64)
  | .dmaDescriptorStart channel => decide (channel < 32)
  | .dmaWriteResponse channel _ _ => decide (channel < 32)
  | .dmaRequestTimeout channel _ _ => decide (channel < 32)
  | .dmaNoBufferRetry channel _ _ => decide (channel < 32)
  | .dmaDescriptorStaleness channel _ => decide (channel < 32)
  | .dmaGraceExpiry channel => decide (channel < 32)
  | .timeMsgTick => true
  | .timeMsgRx port pkt _ => isPort port && packetOk pkt
  | .parentLostTimeout => true
  | .gmSeqStall port => isPort port
  | .acquiringTimeout => true
  | .ppsInEdge => true
  | .ppsOutSecond _ => true
  | .ptpMessageRx mport domain _ => isMgmtPort mport && isByte domain
  | .snapshotLatch mailbox seq => isMailbox mailbox && isU32 seq
  | .crumbWrite => true
  | .sampleWrite => true
  | .dtlsHandshake mport _ _ _ => isMgmtPort mport
  | .sessionIdleTimeout _ => true
  | .commandPeelRx _ mport _ _ => isMgmtPort mport
  | .segmentTimeout mailbox _ seq => isMailbox mailbox && isU32 seq
  | .eventAckRx _ mport _ => isMgmtPort mport
  | .commandStepDispatch => true
  | .commandDeadlineExpiry mailbox seq => isMailbox mailbox && isU32 seq
  | .stepOverrun typ idx mailbox seq => isUnit typ idx && isMailbox mailbox && isU32 seq
  | .eventSend mailbox => isMailbox mailbox
  | .eventResendTimeout mailbox => isMailbox mailbox
  | .lldpTick mport => isMgmtPort mport
  | .lldpRx mport frame => isMgmtPort mport && decide (frame.length ≤ 1500)
  | .neighborDiscoveryRx mport _ srcMac src target => isMgmtPort mport && isMac srcMac && isIp src && isIp target
  | .icmpEchoRx mport srcMac src dst ident seqNo _ => isMgmtPort mport && isMac srcMac && isIp src && isIp dst && isU16 ident && isU16 seqNo
  | .packetTooBigRx _ mtu => isU32 mtu
  | .mgmtPortLinkChange mport _ => isMgmtPort mport
  | .proposalExpiry _ => true
  | .debugLockReturn => true
  | .sessionKeyExpiry _ => true
  | .l1Overrun typ idx objType _ => isUnit typ idx && isByte objType
  | .engineReset typ idx _ => isUnit typ idx
  | .l2Overrun typ idx => isUnit typ idx
  | .scopeReset isl _ => isIsland isl
  | .l3Overrun isl => isIsland isl
  | .dumpTimeout => true
  | .watchdogExpiry core => decide (core < 4)
  | .protectedSramError => true
  | .moduleCycleHold => true
  | .cycleHoldExpiry => true
  | .cycleRequestTimeout => true
  | .linkSetSid o sid => originOk o && isU32 sid
  | .linkNeighbours o => originOk o
  | .linkLldp o mport => originOk o && isU32 mport
  | .linkFibreLength o lengths => originOk o && lengths.all (fun x => isU32 x.1 && isU32 x.2)
  | .linkLoopback o engine fibre _ => originOk o && isU32 engine && isU32 fibre
  | .linkCommission o engines powers => originOk o && isU32 engines && powers.all isU32
  | .linkSpareMode o _ => originOk o
  | .linkBayReturn o bay => originOk o && isU32 bay
  | .linkRingRecord o die => originOk o && isU32 die
  | .portWidth o widths => originOk o && widths.all (fun x => isU32 x.1 && isU32 x.2)
  | .portCompat o port _ => originOk o && isU32 port
  | .portMode o port mask => originOk o && isU32 port && isU32 mask
  | .portSample o port k => originOk o && isU32 port && isU32 k
  | .portStale o port queueUs portUs => originOk o && isU32 port && isU32 queueUs && isU32 portUs
  | .portHuskWait o port cls us => originOk o && isU32 port && isU32 cls && isU32 us
  | .portRetrain o port => originOk o && isU32 port
  | .portLane o port mask _ => originOk o && isU32 port && isU32 mask
  | .portState o port => originOk o && isU32 port
  | .tableWrite o table slices g elems _ => originOk o && isU32 table && isU32 slices && isU32 g && elems.all (fun e => isU32 e.index)
  | .tableRead o table slice first amount => originOk o && isU32 table && isU32 slice && isU32 first && isU32 amount
  | .tablePurge o slices pid g => originOk o && isU32 slices && isU32 pid && isU32 g
  | .tableParams o slices _ => originOk o && isU32 slices
  | .tablePartition o pid _ _ => originOk o && isU32 pid
  | .tableFence o pid notify => originOk o && isU32 pid && notify.all isU32
  | .tableAdvance o pid epoch => originOk o && isU32 pid && isU32 epoch
  | .tableOpen o pid => originOk o && isU32 pid
  | .tableRootPriority o value => originOk o && isU32 value
  | .classCreditWeight o port weights => originOk o && isU32 port && weights.all isU32
  | .classSched o port weights credits overhead => originOk o && isU32 port && weights.all isU32 && credits.all isU32 && isU32 overhead
  | .classShaper o port target _ => originOk o && isU32 port && isU32 target
  | .classMarker o port cls _ => originOk o && isU32 port && isU32 cls
  | .classProfile o profile _ => originOk o && isU32 profile
  | .classQueue o port cls profile a mark => originOk o && isU32 port && isU32 cls && isU32 profile && isU32 a && isU32 mark
  | .classBudget o activity shares _ => originOk o && isU32 activity && shares.all isU32
  | .classBudgetRead o => originOk o
  | .loafGroupDefine o gid pid delivery members => originOk o && isU32 gid && isU32 pid && delivery.all isU32 && members.all isU32
  | .loafGroupDelete o gid => originOk o && isU32 gid
  | .loafLive o gid se _ => originOk o && isU32 gid && isU32 se
  | .loafOpen o gid _ => originOk o && isU32 gid
  | .loafClose o gid recipe grace => originOk o && isU32 gid && isU32 recipe && isU32 grace
  | .loafAbortCommand o gid seq => originOk o && isU32 gid && isU32 seq
  | .loafMemberLost o gid member => originOk o && isU32 gid && isU32 member
  | .loafSizing o pid reach limit => originOk o && isU32 pid && isU32 reach && isU32 limit
  | .loafKnead o high low _ grace => originOk o && isU32 high && isU32 low && isU32 grace
  | .loafRecipes o gid => originOk o && isU32 gid
  | .millAlloc o pid pages => originOk o && isU32 pid && isU32 pages
  | .millLoad o slot pid stale _ _ => originOk o && isU32 slot && isU32 pid && isU32 stale
  | .millRun o slot => originOk o && isU32 slot
  | .millStop o slot => originOk o && isU32 slot
  | .millContext o context _ => originOk o && isU32 context
  | .millReplicas o context expert replicas => originOk o && isU32 context && isU32 expert && replicas.all (fun x => isU32 x.1 && isU32 x.2)
  | .millWeights o set pid format d e region offset _ => originOk o && isU32 set && isU32 pid && isU32 format && isU32 d && isU32 e && isU32 region && decide (offset < 2 ^ 64)
  | .millRestore o context address => originOk o && isU32 context && isU32 address
  | .millEnable o _ grace => originOk o && isU32 grace
  | .granaryCreate o _ stackSet extents => originOk o && isU32 stackSet && isU32 extents
  | .granaryFree o region => originOk o && isU32 region
  | .granarySet o region _ => originOk o && isU32 region
  | .granaryQuery o region => originOk o && isU32 region
  | .granaryMirrorOpen o shard owner tags generation size replicas => originOk o && decide (shard < 2 ^ 64) && isU32 owner && tagsOk tags && decide (generation < 2 ^ 64) && decide (size < 2 ^ 64) && replicas.all isU32
  | .granaryMirrorCommit o shard generation _ => originOk o && decide (shard < 2 ^ 64) && decide (generation < 2 ^ 64)
  | .granaryMirrorQuery o shard => originOk o && decide (shard < 2 ^ 64)
  | .granaryMirrorClose o shard => originOk o && decide (shard < 2 ^ 64)
  | .granaryChannelBind o channel pid rate => originOk o && isU32 channel && isU32 pid && isU32 rate
  | .granaryChannelSet o channel _ => originOk o && isU32 channel
  | .granaryChannelStart o channel => originOk o && isU32 channel
  | .granaryChannelStop o channel grace => originOk o && isU32 channel && isU32 grace
  | .granaryEnable o _ grace => originOk o && isU32 grace
  | .gristLoad o slot _ => originOk o && isU32 slot
  | .gristStart o slot => originOk o && isU32 slot
  | .gristStop o slot => originOk o && isU32 slot
  | .gristUnload o slot => originOk o && isU32 slot
  | .gristStatus o slot => originOk o && isU32 slot
  | .winnowPolicy o pid setting => originOk o && isU32 pid && policyOk setting
  | .winnowTags o entries => originOk o && entries.all (fun x => isU32 x.1 && isU32 x.2.1 && tagsOk x.2.2)
  | .winnowPin o _ => originOk o
  | .winnowUnpin o _ => originOk o
  | .winnowCrustMask o engine _ => originOk o && isU32 engine
  | .winnowLog o first amount => originOk o && isU32 first && isU32 amount
  | .timeTie o source domain t96 => originOk o && isU32 source && isU32 domain && decide (t96 < 2 ^ 96)
  | .timeAcceptStep o limit => originOk o && isU32 limit
  | .timeThresh o ns => originOk o && isU32 ns
  | .timeAsym o port asym => originOk o && isU32 port && decide (-2 ^ 31 ≤ asym) && decide (asym < 2 ^ 31)
  | .timePriority o value => originOk o && isU32 value
  | .timePps o _ => originOk o
  | .timeLaunchRead o most => originOk o && isU32 most
  | .timeStatus o => originOk o
  | .counterRead o ids => originOk o && ids.all isU32
  | .counterSnapshot o ids => originOk o && ids.all isU32
  | .counterFilter o _ => originOk o
  | .crumbRead o offset length => originOk o && decide (offset < 2 ^ 64) && isU32 length
  | .crumbDump o => originOk o
  | .crumbTrace o categories _ pid => originOk o && isU32 categories && isU32 pid
  | .resetContext o objType a b => originOk o && isU32 objType && isU32 a && isU32 b
  | .resetEngine o _ _ => originOk o
  | .resetSlice o slice _ => originOk o && isU32 slice
  | .resetChip o => originOk o
  | .resetCycle o => originOk o
  | .quorumList o => originOk o
  | .quorumApprove o proposal _ signature => originOk o && isU32 proposal && decide (signature < 2 ^ 1056)
  | .quorumWithdraw o proposal => originOk o && isU32 proposal
  | .keySession o pub nonce => originOk o && decide (pub.length = 133) && decide (nonce < 2 ^ 256)
  | .keyLoad o session _ slot counter _ => originOk o && isU32 session && isU32 slot && decide (counter < 2 ^ 64)
  | .keyBind o _ slot target direction pid => originOk o && isU32 slot && isU32 target && isU32 direction && isU32 pid
  | .keyZeroize o _ slot => originOk o && isU32 slot
  | .attestReport o nonce => originOk o && decide (nonce < 2 ^ 256)
  | .attestChain o => originOk o
  | .powerCap o watts => originOk o && isU32 watts
  | .powerStatus o => originOk o
  | .fwCaps o => originOk o
  | .fwInfo o => originOk o
  | .fwUpdate o length digest => originOk o && isU32 length && decide (digest < 2 ^ 512)
  | .fwStage o offset bytes => originOk o && isU32 offset && decide (4 + bytes.length ≤ 65536)
  | .fwCredit o mailbox credit => originOk o && isU32 mailbox && isU32 credit
  | .fwBindMailbox o mailbox pid cert => originOk o && isU32 mailbox && isU32 pid && decide (cert < 2 ^ 256)
  | .fwCredential o _ _ cert => originOk o && decide (cert < 2 ^ 256)
  | .fwNetwork o network address pfxLen mtu => originOk o && isU32 network && isIp address && isU32 pfxLen && isU32 mtu
  | .fwRegRead o addr amount => originOk o && isU32 addr && isU32 amount
  | .fwRegWrite o addr _ _ => originOk o && isU32 addr
  | .fwDebugUnlock o scope duration => originOk o && isU32 scope && isU32 duration
  | .acceptStepSampleTimeout => true
  | .tieSourceTimeout => true
  | .neighbourChangeHoldoffEnd => true
  | .sampleReadyHoldoffEnd => true
  | .baySelfTestDone bay => isBay bay
  | .flashWriteComplete => true

end Sys2Proof
end

