-- ==== Sys2Proof/Tests/Slice0.lean ====
section
/-! SUPPORT. Tests: an ill-formed term for each check of WellFormed, the worked examples of the spec, single steps, and
for each statement with hypotheses concrete states and operands that meet them. -/

set_option maxRecDepth 20000
set_option Elab.async false
set_option linter.unusedVariables false

namespace Sys2Proof.Tests

open Sys2Proof Sys2Proof.Machine

/-! ## Well-formed commands -/

/-- Every command has a well-formed term. -/
theorem test_every_command_well_formed : ([
    .powerOn, .inputUndervoltage, .inputOvervoltage, .inputOvercurrent, .latchClear, .supplyLoss, .modRstNAssert,
    .modRstNRelease, .coldStart found0, .startTimeout 0, .warmStart found0, .refclkLoss, .thermalTrip,
    .throttleEvaluation telem0, .capUnattainable, .telemetryUpdate telem0, .coolantDeltaAlarm, .startStatusRead 0,
    .bayInterlockOpen 0, .bayInserted 0, .jtagInstructionLoad 0, .jtagTestLogicReset, .pllUnlock 0, .pllRelock 0,
    .pllRelockTimeout 0, .controlAgentAccess 0 [], .registerWrite 0 none, .addrErrClear 0 true, .agentTimeout 0 0,
    .agentEventDelivery 0, .crossingDelivery 0 0 none, .ringSearchFull 0 0 true 0 [],
    .ringSearchPartial 0 0 true 0 [], .dieTempOutOfWindow 0 0, .powerTelemetry 0, .ringUnlock 0 0 0 0,
    .ringRelock 0 0 0 0, .laneRejoinTimeout 0, .laserMonitorSample ⟨0, 0, 0⟩, .laserFadeAverage [],
    .spareLocked 0 [], .spareLockTimeout 0, .cutoverPauseTime 0, .cutoverSwitchSettled 0, .cutoverComplete 0,
    .openFibreDetect 0 0, .backReflectionHigh 0 0, .eyeSafetyProbe 0 0, .eyeSafetyProbeEnd 0 0 true,
    .eyeSafetyRestore 0 0, .crustWindowEnd, .crustChangeApply 0, .crustEffective 0, .crustLit 0, .blockSlot 0,
    .dataBlockRx 0 idleBlock, .idleBlockRx 0 idleBlock, .localBlockRx 0 idleBlock, .nakGapTimeout 0,
    .ackTimeoutReplay 0, .replayLimit 0, .creditRepeatTick 0, .creditTargetTick 0, .creditGrantTick 0,
    .delineationLock 0, .delineationLoss 0, .laneErrorRate 0, .signalDetect 0, .lightLost 0, .acquireLock 0,
    .acquireTimeout 0, .delineateTimeout 0, .verifyPass 0 0, .laneMessageRx 0 0 0 0, .pauseRx 0 0 0 0 0,
    .pauseWindowEnd 0, .retrainRx 0 0, .llAckRx 0 0 0, .llRetryTick 0, .helloRx 0 pkt0 0, .helloTick 0,
    .helloWait 0, .creditTimeout 0, .resumeTimeout 0, .packetHeaderRx 0 pkt0 0, .c0PolicerRelease 0,
    .packetTrailerCheck 0 .pass 0, .learnMsgRx 0, .stagingWrite, .headroomFilled 0, .injectionWrite 8,
    .queueStalenessExpiry 0 0 0, .portStalenessExpiry 0, .huskWaitExpiry 0 0 0, .huskMoveEnd 0 0,
    .bucketLockTimeout 0 0, .sweepTick 0 true, .winnowWeightTick, .proofPeriodBoundary, .lendIdleTimeout 0 0,
    .contributionRx [], .slotResultWritten 0 0 0, .gatherSend 0 0 [], .spillIdleTimeout 0 0, .spillComplete 0 0,
    .spillRestore 0 0 [], .loafStalenessExpiry 0 0, .abortRx, .stagingSramError 0 none true, .reserveRx,
    .reservedRx, .refusedRx, .commitRx, .committedRx, .releaseRx, .closeRx, .closedRx, .endpointDownRx,
    .reserveAnswerTimeout 0 0, .reservationExpiry 0 0, .commitTimeout 0, .closeRepeatTick 0,
    .loafGraceExpiry (.close 0 0), .spineRequestRx, .spinePacketDiscard, .firmwareControlRx, .fwOutboundDrain,
    .summaryTick 0, .summaryRx, .mirrorAskRx, .mirrorGrantRx, .mirrorDenyRx, .mirrorAskTimeout 0, .replyRx,
    .dispatchRx, .batchWaitExpiry 0, .routerMmaDone, .replicaChoice 0 0 0 0, .tokenDispatch 0 0 0, .expertReturnRx,
    .tokenStalenessExpiry 0 0 0, .millInstructionIssue, .mmaDone, .millCopyDone 0 0 [], .programStalenessExpiry 0,
    .millGraceExpiry none, .millSramError .nothing true, .granaryAccessRx, .granaryWriteDone 0,
    .granaryReadDone 0 [], .extentRetireDone 0 0 0, .scrubLine none, .regionZeroed 0, .mirrorReadbackDone 0,
    .gristChunkStage 0 [], .gristLaunch 0, .gristDone 0, .gristStalenessExpiry 0, .dmaDescriptorStart 0,
    .dmaWriteResponse 0 0 [], .dmaRequestTimeout 0 0 0, .dmaNoBufferRetry 0 0 0, .dmaDescriptorStaleness 0 0,
    .dmaGraceExpiry 0, .timeMsgTick, .timeMsgRx 0 pkt0 0, .parentLostTimeout, .gmSeqStall 0, .acquiringTimeout,
    .ppsInEdge, .ppsOutSecond true, .ptpMessageRx 0 0 none, .snapshotLatch 0 0, .crumbWrite, .sampleWrite,
    .dtlsHandshake 0 0 true true, .sessionIdleTimeout 0, .commandPeelRx 0 0 peel0 .good, .segmentTimeout 0 0 0,
    .eventAckRx 0 0 peel0, .commandStepDispatch, .commandDeadlineExpiry 0 0, .stepOverrun 1 0 0 0, .eventSend 0,
    .eventResendTimeout 0, .lldpTick 0, .lldpRx 0 [], .neighborDiscoveryRx 0 true 0 0 0,
    .icmpEchoRx 0 0 0 0 0 0 [], .packetTooBigRx 0 0, .mgmtPortLinkChange 0 true, .proposalExpiry 0,
    .debugLockReturn, .sessionKeyExpiry 0, .l1Overrun 1 0 0 0, .engineReset 1 0 true, .l2Overrun 1 0,
    .scopeReset 0 true, .l3Overrun 0, .dumpTimeout, .watchdogExpiry 0, .protectedSramError, .moduleCycleHold,
    .cycleHoldExpiry, .cycleRequestTimeout, .linkSetSid oper 0, .linkNeighbours oper, .linkLldp oper 0,
    .linkFibreLength oper [], .linkLoopback oper 0 0 true, .linkCommission oper 0 [], .linkSpareMode oper true,
    .linkBayReturn oper 0, .linkRingRecord oper 0, .portWidth oper [], .portCompat oper 0 true, .portMode oper 0 0,
    .portSample oper 0 0, .portStale oper 0 0 0, .portHuskWait oper 0 0 0, .portRetrain oper 0,
    .portLane oper 0 0 true, .portState oper 0, .tableWrite oper 0 0 0 [] true, .tableRead oper 0 0 0 0,
    .tablePurge oper 0 0 0, .tableParams oper 0 ⟨0, 0, 2048, 2049, 4, false, 1000⟩, .tablePartition oper 0 0 [],
    .tableFence oper 0 [], .tableAdvance oper 0 0, .tableOpen oper 0, .tableRootPriority oper 0,
    .classCreditWeight oper 0 [], .classSched oper 0 [] [] 0, .classShaper oper 0 0 ⟨false, 1000, 65536⟩,
    .classMarker oper 0 0 ⟨true, 100, 8240, 200, 8240⟩, .classProfile oper 0 [], .classQueue oper 0 0 0 0 0,
    .classBudget oper 0 [] true, .classBudgetRead oper, .loafGroupDefine oper 0 0 [] [], .loafGroupDelete oper 0,
    .loafLive oper 0 0 [], .loafOpen oper 0 open0, .loafClose oper 0 0 0, .loafAbortCommand oper 0 0,
    .loafMemberLost oper 0 0, .loafSizing oper 0 0 0, .loafKnead oper 0 0 true 0, .loafRecipes oper 0,
    .millAlloc oper 0 0, .millLoad oper 0 0 0 [] [], .millRun oper 0, .millStop oper 0,
    .millContext oper 0 dispatch0, .millReplicas oper 0 0 [], .millWeights oper 0 0 0 0 0 0 0 [],
    .millRestore oper 0 0, .millEnable oper true 0, .granaryCreate oper region0 0 0, .granaryFree oper 0,
    .granarySet oper 0 region0, .granaryQuery oper 0, .granaryMirrorOpen oper 0 0 ⟨1, 2, 3, 4⟩ 0 0 [],
    .granaryMirrorCommit oper 0 0 0, .granaryMirrorQuery oper 0, .granaryMirrorClose oper 0,
    .granaryChannelBind oper 0 0 0, .granaryChannelSet oper 0 chan0, .granaryChannelStart oper 0,
    .granaryChannelStop oper 0 0, .granaryEnable oper true 0, .gristLoad oper 0 prm0, .gristStart oper 0,
    .gristStop oper 0, .gristUnload oper 0, .gristStatus oper 0, .winnowPolicy oper 0 policy0, .winnowTags oper [],
    .winnowPin oper (.crustPair 0 0 1), .winnowUnpin oper (.crustPair 0 0 1),
    .winnowCrustMask oper 0 ⟨true, 4, 0, 150, 50⟩, .winnowLog oper 0 0, .timeTie oper 0 0 0,
    .timeAcceptStep oper 0, .timeThresh oper 0, .timeAsym oper 0 0, .timePriority oper 0, .timePps oper true,
    .timeLaunchRead oper 0, .timeStatus oper, .counterRead oper [], .counterSnapshot oper [],
    .counterFilter oper filter0, .crumbRead oper 0 0, .crumbDump oper, .crumbTrace oper 0 true 0,
    .resetContext oper 0 0 0, .resetEngine oper 0 true, .resetSlice oper 0 true, .resetChip oper, .resetCycle oper,
    .quorumList oper, .quorumApprove oper 0 true 0, .quorumWithdraw oper 0,
    .keySession oper (List.replicate 133 0) 0, .keyLoad oper 0 true 0 0 [], .keyBind oper true 0 0 0 0,
    .keyZeroize oper true 0, .attestReport oper 0, .attestChain oper, .powerCap oper 0, .powerStatus oper,
    .fwCaps oper, .fwInfo oper, .fwUpdate oper 0 0, .fwStage oper 0 [], .fwCredit oper 0 0,
    .fwBindMailbox oper 0 0 0, .fwCredential oper true .operator 0, .fwNetwork oper 0 0 0 0, .fwRegRead oper 0 0,
    .fwRegWrite oper 0 0 0, .fwDebugUnlock oper 0 0, .acceptStepSampleTimeout, .tieSourceTimeout,
    .neighbourChangeHoldoffEnd, .sampleReadyHoldoffEnd, .baySelfTestDone 0, .flashWriteComplete] : List Instr).all Instr.wellFormed = true := by decide +kernel

/-- One ill-formed term for each check of the commands, part 1: the check refuses it. -/
theorem test_ill_formed_1 : ([
    .coldStart { found0 with bootMode := 4 }, .startTimeout (16), .warmStart { found0 with bootMode := 4 },
    .startStatusRead 256, .bayInterlockOpen 10, .bayInserted 10, .jtagInstructionLoad 256, .pllUnlock 2,
    .pllRelock 2, .pllRelockTimeout 2, .controlAgentAccess 2 [], .registerWrite (2 ^ 25) none,
    .addrErrClear 2 true, .agentTimeout 2 0, .agentTimeout 0 (2 ^ 25), .agentEventDelivery 2,
    .crossingDelivery 2 0 none, .crossingDelivery 0 2 none, .ringSearchFull 32 0 true 0 [],
    .ringSearchFull 0 8 true 0 [], .ringSearchFull 0 0 true 0 (List.replicate 41 []),
    .ringSearchPartial 32 0 true 0 [], .ringSearchPartial 0 8 true 0 [],
    .ringSearchPartial 0 0 true 0 (List.replicate 41 none), .dieTempOutOfWindow (8) 0, .ringUnlock 32 0 0 0,
    .ringUnlock 0 8 0 0, .ringUnlock 0 0 (5) 0, .ringUnlock 0 0 0 (8), .ringRelock 32 0 0 0, .ringRelock 0 8 0 0,
    .ringRelock 0 0 (5) 0, .ringRelock 0 0 0 (8), .laneRejoinTimeout 2048, .laserMonitorSample ⟨32, 0, 0⟩,
    .laserFadeAverage [⟨32, 0, 0⟩], .spareLocked 10 [], .spareLockTimeout 10, .cutoverPauseTime (8),
    .cutoverSwitchSettled (8), .cutoverComplete (8), .openFibreDetect 32 0, .openFibreDetect 0 8,
    .backReflectionHigh 32 0, .backReflectionHigh 0 8, .eyeSafetyProbe 32 0, .eyeSafetyProbe 0 8,
    .eyeSafetyProbeEnd 32 0 true, .eyeSafetyProbeEnd 0 8 true, .eyeSafetyRestore 32 0, .eyeSafetyRestore 0 8,
    .crustChangeApply 32, .crustEffective 32, .blockSlot 2048, .dataBlockRx 2048 idleBlock, .dataBlockRx 0 block0,
    .idleBlockRx 2048 idleBlock, .idleBlockRx 0 block0, .localBlockRx 2048 idleBlock, .localBlockRx 0 block0,
    .nakGapTimeout 2048, .ackTimeoutReplay 2048, .replayLimit 2048, .creditRepeatTick 2048, .creditTargetTick 2048,
    .creditGrantTick 2048, .delineationLock 2048, .delineationLoss 2048, .laneErrorRate 2048, .signalDetect 2048,
    .lightLost 2048, .acquireLock 2048, .acquireTimeout 2048, .delineateTimeout 2048, .verifyPass 2048 0,
    .verifyPass 0 (2048), .laneMessageRx 2048 0 0 0, .laneMessageRx 0 256 0 0, .laneMessageRx 0 0 (2) 0,
    .laneMessageRx 0 0 0 256, .pauseRx 2048 0 0 0 0, .pauseRx 0 256 0 0 0, .pauseRx 0 0 (2 ^ 32) 0 0,
    .pauseRx 0 0 0 (2 ^ 16) 0, .pauseRx 0 0 0 0 256, .pauseWindowEnd 2048, .retrainRx 2048 0] : List Instr).any Instr.wellFormed = false := by decide +kernel

/-- One ill-formed term for each check of the commands, part 2: the check refuses it. -/
theorem test_ill_formed_2 : ([
    .retrainRx 0 256, .llAckRx 2048 0 0, .llAckRx 0 256 0, .llAckRx 0 0 256, .llRetryTick 2048,
    .helloRx 2048 pkt0 0, .helloRx 0 { pkt0 with payload := [0] } 0, .helloRx 0 pkt0 (2 ^ 32), .helloTick 2048,
    .helloWait 2048, .creditTimeout 2048, .resumeTimeout 2048, .packetHeaderRx 2048 pkt0 0,
    .packetHeaderRx 0 { pkt0 with payload := [0] } 0, .packetHeaderRx 0 pkt0 130, .c0PolicerRelease 2048,
    .learnMsgRx 8, .headroomFilled 8, .injectionWrite 7, .injectionWrite 18, .queueStalenessExpiry 2048 0 0,
    .queueStalenessExpiry 0 (5) 0, .queueStalenessExpiry 0 0 (2), .portStalenessExpiry 2048,
    .huskWaitExpiry 2048 0 0, .huskWaitExpiry 0 (5) 0, .huskWaitExpiry 0 0 (17), .huskMoveEnd 2048 0,
    .huskMoveEnd 0 (5), .bucketLockTimeout 8 0, .bucketLockTimeout 0 (2 ^ 32), .sweepTick 8 true,
    .lendIdleTimeout (10) 0, .lendIdleTimeout 0 (4), .slotResultWritten (2 ^ 20) 0 0,
    .slotResultWritten 0 (4096) 0, .slotResultWritten 0 0 (256), .gatherSend (2 ^ 20) 0 [],
    .spillIdleTimeout (2 ^ 20) 0, .spillIdleTimeout 0 (4096), .spillComplete (2 ^ 20) 0, .spillComplete 0 (4096),
    .spillRestore (2 ^ 20) 0 [], .spillRestore 0 (4096) [], .loafStalenessExpiry (2 ^ 20) 0,
    .loafStalenessExpiry 0 (4096), .stagingSramError (64) none true, .reserveAnswerTimeout 0 (2 ^ 13),
    .reservationExpiry (2 ^ 13) 0, .summaryTick 257, .batchWaitExpiry (128), .replicaChoice (128) 0 0 0,
    .replicaChoice 0 0 0 (16), .tokenDispatch (128) 0 0, .tokenStalenessExpiry (128) 0 0, .millCopyDone (16) 0 [],
    .programStalenessExpiry (16), .extentRetireDone (2 ^ 32) 0 0, .extentRetireDone 0 16 0,
    .extentRetireDone 0 0 (2 ^ 32), .regionZeroed (2 ^ 32), .gristChunkStage (64) [], .gristLaunch (64),
    .gristDone (64), .gristStalenessExpiry (64), .dmaDescriptorStart (32), .dmaWriteResponse (32) 0 [],
    .dmaRequestTimeout (32) 0 0, .dmaNoBufferRetry (32) 0 0, .dmaDescriptorStaleness (32) 0, .dmaGraceExpiry (32),
    .timeMsgRx 2048 pkt0 0, .timeMsgRx 0 { pkt0 with payload := [0] } 0, .gmSeqStall 2048, .ptpMessageRx 8 0 none,
    .ptpMessageRx 0 256 none, .snapshotLatch 64 0, .snapshotLatch 0 (2 ^ 32), .dtlsHandshake 8 0 true true,
    .commandPeelRx 0 8 peel0 .good, .segmentTimeout 64 0 0, .segmentTimeout 0 0 (2 ^ 32), .eventAckRx 0 8 peel0,
    .commandDeadlineExpiry 64 0, .commandDeadlineExpiry 0 (2 ^ 32), .stepOverrun 0 0 0 0, .stepOverrun 1 0 64 0] : List Instr).any Instr.wellFormed = false := by decide +kernel

/-- One ill-formed term for each check of the commands, part 3: the check refuses it. -/
theorem test_ill_formed_3 : ([
    .stepOverrun 1 0 0 (2 ^ 32), .eventSend 64, .eventResendTimeout 64, .lldpTick 8, .lldpRx 8 [],
    .lldpRx 0 (List.replicate 1501 0), .neighborDiscoveryRx 8 true 0 0 0, .neighborDiscoveryRx 0 true (2 ^ 48) 0 0,
    .neighborDiscoveryRx 0 true 0 (2 ^ 128) 0, .neighborDiscoveryRx 0 true 0 0 (2 ^ 128),
    .icmpEchoRx 8 0 0 0 0 0 [], .icmpEchoRx 0 (2 ^ 48) 0 0 0 0 [], .icmpEchoRx 0 0 (2 ^ 128) 0 0 0 [],
    .icmpEchoRx 0 0 0 (2 ^ 128) 0 0 [], .icmpEchoRx 0 0 0 0 (2 ^ 16) 0 [], .icmpEchoRx 0 0 0 0 0 (2 ^ 16) [],
    .packetTooBigRx 0 (2 ^ 32), .mgmtPortLinkChange 8 true, .l1Overrun 0 0 0 0, .l1Overrun 1 0 256 0,
    .engineReset 0 0 true, .l2Overrun 0 0, .scopeReset 2 true, .l3Overrun 2, .watchdogExpiry (4),
    .linkSetSid { oper with mailbox := 64 } 0, .linkSetSid oper (2 ^ 32),
    .linkNeighbours { oper with mailbox := 64 }, .linkLldp { oper with mailbox := 64 } 0, .linkLldp oper (2 ^ 32),
    .linkFibreLength { oper with mailbox := 64 } [], .linkFibreLength oper [(2 ^ 32, 0)],
    .linkFibreLength oper [(0, 2 ^ 32)], .linkLoopback { oper with mailbox := 64 } 0 0 true,
    .linkLoopback oper (2 ^ 32) 0 true, .linkLoopback oper 0 (2 ^ 32) true,
    .linkCommission { oper with mailbox := 64 } 0 [], .linkCommission oper (2 ^ 32) [],
    .linkCommission oper 0 [(2 ^ 32)], .linkSpareMode { oper with mailbox := 64 } true,
    .linkBayReturn { oper with mailbox := 64 } 0, .linkBayReturn oper (2 ^ 32),
    .linkRingRecord { oper with mailbox := 64 } 0, .linkRingRecord oper (2 ^ 32),
    .portWidth { oper with mailbox := 64 } [], .portWidth oper [(2 ^ 32, 0)], .portWidth oper [(0, 2 ^ 32)],
    .portCompat { oper with mailbox := 64 } 0 true, .portCompat oper (2 ^ 32) true,
    .portMode { oper with mailbox := 64 } 0 0, .portMode oper (2 ^ 32) 0, .portMode oper 0 (2 ^ 32),
    .portSample { oper with mailbox := 64 } 0 0, .portSample oper (2 ^ 32) 0, .portSample oper 0 (2 ^ 32),
    .portStale { oper with mailbox := 64 } 0 0 0, .portStale oper (2 ^ 32) 0 0, .portStale oper 0 (2 ^ 32) 0,
    .portStale oper 0 0 (2 ^ 32), .portHuskWait { oper with mailbox := 64 } 0 0 0, .portHuskWait oper (2 ^ 32) 0 0,
    .portHuskWait oper 0 (2 ^ 32) 0, .portHuskWait oper 0 0 (2 ^ 32), .portRetrain { oper with mailbox := 64 } 0,
    .portRetrain oper (2 ^ 32), .portLane { oper with mailbox := 64 } 0 0 true, .portLane oper (2 ^ 32) 0 true,
    .portLane oper 0 (2 ^ 32) true, .portState { oper with mailbox := 64 } 0, .portState oper (2 ^ 32),
    .tableWrite { oper with mailbox := 64 } 0 0 0 [] true, .tableWrite oper (2 ^ 32) 0 0 [] true,
    .tableWrite oper 0 (2 ^ 32) 0 [] true, .tableWrite oper 0 0 (2 ^ 32) [] true,
    .tableWrite oper 0 0 0 [⟨2 ^ 32, []⟩] true, .tableRead { oper with mailbox := 64 } 0 0 0 0,
    .tableRead oper (2 ^ 32) 0 0 0, .tableRead oper 0 (2 ^ 32) 0 0, .tableRead oper 0 0 (2 ^ 32) 0,
    .tableRead oper 0 0 0 (2 ^ 32), .tablePurge { oper with mailbox := 64 } 0 0 0, .tablePurge oper (2 ^ 32) 0 0,
    .tablePurge oper 0 (2 ^ 32) 0, .tablePurge oper 0 0 (2 ^ 32),
    .tableParams { oper with mailbox := 64 } 0 ⟨0, 0, 2048, 2049, 4, false, 1000⟩,
    .tableParams oper (2 ^ 32) ⟨0, 0, 2048, 2049, 4, false, 1000⟩,
    .tablePartition { oper with mailbox := 64 } 0 0 []] : List Instr).any Instr.wellFormed = false := by decide +kernel

/-- One ill-formed term for each check of the commands, part 4: the check refuses it. -/
theorem test_ill_formed_4 : ([
    .tablePartition oper (2 ^ 32) 0 [], .tableFence { oper with mailbox := 64 } 0 [], .tableFence oper (2 ^ 32) [],
    .tableFence oper 0 [(2 ^ 32)], .tableAdvance { oper with mailbox := 64 } 0 0, .tableAdvance oper (2 ^ 32) 0,
    .tableAdvance oper 0 (2 ^ 32), .tableOpen { oper with mailbox := 64 } 0, .tableOpen oper (2 ^ 32),
    .tableRootPriority { oper with mailbox := 64 } 0, .tableRootPriority oper (2 ^ 32),
    .classCreditWeight { oper with mailbox := 64 } 0 [], .classCreditWeight oper (2 ^ 32) [],
    .classCreditWeight oper 0 [(2 ^ 32)], .classSched { oper with mailbox := 64 } 0 [] [] 0,
    .classSched oper (2 ^ 32) [] [] 0, .classSched oper 0 [(2 ^ 32)] [] 0, .classSched oper 0 [] [(2 ^ 32)] 0,
    .classSched oper 0 [] [] (2 ^ 32), .classShaper { oper with mailbox := 64 } 0 0 ⟨false, 1000, 65536⟩,
    .classShaper oper (2 ^ 32) 0 ⟨false, 1000, 65536⟩, .classShaper oper 0 (2 ^ 32) ⟨false, 1000, 65536⟩,
    .classMarker { oper with mailbox := 64 } 0 0 ⟨true, 100, 8240, 200, 8240⟩,
    .classMarker oper (2 ^ 32) 0 ⟨true, 100, 8240, 200, 8240⟩,
    .classMarker oper 0 (2 ^ 32) ⟨true, 100, 8240, 200, 8240⟩, .classProfile { oper with mailbox := 64 } 0 [],
    .classProfile oper (2 ^ 32) [], .classQueue { oper with mailbox := 64 } 0 0 0 0 0,
    .classQueue oper (2 ^ 32) 0 0 0 0, .classQueue oper 0 (2 ^ 32) 0 0 0, .classQueue oper 0 0 (2 ^ 32) 0 0,
    .classQueue oper 0 0 0 (2 ^ 32) 0, .classQueue oper 0 0 0 0 (2 ^ 32),
    .classBudget { oper with mailbox := 64 } 0 [] true, .classBudget oper (2 ^ 32) [] true,
    .classBudget oper 0 [(2 ^ 32)] true, .classBudgetRead { oper with mailbox := 64 },
    .loafGroupDefine { oper with mailbox := 64 } 0 0 [] [], .loafGroupDefine oper (2 ^ 32) 0 [] [],
    .loafGroupDefine oper 0 (2 ^ 32) [] [], .loafGroupDefine oper 0 0 [(2 ^ 32)] [],
    .loafGroupDefine oper 0 0 [] [(2 ^ 32)], .loafGroupDelete { oper with mailbox := 64 } 0,
    .loafGroupDelete oper (2 ^ 32), .loafLive { oper with mailbox := 64 } 0 0 [], .loafLive oper (2 ^ 32) 0 [],
    .loafLive oper 0 (2 ^ 32) [], .loafOpen { oper with mailbox := 64 } 0 open0, .loafOpen oper (2 ^ 32) open0,
    .loafClose { oper with mailbox := 64 } 0 0 0, .loafClose oper (2 ^ 32) 0 0, .loafClose oper 0 (2 ^ 32) 0,
    .loafClose oper 0 0 (2 ^ 32), .loafAbortCommand { oper with mailbox := 64 } 0 0,
    .loafAbortCommand oper (2 ^ 32) 0, .loafAbortCommand oper 0 (2 ^ 32),
    .loafMemberLost { oper with mailbox := 64 } 0 0, .loafMemberLost oper (2 ^ 32) 0,
    .loafMemberLost oper 0 (2 ^ 32), .loafSizing { oper with mailbox := 64 } 0 0 0, .loafSizing oper (2 ^ 32) 0 0,
    .loafSizing oper 0 (2 ^ 32) 0, .loafSizing oper 0 0 (2 ^ 32),
    .loafKnead { oper with mailbox := 64 } 0 0 true 0, .loafKnead oper (2 ^ 32) 0 true 0,
    .loafKnead oper 0 (2 ^ 32) true 0, .loafKnead oper 0 0 true (2 ^ 32),
    .loafRecipes { oper with mailbox := 64 } 0, .loafRecipes oper (2 ^ 32),
    .millAlloc { oper with mailbox := 64 } 0 0, .millAlloc oper (2 ^ 32) 0, .millAlloc oper 0 (2 ^ 32),
    .millLoad { oper with mailbox := 64 } 0 0 0 [] [], .millLoad oper (2 ^ 32) 0 0 [] [],
    .millLoad oper 0 (2 ^ 32) 0 [] [], .millLoad oper 0 0 (2 ^ 32) [] [], .millRun { oper with mailbox := 64 } 0,
    .millRun oper (2 ^ 32), .millStop { oper with mailbox := 64 } 0, .millStop oper (2 ^ 32),
    .millContext { oper with mailbox := 64 } 0 dispatch0, .millContext oper (2 ^ 32) dispatch0,
    .millReplicas { oper with mailbox := 64 } 0 0 [], .millReplicas oper (2 ^ 32) 0 [],
    .millReplicas oper 0 (2 ^ 32) [], .millReplicas oper 0 0 [(2 ^ 32, 0)], .millReplicas oper 0 0 [(0, 2 ^ 32)]] : List Instr).any Instr.wellFormed = false := by decide +kernel

/-- One ill-formed term for each check of the commands, part 5: the check refuses it. -/
theorem test_ill_formed_5 : ([
    .millWeights { oper with mailbox := 64 } 0 0 0 0 0 0 0 [], .millWeights oper (2 ^ 32) 0 0 0 0 0 0 [],
    .millWeights oper 0 (2 ^ 32) 0 0 0 0 0 [], .millWeights oper 0 0 (2 ^ 32) 0 0 0 0 [],
    .millWeights oper 0 0 0 (2 ^ 32) 0 0 0 [], .millWeights oper 0 0 0 0 (2 ^ 32) 0 0 [],
    .millWeights oper 0 0 0 0 0 (2 ^ 32) 0 [], .millWeights oper 0 0 0 0 0 0 (2 ^ 64) [],
    .millRestore { oper with mailbox := 64 } 0 0, .millRestore oper (2 ^ 32) 0, .millRestore oper 0 (2 ^ 32),
    .millEnable { oper with mailbox := 64 } true 0, .millEnable oper true (2 ^ 32),
    .granaryCreate { oper with mailbox := 64 } region0 0 0, .granaryCreate oper region0 (2 ^ 32) 0,
    .granaryCreate oper region0 0 (2 ^ 32), .granaryFree { oper with mailbox := 64 } 0, .granaryFree oper (2 ^ 32),
    .granarySet { oper with mailbox := 64 } 0 region0, .granarySet oper (2 ^ 32) region0,
    .granaryQuery { oper with mailbox := 64 } 0, .granaryQuery oper (2 ^ 32),
    .granaryMirrorOpen { oper with mailbox := 64 } 0 0 ⟨1, 2, 3, 4⟩ 0 0 [],
    .granaryMirrorOpen oper (2 ^ 64) 0 ⟨1, 2, 3, 4⟩ 0 0 [], .granaryMirrorOpen oper 0 (2 ^ 32) ⟨1, 2, 3, 4⟩ 0 0 [],
    .granaryMirrorOpen oper 0 0 ⟨2 ^ 32, 0, 0, 0⟩ 0 0 [], .granaryMirrorOpen oper 0 0 ⟨1, 2, 3, 4⟩ (2 ^ 64) 0 [],
    .granaryMirrorOpen oper 0 0 ⟨1, 2, 3, 4⟩ 0 (2 ^ 64) [],
    .granaryMirrorOpen oper 0 0 ⟨1, 2, 3, 4⟩ 0 0 [(2 ^ 32)],
    .granaryMirrorCommit { oper with mailbox := 64 } 0 0 0, .granaryMirrorCommit oper (2 ^ 64) 0 0,
    .granaryMirrorCommit oper 0 (2 ^ 64) 0, .granaryMirrorQuery { oper with mailbox := 64 } 0,
    .granaryMirrorQuery oper (2 ^ 64), .granaryMirrorClose { oper with mailbox := 64 } 0,
    .granaryMirrorClose oper (2 ^ 64), .granaryChannelBind { oper with mailbox := 64 } 0 0 0,
    .granaryChannelBind oper (2 ^ 32) 0 0, .granaryChannelBind oper 0 (2 ^ 32) 0,
    .granaryChannelBind oper 0 0 (2 ^ 32), .granaryChannelSet { oper with mailbox := 64 } 0 chan0,
    .granaryChannelSet oper (2 ^ 32) chan0, .granaryChannelStart { oper with mailbox := 64 } 0,
    .granaryChannelStart oper (2 ^ 32), .granaryChannelStop { oper with mailbox := 64 } 0 0,
    .granaryChannelStop oper (2 ^ 32) 0, .granaryChannelStop oper 0 (2 ^ 32),
    .granaryEnable { oper with mailbox := 64 } true 0, .granaryEnable oper true (2 ^ 32),
    .gristLoad { oper with mailbox := 64 } 0 prm0, .gristLoad oper (2 ^ 32) prm0,
    .gristStart { oper with mailbox := 64 } 0, .gristStart oper (2 ^ 32), .gristStop { oper with mailbox := 64 } 0,
    .gristStop oper (2 ^ 32), .gristUnload { oper with mailbox := 64 } 0, .gristUnload oper (2 ^ 32),
    .gristStatus { oper with mailbox := 64 } 0, .gristStatus oper (2 ^ 32),
    .winnowPolicy { oper with mailbox := 64 } 0 policy0, .winnowPolicy oper (2 ^ 32) policy0,
    .winnowPolicy oper 0 { policy0 with diversity := 2 ^ 32 }, .winnowTags { oper with mailbox := 64 } [],
    .winnowTags oper [(2 ^ 32, 0, ⟨0, 0, 0, 0⟩)], .winnowTags oper [(0, 2 ^ 32, ⟨0, 0, 0, 0⟩)],
    .winnowTags oper [(0, 0, ⟨2 ^ 32, 0, 0, 0⟩)], .winnowPin { oper with mailbox := 64 } (.crustPair 0 0 1),
    .winnowUnpin { oper with mailbox := 64 } (.crustPair 0 0 1),
    .winnowCrustMask { oper with mailbox := 64 } 0 ⟨true, 4, 0, 150, 50⟩,
    .winnowCrustMask oper (2 ^ 32) ⟨true, 4, 0, 150, 50⟩, .winnowLog { oper with mailbox := 64 } 0 0,
    .winnowLog oper (2 ^ 32) 0, .winnowLog oper 0 (2 ^ 32), .timeTie { oper with mailbox := 64 } 0 0 0,
    .timeTie oper (2 ^ 32) 0 0, .timeTie oper 0 (2 ^ 32) 0, .timeTie oper 0 0 (2 ^ 96),
    .timeAcceptStep { oper with mailbox := 64 } 0, .timeAcceptStep oper (2 ^ 32),
    .timeThresh { oper with mailbox := 64 } 0, .timeThresh oper (2 ^ 32),
    .timeAsym { oper with mailbox := 64 } 0 0, .timeAsym oper (2 ^ 32) 0, .timeAsym oper 0 (-2 ^ 31 - 1),
    .timeAsym oper 0 (2 ^ 31), .timePriority { oper with mailbox := 64 } 0, .timePriority oper (2 ^ 32)] : List Instr).any Instr.wellFormed = false := by decide +kernel

/-- One ill-formed term for each check of the commands, part 6: the check refuses it. -/
theorem test_ill_formed_6 : ([
    .timePps { oper with mailbox := 64 } true, .timeLaunchRead { oper with mailbox := 64 } 0,
    .timeLaunchRead oper (2 ^ 32), .timeStatus { oper with mailbox := 64 },
    .counterRead { oper with mailbox := 64 } [], .counterRead oper [(2 ^ 32)],
    .counterSnapshot { oper with mailbox := 64 } [], .counterSnapshot oper [(2 ^ 32)],
    .counterFilter { oper with mailbox := 64 } filter0, .crumbRead { oper with mailbox := 64 } 0 0,
    .crumbRead oper (2 ^ 64) 0, .crumbRead oper 0 (2 ^ 32), .crumbDump { oper with mailbox := 64 },
    .crumbTrace { oper with mailbox := 64 } 0 true 0, .crumbTrace oper (2 ^ 32) true 0,
    .crumbTrace oper 0 true (2 ^ 32), .resetContext { oper with mailbox := 64 } 0 0 0,
    .resetContext oper (2 ^ 32) 0 0, .resetContext oper 0 (2 ^ 32) 0, .resetContext oper 0 0 (2 ^ 32),
    .resetEngine { oper with mailbox := 64 } 0 true, .resetSlice { oper with mailbox := 64 } 0 true,
    .resetSlice oper (2 ^ 32) true, .resetChip { oper with mailbox := 64 },
    .resetCycle { oper with mailbox := 64 }, .quorumList { oper with mailbox := 64 },
    .quorumApprove { oper with mailbox := 64 } 0 true 0, .quorumApprove oper (2 ^ 32) true 0,
    .quorumApprove oper 0 true (2 ^ 1056), .quorumWithdraw { oper with mailbox := 64 } 0,
    .quorumWithdraw oper (2 ^ 32), .keySession { oper with mailbox := 64 } (List.replicate 133 0) 0,
    .keySession oper [] 0, .keySession oper (List.replicate 133 0) (2 ^ 256),
    .keyLoad { oper with mailbox := 64 } 0 true 0 0 [], .keyLoad oper (2 ^ 32) true 0 0 [],
    .keyLoad oper 0 true (2 ^ 32) 0 [], .keyLoad oper 0 true 0 (2 ^ 64) [],
    .keyBind { oper with mailbox := 64 } true 0 0 0 0, .keyBind oper true (2 ^ 32) 0 0 0,
    .keyBind oper true 0 (2 ^ 32) 0 0, .keyBind oper true 0 0 (2 ^ 32) 0, .keyBind oper true 0 0 0 (2 ^ 32),
    .keyZeroize { oper with mailbox := 64 } true 0, .keyZeroize oper true (2 ^ 32),
    .attestReport { oper with mailbox := 64 } 0, .attestReport oper (2 ^ 256),
    .attestChain { oper with mailbox := 64 }, .powerCap { oper with mailbox := 64 } 0, .powerCap oper (2 ^ 32),
    .powerStatus { oper with mailbox := 64 }, .fwCaps { oper with mailbox := 64 },
    .fwInfo { oper with mailbox := 64 }, .fwUpdate { oper with mailbox := 64 } 0 0, .fwUpdate oper (2 ^ 32) 0,
    .fwUpdate oper 0 (2 ^ 512), .fwStage { oper with mailbox := 64 } 0 [], .fwStage oper (2 ^ 32) [],
    .fwStage oper 0 (List.replicate 65533 0), .fwCredit { oper with mailbox := 64 } 0 0, .fwCredit oper (2 ^ 32) 0,
    .fwCredit oper 0 (2 ^ 32), .fwBindMailbox { oper with mailbox := 64 } 0 0 0, .fwBindMailbox oper (2 ^ 32) 0 0,
    .fwBindMailbox oper 0 (2 ^ 32) 0, .fwBindMailbox oper 0 0 (2 ^ 256),
    .fwCredential { oper with mailbox := 64 } true .operator 0, .fwCredential oper true .operator (2 ^ 256),
    .fwNetwork { oper with mailbox := 64 } 0 0 0 0, .fwNetwork oper (2 ^ 32) 0 0 0,
    .fwNetwork oper 0 (2 ^ 128) 0 0, .fwNetwork oper 0 0 (2 ^ 32) 0, .fwNetwork oper 0 0 0 (2 ^ 32),
    .fwRegRead { oper with mailbox := 64 } 0 0, .fwRegRead oper (2 ^ 32) 0, .fwRegRead oper 0 (2 ^ 32),
    .fwRegWrite { oper with mailbox := 64 } 0 0 0, .fwRegWrite oper (2 ^ 32) 0 0,
    .fwDebugUnlock { oper with mailbox := 64 } 0 0, .fwDebugUnlock oper (2 ^ 32) 0, .fwDebugUnlock oper 0 (2 ^ 32),
    .baySelfTestDone 10] : List Instr).any Instr.wellFormed = false := by decide +kernel

/-- The checks inside the helpers of WellFormed. -/
theorem test_ill_formed_parts : [startOk { found0 with modSlot := 64 }, startOk { found0 with badStacks := [16] },
    startOk { found0 with badBays := [10] }, startOk { found0 with baysFitted := [10] }, fadeOk ⟨0, 8, 0⟩, tagsOk ⟨0, 2 ^ 32, 0, 0⟩,
    tagsOk ⟨0, 0, 2 ^ 32, 0⟩, tagsOk ⟨0, 0, 0, 2 ^ 32⟩, policyOk { policy0 with stackMask := 2 ^ 32 }, policyOk { policy0 with spines := [2 ^ 13] },
    originOk { oper with seq := 2 ^ 32 }, originOk { oper with cert := 2 ^ 256 }, isUnit 1 64, isUnit 2 1, isUnit 3 32, isUnit 4 16,
    isUnit 5 256, isUnit 6 2048, packetOk { pkt0 with w0 := 0x10002001, payload := List.replicate 8193 0 }].any id = false := by decide +kernel

/-! ## Worked examples of the spec -/

/-- 00 Example 0.1: the fields of W0 0x2220_1000, and the bytes in which it leaves. -/
theorem test_example_header_word : 
    let k : Packet := { pkt0 with w0 := 0x22201000 };
    (pVersion k, pKind k, pClass k, pVc k, pColour k, pCe k, pLength k) = (2, 2, 1, 0, 0, 0, 4096) ∧
    wordBytes k.w0 = [0x22, 0x20, 0x10, 0x00] := by decide +kernel

/-- 00 Example 0.2: lane L1234 is λ2 on F2 of HZ19; it belongs to K19 and S4. -/
theorem test_example_lane_1234 : 
    laneOf 19 2 2 = 1234 ∧ 1234 / 64 = 19 ∧ 1234 / 256 = 4 := by decide +kernel

/-- 01 Example 1.1: ISLAND_INFO of K19 with its PLL locked and unlocked. -/
theorem test_example_island_info : 
    readRegister run 0x23000000 = some 0x23104E21 ∧
    readRegister (modIsland 0x23 (fun i => { i with pllLock := false }) run) 0x23000000 = some 0x23104E20 := by decide +kernel

/-- 02 Example 2.1: the lanes that the two circuits between F1 and F6 of HZ5 take. -/
theorem test_example_crust_lanes : 
    let c (i o k : Nat) : Circuit := { circuit0 with engine := 5, inFibre := i, outFibre := o, colour := k, loop := false };
    circuitLanes (c 1 6 5) = [333, 373] ∧ circuitLanes (c 6 1 3) = [371, 331] := by decide +kernel

/-- 03 Example 3.1: the fields of a DATA block header. -/
theorem test_example_block_header : 
    let b : Block := ⟨0x12001234, 0x40000FF0, 0x69505400, [], 0, false⟩;
    (bType b, bClass b, bVc b, bSeq b, bAkind b, bAseq b) = (1, 1, 0, 0x1234, 1, 0xFF0) ∧
    (bCrClass b, bCrVc b, bCrValid b, bCrTotal b, bSop b, bEop b, bLane b) = (3, 0, true, 0x2A0, true, false, 5) := by decide +kernel

/-- 04 Example 4.1: the header of a full-size contribution, and its 33 slots. -/
theorem test_example_contribution_header : 
    let k : Packet := ⟨0x22202000, 0x0012302A, 0x04A0505D, 0x1F407000, 0x01234003, 7, 0x00640000, 0x5A3C0011, [], 0⟩;
    [pKind k, pClass k, pLength k, pDest k, pPid k, pSrc k, pHops k, pEntropy k, pEpoch k] = [2, 1, 8192, 0x123, 0x2A, 37 * 512 + 5, 0, 0x5D, 0x1F40] ∧
    (pSpineDst k, pFirst k, pLast k, pMcast k) = (true, true, true, false) ∧
    (xGid k, xPortion k, xLoafSeq k, xMember k, xSignature k, xFrag k) = (0x1234, 3, 7, 200, 0x5A3C, 17) ∧
    cellsOf k = 33 := by decide +kernel

/-- 04 Example 4.2: at epoch 0xFFF0, 0x0002 is ahead and 0xFFE8 stale; at 0xFFF1, 0xFFF0 is stale. -/
theorem test_example_epoch_wrap : 
    let at_epoch (e : Nat) : State := parts (fun p => { p with epoch := e }) 7 run;
    let k (e : Nat) : Packet := { d5pkt with w3 := w32 (e * 2 ^ 16) };
    headerDrop (at_epoch 0xFFF0) 0 (k 2) 1 = some 0x0D ∧ headerDrop (at_epoch 0xFFF0) 0 (k 0xFFE8) 1 = some 0x0C ∧
    headerDrop (at_epoch 0xFFF1) 0 (k 0xFFF0) 1 = some 0x0C ∧ headerDrop (at_epoch 0xFFF1) 0 (k 0xFFF1) 1 = none := by decide +kernel

/-- 05 Example 5.1: targets of an 8-lane port over 300 m with C0, C1 and C3 active. -/
theorem test_example_credit_targets : 
    creditTargets 8 300 [1, 1, 3, 1] [0, 1, 3] = [300, 629, 33, 1821, 33] := by decide +kernel

/-- 05 Example 5.2: the drop probabilities of a C6 queue at an average of 20,000 cells. -/
theorem test_example_drop_decision : 
    (profileReset 0).map (fun c => redProbability c (20000 * 256)) = [12, 256, 256] := by decide +kernel

/-- 06 Example 6.1: member 3 at r = 0x9C40, and member 0 for ENTROPY 0x5D under NOSPRAY. -/
theorem test_example_choose_member : 
    let ms : List Member := [⟨0, 40⟩, ⟨2, 24⟩, ⟨3, 64⟩];
    (pickWeighted ms 0 (0x9C40 * 128 / 2 ^ 16)).map (·.port) = some 3 ∧ (chooseMember ms true 0x5D 1).1 = some 0 := by decide +kernel

/-- 07 Example 7.1: cells of a C0 packet of 2,048 bytes, and the credit that a leaf must grant over 300 m. -/
theorem test_example_c0_bound : 
    cellsOf { c0pkt with w0 := 0x22000800 } = 9 ∧ targetC0 8 300 = 300 := by decide +kernel

/-- 08 Example 8.1: F, the fragments of a portion, its staging, and the portion of fragment 10,000. -/
theorem test_example_all_reduce : 
    let r : Recipe := { recipe0 with op := 1, dtype := 0x13, parts := 4096, epf := 4096, window := 2, elements := 536870912 };
    recipeFrags r 8192 = 131072 ∧ portionFrags r 8192 0 = 32 ∧ sramNeed r 8192 = 329728 ∧ fragIndex r 1808 2 = 10000 := by decide +kernel

/-- 09 Example 9.1: 256 + 1 − 256 in exact mode is 1.0 in every order of arrival. -/
theorem test_example_exact_sum : 
    let r : Recipe := { recipe0 with op := 1, dtype := 0x13, parts := 1, epf := 1, elements := 1 };
    let a : List Byte := [0x43, 0x80]; let b : List Byte := [0x3F, 0x80]; let c : List Byte := [0xC3, 0x80];
    let sum (l : List (Nat × List Byte)) : List Byte := (slotResult r 1 0 0 3 [] (l.foldl (fun s x => slotAdd r 0 x.1 x.2 s) (slotInit r 0 0))).1;
    sum [(0, a), (1, b), (2, c)] = [0x3F, 0x80] ∧ sum [(2, c), (0, a), (1, b)] = [0x3F, 0x80] := by decide +kernel

/-- 09 Example 9.2: the fold of five terms, and ordered BF16 SUM of 256, 1 and −256, which is +0. -/
theorem test_example_ordered_sum : 
    foldOrdered (fun a b => "(" ++ a ++ b ++ ")") 9 ["0", "1", "3", "4", "6"] = some "(((01)(34))6)" ∧
    (let r : Recipe := { recipe0 with op := 1, dtype := 0x13, ordered := true, parts := 1, epf := 1, elements := 1 };
    let s := [(0, [0x43#8, 0x80#8]), (1, [0x3F#8, 0x80#8]), (2, [0xC3#8, 0x80#8])].foldl (fun s x => slotAdd r 0 x.1 x.2 s) (slotInit r 0 0);
    (slotResult r 1 0 0 3 [] s).1 = [0, 0]) := by decide +kernel

/-- 09 Example 9.3: MXFP4 0x7 under scale 0x7A is 0x24 in FP8 E4M3 and 0x3E40 in BF16. -/
theorem test_example_mxfp4_convert : 
    let v := (decodeVec ((formatOf 0x24).getD fp32) 32 (0x70#8 :: List.replicate 15 0#8 ++ [0x7A#8])).take 1;
    (convertVals ((formatOf 0x10).getD fp32) v).1 = [0x24] ∧
    (convertVals ((formatOf 0x13).getD fp32) v).1 = [0x3E, 0x40] := by decide +kernel

/-- 09 Example 9.4: 1,000 and 3.3125 in an MXFP8 E4M3 block: scale 0x80, 0x7E capped, 0x3D. -/
theorem test_example_mxfp8_block : 
    let b := mxBlock ((formatOf 0x20).getD fp32) 0 [(.num false 1000 1, 0), (.num false 53 16, 0)];
    b = ([0x7E, 0x3D], 0x80, 1) := by decide +kernel

/-- 11 Example 11.1: offset 0x1_3A40 of a region on G4 to G7 lies on G7 at 0x4A40. -/
theorem test_example_locate_offset : 
    placeOf { reg0 with stackSet := 0x00F0 } 0x13A40 = (7, 0x4A40) := by decide +kernel

/-- 13 Example 13.1: the TX_TIME of 42 s + 1,000 ns, and off = +300 ns for the four times. -/
theorem test_example_time_sample : 
    t32Of ((42 * 1000000000 + 1000) * 65536) = 0xE3B293F4 ∧
    natWords 3 (t96Of ((42 * 1000000000 + 1000) * 65536)) = [0, 0x002A0000, 0x03E80000] ∧
    (let t (n : Nat) : List Word := natWords 3 (t96Of ((42 * 1000000000 + n) * 65536));
    let k : Packet := { pkt0 with payload := wordsBytes ([0x40000000, 0, 0] ++ t 201190 ++ [0x00008000] ++ t 1000 ++ t 1190) };
    sampleOf (modTime (fun x => { x with sentSeqs := [(0, [0])] }) run) 0 k ((42 * 1000000000 + 201980) * 65536) = some (300 * 65536)) := by decide +kernel

/-- 13 R435: with off = +300 ns and fq 0, fq becomes 1.171875 and ρ is clamped at −100 ppm. -/
theorem test_example_time_slew : 
    (slew (300 * 65536) 250000 run).time.fq * 1000000 = 1171875 * 2 ^ 24 ∧
    (slew (300 * 65536) 250000 run).clk.rho = -rhoMax := by decide +kernel

/-- 15 Example 15.1: the four peels of a neighbour report of 4,128 bytes at an MTU of 1,280. -/
theorem test_example_neighbour_peels : 
    (List.range (segmentCount 4128 1280)).map (fun i => let off := i * segmentLimit 1280;
    let n := Nat.min 1152 (4128 - off); let p := devicePeel 1 16 1 0x0102 0 8 0 4128 off (List.replicate n 0);
    (p.w0, p.w4, p.w5, p.w6)) = [(0x01101000, 0x1020, 0, 0x00080480), (0x01101000, 0x1020, 1152, 0x00080480), (0x01101000, 0x1020, 0x900, 0x00080480), (0x01181000, 0x1020, 0xD80, 0x000802A0)] := by decide +kernel

/-- 16 Example 16.1: 0x3812_7100 is W0 of loaf context 5,000; 0x3812_7102 is an address error. -/
theorem test_example_context_address : 
    windowOf 0x38127100 = 1 ∧ ctxAddress 0x38127100 = (5000, 0) ∧ readRegister run 0x38127102 = none := by decide +kernel

/-- 16 Example 16.2: 16,424 bytes travel in 15 peels at an MTU of 1,280; the last holds 296 bytes. -/
theorem test_example_open_peels : 
    segmentCount 16424 1280 = 15 ∧
    (let p := devicePeel 1 40 0x101 0x0504 0 4 0 16424 16128 (List.replicate 296 0);
    (p.w0, p.w2, p.w4, p.w5, p.w6) = (0x01182800, 0x05040000, 0x4028, 0x3F00, 0x00040128)) := by decide +kernel

/-- 17 Example 17.1: SCOPE of DMA channel 11, and the place of the dump with SEQ 22. -/
theorem test_example_dump_of_channel : 
    engineScope 3 11 = 0x4503000B ∧ dumpOffset 22 = 0xD8000000 := by decide +kernel

/-- 18 Example 18.1: W1 of the record of an applied KEY.BIND from MB16 with both approvals. -/
theorem test_example_proposal_record : 
    (proposalWords 7 { proposal0 with opcode := 0x0F03, state := .applied, opApproved := true, pgApproved := true }).getD 1 0 = 0x0F033810 := by decide +kernel

/-- 19 Example 19.1: FEC_UNCORRECTABLE of L1234 and REPLAYS of P1232. -/
theorem test_example_counter_ids : 
    let ids (s : State) : List Nat := s.tele.counters.map (·.1); ids (countLane 1234 3 State.reset) = [0x23010123] ∧
    ids (countPort 1232 6 1 State.reset) = [0x23020206] := by decide +kernel

/-- 20 Example 20.1: START_STATUS in step 7 of a warm start after an L4. -/
theorem test_example_start_status : 
    startStatus { run with start := { run.start with phase := .warm, step := 7, lastLevel := 4, dumpValid := true, cfg := { run.start.cfg with attempts := 1, starts := 0x12 } } } = 0x278E0012 := by decide +kernel

/-- 10 Example 10.1: element (0, 0) of the convolution is padding, (0, 2) is signal element 0, and kernel index 5 goes on to channel 1. -/
theorem test_example_convolution : 
    let a : List Word := [0x40000000, w32 (1000 * 256), 0, w32 256, w32 (1 * 2 ^ 16 + 1000), w32 (1000 * 2 ^ 16 + 1 * 2 ^ 8 + 5), 0x11110002];
    elemBit a 16 0 0 = none ∧ elemBit a 16 0 2 = some 0 ∧ elemBit a 16 3 7 = some (16 * (1000 + 3)) := by decide +kernel

/-- 10 Example 10.2: token buffer, parts of a token and passes of the router MMA. -/
theorem test_example_router_batch : 
    let r : DispatchRec := { rec0 with d := 8192, e := 256, actFmt := 0x13, retFmt := 0x13, k := 8, batch := 64 };
    tokenBuffer r = 2 * 2 ^ 20 ∧ partsOf 8192 0x13 = 2 ∧ passesOf 64 256 = 1 ∧ bandOf 64 = 2 ∧
    weightBytes 0x13 8192 256 = 8192 * 256 * 2 + 1024 := by decide +kernel

/-- 12 Example 12.1: a port with four of eight lanes falls to 32 at once; a weight of 4 rises to 8 only. -/
theorem test_example_spray_weights : 
    let s : State := modLane 4 (fun l => { l with phase := .dark }) (modLane 5 (fun l => { l with phase := .dark }) (modLane 6 (fun l => { l with phase := .dark }) (modLane 7 (fun l => { l with phase := .dark }) portJoined)));
    nextWeight s ⟨0, 64⟩ 64 = 32 ∧ nextWeight portJoined ⟨0, 4⟩ 64 = 8 := by decide +kernel

/-- 14 Example 14.1: T_B of 16,384 members in 32 racks at 300 m is 16,671 ns, and that of 13,878 exactly 15,000 ns. -/
theorem test_example_barrier_bound : 
    let s : State := modPort 0 (fun p => { p with measured := some 300 }) portJoined;
    let sl : Slice := { slice s 0 with poppy := [(0, [⟨0, 64⟩])], params := { (slice s 0).params with rowShift := 16 } };
    let racks : Tab Nat := (List.range 32).map (fun r => (r, 512)); sliceBound s sl 10 16384 racks = 16671 ∧
    sliceBound s sl 10 13878 racks = 15000 := by decide +kernel

/-! ## The hypotheses of the statements

Each theorem lists, clause by clause in the order of the statement, the hypotheses of the clause at a concrete state and
operands. A condition on an opaque constant of Config can be shown for no state and is left out. -/

/-- The outcome of a command is a next state. -/
def isNext : Host.Outcome State Fault Refusal → Bool
  | .next _ => true
  | _ => false

/-- A state read from an outcome, the state before it where there is none. -/
def after (s : State) : Host.Outcome State Fault Refusal → State
  | .next t => t
  | _ => s

theorem witness_EmptyQueueTick : [State.reset.pending.isEmpty && decide (State.reset.start.phase = .reset),
    run.pending.isEmpty && decide (run.start.phase ≠ .reset)].all id = true := by decide +kernel

theorem witness_EveryCommandFrame_QueueUntouched : [isNext (exec .powerOn State.reset), isNext (exec (.tableOpen manager 7) fencedRun),
    isNext (exec (.laneErrorRate 0) portJoined)].all id = true := by decide +kernel

theorem witness_UnitsDecide : [unitNamed (.laneErrorRate 2047) run, !unitNamed (.laneErrorRate 2048) run].all id = true := by
  decide +kernel

theorem witness_CommandsBySeq : [
    commandOf (.portRetrain manager 0) == some (manager, 0x0207),
    !listening State.reset,
    listening run && !mailboxOpen { tenant with cert := 2 } run,
    listening busyMail && mailboxOpen { tenant with seq := 7 } busyMail && (outstandingOf busyMail { tenant with seq := 7 }).isSome,
    listening mgeTimeout && mailboxOpen { oper with seq := 7 } mgeTimeout && (outstandingOf mgeTimeout { oper with seq := 7 }).isNone &&
      (keptOf mgeTimeout { oper with seq := 7 }).isSome,
    (let s := modMailbox 0 (fun m => { m with lastSeq := some 5 }) run
     mailboxOpen oper s && (outstandingOf s oper).isNone && (keptOf s oper).isNone && !seqNew (mailbox s 0) 1),
    (let o := tenant
     mailboxOpen o run && (outstandingOf run o).isNone && (keptOf run o).isNone && seqNew (mailbox run 32) 1 &&
      (admitCheck o 0x0207 (filterCommand o 0x0207 run)).isSome)].all id = true := by decide +kernel

/-- The premise of the invariants: a state whose tables hold bytes, with a command in front that ends in a next state. -/
theorem witness_MemoryInvKept : [tabTotalWf (fun _ => 0) gristRead.gran.mem && !gristRead.gran.mem.isEmpty && tabWf gristRead.gran.lineKeys &&
    isNext (step { gristRead with pending := [.granaryWriteDone 0] })].all id = true := by decide +kernel

theorem witness_PowerInvKept : [run.power.depth.length == 4 && run.power.depth.all (fun d => decide (d ≤ 15)) && run.power.cap == 0 &&
    isNext (step { run with pending := [.throttleEvaluation telem0] })].all id = true := by decide +kernel

theorem witness_LaunchLogKept : [decide (run.time.launches.length ≤ 256) &&
    isNext (step { run with pending := [.timeLaunchRead oper 4] })].all id = true := by decide +kernel

theorem witness_StoredBytesReadBack_WriteLeavesOtherLines : [tabTotalWf (fun _ => 0) gristRead.gran.mem && tabWf gristRead.gran.lineKeys &&
    decide (4096 + 4 ≤ 2 ^ 48) && decide (8192 < 2 ^ 48) && !inLines (1, 4096, 4) 1 8192 && !inLines (1, 4096, 4) 2 4096].all id = true := by
  decide +kernel

/-- A write of a Granary access: the byte before its line is outside, its own bytes are not. -/
theorem witness_StoresOnlyThere : (let s := got 4 { gpkt 1 with w0 := 0x28400004, w6 := 64, w7 := 0, payload := [1, 2, 3, 4] } granReg
    [storeKnown .granaryAccessRx && tabTotalWf (fun _ => 0) s.gran.mem && tabWf s.gran.lineKeys &&
      storesOf .granaryAccessRx s == [(1, 64, 4)] && isNext (exec .granaryAccessRx s) && !inLines (1, 64, 4) 1 63 && inLines (1, 64, 4) 1 64]).all id = true := by
  decide +kernel

theorem witness_ZeroedRegionReadsZero : [gevZeroing, granFree].all (fun s => tabTotalWf (fun _ => 0) s.gran.mem && tabWf s.gran.lineKeys &&
    (region s 1).isSome && mayStart s 4 0) = true := by decide +kernel

theorem witness_EpochCompare : [3, 4, 3 + 32767, 3 + 32768, 3 + 32769].all (fun e =>
    let k : Packet := { d5pkt with w3 := w32 (e * 2 ^ 16) }
    !isV1 k && decide ((partEntry (slice run 0) (pPid k)).epoch < 65536) && (headerDrop run 0 k 1).all (fun c => decide (0x0C ≤ c))) = true := by
  decide +kernel

theorem witness_ColourThreeDropped : (let k : Packet := { d5pkt with w0 := 0x20AC0000 }
    portKnown run 0 && pColour k == 3 && (headerDrop run 0 k 1).all (fun c => decide (6 ≤ c))) = true := by decide +kernel

theorem witness_GroupWithOpenRecipe : [
    (match beginsAt manager 0x0501 loafRecipe with
     | some b => (partition b 7).defined && hasRecipe b 1
     | none => false),
    (match beginsAt manager 0x0502 loafRecipe with
     | some b => (group b 1).isSome && hasRecipe b 1
     | none => false)].all id = true := by decide +kernel

theorem witness_AdvanceAndOpen : [
    (match beginsAt manager 0x0307 run with
     | some b => (partition b 7).defined && !(partition b 7).fenced
     | none => false),
    (match beginsAt manager 0x0307 fencedRun with
     | some b => (partition b 7).fenced && !serialAhead 65536 2 (partition b 7).epoch && serialAhead 65536 4 (partition b 7).epoch
     | none => false),
    (match beginsAt manager 0x0308 run with
     | some b => (partition b 7).defined && !(partition b 7).fenced
     | none => false),
    (match beginsAt manager 0x0308 fencedRun with
     | some b => (partition b 7).defined && (partition b 7).fenced
     | none => false)].all id = true := by decide +kernel

theorem witness_EpochOfLoads : [
    (match beginsAt tenant 0x0801 fencedRun with
     | some b => gristParamsGood 0 prm0 && (ownSid b).isSome && !granaryOff b && mayReach tenant 7 b && !(isTenant tenant && prm0.sow == 1) &&
         (grist b 0).isNone && (partition b 7).fenced
     | none => false),
    (match beginsAt tenant 0x0605 run with
     | some b => contextOk 0 { rec0 with epoch := 9 } && mayReach tenant 7 b && contextReach tenant 0 b && (partition b 7).epoch != 9
     | none => false)].all id = true := by decide +kernel

/-! ## Single steps -/

/-- TABLE.ADVANCE of a FENCED partition sets its epoch in every slice, and the command is answered OK. -/
theorem test_step_advance : (let t := after run (step { fencedRun with pending := [.tableAdvance manager 7 4] })
    (List.range 8).all (fun n => (partEntry (slice t n) 7).epoch == 4) && (keptOf t manager).map (·.status) == some 0 && t.pending.isEmpty) = true := by
  decide +kernel

/-- Of a partition that is not FENCED it is answered CONFLICT (0x0B), and the epoch stays (14 R466). -/
theorem test_step_advance_open : (let t := after run (step { run with pending := [.tableAdvance manager 7 4] })
    (partEntry (slice t 0) 7).epoch == 3 && (keptOf t manager).map (·.status) == some 0x0B) = true := by decide +kernel

/-- A held packet's trailer fails: nothing of it stays (04 R135). -/
theorem test_step_bad_trailer : (stored (after run (step { fwdPart with pending := [.packetTrailerCheck 0 .bad 0] })) 0).isNone = true := by
  decide +kernel

/-- A lane that the device does not have stops the step. -/
theorem test_step_no_such_lane : (match step { run with pending := [.laneErrorRate 2048] } with
    | .fault .noSuchUnit => true
    | _ => false) = true := by decide +kernel

/-- An empty queue lets 32 ns pass; device time follows at the reference rate. -/
theorem test_step_tick : (let t := after run (step run); t.clk.ref == 32 && t.clk.dev == 32 * 65536) = true := by decide +kernel

theorem witness_BlockEvents : [
    (let lane : Nat := 5; let s : State := blockNarrow;
     (laneKnown lane) && decide (portOfLane s lane = none)),
    (let lane : Nat := 0; let block : Block := idleBlock; let s : State := run;
     (laneKnown lane) &&
     (match portOfLane s lane with
      | some p =>
         ((arrive lane p block s).snd) && decide (bType block = 0)
      | _ => false)),
    (let lane : Nat := 0; let block : Block := block0; let s : State := run;
     (laneKnown lane) &&
     (match portOfLane s lane with
      | some p =>
         decide ((arrive lane p block s).snd = false ∨ bType block ≠ 0)
      | _ => false)),
    (let lane : Nat := 0; let block : Block := dataBlock; let s : State := portJoined;
     (laneKnown lane) &&
     (match portOfLane s lane with
      | some p =>
         ((arrive lane p block s).snd) && decide (bType block = 1) &&
         decide ((port s p).phase = PortPhase.credit ∨ (port s p).phase = PortPhase.up) &&
         decide ((Machine.lane s lane).phase = LanePhase.ready ∨ (Machine.lane s lane).phase = LanePhase.joined)
      | _ => false)),
    (let lane : Nat := 0; let block : Block := dataBlock; let s : State := run;
     (laneKnown lane) &&
     (match portOfLane s lane with
      | some p =>
         ((arrive lane p block s).snd) && decide (bType block = 1) &&
         decide (¬(((port s p).phase = PortPhase.credit ∨ (port s p).phase = PortPhase.up) ∧ ((Machine.lane s lane).phase = LanePhase.ready ∨ (Machine.lane s lane).phase = LanePhase.joined)))
      | _ => false)),
    (let lane : Nat := 0; let block : Block := block0; let s : State := run;
     (laneKnown lane) &&
     (match portOfLane s lane with
      | some p =>
         decide ((arrive lane p block s).snd = false ∨ bType block ≠ 1)
      | _ => false)),
    (let lane : Nat := 0; let block : Block := localBlock; let s : State := run;
     (laneKnown lane) &&
     (match portOfLane s lane with
      | some p =>
         ((arrive lane p block s).snd) && decide (bType block = 2) && (localGood block)
      | _ => false)),
    (let lane : Nat := 0; let block : Block := badLocal; let s : State := run;
     (laneKnown lane) &&
     (match portOfLane s lane with
      | some p =>
         ((arrive lane p block s).snd) && decide (bType block = 2) && decide (localGood block = false)
      | _ => false)),
    (let lane : Nat := 0; let block : Block := block0; let s : State := run;
     (laneKnown lane) &&
     (match portOfLane s lane with
      | some p =>
         decide ((arrive lane p block s).snd = false ∨ bType block ≠ 2)
      | _ => false)),
    (let port : Nat := 0; let s : State := blockUp;
     (portKnown s port) && decide ((Machine.port s port).window.isEmpty = false)),
    (let port : Nat := 0; let s : State := run;
     (portKnown s port) && ((Machine.port s port).window.isEmpty)),
    (let port : Nat := 0; let s : State := blockUp;
     (portKnown s port) &&
     (match (Machine.port s port).unacked with
      | x :: xs =>
         decide ((Machine.port s port).phase = PortPhase.up)
      | _ => false)),
    (let port : Nat := 0; let s : State := run;
     (portKnown s port) && decide ((Machine.port s port).unacked = [])),
    (let port : Nat := 0; let s : State := portUp;
     (portKnown s port) &&
     decide ((Machine.port s port).phase = PortPhase.credit ∨ (Machine.port s port).phase = PortPhase.up)),
    (let port : Nat := 0; let s : State := run;
     (portKnown s port) && decide ((Machine.port s port).phase ≠ PortPhase.credit) &&
     decide ((Machine.port s port).phase ≠ PortPhase.up)),
    (let port : Nat := 0; let s : State := run;
     (portKnown s port)),
    (let port : Nat := 0; let s : State := portUp;
     (portKnown s port) &&
     decide ((Machine.port s port).phase = PortPhase.credit ∨ (Machine.port s port).phase = PortPhase.up)),
    (let port : Nat := 0; let s : State := run;
     (portKnown s port) && decide ((Machine.port s port).phase ≠ PortPhase.credit) &&
     decide ((Machine.port s port).phase ≠ PortPhase.up)),
    (let lane : Nat := 5; let s : State := blockNarrow;
     (laneKnown lane) && decide (portOfLane s lane = none)),
    (let lane : Nat := 0; let s : State := run;
     (laneKnown lane) &&
     (match portOfLane s lane with
      | some p =>
         decide ((Machine.lane s lane).phase = LanePhase.dark)
      | _ => false)),
    (let lane : Nat := 0; let s : State := portJoined;
     (laneKnown lane) &&
     (match portOfLane s lane with
      | some p =>
         decide ((fibrePair s (lane / 8)).reduced = false) && decide ((port s p).paused = false) &&
         decide ((Machine.lane s lane).phase = LanePhase.joined) && decide ((port s p).phase = PortPhase.up)
      | _ => false)),
    (let lane : Nat := 0; let s : State := blockLocal;
     (laneKnown lane) &&
     (match portOfLane s lane with
      | some p =>
         decide ((fibrePair s (lane / 8)).reduced = false) && decide ((port s p).paused = false) &&
         decide ((Machine.lane s lane).phase = LanePhase.ready) && (localAllowed s p lane) &&
         (match localNext (port s p) lane with
          | some (i, k) =>
             true
          | _ => false)
      | _ => false)),
    (let lane : Nat := 0; let s : State := laneVer;
     (laneKnown lane) &&
     (match portOfLane s lane with
      | some p =>
         decide ((fibrePair s (lane / 8)).reduced = false) && decide ((port s p).paused = false) &&
         decide ((Machine.lane s lane).phase = LanePhase.verify)
      | _ => false)),
    (let port : Nat := 1; let s : State := run;
     decide (portKnown s port = false))].all id = true := by
  decide +kernel

theorem witness_ClassCommands : [
    (let o : Origin := manager; let port : Nat := 0; let weights : List Nat := [0, 0, 0, 0]; let s : State := run;
     (match beginsAt o 1025 s with
      | some b =>
         (portKnown b port) && decide (weights.length = 4) &&
         decide (((filled weights [1, 1, 1, 1]).any fun w_ ↦ decide (15 < w_)) = false)
      | _ => false)),
    (let o : Origin := manager; let port : Nat := 0; let weights : List Nat := []; let s : State := run;
     (match beginsAt o 1025 s with
      | some b =>
         (portKnown b port) &&
         decide (weights.length ≠ 4 ∨ ((filled weights [1, 1, 1, 1]).any fun w_ ↦ decide (15 < w_)) = true)
      | _ => false)),
    (let o : Origin := manager; let port : Nat := 0; let weights : List Nat := [1, 1, 1, 1, 1, 1, 1];
     let credits : List Nat := [1, 1, 1, 1, 1, 1, 1]; let overhead : Nat := 0; let s : State := run;
     (match beginsAt o 1026 s with
      | some b =>
         (portKnown b port) && decide (weights.length = 7) && decide (credits.length = 7) &&
         decide (((filled weights (schedReset 0).weight).any fun w_ ↦ decide (255 < w_)) = false) &&
         decide ((credits.any fun c_ ↦ decide (1048576 < c_)) = false) && decide (overhead ≤ 1023)
      | _ => false)),
    (let o : Origin := manager; let port : Nat := 0; let target : Nat := 0;
     let params : ShaperParams := ⟨false, 1000, 65536⟩; let s : State := run;
     (match beginsAt o 1027 s with
      | some b =>
         (portKnown b port) && decide (target ≤ 7) && decide (params.rate < 2 ^ 21) && decide (256 ≤ params.burst) &&
         decide (params.burst < 2 ^ 24)
      | _ => false)),
    (let o : Origin := manager; let port : Nat := 0; let target : Nat := 0;
     let params : ShaperParams := ⟨false, 2 ^ 32, 65536⟩; let s : State := run;
     (match beginsAt o 1027 s with
      | some b =>
         (portKnown b port) && decide (7 < target ∨ 2 ^ 21 ≤ params.rate)
      | _ => false)),
    (let o : Origin := manager; let port : Nat := 0; let cls : Nat := 5;
     let params : MarkerParams := ⟨true, 100, 8240, 200, 8240⟩; let s : State := run;
     (match beginsAt o 1028 s with
      | some b =>
         (portKnown b port) && decide (5 ≤ cls) && decide (cls ≤ 7) && decide (params.cir < 2 ^ 21) &&
         decide (params.pir < 2 ^ 21) && decide (params.cir ≤ params.pir) && decide (8240 ≤ params.cbs) &&
         decide (8240 ≤ params.pbs) && decide (params.cbs < 2 ^ 24) && decide (params.pbs < 2 ^ 24)
      | _ => false)),
    (let o : Origin := manager; let port : Nat := 0; let cls : Nat := 0;
     let params : MarkerParams := ⟨true, 100, 8240, 200, 8240⟩; let s : State := run;
     (match beginsAt o 1028 s with
      | some b =>
         (portKnown b port) && decide (cls < 5 ∨ 7 < cls ∨ params.pir < params.cir ∨ params.cbs < 8240 ∨ params.pbs < 8240)
      | _ => false)),
    (let o : Origin := manager; let profile : Nat := 0; let curves : List DropCurve := (profileReset 0);
     let s : State := run;
     (match beginsAt o 1029 s with
      | some b =>
         decide (profile ≤ 15) && decide (curves.length = 3) && (curves.all curveGood)
      | _ => false)),
    (let o : Origin := manager; let profile : Nat := 0; let curves : List DropCurve := []; let s : State := run;
     (match beginsAt o 1029 s with
      | some b =>
         decide (15 < profile ∨ curves.length ≠ 3 ∨ curves.all curveGood = false)
      | _ => false)),
    (let o : Origin := manager; let port : Nat := 0; let cls : Nat := 0; let profile : Nat := 0; let a : Nat := 0;
     let mark : Nat := 0; let s : State := run;
     (match beginsAt o 1030 s with
      | some b =>
         (portKnown b port) && decide (cls ≤ 7) && decide (profile ≤ 15) && decide (cls < 5 → profile = 0) &&
         decide (a ≤ 9) && decide (mark ≤ 2097151)
      | _ => false)),
    (let o : Origin := manager; let port : Nat := 0; let cls : Nat := 0; let profile : Nat := 0; let a : Nat := 0;
     let mark : Nat := 12582913; let s : State := run;
     (match beginsAt o 1030 s with
      | some b =>
         (portKnown b port) && decide (7 < cls ∨ 15 < profile ∨ cls < 5 ∧ profile ≠ 0 ∨ 9 < a ∨ 2097151 < mark)
      | _ => false)),
    (let o : Origin := oper; let activity : Nat := 0; let shares : List Nat := [0, 0, 0, 0]; let lendable : Bool := true;
     let s : State := run;
     (match beginsAt o 1031 s with
      | some b =>
         decide (activity ≤ 9) && decide (shares.length = 4) &&
         decide (((List.range 4).any fun r_ ↦ decide (1024 < shareSum (listSet { shares := shares, lendable := lendable } activity (comingBudgets b)) r_)) = false)
      | _ => false)),
    (let o : Origin := oper; let activity : Nat := 0; let shares : List Nat := [2000, 0, 0, 0]; let lendable : Bool := true;
     let s : State := run;
     (match beginsAt o 1031 s with
      | some b =>
         decide (activity ≤ 9) && decide (shares.length = 4) &&
         (((List.range 4).any fun r_ ↦ decide (1024 < shareSum (listSet { shares := shares, lendable := lendable } activity (comingBudgets b)) r_)))
      | _ => false)),
    (let o : Origin := oper; let activity : Nat := 0; let shares : List Nat := []; let s : State := run;
     (match beginsAt o 1031 s with
      | some b =>
         decide (9 < activity ∨ shares.length ≠ 4)
      | _ => false)),
    (let o : Origin := oper; let s : State := run;
     (match beginsAt o 1032 s with
      | some b =>
         true
      | _ => false))].all id = true := by
  decide +kernel

theorem witness_ControlEvents : [
    (let isl : Nat := 0; let sent : List RegAccess := [⟨0x01000000, none⟩]; let s : State := run;
     (islandKnown isl) &&
     (match (island (sendAccesses isl sent s) isl).accesses with
      | a :: as =>
         true
      | _ => false)),
    (let isl : Nat := 0; let sent : List RegAccess := []; let s : State := run;
     (islandKnown isl) && decide ((island (sendAccesses isl sent s) isl).accesses = [])),
    (let addr : Nat := 16777221; let s : State := ctlStaged;
     (islandKnown (addrIsland addr)) &&
     (match List.find? (fun x_ ↦ x_.fst == addr) s.ctl.staged with
      | some (p, v) =>
         true
      | _ => false)),
    (let addr : Nat := 0; let s : State := run;
     (islandKnown (addrIsland addr)) && decide (List.find? (fun x_ ↦ x_.fst == addr) s.ctl.staged = none)),
    (let isl : Nat := 0;
     (islandKnown isl)),
    (let isl : Nat := 0;
     (islandKnown isl)),
    (let isl : Nat := 1; let addr : Nat := 16777221; let s : State := ctlAccess;
     (islandKnown isl) && (((island s isl).accesses.any fun a_ ↦ a_.addr == addr))),
    (let isl : Nat := 0; let addr : Nat := 0; let s : State := run;
     (islandKnown isl) && decide (((island s isl).accesses.any fun a_ ↦ a_.addr == addr) = false)),
    (let isl : Nat := 1; let s : State := ctlAccess;
     (islandKnown isl) &&
     (match (island s isl).events with
      | e :: es =>
         true
      | _ => false)),
    (let isl : Nat := 0; let s : State := run;
     (islandKnown isl) && decide ((island s isl).events = [])),
    (let src : Nat := 0; let dst : Nat := 0; let s : State := supOff;
     (islandKnown src) && (islandKnown dst) && ((island s dst).dataReset)),
    (let src : Nat := 0; let dst : Nat := 0; let s : State := run;
     (islandKnown src) && (islandKnown dst) && decide ((island s dst).dataReset = false)),
    (let isl : Nat := 0; let s : State := supOff;
     (islandKnown isl) && decide ((island s isl).pllLock = false)),
    (let isl : Nat := 0; let s : State := run;
     (islandKnown isl) && ((island s isl).pllLock) && decide (isl < 16 ∨ 48 ≤ isl)),
    (let isl : Nat := 16; let s : State := run;
     (islandKnown isl) && ((island s isl).pllLock) && decide (16 ≤ isl) && decide (isl < 48)),
    (let isl : Nat := 1; let s : State := ctlUnlocked;
     (islandKnown isl) && decide ((island s isl).pllLock = false) && decide (s.start.phase = Phase.running) &&
     decide (List.find? (fun e_ ↦ e_.level == 3 && e_.active && (l3Islands (scopeIsland e_.scope)).contains isl) s.rst.asked = none)),
    (let isl : Nat := 0; let s : State := run;
     (islandKnown isl) && (((island s isl).pllLock || s.start.phase != Phase.running))),
    (let isl : Nat := 1; let s : State := ctlUnlocked;
     (islandKnown isl) && decide ((island s isl).pllLock = false) && decide (s.start.phase = Phase.running)),
    (let isl : Nat := 0; let s : State := run;
     (islandKnown isl) && ((island s isl).pllLock)),
    (let code : Nat := 0; let s : State := supOn;
     (s.power.pwrOk) && decide (code < 256) && (disturbs code)),
    (let code : Nat := 1; let s : State := supOn;
     (s.power.pwrOk) && decide (code < 256) && decide (disturbs code = false)),
    (let code : Nat := 0; let s : State := run;
     decide (s.power.pwrOk = false ∨ 256 ≤ code)),
    (let s : State := supOn;
     (s.power.pwrOk)),
    (let s : State := run;
     decide (s.power.pwrOk = false)),
    (let isl : Nat := 2;
     decide (islandKnown isl = false)),
    (let isl : Nat := 2;
     decide (islandKnown isl = false))].all id = true := by
  decide +kernel

theorem witness_CounterCommands : [
    (let o : Origin := oper; let ids : List Nat := [1]; let s : State := run;
     (match beginsAt o 2817 s with
      | some b =>
         decide (counterCheck o ids b = none)
      | _ => false)),
    (let o : Origin := oper; let ids : List Nat := []; let s : State := run;
     (match beginsAt o 2817 s with
      | some b =>
         (match counterCheck o ids b with
          | some st =>
             true
          | _ => false)
      | _ => false)),
    (let o : Origin := oper; let ids : List Nat := [1]; let s : State := run;
     (match beginsAt o 2818 s with
      | some b =>
         decide (counterCheck o ids b = none)
      | _ => false)),
    (let o : Origin := oper; let ids : List Nat := []; let s : State := run;
     (match beginsAt o 2818 s with
      | some b =>
         (match counterCheck o ids b with
          | some st =>
             true
          | _ => false)
      | _ => false)),
    (let o : Origin := oper; let rec0 : FilterRec := filter0; let s : State := run;
     (match beginsAt o 2819 s with
      | some b =>
         decide (rec0.filter < 64) && decide (rec0.point < 4)
      | _ => false)),
    (let o : Origin := oper; let rec0 : FilterRec := { filter0 with filter := 99 }; let s : State := run;
     (match beginsAt o 2819 s with
      | some b =>
         decide (64 ≤ rec0.filter ∨ 4 ≤ rec0.point)
      | _ => false)),
    (let o : Origin := oper; let offset : Nat := 0; let length : Nat := 1; let s : State := run;
     (match beginsAt o 3073 s with
      | some b =>
         decide (0 < length) && decide (length ≤ 1048572) && (readsRecoveryLog b) && decide (offset + length ≤ 1048576)
      | _ => false)),
    (let o : Origin := oper; let offset : Nat := 3072; let length : Nat := 1; let s : State := poisonCrumb;
     (match beginsAt o 3073 s with
      | some b =>
         decide (0 < length) && decide (length ≤ 1048572) && decide (readsRecoveryLog b = false) &&
         decide (offset + length ≤ 2 ^ 32) && decide (rangePoisoned b 65535 offset length = false)
      | _ => false)),
    (let o : Origin := oper; let offset : Nat := 0; let length : Nat := 1; let s : State := poisonCrumb;
     (match beginsAt o 3073 s with
      | some b =>
         decide (0 < length) && decide (length ≤ 1048572) && decide (readsRecoveryLog b = false) &&
         decide (offset + length ≤ 2 ^ 32) && (rangePoisoned b 65535 offset length)
      | _ => false)),
    (let o : Origin := oper; let length : Nat := 0; let s : State := run;
     (match beginsAt o 3073 s with
      | some b =>
         decide (length = 0 ∨ 1048572 < length)
      | _ => false)),
    (let o : Origin := oper; let s : State := run;
     (match beginsAt o 3074 s with
      | some b =>
         true
      | _ => false)),
    (let o : Origin := oper; let s : State := run;
     (match beginsAt o 3075 s with
      | some b =>
         true
      | _ => false))].all id = true := by
  decide +kernel

theorem witness_FibreEvents : [
    (let engine : Nat := 0; let fibre : Nat := 0; let s : State := fibreLow;
     (pairKnown engine fibre) && ((fibrePair s (engine * 8 + fibre)).reduced)),
    (let engine : Nat := 0; let fibre : Nat := 0; let s : State := run;
     (pairKnown engine fibre) && decide ((fibrePair s (engine * 8 + fibre)).reduced = false)),
    (let engine : Nat := 0; let fibre : Nat := 0;
     (pairKnown engine fibre)),
    (let engine : Nat := 0; let fibre : Nat := 0; let s : State := fibreLow;
     (pairKnown engine fibre) && ((fibrePair s (engine * 8 + fibre)).reduced)),
    (let engine : Nat := 0; let fibre : Nat := 0; let s : State := run;
     (pairKnown engine fibre) && decide ((fibrePair s (engine * 8 + fibre)).reduced = false)),
    (let engine : Nat := 0; let fibre : Nat := 0; let s : State := fibreLow;
     (pairKnown engine fibre) && ((fibrePair s (engine * 8 + fibre)).probing)),
    (let engine : Nat := 0; let fibre : Nat := 0; let s : State := run;
     (pairKnown engine fibre) && decide ((fibrePair s (engine * 8 + fibre)).probing = false)),
    (let engine : Nat := 0; let fibre : Nat := 0; let s : State := fibreLow;
     (pairKnown engine fibre) && ((fibrePair s (engine * 8 + fibre)).reduced) &&
     decide ((fibrePair s (engine * 8 + fibre)).probeLow = some true)),
    (let engine : Nat := 0; let fibre : Nat := 0; let s : State := run;
     (pairKnown engine fibre) && decide ((fibrePair s (engine * 8 + fibre)).probeLow ≠ some true)),
    (let engine : Nat := 0; let s : State := run;
     decide (engine < 32) && decide ((circuitsIn s engine fun c_ ↦ c_.phase == CircuitPhase.deferred) = []) &&
     decide ((circuitsIn s engine fun c_ ↦ c_.tearDown && c_.phase != CircuitPhase.tearing && c_.phase != CircuitPhase.deferred && c_.phase != CircuitPhase.committed) = [])),
    (let engine : Nat := 0; let s : State := fibreWaits;
     decide (engine < 32) && decide ((circuitsIn s engine fun c_ ↦ c_.phase == CircuitPhase.deferred) ≠ [])),
    (let engine : Nat := 0;
     decide (engine < 32)),
    (let circuit : Nat := 0; let s : State := fibreLights;
     (match Machine.circuit s circuit with
      | some c =>
         decide (c.phase = CircuitPhase.lighting) &&
         (((circuitRings s c).all fun k_ ↦ (ring s k_).mode != RingMode.unlocked))
      | _ => false)),
    (let circuit : Nat := 0; let s : State := run;
     decide (Machine.circuit s circuit = none))].all id = true := by
  decide +kernel

theorem witness_FirmwareCommands : [
    (let o : Origin := oper; let s : State := run;
     (match beginsAt o 4609 s with
      | some b =>
         true
      | _ => false)),
    (let o : Origin := oper; let s : State := run;
     (match beginsAt o 4610 s with
      | some b =>
         true
      | _ => false)),
    (let o : Origin := oper; let s : State := recovery;
     (match beginsAt o 4611 s with
      | some b =>
         decide (b.start.phase = Phase.recovery)
      | _ => false)),
    (let o : Origin := oper; let s : State := run;
     (match beginsAt o 4611 s with
      | some b =>
         decide (b.start.phase ≠ Phase.recovery) && decide ((pendingProposals b).length < 64)
      | _ => false)),
    (let o : Origin := oper; let length : Nat := 0; let digest : Nat := 0; let s : State := run;
     (match beginsAt o 4611 s with
      | some b =>
         (match updateCheck b length digest with
          | some st =>
             true
          | _ => false)
      | _ => false)),
    (let o : Origin := oper; let offset : Nat := 0; let bytes : List Byte := []; let s : State := run;
     (match beginsAt o 4612 s with
      | some b =>
         decide (bytes.length ≤ 1048568) && decide (offset + bytes.length ≤ imageMax)
      | _ => false)),
    (let o : Origin := oper; let offset : Nat := 12582913; let bytes : List Byte := []; let s : State := run;
     (match beginsAt o 4612 s with
      | some b =>
         decide (1048568 < bytes.length ∨ imageMax < offset + bytes.length)
      | _ => false)),
    (let o : Origin := oper; let mailbox : Nat := 0; let credit : Nat := 0; let s : State := run;
     (match beginsAt o 4613 s with
      | some b =>
         decide (mailbox < 64) && decide (credit ≤ 16)
      | _ => false)),
    (let o : Origin := oper; let mailbox : Nat := 0; let credit : Nat := 17; let s : State := run;
     (match beginsAt o 4613 s with
      | some b =>
         decide (64 ≤ mailbox ∨ 16 < credit)
      | _ => false)),
    (let o : Origin := manager; let mailbox : Nat := 32; let pid : Nat := 1; let s : State := run;
     (match beginsAt o 4614 s with
      | some b =>
         decide (32 ≤ mailbox) && decide (mailbox < 64) && decide (pid ≠ 0) && decide (pid ≤ 4095) &&
         ((Machine.mailbox b mailbox).outstanding.isEmpty)
      | _ => false)),
    (let o : Origin := manager; let mailbox : Nat := 32; let pid : Nat := 1; let s : State := busyMail;
     (match beginsAt o 4614 s with
      | some b =>
         decide (32 ≤ mailbox) && decide (mailbox < 64) && decide (pid ≠ 0) && decide (pid ≤ 4095) &&
         decide ((Machine.mailbox b mailbox).outstanding.isEmpty = false)
      | _ => false)),
    (let o : Origin := manager; let mailbox : Nat := 0; let pid : Nat := 0; let s : State := run;
     (match beginsAt o 4614 s with
      | some b =>
         decide (mailbox < 32 ∨ 64 ≤ mailbox ∨ pid = 0)
      | _ => false)),
    (let o : Origin := opSec; let cls : CredClass := .operator; let cert : Nat := 1; let s : State := creds;
     (match beginsAt o 4615 s with
      | some b =>
         decide (classNetwork cls = classNetwork o.cls) && ((credentials b).contains (cls, cert)) &&
         decide ((securityClass cls && (List.filter (fun e_ ↦ e_.fst == cls) (credentials b)).length == 1) = false)
      | _ => false)),
    (let o : Origin := opSec; let cls : CredClass := .operatorSecurity; let cert : Nat := 2; let s : State := creds;
     (match beginsAt o 4615 s with
      | some b =>
         decide (classNetwork cls = classNetwork o.cls) && ((credentials b).contains (cls, cert)) &&
         ((securityClass cls && (List.filter (fun e_ ↦ e_.fst == cls) (credentials b)).length == 1))
      | _ => false)),
    (let o : Origin := opSec; let cls : CredClass := .operator; let cert : Nat := 0; let s : State := run;
     (match beginsAt o 4615 s with
      | some b =>
         decide (classNetwork cls = classNetwork o.cls) && decide ((credentials b).contains (cls, cert) = false) &&
         decide (((credentials b).any fun e_ ↦ e_.snd == cert) = false) && decide ((credentials b).length < 256)
      | _ => false)),
    (let o : Origin := opSec; let cls : CredClass := .operator; let cert : Nat := 1; let s : State := creds;
     (match beginsAt o 4615 s with
      | some b =>
         decide (classNetwork cls = classNetwork o.cls) && ((credentials b).contains (cls, cert))
      | _ => false)),
    (let o : Origin := opSec; let cls : CredClass := .tenant; let s : State := run;
     (match beginsAt o 4615 s with
      | some b =>
         decide (classNetwork cls ≠ classNetwork o.cls)
      | _ => false)),
    (let o : Origin := oper; let network : Nat := 0; let address : Nat := 0; let pfxLen : Nat := 0; let mtu : Nat := 1280;
     let s : State := run;
     (match beginsAt o 4616 s with
      | some b =>
         decide (network ≤ 1) && decide (address < 2 ^ 128) && decide (pfxLen ≤ 128) && decide (1280 ≤ mtu) &&
         decide (mtu ≤ 9000)
      | _ => false)),
    (let o : Origin := oper; let network : Nat := 0; let address : Nat := 0; let pfxLen : Nat := 0; let s : State := run;
     (match beginsAt o 4616 s with
      | some b =>
         decide (network ≤ 1) && decide (address < 2 ^ 128) && decide (pfxLen ≤ 128)
      | _ => false)),
    (let o : Origin := oper; let network : Nat := 0; let address : Nat := 0; let pfxLen : Nat := 129; let s : State := run;
     (match beginsAt o 4616 s with
      | some b =>
         decide (1 < network ∨ 2 ^ 128 ≤ address ∨ 128 < pfxLen)
      | _ => false)),
    (let o : Origin := oper; let addr : Nat := 0; let amount : Nat := 1; let s : State := run;
     (match beginsAt o 4617 s with
      | some b =>
         decide (0 < amount) && decide (amount ≤ 256) &&
         decide (List.findSome? (fun a_ ↦ Option.map (fun st_ ↦ (a_, st_)) (accessStatus0 b a_)) (List.map (fun i_ ↦ addr + 4 * i_) (List.range amount)) = none)
      | _ => false)),
    (let o : Origin := oper; let amount : Nat := 0; let s : State := run;
     (match beginsAt o 4617 s with
      | some b =>
         decide (amount = 0 ∨ 256 < amount)
      | _ => false)),
    (let o : Origin := oper; let addr : Nat := 8; let s : State := run;
     (match beginsAt o 4618 s with
      | some b =>
         decide (windowOf addr = 3)
      | _ => false)),
    (let o : Origin := oper; let addr : Nat := 4; let value : Word := 1; let mask : Word := 1; let s : State := run;
     (match beginsAt o 4618 s with
      | some b =>
         decide (accessStatus0 b addr = none) && decide (windowOf addr = 0) && decide (addrReg addr = 1) &&
         (BitVec.getLsbD (value &&& mask) 0)
      | _ => false)),
    (let o : Origin := oper; let addr : Nat := 0; let value : Word := 0; let mask : Word := 0; let s : State := run;
     (match beginsAt o 4618 s with
      | some b =>
         decide (accessStatus0 b addr = none) && decide (windowOf addr ≠ 3) &&
         decide (windowOf addr ≠ 0 ∨ addrReg addr ≠ 1 ∨ BitVec.getLsbD (value &&& mask) 0 = false)
      | _ => false)),
    (let o : Origin := oper; let scope : Nat := 1; let duration : Nat := 1; let s : State := run;
     (match beginsAt o 4619 s with
      | some b =>
         decide (scope ≠ 0) && decide (scope < 16) && decide (duration ≠ 0) && decide (duration ≤ 86400) &&
         decide ((pendingProposals b).length < 64)
      | _ => false)),
    (let o : Origin := oper; let scope : Nat := 0; let duration : Nat := 0; let s : State := run;
     (match beginsAt o 4619 s with
      | some b =>
         decide (scope = 0 ∨ 16 ≤ scope ∨ duration = 0 ∨ 86400 < duration)
      | _ => false))].all id = true := by
  decide +kernel

theorem witness_FirmwareEvents : [
    (let s : State := run;
     decide (takeDelivered 8 s = none)),
    (let s : State := fweReq;
     (match takeDelivered 8 s with
      | some (d, s1) =>
         true
      | _ => false)),
    (let s : State := run;
     decide (takeDelivered 9 s = none)),
    (let s : State := fweDrop;
     (match takeDelivered 9 s with
      | some (d, s1) =>
         true
      | _ => false)),
    (let s : State := run;
     decide (takeDelivered 7 s = none)),
    (let s : State := fweFull;
     (match takeDelivered 7 s with
      | some (d, s1) =>
         decide (8192 ≤ s1.buf.fwIn.length)
      | _ => false)),
    (let s : State := fweOddNotice;
     (match takeDelivered 7 s with
      | some (d, s1) =>
         decide (s1.buf.fwIn.length < 8192) && decide (xCtype d.pkt = 3) && decide (knownNotice (noticeType d.pkt) = false)
      | _ => false)),
    (let s : State := fweOddFirmware;
     (match takeDelivered 7 s with
      | some (d, s1) =>
         decide (s1.buf.fwIn.length < 8192) && decide (xCtype d.pkt = 4) &&
         decide (knownFirmware (firmwareType d.pkt) = false)
      | _ => false)),
    (let s : State := fweNotice;
     (match takeDelivered 7 s with
      | some (d, s1) =>
         decide (s1.buf.fwIn.length < 8192) && decide (xCtype d.pkt = 3) && (knownNotice (noticeType d.pkt))
      | _ => false)),
    (let s : State := fweFirmware;
     (match takeDelivered 7 s with
      | some (d, s1) =>
         decide (s1.buf.fwIn.length < 8192) && decide (xCtype d.pkt = 4) && (knownFirmware (firmwareType d.pkt))
      | _ => false)),
    (let s : State := run;
     decide (s.buf.fwOut = [])),
    (let s : State := fweOut;
     (match s.buf.fwOut with
      | k :: ks =>
         ((waitingOf s controlSource).isEmpty) && (controlRoom s k)
      | _ => false)),
    (let s : State := fweOutWait;
     (match s.buf.fwOut with
      | k :: ks =>
         decide ((waitingOf s controlSource).isEmpty = false ∨ controlRoom s k = false)
      | _ => false)),
    (let s : State := State.reset;
     (winnowDown s)),
    (let s : State := run;
     decide (winnowDown s = false)),
    (let s : State := State.reset;
     (winnowDown s)),
    (let s : State := run;
     decide (winnowDown s = false)),
    (let s : State := run;
     decide (takeFirmware 1 s = none)),
    (let s : State := fweSummary;
     (match takeFirmware 1 s with
      | some (k, s1) =>
         true
      | _ => false))].all id = true := by
  decide +kernel

theorem witness_ForwardEvents : [
    (let port : Nat := 0; let pkt : Packet := pkt0; let slots : Nat := 0; let s : State := run;
     (portKnown s port) &&
     (match headerDrop s port pkt slots with
      | some code =>
         true
      | _ => false)),
    (let port : Nat := 0; let pkt : Packet := d5pkt; let slots : Nat := 1; let s : State := run;
     (portKnown s port) && decide (headerDrop s port pkt slots = none) &&
     (match colourPacket port pkt (filterSlice 0 (port / 256) pkt (headerParity port pkt s)) with
      | (k, s1) =>
         decide (pClass k ≠ 0) &&
         (match routePacket port k s1 with
          | (s2, f) =>
             true))),
    (let port : Nat := 0; let pkt : Packet := c0pkt; let slots : Nat := 1; let s : State := fwdLevel;
     (portKnown s port) && decide (headerDrop s port pkt slots = none) &&
     (match colourPacket port pkt (filterSlice 0 (port / 256) pkt (headerParity port pkt s)) with
      | (k, s1) =>
         decide (pClass k = 0) && ((Machine.port s1 port).c0Held.isEmpty) &&
         (match policed port k s1 with
          | some s2 =>
             (match routePacket port k s2 with
              | (s3, f) =>
                 true)
          | _ => false))),
    (let port : Nat := 0; let pkt : Packet := c0pkt; let slots : Nat := 1; let s : State := run;
     (portKnown s port) && decide (headerDrop s port pkt slots = none) &&
     (match colourPacket port pkt (filterSlice 0 (port / 256) pkt (headerParity port pkt s)) with
      | (k, s1) =>
         decide (pClass k = 0) && ((Machine.port s1 port).c0Held.isEmpty) && decide (policed port k s1 = none))),
    (let port : Nat := 0; let s : State := run;
     (portKnown s port) && decide ((Machine.port s port).c0Held = [])),
    (let port : Nat := 0; let s : State := fwdHeld;
     (portKnown s port) &&
     (match (Machine.port s port).c0Held with
      | k :: rest =>
         decide (policed port k s = none)
      | _ => false)),
    (let port : Nat := 0; let s : State := fwdHeldOk;
     (portKnown s port) &&
     (match (Machine.port s port).c0Held with
      | k :: rest =>
         (match policed port k s with
          | some s1 =>
             true
          | _ => false)
      | _ => false)),
    (let slice : Nat := 0; let s : State := run;
     decide (slice < 8) && decide ((Machine.slice s slice).learnQueue = [])),
    (let slice : Nat := 0; let s : State := fwdLearn;
     decide (slice < 8) &&
     (match (Machine.slice s slice).learnQueue with
      | m :: rest =>
         (mayStart s 3 2)
      | _ => false)),
    (let slice : Nat := 0; let s : State := fwdLearnBusy;
     decide (slice < 8) &&
     (match (Machine.slice s slice).learnQueue with
      | m :: rest =>
         decide (mayStart s 3 2 = false)
      | _ => false)),
    (let id : Nat := 0; let s : State := run;
     decide (stored s id = none)),
    (let id : Nat := 0; let s : State := fwdDone;
     (match stored s id with
      | some k =>
         decide (k.inPort = none ∨ k.complete = true)
      | _ => false)),
    (let id : Nat := 0; let verdict : TrailerVerdict := .bad; let s : State := fwdPart;
     (match stored s id with
      | some k =>
         (match k.inPort with
          | some p =>
             decide (k.complete = false) && decide (pEnc k.pkt = false) && decide (verdict ≠ TrailerVerdict.pass)
          | _ => false)
      | _ => false)),
    (let id : Nat := 0; let s : State := fwdPart;
     (match stored s id with
      | some k =>
         (match k.inPort with
          | some p =>
             decide (k.complete = false) && decide (pEnc k.pkt = false) && decide (k.consumer = none)
          | _ => false)
      | _ => false)),
    (let id : Nat := 0; let verdict : TrailerVerdict := .pass; let inst : Nat := 0; let s : State := fwdEnc;
     (match stored s id with
      | some k =>
         (match k.inPort with
          | some p =>
             decide (k.complete = false) && (pEnc k.pkt) &&
             (match instanceCheck p k.pkt verdict inst s with
              | (s1, false) =>
                 true
              | _ => false)
          | _ => false)
      | _ => false)),
    (let s : State := run;
     decide (takeDelivered 0 s = none)),
    (let s : State := fwdDelivered;
     (match takeDelivered 0 s with
      | some (d, s1) =>
         true
      | _ => false)),
    (let slice : Nat := 0; let s : State := run;
     decide (slice < 8) && decide (s.buf.sharedUsed ≤ sharedSize s)),
    (let slice : Nat := 0; let s : State := fwdShared;
     decide (slice < 8) && decide (sharedSize s < s.buf.sharedUsed)),
    (let port : Nat := 0; let cls : Nat := 0; let vc : Nat := 0; let s : State := fwdQueued;
     (portKnown s port) && decide (cls < 5) && decide (vc < 2) &&
     decide (((sourceQueues s port cls vc).all fun x_ ↦ x_.isEmpty) = false) && (creditless s port cls vc)),
    (let port : Nat := 0; let cls : Nat := 0; let vc : Nat := 0; let s : State := run;
     (portKnown s port) && decide (cls < 5) && decide (vc < 2) &&
     decide (((sourceQueues s port cls vc).all fun x_ ↦ x_.isEmpty) = true ∨ creditless s port cls vc = false)),
    (let port : Nat := 0; let s : State := fwdQueued;
     (portKnown s port) && decide ((Machine.port s port).phase = PortPhase.up) && (portHasQueued s port)),
    (let port : Nat := 0; let s : State := run;
     (portKnown s port) && decide ((Machine.port s port).phase ≠ PortPhase.up)),
    (let port : Nat := 0; let cls : Nat := 0; let src : Nat := 0; let s : State := run;
     (portKnown s port) && decide (cls < 5) && decide (src < 17) &&
     decide (((voq s (voqKey port cls 0 src)).head?.bind fun c_ ↦ stored s c_.pkt) = none)),
    (let port : Nat := 0; let cls : Nat := 0; let src : Nat := 0; let s : State := fwdHusk;
     (portKnown s port) && decide (cls < 5) && decide (src < 17) &&
     (match ((voq s (voqKey port cls 0 src)).head?.bind fun c_ ↦ stored s c_.pkt) with
      | some k =>
         (creditless s port cls 0) && decide (k.multicast = false) &&
         ((huskPort (huskParity k.slice k.pkt s) (slice (huskParity k.slice k.pkt s) k.slice) k.pkt).isSome)
      | _ => false)),
    (let port : Nat := 0; let cls : Nat := 0; let src : Nat := 0; let s : State := fwdCredit;
     (portKnown s port) && decide (cls < 5) && decide (src < 17) &&
     (match ((voq s (voqKey port cls 0 src)).head?.bind fun c_ ↦ stored s c_.pkt) with
      | some k =>
         decide (creditless s port cls 0 = false ∨ k.multicast = true)
      | _ => false)),
    (let port : Nat := 0; let cls : Nat := 0; let s : State := run;
     (portKnown s port) && decide (cls < 5)),
    (let slice : Nat := 0; let bucket : Nat := 0; let s : State := run;
     decide (slice < 8) && decide (lockOf (Machine.slice s slice) bucket = none)),
    (let slice : Nat := 0; let bucket : Nat := 0; let s : State := fwdLock;
     decide (slice < 8) &&
     (match lockOf (Machine.slice s slice) bucket with
      | some l =>
         true
      | _ => false)),
    (let slice : Nat := 0;
     decide (slice < 8)),
    (let slice : Nat := 0;
     decide (slice < 8)),
    (let act : Nat := 1; let res : Nat := 0; let s : State := run;
     decide (act < 10) && decide (res < 4) &&
     (((s.sched.budgets.getD act { shares := [], lendable := false }).lendable && (res != 0 || throttleDepth s 2 == 0)))),
    (let act : Nat := 0; let res : Nat := 0; let s : State := run;
     decide (act < 10) && decide (res < 4) &&
     decide (((s.sched.budgets.getD act { shares := [], lendable := false }).lendable && (res != 0 || throttleDepth s 2 == 0)) = false))].all id = true := by
  decide +kernel

theorem witness_GranaryCommands : [
    (let o : Origin := manager; let rec0 : RegionRec := region0; let extents : Nat := 1; let s : State := run;
     (match beginsAt o 1793 s with
      | some b =>
         (match kindOf rec0.kind with
          | some kind =>
             decide (extents ≠ 0) && (ownerKnown b rec0.pid) && (mayReach o rec0.pid b) &&
             (match freeRegionId b 1 57343 with
              | some r =>
                 decide (winnowDown b = false) &&
                 (match placeRegion r rec0.pid extents b with
                  | (some m, s1) =>
                     true
                  | _ => false)
              | _ => false)
          | _ => false)
      | _ => false)),
    (let o : Origin := manager; let rec0 : RegionRec := region0; let extents : Nat := 65537; let s : State := run;
     (match beginsAt o 1793 s with
      | some b =>
         (match kindOf rec0.kind with
          | some kind =>
             decide (extents ≠ 0) && (ownerKnown b rec0.pid) && (mayReach o rec0.pid b) &&
             (match freeRegionId b 1 57343 with
              | some r =>
                 decide (winnowDown b = false) &&
                 (match placeRegion r rec0.pid extents b with
                  | (none, s1) =>
                     true
                  | _ => false)
              | _ => false)
          | _ => false)
      | _ => false)),
    (let o : Origin := manager; let rec0 : RegionRec := region0; let stackSet : Nat := 1; let extents : Nat := 1;
     let s : State := run;
     (match beginsAt o 1793 s with
      | some b =>
         (match kindOf rec0.kind with
          | some kind =>
             decide (extents ≠ 0) && decide (stackSet < 2 ^ 16) && decide (stackSet ≠ 0) && (ownerKnown b rec0.pid) &&
             (mayReach o rec0.pid b) &&
             (match freeRegionId b 1 57343 with
              | some r =>
                 decide (((maskBits 16 stackSet).any fun g_ ↦ !testBitN (policy b rec0.pid).stackMask g_) = false) &&
                 decide ((extents % (maskBits 16 stackSet).length != 0) = false) &&
                 decide (((maskBits 16 stackSet).any fun g_ ↦ !(eligibleStacks b rec0.pid).contains g_ || decide (freeExtents b g_ < extents / (maskBits 16 stackSet).length)) = false)
              | _ => false)
          | _ => false)
      | _ => false)),
    (let o : Origin := manager; let rec0 : RegionRec := { region0 with kind := 7 }; let s : State := run;
     (match beginsAt o 1793 s with
      | some b =>
         decide (kindOf rec0.kind = none)
      | _ => false)),
    (let o : Origin := manager; let region : Nat := 1; let s : State := granReg;
     (match beginsAt o 1794 s with
      | some b =>
         (match Machine.region b region with
          | some x =>
             decide (region ≠ 0) && decide (region < 57344) && (mayReach o x.pid b) &&
             decide (x.phase ≠ RegionPhase.freeing) && decide (regionNamed b region = false)
          | _ => false)
      | _ => false)),
    (let o : Origin := manager; let region : Nat := 1; let s : State := granFree;
     (match beginsAt o 1794 s with
      | some b =>
         (match Machine.region b region with
          | some x =>
             decide (region ≠ 0) && decide (region < 57344) && (mayReach o x.pid b) &&
             decide (x.phase = RegionPhase.freeing ∨ regionNamed b region = true)
          | _ => false)
      | _ => false)),
    (let o : Origin := tenant; let region : Nat := 1; let s : State := granForeign;
     (match beginsAt o 1794 s with
      | some b =>
         (match Machine.region b region with
          | some x =>
             decide (region ≠ 0) && decide (region < 57344) && decide (mayReach o x.pid b = false)
          | _ => false)
      | _ => false)),
    (let o : Origin := manager; let region : Nat := 1; let rec0 : RegionRec := region0; let s : State := granReg;
     (match beginsAt o 1795 s with
      | some b =>
         (match Machine.region b region with
          | some x =>
             decide (region ≠ 0) && decide (region < 57344) && (mayReach o x.pid b) &&
             decide (rightsConflict b region x rec0 = false) && decide (x.kind ≠ RegionKind.mirror)
          | _ => false)
      | _ => false)),
    (let o : Origin := manager; let region : Nat := 1; let rec0 : RegionRec := region0; let s : State := granMirrorReg;
     (match beginsAt o 1795 s with
      | some b =>
         (match Machine.region b region with
          | some x =>
             decide (region ≠ 0) && decide (region < 57344) && (mayReach o x.pid b) &&
             decide (rightsConflict b region x rec0 = false) && decide (x.kind = RegionKind.mirror) &&
             decide ((pendingProposals b).length < 64)
          | _ => false)
      | _ => false)),
    (let o : Origin := manager; let region : Nat := 1; let rec0 : RegionRec := region0; let s : State := granFree;
     (match beginsAt o 1795 s with
      | some b =>
         (match Machine.region b region with
          | some x =>
             decide (region ≠ 0) && decide (region < 57344) && (mayReach o x.pid b) && (rightsConflict b region x rec0)
          | _ => false)
      | _ => false)),
    (let o : Origin := oper; let region : Nat := 1; let s : State := granReg;
     (match beginsAt o 1796 s with
      | some b =>
         (match Machine.region b region with
          | some x =>
             (mayReach o x.pid b)
          | _ => false)
      | _ => false)),
    (let o : Origin := tenant; let region : Nat := 1; let s : State := granForeign;
     (match beginsAt o 1796 s with
      | some b =>
         (match Machine.region b region with
          | some x =>
             decide (mayReach o x.pid b = false)
          | _ => false)
      | _ => false)),
    (let o : Origin := oper; let region : Nat := 0; let s : State := run;
     (match beginsAt o 1796 s with
      | some b =>
         decide (Machine.region b region = none)
      | _ => false)),
    (let o : Origin := tenant; let shard : Nat := 0; let owner : Nat := 0; let generation : Nat := 0; let size : Nat := 1;
     let replicas : List Nat := []; let s : State := granPolicy;
     (match beginsAt o 1797 s with
      | some b =>
         (match callerPid o b with
          | some pid =>
             decide (shard < 2 ^ 32) && decide (owner < 2 ^ 20) && decide (generation < 2 ^ 32) && decide (size ≠ 0) &&
             decide (size < 2 ^ 64) && decide (replicas.length ≤ 8) &&
             decide ((replicas.any fun r_ ↦ decide (2 ^ 20 ≤ r_)) = false) && decide (winnowDown b = false) &&
             decide ((partition b pid).fenced = false) && decide ((policy b pid).spines.isEmpty = false) &&
             ((Option.map (fun x_ ↦ (policy b pid).spines.contains x_) (ownSid b)).getD false) &&
             decide (((Option.map (fun m_ ↦ m_.phase == 0) (tabGet? b.gran.mirrors (mirrorKey pid shard))).getD false || List.any b.gran.asks fun a_ ↦ a_.snd.pid == pid && a_.snd.shard == shard) = false)
          | _ => false)
      | _ => false)),
    (let o : Origin := tenant; let shard : Nat := 1; let s : State := granMirror;
     (match beginsAt o 1798 s with
      | some b =>
         (match findMirror o shard b with
          | some (key, m) =>
             (let generation := m.generation;
                 decide (m.phase = 0))
          | _ => false)
      | _ => false)),
    (let o : Origin := tenant; let shard : Nat := 1; let generation : Nat := 0; let s : State := granMirror;
     (match beginsAt o 1798 s with
      | some b =>
         (match findMirror o shard b with
          | some (key, m) =>
             decide (m.generation ≠ generation ∨ m.phase ≠ 0)
          | _ => false)
      | _ => false)),
    (let o : Origin := tenant; let shard : Nat := 0; let s : State := run;
     (match beginsAt o 1798 s with
      | some b =>
         decide (findMirror o shard b = none)
      | _ => false)),
    (let o : Origin := manager; let shard : Nat := 1; let s : State := granMirror;
     (match beginsAt o 1799 s with
      | some b =>
         (match findMirror o shard b with
          | some (key, m) =>
             true
          | _ => false)
      | _ => false)),
    (let o : Origin := manager; let shard : Nat := 0; let s : State := run;
     (match beginsAt o 1799 s with
      | some b =>
         decide (findMirror o shard b = none)
      | _ => false)),
    (let o : Origin := manager; let shard : Nat := 1; let s : State := granMirror;
     (match beginsAt o 1800 s with
      | some b =>
         (match findMirror o shard b with
          | some (key, m) =>
             true
          | _ => false)
      | _ => false)),
    (let o : Origin := manager; let shard : Nat := 0; let s : State := run;
     (match beginsAt o 1800 s with
      | some b =>
         decide (findMirror o shard b = none)
      | _ => false)),
    (let o : Origin := manager; let channel : Nat := 24; let pid : Nat := 0; let rate : Nat := 1; let s : State := run;
     (match beginsAt o 1801 s with
      | some b =>
         decide (24 ≤ channel) && decide (channel < 32) &&
         decide (pid = 4095 ∨ ownerKnown b pid = true ∧ rate ≠ 0 ∧ rate ≤ 1200) && (channelRests b channel)
      | _ => false)),
    (let o : Origin := manager; let channel : Nat := 24; let pid : Nat := 0; let rate : Nat := 1;
     let s : State := granChanRun;
     (match beginsAt o 1801 s with
      | some b =>
         decide (24 ≤ channel) && decide (channel < 32) &&
         decide (pid = 4095 ∨ ownerKnown b pid = true ∧ rate ≠ 0 ∧ rate ≤ 1200) && decide (channelRests b channel = false)
      | _ => false)),
    (let o : Origin := manager; let channel : Nat := 0; let s : State := run;
     (match beginsAt o 1801 s with
      | some b =>
         decide (channel < 24 ∨ 32 ≤ channel)
      | _ => false)),
    (let o : Origin := manager; let channel : Nat := 0; let setting : ChannelRec := chan0; let s : State := run;
     (match beginsAt o 1802 s with
      | some b =>
         decide (channel < 32) && decide (setting.stale ≠ 0) && (channelRecGood setting) && (channelReach o channel b) &&
         (mayReach o setting.pid b) && (channelRests b channel)
      | _ => false)),
    (let o : Origin := manager; let channel : Nat := 24; let setting : ChannelRec := chan0; let s : State := granChanRun;
     (match beginsAt o 1802 s with
      | some b =>
         decide (channel < 32) && decide (setting.stale ≠ 0) && (channelRecGood setting) && (channelReach o channel b) &&
         (mayReach o setting.pid b) && decide (channelRests b channel = false)
      | _ => false)),
    (let o : Origin := tenant; let channel : Nat := 0; let setting : ChannelRec := chan0; let s : State := run;
     (match beginsAt o 1802 s with
      | some b =>
         decide (channel < 32) && decide (setting.stale ≠ 0) && (channelRecGood setting) &&
         decide (channelReach o channel b = false ∨ mayReach o setting.pid b = false)
      | _ => false)),
    (let o : Origin := manager; let channel : Nat := 24; let s : State := granChan;
     (match beginsAt o 1803 s with
      | some b =>
         decide (channel < 32) && (channelReach o channel b) &&
         (ringGood b (Machine.channel b channel).cfg.pid (Machine.channel b channel).cfg.ringRegion (Machine.channel b channel).cfg.ringOffset (Machine.channel b channel).cfg.ringLog2) &&
         (ringGood b (Machine.channel b channel).cfg.pid (Machine.channel b channel).cfg.cplRegion (Machine.channel b channel).cfg.cplOffset (Machine.channel b channel).cfg.ringLog2) &&
         decide (granaryOff b = false) && ((Machine.channel b channel).cfg.enable) &&
         decide (((Machine.channel b channel).phase == ChannelPhase.stopping) = false)
      | _ => false)),
    (let o : Origin := tenant; let channel : Nat := 0; let s : State := run;
     (match beginsAt o 1803 s with
      | some b =>
         decide (channel < 32) && decide (channelReach o channel b = false)
      | _ => false)),
    (let o : Origin := manager; let channel : Nat := 32; let s : State := run;
     (match beginsAt o 1803 s with
      | some b =>
         decide (32 ≤ channel)
      | _ => false)),
    (let o : Origin := manager; let channel : Nat := 0; let grace : Nat := 0; let s : State := run;
     (match beginsAt o 1804 s with
      | some b =>
         decide (channel < 32) && decide (grace ≤ 1000000) && (channelReach o channel b) &&
         ((Machine.channel b channel).flight.isEmpty)
      | _ => false)),
    (let o : Origin := manager; let channel : Nat := 24; let grace : Nat := 0; let s : State := granChanRun;
     (match beginsAt o 1804 s with
      | some b =>
         decide (channel < 32) && decide (grace ≤ 1000000) && (channelReach o channel b) &&
         decide ((Machine.channel b channel).flight.isEmpty = false)
      | _ => false)),
    (let o : Origin := manager; let channel : Nat := 0; let grace : Nat := 1000001; let s : State := run;
     (match beginsAt o 1804 s with
      | some b =>
         decide (32 ≤ channel ∨ 1000000 < grace)
      | _ => false)),
    (let o : Origin := oper; let grace : Nat := 0; let s : State := run;
     (match beginsAt o 1805 s with
      | some b =>
         decide (grace ≤ 1000000) && decide (b.gran.disabling = none)
      | _ => false)),
    (let o : Origin := oper; let grace : Nat := 0; let s : State := granChanRun;
     (match beginsAt o 1805 s with
      | some b =>
         decide (grace ≤ 1000000) && decide (b.gran.disabling = none) &&
         ((List.any (stopChannels b).gran.channels fun e_ ↦ e_.snd.phase == ChannelPhase.stopping))
      | _ => false)),
    (let o : Origin := oper; let grace : Nat := 0; let s : State := run;
     (match beginsAt o 1805 s with
      | some b =>
         decide (grace ≤ 1000000) && decide (b.gran.disabling = none) &&
         decide ((List.any (stopChannels b).gran.channels fun e_ ↦ e_.snd.phase == ChannelPhase.stopping) = false)
      | _ => false)),
    (let o : Origin := oper; let grace : Nat := 0; let s : State := granDisabling;
     (match beginsAt o 1805 s with
      | some b =>
         decide (grace ≤ 1000000) &&
         (match b.gran.disabling with
          | some x =>
             true
          | _ => false)
      | _ => false))].all id = true := by
  decide +kernel

theorem witness_GranaryEvents : [
    (let s : State := run;
     decide (nextAccess s [] (consumerQueue s 4) = none)),
    (let s : State := gevRead;
     (match nextAccess s [] (consumerQueue s 4) with
      | some i =>
         (match (consumerQueue s 4)[i]? with
          | some d =>
             decide (xGop d.pkt < 128)
          | _ => false)
      | _ => false)),
    (let s : State := gevReply;
     (match nextAccess s [] (consumerQueue s 4) with
      | some i =>
         (match (consumerQueue s 4)[i]? with
          | some d =>
             decide (128 ≤ xGop d.pkt)
          | _ => false)
      | _ => false)),
    (let index : Nat := 0; let s : State := gevWrites;
     (match s.gran.writes[index]? with
      | some a =>
         true
      | _ => false)),
    (let index : Nat := 0; let s : State := run;
     decide (s.gran.writes[index]? = none)),
    (let index : Nat := 0; let s : State := gevReads;
     (match s.gran.reads[index]? with
      | some a =>
         true
      | _ => false)),
    (let index : Nat := 0; let s : State := run;
     decide (s.gran.reads[index]? = none)),
    (let region : Nat := 0; let stack : Nat := 0; let extent : Nat := 0; let s : State := gevRetire;
     decide (stack < 16) && decide ((region, stack, extent) ∈ s.gran.retiring) && (mayStart s 4 0)),
    (let stack : Nat := 0; let s : State := gevSpent;
     decide (stack < 16) && decide (mayStart s 4 0 = false)),
    (let stack : Nat := 16;
     decide (16 ≤ stack)),
    (let s : State := run;
     (mayStart s 7 0)),
    (let s : State := run;
     (mayStart s 7 0)),
    (let s : State := gevSpent;
     decide (mayStart s 7 0 = false)),
    (let region : Nat := 1; let s : State := gevZeroing;
     (match Machine.region s region with
      | some x =>
         decide (x.phase = RegionPhase.zeroing) && (mayStart s 4 0)
      | _ => false)),
    (let region : Nat := 1; let s : State := granFree;
     (match Machine.region s region with
      | some x =>
         decide (x.phase = RegionPhase.freeing) && (mayStart s 4 0)
      | _ => false)),
    (let region : Nat := 1; let s : State := granReg;
     (match Machine.region s region with
      | some x =>
         decide (x.phase ≠ RegionPhase.zeroing) && decide (x.phase ≠ RegionPhase.freeing)
      | _ => false)),
    (let region : Nat := 0; let s : State := run;
     decide (Machine.region s region = none)),
    (let s : State := run;
     decide (s.gran.commits = [])),
    (let s : State := gevCommitNone;
     (match s.gran.commits with
      | c :: cs =>
         decide (tabGet? s.gran.mirrors c.key = none)
      | _ => false)),
    (let s : State := gevCommit;
     (match s.gran.commits with
      | c :: cs =>
         (match tabGet? s.gran.mirrors c.key with
          | some m =>
             decide (some m.sid ≠ ownSid s ∨ mayStart s 0 0 = true)
          | _ => false)
      | _ => false)),
    (let s : State := gevCommitLate;
     (match s.gran.commits with
      | c :: cs =>
         (match tabGet? s.gran.mirrors c.key with
          | some m =>
             decide (some m.sid = ownSid s) && decide (mayStart s 0 0 = false)
          | _ => false)
      | _ => false)),
    (let s : State := run;
     decide (takeFirmware 2 s = none)),
    (let s : State := gevAskBad;
     (match takeFirmware 2 s with
      | some (k, s1) =>
         (mirrorRefused k s1)
      | _ => false)),
    (let s : State := gevAsk;
     (match takeFirmware 2 s with
      | some (k, s1) =>
         decide (mirrorRefused k s1 = false)
      | _ => false)),
    (let s : State := run;
     decide (takeFirmware 3 s = none)),
    (let s : State := gevGrantNone;
     (match takeFirmware 3 s with
      | some (k, s1) =>
         decide (askOf k s1 = none)
      | _ => false)),
    (let s : State := gevGrant;
     (match takeFirmware 3 s with
      | some (k, s1) =>
         (match askOf k s1 with
          | some (id, a) =>
             (stillOutstanding (modGran (fun g_ ↦ { regions := g_.regions, mem := g_.mem, lineKeys := g_.lineKeys, lostStacks := g_.lostStacks, spares := g_.spares, poisoned := g_.poisoned, corrected := g_.corrected, retiring := g_.retiring, scrub := g_.scrub, writes := g_.writes, reads := g_.reads, mirrors := g_.mirrors, asks := tabDel g_.asks id, nextAsk := g_.nextAsk, commits := g_.commits, channels := g_.channels, grists := g_.grists, disabling := g_.disabling }) s1) a.origin)
          | _ => false)
      | _ => false)),
    (let s : State := gevGrantEnded;
     (match takeFirmware 3 s with
      | some (k, s1) =>
         (match askOf k s1 with
          | some (id, a) =>
             decide (stillOutstanding (modGran (fun g_ ↦ { regions := g_.regions, mem := g_.mem, lineKeys := g_.lineKeys, lostStacks := g_.lostStacks, spares := g_.spares, poisoned := g_.poisoned, corrected := g_.corrected, retiring := g_.retiring, scrub := g_.scrub, writes := g_.writes, reads := g_.reads, mirrors := g_.mirrors, asks := tabDel g_.asks id, nextAsk := g_.nextAsk, commits := g_.commits, channels := g_.channels, grists := g_.grists, disabling := g_.disabling }) s1) a.origin = false)
          | _ => false)
      | _ => false)),
    (let s : State := run;
     decide (takeFirmware 4 s = none)),
    (let s : State := gevDenyNone;
     (match takeFirmware 4 s with
      | some (k, s1) =>
         decide (askOf k s1 = none)
      | _ => false)),
    (let s : State := gevDeny;
     (match takeFirmware 4 s with
      | some (k, s1) =>
         (match askOf k s1 with
          | some (id, a) =>
             true
          | _ => false)
      | _ => false)),
    (let channel : Nat := 24; let s : State := gevTake;
     decide (channel < 32) && (mayTake s channel)),
    (let channel : Nat := 0; let s : State := run;
     decide (channel < 32) && decide (mayTake s channel = false)),
    (let channel : Nat := 32;
     decide (32 ≤ channel)),
    (let channel : Nat := 0; let index : Nat := 0; let s : State := run;
     decide (channel < 32) &&
     decide (List.find? (fun f_ ↦ f_.index == index && f_.status.isNone) (Machine.channel s channel).flight = none)),
    (let channel : Nat := 24; let index : Nat := 0; let s : State := granChanRun;
     decide (channel < 32) &&
     (match List.find? (fun f_ ↦ f_.index == index && f_.status.isNone) (Machine.channel s channel).flight with
      | some f =>
         decide (f.desc.op ≠ 2) && decide (f.desc.op ≠ 3) && (channelMay s channel)
      | _ => false)),
    (let channel : Nat := 0; let index : Nat := 0; let s : State := gevBusy;
     decide (channel < 32) &&
     (match List.find? (fun f_ ↦ f_.index == index && f_.status.isNone) (Machine.channel s channel).flight with
      | some f =>
         decide (f.desc.op ≠ 2) && decide (f.desc.op ≠ 3) && decide (channelMay s channel = false)
      | _ => false)),
    (let channel : Nat := 24; let index : Nat := 0; let s : State := gevPush;
     decide (channel < 32) &&
     (match List.find? (fun f_ ↦ f_.index == index && f_.status.isNone) (Machine.channel s channel).flight with
      | some f =>
         decide (f.desc.op = 2)
      | _ => false)),
    (let channel : Nat := 24; let index : Nat := 0; let s : State := gevPull;
     decide (channel < 32) &&
     (match List.find? (fun f_ ↦ f_.index == index && f_.status.isNone) (Machine.channel s channel).flight with
      | some f =>
         decide (f.desc.op = 3) &&
         (match f.unwritten with
          | i :: is =>
             true
          | _ => false)
      | _ => false)),
    (let s : State := run;
     decide (takeDelivered 5 s = none)),
    (let s : State := gevReplyNone;
     (match takeDelivered 5 s with
      | some (d, s1) =>
         decide (requestOf (channel s1 (xTag d.pkt / 2 ^ 19)) (xTag d.pkt % 2 ^ 19) = none)
      | _ => false)),
    (let s : State := gevReply0;
     (match takeDelivered 5 s with
      | some (d, s1) =>
         (match requestOf (channel s1 (xTag d.pkt / 2 ^ 19)) (xTag d.pkt % 2 ^ 19) with
          | some (f, r) =>
             decide (xReplyStatus d.pkt = 0)
          | _ => false)
      | _ => false)),
    (let s : State := gevReply1;
     (match takeDelivered 5 s with
      | some (d, s1) =>
         (match requestOf (channel s1 (xTag d.pkt / 2 ^ 19)) (xTag d.pkt % 2 ^ 19) with
          | some (f, r) =>
             decide (xReplyStatus d.pkt = 1)
          | _ => false)
      | _ => false)),
    (let s : State := gevReply2;
     (match takeDelivered 5 s with
      | some (d, s1) =>
         (match requestOf (channel s1 (xTag d.pkt / 2 ^ 19)) (xTag d.pkt % 2 ^ 19) with
          | some (f, r) =>
             decide (xReplyStatus d.pkt = 2)
          | _ => false)
      | _ => false)),
    (let s : State := gevReply3;
     (match takeDelivered 5 s with
      | some (d, s1) =>
         (match requestOf (channel s1 (xTag d.pkt / 2 ^ 19)) (xTag d.pkt % 2 ^ 19) with
          | some (f, r) =>
             decide (xReplyStatus d.pkt = 3)
          | _ => false)
      | _ => false)),
    (let s : State := gevReply4;
     (match takeDelivered 5 s with
      | some (d, s1) =>
         (match requestOf (channel s1 (xTag d.pkt / 2 ^ 19)) (xTag d.pkt % 2 ^ 19) with
          | some (f, r) =>
             decide (xReplyStatus d.pkt = 4)
          | _ => false)
      | _ => false)),
    (let channel : Nat := 0;
     decide (channel < 32)),
    (let channel : Nat := 32;
     decide (32 ≤ channel)),
    (let channel : Nat := 0;
     decide (channel < 32)),
    (let channel : Nat := 24; let index : Nat := 0; let s : State := granChanRun;
     decide (channel < 32) && (((Machine.channel s channel).flight.any fun f_ ↦ f_.index == index && f_.status.isNone))),
    (let channel : Nat := 0; let index : Nat := 0; let s : State := run;
     decide (channel < 32) &&
     decide (((Machine.channel s channel).flight.any fun f_ ↦ f_.index == index && f_.status.isNone) = false)),
    (let channel : Nat := 0;
     decide (channel < 32))].all id = true := by
  decide +kernel

theorem witness_GristCommands : [
    (let o : Origin := manager; let slot : Nat := 0; let params : GristParams := prm0; let s : State := gristRead;
     (match beginsAt o 2049 s with
      | some b =>
         (gristParamsGood slot params) && decide ((ownSid b).isNone = false) && decide (granaryOff b = false) &&
         (mayReach o params.pid b) && decide ((isTenant o && params.sow == 1) = false) &&
         decide ((grist b slot).isSome = false) && decide (epochBad b params.pid params.epoch = false) &&
         (match region b params.region with
          | some x =>
             decide (x.pid = params.pid) && decide (x.phase = RegionPhase.ready) &&
             decide (params.offset + 32 * params.count ≤ regionSize x) &&
             ((List.map (fun i_ ↦ gristEntryOf (readBytes b params.region (params.offset + 32 * i_) 32)) (List.range params.count)).all (entryGood b params.pid)) &&
             (timesRise none (List.map (fun i_ ↦ gristEntryOf (readBytes b params.region (params.offset + 32 * i_) 32)) (List.range params.count)))
          | _ => false)
      | _ => false)),
    (let o : Origin := manager; let slot : Nat := 0; let params : GristParams := { prm0 with count := 0 };
     let s : State := run;
     (match beginsAt o 2049 s with
      | some b =>
         decide (gristParamsGood slot params = false)
      | _ => false)),
    (let o : Origin := manager; let slot : Nat := 0; let s : State := gristIdle;
     (match beginsAt o 2050 s with
      | some b =>
         decide (slot < 64) && decide ((ownSid b).isNone = false) &&
         (match grist b slot with
          | some g =>
             (slotReach o b g) && decide (g.phase ≠ GristPhase.running) &&
             decide ((partition b g.params.pid).fenced = false) &&
             decide ((g.entries.any timedEntry && (b.time.phase == TimePhase.unset || b.time.phase == TimePhase.acquiring)) = false)
          | _ => false)
      | _ => false)),
    (let o : Origin := manager; let slot : Nat := 0; let s : State := gristRuns;
     (match beginsAt o 2050 s with
      | some b =>
         decide (slot < 64) && decide ((ownSid b).isNone = false) &&
         (match grist b slot with
          | some g =>
             (slotReach o b g) && decide (g.phase = GristPhase.running)
          | _ => false)
      | _ => false)),
    (let o : Origin := manager; let slot : Nat := 0; let s : State := gristFenced;
     (match beginsAt o 2050 s with
      | some b =>
         decide (slot < 64) && decide ((ownSid b).isNone = false) &&
         (match grist b slot with
          | some g =>
             (slotReach o b g) && decide (g.phase ≠ GristPhase.running) && ((partition b g.params.pid).fenced)
          | _ => false)
      | _ => false)),
    (let o : Origin := manager; let slot : Nat := 0; let s : State := gristRuns;
     (match beginsAt o 2051 s with
      | some b =>
         decide (slot < 64) && decide ((ownSid b).isNone = false) &&
         (match grist b slot with
          | some g =>
             (slotReach o b g) && decide (g.phase = GristPhase.running)
          | _ => false)
      | _ => false)),
    (let o : Origin := manager; let slot : Nat := 0; let s : State := gristIdle;
     (match beginsAt o 2051 s with
      | some b =>
         decide (slot < 64) && decide ((ownSid b).isNone = false) &&
         (match grist b slot with
          | some g =>
             (slotReach o b g) && decide (g.phase ≠ GristPhase.running)
          | _ => false)
      | _ => false)),
    (let o : Origin := manager; let slot : Nat := 0; let s : State := gristIdle;
     (match beginsAt o 2052 s with
      | some b =>
         decide (slot < 64) && decide ((ownSid b).isNone = false) &&
         (match grist b slot with
          | some g =>
             (slotReach o b g) && decide (g.phase ≠ GristPhase.running)
          | _ => false)
      | _ => false)),
    (let o : Origin := manager; let slot : Nat := 0; let s : State := gristRuns;
     (match beginsAt o 2052 s with
      | some b =>
         decide (slot < 64) && decide ((ownSid b).isNone = false) &&
         (match grist b slot with
          | some g =>
             (slotReach o b g) && decide (g.phase = GristPhase.running)
          | _ => false)
      | _ => false)),
    (let o : Origin := manager; let slot : Nat := 0; let s : State := gristIdle;
     (match beginsAt o 2053 s with
      | some b =>
         decide (slot < 64) && decide ((ownSid b).isNone = false) &&
         (match grist b slot with
          | some g =>
             (slotReach o b g)
          | _ => false)
      | _ => false)),
    (let o : Origin := tenant; let slot : Nat := 0; let s : State := gristOther;
     (match beginsAt o 2053 s with
      | some b =>
         decide (slot < 64) && decide ((ownSid b).isNone = false) &&
         (match grist b slot with
          | some g =>
             decide (slotReach o b g = false)
          | _ => false)
      | _ => false))].all id = true := by
  decide +kernel

theorem witness_GristEvents : [
    (let slot : Nat := 0; let s : State := gristRuns;
     decide (slot < 64) &&
     (match grist s slot with
      | some g =>
         (match g.entries[g.next]? with
          | some e =>
             (mayStage s g e)
          | _ => false)
      | _ => false)),
    (let slot : Nat := 0; let s : State := gristIdle;
     decide (slot < 64) &&
     (match grist s slot with
      | some g =>
         (match g.entries[g.next]? with
          | some e =>
             decide (mayStage s g e = false)
          | _ => false)
      | _ => false)),
    (let slot : Nat := 0; let s : State := greEnd;
     decide (slot < 64) &&
     (match grist s slot with
      | some g =>
         decide (g.entries[g.next]? = none)
      | _ => false)),
    (let slot : Nat := 0; let s : State := run;
     decide (slot < 64) && decide (grist s slot = none)),
    (let slot : Nat := 64;
     decide (64 ≤ slot)),
    (let slot : Nat := 0; let s : State := greStaged;
     decide (slot < 64) &&
     (match grist s slot with
      | some g =>
         (match g.staged with
          | c :: cs =>
             (match g.entries[c.entry]? with
              | some e =>
                 decide (g.phase = GristPhase.running) && decide (launchDev s e ≤ s.clk.dev)
              | _ => false)
          | _ => false)
      | _ => false)),
    (let slot : Nat := 0; let s : State := greEarly;
     decide (slot < 64) &&
     (match grist s slot with
      | some g =>
         (match g.staged with
          | c :: cs =>
             (match g.entries[c.entry]? with
              | some e =>
                 decide (s.clk.dev < launchDev s e)
              | _ => false)
          | _ => false)
      | _ => false)),
    (let slot : Nat := 0; let s : State := gristIdle;
     decide (slot < 64) &&
     (match grist s slot with
      | some g =>
         decide (g.staged = [])
      | _ => false)),
    (let slot : Nat := 0; let s : State := greEnd;
     decide (slot < 64) &&
     (match grist s slot with
      | some g =>
         decide (g.phase = GristPhase.running) && decide (g.next = g.entries.length) && decide (g.staged = []) &&
         decide (gristPending s g = false)
      | _ => false)),
    (let slot : Nat := 0; let s : State := grePend;
     decide (slot < 64) &&
     (match grist s slot with
      | some g =>
         (gristPending s g)
      | _ => false)),
    (let slot : Nat := 0; let s : State := gristRuns;
     decide (slot < 64) &&
     (match grist s slot with
      | some g =>
         decide (g.phase = GristPhase.running)
      | _ => false)),
    (let slot : Nat := 0; let s : State := gristIdle;
     decide (slot < 64) &&
     (match grist s slot with
      | some g =>
         decide (g.phase ≠ GristPhase.running)
      | _ => false))].all id = true := by
  decide +kernel

theorem witness_LaneEvents : [
    (let lane : Nat := 0; let s : State := run;
     (laneKnown lane) && ((laneIn s lane LanePhase.dark && !laneUnlocked s lane))),
    (let lane : Nat := 0; let s : State := portJoined;
     (laneKnown lane) && decide ((laneIn s lane LanePhase.dark && !laneUnlocked s lane) = false)),
    (let lane : Nat := 0; let s : State := laneAcq;
     (laneKnown lane) && (laneIn s lane LanePhase.acquire)),
    (let lane : Nat := 0; let s : State := run;
     (laneKnown lane) && decide (laneIn s lane LanePhase.acquire = false)),
    (let lane : Nat := 0; let s : State := laneAcq;
     (laneKnown lane) && (laneIn s lane LanePhase.acquire)),
    (let lane : Nat := 0; let s : State := run;
     (laneKnown lane) && decide (laneIn s lane LanePhase.acquire = false)),
    (let lane : Nat := 0; let s : State := laneDel;
     (laneKnown lane) && (laneIn s lane LanePhase.delineate)),
    (let lane : Nat := 0; let s : State := run;
     (laneKnown lane) && decide (laneIn s lane LanePhase.delineate = false)),
    (let lane : Nat := 0; let s : State := laneDel;
     (laneKnown lane) && (laneIn s lane LanePhase.delineate)),
    (let lane : Nat := 0; let s : State := run;
     (laneKnown lane) && decide (laneIn s lane LanePhase.delineate = false)),
    (let lane : Nat := 0; let s : State := portJoined;
     (laneKnown lane) &&
     decide ((laneIn s lane LanePhase.dark || laneIn s lane LanePhase.acquire || laneIn s lane LanePhase.delineate) = false)),
    (let lane : Nat := 0; let s : State := run;
     (laneKnown lane) &&
     ((laneIn s lane LanePhase.dark || laneIn s lane LanePhase.acquire || laneIn s lane LanePhase.delineate))),
    (let lane : Nat := 0;
     (laneKnown lane)),
    (let lane : Nat := 0; let s : State := portJoined;
     (laneKnown lane) && (laneIn s lane LanePhase.joined) &&
     decide ((Machine.lane (removeLane lane RemoveCause.errorRate s) lane).stayOut = false)),
    (let lane : Nat := 0; let s : State := laneErr;
     (laneKnown lane) && (laneIn s lane LanePhase.joined) &&
     ((Machine.lane (removeLane lane RemoveCause.errorRate s) lane).stayOut)),
    (let lane : Nat := 0; let s : State := run;
     (laneKnown lane) && decide (laneIn s lane LanePhase.joined = false)),
    (let lane : Nat := 0; let s : State := portJoined;
     (laneKnown lane) &&
     (match portOfLane s lane with
      | some p =>
         (laneIn s lane LanePhase.joined)
      | _ => false)),
    (let lane : Nat := 0; let received : Nat := 0; let s : State := laneVer;
     (laneKnown lane) &&
     (match portOfLane s lane with
      | some p =>
         decide (laneIn s lane LanePhase.joined = false) && (laneIn s lane LanePhase.verify) && decide (received = lane - p)
      | _ => false)),
    (let lane : Nat := 0; let received : Nat := 1; let s : State := laneVer;
     (laneKnown lane) &&
     (match portOfLane s lane with
      | some p =>
         decide (laneIn s lane LanePhase.joined = false) && (laneIn s lane LanePhase.verify) &&
         decide (received ≠ lane - p) && decide ((Machine.lane s lane).miswired = false)
      | _ => false)),
    (let lane : Nat := 0; let received : Nat := 1; let s : State := laneVerOdd;
     (laneKnown lane) &&
     (match portOfLane s lane with
      | some p =>
         decide (laneIn s lane LanePhase.joined = false) && (laneIn s lane LanePhase.verify) &&
         decide (received ≠ lane - p) && ((Machine.lane s lane).miswired)
      | _ => false)),
    (let lane : Nat := 0; let s : State := run;
     (laneKnown lane) &&
     (match portOfLane s lane with
      | some p =>
         decide (laneIn s lane LanePhase.joined = false) && decide (laneIn s lane LanePhase.verify = false)
      | _ => false)),
    (let lane : Nat := 4096;
     decide (laneKnown lane = false))].all id = true := by
  decide +kernel

theorem witness_LinkCommands : [
    (let o : Origin := manager; let sid : Nat := 0; let s : State := run;
     (match beginsAt o 257 s with
      | some b =>
         decide (sid < 8192) && decide (sidHeld b = false)
      | _ => false)),
    (let o : Origin := manager; let sid : Nat := 8192; let s : State := run;
     (match beginsAt o 257 s with
      | some b =>
         decide (8192 ≤ sid)
      | _ => false)),
    (let o : Origin := manager; let sid : Nat := 0; let s : State := linkCtx;
     (match beginsAt o 257 s with
      | some b =>
         decide (sid < 8192) && (sidHeld b)
      | _ => false)),
    (let o : Origin := oper; let s : State := run;
     (match beginsAt o 258 s with
      | some b =>
         true
      | _ => false)),
    (let o : Origin := oper; let mport : Nat := 0; let s : State := run;
     (match beginsAt o 259 s with
      | some b =>
         decide (mport < 8)
      | _ => false)),
    (let o : Origin := oper; let mport : Nat := 8; let s : State := run;
     (match beginsAt o 259 s with
      | some b =>
         decide (8 ≤ mport)
      | _ => false)),
    (let o : Origin := manager; let lengths : List (Nat × Nat) := []; let s : State := run;
     (match beginsAt o 260 s with
      | some b =>
         decide ((lengths.any fun x_ ↦ !portKnown b x_.fst || decide (2100 < x_.snd)) = false)
      | _ => false)),
    (let o : Origin := manager; let lengths : List (Nat × Nat) := [(1, 0)]; let s : State := run;
     (match beginsAt o 260 s with
      | some b =>
         ((lengths.any fun x_ ↦ !portKnown b x_.fst || decide (2100 < x_.snd)))
      | _ => false)),
    (let o : Origin := oper; let engine : Nat := 0; let fibre : Nat := 0; let s : State := linkLanes;
     (match beginsAt o 261 s with
      | some b =>
         (pairKnown engine fibre) && decide (loopCircuits b engine fibre = []) &&
         (circuitsFit b [newCircuit engine fibre fibre true (some o)])
      | _ => false)),
    (let o : Origin := oper; let engine : Nat := 0; let fibre : Nat := 0; let s : State := run;
     (match beginsAt o 261 s with
      | some b =>
         (pairKnown engine fibre) && decide (loopCircuits b engine fibre = []) &&
         decide (circuitsFit b [newCircuit engine fibre fibre true (some o)] = false)
      | _ => false)),
    (let o : Origin := oper; let engine : Nat := 0; let fibre : Nat := 0; let s : State := linkLoop;
     (match beginsAt o 261 s with
      | some b =>
         (pairKnown engine fibre) && decide (List.isEmpty (loopCircuits b engine fibre) = false)
      | _ => false)),
    (let o : Origin := oper; let engine : Nat := 0; let fibre : Nat := 0; let s : State := run;
     (match beginsAt o 261 s with
      | some b =>
         (pairKnown engine fibre) && decide (loopCircuits b engine fibre = [])
      | _ => false)),
    (let o : Origin := oper; let engine : Nat := 0; let fibre : Nat := 0; let s : State := linkLoop;
     (match beginsAt o 261 s with
      | some b =>
         (pairKnown engine fibre) &&
         (match loopCircuits b engine fibre with
          | (id, c) :: rest =>
             decide (c.phase ≠ CircuitPhase.deferred)
          | _ => false)
      | _ => false)),
    (let o : Origin := oper; let engine : Nat := 0; let fibre : Nat := 8; let s : State := run;
     (match beginsAt o 261 s with
      | some b =>
         decide (pairKnown engine fibre = false)
      | _ => false)),
    (let o : Origin := oper; let engines : Nat := 0; let s : State := run;
     (match beginsAt o 262 s with
      | some b =>
         decide (((List.filter (testBitN engines) (List.range 32)).any fun e_ ↦ !bayLocked b e_) = false)
      | _ => false)),
    (let o : Origin := oper; let engines : Nat := 1; let s : State := run;
     (match beginsAt o 262 s with
      | some b =>
         (((List.filter (testBitN engines) (List.range 32)).any fun e_ ↦ !bayLocked b e_))
      | _ => false)),
    (let o : Origin := oper; let s : State := run;
     (match beginsAt o 263 s with
      | some b =>
         true
      | _ => false)),
    (let o : Origin := oper; let bay : Nat := 0; let s : State := linkSpare;
     (match beginsAt o 264 s with
      | some b =>
         decide (bay < 8) &&
         (match tabGet? b.start.cfg.cutover bay with
          | some sp =>
             decide (tabGet? b.opt.cutovers bay = none)
          | _ => false)
      | _ => false)),
    (let o : Origin := oper; let bay : Nat := 0; let s : State := run;
     (match beginsAt o 264 s with
      | some b =>
         decide (bay < 8) && decide (tabGet? b.start.cfg.cutover bay = none)
      | _ => false)),
    (let o : Origin := oper; let bay : Nat := 8; let s : State := run;
     (match beginsAt o 264 s with
      | some b =>
         decide (8 ≤ bay)
      | _ => false)),
    (let o : Origin := oper; let die : Nat := 0; let s : State := linkSpare;
     (match beginsAt o 265 s with
      | some b =>
         (match tabGet? b.start.cfg.perm die with
          | some r =>
             true
          | _ => false)
      | _ => false)),
    (let o : Origin := oper; let die : Nat := 0; let s : State := run;
     (match beginsAt o 265 s with
      | some b =>
         decide (tabGet? b.start.cfg.perm die = none)
      | _ => false))].all id = true := by
  decide +kernel

theorem witness_LoafCommands : [
    (let o : Origin := manager; let gid : Nat := 0; let pid : Nat := 7; let delivery : List Nat := [];
     let members : List Nat := [1]; let s : State := run;
     (match beginsAt o 1281 s with
      | some b =>
         decide (gid < 2 ^ 20) && decide (pid ≠ 0) && decide (pid < 4095) && ((partition b pid).defined) &&
         decide (0 < members.length) && decide (members.length ≤ 131072) && decide (delivery.length ≤ 64) &&
         decide (∀ (m : Nat), m ∈ members → m < 2 ^ 20) && decide (hasRecipe b gid = false) && (noRepeat members) &&
         (deliveryOk b pid delivery members) && decide (boundExceeded b pid (barrierBound b pid members) = false)
      | _ => false)),
    (let o : Origin := manager; let gid : Nat := 0; let pid : Nat := 7; let delivery : List Nat := [];
     let members : List Nat := [1]; let s : State := loafSized;
     (match beginsAt o 1281 s with
      | some b =>
         decide (gid < 2 ^ 20) && decide (pid ≠ 0) && decide (pid < 4095) && ((partition b pid).defined) &&
         decide (0 < members.length) && decide (members.length ≤ 131072) && decide (delivery.length ≤ 64) &&
         decide (∀ (m : Nat), m ∈ members → m < 2 ^ 20) && decide (hasRecipe b gid = false) && (noRepeat members) &&
         (deliveryOk b pid delivery members) && (boundExceeded b pid (barrierBound b pid members))
      | _ => false)),
    (let o : Origin := manager; let gid : Nat := 1; let pid : Nat := 7; let delivery : List Nat := [];
     let members : List Nat := [1]; let s : State := loafRecipe;
     (match beginsAt o 1281 s with
      | some b =>
         decide (gid < 2 ^ 20) && decide (pid ≠ 0) && decide (pid < 4095) && ((partition b pid).defined) &&
         decide (0 < members.length) && decide (members.length ≤ 131072) && decide (delivery.length ≤ 64) &&
         decide (∀ (m : Nat), m ∈ members → m < 2 ^ 20) && (hasRecipe b gid)
      | _ => false)),
    (let o : Origin := manager; let gid : Nat := 1; let s : State := loafGroup;
     (match beginsAt o 1282 s with
      | some b =>
         (match group b gid with
          | some g =>
             decide (hasRecipe b gid = false)
          | _ => false)
      | _ => false)),
    (let o : Origin := manager; let gid : Nat := 1; let s : State := loafRecipe;
     (match beginsAt o 1282 s with
      | some b =>
         (match group b gid with
          | some g =>
             (hasRecipe b gid)
          | _ => false)
      | _ => false)),
    (let o : Origin := manager; let gid : Nat := 0; let s : State := run;
     (match beginsAt o 1282 s with
      | some b =>
         decide (group b gid = none)
      | _ => false)),
    (let o : Origin := manager; let gid : Nat := 1; let se : Nat := 0; let live : List Word := [0];
     let s : State := loafGroup;
     (match beginsAt o 1283 s with
      | some b =>
         (match group b gid with
          | some g =>
             decide (live.length = ceilDiv g.members.length 32) && decide (se < 2 ^ 32)
          | _ => false)
      | _ => false)),
    (let o : Origin := manager; let gid : Nat := 0; let s : State := run;
     (match beginsAt o 1283 s with
      | some b =>
         decide (group b gid = none)
      | _ => false)),
    (let o : Origin := manager; let gid : Nat := 1; let seq : Nat := 1; let s : State := loafRuns;
     (match beginsAt o 1286 s with
      | some b =>
         (match group b gid with
          | some g =>
             (mayReach o g.pid b) && (((abortTargets b gid seq).any fun e_ ↦ loafRunning e_.snd))
          | _ => false)
      | _ => false)),
    (let o : Origin := manager; let gid : Nat := 1; let seq : Nat := 0; let s : State := loafGroup;
     (match beginsAt o 1286 s with
      | some b =>
         (match group b gid with
          | some g =>
             (mayReach o g.pid b) && decide (((abortTargets b gid seq).any fun e_ ↦ loafRunning e_.snd) = false)
          | _ => false)
      | _ => false)),
    (let o : Origin := tenant; let gid : Nat := 1; let s : State := loafOther;
     (match beginsAt o 1286 s with
      | some b =>
         (match group b gid with
          | some g =>
             decide (mayReach o g.pid b = false)
          | _ => false)
      | _ => false)),
    (let o : Origin := manager; let gid : Nat := 1; let member : Nat := 0; let s : State := loafGroup;
     (match beginsAt o 1287 s with
      | some b =>
         decide (member < groupSize b gid)
      | _ => false)),
    (let o : Origin := manager; let gid : Nat := 0; let member : Nat := 0; let s : State := run;
     (match beginsAt o 1287 s with
      | some b =>
         decide (groupSize b gid ≤ member)
      | _ => false)),
    (let o : Origin := manager; let pid : Nat := 0; let reach : Nat := 0; let limit : Nat := 0; let s : State := run;
     (match beginsAt o 1288 s with
      | some b =>
         decide (reach ≤ 2100) && decide (limit = 0 ∨ 1000 ≤ limit ∧ limit ≤ 1000000000) && decide (pid < 4095) &&
         ((partition b pid).defined)
      | _ => false)),
    (let o : Origin := oper; let high : Nat := 0; let low : Nat := 0; let grace : Nat := 0; let s : State := run;
     (match beginsAt o 1289 s with
      | some b =>
         decide (high < 2 ^ 32) && decide (low < 2 ^ 32) && decide (grace ≤ 1000000)
      | _ => false)),
    (let o : Origin := oper; let high : Nat := 0; let low : Nat := 0; let grace : Nat := 0; let s : State := run;
     (match beginsAt o 1289 s with
      | some b =>
         decide (high < 2 ^ 32) && decide (low < 2 ^ 32) && decide (grace ≤ 1000000) &&
         decide (runningOn (modConfig (fun c_ ↦ { sid := c_.sid, credentials := c_.credentials, credentialsOk := c_.credentialsOk, netA := c_.netA, netB := c_.netB, perm := c_.perm, stackParams := c_.stackParams, commission := c_.commission, cutover := c_.cutover, kneadOff := distinct (c_.kneadOff ++ unitsOf (high * 2 ^ 32 + low)), millOff := c_.millOff, granaryOff := c_.granaryOff, attempts := c_.attempts, starts := c_.starts, lastReset := c_.lastReset }) b) (unitsOf (high * 2 ^ 32 + low)) = [])
      | _ => false)),
    (let o : Origin := oper; let high : Nat := 0; let low : Nat := 1; let grace : Nat := 0; let s : State := loafRuns;
     (match beginsAt o 1289 s with
      | some b =>
         decide (high < 2 ^ 32) && decide (low < 2 ^ 32) && decide (grace ≤ 1000000) &&
         decide (runningOn (modConfig (fun c_ ↦ { sid := c_.sid, credentials := c_.credentials, credentialsOk := c_.credentialsOk, netA := c_.netA, netB := c_.netB, perm := c_.perm, stackParams := c_.stackParams, commission := c_.commission, cutover := c_.cutover, kneadOff := distinct (c_.kneadOff ++ unitsOf (high * 2 ^ 32 + low)), millOff := c_.millOff, granaryOff := c_.granaryOff, attempts := c_.attempts, starts := c_.starts, lastReset := c_.lastReset }) b) (unitsOf (high * 2 ^ 32 + low)) ≠ [])
      | _ => false)),
    (let o : Origin := manager; let gid : Nat := 1; let s : State := loafGroup;
     (match beginsAt o 1290 s with
      | some b =>
         (match group b gid with
          | some g =>
             (mayReach o g.pid b)
          | _ => false)
      | _ => false)),
    (let o : Origin := tenant; let gid : Nat := 1; let s : State := loafOther;
     (match beginsAt o 1290 s with
      | some b =>
         (match group b gid with
          | some g =>
             decide (mayReach o g.pid b = false)
          | _ => false)
      | _ => false)),
    (let o : Origin := manager; let gid : Nat := 0; let s : State := run;
     (match beginsAt o 1290 s with
      | some b =>
         decide (group b gid = none)
      | _ => false)),
    (let o : Origin := manager; let gid : Nat := 1;
     let params : OpenParams := { open0 with pattern := 0, dtype := 0x14, epf := 1024 }; let s : State := loafPolicy;
     (match beginsAt o 1284 s with
      | some b =>
         (match group b gid with
          | some g =>
             (mayReach o g.pid b) && decide (openInvalid (openRecipe b gid params) params g.members.length = false) &&
             decide ((params.pins.any fun x_ ↦ !(policy b g.pid).spines.contains x_) = false) &&
             decide (winnowDown b = false) && decide ((partition b g.pid).fenced = false) &&
             decide ((policy b g.pid).spines.isEmpty = false)
          | _ => false)
      | _ => false)),
    (let o : Origin := manager; let gid : Nat := 1; let recipe : Nat := 1; let grace : Nat := 0;
     let s : State := loafRecipe;
     (match beginsAt o 1285 s with
      | some b =>
         (match group b gid with
          | some g =>
             (match held b gid recipe with
              | some h =>
                 (mayReach o g.pid b) && decide (grace ≤ 1000000) &&
                 decide ((isTenant o && ownSid b != some h.recipe.home) = false)
              | _ => false)
          | _ => false)
      | _ => false))].all id = true := by
  decide +kernel

theorem witness_LoafEvents : [
    (let s : State := run;
     decide (takeDelivered 1 s = none)),
    (let s : State := levNone;
     (match takeDelivered 1 s with
      | some (d, s1) =>
         decide (loafCtx s (ctxKey (xGid d.pkt) (xPortion d.pkt)) = none)
      | _ => false)),
    (let s : State := levNoRecipe;
     (match takeDelivered 1 s with
      | some (d, s1) =>
         (match loafCtx s (ctxKey (xGid d.pkt) (xPortion d.pkt)) with
          | some c =>
             decide (held s (xGid d.pkt) c.recipeId = none)
          | _ => false)
      | _ => false)),
    (let s : State := levHeld;
     (match takeDelivered 1 s with
      | some (d, s1) =>
         (match loafCtx s (ctxKey (xGid d.pkt) (xPortion d.pkt)) with
          | some c =>
             (match held s (xGid d.pkt) c.recipeId with
              | some h =>
                 (mustWait s h c d.pkt)
              | _ => false)
          | _ => false)
      | _ => false)),
    (let s : State := levBehind;
     (match takeDelivered 1 s with
      | some (d, s1) =>
         (match loafCtx s (ctxKey (xGid d.pkt) (xPortion d.pkt)) with
          | some c =>
             (match held s (xGid d.pkt) c.recipeId with
              | some h =>
                 decide (mustWait s h c d.pkt = false) && decide (relationOf h.closing c (xLoafSeq d.pkt) = Relation.behind)
              | _ => false)
          | _ => false)
      | _ => false)),
    (let s : State := levRuns;
     (match takeDelivered 1 s with
      | some (d, s1) =>
         (match loafCtx s (ctxKey (xGid d.pkt) (xPortion d.pkt)) with
          | some c =>
             (match held s (xGid d.pkt) c.recipeId with
              | some h =>
                 decide (mustWait s h c d.pkt = false) &&
                 decide (relationOf h.closing c (xLoafSeq d.pkt) = Relation.current)
              | _ => false)
          | _ => false)
      | _ => false)),
    (let s : State := levFresh;
     (match takeDelivered 1 s with
      | some (d, s1) =>
         (match loafCtx s (ctxKey (xGid d.pkt) (xPortion d.pkt)) with
          | some c =>
             (match held s (xGid d.pkt) c.recipeId with
              | some h =>
                 decide (mustWait s h c d.pkt = false) && decide (relationOf h.closing c (xLoafSeq d.pkt) = Relation.begins)
              | _ => false)
          | _ => false)
      | _ => false)),
    (let s : State := levAhead;
     (match takeDelivered 1 s with
      | some (d, s1) =>
         (match loafCtx s (ctxKey (xGid d.pkt) (xPortion d.pkt)) with
          | some c =>
             (match held s (xGid d.pkt) c.recipeId with
              | some h =>
                 decide (mustWait s h c d.pkt = false) &&
                 decide (relationOf h.closing c (xLoafSeq d.pkt) = Relation.abandons)
              | _ => false)
          | _ => false)
      | _ => false)),
    (let gid : Nat := 0; let portion : Nat := 0; let s : State := run;
     decide (loafCtx s (ctxKey gid portion) = none)),
    (let gid : Nat := 1; let portion : Nat := 0; let slot : Nat := 0; let s : State := levHeld;
     (match loafCtx s (ctxKey gid portion) with
      | some c =>
         (match tabGet? c.slots slot with
          | some sl =>
             (match held s gid c.recipeId with
              | some h =>
                 (match group s gid with
                  | some g =>
                     (sl.full) && ((waitingOf s (kneadSource (c.knead / 8))).isEmpty)
                  | _ => false)
              | _ => false)
          | _ => false)
      | _ => false)),
    (let gid : Nat := 1; let portion : Nat := 0; let slot : Nat := 0; let s : State := levOpen;
     (match loafCtx s (ctxKey gid portion) with
      | some c =>
         (match tabGet? c.slots slot with
          | some sl =>
             (match held s gid c.recipeId with
              | some h =>
                 (match group s gid with
                  | some g =>
                     decide (sl.full = false ∨ (waitingOf s (kneadSource (c.knead / 8))).isEmpty = false)
                  | _ => false)
              | _ => false)
          | _ => false)
      | _ => false)),
    (let gid : Nat := 1; let recipe : Nat := 1; let s : State := loafRecipe;
     (match held s gid recipe with
      | some h =>
         (match group s gid with
          | some g =>
             decide (nextGather (gatherReady s gid recipe h.recipe g.members.length) = none)
          | _ => false)
      | _ => false)),
    (let gid : Nat := 1; let recipe : Nat := 1; let s : State := levGather;
     (match held s gid recipe with
      | some h =>
         (match group s gid with
          | some g =>
             (match nextGather (gatherReady s gid recipe h.recipe g.members.length) with
              | some x =>
                 (((waitingOf s computeSource).isEmpty && spillMay s))
              | _ => false)
          | _ => false)
      | _ => false)),
    (let gid : Nat := 1; let recipe : Nat := 1; let s : State := levGatherBusy;
     (match held s gid recipe with
      | some h =>
         (match group s gid with
          | some g =>
             (match nextGather (gatherReady s gid recipe h.recipe g.members.length) with
              | some x =>
                 decide (((waitingOf s computeSource).isEmpty && spillMay s) = false)
              | _ => false)
          | _ => false)
      | _ => false)),
    (let gid : Nat := 1; let portion : Nat := 0; let s : State := loafRuns;
     (match loafCtx s (ctxKey gid portion) with
      | some c =>
         decide (c.phase = LoafPhase.running) &&
         (match held s gid c.recipeId with
          | some h =>
             decide (0 < sramNeed h.recipe (groupSize s gid))
          | _ => false)
      | _ => false)),
    (let gid : Nat := 0; let portion : Nat := 4096; let s : State := loafRecipe;
     (match loafCtx s (ctxKey gid portion) with
      | some c =>
         decide (c.phase ≠ LoafPhase.running)
      | _ => false)),
    (let gid : Nat := 0; let portion : Nat := 0; let s : State := run;
     decide (loafCtx s (ctxKey gid portion) = none)),
    (let gid : Nat := 1; let portion : Nat := 0; let s : State := levSpilling;
     (match loafCtx s (ctxKey gid portion) with
      | some c =>
         (match held s gid c.recipeId with
          | some h =>
             decide (c.phase = LoafPhase.running) && (c.spilling) && (spillMay s)
          | _ => false)
      | _ => false)),
    (let gid : Nat := 0; let portion : Nat := 4096; let s : State := loafRecipe;
     (match loafCtx s (ctxKey gid portion) with
      | some c =>
         decide ((c.spilling && spillMay s) = false)
      | _ => false)),
    (let gid : Nat := 0; let portion : Nat := 0; let s : State := run;
     decide (loafCtx s (ctxKey gid portion) = none)),
    (let gid : Nat := 1; let portion : Nat := 0; let s : State := levSpilled;
     (match loafCtx s (ctxKey gid portion) with
      | some c =>
         (match held s gid c.recipeId with
          | some h =>
             decide (c.sram = false) && decide (c.phase ≠ LoafPhase.idle) && (sramRoom s h.recipe c) && (spillMay s)
          | _ => false)
      | _ => false)),
    (let gid : Nat := 0; let portion : Nat := 4096; let s : State := loafRecipe;
     (match loafCtx s (ctxKey gid portion) with
      | some c =>
         decide (c.sram = true ∨ spillMay s = false)
      | _ => false)),
    (let gid : Nat := 0; let portion : Nat := 4096; let s : State := loafRuns;
     (match loafCtx s (ctxKey gid portion) with
      | some c =>
         decide (c.phase ≠ LoafPhase.idle)
      | _ => false)),
    (let gid : Nat := 0; let portion : Nat := 4096; let s : State := loafRecipe;
     (match loafCtx s (ctxKey gid portion) with
      | some c =>
         decide (c.phase = LoafPhase.idle)
      | _ => false)),
    (let gid : Nat := 0; let portion : Nat := 0; let s : State := run;
     decide (loafCtx s (ctxKey gid portion) = none)),
    (let s : State := run;
     decide (takeDelivered 6 s = none)),
    (let s : State := levAbortNone;
     (match takeDelivered 6 s with
      | some (d, s1) =>
         decide (abortTargets s1 (xAbortGid d.pkt) (xAbortSeq d.pkt) = [])
      | _ => false)),
    (let s : State := levAbort;
     (match takeDelivered 6 s with
      | some (d, s1) =>
         (match abortTargets s1 (xAbortGid d.pkt) (xAbortSeq d.pkt) with
          | e :: es =>
             true
          | _ => false)
      | _ => false)),
    (let unit : Nat := 0;
     decide (unit < 64)),
    (let unit : Nat := 0; let context : Nat := 4096; let s : State := loafRecipe;
     decide (unit < 64) &&
     (match loafCtx s context with
      | some c =>
         true
      | _ => false)),
    (let unit : Nat := 0;
     decide (unit < 64)),
    (let unit : Nat := 64;
     decide (64 ≤ unit)),
    (let source : Nat := 8; let s : State := run;
     decide (8 ≤ source) && decide (source ≤ 17) && decide (injectNext source (refreshPauses source s) = none)),
    (let source : Nat := 8; let s : State := levWaiting;
     decide (8 ≤ source) && decide (source ≤ 17) &&
     (match injectNext source (refreshPauses source s) with
      | some t =>
         true
      | _ => false)),
    (let source : Nat := 0;
     decide (source < 8 ∨ 17 < source))].all id = true := by
  decide +kernel

theorem witness_ManagementEvents : [
    (let mport : Nat := 0; let s : State := run;
     decide (mport < 8) && decide (((mgmtPort s mport).up && listening s) = false)),
    (let mport : Nat := 0; let cert : Nat := 0; let ok : Bool := true; let ownerRoot : Bool := false;
     let s : State := mgeUp;
     decide (mport < 8) && ((mgmtPort s mport).up) && (listening s) &&
     decide (Option.filter (fun x_ ↦ ok && decide (sessionsOn s (networkOf mport) < 32)) (classOf s (networkOf mport) cert ownerRoot) = none)),
    (let mport : Nat := 0; let cert : Nat := 0; let ownerRoot : Bool := true; let s : State := mgeUp;
     decide (mport < 8) && ((mgmtPort s mport).up) && (listening s) &&
     (match classOf s (networkOf mport) cert ownerRoot with
      | some c =>
         decide (sessionsOn s (networkOf mport) < 32)
      | _ => false)),
    (let mport : Nat := 8;
     decide (8 ≤ mport)),
    (let session : Nat := 0; let mport : Nat := 0; let s : State := run;
     decide (mport < 8) && decide (datagramArrives session mport s = none)),
    (let session : Nat := 0; let mport : Nat := 0; let peel : Peel := peel0; let s : State := mgeSession;
     decide (mport < 8) &&
     (match datagramArrives session mport s with
      | some (x, s1) =>
         decide (lVer peel ≠ 1 ∨ lType peel ≠ 0)
      | _ => false)),
    (let session : Nat := 0; let mport : Nat := 0; let peel : Peel := { peel0 with w0 := 0x01002000, w7 := 0x01000000 };
     let s : State := mgeSession;
     decide (mport < 8) &&
     (match datagramArrives session mport s with
      | some (x, s1) =>
         decide (lVer peel = 1) && decide (lType peel = 0) && decide (lMajor peel = 1) &&
         decide (mailboxOpen (peelOrigin x peel) s1 = false)
      | _ => false)),
    (let session : Nat := 0; let mport : Nat := 0; let peel : Peel := { peel0 with w0 := 0x01080000, w7 := 0x01000000 };
     let s : State := mgeSession;
     decide (mport < 8) &&
     (match datagramArrives session mport s with
      | some (x, s1) =>
         decide (lVer peel = 1) && decide (lType peel = 0) &&
         decide (lMajor peel ≠ 1 ∨ mailboxOpen (peelOrigin x peel) s1 = true)
      | _ => false)),
    (let mailbox : Nat := 0; let session : Nat := 1; let seq : Nat := 7; let s : State := mgePart;
     (((Machine.mailbox s mailbox).assembling.any fun a_ ↦ a_.session == session && a_.seq == seq))),
    (let mailbox : Nat := 0; let session : Nat := 0; let seq : Nat := 0; let s : State := run;
     decide (((Machine.mailbox s mailbox).assembling.any fun a_ ↦ a_.session == session && a_.seq == seq) = false)),
    (let mailbox : Nat := 32; let seq : Nat := 7; let s : State := busyMail;
     (((Machine.mailbox s mailbox).outstanding.any fun c_ ↦ c_.seq == seq && decide (c_.received < c_.deadline)))),
    (let mailbox : Nat := 0; let seq : Nat := 0; let s : State := run;
     decide (((Machine.mailbox s mailbox).outstanding.any fun c_ ↦ c_.seq == seq && decide (c_.received < c_.deadline)) = false)),
    (let typ : Nat := 1; let idx : Nat := 0; let mailbox : Nat := 0; let seq : Nat := 7; let s : State := mgeTimeout;
     (engineKnown s typ idx) &&
     (match List.find? (fun r_ ↦ r_.seq == seq && r_.status == statusCode Status.timeout) (Machine.mailbox s mailbox).kept with
      | some r =>
         true
      | _ => false)),
    (let typ : Nat := 1; let idx : Nat := 0; let mailbox : Nat := 0; let seq : Nat := 0; let s : State := run;
     (engineKnown s typ idx) &&
     decide (List.find? (fun r_ ↦ r_.seq == seq && r_.status == statusCode Status.timeout) (Machine.mailbox s mailbox).kept = none)),
    (let session : Nat := 0; let mport : Nat := 0; let s : State := run;
     decide (mport < 8) && decide (datagramArrives session mport s = none)),
    (let session : Nat := 0; let mport : Nat := 0; let peel : Peel := peel0; let s : State := mgeSession;
     decide (mport < 8) &&
     (match datagramArrives session mport s with
      | some (x, s1) =>
         decide (lVer peel ≠ 1 ∨ lType peel ≠ 3 ∨ mailboxOpen (peelOrigin x peel) s1 = false)
      | _ => false)),
    (let session : Nat := 0; let mport : Nat := 0; let peel : Peel := { peel0 with w0 := 0x01380000, w7 := 0x01000000 };
     let s : State := mgeSession;
     decide (mport < 8) &&
     (match datagramArrives session mport s with
      | some (x, s1) =>
         decide (lVer peel = 1) && decide (lType peel = 3) && (mailboxOpen (peelOrigin x peel) s1) &&
         decide (ackedRecords (eventQueue s1 (lMailbox peel)) (lSeq peel) = none)
      | _ => false)),
    (let session : Nat := 0; let mport : Nat := 0; let peel : Peel := { peel0 with w0 := 0x01380000, w7 := 0x01000000 };
     let s : State := mgeEvents;
     decide (mport < 8) &&
     (match datagramArrives session mport s with
      | some (x, s1) =>
         decide (lVer peel = 1) && decide (lType peel = 3) && (mailboxOpen (peelOrigin x peel) s1) &&
         (match ackedRecords (eventQueue s1 (lMailbox peel)) (lSeq peel) with
          | some n =>
             true
          | _ => false)
      | _ => false)),
    (let mailbox : Nat := 0; let s : State := run;
     decide ((eventQueue s mailbox).inFlight = 0)),
    (let mailbox : Nat := 0; let s : State := mgeEvents;
     decide ((eventQueue s mailbox).inFlight ≠ 0)),
    (let mport : Nat := 0;
     decide (mport < 8)),
    (let mport : Nat := 0; let s : State := mgeUp;
     decide (mport < 8) && ((mgmtPort s mport).up)),
    (let mport : Nat := 0; let s : State := run;
     decide (mport < 8) && decide ((mgmtPort s mport).up = false)),
    (let mport : Nat := 0; let s : State := mgeAddr;
     decide (mport < 8) && ((mgmtPort s mport).up)),
    (let mport : Nat := 0; let s : State := mgeUp;
     decide (mport < 8) && ((mgmtPort s mport).up)),
    (let mport : Nat := 0; let s : State := run;
     decide (mport < 8) && decide ((mgmtPort s mport).up = false)),
    (let mport : Nat := 0; let s : State := mgeAddr;
     decide (mport < 8) && ((mgmtPort s mport).up)),
    (let mport : Nat := 0; let s : State := mgeUp;
     decide (mport < 8) && ((mgmtPort s mport).up)),
    (let mport : Nat := 0; let s : State := run;
     decide (mport < 8) && decide ((mgmtPort s mport).up = false)),
    (let mport : Nat := 0;
     decide (mport < 8)),
    (let mport : Nat := 8;
     decide (8 ≤ mport))].all id = true := by
  decide +kernel

theorem witness_MillCommands : [
    (let o : Origin := manager; let pid : Nat := 0; let pages : Nat := 0; let s : State := run;
     (match beginsAt o 1537 s with
      | some b =>
         decide (pages ≤ 1536) && (ownerKnown b pid) && (mayReach o pid b) &&
         decide (millOccupied b pid none none ≤ pages * pageBytes) && decide (programEnd b pid ≤ pages * pageBytes) &&
         decide ((List.map (fun x_ ↦ x_.snd) (List.filter (fun e_ ↦ e_.fst != pid) b.mill.pages)).sum + pages ≤ 1536)
      | _ => false)),
    (let o : Origin := manager; let pid : Nat := 0; let pages : Nat := 1535; let s : State := millProg;
     (match beginsAt o 1537 s with
      | some b =>
         decide (pages ≤ 1536) && (ownerKnown b pid) && (mayReach o pid b) &&
         decide (millOccupied b pid none none ≤ pages * pageBytes) && decide (programEnd b pid ≤ pages * pageBytes) &&
         decide (1536 < (List.map (fun x_ ↦ x_.snd) (List.filter (fun e_ ↦ e_.fst != pid) b.mill.pages)).sum + pages)
      | _ => false)),
    (let o : Origin := manager; let pid : Nat := 7; let pages : Nat := 0; let s : State := millCtx;
     (match beginsAt o 1537 s with
      | some b =>
         decide (pages ≤ 1536) && (ownerKnown b pid) && (mayReach o pid b) &&
         decide (pages * pageBytes < millOccupied b pid none none ∨ pages * pageBytes < programEnd b pid)
      | _ => false)),
    (let o : Origin := manager; let pid : Nat := 0; let pages : Nat := 1537; let s : State := run;
     (match beginsAt o 1537 s with
      | some b =>
         decide (1536 < pages ∨ ownerKnown b pid = false)
      | _ => false)),
    (let o : Origin := manager; let slot : Nat := 0; let pid : Nat := 0; let stale : Nat := 0;
     let code : List (List Word) := [[0, 0, 0, 0]]; let agds : List (List Word) := []; let s : State := run;
     (match beginsAt o 1538 s with
      | some b =>
         decide (slot < 16) && (ownerKnown b pid) && decide (10 ≤ if stale = 0 then 1000000 else stale) &&
         decide ((if stale = 0 then 1000000 else stale) ≤ 60000000) && decide (code.isEmpty = false) &&
         decide (code.length ≤ 4096) && decide (agds.length ≤ 256) && (code.all (instrOk agds)) && (mayReach o pid b) &&
         ((Option.map (fun p_ ↦ mayReach o p_.pid b) (millProgram b slot)).getD true) &&
         decide ((Option.map (fun x_ ↦ x_.running) (millProgram b slot)).getD false = false)
      | _ => false)),
    (let o : Origin := manager; let slot : Nat := 0; let pid : Nat := 0; let stale : Nat := 0;
     let code : List (List Word) := [[0, 0, 0, 0]]; let agds : List (List Word) := []; let s : State := millRuns;
     (match beginsAt o 1538 s with
      | some b =>
         decide (slot < 16) && (ownerKnown b pid) && decide (10 ≤ if stale = 0 then 1000000 else stale) &&
         decide ((if stale = 0 then 1000000 else stale) ≤ 60000000) && decide (code.isEmpty = false) &&
         decide (code.length ≤ 4096) && decide (agds.length ≤ 256) && (code.all (instrOk agds)) && (mayReach o pid b) &&
         ((Option.map (fun p_ ↦ mayReach o p_.pid b) (millProgram b slot)).getD true) &&
         ((Option.map (fun x_ ↦ x_.running) (millProgram b slot)).getD false)
      | _ => false)),
    (let o : Origin := manager; let slot : Nat := 0; let s : State := millProg;
     (match beginsAt o 1539 s with
      | some b =>
         (match millProgram b slot with
          | some p =>
             (mayReach o p.pid b) && decide (b.start.cfg.millOff = false) && decide ((partition b p.pid).fenced = false) &&
             decide (p.running = false)
          | _ => false)
      | _ => false)),
    (let o : Origin := manager; let slot : Nat := 0; let s : State := millRuns;
     (match beginsAt o 1539 s with
      | some b =>
         (match millProgram b slot with
          | some p =>
             (mayReach o p.pid b) && decide (b.start.cfg.millOff = false) && decide ((partition b p.pid).fenced = false) &&
             (p.running)
          | _ => false)
      | _ => false)),
    (let o : Origin := manager; let slot : Nat := 0; let s : State := millFenced;
     (match beginsAt o 1539 s with
      | some b =>
         (match millProgram b slot with
          | some p =>
             (mayReach o p.pid b) && decide (b.start.cfg.millOff = false) && ((partition b p.pid).fenced)
          | _ => false)
      | _ => false)),
    (let o : Origin := manager; let slot : Nat := 0; let s : State := millOff;
     (match beginsAt o 1539 s with
      | some b =>
         (match millProgram b slot with
          | some p =>
             (mayReach o p.pid b) && (b.start.cfg.millOff)
          | _ => false)
      | _ => false)),
    (let o : Origin := tenant; let slot : Nat := 0; let s : State := millForeign;
     (match beginsAt o 1539 s with
      | some b =>
         (match millProgram b slot with
          | some p =>
             decide (mayReach o p.pid b = false)
          | _ => false)
      | _ => false)),
    (let o : Origin := manager; let slot : Nat := 0; let s : State := millRuns;
     (match beginsAt o 1540 s with
      | some b =>
         (match millProgram b slot with
          | some p =>
             (mayReach o p.pid b) && (p.running)
          | _ => false)
      | _ => false)),
    (let o : Origin := manager; let slot : Nat := 0; let s : State := millProg;
     (match beginsAt o 1540 s with
      | some b =>
         (match millProgram b slot with
          | some p =>
             (mayReach o p.pid b) && decide (p.running = false)
          | _ => false)
      | _ => false)),
    (let o : Origin := manager; let slot : Nat := 0; let s : State := run;
     (match beginsAt o 1540 s with
      | some b =>
         decide (millProgram b slot = none)
      | _ => false)),
    (let o : Origin := manager; let context : Nat := 0; let record : DispatchRec := rec0; let s : State := millProg;
     (match beginsAt o 1541 s with
      | some b =>
         (contextOk context record) && (mayReach o record.pid b) && (contextReach o context b) &&
         decide ((partition b record.pid).epoch = record.epoch) && decide ((partition b record.pid).fenced = false) &&
         decide ((Option.map (fun x_ ↦ x_.draining.isSome) (dctx b context)).getD false = false) && (record.enable) &&
         decide ((Option.map (fun x_ ↦ !x_.tokens.isEmpty) (dctx b context)).getD false = false) &&
         decide (winnowDown b = false) &&
         decide (millOccupied b record.pid (some context) none + tokenBuffer record ≤ millBytes b record.pid) &&
         (match chooseKnead b context record with
          | some u =>
             true
          | _ => false)
      | _ => false)),
    (let o : Origin := manager; let context : Nat := 0; let record : DispatchRec := rec0; let s : State := millNoKnead;
     (match beginsAt o 1541 s with
      | some b =>
         (contextOk context record) && (mayReach o record.pid b) && (contextReach o context b) &&
         decide ((partition b record.pid).epoch = record.epoch) && decide ((partition b record.pid).fenced = false) &&
         decide ((Option.map (fun x_ ↦ x_.draining.isSome) (dctx b context)).getD false = false) && (record.enable) &&
         decide ((Option.map (fun x_ ↦ !x_.tokens.isEmpty) (dctx b context)).getD false = false) &&
         decide (winnowDown b = false) &&
         decide (millOccupied b record.pid (some context) none + tokenBuffer record ≤ millBytes b record.pid) &&
         decide (chooseKnead b context record = none)
      | _ => false)),
    (let o : Origin := manager; let context : Nat := 0; let record : DispatchRec := { rec0 with enable := false };
     let s : State := run;
     (match beginsAt o 1541 s with
      | some b =>
         (contextOk context record) && (mayReach o record.pid b) && (contextReach o context b) &&
         decide ((partition b record.pid).epoch = record.epoch) && decide ((partition b record.pid).fenced = false) &&
         decide ((Option.map (fun x_ ↦ x_.draining.isSome) (dctx b context)).getD false = false) &&
         decide (record.enable = false) &&
         decide ((Option.map (fun x_ ↦ !x_.tokens.isEmpty) (dctx b context)).getD false = false)
      | _ => false)),
    (let o : Origin := manager; let context : Nat := 0; let record : DispatchRec := { rec0 with enable := false };
     let s : State := millTokens;
     (match beginsAt o 1541 s with
      | some b =>
         (contextOk context record) && (mayReach o record.pid b) && (contextReach o context b) &&
         decide ((partition b record.pid).epoch = record.epoch) && decide ((partition b record.pid).fenced = false) &&
         decide ((Option.map (fun x_ ↦ x_.draining.isSome) (dctx b context)).getD false = false) &&
         decide (record.enable = false) && ((Option.map (fun x_ ↦ !x_.tokens.isEmpty) (dctx b context)).getD false)
      | _ => false)),
    (let o : Origin := manager; let context : Nat := 0; let record : DispatchRec := { rec0 with d := 1 };
     let s : State := run;
     (match beginsAt o 1541 s with
      | some b =>
         decide (contextOk context record = false)
      | _ => false)),
    (let o : Origin := manager; let context : Nat := 0; let expert : Nat := 0; let replicas : List (Nat × Nat) := [(0, 8)];
     let s : State := millCtx;
     (match beginsAt o 1542 s with
      | some b =>
         (match dctx b context with
          | some x =>
             (mayReach o x.record.pid b) && decide (expert < x.record.e) && decide (replicas.isEmpty = false) &&
             decide (replicas.length ≤ 16) &&
             decide ((replicas.any fun r_ ↦ decide (2 ^ 20 ≤ r_.fst) || r_.snd == 0 || decide (255 < r_.snd)) = false) &&
             (noRepeat (List.map (fun x_ ↦ x_.fst) replicas)) && (x.tokens.isEmpty) &&
             decide (Option.any (fun a_ ↦ !replicas.any fun r_ ↦ r_.fst == a_) (tabGet? b.winnow.replicaPins (context * 1024 + expert)) = false)
          | _ => false)
      | _ => false)),
    (let o : Origin := manager; let context : Nat := 0; let expert : Nat := 0; let replicas : List (Nat × Nat) := [(0, 8)];
     let s : State := millTokens;
     (match beginsAt o 1542 s with
      | some b =>
         (match dctx b context with
          | some x =>
             (mayReach o x.record.pid b) && decide (expert < x.record.e) && decide (replicas.isEmpty = false) &&
             decide (replicas.length ≤ 16) &&
             decide ((replicas.any fun r_ ↦ decide (2 ^ 20 ≤ r_.fst) || r_.snd == 0 || decide (255 < r_.snd)) = false) &&
             (noRepeat (List.map (fun x_ ↦ x_.fst) replicas)) && decide (x.tokens.isEmpty = false)
          | _ => false)
      | _ => false)),
    (let o : Origin := manager; let context : Nat := 0; let expert : Nat := 8; let s : State := millCtx;
     (match beginsAt o 1542 s with
      | some b =>
         (match dctx b context with
          | some x =>
             (mayReach o x.record.pid b) && decide (x.record.e ≤ expert)
          | _ => false)
      | _ => false)),
    (let o : Origin := manager; let set : Nat := 0; let format : Nat := 16; let d : Nat := 32; let e : Nat := 1;
     let region : Nat := 1; let offset : Nat := 0; let errs : List LineError := []; let s : State := millRegion;
     (match beginsAt o 1543 s with
      | some b =>
         decide (set < 256) && (expertFormat format) && decide (32 ≤ d) && decide (d ≤ 16384) && decide (d % 32 = 0) &&
         decide (e ≠ 0) && decide (e ≤ 1024) &&
         ((Option.map (fun w_ ↦ mayReach o w_.pid b) (tabGet? b.mill.weights set)).getD true) &&
         (match Machine.region b region with
          | some x =>
             (let pid := x.pid;
                 (ownerKnown b pid) && (mayReach o pid b) && decide (x.phase = RegionPhase.ready) &&
                 decide (offset + weightBytes format d e ≤ regionSize x) && decide (keyMissing b region x = false) &&
                 decide (millOccupied b pid none (some set) + weightBytes format d e + (List.map (fun x_ ↦ x_.data.length) (List.filter (fun w_ ↦ some w_ == tabGet? b.mill.weights set) (List.filterMap (fun x_ ↦ x_.weights) b.mill.batches))).sum ≤ millBytes b pid) &&
                 decide (rangePoisoned (meetErrors region offset (weightBytes format d e) errs (startWork 8 0 (weightBytes format d e) b)) region offset (weightBytes format d e) = false))
          | _ => false)
      | _ => false)),
    (let o : Origin := manager; let set : Nat := 0; let format : Nat := 16; let d : Nat := 32; let e : Nat := 1;
     let region : Nat := 1; let offset : Nat := 0; let errs : List LineError := [⟨0, true⟩]; let s : State := millRegion;
     (match beginsAt o 1543 s with
      | some b =>
         decide (set < 256) && (expertFormat format) && decide (32 ≤ d) && decide (d ≤ 16384) && decide (d % 32 = 0) &&
         decide (e ≠ 0) && decide (e ≤ 1024) &&
         ((Option.map (fun w_ ↦ mayReach o w_.pid b) (tabGet? b.mill.weights set)).getD true) &&
         (match Machine.region b region with
          | some x =>
             (let pid := x.pid;
                 (ownerKnown b pid) && (mayReach o pid b) && decide (x.phase = RegionPhase.ready) &&
                 decide (offset + weightBytes format d e ≤ regionSize x) && decide (keyMissing b region x = false) &&
                 decide (millOccupied b pid none (some set) + weightBytes format d e + (List.map (fun x_ ↦ x_.data.length) (List.filter (fun w_ ↦ some w_ == tabGet? b.mill.weights set) (List.filterMap (fun x_ ↦ x_.weights) b.mill.batches))).sum ≤ millBytes b pid) &&
                 (rangePoisoned (meetErrors region offset (weightBytes format d e) errs (startWork 8 0 (weightBytes format d e) b)) region offset (weightBytes format d e)))
          | _ => false)
      | _ => false)),
    (let o : Origin := manager; let context : Nat := 0; let address : Nat := 10; let s : State := millCtx;
     (match beginsAt o 1544 s with
      | some b =>
         (match dctx b context with
          | some x =>
             (mayReach o x.record.pid b) && ((List.any x.replicas fun e_ ↦ e_.snd.any fun r_ ↦ r_.address == address))
          | _ => false)
      | _ => false)),
    (let o : Origin := manager; let context : Nat := 0; let s : State := run;
     (match beginsAt o 1544 s with
      | some b =>
         decide (dctx b context = none)
      | _ => false)),
    (let o : Origin := oper; let grace : Nat := 0; let s : State := run;
     (match beginsAt o 1545 s with
      | some b =>
         decide (grace ≤ 1000000)
      | _ => false)),
    (let o : Origin := oper; let grace : Nat := 0; let s : State := run;
     (match beginsAt o 1545 s with
      | some b =>
         decide (grace ≤ 1000000) &&
         (((List.all (stopPrograms b).mill.contexts fun c_ ↦ c_.snd.tokens.isEmpty) && List.all (stopPrograms b).mill.programs fun p_ ↦ !p_.snd.running))
      | _ => false)),
    (let o : Origin := oper; let grace : Nat := 0; let s : State := millTokens;
     (match beginsAt o 1545 s with
      | some b =>
         decide (grace ≤ 1000000) &&
         decide (((List.all (stopPrograms b).mill.contexts fun c_ ↦ c_.snd.tokens.isEmpty) && List.all (stopPrograms b).mill.programs fun p_ ↦ !p_.snd.running) = false)
      | _ => false)),
    (let o : Origin := oper; let grace : Nat := 1000001; let s : State := run;
     (match beginsAt o 1545 s with
      | some b =>
         decide (1000000 < grace)
      | _ => false))].all id = true := by
  decide +kernel

theorem witness_MillEvents : [
    (let s : State := run;
     decide (takeDelivered 3 s = none)),
    (let s : State := mevNoCtx;
     (match takeDelivered 3 s with
      | some (d, s1) =>
         decide (dctx s1 (xContext d.pkt) = none)
      | _ => false)),
    (let s : State := mevBad;
     (match takeDelivered 3 s with
      | some (d, s1) =>
         (match dctx s1 (xContext d.pkt) with
          | some x =>
             (dispatchInvalid x d.pkt)
          | _ => false)
      | _ => false)),
    (let s : State := mevDup;
     (match takeDelivered 3 s with
      | some (d, s1) =>
         (match dctx s1 (xContext d.pkt) with
          | some x =>
             decide (dispatchInvalid x d.pkt = false) &&
             (match findToken s1 (xContext d.pkt) (pSrc d.pkt) (xToken d.pkt / 4) with
              | some k =>
                 decide (k.phase ≠ TokenPhase.arriving ∨ (tabGet? k.parts (xToken d.pkt % 4)).isSome = true)
              | _ => false)
          | _ => false)
      | _ => false)),
    (let s : State := mevFull;
     (match takeDelivered 3 s with
      | some (d, s1) =>
         (match dctx s1 (xContext d.pkt) with
          | some x =>
             decide (dispatchInvalid x d.pkt = false) &&
             (match findToken s1 (xContext d.pkt) (pSrc d.pkt) (xToken d.pkt / 4) with
              | some k =>
                 decide (k.phase = TokenPhase.arriving) && decide ((tabGet? k.parts (xToken d.pkt % 4)).isSome = false) &&
                 decide (tokenBuffer x.record < bufferUsed x + pLength d.pkt)
              | _ => false)
          | _ => false)
      | _ => false)),
    (let s : State := mevPart;
     (match takeDelivered 3 s with
      | some (d, s1) =>
         (match dctx s1 (xContext d.pkt) with
          | some x =>
             decide (dispatchInvalid x d.pkt = false) &&
             (match findToken s1 (xContext d.pkt) (pSrc d.pkt) (xToken d.pkt / 4) with
              | some k =>
                 decide (k.phase = TokenPhase.arriving) && decide ((tabGet? k.parts (xToken d.pkt % 4)).isSome = false) &&
                 decide (bufferUsed x + pLength d.pkt ≤ tokenBuffer x.record)
              | _ => false)
          | _ => false)
      | _ => false)),
    (let s : State := mevOff;
     (match takeDelivered 3 s with
      | some (d, s1) =>
         (match dctx s1 (xContext d.pkt) with
          | some x =>
             decide (dispatchInvalid x d.pkt = false) &&
             decide (findToken s1 (xContext d.pkt) (pSrc d.pkt) (xToken d.pkt / 4) = none) &&
             ((s1.start.cfg.millOff || x.draining.isSome))
          | _ => false)
      | _ => false)),
    (let s : State := mevNewFull;
     (match takeDelivered 3 s with
      | some (d, s1) =>
         (match dctx s1 (xContext d.pkt) with
          | some x =>
             decide (dispatchInvalid x d.pkt = false) &&
             decide (findToken s1 (xContext d.pkt) (pSrc d.pkt) (xToken d.pkt / 4) = none) &&
             decide ((s1.start.cfg.millOff || x.draining.isSome) = false) &&
             decide (tokenBuffer x.record < bufferUsed x + pLength d.pkt)
          | _ => false)
      | _ => false)),
    (let s : State := mevNew;
     (match takeDelivered 3 s with
      | some (d, s1) =>
         (match dctx s1 (xContext d.pkt) with
          | some x =>
             decide (dispatchInvalid x d.pkt = false) &&
             decide (findToken s1 (xContext d.pkt) (pSrc d.pkt) (xToken d.pkt / 4) = none) &&
             decide ((s1.start.cfg.millOff || x.draining.isSome) = false) &&
             decide (bufferUsed x + pLength d.pkt ≤ tokenBuffer x.record)
          | _ => false)
      | _ => false)),
    (let context : Nat := 0;
     decide (context < 128)),
    (let context : Nat := 128;
     decide (128 ≤ context)),
    (let s : State := mevWork;
     decide (s.mill.work.isSome = true ∨ (island s 56).dataReset = true)),
    (let s : State := run;
     decide (s.mill.work = none) && decide ((island s 56).dataReset = false) && decide (s.mill.batches = []) &&
     decide (nextProgram s = none)),
    (let s : State := millRuns;
     decide (s.mill.work = none) && decide ((island s 56).dataReset = false) && decide (s.mill.batches = []) &&
     (match nextProgram s with
      | some slot =>
         true
      | _ => false)),
    (let s : State := mevBatch;
     decide (s.mill.work = none) && decide ((island s 56).dataReset = false) &&
     (match s.mill.batches with
      | b :: bs =>
         decide (nextProgram s = none)
      | _ => false)),
    (let s : State := mevBoth;
     decide (s.mill.work = none) && decide ((island s 56).dataReset = false) &&
     (match s.mill.batches with
      | b :: bs =>
         (match nextProgram s with
          | some slot =>
             decide (s.mill.runLength < 8)
          | _ => false)
      | _ => false)),
    (let s : State := mevTurn;
     decide (s.mill.work = none) && decide ((island s 56).dataReset = false) &&
     (match s.mill.batches with
      | b :: bs =>
         (match nextProgram s with
          | some slot =>
             decide (8 ≤ s.mill.runLength)
          | _ => false)
      | _ => false)),
    (let s : State := mevWork;
     (match s.mill.work with
      | some (MillWork.batch b) =>
         (match dctx s b.context with
          | some x =>
             true
          | _ => false)
      | _ => false)),
    (let s : State := mevWorkGone;
     (match s.mill.work with
      | some (MillWork.batch b) =>
         decide (dctx s b.context = none)
      | _ => false)),
    (let s : State := run;
     decide (s.mill.work = none)),
    (let s : State := mevInstr;
     (match s.mill.work with
      | some (MillWork.instr slot) =>
         (match millProgram s slot with
          | some p =>
             (p.running)
          | _ => false)
      | _ => false)),
    (let s : State := mevInstrStop;
     (match s.mill.work with
      | some (MillWork.instr slot) =>
         (match millProgram s slot with
          | some p =>
             decide (p.running = false)
          | _ => false)
      | _ => false)),
    (let s : State := mevInstrGone;
     (match s.mill.work with
      | some (MillWork.instr slot) =>
         decide (millProgram s slot = none)
      | _ => false)),
    (let s : State := run;
     decide (s.mill.work = none)),
    (let slot : Nat := 0; let index : Nat := 0; let s : State := mevCopy;
     decide (slot < 16) &&
     (match millProgram s slot with
      | some p =>
         (match p.copies[index]? with
          | some i =>
             (mayStart s 8 0)
          | _ => false)
      | _ => false)),
    (let slot : Nat := 0; let index : Nat := 0; let s : State := mevCopyFull;
     decide (slot < 16) &&
     (match millProgram s slot with
      | some p =>
         (match p.copies[index]? with
          | some i =>
             decide (mayStart s 8 0 = false)
          | _ => false)
      | _ => false)),
    (let slot : Nat := 0; let index : Nat := 0; let s : State := millProg;
     decide (slot < 16) &&
     (match millProgram s slot with
      | some p =>
         decide (p.copies[index]? = none)
      | _ => false)),
    (let slot : Nat := 0; let s : State := run;
     decide (slot < 16) && decide (millProgram s slot = none)),
    (let slot : Nat := 16;
     decide (16 ≤ slot)),
    (let slot : Nat := 0; let s : State := millRuns;
     decide (slot < 16) &&
     (match millProgram s slot with
      | some p =>
         (p.running)
      | _ => false)),
    (let slot : Nat := 0; let s : State := millProg;
     decide (slot < 16) &&
     (match millProgram s slot with
      | some p =>
         decide (p.running = false)
      | _ => false)),
    (let slot : Nat := 0; let s : State := run;
     decide (slot < 16) && decide (millProgram s slot = none)),
    (let context : Nat := 0; let origin : Nat := 0; let ident : Nat := 5; let slot : Nat := 0; let s : State := mevRouted;
     decide (context < 128) &&
     (match dctx s context with
      | some x =>
         (match findToken s context origin ident with
          | some k =>
             (match k.slots[slot]? with
              | some sl =>
                 decide (k.phase = TokenPhase.routed) && decide (sl.replica = none) && decide (sl.skipped = false) &&
                 decide (winnowDown s = false) && decide (k.claimed = true ∨ claimedTokens x < x.record.inflight)
              | _ => false)
          | _ => false)
      | _ => false)),
    (let context : Nat := 0; let origin : Nat := 0; let ident : Nat := 5; let slot : Nat := 0;
     let s : State := mevRoutedWait;
     decide (context < 128) &&
     (match dctx s context with
      | some x =>
         (match findToken s context origin ident with
          | some k =>
             (match k.slots[slot]? with
              | some sl =>
                 decide (k.phase = TokenPhase.routed) && decide (sl.replica = none) && decide (sl.skipped = false) &&
                 decide (winnowDown s = false) && decide (k.claimed = false) && decide (x.record.inflight ≤ claimedTokens x)
              | _ => false)
          | _ => false)
      | _ => false)),
    (let context : Nat := 0; let origin : Nat := 0; let ident : Nat := 5; let slot : Nat := 0;
     let s : State := mevRoutedDone;
     decide (context < 128) &&
     (match dctx s context with
      | some x =>
         (match findToken s context origin ident with
          | some k =>
             (match k.slots[slot]? with
              | some sl =>
                 decide (k.phase ≠ TokenPhase.routed ∨ sl.replica.isSome = true ∨ sl.skipped = true ∨ winnowDown s = true)
              | _ => false)
          | _ => false)
      | _ => false)),
    (let context : Nat := 0; let origin : Nat := 10; let ident : Nat := 0; let slot : Nat := 0; let s : State := millTokens;
     decide (context < 128) &&
     (match dctx s context with
      | some x =>
         (match findToken s context origin ident with
          | some k =>
             decide (k.slots[slot]? = none)
          | _ => false)
      | _ => false)),
    (let context : Nat := 0; let origin : Nat := 0; let ident : Nat := 5; let s : State := mevSkipped;
     decide (context < 128) &&
     (match dctx s context with
      | some x =>
         (match findToken s context origin ident with
          | some k =>
             decide (k.phase = TokenPhase.routed) && (k.claimed) &&
             ((k.slots.all fun sl_ ↦ sl_.skipped || sl_.replica.isSome)) && ((waitingOf s computeSource).isEmpty) &&
             ((k.slots.all fun x_ ↦ x_.skipped))
          | _ => false)
      | _ => false)),
    (let context : Nat := 0; let origin : Nat := 0; let ident : Nat := 5; let s : State := mevRoutedDone;
     decide (context < 128) &&
     (match dctx s context with
      | some x =>
         (match findToken s context origin ident with
          | some k =>
             decide (k.phase = TokenPhase.routed) && (k.claimed) &&
             ((k.slots.all fun sl_ ↦ sl_.skipped || sl_.replica.isSome)) && ((waitingOf s computeSource).isEmpty) &&
             decide ((k.slots.all fun x_ ↦ x_.skipped) = false)
          | _ => false)
      | _ => false)),
    (let context : Nat := 0; let origin : Nat := 10; let ident : Nat := 0; let s : State := millTokens;
     decide (context < 128) &&
     (match dctx s context with
      | some x =>
         (match findToken s context origin ident with
          | some k =>
             decide (k.phase ≠ TokenPhase.routed ∨ k.claimed = false ∨ (k.slots.all fun sl_ ↦ sl_.skipped || sl_.replica.isSome) = false ∨ (waitingOf s computeSource).isEmpty = false)
          | _ => false)
      | _ => false)),
    (let s : State := run;
     decide (takeDelivered 2 s = none)),
    (let s : State := mevRetNoCtx;
     (match takeDelivered 2 s with
      | some (d, s1) =>
         decide (dctx s1 (xContext d.pkt) = none)
      | _ => false)),
    (let s : State := mevRetNone;
     (match takeDelivered 2 s with
      | some (d, s1) =>
         (match dctx s1 (xContext d.pkt) with
          | some x =>
             decide (List.filter (fun t_ ↦ t_.phase == TokenPhase.dispatched && t_.ident == xToken d.pkt / 4) x.tokens = [])
          | _ => false)
      | _ => false)),
    (let s : State := mevRetOther;
     (match takeDelivered 2 s with
      | some (d, s1) =>
         (match dctx s1 (xContext d.pkt) with
          | some x =>
             (match List.filter (fun t_ ↦ t_.phase == TokenPhase.dispatched && t_.ident == xToken d.pkt / 4) x.tokens with
              | k :: ks =>
                 decide (List.find? (fun t_ ↦ returnMatches t_ d.pkt) (k :: ks) = none)
              | _ => false)
          | _ => false)
      | _ => false)),
    (let s : State := mevRetTwice;
     (match takeDelivered 2 s with
      | some (d, s1) =>
         (match dctx s1 (xContext d.pkt) with
          | some x =>
             (match List.find? (fun t_ ↦ returnMatches t_ d.pkt) (List.filter (fun t_ ↦ t_.phase == TokenPhase.dispatched && t_.ident == xToken d.pkt / 4) x.tokens) with
              | some k =>
                 decide (xToken d.pkt % 4 < partsOf x.record.d x.record.retFmt) &&
                 decide (pLength d.pkt = partLen x.record.d x.record.retFmt (xToken d.pkt % 4)) &&
                 (match k.slots[xSlot d.pkt]? with
                  | some sl =>
                     ((tabGet? sl.returned (xToken d.pkt % 4)).isSome)
                  | _ => false)
              | _ => false)
          | _ => false)
      | _ => false)),
    (let s : State := mevRet;
     (match takeDelivered 2 s with
      | some (d, s1) =>
         (match dctx s1 (xContext d.pkt) with
          | some x =>
             (match List.find? (fun t_ ↦ returnMatches t_ d.pkt) (List.filter (fun t_ ↦ t_.phase == TokenPhase.dispatched && t_.ident == xToken d.pkt / 4) x.tokens) with
              | some k =>
                 decide (xToken d.pkt % 4 < partsOf x.record.d x.record.retFmt) &&
                 decide (pLength d.pkt = partLen x.record.d x.record.retFmt (xToken d.pkt % 4)) &&
                 (match k.slots[xSlot d.pkt]? with
                  | some sl =>
                     decide ((tabGet? sl.returned (xToken d.pkt % 4)).isSome = false)
                  | _ => false)
              | _ => false)
          | _ => false)
      | _ => false)),
    (let context : Nat := 0; let origin : Nat := 10; let ident : Nat := 0; let s : State := millTokens;
     decide (context < 128) &&
     (match dctx s context with
      | some x =>
         (match findToken s context origin ident with
          | some k =>
             true
          | _ => false)
      | _ => false)),
    (let context : Nat := 0; let s : State := run;
     decide (context < 128) && decide (dctx s context = none)),
    (let context : Nat := 128;
     decide (128 ≤ context)),
    (let c : Nat := 0; let s : State := mevDrain;
     (match dctx s c with
      | some x =>
         (match x.draining with
          | some d =>
             true
          | _ => false)
      | _ => false)),
    (let c : Nat := 0; let s : State := millCtx;
     (match dctx s c with
      | some x =>
         decide (x.draining = none)
      | _ => false)),
    (let s : State := run;
     decide (s.mill.disabling = [])),
    (let s : State := mevDisable;
     decide (s.mill.disabling.isEmpty = false)),
    (let c : Nat := 0; let i : Nat := 0; let s : State := millTokens;
     (match dctx (countMill 11 1 s) c with
      | some x =>
         (match x.tokens[i]? with
          | some k =>
             true
          | _ => false)
      | _ => false)),
    (let c : Nat := 0; let s : State := run;
     decide (dctx (countMill 11 1 s) c = none)),
    (let s : State := run;
     decide (takeNotice 1 s = none)),
    (let s : State := mevNotice;
     (match takeNotice 1 s with
      | some (k, s1) =>
         true
      | _ => false))].all id = true := by
  decide +kernel

theorem witness_NoticeEvents : [
    (let s : State := run;
     decide (takeNotice 16 s = none)),
    (let s : State := ntcReserve;
     (match takeNotice 16 s with
      | some (k, s1) =>
         true
      | _ => false)),
    (let home : Nat := 5; let opened : Nat := 0; let s : State := ntcResv;
     (match findReservation s home opened with
      | some r =>
         true
      | _ => false)),
    (let home : Nat := 0; let opened : Nat := 0; let s : State := run;
     decide (findReservation s home opened = none)),
    (let s : State := run;
     decide (takeNotice 19 s = none)),
    (let s : State := ntcCommitNone;
     (match takeNotice 19 s with
      | some (k, s1) =>
         decide (findReservation s1 (senderSid k) (noticeOpen k) = none)
      | _ => false)),
    (let s : State := ntcCommitPart;
     (match takeNotice 19 s with
      | some (k, s1) =>
         (match findReservation s1 (senderSid k) (noticeOpen k) with
          | some r =>
             decide (List.length (commitWords k r) < r.recipe.parts)
          | _ => false)
      | _ => false)),
    (let s : State := ntcCommit;
     (match takeNotice 19 s with
      | some (k, s1) =>
         (match findReservation s1 (senderSid k) (noticeOpen k) with
          | some r =>
             decide (r.recipe.parts ≤ List.length (commitWords k r))
          | _ => false)
      | _ => false)),
    (let s : State := run;
     decide (takeNotice 21 s = none)),
    (let s : State := ntcReleaseResv;
     (match takeNotice 21 s with
      | some (k, s1) =>
         (match findReservation s1 (senderSid k) (noticeOpen k) with
          | some r =>
             true
          | _ => false)
      | _ => false)),
    (let s : State := ntcReleaseHeld;
     (match takeNotice 21 s with
      | some (k, s1) =>
         decide (findReservation s1 (senderSid k) (noticeOpen k) = none) &&
         (openedHere s1 (senderSid k) (noticeOpen k) (noticeGid k) (noticeRecipe k))
      | _ => false)),
    (let s : State := ntcReleaseNone;
     (match takeNotice 21 s with
      | some (k, s1) =>
         decide (findReservation s1 (senderSid k) (noticeOpen k) = none) &&
         decide (openedHere s1 (senderSid k) (noticeOpen k) (noticeGid k) (noticeRecipe k) = false)
      | _ => false)),
    (let s : State := run;
     decide (takeNotice 17 s = none)),
    (let s : State := ntcReservedNone;
     (match takeNotice 17 s with
      | some (k, s1) =>
         decide (tabGet? s1.loaf.opens (noticeOpen k) = none)
      | _ => false)),
    (let s : State := ntcReservedLate;
     (match takeNotice 17 s with
      | some (k, s1) =>
         (match tabGet? s1.loaf.opens (noticeOpen k) with
          | some j =>
             decide (j.committing = true ∨ j.waiting.contains (senderSid k) = false ∨ j.recipe.recipeId ≠ noticeRecipe k)
          | _ => false)
      | _ => false)),
    (let s : State := ntcReserved;
     (match takeNotice 17 s with
      | some (k, s1) =>
         (match tabGet? s1.loaf.opens (noticeOpen k) with
          | some j =>
             decide (j.committing = false) && (j.waiting.contains (senderSid k)) &&
             decide (j.recipe.recipeId = noticeRecipe k)
          | _ => false)
      | _ => false)),
    (let s : State := run;
     decide (takeNotice 18 s = none)),
    (let s : State := ntcRefusedNone;
     (match takeNotice 18 s with
      | some (k, s1) =>
         decide (tabGet? s1.loaf.opens (noticeOpen k) = none)
      | _ => false)),
    (let s : State := ntcRefusedLate;
     (match takeNotice 18 s with
      | some (k, s1) =>
         (match tabGet? s1.loaf.opens (noticeOpen k) with
          | some j =>
             (j.waiting.contains (senderSid k)) && decide (j.recipe.recipeId = noticeRecipe k) && (j.committing)
          | _ => false)
      | _ => false)),
    (let s : State := ntcRefused;
     (match takeNotice 18 s with
      | some (k, s1) =>
         (match tabGet? s1.loaf.opens (noticeOpen k) with
          | some j =>
             (j.waiting.contains (senderSid k)) && decide (j.recipe.recipeId = noticeRecipe k) &&
             decide (j.committing = false)
          | _ => false)
      | _ => false)),
    (let opened : Nat := 0; let sid : Nat := 5; let s : State := ntcReserved;
     (match tabGet? s.loaf.opens opened with
      | some j =>
         decide (j.committing = false) && (j.waiting.contains sid)
      | _ => false)),
    (let opened : Nat := 0; let s : State := run;
     decide (tabGet? s.loaf.opens opened = none)),
    (let s : State := run;
     decide (takeNotice 20 s = none)),
    (let s : State := ntcCommittedEarly;
     (match takeNotice 20 s with
      | some (k, s1) =>
         (match tabGet? s1.loaf.opens (noticeOpen k) with
          | some j =>
             decide (j.committing = false)
          | _ => false)
      | _ => false)),
    (let s : State := ntcCommittedPart;
     (match takeNotice 20 s with
      | some (k, s1) =>
         (match tabGet? s1.loaf.opens (noticeOpen k) with
          | some j =>
             (j.committing) && decide ((List.filter (fun x_ ↦ x_ != senderSid k) j.waiting).isEmpty = false)
          | _ => false)
      | _ => false)),
    (let s : State := ntcCommitted;
     (match takeNotice 20 s with
      | some (k, s1) =>
         (match tabGet? s1.loaf.opens (noticeOpen k) with
          | some j =>
             (j.committing) && ((List.filter (fun x_ ↦ x_ != senderSid k) j.waiting).isEmpty)
          | _ => false)
      | _ => false)),
    (let opened : Nat := 0; let s : State := ntcReservedLate;
     (match tabGet? s.loaf.opens opened with
      | some j =>
         (j.committing)
      | _ => false)),
    (let opened : Nat := 0; let s : State := ntcReserved;
     (match tabGet? s.loaf.opens opened with
      | some j =>
         decide (j.committing = false)
      | _ => false)),
    (let s : State := run;
     decide (takeNotice 22 s = none)),
    (let s : State := ntcCloseNone;
     (match takeNotice 22 s with
      | some (k, s1) =>
         decide (held s1 (noticeGid k) (noticeRecipe k) = none)
      | _ => false)),
    (let s : State := ntcCloseAgain;
     (match takeNotice 22 s with
      | some (k, s1) =>
         (match held s1 (noticeGid k) (noticeRecipe k) with
          | some h =>
             (h.closers.contains (senderSid k, noticeOpen k))
          | _ => false)
      | _ => false)),
    (let s : State := ntcClose;
     (match takeNotice 22 s with
      | some (k, s1) =>
         (match held s1 (noticeGid k) (noticeRecipe k) with
          | some h =>
             decide (h.closers.contains (senderSid k, noticeOpen k) = false)
          | _ => false)
      | _ => false)),
    (let s : State := run;
     decide (takeNotice 23 s = none)),
    (let s : State := ntcClosed;
     (match takeNotice 23 s with
      | some (k, s1) =>
         true
      | _ => false)),
    (let job : Nat := 0; let s : State := run;
     decide (tabGet? s.loaf.closes job = none)),
    (let job : Nat := 0; let s : State := ntcClosing;
     (match tabGet? s.loaf.closes job with
      | some j =>
         (stillOutstanding s j.origin)
      | _ => false)),
    (let job : Nat := 0; let s : State := ntcClosingEnded;
     (match tabGet? s.loaf.closes job with
      | some j =>
         decide (stillOutstanding s j.origin = false)
      | _ => false)),
    (let gid : Nat := 0; let recipe : Nat := 65537; let s : State := ntcHeldClosing;
     (match held s gid recipe with
      | some h =>
         (h.closing)
      | _ => false)),
    (let gid : Nat := 0; let recipe : Nat := 65537; let s : State := loafRecipe;
     (match held s gid recipe with
      | some h =>
         decide (h.closing = false)
      | _ => false)),
    (let mb : Nat := 0; let seq : Nat := 0; let s : State := run;
     decide (List.find? (fun j_ ↦ j_.fst.mailbox == mb && j_.fst.seq == seq) s.loaf.kneadJobs = none)),
    (let mb : Nat := 32; let seq : Nat := 7; let s : State := ntcKnead;
     (match List.find? (fun j_ ↦ j_.fst.mailbox == mb && j_.fst.seq == seq) s.loaf.kneadJobs with
      | some j =>
         true
      | _ => false))].all id = true := by
  decide +kernel

theorem witness_PortCommands : [
    (let o : Origin := manager; let widths : List (Nat × Nat) := []; let s : State := run;
     (match beginsAt o 513 s with
      | some b =>
         (widths.all widthGood) && (noneMeet widths)
      | _ => false)),
    (let o : Origin := manager; let widths : List (Nat × Nat) := [(1, 0)]; let s : State := run;
     (match beginsAt o 513 s with
      | some b =>
         decide ((widths.all widthGood && noneMeet widths) = false)
      | _ => false)),
    (let o : Origin := manager; let port : Nat := 0; let s : State := run;
     (match beginsAt o 514 s with
      | some b =>
         (portKnown b port)
      | _ => false)),
    (let o : Origin := manager; let port : Nat := 0; let mask : Nat := 0; let s : State := run;
     (match beginsAt o 515 s with
      | some b =>
         (portKnown b port) && decide (mask < 256)
      | _ => false)),
    (let o : Origin := manager; let port : Nat := 0; let mask : Nat := 256; let s : State := run;
     (match beginsAt o 515 s with
      | some b =>
         (portKnown b port) && decide (256 ≤ mask)
      | _ => false)),
    (let o : Origin := oper; let port : Nat := 0; let k : Nat := 0; let s : State := run;
     (match beginsAt o 516 s with
      | some b =>
         (portKnown b port) && decide (k ≤ 20)
      | _ => false)),
    (let o : Origin := oper; let port : Nat := 0; let s : State := run;
     (match beginsAt o 516 s with
      | some b =>
         (portKnown b port)
      | _ => false)),
    (let o : Origin := oper; let port : Nat := 0; let k : Nat := 21; let s : State := run;
     (match beginsAt o 516 s with
      | some b =>
         (portKnown b port) && decide (20 < k) && decide (k ≠ 255)
      | _ => false)),
    (let o : Origin := manager; let port : Nat := 0; let queueUs : Nat := 0; let portUs : Nat := 0; let s : State := run;
     (match beginsAt o 517 s with
      | some b =>
         (portKnown b port) && (staleGood (staleUs queueUs)) && (staleGood (staleUs portUs))
      | _ => false)),
    (let o : Origin := manager; let port : Nat := 0; let queueUs : Nat := 0; let portUs : Nat := 1; let s : State := run;
     (match beginsAt o 517 s with
      | some b =>
         (portKnown b port) && decide ((staleGood (staleUs queueUs) && staleGood (staleUs portUs)) = false)
      | _ => false)),
    (let o : Origin := manager; let port : Nat := 0; let cls : Nat := 0; let us : Nat := 0; let s : State := run;
     (match beginsAt o 518 s with
      | some b =>
         (portKnown b port) && decide (cls ≤ 4) && decide (us ≤ 10000)
      | _ => false)),
    (let o : Origin := manager; let port : Nat := 0; let cls : Nat := 0; let us : Nat := 10001; let s : State := run;
     (match beginsAt o 518 s with
      | some b =>
         (portKnown b port) && decide (4 < cls ∨ 10000 < us)
      | _ => false)),
    (let o : Origin := oper; let port : Nat := 0; let s : State := portUp;
     (match beginsAt o 519 s with
      | some b =>
         (portKnown b port) && decide ((Machine.port b port).phase = PortPhase.up)
      | _ => false)),
    (let o : Origin := oper; let port : Nat := 0; let s : State := portResume;
     (match beginsAt o 519 s with
      | some b =>
         (portKnown b port) && decide ((Machine.port b port).phase = PortPhase.resume)
      | _ => false)),
    (let o : Origin := oper; let port : Nat := 0; let s : State := run;
     (match beginsAt o 519 s with
      | some b =>
         (portKnown b port) && decide ((Machine.port b port).phase ≠ PortPhase.up) &&
         decide ((Machine.port b port).phase ≠ PortPhase.resume)
      | _ => false)),
    (let o : Origin := oper; let port : Nat := 0; let mask : Nat := 1; let s : State := portUp;
     (match beginsAt o 520 s with
      | some b =>
         (portKnown b port) && decide (0 < mask) && decide (mask < 2 ^ (Machine.port b port).width) &&
         decide ((Machine.port b port).phase ≠ PortPhase.down)
      | _ => false)),
    (let o : Origin := oper; let port : Nat := 0; let mask : Nat := 1; let s : State := portUp;
     (match beginsAt o 520 s with
      | some b =>
         (portKnown b port) && decide (0 < mask) && decide (mask < 2 ^ (Machine.port b port).width) &&
         decide ((Machine.port b port).phase ≠ PortPhase.down) &&
         decide ((maskLanes b port mask).any (causeHolds b) = false)
      | _ => false)),
    (let o : Origin := oper; let port : Nat := 0; let mask : Nat := 1; let s : State := portFade;
     (match beginsAt o 520 s with
      | some b =>
         (portKnown b port) && decide (0 < mask) && decide (mask < 2 ^ (Machine.port b port).width) &&
         decide ((Machine.port b port).phase ≠ PortPhase.down) && ((maskLanes b port mask).any (causeHolds b))
      | _ => false)),
    (let o : Origin := oper; let port : Nat := 0; let mask : Nat := 1; let s : State := run;
     (match beginsAt o 520 s with
      | some b =>
         (portKnown b port) && decide (0 < mask) && decide (mask < 2 ^ (Machine.port b port).width) &&
         decide ((Machine.port b port).phase = PortPhase.down)
      | _ => false)),
    (let o : Origin := oper; let port : Nat := 0; let mask : Nat := 0; let s : State := run;
     (match beginsAt o 520 s with
      | some b =>
         (portKnown b port) && decide (mask = 0 ∨ 2 ^ (Machine.port b port).width ≤ mask)
      | _ => false)),
    (let o : Origin := oper; let port : Nat := 0; let s : State := run;
     (match beginsAt o 521 s with
      | some b =>
         (portKnown b port)
      | _ => false)),
    (let o : Origin := manager; let port : Nat := 1; let s : State := run;
     (match beginsAt o 514 s with
      | some b =>
         decide (portKnown b port = false)
      | _ => false)),
    (let o : Origin := manager; let port : Nat := 1; let s : State := run;
     (match beginsAt o 515 s with
      | some b =>
         decide (portKnown b port = false)
      | _ => false)),
    (let o : Origin := oper; let port : Nat := 1; let s : State := run;
     (match beginsAt o 516 s with
      | some b =>
         decide (portKnown b port = false)
      | _ => false)),
    (let o : Origin := manager; let port : Nat := 1; let s : State := run;
     (match beginsAt o 517 s with
      | some b =>
         decide (portKnown b port = false)
      | _ => false)),
    (let o : Origin := manager; let port : Nat := 1; let s : State := run;
     (match beginsAt o 518 s with
      | some b =>
         decide (portKnown b port = false)
      | _ => false)),
    (let o : Origin := oper; let port : Nat := 1; let s : State := run;
     (match beginsAt o 519 s with
      | some b =>
         decide (portKnown b port = false)
      | _ => false)),
    (let o : Origin := oper; let port : Nat := 1; let s : State := run;
     (match beginsAt o 520 s with
      | some b =>
         decide (portKnown b port = false)
      | _ => false)),
    (let o : Origin := oper; let port : Nat := 1; let s : State := run;
     (match beginsAt o 521 s with
      | some b =>
         decide (portKnown b port = false)
      | _ => false))].all id = true := by
  decide +kernel

theorem witness_PortEvents : [
    (let port : Nat := 0; let s : State := run;
     (portKnown s port)),
    (let port : Nat := 0; let s : State := run;
     (portKnown s port)),
    (let port : Nat := 0; let s : State := run;
     (portKnown s port) && decide ((Machine.port s port).pause = none)),
    (let port : Nat := 0; let s : State := portPause;
     (portKnown s port) &&
     (match (Machine.port s port).pause with
      | some w =>
         true
      | _ => false)),
    (let port : Nat := 0; let s : State := run;
     (portKnown s port)),
    (let port : Nat := 0; let llType : Nat := 0; let s : State := run;
     (portKnown s port) && decide (llType ≠ 2)),
    (let port : Nat := 0; let s : State := run;
     (portKnown s port)),
    (let port : Nat := 0; let s : State := run;
     (portKnown s port)),
    (let port : Nat := 0; let s : State := portUp;
     (portKnown s port) &&
     decide ((Machine.port s port).phase = PortPhase.hello ∨ (Machine.port s port).phase = PortPhase.up ∨ (Machine.port s port).phase = PortPhase.resume)),
    (let port : Nat := 0; let s : State := run;
     (portKnown s port) &&
     decide ((Machine.port s port).phase = PortPhase.down ∨ (Machine.port s port).phase = PortPhase.credit)),
    (let port : Nat := 0; let s : State := portHello;
     (portKnown s port) && decide ((Machine.port s port).phase = PortPhase.hello)),
    (let port : Nat := 0; let s : State := run;
     (portKnown s port) && decide ((Machine.port s port).phase ≠ PortPhase.hello)),
    (let port : Nat := 0; let pkt : Packet := pkt0; let s : State := run;
     (portKnown s port) && decide (helloValid pkt = false)),
    (let port : Nat := 0; let s : State := run;
     (portKnown s port) && decide ((Machine.port s port).phase = PortPhase.down)),
    (let port : Nat := 0; let pkt : Packet := helloPkt; let s : State := portHello;
     (portKnown s port) && (helloValid pkt) && decide ((Machine.port s port).phase = PortPhase.hello)),
    (let port : Nat := 0; let pkt : Packet := helloPkt; let s : State := portKnows;
     (portKnown s port) && (helloValid pkt) && decide ((Machine.port s port).phase = PortPhase.up) &&
     (identityChanged (Machine.port s port) (helloPeer pkt))),
    (let port : Nat := 0; let pkt : Packet := helloPkt; let s : State := portUp;
     (portKnown s port) && (helloValid pkt) && decide ((Machine.port s port).phase = PortPhase.up) &&
     decide (identityChanged (Machine.port s port) (helloPeer pkt) = false)),
    (let port : Nat := 0; let s : State := portCredit;
     (portKnown s port) && decide ((Machine.port s port).phase = PortPhase.credit)),
    (let port : Nat := 0; let s : State := run;
     (portKnown s port) && decide ((Machine.port s port).phase ≠ PortPhase.credit)),
    (let port : Nat := 0; let s : State := portResume;
     (portKnown s port) && decide ((Machine.port s port).phase = PortPhase.resume)),
    (let port : Nat := 0; let s : State := run;
     (portKnown s port) && decide ((Machine.port s port).phase ≠ PortPhase.resume)),
    (let port : Nat := 0; let s : State := portCredit;
     (portKnown s port) && decide (8 ≤ (Machine.port s port).replays)),
    (let port : Nat := 0; let s : State := run;
     (portKnown s port) && decide ((Machine.port s port).replays < 8)),
    (let port : Nat := 1; let s : State := run;
     decide (portKnown s port = false))].all id = true := by
  decide +kernel

theorem witness_ResetCommands : [
    (let o : Origin := oper; let gid : Nat := 1; let seq : Nat := 1; let s : State := loafRuns;
     (match beginsAt o 3329 s with
      | some b =>
         (match group b gid with
          | some g =>
             (mayReach o g.pid b) && (((abortTargets b gid seq).any fun e_ ↦ loafRunning e_.snd))
          | _ => false)
      | _ => false)),
    (let o : Origin := oper; let slot : Nat := 0; let s : State := gristRuns;
     (match beginsAt o 3329 s with
      | some b =>
         (match grist b slot with
          | some g =>
             (slotReach o b g) && decide (g.phase = GristPhase.running)
          | _ => false)
      | _ => false)),
    (let o : Origin := oper; let c : Nat := 24; let s : State := granChanRun;
     (match beginsAt o 3329 s with
      | some b =>
         decide (c < 32) && (channelReach o c b) && decide (((channel b c).flight.all fun f_ ↦ f_.status.isSome) = false)
      | _ => false)),
    (let o : Origin := oper; let mb : Nat := 32; let seq : Nat := 7; let s : State := busyMail;
     (match beginsAt o 3329 s with
      | some b =>
         decide (mb < 64) && decide (¬(mb = o.mailbox ∧ seq = o.seq)) &&
         decide ((isTenant o && (mailbox b mb).pid != (mailbox b o.mailbox).pid) = false) &&
         (((mailbox b mb).outstanding.any fun c_ ↦ c_.seq == seq))
      | _ => false)),
    (let o : Origin := oper; let t : Nat := 4; let s : State := run;
     (match beginsAt o 3329 s with
      | some b =>
         decide (3 < t)
      | _ => false)),
    (let o : Origin := oper; let code : Word := 0x01000000; let s : State := run;
     (match beginsAt o 3330 s with
      | some b =>
         decide (fld code 23 16 = 0) && (engineKnown b (fld code 31 24) (fld code 15 0)) &&
         ((askedFor (escalate 2 (engineScope (fld code 31 24) (fld code 15 0)) 11 [BitVec.toNat code] b) 2 (engineScope (fld code 31 24) (fld code 15 0))).isSome) &&
         decide (thirdEngineReset (escalate 2 (engineScope (fld code 31 24) (fld code 15 0)) 11 [BitVec.toNat code] b) (engineScope (fld code 31 24) (fld code 15 0)) = false)
      | _ => false)),
    (let o : Origin := oper; let code : Word := 0; let s : State := run;
     (match beginsAt o 3330 s with
      | some b =>
         decide (fld code 23 16 ≠ 0 ∨ engineKnown b (fld code 31 24) (fld code 15 0) = false)
      | _ => false)),
    (let o : Origin := oper; let slice : Nat := 0; let s : State := run;
     (match beginsAt o 3331 s with
      | some b =>
         decide (slice < 8) &&
         ((askedFor (escalate 3 (islandScope (l3Home (8 + slice))) 11 [slice] b) 3 (islandScope (l3Home (8 + slice)))).isSome) &&
         decide ((recentTimes (escalate 3 (islandScope (l3Home (8 + slice))) 11 [slice] b) 600000000000 (tabGet (fun x_ ↦ []) (escalate 3 (islandScope (l3Home (8 + slice))) 11 [slice] b).rst.l3Times (islandScope (l3Home (8 + slice))))).length < 2)
      | _ => false)),
    (let o : Origin := oper; let code : Word := 0x01000000; let s : State := resetBusy;
     (match beginsAt o 3330 s with
      | some b =>
         decide (fld code 23 16 = 0) && (engineKnown b (fld code 31 24) (fld code 15 0)) &&
         decide (((askedFor (escalate 2 (engineScope (fld code 31 24) (fld code 15 0)) 11 [BitVec.toNat code] b) 2 (engineScope (fld code 31 24) (fld code 15 0))).isSome && !thirdEngineReset (escalate 2 (engineScope (fld code 31 24) (fld code 15 0)) 11 [BitVec.toNat code] b) (engineScope (fld code 31 24) (fld code 15 0))) = false)
      | _ => false)),
    (let o : Origin := oper; let slice : Nat := 8; let s : State := run;
     (match beginsAt o 3331 s with
      | some b =>
         decide (8 ≤ slice)
      | _ => false)),
    (let o : Origin := oper; let s : State := recovery;
     (match beginsAt o 3332 s with
      | some b =>
         decide (b.start.phase = Phase.recovery)
      | _ => false)),
    (let o : Origin := oper; let s : State := run;
     (match beginsAt o 3332 s with
      | some b =>
         decide (b.start.phase ≠ Phase.recovery)
      | _ => false)),
    (let o : Origin := opSec; let s : State := run;
     (match beginsAt o 3333 s with
      | some b =>
         true
      | _ => false)),
    (let o : Origin := oper; let watts : Nat := 0; let s : State := run;
     (match beginsAt o 4353 s with
      | some b =>
         decide (watts = 0 ∨ 1000 ≤ watts ∧ watts ≤ 2800)
      | _ => false)),
    (let o : Origin := oper; let watts : Nat := 1; let s : State := run;
     (match beginsAt o 4353 s with
      | some b =>
         decide (watts ≠ 0) && decide (watts < 1000 ∨ 2800 < watts)
      | _ => false)),
    (let o : Origin := oper; let s : State := run;
     (match beginsAt o 4354 s with
      | some b =>
         true
      | _ => false))].all id = true := by
  decide +kernel

theorem witness_ResetEvents : [
    (let typ : Nat := 1; let idx : Nat := 0; let s : State := run;
     (engineKnown s typ idx)),
    (let typ : Nat := 0; let idx : Nat := 0; let s : State := run;
     decide (engineKnown s typ idx = false)),
    (let isl : Nat := 0;
     (islandKnown isl)),
    (let isl : Nat := 2;
     decide (islandKnown isl = false)),
    (let typ : Nat := 1; let idx : Nat := 0; let s : State := run;
     (engineKnown s typ idx)),
    (let typ : Nat := 1; let idx : Nat := 0; let s : State := run;
     (engineKnown s typ idx) && decide (askedFor s 2 (engineScope typ idx) = none)),
    (let typ : Nat := 1; let idx : Nat := 0; let s : State := rseEngine;
     (engineKnown s typ idx) &&
     (match askedFor s 2 (engineScope typ idx) with
      | some e =>
         true
      | _ => false)),
    (let isl : Nat := 0; let s : State := run;
     (islandKnown isl) && decide (askedFor s 3 (islandScope (l3Home isl)) = none)),
    (let isl : Nat := 8; let s : State := rseIsland;
     (islandKnown isl) &&
     (match askedFor s 3 (islandScope (l3Home isl)) with
      | some e =>
         true
      | _ => false)),
    (let s : State := run;
     decide (List.find? (fun e_ ↦ !e_.active) s.rst.asked = none)),
    (let s : State := askedL4;
     (match List.find? (fun e_ ↦ !e_.active) s.rst.asked with
      | some e =>
         true
      | _ => false)),
    (let core : Nat := 0; let s : State := run;
     decide (core < 4) && decide (s.start.phase = Phase.running)),
    (let core : Nat := 0; let s : State := supOff;
     decide (core < 4) && decide (s.start.phase ≠ Phase.running)),
    (let core : Nat := 4;
     decide (4 ≤ core)),
    (let s : State := run;
     decide (s.start.phase = Phase.running)),
    (let s : State := supOff;
     decide (s.start.phase ≠ Phase.running)),
    (let proposal : Nat := 1; let s : State := propsFull;
     (match tabGet? s.sec.proposals proposal with
      | some p =>
         decide (p.state = ProposalState.pending)
      | _ => false)),
    (let proposal : Nat := 1; let s : State := propDone;
     (match tabGet? s.sec.proposals proposal with
      | some p =>
         decide (p.state ≠ ProposalState.pending)
      | _ => false)),
    (let proposal : Nat := 0; let s : State := run;
     decide (tabGet? s.sec.proposals proposal = none))].all id = true := by
  decide +kernel

theorem witness_RingEvents : [
    (let engine : Nat := 0; let fibre : Nat := 0;
     (pairKnown engine fibre)),
    (let engine : Nat := 0; let fibre : Nat := 0; let tx : Bool := true; let temp : Nat := 0;
     let found : List (Option Nat) := []; let s : State := linkBadRing;
     (pairKnown engine fibre) && ((busRings engine fibre tx).zipIdx.all (ringFound s engine temp found))),
    (let engine : Nat := 0; let fibre : Nat := 0; let tx : Bool := true; let temp : Nat := 0;
     let found : List (Option Nat) := []; let s : State := run;
     (pairKnown engine fibre) && decide ((busRings engine fibre tx).zipIdx.all (ringFound s engine temp found) = false)),
    (let d : Nat := 0; let s : State := run;
     decide (d < 8) && decide (tabGet? s.start.cfg.perm d = none)),
    (let d : Nat := 0; let temp : Nat := 0; let s : State := linkSpare;
     decide (d < 8) &&
     (match tabGet? s.start.cfg.perm d with
      | some r =>
         decide (temp ≤ r.ts + 2000) && decide (r.ts ≤ temp + 2000)
      | _ => false)),
    (let d : Nat := 0; let temp : Nat := 2001; let s : State := linkSpare;
     decide (d < 8) &&
     (match tabGet? s.start.cfg.perm d with
      | some r =>
         decide (¬(temp ≤ r.ts + 2000 ∧ r.ts ≤ temp + 2000))
      | _ => false)),
    (let engine : Nat := 0; let fibre : Nat := 0; let row : Nat := 0; let slot : Nat := 0;
     (pairKnown engine fibre) && decide (row < 5) && decide (slot < 8)),
    (let engine : Nat := 0; let fibre : Nat := 0; let row : Nat := 0; let slot : Nat := 0; let s : State := ringTrack;
     (pairKnown engine fibre) && decide (row < 5) && decide (slot < 8) &&
     decide ((ring s (ringKey engine fibre row slot)).mode = RingMode.tracking)),
    (let engine : Nat := 0; let fibre : Nat := 0; let row : Nat := 1; let slot : Nat := 0; let s : State := ringLoose;
     (pairKnown engine fibre) && decide (row < 5) && decide (slot < 8) &&
     decide ((ring s (ringKey engine fibre row slot)).mode = RingMode.unlocked) && decide (row = 1 ∨ row = 3)),
    (let engine : Nat := 0; let fibre : Nat := 0; let row : Nat := 0; let slot : Nat := 0; let s : State := ringLoose;
     (pairKnown engine fibre) && decide (row < 5) && decide (slot < 8) &&
     decide ((ring s (ringKey engine fibre row slot)).mode = RingMode.unlocked) && decide (row = 0 ∨ row = 4)),
    (let engine : Nat := 0; let fibre : Nat := 0; let row : Nat := 0; let slot : Nat := 0; let s : State := run;
     (pairKnown engine fibre) && decide (row < 5) && decide (slot < 8) &&
     decide ((ring s (ringKey engine fibre row slot)).mode ≠ RingMode.tracking) &&
     decide ((ring s (ringKey engine fibre row slot)).mode ≠ RingMode.unlocked)),
    (let lane : Nat := 0; let s : State := linkLanes;
     (laneKnown lane) && decide ((Machine.lane s lane).phase = LanePhase.joined)),
    (let lane : Nat := 0; let s : State := run;
     (laneKnown lane) && decide ((Machine.lane s lane).phase ≠ LanePhase.joined)),
    (let m : FadeLevel := ⟨0, 0, 0⟩; let s : State := run;
     decide (m.engine < 32) && decide (m.colour < 8) &&
     decide (tabGet? s.start.cfg.commission (m.engine * 8 + m.colour) = none)),
    (let m : FadeLevel := ⟨0, 0, 0⟩; let s : State := ringFade;
     decide (m.engine < 32) && decide (m.colour < 8) &&
     (match tabGet? s.start.cfg.commission (m.engine * 8 + m.colour) with
      | some x =>
         decide (-250 < m.level)
      | _ => false)),
    (let m : FadeLevel := ⟨0, 0, -250⟩; let s : State := ringFade;
     decide (m.engine < 32) && decide (m.colour < 8) &&
     (match tabGet? s.start.cfg.commission (m.engine * 8 + m.colour) with
      | some x =>
         decide (-400 < m.level) && decide (m.level ≤ -250) && decide ((fade s m.engine m.colour).suspended = false)
      | _ => false)),
    (let m : FadeLevel := ⟨0, 0, -400⟩; let s : State := ringFaded;
     decide (m.engine < 32) && decide (m.colour < 8) &&
     (match tabGet? s.start.cfg.commission (m.engine * 8 + m.colour) with
      | some x =>
         decide (m.level ≤ -400) && ((fade s m.engine m.colour).suspended) &&
         decide ((fade s m.engine m.colour).failed = false)
      | _ => false)),
    (let levels : List FadeLevel := [];
     ((levels.all fun m_ ↦ decide (m_.engine < 32) && decide (m_.colour < 8)))),
    (let pos : Nat := 8; let s : State := ringWarm;
     decide (pos < 10) &&
     (match cutoverOf s pos with
      | some (b, c) =>
         decide (c.back = false)
      | _ => false)),
    (let pos : Nat := 0; let s : State := ringBack;
     decide (pos < 10) &&
     (match cutoverOf s pos with
      | some (b, c) =>
         (c.back)
      | _ => false)),
    (let pos : Nat := 0; let s : State := run;
     decide (pos < 10) && decide (cutoverOf s pos = none)),
    (let pos : Nat := 0; let s : State := run;
     decide (pos < 10) && decide (cutoverOf s pos = none)),
    (let pos : Nat := 8; let s : State := ringWarmTwo;
     decide (pos < 10) &&
     (match cutoverOf s pos with
      | some (b, c) =>
         decide (c.back = false) &&
         (match idleSpare (raise15 258 [b, pos, 2] (dropCutover b pos s)) with
          | some sp =>
             true
          | _ => false)
      | _ => false)),
    (let pos : Nat := 8; let s : State := ringWarm;
     decide (pos < 10) &&
     (match cutoverOf s pos with
      | some (b, c) =>
         decide (c.back = false) && decide (idleSpare (raise15 258 [b, pos, 2] (dropCutover b pos s)) = none)
      | _ => false)),
    (let pos : Nat := 0; let s : State := ringBack;
     decide (pos < 10) &&
     (match cutoverOf s pos with
      | some (b, c) =>
         (c.back) &&
         (match c.caller with
          | some o =>
             true
          | _ => false)
      | _ => false)),
    (let bay : Nat := 0; let s : State := ringNoticed;
     decide (bay < 8) &&
     (match tabGet? s.opt.cutovers bay with
      | some c =>
         decide (c.stage = CutStage.noticed)
      | _ => false)),
    (let bay : Nat := 0; let s : State := ringWarm;
     decide (bay < 8) &&
     (match tabGet? s.opt.cutovers bay with
      | some c =>
         decide (c.stage ≠ CutStage.noticed)
      | _ => false)),
    (let bay : Nat := 0; let s : State := ringSwitch;
     decide (bay < 8) &&
     (match tabGet? s.opt.cutovers bay with
      | some c =>
         decide (c.stage = CutStage.switching) && decide (c.back = false)
      | _ => false)),
    (let bay : Nat := 0; let s : State := ringSwitchBack;
     decide (bay < 8) &&
     (match tabGet? s.opt.cutovers bay with
      | some c =>
         decide (c.stage = CutStage.switching) && (c.back)
      | _ => false)),
    (let bay : Nat := 0; let s : State := ringSettled;
     decide (bay < 8) &&
     (match tabGet? s.opt.cutovers bay with
      | some c =>
         decide (c.stage = CutStage.settled) && decide (c.caller = none)
      | _ => false)),
    (let bay : Nat := 0; let s : State := ringSettledFor;
     decide (bay < 8) &&
     (match tabGet? s.opt.cutovers bay with
      | some c =>
         decide (c.stage = CutStage.settled) &&
         (match c.caller with
          | some o =>
             true
          | _ => false)
      | _ => false)),
    (let bay : Nat := 0; let s : State := run;
     decide (bay < 8) && decide (tabGet? s.opt.cutovers bay = none)),
    (let bay : Nat := 0; let s : State := ringBay;
     decide (bay < 10) &&
     (match bayFeeds s bay with
      | some b =>
         true
      | _ => false)),
    (let bay : Nat := 0; let s : State := run;
     decide (bay < 10) && decide (bayFeeds s bay = none)),
    (let bay : Nat := 0;
     decide (bay < 10)),
    (let bay : Nat := 1; let s : State := ringBay;
     decide (bay < 10) && decide ((Machine.bay s bay).use = BayUse.selfTest)),
    (let bay : Nat := 0; let s : State := run;
     decide (bay < 10) && decide ((Machine.bay s bay).use ≠ BayUse.selfTest)),
    (let bay : Nat := 10;
     decide (10 ≤ bay))].all id = true := by
  decide +kernel

theorem witness_SecurityCommands : [
    (let o : Origin := oper; let s : State := run;
     (match beginsAt o 3585 s with
      | some b =>
         true
      | _ => false)),
    (let o : Origin := pgSec; let proposal : Nat := 1; let s : State := propHalf;
     (match beginsAt o 3586 s with
      | some b =>
         (match tabGet? b.sec.proposals proposal with
          | some p =>
             decide (p.state = ProposalState.pending) && decide (sideRecorded o p = false) &&
             decide (nowRef b < p.expiry) && ((p.opApproved || p.pgApproved))
          | _ => false)
      | _ => false)),
    (let o : Origin := opSec; let proposal : Nat := 1; let s : State := propsFull;
     (match beginsAt o 3586 s with
      | some b =>
         (match tabGet? b.sec.proposals proposal with
          | some p =>
             decide (p.state = ProposalState.pending) && decide (sideRecorded o p = false) &&
             decide (nowRef b < p.expiry) && decide ((p.opApproved || p.pgApproved) = false)
          | _ => false)
      | _ => false)),
    (let o : Origin := opSec; let proposal : Nat := 1; let s : State := propsFull;
     (match beginsAt o 3586 s with
      | some b =>
         (match tabGet? b.sec.proposals proposal with
          | some p =>
             decide (p.state = ProposalState.pending) && decide (sideRecorded o p = false) && decide (nowRef b < p.expiry)
          | _ => false)
      | _ => false)),
    (let o : Origin := opSec; let proposal : Nat := 1; let s : State := propsFull;
     (match beginsAt o 3586 s with
      | some b =>
         (match tabGet? b.sec.proposals proposal with
          | some p =>
             decide (p.state = ProposalState.pending) && decide (sideRecorded o p = false) && decide (nowRef b < p.expiry)
          | _ => false)
      | _ => false)),
    (let o : Origin := opSec; let proposal : Nat := 1; let s : State := propOld;
     (match beginsAt o 3586 s with
      | some b =>
         (match tabGet? b.sec.proposals proposal with
          | some p =>
             decide (p.state = ProposalState.pending) && decide (sideRecorded o p = false) && decide (p.expiry ≤ nowRef b)
          | _ => false)
      | _ => false)),
    (let o : Origin := opSec; let proposal : Nat := 1; let s : State := propHalf;
     (match beginsAt o 3586 s with
      | some b =>
         (match tabGet? b.sec.proposals proposal with
          | some p =>
             decide (p.state ≠ ProposalState.pending ∨ sideRecorded o p = true)
          | _ => false)
      | _ => false)),
    (let o : Origin := opSec; let proposal : Nat := 0; let s : State := run;
     (match beginsAt o 3586 s with
      | some b =>
         decide (tabGet? b.sec.proposals proposal = none)
      | _ => false)),
    (let o : Origin := manager; let proposal : Nat := 1; let s : State := propsFull;
     (match beginsAt o 3587 s with
      | some b =>
         (match tabGet? b.sec.proposals proposal with
          | some p =>
             (mayWithdraw o p) && decide (p.state = ProposalState.pending)
          | _ => false)
      | _ => false)),
    (let o : Origin := manager; let proposal : Nat := 1; let s : State := propDone;
     (match beginsAt o 3587 s with
      | some b =>
         (match tabGet? b.sec.proposals proposal with
          | some p =>
             (mayWithdraw o p) && decide (p.state ≠ ProposalState.pending)
          | _ => false)
      | _ => false)),
    (let o : Origin := oper; let proposal : Nat := 1; let s : State := propsFull;
     (match beginsAt o 3587 s with
      | some b =>
         (match tabGet? b.sec.proposals proposal with
          | some p =>
             decide (mayWithdraw o p = false)
          | _ => false)
      | _ => false)),
    (let o : Origin := tenant; let pub : List Byte := (List.replicate 133 0); let nonce : Nat := 0; let s : State := run;
     (match beginsAt o 3841 s with
      | some b =>
         decide (b.sec.unlocked = 0) && decide (pub.length = 133) && decide (nonce < 2 ^ 512) &&
         decide (List.length b.sec.sessions < 64)
      | _ => false)),
    (let o : Origin := tenant; let pub : List Byte := (List.replicate 133 0); let nonce : Nat := 0;
     let s : State := secSessions;
     (match beginsAt o 3841 s with
      | some b =>
         decide (b.sec.unlocked = 0) && decide (pub.length = 133) && decide (nonce < 2 ^ 512) &&
         decide (64 ≤ List.length b.sec.sessions)
      | _ => false)),
    (let o : Origin := tenant; let s : State := secUnlocked;
     (match beginsAt o 3841 s with
      | some b =>
         decide (b.sec.unlocked ≠ 0)
      | _ => false)),
    (let o : Origin := tenant; let session : Nat := 1; let region : Bool := true; let slot : Nat := 0;
     let counter : Nat := 0; let wrapped : List Byte := (List.replicate 80 0); let s : State := secSession;
     (match beginsAt o 3842 s with
      | some b =>
         decide (slot < slotCount) && decide (counter < 2 ^ 32) && decide (wrapped.length = keyBytes region + 16) &&
         (match tabGet? b.sec.sessions session with
          | some x =>
             decide (callerPid o b = some x.pid)
          | _ => false)
      | _ => false)),
    (let o : Origin := tenant; let session : Nat := 1; let region : Bool := true; let slot : Nat := 0;
     let counter : Nat := 0; let wrapped : List Byte := (List.replicate 80 0); let s : State := secSession;
     (match beginsAt o 3842 s with
      | some b =>
         decide (slot < slotCount) && decide (counter < 2 ^ 32) && decide (wrapped.length = keyBytes region + 16) &&
         (match tabGet? b.sec.sessions session with
          | some x =>
             decide (callerPid o b = some x.pid) &&
             (match loadCheck b x region slot counter wrapped with
              | some st =>
                 true
              | _ => false)
          | _ => false)
      | _ => false)),
    (let o : Origin := tenant; let region : Bool := true; let slot : Nat := 0; let counter : Nat := 0;
     let wrapped : List Byte := []; let s : State := run;
     (match beginsAt o 3842 s with
      | some b =>
         decide (slotCount ≤ slot ∨ 2 ^ 32 ≤ counter ∨ wrapped.length ≠ keyBytes region + 16)
      | _ => false)),
    (let o : Origin := manager; let region : Bool := false; let slot : Nat := 0; let target : Nat := 0;
     let direction : Nat := 0; let pid : Nat := 0; let s : State := run;
     (match beginsAt o 3843 s with
      | some b =>
         decide (bindCheck b region slot target direction pid = none) && decide ((pendingProposals b).length < 64)
      | _ => false)),
    (let o : Origin := manager; let region : Bool := false; let slot : Nat := 0; let target : Nat := 0;
     let direction : Nat := 0; let pid : Nat := 0; let s : State := propsFull;
     (match beginsAt o 3843 s with
      | some b =>
         decide (bindCheck b region slot target direction pid = none) && decide (64 ≤ (pendingProposals b).length)
      | _ => false)),
    (let o : Origin := manager; let region : Bool := true; let slot : Nat := 0; let target : Nat := 0;
     let direction : Nat := 0; let pid : Nat := 0; let s : State := run;
     (match beginsAt o 3843 s with
      | some b =>
         (match bindCheck b region slot target direction pid with
          | some st =>
             true
          | _ => false)
      | _ => false)),
    (let o : Origin := oper; let slot : Nat := 0; let s : State := run;
     (match beginsAt o 3844 s with
      | some b =>
         decide (slot < slotCount) && decide (isTenant o = false)
      | _ => false)),
    (let o : Origin := tenant; let region : Bool := false; let slot : Nat := 0; let s : State := secSession;
     (match beginsAt o 3844 s with
      | some b =>
         decide (slot < slotCount) && (isTenant o) &&
         (match slotPid b region slot with
          | some pid =>
             decide (callerPid o b = some pid)
          | _ => false)
      | _ => false)),
    (let o : Origin := tenant; let region : Bool := false; let slot : Nat := 0; let s : State := secForeign;
     (match beginsAt o 3844 s with
      | some b =>
         decide (slot < slotCount) && (isTenant o) &&
         (match slotPid b region slot with
          | some pid =>
             decide (callerPid o b ≠ some pid)
          | _ => false)
      | _ => false)),
    (let o : Origin := oper; let s : State := run;
     (match beginsAt o 4097 s with
      | some b =>
         true
      | _ => false)),
    (let o : Origin := oper; let s : State := run;
     (match beginsAt o 4098 s with
      | some b =>
         true
      | _ => false))].all id = true := by
  decide +kernel

theorem witness_StartEvents : [
    (let s : State := run;
     decide (coldReady s = false)),
    (let s : State := startCold3;
     (coldReady s) && decide (s.start.cfg.attempts = 3)),
    (let o : StartOutcome := { found0 with bootMode := 1 }; let s : State := startCold;
     (coldReady s) && decide (s.start.cfg.attempts ≠ 3) && decide (o.bootMode % 4 = 1 ∨ o.bootMode % 4 = 3)),
    (let o : StartOutcome := found0; let s : State := startCold;
     (coldReady s) && decide (s.start.cfg.attempts ≠ 3) && decide (o.bootMode % 4 = 2)),
    (let o : StartOutcome := { found0 with bootMode := 0 }; let s : State := startCold;
     (coldReady s) && decide (s.start.cfg.attempts ≠ 3) && decide (o.bootMode % 4 = 0) &&
     decide (goodImage (coldPrepared o s).start = none)),
    (let o : StartOutcome := { found0 with bootMode := 0 }; let s : State := startImage;
     (coldReady s) && decide (s.start.cfg.attempts ≠ 3) && decide (o.bootMode % 4 = 0) &&
     (match goodImage (coldPrepared o s).start with
      | some i =>
         true
      | _ => false)),
    (let step : Nat := 0; let s : State := startCold;
     decide (s.start.phase = Phase.cold) && decide (step ≤ 3)),
    (let step : Nat := 4; let s : State := startCold;
     decide (s.start.phase = Phase.cold) && decide (3 < step)),
    (let step : Nat := 0; let s : State := askedL4;
     decide (s.start.phase ≠ Phase.cold) &&
     (match askedFor s 4 0 with
      | some e =>
         decide (step ≤ 3)
      | _ => false)),
    (let step : Nat := 4; let s : State := askedL4;
     decide (s.start.phase ≠ Phase.cold) &&
     (match askedFor s 4 0 with
      | some e =>
         decide (3 < step)
      | _ => false)),
    (let s : State := run;
     decide (s.start.phase ≠ Phase.cold) && decide (askedFor s 4 0 = none)),
    (let s : State := run;
     decide (askedFor s 4 0 = none)),
    (let s : State := askedOften;
     (match askedFor s 4 0 with
      | some e =>
         decide (3 ≤ (recentTimes s 3600000000000 s.rst.l4Times).length)
      | _ => false)),
    (let s : State := askedTried;
     (match askedFor s 4 0 with
      | some e =>
         decide ((recentTimes s 3600000000000 s.rst.l4Times).length < 3) &&
         decide ((warmPrepared e s).start.cfg.attempts = 3)
      | _ => false)),
    (let o : StartOutcome := found0; let s : State := askedL4;
     (match askedFor s 4 0 with
      | some e =>
         decide ((recentTimes s 3600000000000 s.rst.l4Times).length < 3) &&
         decide ((warmPrepared e s).start.cfg.attempts ≠ 3) && (o.residentOk)
      | _ => false)),
    (let s : State := run;
     decide (askedFor s 5 0 = none)),
    (let s : State := askedL5;
     (match askedFor s 5 0 with
      | some e =>
         true
      | _ => false)),
    (let s : State := startHold;
     decide (s.start.phase = Phase.cycleHold)),
    (let s : State := run;
     decide (s.start.phase ≠ Phase.cycleHold)),
    (let s : State := startCycle;
     decide (s.start.phase = Phase.cycleRequested)),
    (let s : State := run;
     decide (s.start.phase ≠ Phase.cycleRequested)),
    (let img : Image := ⟨100, 1, true, 1, 0, 0⟩; let o : Origin := oper; let s : State := flashFor;
     decide (s.start.flashWrite = some (FlashWrite.image img (some o)))),
    (let img : Image := ⟨100, 1, true, 1, 0, 0⟩; let s : State := flashNone;
     decide (s.start.flashWrite = some (FlashWrite.image img none))),
    (let s : State := startCold3;
     (match s.start.flashWrite with
      | some (FlashWrite.copy b) =>
         true
      | _ => false)),
    (let s : State := run;
     decide (s.start.flashWrite = none))].all id = true := by
  decide +kernel

theorem witness_SupplyEvents : [
    (let s : State := supOff;
     decide (s.power.vinOn = false) && decide (s.power.latched = false) && decide (s.power.thermTrip = false) &&
     decide (s.power.modRst = false)),
    (let s : State := run;
     decide (s.power.vinOn = false) && decide (s.power.latched = false) && decide (s.power.thermTrip = false) &&
     (s.power.modRst)),
    (let s : State := supOn;
     ((s.power.vinOn || s.power.latched || s.power.thermTrip))),
    (let s : State := supHeld;
     (s.power.modRst) && (s.power.rails) && decide (s.power.thermTrip = false)),
    (let s : State := run;
     (s.power.modRst) && decide ((s.power.rails && !s.power.thermTrip) = false)),
    (let s : State := supOff;
     decide (s.power.modRst = false)),
    (let s : State := supOn;
     (s.power.pwrOk)),
    (let s : State := run;
     decide (s.power.pwrOk = false)),
    (let s : State := supOn;
     (s.power.vinOn)),
    (let s : State := run;
     decide (s.power.vinOn = false)),
    (let s : State := supOn;
     (s.power.pwrOk)),
    (let s : State := run;
     decide (s.power.pwrOk = false)),
    (let s : State := supOn;
     (s.power.pwrOk)),
    (let s : State := run;
     decide (s.power.pwrOk = false)),
    (let s : State := run;
     decide (s.start.phase = Phase.running)),
    (let s : State := supOff;
     decide (s.start.phase ≠ Phase.running)),
    (let s : State := supRun;
     decide (s.start.phase = Phase.running) && decide (100 ≤ s.power.fullRun) && decide (s.power.capEventRaised = false)),
    (let s : State := supOff;
     decide (s.start.phase ≠ Phase.running)),
    (let code : Nat := 16; let s : State := supOn;
     (s.power.pwrOk) && (s.power.refclk) && decide (s.power.statusOnly = false ∨ code = 16) &&
     (match smbusRegister s code with
      | some bs =>
         true
      | _ => false)),
    (let code : Nat := 0; let s : State := run;
     decide (smbusRegister s code = none)),
    (let code : Nat := 0; let s : State := supOnly;
     (s.power.statusOnly) && decide (code ≠ 16))].all id = true := by
  decide +kernel

theorem witness_TableCommands : [
    (let o : Origin := manager; let table : Nat := 0; let slices : Nat := 1; let g : Nat := 1;
     let elems : List TableElem := [⟨0, [0x00064007, 0x80000000, 0, 0]⟩]; let s : State := run;
     (match beginsAt o 769 s with
      | some b =>
         ([0, 1, 2, 3, 5, 6].contains table) && (sliceMaskGood slices) && decide (elems.isEmpty = false) &&
         (elems.all (elemGood table)) &&
         decide ((table == 0 && elems.any fun e_ ↦ elemPid e_ != elemPid (elems.headD { index := 0, words := [] })) = false) &&
         decide (((maskSlices slices).any fun n_ ↦ g != (generation (slice b n_) table (elemPid (elems.headD { index := 0, words := [] })) + 1) % 256) = false) &&
         decide (¬(table = 0 ∧ ((maskSlices slices).any fun n_ ↦ elems.any (elemLocked (slice b n_))) = true)) &&
         (match writeSlices table g elems (maskSlices slices) (startWork 4 2 (elems.length * entryCost table) b) with
          | some t =>
             true
          | _ => false)
      | _ => false)),
    (let o : Origin := manager; let table : Nat := 0; let slices : Nat := 1; let g : Nat := 1;
     let elems : List TableElem := [⟨0, [0x00064007, 0x80000000, 0, 0]⟩]; let s : State := twoCuckoo;
     (match beginsAt o 769 s with
      | some b =>
         ([0, 1, 2, 3, 5, 6].contains table) && (sliceMaskGood slices) && decide (elems.isEmpty = false) &&
         (elems.all (elemGood table)) &&
         decide ((table == 0 && elems.any fun e_ ↦ elemPid e_ != elemPid (elems.headD { index := 0, words := [] })) = false) &&
         decide (((maskSlices slices).any fun n_ ↦ g != (generation (slice b n_) table (elemPid (elems.headD { index := 0, words := [] })) + 1) % 256) = false) &&
         decide (¬(table = 0 ∧ ((maskSlices slices).any fun n_ ↦ elems.any (elemLocked (slice b n_))) = true)) &&
         decide (writeSlices table g elems (maskSlices slices) (startWork 4 2 (elems.length * entryCost table) b) = none)
      | _ => false)),
    (let o : Origin := manager; let table : Nat := 0; let slices : Nat := 1; let g : Nat := 0;
     let elems : List TableElem := [⟨0, [0x00064007, 0x80000000, 0, 0]⟩]; let s : State := run;
     (match beginsAt o 769 s with
      | some b =>
         ([0, 1, 2, 3, 5, 6].contains table) && (sliceMaskGood slices) && decide (elems.isEmpty = false) &&
         (elems.all (elemGood table)) &&
         decide ((table == 0 && elems.any fun e_ ↦ elemPid e_ != elemPid (elems.headD { index := 0, words := [] })) = false) &&
         (((maskSlices slices).any fun n_ ↦ g != (generation (slice b n_) table (elemPid (elems.headD { index := 0, words := [] })) + 1) % 256))
      | _ => false)),
    (let o : Origin := manager; let table : Nat := 0; let slices : Nat := 0; let elems : List TableElem := [];
     let s : State := run;
     (match beginsAt o 769 s with
      | some b =>
         decide ([0, 1, 2, 3, 5, 6].contains table = false ∨ sliceMaskGood slices = false ∨ elems.all (elemGood table) = false)
      | _ => false)),
    (let o : Origin := oper; let table : Nat := 0; let slice : Nat := 0; let first : Nat := 0; let amount : Nat := 1;
     let s : State := run;
     (match beginsAt o 770 s with
      | some b =>
         decide (table ≤ 6) && decide (slice < 8) && decide (0 < amount) && decide (amount ≤ 256) &&
         decide (first + amount ≤ tableEntries (Machine.slice b slice) table)
      | _ => false)),
    (let o : Origin := oper; let table : Nat := 0; let slice : Nat := 0; let first : Nat := 0; let amount : Nat := 0;
     let s : State := run;
     (match beginsAt o 770 s with
      | some b =>
         decide (6 < table ∨ 8 ≤ slice ∨ amount = 0 ∨ 256 < amount ∨ tableEntries (Machine.slice b slice) table < first + amount)
      | _ => false)),
    (let o : Origin := manager; let slices : Nat := 1; let pid : Nat := 0; let g : Nat := 0; let s : State := run;
     (match beginsAt o 771 s with
      | some b =>
         (sliceMaskGood slices) && decide (pid < 4096) && decide (g < 256) &&
         decide (((maskSlices slices).any fun n_ ↦ (List.filter (fun e_ ↦ behind pid g e_.snd) (slice b n_).dest).any fun e_ ↦ (lockOf (slice b n_) (bucketOf (slice b n_) e_.fst)).isSome) = false)
      | _ => false)),
    (let o : Origin := manager; let slices : Nat := 0; let pid : Nat := 0; let g : Nat := 0; let s : State := run;
     (match beginsAt o 771 s with
      | some b =>
         decide (sliceMaskGood slices = false ∨ 4096 ≤ pid ∨ 256 ≤ g)
      | _ => false)),
    (let o : Origin := manager; let slices : Nat := 1; let params : RouteParams := ⟨0, 0, 2048, 2049, 4, false, 1000⟩;
     let s : State := run;
     (match beginsAt o 772 s with
      | some b =>
         (sliceMaskGood slices) && (paramsGood (filledParams params))
      | _ => false)),
    (let o : Origin := manager; let slices : Nat := 0; let params : RouteParams := ⟨0, 0, 2048, 2049, 4, false, 1000⟩;
     let s : State := run;
     (match beginsAt o 772 s with
      | some b =>
         decide (sliceMaskGood slices = false ∨ paramsGood (filledParams params) = false)
      | _ => false)),
    (let o : Origin := manager; let value : Nat := 0; let s : State := run;
     (match beginsAt o 777 s with
      | some b =>
         decide (value < 256)
      | _ => false)),
    (let o : Origin := manager; let value : Nat := 256; let s : State := run;
     (match beginsAt o 777 s with
      | some b =>
         decide (256 ≤ value)
      | _ => false)),
    (let o : Origin := manager; let pid : Nat := 0; let ports : List Word := (List.replicate 64 0); let s : State := run;
     (match beginsAt o 773 s with
      | some b =>
         decide (pid < 4095) && decide (ports.length = 64) && decide ((pendingProposals b).length < 64)
      | _ => false)),
    (let o : Origin := manager; let pid : Nat := 0; let ports : List Word := (List.replicate 64 0);
     let s : State := propsFull;
     (match beginsAt o 773 s with
      | some b =>
         decide (pid < 4095) && decide (ports.length = 64) && decide (64 ≤ (pendingProposals b).length)
      | _ => false)),
    (let o : Origin := manager; let pid : Nat := 0; let ports : List Word := []; let s : State := run;
     (match beginsAt o 773 s with
      | some b =>
         decide (4095 ≤ pid ∨ ports.length ≠ 64)
      | _ => false)),
    (let o : Origin := manager; let pid : Nat := 7; let notify : List Nat := []; let s : State := run;
     (match beginsAt o 774 s with
      | some b =>
         decide (pid ≠ 0) && decide (pid < 4095) && ((partition b pid).defined) && decide (notify.length ≤ 64) &&
         (notify.all (groupOf b pid))
      | _ => false)),
    (let o : Origin := manager; let pid : Nat := 0; let s : State := run;
     (match beginsAt o 774 s with
      | some b =>
         decide (pid = 0 ∨ 4095 ≤ pid ∨ (partition b pid).defined = false)
      | _ => false)),
    (let o : Origin := manager; let pid : Nat := 7; let epoch : Nat := 5; let s : State := fencedRun;
     (match beginsAt o 775 s with
      | some b =>
         decide (pid ≠ 0) && decide (pid < 4095) && ((partition b pid).defined) && ((partition b pid).fenced) &&
         decide (epoch < 65536) && (serialAhead 65536 epoch (partition b pid).epoch)
      | _ => false)),
    (let o : Origin := manager; let pid : Nat := 7; let epoch : Nat := 0; let s : State := run;
     (match beginsAt o 775 s with
      | some b =>
         decide (pid ≠ 0) && decide (pid < 4095) && ((partition b pid).defined) &&
         decide ((partition b pid).fenced = false) && decide (epoch < 65536)
      | _ => false)),
    (let o : Origin := manager; let pid : Nat := 7; let epoch : Nat := 0; let s : State := fencedRun;
     (match beginsAt o 775 s with
      | some b =>
         decide (pid ≠ 0) && decide (pid < 4095) && ((partition b pid).defined) && ((partition b pid).fenced) &&
         decide (epoch < 65536) && decide (serialAhead 65536 epoch (partition b pid).epoch = false)
      | _ => false)),
    (let o : Origin := manager; let pid : Nat := 7; let s : State := fencedRun;
     (match beginsAt o 776 s with
      | some b =>
         decide (pid ≠ 0) && decide (pid < 4095) && ((partition b pid).defined) && ((partition b pid).fenced)
      | _ => false)),
    (let o : Origin := manager; let pid : Nat := 7; let s : State := run;
     (match beginsAt o 776 s with
      | some b =>
         decide (pid ≠ 0) && decide (pid < 4095) && ((partition b pid).defined) && decide ((partition b pid).fenced = false)
      | _ => false))].all id = true := by
  decide +kernel

theorem witness_TelemetryEvents : [
    (let s : State := run;
     decide (s.fab.holdoff = false)),
    (let s : State := telNear;
     (s.fab.holdoff) && decide (s.fab.generation = s.fab.told)),
    (let s : State := telChanged;
     (s.fab.holdoff) && decide (s.fab.generation ≠ s.fab.told)),
    (let s : State := run;
     decide (s.tele.sampleHoldoff = false)),
    (let s : State := telSample;
     (s.tele.sampleHoldoff) && (s.tele.sampleNew)),
    (let s : State := telSampleOld;
     (s.tele.sampleHoldoff) && decide (s.tele.sampleNew = false)),
    (let s : State := run;
     decide (s.tele.crumbQueue = [])),
    (let s : State := telCrumb;
     (match s.tele.crumbQueue with
      | c :: cs =>
         (mayStart s 5 0)
      | _ => false)),
    (let s : State := telCrumbLate;
     (match s.tele.crumbQueue with
      | c :: cs =>
         decide (mayStart s 5 0 = false)
      | _ => false)),
    (let s : State := run;
     decide (s.tele.sampleQueue = [])),
    (let s : State := telRec;
     (match s.tele.sampleQueue with
      | r :: rs =>
         (mayStart (modTele (fun t_ ↦ { counters := t_.counters, filters := t_.filters, crumbQueue := t_.crumbQueue, crumbLost := t_.crumbLost, traceCategories := t_.traceCategories, tracePid := t_.tracePid, sampleQueue := rs, sampleNew := t_.sampleNew, sampleHoldoff := t_.sampleHoldoff, snapshots := t_.snapshots, jtag := t_.jtag, dumpSeq := t_.dumpSeq }) s) 5 0)
      | _ => false)),
    (let s : State := telRecLate;
     (match s.tele.sampleQueue with
      | r :: rs =>
         decide (mayStart (modTele (fun t_ ↦ { counters := t_.counters, filters := t_.filters, crumbQueue := t_.crumbQueue, crumbLost := t_.crumbLost, traceCategories := t_.traceCategories, tracePid := t_.tracePid, sampleQueue := rs, sampleNew := t_.sampleNew, sampleHoldoff := t_.sampleHoldoff, snapshots := t_.snapshots, jtag := t_.jtag, dumpSeq := t_.dumpSeq }) s) 5 0 = false)
      | _ => false)),
    (let mailbox : Nat := 0; let seq : Nat := 0; let s : State := run;
     decide (List.find? (fun x_ ↦ x_.origin.mailbox == mailbox && x_.origin.seq == seq) s.tele.snapshots = none)),
    (let mailbox : Nat := 0; let seq : Nat := 1; let s : State := telSnap;
     (match List.find? (fun x_ ↦ x_.origin.mailbox == mailbox && x_.origin.seq == seq) s.tele.snapshots with
      | some x =>
         true
      | _ => false))].all id = true := by
  decide +kernel

theorem witness_TimeCommands : [
    (let o : Origin := oper; let domain : Nat := 0; let t96 : Nat := 0; let s : State := run;
     (match beginsAt o 2561 s with
      | some b =>
         decide (domain ≤ 127) && decide (t96 / 2 ^ 16 % 2 ^ 32 < 1000000000) && decide (b.time.phase = TimePhase.unset) &&
         decide (b.time.priority < 255) && decide (b.time.tie = none)
      | _ => false)),
    (let o : Origin := oper; let source : Nat := 0; let domain : Nat := 0; let t96 : Nat := 0; let s : State := run;
     (match beginsAt o 2561 s with
      | some b =>
         decide (source < 2) && decide (domain ≤ 127) && decide (t96 / 2 ^ 16 % 2 ^ 32 < 1000000000) &&
         decide (b.time.phase = TimePhase.unset) && decide (b.time.priority < 255) && decide (b.time.tie = none)
      | _ => false)),
    (let o : Origin := oper; let source : Nat := 0; let domain : Nat := 0; let t96 : Nat := 0; let s : State := timeLocked;
     (match beginsAt o 2561 s with
      | some b =>
         decide (source ≤ 2) && decide (domain ≤ 127) && decide (t96 / 2 ^ 16 % 2 ^ 32 < 1000000000) &&
         decide (b.time.phase ≠ TimePhase.unset ∨ 255 ≤ b.time.priority)
      | _ => false)),
    (let o : Origin := oper; let source : Nat := 0; let domain : Nat := 128; let t96 : Nat := 0; let s : State := run;
     (match beginsAt o 2561 s with
      | some b =>
         decide (2 < source ∨ 127 < domain ∨ 1000000000 ≤ t96 / 2 ^ 16 % 2 ^ 32)
      | _ => false)),
    (let o : Origin := oper; let s : State := timeRefused;
     (match beginsAt o 2562 s with
      | some b =>
         (b.time.jumpRefused) && decide (b.time.accept = none)
      | _ => false)),
    (let o : Origin := oper; let s : State := timeAccept;
     (match beginsAt o 2562 s with
      | some b =>
         (b.time.jumpRefused) &&
         (match b.time.accept with
          | some x =>
             true
          | _ => false)
      | _ => false)),
    (let o : Origin := oper; let s : State := run;
     (match beginsAt o 2562 s with
      | some b =>
         decide (b.time.jumpRefused = false)
      | _ => false)),
    (let o : Origin := oper; let ns : Nat := 50; let s : State := run;
     (match beginsAt o 2563 s with
      | some b =>
         decide (50 ≤ ns) && decide (ns ≤ 1000000000)
      | _ => false)),
    (let o : Origin := oper; let ns : Nat := 0; let s : State := run;
     (match beginsAt o 2563 s with
      | some b =>
         decide (ns < 50 ∨ 1000000000 < ns)
      | _ => false)),
    (let o : Origin := manager; let port : Nat := 0; let asym : Int := 0; let s : State := run;
     (match beginsAt o 2564 s with
      | some b =>
         (portKnown b port) && decide (beyond asym 10000 = false)
      | _ => false)),
    (let o : Origin := manager; let port : Nat := 0; let asym : Int := 100000; let s : State := run;
     (match beginsAt o 2564 s with
      | some b =>
         decide (portKnown b port = false ∨ beyond asym 10000 = true)
      | _ => false)),
    (let o : Origin := manager; let value : Nat := 0; let s : State := run;
     (match beginsAt o 2565 s with
      | some b =>
         decide (value ≤ 255)
      | _ => false)),
    (let o : Origin := manager; let value : Nat := 256; let s : State := run;
     (match beginsAt o 2565 s with
      | some b =>
         decide (255 < value)
      | _ => false)),
    (let o : Origin := oper; let s : State := run;
     (match beginsAt o 2566 s with
      | some b =>
         true
      | _ => false)),
    (let o : Origin := manager; let most : Nat := 1; let s : State := run;
     (match beginsAt o 2567 s with
      | some b =>
         decide (0 < most) && decide (most ≤ 256)
      | _ => false)),
    (let o : Origin := manager; let most : Nat := 0; let s : State := run;
     (match beginsAt o 2567 s with
      | some b =>
         decide (most = 0 ∨ 256 < most)
      | _ => false)),
    (let o : Origin := oper; let s : State := run;
     (match beginsAt o 2568 s with
      | some b =>
         true
      | _ => false))].all id = true := by
  decide +kernel

theorem witness_TimeEvents : [
    (let s : State := tmeMaster;
     decide (s.time.phase = TimePhase.master)),
    (let s : State := run;
     decide (s.time.phase ≠ TimePhase.master)),
    (let port : Nat := 0; let pkt : Packet := pkt0; let s : State := run;
     (portKnown s port) && decide ((Machine.port s port).phase ≠ PortPhase.up ∨ pKind pkt ≠ 9 ∨ xTtType pkt ≠ 1)),
    (let port : Nat := 0; let pkt : Packet := { timePkt 0 0 with payload := List.replicate 64 0 }; let arrival : Nat := 0;
     let s : State := tmeUp;
     (portKnown s port) && decide ((Machine.port s port).phase = PortPhase.up) && decide (pKind pkt = 9) &&
     decide (xTtType pkt = 1) && decide ((heardTime port pkt arrival s).time.parent ≠ some port)),
    (let port : Nat := 0; let pkt : Packet := timePkt 0 0x00008000; let arrival : Nat := 0; let s : State := tmeSent;
     (portKnown s port) && decide ((Machine.port s port).phase = PortPhase.up) && decide (pKind pkt = 9) &&
     decide (xTtType pkt = 1) && decide ((heardTime port pkt arrival s).time.parent = some port) &&
     (match sampleOf (heardTime port pkt arrival s) port pkt arrival with
      | some off =>
         true
      | _ => false)),
    (let port : Nat := 0; let pkt : Packet := timePkt 0 0; let arrival : Nat := 0; let s : State := tmeUp;
     (portKnown s port) && decide ((Machine.port s port).phase = PortPhase.up) && decide (pKind pkt = 9) &&
     decide (xTtType pkt = 1) && decide ((heardTime port pkt arrival s).time.parent = some port) &&
     decide (sampleOf (heardTime port pkt arrival s) port pkt arrival = none)),
    (let port : Nat := 1; let s : State := run;
     decide (portKnown s port = false)),
    (let s : State := tmeParent;
     (match s.time.parent with
      | some p =>
         true
      | _ => false)),
    (let s : State := run;
     decide (s.time.parent = none)),
    (let port : Nat := 0; let s : State := run;
     (portKnown s port)),
    (let port : Nat := 1; let s : State := run;
     decide (portKnown s port = false)),
    (let s : State := tmeAcq;
     decide (s.time.phase = TimePhase.acquiring)),
    (let s : State := run;
     decide (s.time.phase ≠ TimePhase.acquiring)),
    (let s : State := timeAccept;
     (match s.time.accept with
      | some a =>
         true
      | _ => false)),
    (let s : State := run;
     decide (s.time.accept = none)),
    (let s : State := tmeTie1;
     (match s.time.tie with
      | some w =>
         decide (w.source = 1) && decide (s.time.phase = TimePhase.unset)
      | _ => false)),
    (let s : State := tmeTied1;
     (match s.time.tie with
      | some w =>
         decide (w.source = 1) && decide (s.time.phase ≠ TimePhase.unset)
      | _ => false)),
    (let s : State := tmeTie0;
     (match s.time.tie with
      | some w =>
         decide (w.source ≠ 1)
      | _ => false)),
    (let s : State := tmePpsFar;
     decide (s.time.tie = none) && decide (s.time.phase = TimePhase.master) && (s.time.discipline) &&
     (beyond (ppsOffset s) (threshUnits s))),
    (let s : State := tmePps;
     decide (s.time.tie = none) && decide (s.time.phase = TimePhase.master) && (s.time.discipline) &&
     decide (beyond (ppsOffset s) (threshUnits s) = false)),
    (let s : State := run;
     decide (s.time.tie = none) && decide (s.time.discipline = false)),
    (let s : State := run;
     decide (s.time.tie = none) && decide (s.time.phase ≠ TimePhase.master)),
    (let s : State := timeLocked;
     decide (s.time.phase = TimePhase.master ∨ s.time.phase = TimePhase.locked ∨ s.time.phase = TimePhase.holdover) &&
     decide (s.time.ppsHigh = false)),
    (let s : State := run;
     decide (s.time.phase = TimePhase.unset ∨ s.time.phase = TimePhase.acquiring) && decide (s.time.ppsHigh = false)),
    (let s : State := tmeHigh;
     (s.time.ppsHigh)),
    (let s : State := run;
     decide (s.time.ppsHigh = false)),
    (let mport : Nat := 0; let s : State := tmeTie0;
     decide (mport < 4) &&
     (match s.time.tie with
      | some w =>
         decide (w.source = 0) &&
         (let domain := w.domain;
             decide (w.offsets.length < 15))
      | _ => false)),
    (let mport : Nat := 0; let s : State := tmeTie15;
     decide (mport < 4) &&
     (match s.time.tie with
      | some w =>
         decide (w.source = 0) &&
         (let domain := w.domain;
             decide (15 ≤ w.offsets.length) && decide (s.time.phase = TimePhase.unset))
      | _ => false)),
    (let mport : Nat := 0; let s : State := tmeTied15;
     decide (mport < 4) &&
     (match s.time.tie with
      | some w =>
         decide (w.source = 0) &&
         (let domain := w.domain;
             decide (15 ≤ w.offsets.length) && decide (s.time.phase ≠ TimePhase.unset))
      | _ => false)),
    (let mport : Nat := 0; let s : State := run;
     decide (mport < 8) && decide (s.time.tie = none)),
    (let mport : Nat := 0; let domain : Nat := 1; let s : State := tmeTie0;
     decide (mport < 8) &&
     (match s.time.tie with
      | some w =>
         decide (w.source ≠ 0 ∨ w.domain ≠ domain)
      | _ => false)),
    (let mport : Nat := 8;
     decide (8 ≤ mport)),
    (let s : State := tmeTie0;
     (match s.time.tie with
      | some w =>
         decide (w.source = 0)
      | _ => false)),
    (let s : State := tmeTie1;
     (match s.time.tie with
      | some w =>
         decide (w.source ≠ 0)
      | _ => false)),
    (let s : State := run;
     decide (s.time.tie = none))].all id = true := by
  decide +kernel

theorem witness_WinnowCommands : [
    (let o : Origin := manager; let pid : Nat := 0; let setting : Policy := policy0; let s : State := run;
     (match beginsAt o 2305 s with
      | some b =>
         decide (policyCheck b pid setting = none) && decide (setting.diversity = (policy b pid).diversity)
      | _ => false)),
    (let o : Origin := manager; let pid : Nat := 0; let setting : Policy := { policy0 with diversity := 3 };
     let s : State := run;
     (match beginsAt o 2305 s with
      | some b =>
         decide (policyCheck b pid setting = none) && decide (setting.diversity ≠ (policy b pid).diversity) &&
         decide ((pendingProposals b).length < 64)
      | _ => false)),
    (let o : Origin := manager; let pid : Nat := 0; let setting : Policy := { policy0 with diversity := 16 };
     let s : State := run;
     (match beginsAt o 2305 s with
      | some b =>
         (match policyCheck b pid setting with
          | some st =>
             true
          | _ => false)
      | _ => false)),
    (let o : Origin := manager; let entries : List (Nat × Nat × TagSet) := []; let s : State := run;
     (match beginsAt o 2306 s with
      | some b =>
         (entries.all tagGood)
      | _ => false)),
    (let o : Origin := manager; let entries : List (Nat × Nat × TagSet) := [(0, (0, ⟨2 ^ 32 - 1, 0, 0, 0⟩))];
     let s : State := run;
     (match beginsAt o 2306 s with
      | some b =>
         decide (entries.all tagGood = false)
      | _ => false)),
    (let o : Origin := manager; let subject : PinSubject := .poppySet 2048 255; let s : State := run;
     (match beginsAt o 2307 s with
      | some b =>
         decide (pinDenied o b subject = false) && (pinGood b subject) && decide (pinConflict b subject = false)
      | _ => false)),
    (let o : Origin := manager; let subject : PinSubject := .replica 0 0 10; let s : State := winnowPinned;
     (match beginsAt o 2307 s with
      | some b =>
         decide (pinDenied o b subject = false) && (pinGood b subject) && (pinConflict b subject)
      | _ => false)),
    (let o : Origin := tenant; let subject : PinSubject := .poppySet 2048 255; let s : State := run;
     (match beginsAt o 2307 s with
      | some b =>
         (pinDenied o b subject)
      | _ => false)),
    (let o : Origin := manager; let subject : PinSubject := .poppySet 2048 255; let s : State := run;
     (match beginsAt o 2308 s with
      | some b =>
         decide (pinDenied o b subject = false) && (unpinGood b subject)
      | _ => false)),
    (let o : Origin := manager; let subject : PinSubject := .poppySet 9999 255; let s : State := run;
     (match beginsAt o 2308 s with
      | some b =>
         decide (pinDenied o b subject = false) && decide (unpinGood b subject = false)
      | _ => false)),
    (let o : Origin := manager; let engine : Nat := 0; let mask : CrustMask := ⟨true, 4, 0, 150, 50⟩; let s : State := run;
     (match beginsAt o 2309 s with
      | some b =>
         decide (engine < 32) && decide (mask.maxLanes ≤ 32) && decide (mask.pairs < 2 ^ 64) &&
         decide (mask.setUp < 65536) && decide (mask.tearDown < mask.setUp) &&
         decide ((fibrePairs.any fun x_ ↦ b.winnow.crustPins.contains (pairKey engine x_.fst x_.snd) && !maskPermits mask x_.fst x_.snd) = false)
      | _ => false)),
    (let o : Origin := manager; let engine : Nat := 0; let mask : CrustMask := ⟨true, 4, 0, 150, 50⟩;
     let s : State := winnowPinned;
     (match beginsAt o 2309 s with
      | some b =>
         decide (engine < 32) && decide (mask.maxLanes ≤ 32) && decide (mask.pairs < 2 ^ 64) &&
         decide (mask.setUp < 65536) && decide (mask.tearDown < mask.setUp) &&
         ((fibrePairs.any fun x_ ↦ b.winnow.crustPins.contains (pairKey engine x_.fst x_.snd) && !maskPermits mask x_.fst x_.snd))
      | _ => false)),
    (let o : Origin := manager; let engine : Nat := 0; let mask : CrustMask := ⟨true, 99, 0, 150, 50⟩; let s : State := run;
     (match beginsAt o 2309 s with
      | some b =>
         decide (32 ≤ engine ∨ 32 < mask.maxLanes ∨ mask.setUp ≤ mask.tearDown)
      | _ => false)),
    (let o : Origin := oper; let first : Nat := 0; let amount : Nat := 1; let s : State := run;
     (match beginsAt o 2310 s with
      | some b =>
         decide (0 < amount) && decide (amount ≤ 256) && decide (first < 2 ^ 32)
      | _ => false)),
    (let o : Origin := oper; let first : Nat := 0; let amount : Nat := 0; let s : State := run;
     (match beginsAt o 2310 s with
      | some b =>
         decide (amount = 0 ∨ 256 < amount ∨ 2 ^ 32 ≤ first)
      | _ => false))].all id = true := by
  decide +kernel

/-- An address of the device's own, and one that is not. -/
theorem witness_ManagementEvents_addresses : (∃ (s : State) (target : Nat), (mgmtPort s 0).up = true ∧ ownAddress s 0 target = true) ∧
    ∃ (s : State) (target : Nat), (mgmtPort s 0).up = true ∧ ownAddress s 0 target = false :=
  ⟨⟨mgeUp, linkLocal 0, by decide +kernel, by simp [ownAddress]⟩, ⟨mgeUp, linkLocal 0 + 1, by decide +kernel, by
    have h : (netConfig mgeUp (networkOf 0)).1 = 0 := by decide +kernel
    simp [ownAddress, h]⟩⟩

end Sys2Proof.Tests
end

section
/-! ## Commands on units

How a command on a unit of the device ends (01 R11, 03 R86). -/

namespace Sys2Proof.Machine

@[simp] theorem onUnit_true (t : State) : onUnit true t = .next t := rfl
@[simp] theorem onUnit_false (t : State) : onUnit false t = .fault .noSuchUnit := rfl

/-- Every meaning is an effect on the unit that the command names. There are two kinds: a meaning that names a unit is
written with `onUnit` and the very test that `unitNamed` gives for it, and one that names none is `.next t`, which is
`onUnit true t`. So after the split by command both sides are the same term. -/
theorem exec_eq_onUnit (i : Instr) (s : State) : ∃ t, exec i s = onUnit (unitNamed i s) t := by
  cases i <;> exact ⟨_, rfl⟩

/-- Settles O5: the guard of every meaning is the existence of the unit that the command names. -/
theorem unitsDecide : Obligations.UnitsDecide := by
  unfold Obligations.UnitsDecide
  intro i s
  obtain ⟨t, ht⟩ := exec_eq_onUnit i s
  constructor
  · intro hknown
    exact ⟨t, by rw [ht, hknown, onUnit_true]⟩
  · intro hunknown
    rw [ht, hunknown, onUnit_false]

end Sys2Proof.Machine
end

section
/-! ## Islands, agents and registers (chapter 1, 19 19.8) -/

namespace Sys2Proof.Machine

/-- A write staged for a register of a known island takes effect, whatever hardware writes beside it (01 R21). -/
theorem execRegisterWrite_staged {addr : Nat} {hw : Option Word} {p : Nat} {v : Word} {s : State}
    (hk : islandKnown (addrIsland addr) = true) (hf : s.ctl.staged.find? (fun x => x.1 == addr) = some (p, v)) :
    execRegisterWrite addr hw s = .next (modCtl (fun c => { c with
      regs := tabSet regReset c.regs addr v, staged := c.staged.erase (addr, v) }) s) := by
  simp only [execRegisterWrite, hk, hf, onUnit_true]

/-- With no write staged, an update by hardware of an assigned register stands (01 R21). -/
theorem execRegisterWrite_hardware {addr : Nat} {v : Word} {s : State} (hk : islandKnown (addrIsland addr) = true)
    (hf : s.ctl.staged.find? (fun x => x.1 == addr) = none) (ha : Config.regAssigned addr = true) :
    execRegisterWrite addr (some v) s = .next (modCtl (fun c => { c with
      regs := tabSet regReset c.regs addr v }) s) := by
  simp only [execRegisterWrite, hk, hf, ha, if_true, onUnit_true]

/-- A crossing of a given depth after one delivery: the source's entries move into the queue as far as they have room,
and the oldest entry of the queue becomes usable (01 R24, R26). -/
def Crossing.deliver (depth : Nat) (x : Crossing) (entry : Option Word) : Crossing :=
  let all := x.held ++ entry.toList
  let room := Nat.max 1 depth - x.queue.length
  let q := x.queue ++ all.take room
  { held := all.drop room, queue := q.drop 1, usable := x.usable ++ q.take 1 }

/-- A delivery loses no entry and keeps their order (01 R25, R26). -/
theorem Crossing.deliver_entries (depth : Nat) (x : Crossing) (entry : Option Word) :
    (x.deliver depth entry).usable ++ (x.deliver depth entry).queue ++ (x.deliver depth entry).held =
      x.usable ++ x.queue ++ x.held ++ entry.toList := by
  simp only [Crossing.deliver, List.append_assoc]
  rw [← List.append_assoc (List.take 1 _), List.take_append_drop, List.append_assoc, List.take_append_drop]

/-- A delivery fills no queue beyond its depth. -/
theorem Crossing.deliver_queue_length (depth : Nat) (x : Crossing) (entry : Option Word) :
    (x.deliver depth entry).queue.length ≤ Nat.max depth x.queue.length := by
  change _ ≤ max depth x.queue.length
  have hroom : ∀ n, Nat.max 1 n = max 1 n := fun _ => rfl
  simp only [Crossing.deliver, hroom, List.length_drop, List.length_append, List.length_take]
  omega

/-- A crossing into an island out of reset makes one delivery. -/
theorem execCrossingDelivery_delivers {src dst : Nat} {entry : Option Word} {s : State} (hs : islandKnown src = true)
    (hd : islandKnown dst = true) (hr : (island s dst).dataReset = false) :
    execCrossingDelivery src dst entry s = .next (modCtl (fun c => { c with
      crossings := tabSet crossingReset c.crossings (crossKey src dst)
        ((crossing s (crossKey src dst)).deliver (Config.crossingDepth (crossKey src dst)) entry) }) s) := by
  simp [execCrossingDelivery, Crossing.deliver, hs, hd, hr]

@[simp] theorem coldHold_link (s : State) : (coldHold s).link = State.reset.link := by
  simp [coldHold, clearAll, clearChip]

/-- A disturbing instruction holds the device as MOD_RST_N does (19 R609). -/
theorem execJtagInstructionLoad_disturbs {code : Nat} {s : State} (hp : s.power.pwrOk = true) (hc : code < 256)
    (hd : disturbs code = true) : execJtagInstructionLoad code s = .next
      (modStart (fun st => { st with phase := .test }) (modTele (fun t => { t with jtag := code }) (coldHold s))) := by
  simp [execJtagInstructionLoad, hp, Nat.not_le.2 hc, hd]

/-- Any other instruction leaves the test state; one outside Table 19.6 is BYPASS while debug is locked (19 R606). -/
theorem execJtagInstructionLoad_undisturbing {code : Nat} {s : State} (hp : s.power.pwrOk = true) (hc : code < 256)
    (hd : disturbs code = false) : execJtagInstructionLoad code s = .next (modTele (fun t => { t with
      jtag := if publicInstruction code || testBitN s.sec.unlocked 3 then code else 0xFF }) (leaveTest s)) := by
  simp [execJtagInstructionLoad, hp, Nat.not_le.2 hc, hd]

theorem execJtagTestLogicReset_powered {s : State} (hp : s.power.pwrOk = true) :
    execJtagTestLogicReset s = .next (modTele (fun t => { t with jtag := 2 }) (leaveTest s)) := by
  simp [execJtagTestLogicReset, hp]

/-- Settles O41: each clause follows its event's meaning along the branch that the clause's conditions choose. -/
theorem controlEvents : Obligations.ControlEvents := by
  unfold Obligations.ControlEvents
  and_intros
  -- CONTROL_AGENT_ACCESS
  · intro isl sent a as s hk ha
    change execControlAgentAccess isl sent s = _
    simp [execControlAgentAccess, hk, ha]
  · intro isl sent s hk ha
    change execControlAgentAccess isl sent s = _
    simp [execControlAgentAccess, hk, ha]
  -- REGISTER_WRITE
  · intro addr hw p v s hk hf
    exact ⟨_, execRegisterWrite_staged hk hf, rfl, rfl⟩
  · intro addr v s hk hf ha
    exact ⟨_, execRegisterWrite_hardware hk hf ha, rfl, rfl⟩
  -- ADDR_ERR_CLEAR
  · intro isl s hk
    change execAddrErrClear isl false s = _
    simp [execAddrErrClear, hk]
  · intro isl s hk
    change execAddrErrClear isl true s = _
    simp [execAddrErrClear, hk]
  -- AGENT_TIMEOUT
  · intro isl addr s hk ha
    change execAgentTimeout isl addr s = _
    simp only [execAgentTimeout, hk, ha, if_true, onUnit_true]
  · intro isl addr s hk ha
    change execAgentTimeout isl addr s = _
    simp only [execAgentTimeout, hk, ha, Bool.false_eq_true, if_false, onUnit_true]
  -- AGENT_EVENT_DELIVERY
  · intro isl e es s hk he
    change execAgentEventDelivery isl s = _
    simp only [execAgentEventDelivery, hk, he, onUnit_true]
  · intro isl s hk he
    change execAgentEventDelivery isl s = _
    simp only [execAgentEventDelivery, hk, he, onUnit_true]
  -- CROSSING_DELIVERY
  · intro src dst entry s hs hd hr
    change execCrossingDelivery src dst entry s = _
    simp [execCrossingDelivery, hs, hd, hr]
  · intro src dst entry s hs hd hr
    exact ⟨_, execCrossingDelivery_delivers hs hd hr, _, rfl, Crossing.deliver_entries _ _ _,
      Crossing.deliver_queue_length _ _ _⟩
  -- PLL_UNLOCK
  · intro isl s hk hl
    change execPllUnlock isl s = _
    simp [execPllUnlock, hk, hl]
  · intro isl s hk hl hnot
    have hcluster : ¬(0x10 ≤ isl ∧ isl < 0x30) := by omega
    change execPllUnlock isl s = _
    simp only [execPllUnlock, hk, hl, hcluster, if_true, if_false, onUnit_true]
  · intro isl s hk hl hlow hhigh
    have hcluster : 0x10 ≤ isl ∧ isl < 0x30 := ⟨hlow, hhigh⟩
    change execPllUnlock isl s = _
    simp only [execPllUnlock, hk, hl, hcluster, and_self, if_true, onUnit_true]
  -- PLL_RELOCK
  · intro isl s hk hl hp ha
    have hrelocks : ((island s isl).pllLock || s.start.phase != .running) = false := by simp [hl, hp]
    change execPllRelock isl s = _
    simp only [execPllRelock, hk, hrelocks, modIsland_rst, ha, Bool.false_eq_true, if_false, onUnit_true]
  · intro isl s hk hl
    change execPllRelock isl s = _
    simp only [execPllRelock, hk, hl, if_true, onUnit_true]
  -- PLL_RELOCK_TIMEOUT
  · intro isl s hk hl hp
    change execPllRelockTimeout isl s = _
    simp [execPllRelockTimeout, hk, hl, hp]
  · intro isl s hk hl
    change execPllRelockTimeout isl s = _
    simp [execPllRelockTimeout, hk, hl]
  -- JTAG_INSTRUCTION_LOAD
  · intro code s hp hc hd
    exact ⟨_, execJtagInstructionLoad_disturbs hp hc hd, by simp, by simp, by simp⟩
  · intro code s hp hc hd
    exact ⟨_, execJtagInstructionLoad_undisturbing hp hc hd, rfl⟩
  · intro code s h
    change execJtagInstructionLoad code s = _
    have hrefused : (!s.power.pwrOk) = true ∨ 256 ≤ code := h.imp_left (by simp)
    simp only [execJtagInstructionLoad, hrefused, if_true]
  -- JTAG_TEST_LOGIC_RESET
  · intro s hp
    exact ⟨_, execJtagTestLogicReset_powered hp, rfl⟩
  · intro s hp
    change execJtagTestLogicReset s = _
    simp [execJtagTestLogicReset, hp]
  -- an island that the device does not have
  · intro isl sent s hk
    change execControlAgentAccess isl sent s = _
    rw [execControlAgentAccess, hk, onUnit_false]
  · intro isl s hk
    change execPllUnlock isl s = _
    rw [execPllUnlock, hk, onUnit_false]

end Sys2Proof.Machine
end

section
/-! ## Firmware's packets and Winnow (05 R160, R652; 06 R231; chapter 12) -/

namespace Sys2Proof.Machine

/-- A message that the queue has room for and whose type is not reserved waits for firmware (06 R231). -/
theorem execFirmwareControlRx_queued {d : Delivered} {s s1 : State} (ht : takeDelivered 7 s = some (d, s1))
    (hroom : s1.buf.fwIn.length < 8192) (hn : xCtype d.pkt = 3 → knownNotice (noticeType d.pkt) = true)
    (hf : xCtype d.pkt = 4 → knownFirmware (firmwareType d.pkt) = true) :
    execFirmwareControlRx s = .next (modBuf (fun b => { b with fwIn := b.fwIn ++ [d.pkt] }) s1) := by
  have hn' : ¬(xCtype d.pkt = 3 ∧ knownNotice (noticeType d.pkt) = false) := by
    rintro ⟨hc, hr⟩; simp [hn hc] at hr
  have hf' : ¬(xCtype d.pkt = 4 ∧ knownFirmware (firmwareType d.pkt) = false) := by
    rintro ⟨hc, hr⟩; simp [hf hc] at hr
  simp only [execFirmwareControlRx, ht, Nat.not_le.2 hroom, hn', hf', if_false]

/-- A window's end without Winnow only starts the next count (12 R410). -/
theorem execCrustWindowEnd_down {s : State} (hd : winnowDown s = true) :
    execCrustWindowEnd s = .next (modWinnow (fun w => { w with traffic := [] }) s) := by
  simp only [execCrustWindowEnd, hd, if_true]

/-- A SUMMARY replaces what was known of its sender (12 R417). -/
theorem execSummaryRx_taken {k : Packet} {s s1 : State} (ht : takeFirmware 1 s = some (k, s1)) :
    execSummaryRx s = .next (modWinnow (fun w => { w with
      summaries := tabPut w.summaries (senderSid k)
        ⟨fld (payloadWord k 1) 31 16, fld (payloadWord k 1) 15 0, fld (payloadWord k 2) 31 12,
          fld (payloadWord k 3) 31 24, nowRef s1⟩ }) s1) := by
  simp only [execSummaryRx, ht]

/-- Settles O53: each clause follows its event's meaning along the branch that the clause's conditions choose. -/
theorem firmwareEvents : Obligations.FirmwareEvents := by
  unfold Obligations.FirmwareEvents
  and_intros
  -- SPINE_REQUEST_RX
  · intro s ht
    change execSpineRequestRx s = _
    simp only [execSpineRequestRx, ht]
  · intro d s1 s ht
    change execSpineRequestRx s = _
    simp only [execSpineRequestRx, ht]
  -- SPINE_PACKET_DISCARD
  · intro s ht
    change execSpinePacketDiscard s = _
    simp only [execSpinePacketDiscard, ht]
  · intro d s1 s ht
    change execSpinePacketDiscard s = _
    simp only [execSpinePacketDiscard, ht]
  -- FIRMWARE_CONTROL_RX
  · intro s ht
    change execFirmwareControlRx s = _
    simp only [execFirmwareControlRx, ht]
  · intro d s1 s ht hfull
    change execFirmwareControlRx s = _
    simp only [execFirmwareControlRx, ht, hfull, if_true]
  · intro d s1 s ht hroom hc hr
    change execFirmwareControlRx s = _
    simp [execFirmwareControlRx, ht, Nat.not_le.2 hroom, hc, hr]
  · intro d s1 s ht hroom hc hr
    change execFirmwareControlRx s = _
    simp [execFirmwareControlRx, ht, Nat.not_le.2 hroom, hc, hr]
  · intro d s1 s ht hroom hc hk
    exact execFirmwareControlRx_queued ht hroom (fun _ => hk) (by simp [hc])
  · intro d s1 s ht hroom hc hk
    exact execFirmwareControlRx_queued ht hroom (by simp [hc]) (fun _ => hk)
  -- FW_OUTBOUND_DRAIN
  · intro s hq
    change execFwOutboundDrain s = _
    simp only [execFwOutboundDrain, hq]
  · intro k ks s hq hw hr
    change execFwOutboundDrain s = _
    simp [execFwOutboundDrain, hq, hw, hr]
  · intro k ks s hq hblocked
    have hheld : ((waitingOf s controlSource).isEmpty && controlRoom s k) = false := by
      rcases hblocked with hwaits | hfull
      · rw [hwaits, Bool.false_and]
      · rw [hfull, Bool.and_false]
    change execFwOutboundDrain s = _
    simp only [execFwOutboundDrain, hq, hheld, Bool.false_eq_true, if_false]
  -- WINNOW_WEIGHT_TICK
  · intro s hd
    change execWinnowWeightTick s = _
    simp only [execWinnowWeightTick, hd, if_true]
  · intro s hd
    change execWinnowWeightTick s = _
    simp only [execWinnowWeightTick, hd, Bool.false_eq_true, if_false]
  -- CRUST_WINDOW_END
  · intro s hd
    exact ⟨_, execCrustWindowEnd_down hd, rfl, rfl, rfl⟩
  · intro s hd
    change execCrustWindowEnd s = _
    simp only [execCrustWindowEnd, hd, Bool.false_eq_true, if_false]
  -- SUMMARY_TICK
  · intro load s
    rfl
  -- SUMMARY_RX
  · intro s ht
    change execSummaryRx s = _
    simp only [execSummaryRx, ht]
  · intro k s1 s ht
    exact ⟨_, execSummaryRx_taken ht, rfl, rfl⟩

end Sys2Proof.Machine
end

section
/-! ## The LINK commands (16 Table 16.1; 02 2.4 to 2.9; 14 14.1, 14.2) -/

namespace Sys2Proof.Machine

/-- A command whose rules end OK with no response words (16 R513). -/
theorem run_ok {o : Origin} {op : Nat} {body : State → CmdOutcome} {s b u : State} (h : beginsAt o op s = some b)
    (hb : body b = okWith u) :
    (.next (runCommand o op body s) : Host.Outcome State Fault Refusal) = .next (answer o op .ok [] u) :=
  run_done h hb rfl

/-- A command that its rules turn away changes nothing but the answer's own parts (16 R513). -/
theorem run_failWith {o : Origin} {op : Nat} {body : State → CmdOutcome} {s b : State} {st : Status}
    (h : beginsAt o op s = some b) (hb : body b = failWith st b) :
    (.next (runCommand o op body s) : Host.Outcome State Fault Refusal) = .next (answer o op st [] b) :=
  run_fail h hb

/-- Settles O25: each form is the way the command's own rules end from the state at which it begins. -/
theorem linkCommands : Obligations.LinkCommands := by
  unfold Obligations.LinkCommands
  and_intros
  -- LINK_SET_SID
  · intro o sid s b hb hsid hheld
    exact run_ok hb (by simp only [Nat.not_le.2 hsid, hheld, Bool.false_eq_true, if_false])
  · intro o sid s b hb hsid
    exact run_failWith hb (if_pos hsid)
  · intro o sid s b hb hsid hheld
    exact run_failWith hb (by simp only [Nat.not_le.2 hsid, hheld, if_true, if_false])
  -- LINK_NEIGHBOURS
  · intro o s b hb
    exact run_done hb rfl rfl
  -- LINK_LLDP
  · intro o mport s b hb hm
    exact run_done hb (if_neg (Nat.not_le.2 hm)) rfl
  · intro o mport s b hb hm
    exact run_failWith hb (if_pos hm)
  -- LINK_FIBRE_LENGTH
  · intro o lengths s b hb hgood
    exact run_ok hb (by simp only [hgood, Bool.false_eq_true, if_false])
  · intro o lengths s b hb hbad
    exact run_failWith hb (if_pos hbad)
  -- LINK_LOOPBACK
  · intro o engine fibre s b hb hk hnone hfit
    exact run_later hb (by simp [hk, hnone, hfit])
  · intro o engine fibre s b hb hk hnone hfull
    exact run_failWith hb (by simp [hk, hnone, hfull])
  · intro o engine fibre s b hb hk hsome
    exact run_ok hb (by simp [hk, hsome])
  · intro o engine fibre s b hb hk hnone
    exact run_ok hb (by simp [hk, hnone])
  · intro o engine fibre id c rest s b hb hk hsome hphase
    exact run_later hb (by simp [hk, hsome, hphase])
  · intro o engine fibre on s b hb hk
    exact run_failWith hb (by simp [hk])
  -- LINK_COMMISSION
  · intro o engines powers s b hb hlocked
    exact run_ok hb (by simp only [hlocked, Bool.false_eq_true, if_false])
  · intro o engines powers s b hb hopen
    exact run_failWith hb (if_pos hopen)
  -- LINK_SPARE_MODE
  · intro o enable s b hb
    exact run_ok hb rfl
  -- LINK_BAY_RETURN
  · intro o bay sp s b hb hbay hsp hidle
    exact run_later hb (by simp only [Nat.not_le.2 hbay, hsp, hidle, if_false])
  · intro o bay s b hb hbay hserved
    exact run_failWith hb (by simp only [Nat.not_le.2 hbay, hserved, if_false])
  · intro o bay s b hb hbay
    exact run_failWith hb (if_pos hbay)
  -- LINK_RING_RECORD
  · intro o die r s b hb hr
    exact run_done hb (by simp only [hr]) rfl
  · intro o die s b hb hr
    exact run_failWith hb (by simp only [hr])

end Sys2Proof.Machine
end

section
/-! ## Rings, their searches and the lasers (02 2.4 to 2.7) -/

namespace Sys2Proof.Machine

/-- Settles O42: each clause follows its event's meaning along the branch that the clause's conditions choose. -/
theorem ringEvents : Obligations.RingEvents := by
  unfold Obligations.RingEvents
  and_intros
  -- RING_SEARCH_FULL
  · intro engine fibre tx temp seen s hk
    change execRingSearchFull engine fibre tx temp seen s = _
    rw [execRingSearchFull, hk, onUnit_true]
  -- RING_SEARCH_PARTIAL
  · intro engine fibre tx temp found s hk hall
    change execRingSearchPartial engine fibre tx temp found s = _
    simp only [execRingSearchPartial, hk, hall, if_true, onUnit_true]
  · intro engine fibre tx temp found s hk hlost
    change execRingSearchPartial engine fibre tx temp found s = _
    simp only [execRingSearchPartial, hk, hlost, Bool.false_eq_true, if_false, onUnit_true]
  -- DIE_TEMP_OUT_OF_WINDOW
  · intro d temp s hd hr
    refine ⟨modOpt (fun o => { o with dieTemp := tabSet (fun _ => 0) o.dieTemp d temp }) s, ?_, rfl, rfl⟩
    change execDieTempOutOfWindow d temp s = _
    simp only [execDieTempOutOfWindow, hd, hr, decide_true, onUnit_true]
  · intro d temp r s hd hr hhigh hlow
    refine ⟨modOpt (fun o => { o with dieTemp := tabSet (fun _ => 0) o.dieTemp d temp }) s, ?_, rfl, rfl⟩
    change execDieTempOutOfWindow d temp s = _
    simp only [execDieTempOutOfWindow, hd, hr, hhigh, hlow, and_self, decide_true, if_true, onUnit_true]
  · intro d temp r s hd hr hout
    change execDieTempOutOfWindow d temp s = _
    simp only [execDieTempOutOfWindow, hd, hr, hout, decide_true, if_false, onUnit_true]
  -- POWER_TELEMETRY
  · intro reading s
    exact ⟨_, rfl, rfl, rfl⟩
  -- RING_UNLOCK
  · intro engine fibre row slot s hk hrow hslot
    change execRingUnlock engine fibre row slot s = _
    simp only [execRingUnlock, hk, hrow, hslot, decide_true, Bool.and_self, onUnit_true]
  -- RING_RELOCK
  · intro engine fibre row slot s hk hrow hslot hm
    change execRingRelock engine fibre row slot s = _
    simp only [execRingRelock, hk, hrow, hslot, hm, decide_true, Bool.and_self, onUnit_true]
  · intro engine fibre row slot s hk hrow hslot hm hlane
    change execRingRelock engine fibre row slot s = _
    simp only [execRingRelock, hk, hrow, hslot, hm, hlane, if_true, decide_true, Bool.and_self, onUnit_true]
  · intro engine fibre row slot s hk hrow hslot hm hbus
    have hlane : ¬(row = 1 ∨ row = 3) := by omega
    have hgate : row ≠ 2 := by omega
    change execRingRelock engine fibre row slot s = _
    simp only [execRingRelock, hk, hrow, hslot, hm, hlane, hgate, false_and, if_false, decide_true, Bool.and_self,
      onUnit_true]
  · intro engine fibre row slot s hk hrow hslot htrack hunlock
    change execRingRelock engine fibre row slot s = _
    simp only [execRingRelock, hk, hrow, hslot, decide_true, Bool.and_self, onUnit_true]
  -- LANE_REJOIN_TIMEOUT
  · intro l s hk hj
    change execLaneRejoinTimeout l s = _
    simp only [execLaneRejoinTimeout, hk, hj, if_true, onUnit_true]
  · intro l s hk hj
    refine ⟨modOpt (fun o => { o with
      partialDue := distinct (o.partialDue ++
        [busNumber (laneEngine l) (laneFibre l) false, busNumber (laneEngine l) (laneFibre l) true]) }) s, ?_, rfl, rfl⟩
    change execLaneRejoinTimeout l s = _
    simp only [execLaneRejoinTimeout, hk, hj, if_false, onUnit_true]
  -- LASER_MONITOR_SAMPLE
  · intro m s he hc hnone
    change execLaserMonitorSample m s = _
    simp only [execLaserMonitorSample, he, hc, hnone, Option.isNone_none, if_true, decide_true, Bool.and_self,
      onUnit_true]
  · intro m x s he hc hx hlevel
    have hbright : ¬m.level ≤ -250 := by omega
    have hlit : ¬m.level ≤ -400 := by omega
    change execLaserMonitorSample m s = _
    simp only [execLaserMonitorSample, he, hc, hbright, hlit, false_and, if_false, ite_self, decide_true,
      Bool.and_self, onUnit_true]
  · intro m x s he hc hx hlit hlevel hf
    have hlit' : ¬m.level ≤ -400 := by omega
    change execLaserMonitorSample m s = _
    simp only [execLaserMonitorSample, he, hc, hx, hlevel, hlit', hf, Option.isNone_some, Bool.false_eq_true,
      and_self, false_and, if_true, if_false, decide_true, Bool.and_self, onUnit_true]
  · intro m x s he hc hx hlevel hsus hf
    change execLaserMonitorSample m s = _
    simp only [execLaserMonitorSample, he, hc, hx, hlevel, hsus, hf, Option.isNone_some, Bool.false_eq_true,
      Bool.true_eq_false, and_self, and_false, if_true, if_false, decide_true, Bool.and_self, onUnit_true]
  -- LASER_FADE_AVERAGE
  · intro levels s hall
    change execLaserFadeAverage levels s = _
    simp only [execLaserFadeAverage, hall, onUnit_true]
  -- SPARE_LOCKED
  · intro pos powers b c s hp hc hback
    change execSpareLocked pos powers s = _
    simp only [execSpareLocked, hp, hc, hback, Bool.false_eq_true, if_false, decide_true, onUnit_true]
  · intro pos powers b c s hp hc hback
    change execSpareLocked pos powers s = _
    simp only [execSpareLocked, hp, hc, hback, if_true, decide_true, onUnit_true]
  · intro pos powers s hp hc
    change execSpareLocked pos powers s = _
    simp only [execSpareLocked, hp, hc, decide_true, onUnit_true]
  -- SPARE_LOCK_TIMEOUT
  · intro pos s hp hc
    change execSpareLockTimeout pos s = _
    simp only [execSpareLockTimeout, hp, hc, decide_true, onUnit_true]
  · intro pos b c sp s hp hc hback hsp
    change execSpareLockTimeout pos s = _
    simp only [execSpareLockTimeout, hp, hc, hback, hsp, Bool.false_eq_true, if_false, decide_true, onUnit_true]
  · intro pos b c s hp hc hback hnone
    change execSpareLockTimeout pos s = _
    simp only [execSpareLockTimeout, hp, hc, hback, hnone, Bool.false_eq_true, if_false, decide_true, onUnit_true]
  · intro pos b c o s hp hc hback ho
    change execSpareLockTimeout pos s = _
    simp only [execSpareLockTimeout, hp, hc, hback, ho, if_true, decide_true, onUnit_true]
  -- CUTOVER_PAUSE_TIME
  · intro bay c s hb hc hstage
    change execCutoverPauseTime bay s = _
    simp only [execCutoverPauseTime, hb, hc, hstage, if_true, decide_true, onUnit_true]
  · intro bay c s hb hc hstage
    change execCutoverPauseTime bay s = _
    simp only [execCutoverPauseTime, hb, hc, hstage, if_false, decide_true, onUnit_true]
  -- CUTOVER_SWITCH_SETTLED
  · intro bay c s hb hc hstage hback
    change execCutoverSwitchSettled bay s = _
    simp only [execCutoverSwitchSettled, hb, hc, hstage, hback, Bool.false_eq_true, if_true, if_false, decide_true,
      onUnit_true]
  · intro bay c s hb hc hstage hback
    change execCutoverSwitchSettled bay s = _
    simp only [execCutoverSwitchSettled, hb, hc, hstage, hback, if_true, decide_true, onUnit_true]
  -- CUTOVER_COMPLETE
  · intro bay c s hb hc hstage ho
    change execCutoverComplete bay s = _
    simp only [execCutoverComplete, hb, hc, hstage, ho, if_true, decide_true, onUnit_true]
  · intro bay c o s hb hc hstage ho
    change execCutoverComplete bay s = _
    simp only [execCutoverComplete, hb, hc, hstage, ho, if_true, decide_true, onUnit_true]
  · intro bay s hb hc
    change execCutoverComplete bay s = _
    simp only [execCutoverComplete, hb, hc, decide_true, onUnit_true]
  -- BAY_INTERLOCK_OPEN
  · intro bay b s hb hfeeds
    change execBayInterlockOpen bay s = _
    simp only [execBayInterlockOpen, hb, hfeeds, decide_true, onUnit_true]
  · intro bay s hb hfeeds
    change execBayInterlockOpen bay s = _
    simp only [execBayInterlockOpen, hb, hfeeds, decide_true, onUnit_true]
  -- BAY_INSERTED
  · intro bay s hb
    change execBayInserted bay s = _
    simp only [execBayInserted, hb, decide_true, onUnit_true]
  -- BAY_SELF_TEST_DONE
  · intro bay s hb huse
    change execBaySelfTestDone bay s = _
    simp only [execBaySelfTestDone, hb, huse, if_true, decide_true, onUnit_true]
  · intro bay s hb huse
    change execBaySelfTestDone bay s = _
    simp only [execBaySelfTestDone, hb, huse, if_false, decide_true, onUnit_true]
  -- a bay position that the device does not have
  · intro bay s hb
    change execBayInserted bay s = _
    simp only [execBayInserted, Nat.not_lt.2 hb, decide_false, onUnit_false]

end Sys2Proof.Machine
end

section
/-! ## Eye safety and crust circuits (02 R66 to R68, R74 to R77) -/

namespace Sys2Proof.Machine

/-- Settles O43: each clause follows its event's meaning along the branch that the clause's conditions choose. -/
theorem fibreEvents : Obligations.FibreEvents := by
  unfold Obligations.FibreEvents
  and_intros
  -- OPEN_FIBRE_DETECT
  · intro engine fibre s hk hr
    change execOpenFibreDetect engine fibre s = _
    simp only [execOpenFibreDetect, hk, hr, if_true, onUnit_true]
  · intro engine fibre s hk hr
    change execOpenFibreDetect engine fibre s = _
    simp only [execOpenFibreDetect, hk, hr, Bool.false_eq_true, if_false, onUnit_true]
  -- BACK_REFLECTION_HIGH
  · intro engine fibre s hk
    change execBackReflectionHigh engine fibre s = _
    rw [execBackReflectionHigh, hk, onUnit_true]
  -- EYE_SAFETY_PROBE
  · intro engine fibre s hk hr
    change execEyeSafetyProbe engine fibre s = _
    simp only [execEyeSafetyProbe, hk, hr, if_true, onUnit_true]
  · intro engine fibre s hk hr
    change execEyeSafetyProbe engine fibre s = _
    simp only [execEyeSafetyProbe, hk, hr, Bool.false_eq_true, if_false, onUnit_true]
  -- EYE_SAFETY_PROBE_END
  · intro engine fibre low s hk hp
    change execEyeSafetyProbeEnd engine fibre low s = _
    simp only [execEyeSafetyProbeEnd, hk, hp, if_true, onUnit_true]
  · intro engine fibre low s hk hp
    change execEyeSafetyProbeEnd engine fibre low s = _
    simp only [execEyeSafetyProbeEnd, hk, hp, Bool.false_eq_true, if_false, onUnit_true]
  -- EYE_SAFETY_RESTORE
  · intro engine fibre s hk hr hp
    change execEyeSafetyRestore engine fibre s = _
    simp only [execEyeSafetyRestore, hk, hr, hp, and_self, if_true, onUnit_true]
  · intro engine fibre s hk hp
    change execEyeSafetyRestore engine fibre s = _
    simp only [execEyeSafetyRestore, hk, hp, and_false, if_false, onUnit_true]
  -- CRUST_CHANGE_APPLY
  · intro engine s he hups hdowns
    change execCrustChangeApply engine s = _
    simp only [execCrustChangeApply, he, hups, hdowns, List.isEmpty_nil, Bool.and_self, decide_true, if_true,
      onUnit_true]
  · intro engine s he hups
    have hsome : (circuitsIn s engine (fun c => c.phase == .deferred)).isEmpty = false := by simpa using hups
    change execCrustChangeApply engine s = _
    simp only [execCrustChangeApply, he, hsome, Bool.false_and, Bool.false_eq_true, decide_true, if_false, onUnit_true]
  -- CRUST_EFFECTIVE
  · intro engine s he
    change execCrustEffective engine s = _
    simp only [execCrustEffective, he, decide_true, onUnit_true]
  -- CRUST_LIT
  · intro id c s hc hl hr
    change execCrustLit id s = _
    simp only [execCrustLit, hc, hl, hr, and_self, if_true]
  · intro id s hc
    change execCrustLit id s = _
    simp only [execCrustLit, hc]

end Sys2Proof.Machine
end

section
/-! ## Events on one lane or port

What an event whose unit the device has leaves (01 R11). -/

namespace Sys2Proof.Machine

/-- An event on a unit that the device has leaves that unit's effect. -/
theorem onUnit_next {ok : Bool} {t u : State} (hk : ok = true) (ht : t = u) : onUnit ok t = .next u := by
  rw [hk, ht, onUnit_true]

/-- An event on a unit that the device does not have is a fault. -/
theorem onUnit_fault {ok : Bool} {t : State} (hk : ok = false) : onUnit ok t = .fault .noSuchUnit := by
  rw [hk, onUnit_false]

end Sys2Proof.Machine
end

section
/-! ## The PORT commands (16 Table 16.2; 03 R86, R117, R120 to R124; 05 R176, R189, R193; 06 R227) -/

namespace Sys2Proof.Machine

theorem onPort_known {p : Nat} {f : State → CmdOutcome} {s : State} (hk : portKnown s p = true) :
    onPort p f s = f s := if_pos hk

theorem onPort_unknown {p : Nat} {f : State → CmdOutcome} {s : State} (hk : portKnown s p = false) :
    onPort p f s = failWith .invalid s := if_neg (ne_true_of_eq_false hk)

/-- A command on a port that the device has and that its own rules end OK (16 R513, R521). -/
theorem run_onPort_ok {o : Origin} {op p : Nat} {f : State → CmdOutcome} {s b u : State}
    (h : beginsAt o op s = some b) (hk : portKnown b p = true) (hf : f b = okWith u) :
    (.next (runCommand o op (onPort p f) s) : Host.Outcome State Fault Refusal) = .next (answer o op .ok [] u) :=
  run_ok h ((onPort_known hk).trans hf)

/-- A command on a port that the device has and that its own rules turn away (16 R513, R521). -/
theorem run_onPort_failWith {o : Origin} {op p : Nat} {f : State → CmdOutcome} {s b : State} {st : Status}
    (h : beginsAt o op s = some b) (hk : portKnown b p = true) (hf : f b = failWith st b) :
    (.next (runCommand o op (onPort p f) s) : Host.Outcome State Fault Refusal) = .next (answer o op st [] b) :=
  run_failWith h ((onPort_known hk).trans hf)

/-- A command on a number that is no port's lowest lane is INVALID (16 R521). -/
theorem run_onPort_unknown {o : Origin} {op p : Nat} {f : State → CmdOutcome} {s b : State}
    (h : beginsAt o op s = some b) (hk : portKnown b p = false) :
    (.next (runCommand o op (onPort p f) s) : Host.Outcome State Fault Refusal) = .next (answer o op .invalid [] b) :=
  run_failWith h (onPort_unknown hk)

/-- The default of a husk wait lies in its range, so the range is tested as if on the operand itself (06 R227). -/
theorem huskWait_out_of_range_iff (us : Nat) : 10000 < (if us = 0 then 20 else us) ↔ 10000 < us := by
  split <;> omega

/-- Settles O26: each form is the way the command's own rules end, at a port that the device has or does not have. -/
theorem portCommands : Obligations.PortCommands := by
  unfold Obligations.PortCommands
  and_intros
  -- PORT_WIDTH
  · intro o widths s b hb hgood hnone
    exact run_ok hb (by simp only [hgood, hnone, Bool.not_true, Bool.or_self, Bool.false_eq_true, if_false])
  · intro o widths s b hb hbad
    exact run_failWith hb (if_pos (by rw [← Bool.not_and, hbad, Bool.not_false]))
  -- PORT_COMPAT
  · intro o port on s b hb hk
    exact run_onPort_ok hb hk rfl
  -- PORT_MODE
  · intro o port mask s b hb hk hmask
    exact run_onPort_ok hb hk (if_neg (Nat.not_le.2 hmask))
  · intro o port mask s b hb hk hmask
    exact run_onPort_failWith hb hk (if_pos hmask)
  -- PORT_SAMPLE
  · intro o port k s b hb hk hle
    have hon : k ≠ 0xFF := by omega
    exact run_onPort_ok hb hk (by simp only [hon, Nat.not_lt.2 hle, if_false])
  · intro o port s b hb hk
    exact run_onPort_ok hb hk (if_pos rfl)
  · intro o port k s b hb hk hlt hon
    exact run_onPort_failWith hb hk (by simp only [hon, hlt, if_true, if_false])
  -- PORT_STALE
  · intro o port queueUs portUs s b hb hk hqueue hport
    exact run_onPort_ok hb hk (by
      simp only [hqueue, hport, Bool.not_true, Bool.or_self, Bool.false_eq_true, if_false])
  · intro o port queueUs portUs s b hb hk hbad
    exact run_onPort_failWith hb hk (if_pos (by rw [← Bool.not_and, hbad, Bool.not_false]))
  -- PORT_HUSK_WAIT
  · intro o port cls us s b hb hk hcls hus
    exact run_onPort_ok hb hk (if_neg (by rw [huskWait_out_of_range_iff]; omega))
  · intro o port cls us s b hb hk hbad
    exact run_onPort_failWith hb hk (if_pos (by rwa [huskWait_out_of_range_iff]))
  -- PORT_RETRAIN
  · intro o port s b hb hk hup
    exact run_onPort_ok hb hk (by simp only [hup])
  · intro o port s b hb hk hresume
    exact run_onPort_ok hb hk (by simp only [hresume])
  · intro o port s b hb hk hup hresume
    refine run_onPort_failWith hb hk ?_
    split
    case h_1 h => exact absurd h hup
    case h_2 h => exact absurd h hresume
    case h_3 => rfl
  -- PORT_LANE
  · intro o port mask s b hb hk hsome hfit hphase
    have hnamed : ¬(mask = 0 ∨ 2 ^ (Machine.port b port).width ≤ mask) := by omega
    exact run_onPort_ok hb hk (by simp only [hnamed, hphase, Bool.not_false, if_true, if_false])
  · intro o port mask s b hb hk hsome hfit hphase hfree
    have hnamed : ¬(mask = 0 ∨ 2 ^ (Machine.port b port).width ≤ mask) := by omega
    exact run_onPort_ok hb hk (by simp only [hnamed, hphase, hfree, Bool.not_true, Bool.false_eq_true, if_false])
  · intro o port mask s b hb hk hsome hfit hphase hheld
    have hnamed : ¬(mask = 0 ∨ 2 ^ (Machine.port b port).width ≤ mask) := by omega
    exact run_onPort_failWith hb hk (by
      simp only [hnamed, hphase, hheld, Bool.not_true, Bool.false_eq_true, if_true, if_false])
  · intro o port mask restore s b hb hk hsome hfit hdown
    have hnamed : ¬(mask = 0 ∨ 2 ^ (Machine.port b port).width ≤ mask) := by omega
    exact run_onPort_failWith hb hk (by simp only [hnamed, hdown, if_true, if_false])
  · intro o port mask restore s b hb hk hbad
    exact run_onPort_failWith hb hk (if_pos hbad)
  -- PORT_STATE
  · intro o port s b hb hk
    exact run_done hb (onPort_known hk) rfl
  -- a number that is no port of the device
  · intro o port on s b hb hk
    exact run_onPort_unknown hb hk
  · intro o port mask s b hb hk
    exact run_onPort_unknown hb hk
  · intro o port k s b hb hk
    exact run_onPort_unknown hb hk
  · intro o port queueUs portUs s b hb hk
    exact run_onPort_unknown hb hk
  · intro o port cls us s b hb hk
    exact run_onPort_unknown hb hk
  · intro o port s b hb hk
    exact run_onPort_unknown hb hk
  · intro o port mask restore s b hb hk
    exact run_onPort_unknown hb hk
  · intro o port s b hb hk
    exact run_onPort_unknown hb hk

end Sys2Proof.Machine
end

section
/-! ## Lanes (03 Table 3.8; R88 to R91, R115, R120 to R122) -/

namespace Sys2Proof.Machine

/-- Settles O44: each clause follows its event's meaning along the branch that the clause's conditions choose. -/
theorem laneEvents : Obligations.LaneEvents := by
  unfold Obligations.LaneEvents
  and_intros
  -- SIGNAL_DETECT
  · intro lane s hk hdark
    exact onUnit_next hk (if_pos hdark)
  · intro lane s hk hdark
    exact onUnit_next hk (if_neg (ne_true_of_eq_false hdark))
  -- ACQUIRE_LOCK
  · intro lane s hk hin
    exact onUnit_next hk (if_pos hin)
  · intro lane s hk hin
    exact onUnit_next hk (if_neg (ne_true_of_eq_false hin))
  -- ACQUIRE_TIMEOUT
  · intro lane s hk hin
    exact onUnit_next hk (if_pos hin)
  · intro lane s hk hin
    exact onUnit_next hk (if_neg (ne_true_of_eq_false hin))
  -- DELINEATION_LOCK
  · intro lane s hk hin
    exact onUnit_next hk (if_pos hin)
  · intro lane s hk hin
    exact onUnit_next hk (if_neg (ne_true_of_eq_false hin))
  -- DELINEATE_TIMEOUT
  · intro lane s hk hin
    exact onUnit_next hk (if_pos hin)
  · intro lane s hk hin
    exact onUnit_next hk (if_neg (ne_true_of_eq_false hin))
  -- DELINEATION_LOSS
  · intro lane s hk hbefore
    exact onUnit_next hk (if_neg (ne_true_of_eq_false hbefore))
  · intro lane s hk hbefore
    exact onUnit_next hk (if_pos hbefore)
  -- LIGHT_LOST
  · intro lane s hk
    exact onUnit_next hk rfl
  -- LANE_ERROR_RATE
  · intro lane s hk hjoined hout
    exact onUnit_next hk ((if_pos hjoined).trans (if_neg (ne_true_of_eq_false hout)))
  · intro lane s hk hjoined hout
    exact onUnit_next hk ((if_pos hjoined).trans (if_pos hout))
  · intro lane s hk hjoined
    exact onUnit_next hk (if_neg (ne_true_of_eq_false hjoined))
  -- VERIFY_PASS
  · intro lane received p s hk hp hjoined
    exact onUnit_next hk (by simp only [hp, hjoined, if_true])
  · intro lane received p s hk hp hjoined hverify hown
    exact onUnit_next hk (by
      simp only [hp, hjoined, hverify, hown, Bool.not_true, Bool.false_eq_true, if_true, if_false])
  · intro lane received p s hk hp hjoined hverify hother htold
    exact onUnit_next hk (by
      simp only [hp, hjoined, hverify, hother, htold, Bool.not_true, Bool.false_eq_true, if_false])
  · intro lane received p s hk hp hjoined hverify hother htold
    exact onUnit_next hk (by
      simp only [hp, hjoined, hverify, hother, htold, Bool.not_true, Bool.false_eq_true, if_true, if_false])
  · intro lane received p s hk hp hjoined hverify
    exact onUnit_next hk (by
      simp only [hp, hjoined, hverify, Bool.not_false, Bool.false_eq_true, if_true, if_false])
  -- a lane that the device does not have
  · intro lane s hk
    exact onUnit_fault hk

end Sys2Proof.Machine
end

section
/-! ## Ports and link-local messages (03 Table 3.9; R104 to R107, R109 to R118, R647) -/

namespace Sys2Proof.Machine

/-- Settles O45: each clause follows its event's meaning along the branch that the clause's conditions choose. -/
theorem portEvents : Obligations.PortEvents := by
  unfold Obligations.PortEvents
  and_intros
  -- LANE_MESSAGE_RX
  · intro port msgId action lanes s hk
    exact onUnit_next hk rfl
  -- PAUSE_RX
  · intro port msgId time len lanes s hk
    exact onUnit_next hk rfl
  -- PAUSE_WINDOW_END
  · intro port s hk hnone
    exact onUnit_next hk (by simp only [hnone])
  · intro port w s hk hsome
    exact onUnit_next hk (by simp only [hsome])
  -- RETRAIN_RX
  · intro port msgId s hk
    exact onUnit_next hk rfl
  -- LL_ACK_RX
  · intro port llType msgId s hk hother
    exact onUnit_next hk (if_neg hother)
  · intro port msgId s hk
    exact onUnit_next hk (if_pos rfl)
  -- LL_RETRY_TICK
  · intro port s hk
    exact onUnit_next hk rfl
  -- HELLO_TICK
  · intro port s hk hsends
    exact onUnit_next hk (if_pos hsends)
  · intro port s hk hsilent
    exact onUnit_next hk (if_neg (by rcases hsilent with h | h <;> simp [h]))
  -- HELLO_WAIT
  · intro port s hk hhello
    exact onUnit_next hk (if_pos hhello)
  · intro port s hk hhello
    exact onUnit_next hk (if_neg hhello)
  -- HELLO_RX
  · intro port pkt arrival s hk hv
    exact onUnit_next hk (if_pos (by rw [hv, Bool.not_false, Bool.or_true]))
  · intro port pkt arrival s hk hdown
    exact onUnit_next hk (if_pos (by simp only [hdown, decide_true, Bool.true_or]))
  · intro port pkt arrival s hk hv hhello
    exact onUnit_next hk (by simp [hhello, hv])
  · intro port pkt arrival s hk hv hup hchanged
    exact onUnit_next hk (by simp [hup, hv, hchanged])
  · intro port pkt arrival s hk hv hup hsame
    exact onUnit_next hk (by simp [hup, hv, hsame])
  -- CREDIT_TIMEOUT
  · intro port s hk hcredit
    exact onUnit_next hk (if_pos hcredit)
  · intro port s hk hcredit
    exact onUnit_next hk (if_neg hcredit)
  -- RESUME_TIMEOUT
  · intro port s hk hresume
    exact onUnit_next hk (if_pos hresume)
  · intro port s hk hresume
    exact onUnit_next hk (if_neg hresume)
  -- REPLAY_LIMIT
  · intro port s hk hlimit
    exact onUnit_next hk (if_pos hlimit)
  · intro port s hk hlimit
    exact onUnit_next hk (if_neg (Nat.not_le.2 hlimit))
  -- a number that is no port of the device
  · intro port s hk
    exact onUnit_fault hk

end Sys2Proof.Machine
end

section
/-! ## Blocks, replay and credit (03 R88 to R106, R648; 07 R239) -/

namespace Sys2Proof.Machine

section
variable {lane p : Nat} {block : Block} {s : State} (hk : laneKnown lane = true) (hp : portOfLane s lane = some p)
include hk hp

/-- An IDLE block on a lane of a port: its fields act when it goes further than its arrival (03 R90, R105). -/
theorem execIdleBlockRx_port : execIdleBlockRx lane block s = .next
    (if (arrive lane p block s).2 && bType block == 0 then applyFields p block (arrive lane p block s).1
    else (arrive lane p block s).1) :=
  onUnit_next hk (by rw [hp])

/-- A DATA block on a lane of a port (03 R103, R648). -/
theorem execDataBlockRx_port : execDataBlockRx lane block s = .next
    (if !(arrive lane p block s).2 || bType block != 1 then (arrive lane p block s).1
    else if ((port s p).phase = .credit ∨ (port s p).phase = .up) ∧
        ((Machine.lane s lane).phase = .ready ∨ (Machine.lane s lane).phase = .joined) then
      sequenceBlock p block (applyFields p block (arrive lane p block s).1)
    else countLane lane 9 (arrive lane p block s).1) :=
  onUnit_next hk (by rw [hp])

/-- A LOCAL block on a lane of a port (03 R107). -/
theorem execLocalBlockRx_port : execLocalBlockRx lane block s = .next
    (if !(arrive lane p block s).2 || bType block != 2 then (arrive lane p block s).1
    else if localGood block then applyFields p block (arrive lane p block s).1
    else countPort p 12 1 (applyFields p block (arrive lane p block s).1)) :=
  onUnit_next hk (by rw [hp])

end

/-- Settles O46: each clause follows its event's meaning along the branch that the clause's conditions choose. -/
theorem blockEvents : Obligations.BlockEvents := by
  unfold Obligations.BlockEvents
  and_intros
  -- IDLE_BLOCK_RX
  · intro lane block s hk hnone
    exact onUnit_next hk (by rw [hnone])
  · intro lane block p s hk hp hok htype
    exact (execIdleBlockRx_port hk hp).trans (by simp only [hok, htype, beq_self_eq_true, Bool.and_self, if_true])
  · intro lane block p s hk hp hstop
    exact (execIdleBlockRx_port hk hp).trans (by rcases hstop with h | h <;> simp [h])
  -- DATA_BLOCK_RX
  · intro lane block p s hk hp hok htype hport hlane
    exact (execDataBlockRx_port hk hp).trans (by simp [hok, htype, hport, hlane])
  · intro lane block p s hk hp hok htype hclosed
    exact (execDataBlockRx_port hk hp).trans (by simp [hok, htype, hclosed])
  · intro lane block p s hk hp hstop
    exact (execDataBlockRx_port hk hp).trans (by rcases hstop with h | h <;> simp [h])
  -- LOCAL_BLOCK_RX
  · intro lane block p s hk hp hok htype hgood
    exact (execLocalBlockRx_port hk hp).trans (by simp [hok, htype, hgood])
  · intro lane block p s hk hp hok htype hbad
    exact (execLocalBlockRx_port hk hp).trans (by simp [hok, htype, hbad])
  · intro lane block p s hk hp hstop
    exact (execLocalBlockRx_port hk hp).trans (by rcases hstop with h | h <;> simp [h])
  -- NAK_GAP_TIMEOUT
  · intro port s hk hheld
    exact onUnit_next hk (if_neg (ne_true_of_eq_false hheld))
  · intro port s hk hempty
    exact onUnit_next hk (if_pos hempty)
  -- ACK_TIMEOUT_REPLAY
  · intro port x xs s hk hwaits hup
    exact onUnit_next hk (by simp only [hwaits, hup, if_true])
  · intro port s hk hnone
    exact onUnit_next hk (by simp only [hnone])
  -- CREDIT_REPEAT_TICK
  · intro port s hk hphase
    exact onUnit_next hk (if_pos hphase)
  · intro port s hk hcredit hup
    exact onUnit_next hk (if_neg (not_or.2 ⟨hcredit, hup⟩))
  -- CREDIT_TARGET_TICK
  · intro port s hk
    exact onUnit_next hk rfl
  -- CREDIT_GRANT_TICK
  · intro port s hk hphase
    exact onUnit_next hk (if_pos hphase)
  · intro port s hk hcredit hup
    exact onUnit_next hk (if_neg (not_or.2 ⟨hcredit, hup⟩))
  -- BLOCK_SLOT
  · intro lane s hk hnone
    exact onUnit_next hk (by rw [hnone])
  · intro lane p s hk hp hdark
    exact onUnit_next hk (by simp [hp, hdark])
  · intro lane p s hk hp hr hpause hjoined hup
    exact onUnit_next hk (by simp [hp, hr, hpause, hjoined, hup])
  · intro lane p i k s hk hp hr hpause hready hallowed hnext
    exact onUnit_next hk (by simp [hp, hr, hpause, hready, hallowed, hnext])
  · intro lane p s hk hp hr hpause hverify
    exact onUnit_next hk (by simp [hp, hr, hpause, hverify])
  -- a number that is no port of the device
  · intro port s hk
    exact onUnit_fault hk

end Sys2Proof.Machine
end

section
/-! ## The checks of a packet header (04 R145, R151, Table 4.12) -/

namespace Sys2Proof.Machine

/-- The reasons of Table 4.12 rise in the order of the checks. So where a chain of checks gives no reason below `n`, a
first check whose reason is below `n` has passed, and the chain gives what the later checks give. -/
theorem checks_eq_of_later {c : Prop} [Decidable c] {code n : Nat} {later r : Option Nat} (hcode : code < n)
    (h : (∀ x, later = some x → n ≤ x) → later = r) :
    (∀ x, (if c then some code else later) = some x → n ≤ x) → (if c then some code else later) = r := by
  intro hall
  by_cases hc : c
  · exact absurd (hall code (if_pos hc)) (Nat.not_le.2 hcode)
  · simp only [if_neg hc] at hall ⊢
    exact h hall

/-- Past the checks before it, COLOUR 3 is the reason (04 R151). -/
theorem headerDrop_colour {s : State} {p : Nat} {k : Packet} {slots : Nat} (hcolour : pColour k = 3) :
    (∀ code, headerDrop s p k slots = some code → 0x06 ≤ code) → headerDrop s p k slots = some 0x06 := by
  unfold headerDrop
  iterate 5 refine checks_eq_of_later (by decide) ?_
  intro _
  exact if_pos hcolour

/-- How far the epoch of a header is ahead of the partition's, modulo 65,536 (04 R145). -/
def epochLead (s : State) (p : Nat) (k : Packet) : Nat :=
  (pEpoch k + 65536 - (partEntry (slice s (p / 256)) (pPid k)).epoch) % 65536

/-- The lead is the difference as a 16-bit serial number. -/
theorem epochLead_eq_emod {s : State} {p : Nat} {k : Packet}
    (hc : (partEntry (slice s (p / 256)) (pPid k)).epoch < 65536) :
    (epochLead s p k : Int) = ((pEpoch k : Int) - (partEntry (slice s (p / 256)) (pPid k)).epoch) % 65536 := by
  unfold epochLead
  omega

/-- Past the checks before it, the lead of a version-2 header gives the reason, or leaves the group check (04 R145). -/
theorem headerDrop_epoch {s : State} {p : Nat} {k : Packet} {slots : Nat} (hv : isV1 k = false) :
    (∀ code, headerDrop s p k slots = some code → 0x0C ≤ code) → headerDrop s p k slots =
      if 32768 ≤ epochLead s p k then some 0x0C
      else if 1 ≤ epochLead s p k then some 0x0D
      else if badGroup (slice s (p / 256)) k then some 0x0E
      else none := by
  unfold headerDrop
  iterate 11 refine checks_eq_of_later (by decide) ?_
  intro _
  simp only [hv, Bool.not_false, Bool.true_and, decide_eq_true_eq]
  rfl

/-- Settles O18: the lead of the header's epoch picks the branch of the epoch checks. -/
theorem epochCompare : Obligations.EpochCompare := by
  unfold Obligations.EpochCompare
  intro s p k slots d hv hc hd hearlier
  have hlead : epochLead s p k = d := by
    have := epochLead_eq_emod (k := k) hc
    omega
  rw [headerDrop_epoch hv hearlier, hlead]
  refine ⟨?current, ?ahead, ?incomparable, ?stale⟩
  case current =>
    rintro rfl
    rw [if_neg (by decide), if_neg (by decide)]
    constructor <;> split <;> decide
  case ahead =>
    rintro ⟨hlow, hhigh⟩
    rw [if_neg (by omega), if_pos hlow]
  case incomparable =>
    rintro rfl
    exact if_pos le_rfl
  case stale =>
    intro hhigh
    exact if_pos (by omega)

/-- A header that is dropped: it is counted, its cells go back and it may be sampled (04 R152). -/
theorem execPacketHeaderRx_dropped {port : Nat} {pkt : Packet} {slots code : Nat} {s : State}
    (hk : portKnown s port = true) (hdrop : headerDrop s port pkt slots = some code) :
    execPacketHeaderRx port pkt slots s = .next (samplePacket port pkt { code := code, out := none }
      (returnCells port pkt (countDrop port code (filterSlice 0 (port / 256) pkt (headerParity port pkt s))))) :=
  onUnit_next hk (by simp only [hdrop])

/-- The parts of the state that dropping a packet at its header may change (04 R152). -/
def dropParts : List Part :=
  [.recoveryLog, .ports, .tables, .gates, .events, .counters, .crumbs, .samples, .free, .room]

theorem droppedHeader_frame (port : Nat) (pkt : Packet) (code : Nat) (f : Fate) (s : State) : OnlyChanges dropParts s
    (samplePacket port pkt f
      (returnCells port pkt (countDrop port code (filterSlice 0 (port / 256) pkt (headerParity port pkt s))))) :=
  ((((headerParity_frame port pkt s).mono (by decide)).trans ((filterSlice_frame _ _ _ _).mono (by decide))).trans
    ((countDrop_frame _ _ _).mono (by decide))).trans
      (((returnCells_frame _ _ _).mono (by decide)).trans ((samplePacket_frame _ _ _ _).mono (by decide)))

/-- Settles O19: the reason is COLOUR, and what follows a drop changes neither the stored packets nor the queues. -/
theorem colourThreeDropped : Obligations.ColourThreeDropped := by
  unfold Obligations.ColourThreeDropped
  intro port pkt slots s hk hcolour hearlier
  have hdrop := headerDrop_colour hcolour hearlier
  have hframe := droppedHeader_frame port pkt 0x06 { code := 0x06, out := none } s
  obtain ⟨hpackets, -⟩ := hframe .packets (by decide)
  obtain ⟨hqueues, -⟩ := hframe .queues (by decide)
  exact ⟨hdrop, _, execPacketHeaderRx_dropped hk hdrop, hpackets, hqueues, rfl⟩

end Sys2Proof.Machine
end

section
/-! ## Packets through a slice, its tables and its queues (chapters 5, 6; 07 R251 to R262) -/

namespace Sys2Proof.Machine

/-- Settles O47: each clause follows its event's meaning along the branch that the clause's conditions choose. -/
theorem forwardEvents : Obligations.ForwardEvents := by
  unfold Obligations.ForwardEvents
  and_intros
  -- PACKET_HEADER_RX
  · intro port pkt slots code s hk hdrop
    exact execPacketHeaderRx_dropped hk hdrop
  · intro port pkt slots k s1 s2 f s hk hpass hcolour hclass hroute
    exact onUnit_next hk (by simp only [hpass, hcolour, hclass, hroute, if_false])
  · intro port pkt slots k s1 s2 s3 f s hk hpass hcolour hclass hempty hpoliced hroute
    exact onUnit_next hk (by
      simp only [hpass, hcolour, hclass, hempty, hpoliced, hroute, Bool.not_true, Bool.false_eq_true, if_true, if_false])
  · intro port pkt slots k s1 s hk hpass hcolour hclass hempty hpoliced
    exact onUnit_next hk (by
      simp only [hpass, hcolour, hclass, hempty, hpoliced, Bool.not_true, Bool.false_eq_true, if_true, if_false])
  -- C0_POLICER_RELEASE
  · intro port s hk hnone
    exact onUnit_next hk (by simp only [hnone])
  · intro port k rest s hk hheld hpoliced
    exact onUnit_next hk (by simp only [hheld, hpoliced])
  · intro port k rest s1 s hk hheld hpoliced
    exact onUnit_next hk (by simp only [hheld, hpoliced])
  -- LEARN_MSG_RX
  · intro slice s hk hnone
    exact onUnit_next (decide_eq_true hk) (by simp only [hnone])
  · intro slice m rest s hk hqueue hmay
    exact onUnit_next (decide_eq_true hk) (by simp only [hqueue, hmay, if_true])
  · intro slice m rest s hk hqueue hmay
    exact onUnit_next (decide_eq_true hk) (by simp only [hqueue, hmay, Bool.false_eq_true, if_false])
  -- PACKET_TRAILER_CHECK
  · intro id verdict inst s hnone
    change execPacketTrailerCheck id verdict inst s = _
    simp only [execPacketTrailerCheck, hnone]
  · intro id verdict inst k s hk hdone
    change execPacketTrailerCheck id verdict inst s = _
    rcases hdone with hinside | hcomplete
    · simp only [execPacketTrailerCheck, hk, hinside]
    · simp only [execPacketTrailerCheck, hk, hcomplete, if_true]
      split <;> rfl
  · intro id verdict inst k p s hk hp hopen hclear hverdict
    change execPacketTrailerCheck id verdict inst s = _
    simp [execPacketTrailerCheck, hk, hp, hopen, hclear, hverdict]
  · intro id inst k p s hk hp hopen hclear hconsumer
    change execPacketTrailerCheck id .pass inst s = _
    simp [execPacketTrailerCheck, hk, hp, hopen, hclear, hconsumer]
  · intro id verdict inst k p s1 s hk hp hopen henc hcheck
    change execPacketTrailerCheck id verdict inst s = _
    simp [execPacketTrailerCheck, hk, hp, hopen, henc, hcheck]
  -- STAGING_WRITE
  · intro s ht
    change execStagingWrite s = _
    simp only [execStagingWrite, ht]
  · intro d s1 s ht
    change execStagingWrite s = _
    simp only [execStagingWrite, ht]
  -- HEADROOM_FILLED
  · intro slice s hk hfits
    exact onUnit_next (decide_eq_true hk) (if_pos hfits)
  · intro slice s hk hover
    exact onUnit_next (decide_eq_true hk) (if_neg (Nat.not_le.2 hover))
  -- QUEUE_STALENESS_EXPIRY
  · intro port cls vc s hk hcls hvc hqueued hdry
    exact onUnit_next (by simp only [hk, hcls, hvc, decide_true, Bool.and_self])
      (if_pos (by rw [hqueued, hdry, Bool.not_false, Bool.and_self]))
  · intro port cls vc s hk hcls hvc hidle
    exact onUnit_next (by simp only [hk, hcls, hvc, decide_true, Bool.and_self])
      (if_neg (by rcases hidle with h | h <;> simp [h]))
  -- PORT_STALENESS_EXPIRY
  · intro port s hk hup hqueued
    exact onUnit_next hk (if_pos ⟨hup, hqueued⟩)
  · intro port s hk hdown
    exact onUnit_next hk (if_neg (fun h => hdown h.1))
  -- HUSK_WAIT_EXPIRY
  · intro port cls src s hk hcls hsrc hnone
    exact onUnit_next (by simp only [hk, hcls, hsrc, decide_true, Bool.and_self]) (by simp only [hnone])
  · intro port cls src k s hk hcls hsrc hhead hdry hsingle hlane
    exact onUnit_next (by simp only [hk, hcls, hsrc, decide_true, Bool.and_self]) (by
      simp only [hhead, hdry, hsingle, hlane, Bool.not_true, Bool.or_self, Bool.false_eq_true, if_true, if_false])
  · intro port cls src k s hk hcls hsrc hhead hstays
    exact onUnit_next (by simp only [hk, hcls, hsrc, decide_true, Bool.and_self]) (by
      simp only [hhead]
      exact if_pos (by rcases hstays with h | h <;> simp [h]))
  -- HUSK_MOVE_END
  · intro port cls s hk hcls
    exact ⟨_, onUnit_next (by simp only [hk, hcls, decide_true, Bool.and_self]) rfl, rfl, rfl⟩
  -- BUCKET_LOCK_TIMEOUT
  · intro slice bucket s hk hnone
    exact onUnit_next (decide_eq_true hk) (by simp only [hnone])
  · intro slice bucket l s hk hlock
    exact onUnit_next (decide_eq_true hk) (by simp only [hlock])
  -- SWEEP_TICK
  · intro slice s hk
    exact onUnit_next (decide_eq_true hk) rfl
  · intro slice s hk
    exact onUnit_next (decide_eq_true hk) rfl
  -- PROOF_PERIOD_BOUNDARY
  · intro s
    exact ⟨closePeriod s, rfl, rfl, rfl, rfl⟩
  -- LEND_IDLE_TIMEOUT
  · intro act res s hact hres hlends
    exact onUnit_next (by simp only [hact, hres, decide_true, Bool.and_self]) (if_pos hlends)
  · intro act res s hact hres hkeeps
    exact onUnit_next (by simp only [hact, hres, decide_true, Bool.and_self]) (if_neg (ne_true_of_eq_false hkeeps))

end Sys2Proof.Machine
end

section
/-! ## The CLASS commands (16 Table 16.4; 05 R171, R172, R185; 06 R232; 07 R242 to R252, R256) -/

namespace Sys2Proof.Machine

/-- CLASS.SHAPER with a BURST of its own, not the 0 that stands for the default, at a port that the device has: the
ranges are tested on the operands, and the operands are what the shaper gets (07 R249; 15 R507). -/
theorem execClassShaper_burstGiven {o : Origin} {port target : Nat} {params : ShaperParams} {s b : State}
    (hb : beginsAt o 0x0403 s = some b) (hk : portKnown b port = true) (ht : target ≤ 7)
    (hrate : params.rate < 2 ^ 21) (hmin : 256 ≤ params.burst) (hmax : params.burst < 2 ^ 24) :
    execClassShaper o port target params s = .next (answer o 0x0403 .ok [] (modSchedState (fun x =>
      { x with
        shapers := tabMod shaperReset (fun old => if old.params = params then old else
          { params := params, level := shaperStart params, time := nowRef b }) x.shapers (port * 8 + target) }) b)) := by
  have hgiven : params.burst ≠ 0 := by omega
  have hranges : ¬(7 < target ∨ 2 ^ 21 ≤ params.rate ∨ params.burst < 256 ∨ 2 ^ 24 ≤ params.burst) := by omega
  exact run_onPort_ok hb hk (by simp only [hgiven, hranges, if_false])

/-- Settles O28: each form is the way the command's own rules end from the state at which it begins. -/
theorem classCommands : Obligations.ClassCommands := by
  unfold Obligations.ClassCommands
  and_intros
  -- CLASS_CREDIT_WEIGHT
  · intro o port weights s b hb hk hlen hfit
    exact run_onPort_ok hb hk (if_neg (not_or.2 ⟨not_not.2 hlen, ne_true_of_eq_false hfit⟩))
  · intro o port weights s b hb hk hbad
    exact run_onPort_failWith hb hk (if_pos hbad)
  -- CLASS_SCHED
  · intro o port weights credits overhead s b hb hk hweights hcredits hfit hbounded hover
    exact run_onPort_ok hb hk (if_neg (by
      simp only [hweights, hcredits, hfit, hbounded, Nat.not_lt.2 hover, ne_eq, not_true_eq_false,
        Bool.false_eq_true, or_self, not_false_eq_true]))
  -- CLASS_SHAPER
  · intro o port target params s b hb hk ht hrate hmin hmax
    exact execClassShaper_burstGiven hb hk ht hrate hmin hmax
  · intro o port target params s b hb hk hbad
    exact run_onPort_failWith hb hk (if_pos (hbad.imp_right Or.inl))
  -- CLASS_MARKER
  · intro o port cls params s b hb hk hlow hhigh hcir hpir hle hcbs hpbs hcmax hpmax
    exact run_onPort_ok hb hk (if_neg (by omega))
  · intro o port cls params s b hb hk hbad
    exact run_onPort_failWith hb hk (if_pos (by omega))
  -- CLASS_PROFILE
  · intro o profile curves s b hb hprofile hlen hgood
    exact run_ok hb (if_neg (by simp [hlen, hgood, Nat.not_lt.2 hprofile]))
  · intro o profile curves s b hb hbad
    exact run_failWith hb (if_pos (hbad.imp_right (Or.imp_right (fun h => by rw [h, Bool.not_false]))))
  -- CLASS_QUEUE
  · intro o port cls profile a mark s b hb hk hcls hprofile hcredit ha hmark
    exact run_onPort_ok hb hk (if_neg (by omega))
  · intro o port cls profile a mark s b hb hk hbad
    exact run_onPort_failWith hb hk (if_pos hbad)
  -- CLASS_BUDGET
  · intro o activity shares lendable s b hb hact hlen hfit
    exact run_ok hb ((if_neg (by omega)).trans (if_neg (ne_true_of_eq_false hfit)))
  · intro o activity shares lendable s b hb hact hlen hover
    exact run_failWith hb ((if_neg (by omega)).trans (if_pos hover))
  · intro o activity shares lendable s b hb hbad
    exact run_failWith hb (if_pos hbad)
  -- CLASS_BUDGET_READ
  · intro o s b hb
    exact run_done hb rfl rfl

end Sys2Proof.Machine
end

section
/-! ## Crumbs, samples, snapshots and the neighbour report (05 R190; 14 R455; 19 R599 to R605) -/

namespace Sys2Proof.Machine

/-- Settles O55: each clause follows its event's meaning along the branch that the clause's conditions choose. -/
theorem telemetryEvents : Obligations.TelemetryEvents := by
  unfold Obligations.TelemetryEvents
  and_intros
  -- NEIGHBOUR_CHANGE_HOLDOFF_END
  · intro s hidle
    change execNeighbourChangeHoldoffEnd s = _
    simp only [execNeighbourChangeHoldoffEnd, hidle, Bool.not_false, if_true]
  · intro s hholds hsame
    change execNeighbourChangeHoldoffEnd s = _
    simp only [execNeighbourChangeHoldoffEnd, hholds, hsame, Bool.not_true, Bool.false_eq_true, if_true, if_false]
  · intro s hholds hchanged
    change execNeighbourChangeHoldoffEnd s = _
    simp only [execNeighbourChangeHoldoffEnd, hholds, hchanged, Bool.not_true, Bool.false_eq_true, if_false]
  -- SAMPLE_READY_HOLDOFF_END
  · intro s hidle
    change execSampleReadyHoldoffEnd s = _
    simp only [execSampleReadyHoldoffEnd, hidle, Bool.not_false, if_true]
  · intro s hholds hnew
    change execSampleReadyHoldoffEnd s = _
    simp only [execSampleReadyHoldoffEnd, hholds, hnew, Bool.not_true, Bool.false_eq_true, if_true, if_false]
  · intro s hholds hnone
    change execSampleReadyHoldoffEnd s = _
    simp only [execSampleReadyHoldoffEnd, hholds, hnone, Bool.not_true, Bool.false_eq_true, if_false]
  -- CRUMB_WRITE
  · intro s hempty
    change execCrumbWrite s = _
    simp only [execCrumbWrite, hempty]
  · intro c cs s hqueued hstarts
    change execCrumbWrite s = _
    simp only [execCrumbWrite, hqueued, hstarts, Bool.not_true, Bool.false_eq_true, if_false]
  · intro c cs s hqueued hspent
    change execCrumbWrite s = _
    simp only [execCrumbWrite, hqueued, hspent, Bool.not_false, if_true]
  -- SAMPLE_WRITE
  · intro s hempty
    change execSampleWrite s = _
    simp only [execSampleWrite, hempty]
  · intro r rs s hqueued hstarts
    change execSampleWrite s = _
    simp only [execSampleWrite, hqueued, hstarts, Bool.not_true, Bool.false_eq_true, if_false]
  · intro r rs s hqueued hspent
    change execSampleWrite s = _
    simp only [execSampleWrite, hqueued, hspent, Bool.not_false, if_true]
  -- SNAPSHOT_LATCH
  · intro mailbox seq s hnone
    change execSnapshotLatch mailbox seq s = _
    simp only [execSnapshotLatch, hnone]
  · intro mailbox seq x s hfound
    change execSnapshotLatch mailbox seq s = _
    simp only [execSnapshotLatch, hfound]

end Sys2Proof.Machine
end

section
/-! ## The TABLE commands (16 Table 16.3; 06 R197, R206 to R210, R222; 14 R463 to R468, R646) -/

namespace Sys2Proof.Machine

/-- A PID that names a defined partition other than the fabric's: the command's own rules run (14 R463). -/
theorem onPartition_defined {pid : Nat} {f : State → CmdOutcome} {s : State} (h0 : pid ≠ 0) (hlt : pid < 0xFFF)
    (hd : (partition s pid).defined = true) : onPartition pid f s = f s :=
  if_neg (by simp only [h0, Nat.not_le.2 hlt, hd, Bool.not_true, Bool.false_eq_true, or_self, not_false_eq_true])

theorem onPartition_undefined {pid : Nat} {f : State → CmdOutcome} {s : State}
    (h : pid = 0 ∨ 0xFFF ≤ pid ∨ (partition s pid).defined = false) : onPartition pid f s = failWith .invalid s :=
  if_pos (h.imp_right (Or.imp_right (fun hd => by rw [hd, Bool.not_false])))

/-- A command on a defined partition that its own rules end OK (14 R463; 16 R513). -/
theorem run_onPartition_ok {o : Origin} {op pid : Nat} {f : State → CmdOutcome} {s b u : State}
    (h : beginsAt o op s = some b) (h0 : pid ≠ 0) (hlt : pid < 0xFFF) (hd : (partition b pid).defined = true)
    (hf : f b = okWith u) :
    (.next (runCommand o op (onPartition pid f) s) : Host.Outcome State Fault Refusal) = .next (answer o op .ok [] u) :=
  run_ok h ((onPartition_defined h0 hlt hd).trans hf)

/-- A command on a defined partition that its own rules turn away (14 R463; 16 R513). -/
theorem run_onPartition_failWith {o : Origin} {op pid : Nat} {f : State → CmdOutcome} {s b : State} {st : Status}
    (h : beginsAt o op s = some b) (h0 : pid ≠ 0) (hlt : pid < 0xFFF) (hd : (partition b pid).defined = true)
    (hf : f b = failWith st b) :
    (.next (runCommand o op (onPartition pid f) s) : Host.Outcome State Fault Refusal) = .next (answer o op st [] b) :=
  run_failWith h ((onPartition_defined h0 hlt hd).trans hf)

/-- Settles O27: each form is the way the command's own rules end from the state at which it begins. -/
theorem tableCommands : Obligations.TableCommands := by
  unfold Obligations.TableCommands
  and_intros
  -- TABLE_WRITE
  · intro o table slices g elems t s b hb htable hslices hsome hgood hpid hgen hfree hw
    exact run_ok hb (by
      simp only [htable, hslices, hsome, hgood, hpid, hgen, hfree, hw, Bool.not_true, Bool.or_self, Bool.false_eq_true,
        and_false, if_false])
  · intro o table slices g elems s b hb htable hslices hsome hgood hpid hgen hfree hw
    exact run_failWith hb (by
      simp only [htable, hslices, hsome, hgood, hpid, hgen, hfree, hw, Bool.not_true, Bool.or_self, Bool.false_eq_true,
        and_false, if_false])
  · intro o table slices g elems hung s b hb htable hslices hsome hgood hpid hgen
    exact run_failWith hb (by
      simp only [htable, hslices, hsome, hgood, hpid, hgen, Bool.not_true, Bool.or_self, Bool.false_eq_true,
        if_true, if_false])
  · intro o table slices g elems hung s b hb hbad
    refine run_failWith hb (if_pos ?_)
    rcases hbad with h | h | h <;> simp only [h, Bool.not_false, Bool.true_or, Bool.or_true]
  -- TABLE_READ
  · intro o table slice first amount s b hb htable hslice hsome hmost hin
    exact run_done hb (if_neg (by omega)) rfl
  · intro o table slice first amount s b hb hbad
    exact run_failWith hb (if_pos hbad)
  -- TABLE_PURGE
  · intro o slices pid g s b hb hslices hpid hg hfree
    exact run_done hb (by
      simp only [hslices, hfree, Nat.not_le.2 hpid, Nat.not_le.2 hg, decide_false, Bool.not_true, Bool.or_self,
        Bool.false_eq_true, if_false]) rfl
  · intro o slices pid g s b hb hbad
    refine run_failWith hb (if_pos ?_)
    rcases hbad with h | h | h <;> simp only [h, decide_true, Bool.not_false, Bool.true_or, Bool.or_true]
  -- TABLE_PARAMS
  · intro o slices params s b hb hslices hgood
    exact run_ok hb (by simp only [hslices, hgood, Bool.not_true, Bool.or_self, Bool.false_eq_true, if_false])
  · intro o slices params s b hb hbad
    refine run_failWith hb (if_pos ?_)
    rcases hbad with h | h <;> simp only [h, Bool.not_false, Bool.true_or, Bool.or_true]
  -- TABLE_ROOT_PRIORITY
  · intro o value s b hb hvalue
    exact run_ok hb (if_neg (Nat.not_le.2 hvalue))
  · intro o value s b hb hvalue
    exact run_failWith hb (if_pos hvalue)
  -- TABLE_PARTITION
  · intro o pid w0 ports s b hb hpid hports hroom
    exact run_done hb ((if_neg (by omega)).trans (if_neg (Nat.not_le.2 hroom))) rfl
  · intro o pid w0 ports s b hb hpid hports hfull
    exact run_failWith hb ((if_neg (by omega)).trans (if_pos hfull))
  · intro o pid w0 ports s b hb hbad
    exact run_failWith hb (if_pos hbad)
  -- TABLE_FENCE
  · intro o pid notify s b hb h0 hlt hd hlen hgroups
    exact run_onPartition_ok hb h0 hlt hd (by
      simp only [Nat.not_lt.2 hlen, hgroups, Bool.not_true, Bool.false_eq_true, or_self, if_false])
  · intro o pid notify s b hb hbad
    exact run_failWith hb (onPartition_undefined hbad)
  -- TABLE_ADVANCE
  · intro o pid epoch s b hb h0 hlt hd hfenced hepoch hahead
    exact run_onPartition_ok hb h0 hlt hd (by
      simp only [Nat.not_le.2 hepoch, hfenced, hahead, Bool.not_true, Bool.false_eq_true, if_false])
  · intro o pid epoch s b hb h0 hlt hd hopen hepoch
    exact run_onPartition_failWith hb h0 hlt hd (by
      simp only [Nat.not_le.2 hepoch, hopen, Bool.not_false, if_true, if_false])
  · intro o pid epoch s b hb h0 hlt hd hfenced hepoch hbehind
    exact run_onPartition_failWith hb h0 hlt hd (by
      simp only [Nat.not_le.2 hepoch, hfenced, hbehind, Bool.not_true, Bool.not_false, Bool.false_eq_true, if_true,
        if_false])
  -- TABLE_OPEN
  · intro o pid s b hb h0 hlt hd hfenced
    exact run_onPartition_ok hb h0 hlt hd (by simp only [hfenced, Bool.not_true, Bool.false_eq_true, if_false])
  · intro o pid s b hb h0 hlt hd hopen
    exact run_onPartition_failWith hb h0 hlt hd (by simp only [hopen, Bool.not_false, if_true])

end Sys2Proof.Machine
end

section
/-! ## Where a command of the contract begins

What its checks, its SEQ and its answer leave as they were (15 R495, R497). -/

namespace Sys2Proof.Machine

/-- Before its own rules run, a command has changed at most what its answer may change. -/
theorem beginsAt_frame {o : Origin} {op : Nat} {s b : State} (h : beginsAt o op s = some b) :
    OnlyChanges answerParts s b := by
  unfold beginsAt at h
  split at h
  · cases h
  split at h
  · split at h
    · cases h
      exact OnlyChanges.refl _ _
    · cases h
  · split at h
    · cases h
    split at h
    · cases h
    cases h
    exact (takeSeq_frame _ _).after (by decide) ((filterCommand_frame _ _ _).mono (by decide))

/-- A command answered from the state at which it begins has changed nothing but the answer's own parts. -/
theorem answer_begins_frame {o : Origin} {op : Nat} {s b : State} (h : beginsAt o op s = some b) (st : Status)
    (ws : List Word) : OnlyChanges answerParts s (answer o op st ws b) :=
  (answer_frame _ _ _ _ _).before (beginsAt_frame h)

theorem beginsAt_nextOpen {o : Origin} {op : Nat} {s b : State} (h : beginsAt o op s = some b) :
    b.loaf.nextOpen = s.loaf.nextOpen := by
  obtain ⟨_, _, _, _, _, hnext, _⟩ := beginsAt_frame h .loafs (by decide)
  exact hnext

theorem accept_nextOpen (o : Origin) (op : Nat) (grace : Option Nat) (tell : Bool) (s : State) :
    (accept o op grace tell s).loaf.nextOpen = s.loaf.nextOpen := by
  obtain ⟨_, _, _, _, _, hnext, _⟩ := accept_frame o op grace tell s .loafs (by decide)
  exact hnext

end Sys2Proof.Machine
end

section
/-! ## The LOAF commands (16 Table 16.5; 08 R268 to R271, R275, R280, R294, R301, R304, R305) -/

namespace Sys2Proof.Machine

section
variable {o : Origin} {gid pid : Nat} {delivery members : List Nat} {s b : State} (hb : beginsAt o 0x0501 s = some b)
  (hgid : gid < 2 ^ 20) (h0 : pid ≠ 0) (hpid : pid < 0xFFF) (hdef : (partition b pid).defined = true)
  (hsome : 0 < members.length) (hmost : members.length ≤ 131072) (hdel : delivery.length ≤ 64)
  (haddr : ∀ m ∈ members, m < 2 ^ 20)

include hgid h0 hpid hdef hsome hmost hdel haddr in
/-- Operands in the ranges of LOAF.GROUP_DEFINE pass its first refusal (08 R268). -/
theorem groupDefine_inRange : ¬(2 ^ 20 ≤ gid ∨ pid = 0 ∨ 0xFFF ≤ pid ∨ !(partition b pid).defined ∨
    members.length = 0 ∨ 131072 < members.length ∨ 64 < delivery.length ∨
    members.any (fun m => decide (2 ^ 20 ≤ m))) := by
  have haddrs : members.any (fun m => decide (2 ^ 20 ≤ m)) = false :=
    List.any_eq_false.2 fun m hm => by simpa using haddr m hm
  simp only [hdef, haddrs, Bool.not_true, Bool.false_eq_true, or_false, false_or]
  omega

include hb hgid h0 hpid hdef hsome hmost hdel haddr in
/-- LOAF.GROUP_DEFINE of a group with an open recipe (08 R270). -/
theorem execLoafGroupDefine_openRecipe (hrecipe : hasRecipe b gid = true) :
    execLoafGroupDefine o gid pid delivery members s = .next (answer o 0x0501 .conflict [] b) :=
  run_failWith hb ((if_neg (groupDefine_inRange hgid h0 hpid hdef hsome hmost hdel haddr)).trans (if_pos hrecipe))

end

/-- LOAF.GROUP_DELETE of a group with an open recipe (08 R270). -/
theorem execLoafGroupDelete_openRecipe {o : Origin} {gid : Nat} {g : Group} {s b : State}
    (hb : beginsAt o 0x0502 s = some b) (hg : group b gid = some g) (hrecipe : hasRecipe b gid = true) :
    execLoafGroupDelete o gid s = .next (answer o 0x0502 .conflict [] b) :=
  run_failWith hb (by simp only [hg, hrecipe, Option.isNone_some, Bool.false_eq_true, if_true, if_false])

/-- Settles O20: both commands are answered from the state at which they begin. -/
theorem groupWithOpenRecipe : Obligations.GroupWithOpenRecipe := by
  unfold Obligations.GroupWithOpenRecipe
  constructor
  · intro o gid pid delivery members s b hb hgid h0 hpid hdef hsome hmost hdel haddr hrecipe
    exact ⟨execLoafGroupDefine_openRecipe hb hgid h0 hpid hdef hsome hmost hdel haddr hrecipe,
      answer_begins_frame hb _ _⟩
  · intro o gid g s b hb hg hrecipe
    exact ⟨execLoafGroupDelete_openRecipe hb hg hrecipe, answer_begins_frame hb _ _⟩

/-- LOAF.OPEN and LOAF.CLOSE tell by the next OPEN_ID whether their command was accepted. One that was goes on under the
OPEN_ID that it was given (08 R280, R304, Table 8.7). -/
theorem run_goesOn {o : Origin} {op : Nat} {grace : Option Nat} {body : State → CmdOutcome} {s b u : State}
    (goOn : Nat → State → State) (h : beginsAt o op s = some b)
    (hrun : (.next (runCommand o op body s) : Host.Outcome State Fault Refusal) = .next (accept o op grace true u))
    (hu : u.loaf.nextOpen = (b.loaf.nextOpen + 1) % 2 ^ 24) :
    (.next (if (runCommand o op body s).loaf.nextOpen = s.loaf.nextOpen then runCommand o op body s
      else goOn s.loaf.nextOpen (runCommand o op body s)) : Host.Outcome State Fault Refusal) =
      .next (goOn b.loaf.nextOpen (accept o op grace true u)) := by
  have haccepted : runCommand o op body s = accept o op grace true u := Host.Outcome.next.inj hrun
  have hmoved : (accept o op grace true u).loaf.nextOpen ≠ b.loaf.nextOpen := by
    rw [accept_nextOpen, hu]
    omega
  rw [haccepted, ← beginsAt_nextOpen h, if_neg hmoved]

/-- Settles O29: each form is the way the command's own rules end from the state at which it begins. -/
theorem loafCommands : Obligations.LoafCommands := by
  unfold Obligations.LoafCommands
  and_intros
  -- LOAF_GROUP_DEFINE
  · intro o gid pid delivery members s b hb hgid h0 hpid hdef hsome hmost hdel haddr hfree hdiffer hserve hbound
    exact run_done hb ((if_neg (groupDefine_inRange hgid h0 hpid hdef hsome hmost hdel haddr)).trans (by
      simp only [hfree, hdiffer, hserve, hbound, Bool.not_true, Bool.or_self, Bool.false_eq_true, if_false])) rfl
  · intro o gid pid delivery members s b hb hgid h0 hpid hdef hsome hmost hdel haddr hfree hdiffer hserve hbound
    exact run_failWith hb ((if_neg (groupDefine_inRange hgid h0 hpid hdef hsome hmost hdel haddr)).trans (by
      simp only [hfree, hdiffer, hserve, hbound, Bool.not_true, Bool.or_self, Bool.false_eq_true, if_true, if_false]))
  · intro o gid pid delivery members s b hb hgid h0 hpid hdef hsome hmost hdel haddr hrecipe
    exact execLoafGroupDefine_openRecipe hb hgid h0 hpid hdef hsome hmost hdel haddr hrecipe
  -- LOAF_GROUP_DELETE
  · intro o gid g s b hb hg hfree
    exact run_ok hb (by simp only [hg, hfree, Option.isNone_some, Bool.false_eq_true, if_false])
  · intro o gid g s b hb hg hrecipe
    exact execLoafGroupDelete_openRecipe hb hg hrecipe
  · intro o gid s b hb hnone
    exact run_failWith hb (if_pos (by rw [hnone, Option.isNone_none]))
  -- LOAF_LIVE
  · intro o gid se live g s b hb hg hlen hse
    exact run_ok hb (by simp only [hg, hlen, Nat.not_le.2 hse, ne_eq, not_true_eq_false, or_self, if_false])
  · intro o gid se live s b hb hnone
    exact run_failWith hb (by simp only [hnone])
  -- LOAF_ABORT_COMMAND
  · intro o gid seq g s b hb hg hmay hruns
    exact run_ok hb (by simp only [hg, hmay, hruns, Bool.not_true, Bool.false_eq_true, if_true, if_false])
  · intro o gid seq g s b hb hg hmay hidle
    exact run_failWith hb (by simp only [hg, hmay, hidle, Bool.not_true, Bool.false_eq_true, if_false])
  · intro o gid seq g s b hb hg hdenied
    exact run_failWith hb (by simp only [hg, hdenied, Bool.not_false, if_true])
  -- LOAF_MEMBER_LOST
  · intro o gid member s b hb hin
    exact run_ok hb (if_pos hin)
  · intro o gid member s b hb hout
    exact run_failWith hb (if_neg (Nat.not_lt.2 hout))
  -- LOAF_SIZING
  · intro o pid reach limit s b hb hreach hlimit hpid hdef
    exact run_ok hb (if_neg (by
      simp only [hdef, Bool.not_true, Bool.false_eq_true, or_false]
      omega))
  -- LOAF_KNEAD
  · intro o high low grace s b hb hhigh hlow hgrace
    exact run_ok hb ((if_neg (by omega)).trans (if_pos rfl))
  · intro o high low grace s b hb hhigh hlow hgrace hidle
    exact run_ok hb ((if_neg (by omega)).trans (by
      simp only [hidle, List.isEmpty_nil, Bool.false_eq_true, if_true, if_false]))
  · intro o high low grace s b hb hhigh hlow hgrace hruns
    exact run_grace hb ((if_neg (by omega)).trans (by
      simp only [List.isEmpty_iff, hruns, Bool.false_eq_true, if_false]))
  -- LOAF_RECIPES
  · intro o gid g s b hb hg hmay
    exact run_done hb (by simp only [hg, hmay, Bool.not_true, Bool.false_eq_true, if_false]) rfl
  · intro o gid g s b hb hg hdenied
    exact run_failWith hb (by simp only [hg, hdenied, Bool.not_false, if_true])
  · intro o gid s b hb hnone
    exact run_failWith hb (by simp only [hnone])
  -- LOAF_OPEN
  · intro o gid params g s b hb hg hmay hvalid hpins hup hopen hspines
    exact run_goesOn placeRound hb (run_later hb (by
      simp only [hg, hmay, hvalid, hpins, hup, hopen, hspines, Bool.not_true, Bool.or_self, Bool.false_eq_true,
        if_false])) rfl
  -- LOAF_CLOSE
  · intro o gid recipe grace g h s b hb hg hh hmay hgrace hhome
    exact run_goesOn (fun jid => beginClose o jid gid recipe) hb (run_grace hb (by
      simp only [hg, hh, hmay, hhome, Nat.not_lt.2 hgrace, Bool.not_true, Bool.false_eq_true, if_false])) rfl

end Sys2Proof.Machine
end

section
/-! ## Loaves (08 R284 to R294, R296, R302; 09 R331) -/

namespace Sys2Proof.Machine

section
variable {errs : List LineError} {d : Delivered} {c : LoafCtx} {h : Held} {s s1 : State}
  (ht : takeDelivered 1 s = some (d, s1)) (hc : loafCtx s (ctxKey (xGid d.pkt) (xPortion d.pkt)) = some c)
  (hh : held s (xGid d.pkt) c.recipeId = some h)

include ht hc in
/-- A contribution to a context whose recipe is not held is counted as one without a context (08 R283). -/
theorem execContributionRx_unheld (hnone : held s (xGid d.pkt) c.recipeId = none) :
    execContributionRx errs s = .next (countSlice (deliveredSlice s d) 12 s1) := by
  simp only [execContributionRx, ht, hc, hnone]

include ht hc hh in
/-- A contribution that waits stays in staging SRAM (08 R289; 07 Table 7.5). -/
theorem execContributionRx_waits (hw : mustWait s h c d.pkt = true) : execContributionRx errs s = .next s := by
  simp only [execContributionRx, ht, hc, hh, hw, if_true]

include ht hc hh in
/-- What a context does with a contribution that does not wait follows from how its sequence stands to the current one
(08 R285). -/
theorem execContributionRx_related {r : Relation} (hw : mustWait s h c d.pkt = false)
    (hr : relationOf h.closing c (xLoafSeq d.pkt) = r) : execContributionRx errs s = .next (match r with
      | .behind => countKnead c.knead 2 1 s1
      | .current => accept1 (ctxKey (xGid d.pkt) (xPortion d.pkt)) h d.pkt errs s1
      | .begins => startLoaf (ctxKey (xGid d.pkt) (xPortion d.pkt)) h d.pkt errs s1
      | .abandons => startLoaf (ctxKey (xGid d.pkt) (xPortion d.pkt)) h d.pkt errs (countKnead c.knead 3 1 s1)) := by
  simp only [execContributionRx, ht, hc, hh, hw, hr, Bool.false_eq_true, if_false]
  cases r <;> rfl

end

/-- SPILL_COMPLETE at a context that spills nothing, or while the spill share is spent, whether or not its recipe is
held (08 R291). -/
theorem execSpillComplete_waits {gid portion : Nat} {c : LoafCtx} {s : State}
    (hc : loafCtx s (ctxKey gid portion) = some c) (hstays : (c.spilling && spillMay s) = false) :
    execSpillComplete gid portion s = .next s := by
  cases hh : held s gid c.recipeId with
  | none => simp only [execSpillComplete, hc, hh]
  | some h =>
    simp only [execSpillComplete, hc, hh, Bool.and_assoc, hstays, Bool.and_false, Bool.false_eq_true, if_false]

/-- SPILL_RESTORE at a context whose slots stand in SRAM, or while the spill share is spent, whether or not its recipe
is held (08 R291). -/
theorem execSpillRestore_waits {gid portion : Nat} {errs : List LineError} {c : LoafCtx} {s : State}
    (hc : loafCtx s (ctxKey gid portion) = some c) (hstays : c.sram = true ∨ spillMay s = false) :
    execSpillRestore gid portion errs s = .next s := by
  cases hh : held s gid c.recipeId with
  | none => simp only [execSpillRestore, hc, hh]
  | some h =>
    have hidle : (!c.sram && c.phase != .idle && sramRoom s h.recipe c && spillMay s) = false := by
      rcases hstays with hin | hspent
      · simp only [hin, Bool.not_true, Bool.false_and]
      · rw [hspent, Bool.and_false]
    simp only [execSpillRestore, hc, hh, hidle, Bool.false_eq_true, if_false]

/-- Settles O48: each clause follows its event's meaning along the branch that the clause's conditions choose. -/
theorem loafEvents : Obligations.LoafEvents := by
  unfold Obligations.LoafEvents
  and_intros
  -- CONTRIBUTION_RX
  · intro errs s ht
    change execContributionRx errs s = _
    simp only [execContributionRx, ht]
  · intro errs d s1 s ht hc
    change execContributionRx errs s = _
    simp only [execContributionRx, ht, hc]
  · intro errs d s1 c s ht hc hnone
    exact execContributionRx_unheld ht hc hnone
  · intro errs d s1 c h s ht hc hh hw
    exact execContributionRx_waits ht hc hh hw
  · intro errs d s1 c h s ht hc hh hw hr
    exact execContributionRx_related ht hc hh hw hr
  · intro errs d s1 c h s ht hc hh hw hr
    exact execContributionRx_related ht hc hh hw hr
  · intro errs d s1 c h s ht hc hh hw hr
    exact execContributionRx_related ht hc hh hw hr
  · intro errs d s1 c h s ht hc hh hw hr
    exact execContributionRx_related ht hc hh hw hr
  -- SLOT_RESULT_WRITTEN
  · intro gid portion slot s hc
    change execSlotResultWritten gid portion slot s = _
    simp only [execSlotResultWritten, hc]
  · intro gid portion slot c sl h g s hc hsl hh hg hfull hempty
    change execSlotResultWritten gid portion slot s = _
    simp only [execSlotResultWritten, hc, hsl, hh, hg, hfull, hempty, Bool.not_true, Bool.or_self,
      Bool.false_eq_true, if_false]
  · intro gid portion slot c sl h g s hc hsl hh hg hstays
    have hheld : (!sl.full || !(waitingOf s (kneadSource (c.knead / 8))).isEmpty) = true := by
      rcases hstays with hopen | hwaits
      · rw [hopen, Bool.not_false, Bool.true_or]
      · rw [hwaits, Bool.not_false, Bool.or_true]
    change execSlotResultWritten gid portion slot s = _
    simp only [execSlotResultWritten, hc, hsl, hh, hg, hheld, if_true]
  -- GATHER_SEND
  · intro gid recipe errs h g s hh hg hnext
    change execGatherSend gid recipe errs s = _
    simp only [execGatherSend, hh, hg, hnext]
  · intro gid recipe errs h g x s hh hg hnext hmay
    change execGatherSend gid recipe errs s = _
    simp only [execGatherSend, hh, hg, hnext, ← Bool.not_and, hmay, Bool.not_true, Bool.false_eq_true, if_false]
  · intro gid recipe errs h g x s hh hg hnext hmust
    change execGatherSend gid recipe errs s = _
    simp only [execGatherSend, hh, hg, hnext, ← Bool.not_and, hmust, Bool.not_false, if_true]
  -- SPILL_IDLE_TIMEOUT
  · intro gid portion c h s hc hp hh hneed
    change execSpillIdleTimeout gid portion s = _
    simp only [execSpillIdleTimeout, hc, hp, hh, hneed, Option.map_some, Option.getD_some, decide_true, and_self,
      if_true]
  · intro gid portion c s hc hp
    change execSpillIdleTimeout gid portion s = _
    simp only [execSpillIdleTimeout, hc, hp, false_and, if_false]
  · intro gid portion s hc
    change execSpillIdleTimeout gid portion s = _
    simp only [execSpillIdleTimeout, hc]
  -- SPILL_COMPLETE
  · intro gid portion c h s hc hh hp hspills hmay
    change execSpillComplete gid portion s = _
    simp only [execSpillComplete, hc, hh, hp, hspills, hmay, decide_true, Bool.and_self, if_true]
  · intro gid portion c s hc hstays
    exact execSpillComplete_waits hc hstays
  · intro gid portion s hc
    change execSpillComplete gid portion s = _
    simp only [execSpillComplete, hc]
  -- SPILL_RESTORE
  · intro gid portion errs c h s hc hh hout hp hroom hmay
    have hbusy : (c.phase != .idle) = true := bne_iff_ne.2 hp
    change execSpillRestore gid portion errs s = _
    simp only [execSpillRestore, hc, hh, hout, hbusy, hroom, hmay, Bool.not_false, Bool.and_self, if_true]
  · intro gid portion errs c s hc hstays
    exact execSpillRestore_waits hc hstays
  -- LOAF_STALENESS_EXPIRY
  · intro gid portion c s hc hp
    change execLoafStalenessExpiry gid portion s = _
    simp only [execLoafStalenessExpiry, hc, hp, if_false]
  · intro gid portion c s hc hp
    change execLoafStalenessExpiry gid portion s = _
    simp only [execLoafStalenessExpiry, hc, hp, if_true]
  · intro gid portion s hc
    change execLoafStalenessExpiry gid portion s = _
    simp only [execLoafStalenessExpiry, hc]
  -- ABORT_RX
  · intro s ht
    change execAbortRx s = _
    simp only [execAbortRx, ht]
  · intro d s1 s ht hnone
    change execAbortRx s = _
    simp only [execAbortRx, ht, hnone]
  · intro d s1 e es s ht hsome
    change execAbortRx s = _
    simp only [execAbortRx, ht, hsome, List.foldl_cons]
  -- STAGING_SRAM_ERROR
  · intro unit context s hk
    exact onUnit_next (decide_eq_true hk) rfl
  · intro unit context c s hk hc
    exact onUnit_next (decide_eq_true hk) (by
      simp only [hc, Option.bind_some, Option.getD_some, Bool.not_true, Bool.false_eq_true, if_false])
  · intro unit s hk
    exact onUnit_next (decide_eq_true hk) rfl
  · intro unit context double s hk
    exact onUnit_fault (decide_eq_false (Nat.not_lt.2 hk))
  -- INJECTION_WRITE
  · intro source s hlow hhigh hnone
    exact onUnit_next (by simp only [hlow, hhigh, decide_true, Bool.and_self]) (by simp only [hnone])
  · intro source t s hlow hhigh hsome
    exact onUnit_next (by simp only [hlow, hhigh, decide_true, Bool.and_self]) (by simp only [hsome])
  · intro source s hout
    exact onUnit_fault (by rw [← Bool.decide_and]; exact decide_eq_false (by omega))

end Sys2Proof.Machine
end

section
/-! ## Recipe notices (08 R279 to R282, R300, R301, R304, R305, R653; 12 R406) -/

namespace Sys2Proof.Machine

section
variable {k : Packet} {j : OpenJob} {s s1 : State} (ht : takeNotice 0x11 s = some (k, s1))
include ht

/-- A RESERVED of an opening that no longer runs is answered RELEASE (08 R281). -/
theorem execReservedRx_unknown (hnone : tabGet? s1.loaf.opens (noticeOpen k) = none) : execReservedRx s = .next
    (sendNotice (senderSid k) 0x15 (noticeOpen k) (noticeGid k) 0 (noticeRecipe k) 0 [] s1) := by
  simp only [execReservedRx, ht, hnone]

variable (hj : tabGet? s1.loaf.opens (noticeOpen k) = some j)
include hj

/-- A RESERVED that the opening does not wait for is answered RELEASE (08 R281). -/
theorem execReservedRx_late (hlate : j.committing = true ∨ j.waiting.contains (senderSid k) = false ∨
    j.recipe.recipeId ≠ noticeRecipe k) : execReservedRx s = .next
    (sendNotice (senderSid k) 0x15 (noticeOpen k) (noticeGid k) 0 (noticeRecipe k) 0 [] s1) := by
  have htest : (j.committing || !j.waiting.contains (senderSid k) || j.recipe.recipeId != noticeRecipe k) = true := by
    rcases hlate with hcommits | hunasked | hother
    · rw [hcommits, Bool.true_or, Bool.true_or]
    · rw [hunasked, Bool.not_false, Bool.or_true, Bool.true_or]
    · rw [bne_iff_ne.2 hother, Bool.or_true]
  simp only [execReservedRx, ht, hj, htest, if_true]

/-- A RESERVED that the opening waits for is noted with its units (08 R280, Table 8.6 step 3). -/
theorem execReservedRx_noted (hasks : j.committing = false) (hwaits : j.waiting.contains (senderSid k) = true)
    (hid : j.recipe.recipeId = noticeRecipe k) : execReservedRx s = .next
    (settleRound (noticeOpen k) (modOpen (noticeOpen k) (noteReserved (senderSid k)
      ((noticeWords k 0 (noticeEntries k)).map (fun w => (fld w 31 20, fld w 19 14)))) s1)) := by
  simp only [execReservedRx, ht, hj, hasks, hwaits, hid, bne_self_eq_false, Bool.not_true, Bool.or_self,
    Bool.false_eq_true, if_false]

end

/-- A COMMIT short of some portion's word is laid into its reservation (08 R280, Table 8.6 step 5). -/
theorem execCommitRx_partial {k : Packet} {r : Reservation} {s s1 : State} (ht : takeNotice 0x13 s = some (k, s1))
    (hr : findReservation s1 (senderSid k) (noticeOpen k) = some r)
    (hmore : (commitWords k r).length < r.recipe.parts) : execCommitRx s = .next (modLoaf (fun l => { l with
      reservations := l.reservations.map (fun x => if x.home = senderSid k ∧ x.openId = noticeOpen k then
        { r with words := commitWords k r } else x) }) s1) := by
  simp only [execCommitRx, ht, hr, hmore, if_true]

/-- The repeat of a CLOSE whose command has ended forgets the closing (08 R304). -/
theorem execCloseRepeatTick_ended {job : Nat} {j : CloseJob} {s : State} (hj : tabGet? s.loaf.closes job = some j)
    (hended : stillOutstanding s j.origin = false) : execCloseRepeatTick job s = .next (modLoaf (fun l => { l with
      closes := tabDel l.closes job }) s) := by
  simp only [execCloseRepeatTick, hj, hended, Bool.not_false, if_true]

/-- Settles O49: each clause follows its event's meaning along the branch that the clause's conditions choose. -/
theorem noticeEvents : Obligations.NoticeEvents := by
  unfold Obligations.NoticeEvents
  and_intros
  -- RESERVE_RX
  · intro s ht
    change execReserveRx s = _
    simp only [execReserveRx, ht]
  · intro k s1 s ht
    change execReserveRx s = _
    simp only [execReserveRx, ht]
  -- RESERVATION_EXPIRY
  · intro home opened r s hr
    change execReservationExpiry home opened s = _
    simp only [execReservationExpiry, hr]
  · intro home opened s hr
    change execReservationExpiry home opened s = _
    simp only [execReservationExpiry, hr]
  -- COMMIT_RX
  · intro s ht
    change execCommitRx s = _
    simp only [execCommitRx, ht]
  · intro k s1 s ht hr
    change execCommitRx s = _
    simp only [execCommitRx, ht, hr]
  · intro k s1 r s ht hr hmore
    exact ⟨_, execCommitRx_partial ht hr hmore, rfl, rfl⟩
  · intro k s1 r s ht hr hlast
    change execCommitRx s = _
    simp only [execCommitRx, ht, hr, Nat.not_lt.2 hlast, if_false]
  -- RELEASE_RX
  · intro s ht
    change execReleaseRx s = _
    simp only [execReleaseRx, ht]
  · intro k s1 r s ht hr
    change execReleaseRx s = _
    simp only [execReleaseRx, ht, hr, Option.isSome_some, if_true]
  · intro k s1 s ht hr hhere
    change execReleaseRx s = _
    simp only [execReleaseRx, ht, hr, hhere, Option.isSome_none, Bool.false_eq_true, if_true, if_false]
  · intro k s1 s ht hr hnot
    change execReleaseRx s = _
    simp only [execReleaseRx, ht, hr, hnot, Option.isSome_none, Bool.false_eq_true, if_false]
  -- RESERVED_RX
  · intro s ht
    change execReservedRx s = _
    simp only [execReservedRx, ht]
  · intro k s1 s ht hnone
    exact execReservedRx_unknown ht hnone
  · intro k s1 j s ht hj hlate
    exact execReservedRx_late ht hj hlate
  · intro k s1 j s ht hj hasks hwaits hid
    exact execReservedRx_noted ht hj hasks hwaits hid
  -- REFUSED_RX
  · intro s ht
    change execRefusedRx s = _
    simp only [execRefusedRx, ht]
  · intro k s1 s ht hnone
    change execRefusedRx s = _
    simp only [execRefusedRx, ht, hnone]
  · intro k s1 j s ht hj hwaits hid hcommits
    change execRefusedRx s = _
    simp only [execRefusedRx, ht, hj, hwaits, hid, hcommits, bne_self_eq_false, Bool.not_true, Bool.or_self,
      Bool.false_eq_true, if_true, if_false]
  · intro k s1 j s ht hj hwaits hid hasks
    change execRefusedRx s = _
    simp only [execRefusedRx, ht, hj, hwaits, hid, hasks, bne_self_eq_false, Bool.not_true, Bool.or_self,
      Bool.false_eq_true, if_false]
  -- RESERVE_ANSWER_TIMEOUT
  · intro opened sid j s hj hasks hwaits
    change execReserveAnswerTimeout opened sid s = _
    simp only [execReserveAnswerTimeout, hj, hasks, hwaits, Bool.not_false, Bool.and_self, if_true]
  · intro opened sid s hnone
    change execReserveAnswerTimeout opened sid s = _
    simp only [execReserveAnswerTimeout, hnone]
  -- COMMITTED_RX
  · intro s ht
    change execCommittedRx s = _
    simp only [execCommittedRx, ht]
  · intro k s1 j s ht hj hasks
    change execCommittedRx s = _
    simp only [execCommittedRx, ht, hj, hasks, Bool.not_false, if_true]
  · intro k s1 j s ht hj hcommits hmore
    change execCommittedRx s = _
    simp only [execCommittedRx, ht, hj, hcommits, hmore, Bool.not_true, Bool.not_false, Bool.false_eq_true, if_true,
      if_false]
  · intro k s1 j s ht hj hcommits hlast
    change execCommittedRx s = _
    simp only [execCommittedRx, ht, hj, hcommits, hlast, Bool.not_true, Bool.false_eq_true, if_false]
  -- COMMIT_TIMEOUT
  · intro opened j s hj hcommits
    change execCommitTimeout opened s = _
    simp only [execCommitTimeout, hj, hcommits, if_true]
  · intro opened j s hj hasks
    change execCommitTimeout opened s = _
    simp only [execCommitTimeout, hj, hasks, Bool.false_eq_true, if_false]
  -- CLOSE_RX
  · intro s ht
    change execCloseRx s = _
    simp only [execCloseRx, ht]
  · intro k s1 s ht hnone
    change execCloseRx s = _
    simp only [execCloseRx, ht, hnone]
  · intro k s1 h s ht hh hagain
    change execCloseRx s = _
    simp only [execCloseRx, ht, hh, hagain, if_true]
  · intro k s1 h s ht hh hfirst
    change execCloseRx s = _
    simp only [execCloseRx, ht, hh, hfirst, Bool.false_eq_true, if_false]
  -- CLOSED_RX
  · intro s ht
    change execClosedRx s = _
    simp only [execClosedRx, ht]
  · intro k s1 s ht
    change execClosedRx s = _
    simp only [execClosedRx, ht]
  -- CLOSE_REPEAT_TICK
  · intro job s hnone
    change execCloseRepeatTick job s = _
    simp only [execCloseRepeatTick, hnone]
  · intro job j s hj hout
    change execCloseRepeatTick job s = _
    simp only [execCloseRepeatTick, hj, hout, Bool.not_true, Bool.false_eq_true, if_false]
  · intro job j s hj hended
    exact ⟨_, execCloseRepeatTick_ended hj hended, rfl, rfl⟩
  -- LOAF_GRACE_EXPIRY
  · intro gid recipe h s hh hcloses
    change execLoafGraceExpiry (.close gid recipe) s = _
    simp only [execLoafGraceExpiry, hh, hcloses, Option.map_some, Option.getD_some, if_true]
  · intro gid recipe h s hh hopen
    change execLoafGraceExpiry (.close gid recipe) s = _
    simp only [execLoafGraceExpiry, hh, hopen, Option.map_some, Option.getD_some, Bool.false_eq_true, if_false]
  · intro mb seq s hnone
    change execLoafGraceExpiry (.knead mb seq) s = _
    simp only [execLoafGraceExpiry, hnone]
  · intro mb seq j s hj
    change execLoafGraceExpiry (.knead mb seq) s = _
    simp only [execLoafGraceExpiry, hj]

end Sys2Proof.Machine
end

section
/-! ## The MILL commands (16 Table 16.6; 10 R338, R340 to R346, R357; 12 R399, R420) -/

namespace Sys2Proof.Machine

/-- A command on a slot whose program the caller reaches: the command's own rules run on that program (10 R341). -/
theorem withProgram_reached {o : Origin} {slot : Nat} {f : MillProgram → CmdOutcome} {p : MillProgram} {s : State}
    (hp : millProgram s slot = some p) (hr : mayReach o p.pid s = true) : withProgram o slot f s = f p := by
  simp only [withProgram, hp, hr, if_true]

theorem withProgram_unreached {o : Origin} {slot : Nat} {f : MillProgram → CmdOutcome} {p : MillProgram} {s : State}
    (hp : millProgram s slot = some p) (hr : mayReach o p.pid s = false) :
    withProgram o slot f s = failWith .denied s := by
  simp only [withProgram, hp, hr, Bool.false_eq_true, if_false]

/-- A command on a slot that holds no program is INVALID (16 R651). -/
theorem withProgram_empty {o : Origin} {slot : Nat} {f : MillProgram → CmdOutcome} {s : State}
    (hp : millProgram s slot = none) : withProgram o slot f s = failWith .invalid s := by
  simp only [withProgram, hp]

/-- A command on a program within reach that its own rules end OK (10 R341; 16 R513). -/
theorem run_withProgram_ok {o : Origin} {op slot : Nat} {f : State → MillProgram → CmdOutcome} {p : MillProgram}
    {s b u : State} (h : beginsAt o op s = some b) (hp : millProgram b slot = some p)
    (hr : mayReach o p.pid b = true) (hf : f b p = okWith u) :
    (.next (runCommand o op (fun t => withProgram o slot (f t) t) s) : Host.Outcome State Fault Refusal) =
      .next (answer o op .ok [] u) :=
  run_ok h ((withProgram_reached hp hr).trans hf)

/-- A command on a program within reach that its own rules turn away (10 R341; 16 R513). -/
theorem run_withProgram_failWith {o : Origin} {op slot : Nat} {f : State → MillProgram → CmdOutcome} {p : MillProgram}
    {s b : State} {st : Status} (h : beginsAt o op s = some b) (hp : millProgram b slot = some p)
    (hr : mayReach o p.pid b = true) (hf : f b p = failWith st b) :
    (.next (runCommand o op (fun t => withProgram o slot (f t) t) s) : Host.Outcome State Fault Refusal) =
      .next (answer o op st [] b) :=
  run_failWith h ((withProgram_reached hp hr).trans hf)

/-- Operands of MILL.ALLOC that name a known owner and no more pages than there are (10 R338). -/
theorem millAlloc_inRange {pid pages : Nat} {b : State} (hpages : pages ≤ 1536) (hknown : ownerKnown b pid = true) :
    ¬(1536 < pages ∨ !ownerKnown b pid) := by
  simp only [hknown, Nat.not_lt.2 hpages, Bool.not_true, Bool.false_eq_true, or_self, not_false_eq_true]

/-- Operands in the ranges of MILL.LOAD pass its first refusal (10 R340, R341). -/
theorem millLoad_inRange {slot pid timer : Nat} {code agds : List (List Word)} {b : State} (hslot : slot < 16)
    (hknown : ownerKnown b pid = true) (hmin : 10 ≤ timer) (hmax : timer ≤ 60000000) (hsome : code.isEmpty = false)
    (hcode : code.length ≤ 4096) (hagds : agds.length ≤ 256) (hgood : code.all (instrOk agds) = true) :
    ¬(16 ≤ slot ∨ !ownerKnown b pid ∨ timer < 10 ∨ 60000000 < timer ∨ code.isEmpty ∨ 4096 < code.length ∨
      256 < agds.length ∨ !code.all (instrOk agds)) := by
  simp only [hknown, hsome, hgood, Bool.not_true, Bool.false_eq_true, or_false, false_or]
  omega

/-- Operands in the ranges of MILL.WEIGHTS pass its first refusal (10 R346). -/
theorem millWeights_inRange {set pid format d e : Nat} {b : State} (hset : set < 256)
    (hknown : ownerKnown b pid = true) (hformat : expertFormat format = true) (hdmin : 32 ≤ d) (hdmax : d ≤ 16384)
    (hdmod : d % 32 = 0) (he0 : e ≠ 0) (hemax : e ≤ 1024) :
    ¬(256 ≤ set ∨ !ownerKnown b pid ∨ !expertFormat format ∨ d < 32 ∨ 16384 < d ∨ d % 32 ≠ 0 ∨ e = 0 ∨ 1024 < e) := by
  simp only [hknown, hformat, Bool.not_true, Bool.false_eq_true, false_or]
  omega

/-- A range of a ready region of its owner, with its key at hand, may be read into a weight set (10 R346). -/
theorem millWeights_readable {pid region last : Nat} {x : Region} {b : State} (hpid : x.pid = pid)
    (hready : x.phase = .ready) (hin : last ≤ regionSize x) (hkey : keyMissing b region x = false) :
    ¬(x.pid ≠ pid ∨ x.phase ≠ .ready ∨ regionSize x < last ∨ keyMissing b region x) := by
  simp only [hpid, hready, hkey, Nat.not_lt.2 hin, ne_eq, not_true_eq_false, Bool.false_eq_true, or_self,
    not_false_eq_true]

/-- Settles O30: each form is the way the command's own rules end from the state at which it begins. -/
theorem millCommands : Obligations.MillCommands := by
  unfold Obligations.MillCommands
  and_intros
  -- MILL_ALLOC
  · intro o pid pages s b hb hpages hknown hreach hheld hprogram hroom
    exact run_done hb ((if_neg (millAlloc_inRange hpages hknown)).trans (by
      simp only [hreach, Nat.not_lt.2 hheld, Nat.not_lt.2 hprogram, Nat.not_lt.2 hroom, Bool.not_true,
        Bool.false_eq_true, or_self, if_false])) rfl
  · intro o pid pages s b hb hpages hknown hreach hheld hprogram hfull
    exact run_failWith hb ((if_neg (millAlloc_inRange hpages hknown)).trans (by
      simp only [hreach, Nat.not_lt.2 hheld, Nat.not_lt.2 hprogram, hfull, Bool.not_true, Bool.false_eq_true, or_self,
        if_true, if_false]))
  · intro o pid pages s b hb hpages hknown hreach hused
    exact run_failWith hb ((if_neg (millAlloc_inRange hpages hknown)).trans (by
      simp only [hreach, hused, Bool.not_true, Bool.false_eq_true, if_true, if_false]))
  · intro o pid pages s b hb hbad
    exact run_failWith hb (if_pos (hbad.imp_right (fun h => by rw [h, Bool.not_false])))
  -- MILL_LOAD
  · intro o slot pid stale code agds s b hb hslot hknown hmin hmax hsome hcode hagds hgood hreach hold hidle
    exact run_ok hb ((if_neg (millLoad_inRange hslot hknown hmin hmax hsome hcode hagds hgood)).trans (by
      simp only [hreach, hold, hidle, Bool.not_true, Bool.or_self, Bool.false_eq_true, if_false]))
  · intro o slot pid stale code agds s b hb hslot hknown hmin hmax hsome hcode hagds hgood hreach hold hruns
    exact run_failWith hb ((if_neg (millLoad_inRange hslot hknown hmin hmax hsome hcode hagds hgood)).trans (by
      simp only [hreach, hold, hruns, Bool.not_true, Bool.or_self, Bool.false_eq_true, if_true, if_false]))
  -- MILL_RUN
  · intro o slot p s b hb hp hreach hon hopen hidle
    exact run_withProgram_ok hb hp hreach (by simp only [hon, hopen, hidle, Bool.false_eq_true, if_false])
  · intro o slot p s b hb hp hreach hon hopen hruns
    exact run_withProgram_failWith hb hp hreach (by
      simp only [hon, hopen, hruns, Bool.false_eq_true, if_true, if_false])
  · intro o slot p s b hb hp hreach hon hfenced
    exact run_withProgram_failWith hb hp hreach (by simp only [hon, hfenced, Bool.false_eq_true, if_true, if_false])
  · intro o slot p s b hb hp hreach hoff
    exact run_withProgram_failWith hb hp hreach (if_pos hoff)
  · intro o slot p s b hb hp hdenied
    exact run_failWith hb (withProgram_unreached hp hdenied)
  -- MILL_STOP
  · intro o slot p s b hb hp hreach hruns
    exact run_withProgram_ok hb hp hreach (if_pos hruns)
  · intro o slot p s b hb hp hreach hidle
    exact run_withProgram_failWith hb hp hreach (if_neg (ne_true_of_eq_false hidle))
  · intro o slot s b hb hnone
    exact run_failWith hb (withProgram_empty hnone)
  -- MILL_CONTEXT
  · intro o context record u s b hb hok hreach hheld hepoch hopen hidle hon hempty hup hfit hu
    exact run_ok hb (by
      simp only [hok, hreach, hheld, hepoch, hopen, hidle, hon, hempty, hup, Nat.not_lt.2 hfit, hu, ne_eq,
        not_true_eq_false, Bool.not_true, Bool.or_self, Bool.false_eq_true, or_self, if_false])
  · intro o context record s b hb hok hreach hheld hepoch hopen hidle hon hempty hup hfit hnone
    exact run_fails hb (by
      simp only [hok, hreach, hheld, hepoch, hopen, hidle, hon, hempty, hup, Nat.not_lt.2 hfit, hnone, ne_eq,
        not_true_eq_false, Bool.not_true, Bool.or_self, Bool.false_eq_true, or_self, if_false])
  · intro o context record s b hb hok hreach hheld hepoch hopen hidle hoff hempty
    exact run_ok hb (by
      simp only [hok, hreach, hheld, hepoch, hopen, hidle, hoff, hempty, ne_eq, not_true_eq_false, Bool.not_true,
        Bool.not_false, Bool.or_self, Bool.false_eq_true, or_self, if_true, if_false])
  · intro o context record s b hb hok hreach hheld hepoch hopen hidle hoff hholds
    exact run_later hb (by
      simp only [hok, hreach, hheld, hepoch, hopen, hidle, hoff, hholds, ne_eq, not_true_eq_false, Bool.not_true,
        Bool.not_false, Bool.or_self, Bool.false_eq_true, or_self, if_true, if_false])
  · intro o context record s b hb hbad
    exact run_failWith hb (if_pos (by rw [hbad, Bool.not_false]))
  -- MILL_REPLICAS
  · intro o context expert replicas x s b hb hx hreach hexpert hsome hmost hgood hdiffer hempty hpins
    exact run_ok hb (by
      simp only [hx, hreach, Nat.not_le.2 hexpert, hsome, Nat.not_lt.2 hmost, hgood, hdiffer, hempty, hpins,
        Bool.not_true, Bool.false_eq_true, or_self, if_false])
  · intro o context expert replicas x s b hb hx hreach hexpert hsome hmost hgood hdiffer hholds
    exact run_failWith hb (by
      simp only [hx, hreach, Nat.not_le.2 hexpert, hsome, Nat.not_lt.2 hmost, hgood, hdiffer, hholds, Bool.not_true,
        Bool.not_false, Bool.false_eq_true, or_self, if_true, if_false])
  · intro o context expert replicas x s b hb hx hreach hexpert
    exact run_failWith hb (by
      simp only [hx, hreach, hexpert, Bool.not_true, Bool.false_eq_true, true_or, if_true, if_false])
  -- MILL_WEIGHTS
  · intro o set pid format d e region offset errs x s b hb hset hknown hformat hdmin hdmax hdmod he0 hemax hreach hold
      hx hpid hready hin hkey hfit hclean
    exact run_ok hb ((if_neg (millWeights_inRange hset hknown hformat hdmin hdmax hdmod he0 hemax)).trans (by
      simp only [hreach, hold, hx, millWeights_readable hpid hready hin hkey, Nat.not_lt.2 hfit, hclean, Bool.not_true,
        Bool.or_self, Bool.false_eq_true, if_false]))
  · intro o set pid format d e region offset errs x s b hb hset hknown hformat hdmin hdmax hdmod he0 hemax hreach hold
      hx hpid hready hin hkey hfit hpoisoned
    exact run_fails hb ((if_neg (millWeights_inRange hset hknown hformat hdmin hdmax hdmod he0 hemax)).trans (by
      simp only [hreach, hold, hx, millWeights_readable hpid hready hin hkey, Nat.not_lt.2 hfit, hpoisoned,
        Bool.not_true, Bool.or_self, Bool.false_eq_true, if_true, if_false]))
  -- MILL_RESTORE
  · intro o context address x s b hb hx hreach hlisted
    exact run_ok hb (by simp only [hx, hreach, hlisted, Bool.not_true, Bool.false_eq_true, if_false])
  · intro o context address s b hb hnone
    exact run_failWith hb (by simp only [hnone])
  -- MILL_ENABLE
  · intro o grace s b hb hgrace
    exact run_ok hb ((if_neg (Nat.not_lt.2 hgrace)).trans (if_pos rfl))
  · intro o grace s b hb hgrace hended
    exact run_ok hb (by simp only [Nat.not_lt.2 hgrace, hended, Bool.false_eq_true, if_true, if_false])
  · intro o grace s b hb hgrace hruns
    exact run_grace hb (by simp only [Nat.not_lt.2 hgrace, hruns, Bool.false_eq_true, if_false])
  · intro o enable grace s b hb hover
    exact run_failWith hb (if_pos hover)

end Sys2Proof.Machine
end

section
/-! ## The Mill, its tokens and its programs (10 R342 to R359, Table 10.7; 12 R419; 08 R300) -/

namespace Sys2Proof.Machine

section
variable {d : Delivered} {x : DispatchCtx} {k : Token} {s s1 : State} (ht : takeDelivered 3 s = some (d, s1))
  (hx : dctx s1 (xContext d.pkt) = some x)
include ht hx

/-- A dispatch outside Table 10.6 or the context's record is counted DISPATCH_INVALID (10 R352). -/
theorem execDispatchRx_invalid (hbad : dispatchInvalid x d.pkt = true) :
    execDispatchRx s = .next (countMill 6 1 s1) := by
  simp only [execDispatchRx, ht, hx, hbad, if_true]

variable (hgood : dispatchInvalid x d.pkt = false)
include hgood

section
variable (hk : findToken s1 (xContext d.pkt) (pSrc d.pkt) (xToken d.pkt / 4) = some k)
include hk

/-- A part of a token that no longer gathers, or that has arrived already, is counted DISPATCH_DUP (10 R352). -/
theorem execDispatchRx_repeated (hagain : k.phase ≠ .arriving ∨ (tabGet? k.parts (xToken d.pkt % 4)).isSome) :
    execDispatchRx s = .next (countMill 7 1 s1) := by
  simp only [execDispatchRx, ht, hx, hgood, hk, hagain, Bool.false_eq_true, if_true, if_false]

variable (hgathers : k.phase = .arriving) (hnew : (tabGet? k.parts (xToken d.pkt % 4)).isSome = false)
include hgathers hnew

/-- A further part waits where it lies while the token buffer has no room for it, else it joins its token (10 R349, R359). -/
theorem execDispatchRx_further : execDispatchRx s = .next
    (if tokenBuffer x.record < bufferUsed x + pLength d.pkt then s
      else closeFull (xContext d.pkt) (addPart (xContext d.pkt) x.record d.pkt s1)) := by
  simp only [execDispatchRx, ht, hx, hgood, hk, hgathers, hnew, ne_eq, not_true_eq_false, Bool.false_eq_true, or_self,
    if_false]

end

variable (hnone : findToken s1 (xContext d.pkt) (pSrc d.pkt) (xToken d.pkt / 4) = none)
include hnone

/-- A new token of a disabled Mill or a draining context is returned as failed (10 R353, R357). -/
theorem execDispatchRx_refused (hends : (s1.start.cfg.millOff || x.draining.isSome) = true) : execDispatchRx s = .next
    (countMill 9 1 (failureReturn (xContext d.pkt) x.record (tokenOf d.pkt) s1)) := by
  simp only [execDispatchRx, ht, hx, hgood, hnone, hends, Bool.false_eq_true, if_true, if_false]

/-- A new token's part waits where it lies while the token buffer has no room for it, else it begins its token
(10 R349, R359). -/
theorem execDispatchRx_first (hserves : (s1.start.cfg.millOff || x.draining.isSome) = false) : execDispatchRx s = .next
    (if tokenBuffer x.record < bufferUsed x + pLength d.pkt then s
      else closeFull (xContext d.pkt) (addPart (xContext d.pkt) x.record d.pkt s1)) := by
  simp only [execDispatchRx, ht, hx, hgood, hnone, hserves, Bool.false_eq_true, if_false]

end

/-- The oldest closed batch takes the array (10 R343). -/
def startBatch (b : Batch) (rest : List Batch) (s : State) : State :=
  modMill (fun m => { m with batches := rest, work := some (.batch b), runLength := m.runLength + 1 }) s

section
variable {slot : Nat} {s : State} (hfree : s.mill.work = none) (hup : (island s 0x38).dataReset = false)
include hfree hup

/-- A closed batch is served first, unless eight have been and a program is ready (10 R343). -/
theorem execMillInstructionIssue_batch {b : Batch} {bs : List Batch} (hb : s.mill.batches = b :: bs)
    (hturn : nextProgram s = none ∨ s.mill.runLength < 8) :
    execMillInstructionIssue s = .next (startBatch b bs s) := by
  cases hn : nextProgram s with
  | none =>
    simp only [execMillInstructionIssue, hfree, hup, hb, hn, startBatch, Option.isSome_none, Bool.or_self,
      Bool.false_eq_true, if_false]
  | some slot =>
    have hshort : s.mill.runLength < 8 := hturn.resolve_left (by simp only [hn, reduceCtorEq, not_false_eq_true])
    simp only [execMillInstructionIssue, hfree, hup, hb, hn, startBatch, Nat.not_le.2 hshort, Option.isSome_none,
      Bool.or_self, Bool.false_eq_true, if_false]

/-- A ready program is served where no batch is closed, or where eight batches have been served in a row (10 R343). -/
theorem execMillInstructionIssue_program (hn : nextProgram s = some slot)
    (hturn : s.mill.batches = [] ∨ 8 ≤ s.mill.runLength) :
    execMillInstructionIssue s = .next (issueInstr slot s) := by
  cases hb : s.mill.batches with
  | nil =>
    simp only [execMillInstructionIssue, hfree, hup, hb, hn, Option.isSome_none, Bool.or_self, Bool.false_eq_true,
      if_false]
  | cons b bs =>
    have hlong : 8 ≤ s.mill.runLength := hturn.resolve_left (by simp only [hb, reduceCtorEq, not_false_eq_true])
    simp only [execMillInstructionIssue, hfree, hup, hb, hn, hlong, Option.isSome_none, Bool.or_self,
      Bool.false_eq_true, if_true, if_false]

end

theorem dctx_arrayFreed (s : State) (c : Nat) :
    dctx (modMill (fun m => { m with work := none }) s) c = dctx s c := rfl

theorem millProgram_arrayFreed (s : State) (slot : Nat) :
    millProgram (modMill (fun m => { m with work := none }) s) slot = millProgram s slot := rfl

section
variable {context origin ident slot : Nat} {x : DispatchCtx} {k : Token} {sl : TokenSlot} {s : State}
  (hc : context < 128) (hx : dctx s context = some x) (hk : findToken s context origin ident = some k)
include hc hx hk

/-- A slot that is still to be chosen waits only while its token holds no staging and can claim none (10 R350;
12 R419). -/
theorem execReplicaChoice_open (hsl : k.slots[slot]? = some sl) (hrouted : k.phase = .routed)
    (hunchosen : sl.replica = none) (hlive : sl.skipped = false) (hup : winnowDown s = false) :
    execReplicaChoice context origin ident slot s = .next
      (if !k.claimed && decide (x.record.inflight ≤ claimedTokens x) then s
        else chooseReplica context origin ident slot x sl s) :=
  onUnit_next (decide_eq_true hc) (by
    simp only [hx, hk, hsl, hrouted, hunchosen, hlive, hup, ne_eq, not_true_eq_false, Option.isSome_none,
      Bool.false_eq_true, or_self, if_false])

/-- A routed token with every slot chosen or skipped leaves for its replicas, or its origin gets +0 where all its slots
were skipped (10 R350, R351, R353). -/
theorem execTokenDispatch_ready (hrouted : k.phase = .routed) (hclaimed : k.claimed = true)
    (hchosen : k.slots.all (fun sl => sl.skipped || sl.replica.isSome) = true)
    (hpool : (waitingOf s computeSource).isEmpty = true) :
    execTokenDispatch context origin ident s = .next
      (if k.slots.all (·.skipped) then removeToken context k (sendZeros context x.record k s)
        else modToken context origin ident (fun y => { y with phase := .dispatched, parts := [] })
          (sendExperts context x.record k s)) :=
  onUnit_next (decide_eq_true hc) (by
    simp only [hx, hk, hrouted, hclaimed, hchosen, hpool, ne_eq, not_true_eq_false, Bool.not_true, Bool.false_eq_true,
      or_self, if_false])

end

/-- A return that matches a slot of a dispatched token is counted once more where its part is held already, else held
and combined (10 R352, R353). -/
theorem execExpertReturnRx_matched {d : Delivered} {x : DispatchCtx} {k : Token} {sl : TokenSlot} {s s1 : State}
    (ht : takeDelivered 2 s = some (d, s1)) (hx : dctx s1 (xContext d.pkt) = some x)
    (hk : (x.tokens.filter (fun t => t.phase == .dispatched && t.ident == xToken d.pkt / 4)).find?
      (fun t => returnMatches t d.pkt) = some k)
    (hpart : xToken d.pkt % 4 < partsOf x.record.d x.record.retFmt)
    (hlen : pLength d.pkt = partLen x.record.d x.record.retFmt (xToken d.pkt % 4))
    (hsl : k.slots[xSlot d.pkt]? = some sl) :
    execExpertReturnRx s = .next
      (if (tabGet? sl.returned (xToken d.pkt % 4)).isSome then countMill 5 1 s1
        else tryCombine (xContext d.pkt) k.origin k.ident (xToken d.pkt % 4)
          (holdReturn (xContext d.pkt) x.record k sl d.pkt s1)) := by
  simp only [execExpertReturnRx, ht, hx, hk, Nat.not_le.2 hpart, hlen, hsl, ne_eq, not_true_eq_false, or_self,
    if_false]

/-- Settles O50: each clause follows its event's meaning along the branch that the clause's conditions choose. -/
theorem millEvents : Obligations.MillEvents := by
  unfold Obligations.MillEvents
  and_intros
  -- DISPATCH_RX
  · intro s ht
    change execDispatchRx s = _
    simp only [execDispatchRx, ht]
  · intro d s1 s ht hnone
    change execDispatchRx s = _
    simp only [execDispatchRx, ht, hnone]
  · intro d s1 x s ht hx hbad
    exact execDispatchRx_invalid ht hx hbad
  · intro d s1 x k s ht hx hgood hk hagain
    exact execDispatchRx_repeated ht hx hgood hk hagain
  · intro d s1 x k s ht hx hgood hk hgathers hnew hfull
    exact (execDispatchRx_further ht hx hgood hk hgathers hnew).trans (congrArg _ (if_pos hfull))
  · intro d s1 x k s ht hx hgood hk hgathers hnew hroom
    exact (execDispatchRx_further ht hx hgood hk hgathers hnew).trans (congrArg _ (if_neg (Nat.not_lt.2 hroom)))
  · intro d s1 x s ht hx hgood hnone hends
    exact execDispatchRx_refused ht hx hgood hnone hends
  · intro d s1 x s ht hx hgood hnone hserves hfull
    exact (execDispatchRx_first ht hx hgood hnone hserves).trans (congrArg _ (if_pos hfull))
  · intro d s1 x s ht hx hgood hnone hserves hroom
    exact (execDispatchRx_first ht hx hgood hnone hserves).trans (congrArg _ (if_neg (Nat.not_lt.2 hroom)))
  -- BATCH_WAIT_EXPIRY
  · intro context s hc
    exact onUnit_next (decide_eq_true hc) rfl
  · intro context s hc
    exact onUnit_fault (decide_eq_false (Nat.not_lt.2 hc))
  -- MILL_INSTRUCTION_ISSUE
  · intro s hbusy
    have hheld : (s.mill.work.isSome || (island s 0x38).dataReset) = true := Bool.or_eq_true_iff.2 hbusy
    change execMillInstructionIssue s = _
    simp only [execMillInstructionIssue, hheld, if_true]
  · intro s hfree hup hb hn
    change execMillInstructionIssue s = _
    simp only [execMillInstructionIssue, hfree, hup, hb, hn, Option.isSome_none, Bool.or_self, Bool.false_eq_true,
      if_false]
  · intro slot s hfree hup hb hn
    exact execMillInstructionIssue_program hfree hup hn (.inl hb)
  · intro b bs s hfree hup hb hn
    exact ⟨_, execMillInstructionIssue_batch hfree hup hb (.inl hn), rfl, rfl, rfl⟩
  · intro b bs slot s hfree hup hb hn hturn
    exact ⟨_, execMillInstructionIssue_batch hfree hup hb (.inr hturn), rfl, rfl, rfl⟩
  · intro b bs slot s hfree hup hb hn hturn
    exact execMillInstructionIssue_program hfree hup hn (.inr hturn)
  -- ROUTER_MMA_DONE
  · intro b x s hw hx
    change execRouterMmaDone s = _
    simp only [execRouterMmaDone, hw, dctx_arrayFreed, hx]
  · intro b s hw hnone
    change execRouterMmaDone s = _
    simp only [execRouterMmaDone, hw, dctx_arrayFreed, hnone]
  · intro s hw
    change execRouterMmaDone s = _
    simp only [execRouterMmaDone, hw]
  -- MMA_DONE
  · intro slot p s hw hp hruns
    change execMmaDone s = _
    simp only [execMmaDone, hw, millProgram_arrayFreed, hp, hruns, Bool.not_true, Bool.false_eq_true, if_false]
  · intro slot p s hw hp hended
    change execMmaDone s = _
    simp only [execMmaDone, hw, millProgram_arrayFreed, hp, hended, Bool.not_false, if_true]
  · intro slot s hw hnone
    change execMmaDone s = _
    simp only [execMmaDone, hw, millProgram_arrayFreed, hnone]
  · intro s hw
    change execMmaDone s = _
    simp only [execMmaDone, hw]
  -- MILL_COPY_DONE
  · intro slot index errs p i s hslot hp hi hmay
    exact onUnit_next (decide_eq_true hslot) (by
      simp only [hp, hi, hmay, Bool.not_true, Bool.false_eq_true, if_false])
  · intro slot index errs p i s hslot hp hi hspent
    exact onUnit_next (decide_eq_true hslot) (by simp only [hp, hi, hspent, Bool.not_false, if_true])
  · intro slot index errs p s hslot hp hnone
    exact onUnit_next (decide_eq_true hslot) (by simp only [hp, hnone])
  · intro slot index errs s hslot hnone
    exact onUnit_next (decide_eq_true hslot) (by simp only [hnone])
  · intro slot index errs s hslot
    exact onUnit_fault (decide_eq_false (Nat.not_lt.2 hslot))
  -- PROGRAM_STALENESS_EXPIRY
  · intro slot p s hslot hp hruns
    exact onUnit_next (decide_eq_true hslot) (by simp only [hp, hruns, if_true])
  · intro slot p s hslot hp hended
    exact onUnit_next (decide_eq_true hslot) (by simp only [hp, hended, Bool.false_eq_true, if_false])
  · intro slot s hslot hnone
    exact onUnit_next (decide_eq_true hslot) (by simp only [hnone])
  -- REPLICA_CHOICE
  · intro context origin ident slot x k sl s hc hx hk hsl hrouted hunchosen hlive hup hmay
    have hgoes : (!k.claimed && decide (x.record.inflight ≤ claimedTokens x)) = false := by
      rcases hmay with hclaimed | hroom
      · rw [hclaimed, Bool.not_true, Bool.false_and]
      · rw [decide_eq_false (Nat.not_le.2 hroom), Bool.and_false]
    exact (execReplicaChoice_open hc hx hk hsl hrouted hunchosen hlive hup).trans
      (congrArg _ (if_neg (ne_true_of_eq_false hgoes)))
  · intro context origin ident slot x k sl s hc hx hk hsl hrouted hunchosen hlive hup hunclaimed hfull
    have hwaits : (!k.claimed && decide (x.record.inflight ≤ claimedTokens x)) = true := by
      rw [hunclaimed, decide_eq_true hfull, Bool.not_false, Bool.and_self]
    exact (execReplicaChoice_open hc hx hk hsl hrouted hunchosen hlive hup).trans (congrArg _ (if_pos hwaits))
  · intro context origin ident slot x k sl s hc hx hk hsl hdone
    exact onUnit_next (decide_eq_true hc) (by
      simp only [hx, hk, hsl]
      exact if_pos hdone)
  · intro context origin ident slot x k s hc hx hk hnone
    exact onUnit_next (decide_eq_true hc) (by simp only [hx, hk, hnone])
  -- TOKEN_DISPATCH
  · intro context origin ident x k s hc hx hk hrouted hclaimed hchosen hpool hskipped
    exact (execTokenDispatch_ready hc hx hk hrouted hclaimed hchosen hpool).trans (congrArg _ (if_pos hskipped))
  · intro context origin ident x k s hc hx hk hrouted hclaimed hchosen hpool hlive
    exact (execTokenDispatch_ready hc hx hk hrouted hclaimed hchosen hpool).trans
      (congrArg _ (if_neg (ne_true_of_eq_false hlive)))
  · intro context origin ident x k s hc hx hk hwaits
    exact onUnit_next (decide_eq_true hc) (by
      simp only [hx, hk]
      exact if_pos (by simpa only [Bool.not_eq_true'] using hwaits))
  -- EXPERT_RETURN_RX
  · intro s ht
    change execExpertReturnRx s = _
    simp only [execExpertReturnRx, ht]
  · intro d s1 s ht hnone
    change execExpertReturnRx s = _
    simp only [execExpertReturnRx, ht, hnone]
  · intro d s1 x s ht hx hnone
    change execExpertReturnRx s = _
    simp only [execExpertReturnRx, ht, hx, hnone, List.find?_nil, List.isEmpty_nil, if_true]
  · intro d s1 x k ks s ht hx hsome hunmatched
    change execExpertReturnRx s = _
    simp only [execExpertReturnRx, ht, hx, hsome, hunmatched, List.isEmpty_cons, Bool.false_eq_true, if_false]
  · intro d s1 x k sl s ht hx hk hpart hlen hsl hheld
    exact (execExpertReturnRx_matched ht hx hk hpart hlen hsl).trans (congrArg _ (if_pos hheld))
  · intro d s1 x k sl s ht hx hk hpart hlen hsl hnew
    exact (execExpertReturnRx_matched ht hx hk hpart hlen hsl).trans (congrArg _ (if_neg (ne_true_of_eq_false hnew)))
  -- TOKEN_STALENESS_EXPIRY
  · intro context origin ident x k s hc hx hk
    exact onUnit_next (decide_eq_true hc) (by simp only [hx, hk])
  · intro context origin ident s hc hnone
    exact onUnit_next (decide_eq_true hc) (by simp only [hnone])
  · intro context origin ident s hc
    exact onUnit_fault (decide_eq_false (Nat.not_lt.2 hc))
  -- MILL_GRACE_EXPIRY
  · intro c x d s hx hdrains
    change execMillGraceExpiry (some c) s = _
    simp only [execMillGraceExpiry, graceContext, hx, Option.bind_some, hdrains]
  · intro c x s hx hopen
    change execMillGraceExpiry (some c) s = _
    simp only [execMillGraceExpiry, graceContext, hx, Option.bind_some, hopen]
  · intro s hnone
    change execMillGraceExpiry none s = _
    simp only [execMillGraceExpiry, hnone, List.isEmpty_nil, if_true]
  · intro s hwaits
    change execMillGraceExpiry none s = _
    simp only [execMillGraceExpiry, hwaits, Bool.false_eq_true, if_false]
  -- MILL_SRAM_ERROR
  · intro hit s
    rfl
  · intro s
    rfl
  · intro n s
    rfl
  · intro slot s
    rfl
  · intro c i x k s hx hk
    change execMillSramError (.token c i) true s = _
    simp only [execMillSramError, hx, Option.bind_some, hk, Bool.not_true, Bool.false_eq_true, if_false]
  · intro c i s hnone
    change execMillSramError (.token c i) true s = _
    simp only [execMillSramError, hnone, Option.bind_none, Bool.not_true, Bool.false_eq_true, if_false]
  -- ENDPOINT_DOWN_RX
  · intro s ht
    change execEndpointDownRx s = _
    simp only [execEndpointDownRx, ht]
  · intro k s1 s ht
    change execEndpointDownRx s = _
    simp only [execEndpointDownRx, ht]

end Sys2Proof.Machine
end

section
/-! ## What leaves the Granary's bytes as they were (11 R361, R362)

An operation that corrects or poisons lines touches no byte, and neither does one whose frame leaves memory out. -/

set_option Elab.async false

namespace Sys2Proof.Machine

/-- The stored bytes of the Granary, and the keys its lines are stored under, are as they were. -/
def SameContents (s t : State) : Prop := t.gran.mem = s.gran.mem ∧ t.gran.lineKeys = s.gran.lineKeys

theorem SameContents.refl (s : State) : SameContents s s := ⟨rfl, rfl⟩

theorem SameContents.trans {s t u : State} (h : SameContents s t) (k : SameContents t u) : SameContents s u :=
  ⟨k.1.trans h.1, k.2.trans h.2⟩

theorem OnlyChanges.sameContents {ps : List Part} {s t : State} (h : OnlyChanges ps s t)
    (hp : Part.memory ∉ ps := by decide) : SameContents s t := by
  obtain ⟨hmem, hkeys, _⟩ := h .memory hp
  exact ⟨hmem, hkeys⟩

/-- One more operation, whose frame leaves memory out. -/
theorem SameContents.frame {ps : List Part} {s t u : State} (h : SameContents s t) (k : OnlyChanges ps t u)
    (hp : Part.memory ∉ ps := by decide) : SameContents s u := h.trans (k.sameContents hp)

theorem SameContents.foldl {β : Type} {f : State → β → State} (hf : ∀ s b, SameContents s (f s b)) (l : List β)
    {s t : State} (h : SameContents s t) : SameContents s (l.foldl f t) :=
  foldl_inv (P := SameContents s) (fun t b ht => ht.trans (hf t b)) l h

theorem SameContents.granByte {s t : State} (h : SameContents s t) (r a : Nat) : granByte t r a = granByte s r a := by
  rw [Machine.granByte, Machine.granByte, h.1]

theorem SameContents.memoryInv {s t : State} (h : SameContents s t) (hs : MemoryInv s) : MemoryInv t := by
  rw [MemoryInv, h.1, h.2]
  exact hs

/-- A change of the Granary that keeps its bytes, whatever it is applied to. -/
theorem modGran_sameContents {f : GranState → GranState} (s : State) (hmem : ∀ g, (f g).mem = g.mem)
    (hkeys : ∀ g, (f g).lineKeys = g.lineKeys) : SameContents s (modGran f s) := ⟨hmem s.gran, hkeys s.gran⟩

theorem correctLine_sameContents (x : Region) (r ln : Nat) (s : State) : SameContents s (correctLine x r ln s) := by
  unfold correctLine
  extract_lets k again s1
  have hnoted : SameContents s (modGran (fun g => { g with corrected := tabPut g.corrected k (nowRef s) }) s) :=
    modGran_sameContents s (fun _ => rfl) (fun _ => rfl)
  have hcounted : SameContents s s1 := hnoted.frame (countStack_frame _ _ _ _)
  split
  · exact hcounted.frame (retireExtent_frame _ _ _ _)
  · exact hcounted

theorem poisonLine_sameContents (x : Region) (r ln : Nat) (s : State) : SameContents s (poisonLine x r ln s) := by
  unfold poisonLine
  extract_lets s1
  have hnoted : SameContents s (modGran (fun g => { g with poisoned := distinct (lineKey r ln :: g.poisoned) }) s) :=
    modGran_sameContents s (fun _ => rfl) (fun _ => rfl)
  have hcounted : SameContents s s1 := hnoted.frame (countStack_frame _ _ _ _)
  exact (hcounted.frame (raiseOwner_frame _ _ _ _ _)).frame (damageMirrors_frame _ _)

theorem meetErrors_sameContents (r o n : Nat) (errs : List LineError) (s : State) :
    SameContents s (meetErrors r o n errs s) := by
  unfold meetErrors
  split
  · exact SameContents.refl s
  · refine SameContents.foldl (fun t e => ?_) _ (SameContents.refl s)
    split
    · exact poisonLine_sameContents _ _ _ _
    · exact correctLine_sameContents _ _ _ _

/-- A range is read under a budget of its activity, and the errors met are noted. -/
theorem meetErrors_startWork_sameContents (act kind cost r o n : Nat) (errs : List LineError) (s : State) :
    SameContents s (meetErrors r o n errs (startWork act kind cost s)) :=
  ((startWork_frame _ _ _ _).sameContents).trans (meetErrors_sameContents _ _ _ _ _)

theorem answerRead_sameContents (a : Access) (errors : List LineError) (s : State) :
    SameContents s (answerRead a errors s) := by
  unfold answerRead
  extract_lets n mine s1
  have hmet : SameContents s s1 := meetErrors_sameContents _ _ _ _ _
  split
  · exact hmet.frame (respond_frame _ _ _ _)
  · exact hmet.frame (respond_frame _ _ _ _)

theorem restoreSlots_sameContents (key : Nat) (rc : Recipe) (spill : Nat) (errs : List LineError) (s : State) :
    SameContents s (restoreSlots key rc spill errs s) := by
  unfold restoreSlots
  split
  · exact SameContents.refl s
  · extract_lets n o len s1
    have hmet : SameContents s s1 := meetErrors_startWork_sameContents _ _ _ _ _ _ _ _
    split
    · exact hmet.frame (abortCtx_frame _ _ _)
    · exact hmet.frame (modCtx_frame _ _ _)

theorem sendGather_sameContents (gid recipe : Nat) (errs : List LineError) (h : Held) (g : Group)
    (x : Nat × LoafCtx × Nat × Nat) (s : State) : SameContents s (sendGather gid recipe errs h g x s) := by
  obtain ⟨key, c, frag, len⟩ := x
  unfold sendGather
  dsimp -zeta only
  extract_lets rc o s1 k s2 s3
  have hmet : SameContents s s1 := meetErrors_startWork_sameContents _ _ _ _ _ _ _ _
  have hsent : SameContents s s2 := hmet.frame (originate_frame _ _ _)
  have hnoted : SameContents s s3 := hsent.frame (modCtx_frame _ _ _)
  split
  · exact hmet.frame (abortLoaf_frame _ _ _ _)
  split
  · exact hsent.frame (abortLoaf_frame _ _ _ _)
  split
  · exact SameContents.foldl (fun t e => (acknowledgeGather_frame _ _ _ t).sameContents) _ hnoted
  · exact hnoted

theorem stageChunk_sameContents (slot : Nat) (g : Grist) (e : GristEntry) (errors : List LineError) (s : State) :
    SameContents s (stageChunk slot g e errors s) := by
  unfold stageChunk
  extract_lets s0 lost
  have hmet : SameContents s s0 := meetErrors_startWork_sameContents _ _ _ _ _ _ _ _
  split
  · exact (hmet.frame (countGrist_frame _ _ _ _)).frame (abortGrist_frame _ _)
  split
  extract_lets ks
  split
  rename_i s' s1 _ _ _ _
  extract_lets c s2 _
  have hconverted : SameContents s s1 := by
    unfold s1
    split
    · exact hmet
    · split
      · exact hmet.frame (count_frame _ _ _)
      · exact (hmet.frame (count_frame _ _ _)).frame (count_frame _ _ _)
  have hstaged : SameContents s s2 :=
    ((hconverted.frame (modGrist_frame _ _ _)).frame (startWork_frame _ _ _ _)).frame (usePool_frame _ _ _ _)
  split
  · exact hstaged.frame (releaseChunk_frame _ _ _ _ _ _)
  · exact hstaged

end Sys2Proof.Machine
end

section
/-! ## Reading and writing ranges of a region (11 R361, R370, R372, R373)

A write stores line by line. Each line that it stores reads, under the region's key, as its old content patched with
the range's bytes; every other line reads as before. -/

set_option Elab.async false

namespace Sys2Proof.Machine

/-- One line of a write to a range: what `writeBytes` does at each line that the range touches. -/
def storeLine (r : Nat) (key : Option Nat) (o : Nat) (bs : List Byte) (s : State) (ln : Nat) : State :=
  let line := patchLine (readLine s r key ln) ln o bs
  modGran (fun g => { putLine r key ln line g with
    poisoned := if coversLine o bs.length ln then g.poisoned.filter (· != lineKey r ln) else g.poisoned }) s

theorem writeBytes_eq_storeLines (r o : Nat) (bs : List Byte) (s : State) : writeBytes r o bs s =
    (rangeLines o bs.length).foldl (storeLine r ((region s r).bind (regionKey s r)) o bs) s := rfl

@[simp] theorem length_readLine (s : State) (r : Nat) (key : Option Nat) (ln : Nat) :
    (readLine s r key ln).length = 64 := by
  unfold readLine
  extract_lets tag
  split
  · simp [storedLine]
  · simp

@[simp] theorem length_patchLine (old : List Byte) (ln o : Nat) (bs : List Byte) :
    (patchLine old ln o bs).length = old.length := by simp [patchLine]

theorem mem_rangeLines {o n ln : Nat} : ln ∈ rangeLines o n ↔ 0 < n ∧ o / 64 ≤ ln ∧ ln ≤ (o + n - 1) / 64 := by
  unfold rangeLines
  split
  · simp; omega
  · simp only [List.mem_map, List.mem_range]
    constructor
    · rintro ⟨i, hi, rfl⟩
      have : o / 64 ≤ (o + n - 1) / 64 := Nat.div_le_div_right (by omega)
      omega
    · rintro ⟨-, hlow, hhigh⟩
      exact ⟨ln - o / 64, by omega, by omega⟩

theorem rangeLines_nodup (o n : Nat) : (rangeLines o n).Nodup := by
  unfold rangeLines
  split
  · exact List.nodup_nil
  · exact List.nodup_range.map (fun _ _ h => Nat.add_left_cancel h)

/-! ### One line -/

section
variable {r : Nat} {key : Option Nat} {o : Nat} {bs : List Byte} {s : State}

theorem storeLine_inv (ln : Nat) (h : MemoryInv s) : MemoryInv (storeLine r key o bs s ln) :=
  putLine_inv (g := s.gran) h.1 h.2

/-- A stored line leaves every byte outside it. -/
theorem granByte_storeLine_other {ln r1 a : Nat} (h : MemoryInv s)
    (ha : ∀ i < 64, memKey r (64 * ln + i) ≠ memKey r1 a) :
    granByte (storeLine r key o bs s ln) r1 a = granByte s r1 a := by
  refine storeRun_other (fun i => memKey r (64 * ln + i)) _ _ h.1 (fun x hx => ha x.2 ?_)
  simpa using List.snd_lt_of_mem_zipIdx hx

/-- A run of bytes reads back at its own keys, where they differ. -/
theorem storeRun_self {key : Nat → Nat} (hkey : Function.Injective key) : ∀ (bs : List Byte) (k : Nat) (m : Tab Byte),
    Memory.wf m = true → ∀ (i : Nat) (hi : i < bs.length),
    tabGet (fun _ => 0) ((bs.zipIdx k).foldl (fun m x => tabSet (fun _ => 0) m (key x.2) x.1) m) (key (k + i)) = bs[i]
  | b :: bs, k, m, hm, i, hi => by
    have hset : Memory.wf (tabSet (fun _ => 0) m (key k) b) = true := tabTotalWf_tabSet _ _ hm
    rw [List.zipIdx_cons, List.foldl_cons]
    cases i with
    | zero =>
      rw [Nat.add_zero, storeRun_other key _ _ hset]
      · exact tabGet_tabSet_self _ _ (tabWf_of_total hm)
      · rintro ⟨x, j⟩ hx hj
        have : k + 1 ≤ j := (List.mem_zipIdx hx).1
        have : j = k := hkey hj
        omega
    | succ i =>
      have hnext : k + (i + 1) = k + 1 + i := by omega
      rw [hnext, List.getElem_cons_succ]
      exact storeRun_self hkey bs (k + 1) _ hset i _

theorem granByte_storeLine_self {ln i : Nat} (h : MemoryInv s) (hi : i < 64) :
    granByte (storeLine r key o bs s ln) r (64 * ln + i) =
      (patchLine (readLine s r key ln) ln o bs)[i]'(by simpa using hi) := by
  have hkey : Function.Injective (fun i => memKey r (64 * ln + i)) := fun a b hab => by
    simp only [memKey] at hab
    omega
  have hrun := storeRun_self hkey (patchLine (readLine s r key ln) ln o bs) 0 s.gran.mem h.1 i (by simpa using hi)
  rwa [Nat.zero_add] at hrun

theorem lineKeys_storeLine_self {ln : Nat} (h : MemoryInv s) :
    tabGet? (storeLine r key o bs s ln).gran.lineKeys (lineKey r ln) = key := by
  cases key with
  | none => exact tabGet?_tabDel_self h.2
  | some k => exact tabGet?_tabPut_self _ _ _

theorem lineKeys_storeLine_ne {ln ln1 : Nat} (h : MemoryInv s) (hne : ln1 ≠ ln) :
    tabGet? (storeLine r key o bs s ln).gran.lineKeys (lineKey r ln1) = tabGet? s.gran.lineKeys (lineKey r ln1) := by
  have hkey : lineKey r ln1 ≠ lineKey r ln := by
    simp only [lineKey]
    omega
  cases key with
  | none => exact tabGet?_tabDel_ne hkey h.2
  | some k => exact tabGet?_tabPut_ne _ hkey _

/-- A stored line reads as its old content patched with the range's bytes. -/
theorem readLine_storeLine_self {ln : Nat} (h : MemoryInv s) :
    readLine (storeLine r key o bs s ln) r key ln = patchLine (readLine s r key ln) ln o bs := by
  rw [readLine, lineKeys_storeLine_self h, if_pos rfl]
  refine List.ext_getElem (by simp [storedLine]) (fun i hi _ => ?_)
  have hi64 : i < 64 := by simpa [storedLine] using hi
  simp only [storedLine, List.getElem_map, List.getElem_range]
  exact granByte_storeLine_self h hi64

/-- A stored line leaves every other line of its region. -/
theorem readLine_storeLine_ne {ln ln1 : Nat} (h : MemoryInv s) (hne : ln1 ≠ ln) :
    readLine (storeLine r key o bs s ln) r key ln1 = readLine s r key ln1 := by
  have hstored : storedLine (storeLine r key o bs s ln) r ln1 = storedLine s r ln1 := by
    refine List.map_congr_left (fun i hi => granByte_storeLine_other h (fun j hj => ?_))
    have : i < 64 := List.mem_range.1 hi
    simp only [memKey]
    omega
  rw [readLine, readLine, lineKeys_storeLine_ne h hne, hstored]

/-! ### A list of lines -/

theorem readLine_storeLines : ∀ (lines : List Nat) {s : State}, lines.Nodup → MemoryInv s → ∀ ln,
    readLine (lines.foldl (storeLine r key o bs) s) r key ln =
      if ln ∈ lines then patchLine (readLine s r key ln) ln o bs else readLine s r key ln
  | [], _, _, _, _ => by simp
  | x :: lines, s, hnodup, h, ln => by
    obtain ⟨hx, hlines⟩ := List.nodup_cons.1 hnodup
    rw [List.foldl_cons, readLine_storeLines lines hlines (storeLine_inv x h)]
    by_cases hln : ln = x
    · subst hln
      simp [hx, readLine_storeLine_self h]
    · simp [hln, readLine_storeLine_ne h hln]

end

/-! ### Ranges -/

theorem regionKey_writeBytes (r o : Nat) (bs : List Byte) (s : State) :
    (region (writeBytes r o bs s) r).bind (regionKey (writeBytes r o bs s) r) = (region s r).bind (regionKey s r) := by
  have hregions := (writeBytes_frame r o bs s .regions (by decide)).1
  have hslots := writeBytes_frame r o bs s .regionKeys (by decide)
  simp only [Part.same] at hslots
  unfold regionKey
  rw [region, hregions, hslots, region]

/-- Element p of a chain of pieces of one length is element p mod that length of piece p / that length. -/
theorem getElem?_flatMap_of_length {α β : Type} {f : α → List β} {w : Nat} (hw : 0 < w) (hf : ∀ x, (f x).length = w) :
    ∀ (l : List α) (p : Nat), (l.flatMap f)[p]? = l[p / w]?.bind (fun x => (f x)[p % w]?)
  | [], p => by simp
  | x :: l, p => by
    rw [List.flatMap_cons, List.getElem?_append, hf]
    split
    · rename_i hp
      rw [Nat.div_eq_of_lt hp, Nat.mod_eq_of_lt hp]
      rfl
    · rename_i hp
      obtain ⟨q, rfl⟩ := Nat.exists_eq_add_of_le (Nat.not_lt.1 hp)
      rw [Nat.add_sub_cancel_left, getElem?_flatMap_of_length hw hf l q, Nat.add_div_left q hw, Nat.add_mod_left,
        List.getElem?_cons_succ]

/-- A patched line holds the range's own bytes where the range covers it. -/
theorem getElem?_patchLine_covered {old : List Byte} {ln o i j : Nat} {bs : List Byte} (hold : i < old.length)
    (hj : j < bs.length) (hij : 64 * ln + i = o + j) : (patchLine old ln o bs)[i]? = some bs[j] := by
  have hsub : 64 * ln + i - o = j := by omega
  simp [patchLine, List.getElem?_zipIdx, List.getElem?_eq_getElem hold, hsub, List.getElem?_eq_getElem hj,
    show o ≤ 64 * ln + i by omega]

theorem readBytes_writeBytes_self (r o : Nat) (bs : List Byte) {s : State} (h : MemoryInv s) :
    readBytes (writeBytes r o bs s) r o bs.length = bs := by
  rw [readBytes, regionKey_writeBytes, writeBytes_eq_storeLines]
  generalize (region s r).bind (regionKey s r) = key
  have hlines : (rangeLines o bs.length).flatMap
      (readLine ((rangeLines o bs.length).foldl (storeLine r key o bs) s) r key) =
      (rangeLines o bs.length).flatMap (fun ln => patchLine (readLine s r key ln) ln o bs) :=
    List.flatMap_congr (fun ln hln => by rw [readLine_storeLines _ (rangeLines_nodup _ _) h, if_pos hln])
  rw [hlines]
  refine List.ext_getElem? (fun j => ?_)
  rw [List.getElem?_take]
  split
  · rename_i hj
    have hlast : (o + j) / 64 ≤ (o + bs.length - 1) / 64 := Nat.div_le_div_right (by omega)
    have hpiece : (rangeLines o bs.length)[(o % 64 + j) / 64]? = some ((o + j) / 64) := by
      rw [rangeLines, if_neg (by omega), List.getElem?_map, List.getElem?_range (by omega)]
      exact congrArg some (show o / 64 + (o % 64 + j) / 64 = (o + j) / 64 by omega)
    rw [List.getElem?_drop, getElem?_flatMap_of_length (by decide : 0 < 64) (fun ln => by simp), hpiece,
      List.getElem?_eq_getElem hj]
    exact getElem?_patchLine_covered (by simp; omega) hj (by omega)
  · rename_i hj
    exact (List.getElem?_eq_none (Nat.not_lt.1 hj)).symm

/-- Settles O14: each line of the range reads as its old content patched with the bytes. -/
theorem storedBytesReadBack : Obligations.StoredBytesReadBack := by
  unfold Obligations.StoredBytesReadBack
  intro r o bs s h
  exact readBytes_writeBytes_self r o bs h

theorem memKey_inj {r a r1 a1 : Nat} (ha : a < 2 ^ 48) (ha1 : a1 < 2 ^ 48) (h : memKey r a = memKey r1 a1) :
    r = r1 ∧ a = a1 := by
  simp only [memKey] at h
  omega

theorem inLines_eq_false {r o n r1 a : Nat} :
    inLines (r, o, n) r1 a = false ↔ (r1 = r → a / 64 ∉ rangeLines o n) := by
  simp [inLines]

/-- A write leaves every byte that is in none of its range's lines. -/
theorem granByte_writeBytes_other {r o : Nat} {bs : List Byte} {s : State} {r1 a : Nat} (h : MemoryInv s)
    (ho : o + bs.length ≤ 2 ^ 48) (ha : a < 2 ^ 48) (hout : inLines (r, o, bs.length) r1 a = false) :
    granByte (writeBytes r o bs s) r1 a = granByte s r1 a := by
  rw [writeBytes_eq_storeLines]
  refine (List.foldlRecOn (motive := fun t => MemoryInv t ∧ granByte t r1 a = granByte s r1 a) _ _ ⟨h, rfl⟩ ?_).2
  rintro t ⟨ht, hbyte⟩ ln hln
  refine ⟨storeLine_inv ln ht, (granByte_storeLine_other ht (fun i hi heq => ?_)).trans hbyte⟩
  have hbelow : 64 * ln + i < 2 ^ 48 := by
    have := mem_rangeLines.1 hln
    omega
  obtain ⟨rfl, rfl⟩ := memKey_inj hbelow ha heq
  refine inLines_eq_false.1 hout rfl ?_
  rwa [Nat.mul_add_div (by decide), Nat.div_eq_of_lt hi, Nat.add_zero]

/-- Settles O15: each line of the range has keys of its own. -/
theorem writeLeavesOtherLines : Obligations.WriteLeavesOtherLines := by
  unfold Obligations.WriteLeavesOtherLines
  intro r o bs s r1 a h ho ha hout
  exact granByte_writeBytes_other h ho ha hout

end Sys2Proof.Machine
end

section
/-! ## Zeroing a region (11 R366 to R368) -/

set_option Elab.async false

namespace Sys2Proof.Machine

theorem tabGet?_filter {α : Type} {p : Nat × α → Bool} {n b : Nat} : ∀ {t : Tab α}, tabRisesFrom b t = true →
    tabGet? (t.filter p) n = (tabGet? t n).filter (fun v => p (n, v))
  | [], _ => rfl
  | (k, v) :: t, ht => by
    simp only [tabRisesFrom, Bool.and_eq_true, decide_eq_true_eq] at ht
    have hrest := tabGet?_filter (p := p) (n := n) ht.2
    rw [List.filter_cons]
    by_cases hk : n = k
    · subst hk
      rw [tabGet?_none_of_rises (Nat.lt_succ_self n) ht.2] at hrest
      split
      · rename_i hp
        simp [tabGet?, Option.filter_some, hp]
      · rename_i hp
        simp [tabGet?, Option.filter_some, hp, hrest]
    · by_cases hlt : n < k
      · rw [tabGet?_none_of_rises (Nat.lt_succ_of_lt hlt) ht.2] at hrest
        split <;> simp [tabGet?, hk, hlt, hrest]
      · split <;> simp [tabGet?, hk, hlt, hrest]

theorem memKey_region {r a : Nat} (ha : a < 2 ^ 48) : memKey r a / 2 ^ 48 = r := by
  simp only [memKey]
  omega

/-- Zeroing a region leaves 0 in each of its bytes and every byte of the other regions (11 R366). -/
theorem granByte_zeroRegion {r r1 a : Nat} {s : State} (h : MemoryInv s) (ha : a < 2 ^ 48) :
    granByte (zeroRegion r s) r1 a = if r1 = r then 0 else granByte s r1 a := by
  have hrises : tabRisesFrom 0 s.gran.mem = true := tabWf_of_total h.1
  simp only [granByte, zeroRegion, modGran_gran, tabGet, tabGet?_filter hrises, memKey_region ha]
  split
  · rename_i hr
    simp [hr]
  · rename_i hr
    cases tabGet? s.gran.mem (memKey r1 a) <;> simp [Option.filter_some, hr]

/-- When the zeroing of a region ends, it becomes READY or is gone: either way the contents are those that the zeroing
left (11 R368). -/
theorem execRegionZeroed_contents {region : Nat} {x : Region} {s : State} (hx : Machine.region s region = some x)
    (hphase : x.phase = .zeroing ∨ x.phase = .freeing) (hmay : mayStart s 4 0 = true) :
    ∃ t, exec (.regionZeroed region) s = .next t ∧ SameContents (zeroRegion region s) t := by
  have hcharged : SameContents (zeroRegion region s) (startWork 4 0 (regionSize x) (zeroRegion region s)) :=
    (startWork_frame _ _ _ _).sameContents
  change ∃ t, execRegionZeroed region s = .next t ∧ _
  simp only [execRegionZeroed, hx, hphase, hmay, and_self, if_true]
  refine ⟨_, rfl, ?_⟩
  split
  · exact hcharged.frame (modRegion_frame _ _ _)
  · exact hcharged.trans (modGran_sameContents _ (fun _ => rfl) (fun _ => rfl))

/-- Settles O17: the zeroing filters out the region's bytes, and what follows it touches none. -/
theorem zeroedRegionReadsZero : Obligations.ZeroedRegionReadsZero := by
  unfold Obligations.ZeroedRegionReadsZero
  intro region x s h hx hphase hmay
  obtain ⟨t, hexec, hsame⟩ := execRegionZeroed_contents hx hphase hmay
  refine ⟨t, hexec, fun a ha => ?_, fun r a hr ha => ?_⟩
  · rw [hsame.granByte, granByte_zeroRegion h ha, if_pos rfl]
  · rw [hsame.granByte, granByte_zeroRegion h ha, if_neg hr]

/-- Settles O10: at reset no byte is listed and no line has a key. -/
theorem memoryInvAtReset : Obligations.MemoryInvAtReset := by
  unfold Obligations.MemoryInvAtReset
  exact ⟨reset_memory_wf, rfl⟩

end Sys2Proof.Machine
end

section
/-! ## The frame of every command

One statement over the instructions from the frame lemma of each. -/

set_option Elab.async false

namespace Sys2Proof.Machine

/-- Every meaning leaves what its command's frame leaves: one frame lemma for each command. -/
theorem exec_frame (i : Instr) (s : State) : NextChanges (mayChange i) s (exec i s) := by
  cases i with
  | powerOn => exact execPowerOn_frame s
  | inputUndervoltage => exact execInputUndervoltage_frame s
  | inputOvervoltage => exact execInputOvervoltage_frame s
  | inputOvercurrent => exact execInputOvercurrent_frame s
  | latchClear => exact execLatchClear_frame s
  | supplyLoss => exact execSupplyLoss_frame s
  | modRstNAssert => exact execModRstNAssert_frame s
  | modRstNRelease => exact execModRstNRelease_frame s
  | coldStart o => exact execColdStart_frame o s
  | startTimeout step => exact execStartTimeout_frame step s
  | warmStart o => exact execWarmStart_frame o s
  | refclkLoss => exact execRefclkLoss_frame s
  | thermalTrip => exact execThermalTrip_frame s
  | throttleEvaluation t => exact execThrottleEvaluation_frame t s
  | capUnattainable => exact execCapUnattainable_frame s
  | telemetryUpdate t => exact execTelemetryUpdate_frame t s
  | coolantDeltaAlarm => exact execCoolantDeltaAlarm_frame s
  | startStatusRead code => exact execStartStatusRead_frame code s
  | bayInterlockOpen bay => exact execBayInterlockOpen_frame bay s
  | bayInserted bay => exact execBayInserted_frame bay s
  | jtagInstructionLoad code => exact execJtagInstructionLoad_frame code s
  | jtagTestLogicReset => exact execJtagTestLogicReset_frame s
  | pllUnlock isl => exact execPllUnlock_frame isl s
  | pllRelock isl => exact execPllRelock_frame isl s
  | pllRelockTimeout isl => exact execPllRelockTimeout_frame isl s
  | controlAgentAccess isl sent => exact execControlAgentAccess_frame isl sent s
  | registerWrite addr hw => exact execRegisterWrite_frame addr hw s
  | addrErrClear isl coincident => exact execAddrErrClear_frame isl coincident s
  | agentTimeout isl addr => exact execAgentTimeout_frame isl addr s
  | agentEventDelivery isl => exact execAgentEventDelivery_frame isl s
  | crossingDelivery src dst entry => exact execCrossingDelivery_frame src dst entry s
  | ringSearchFull engine fibre tx temp seen => exact execRingSearchFull_frame engine fibre tx temp seen s
  | ringSearchPartial engine fibre tx temp found => exact execRingSearchPartial_frame engine fibre tx temp found s
  | dieTempOutOfWindow d temp => exact execDieTempOutOfWindow_frame d temp s
  | powerTelemetry reading => exact execPowerTelemetry_frame reading s
  | ringUnlock engine fibre row slot => exact execRingUnlock_frame engine fibre row slot s
  | ringRelock engine fibre row slot => exact execRingRelock_frame engine fibre row slot s
  | laneRejoinTimeout lane => exact execLaneRejoinTimeout_frame lane s
  | laserMonitorSample m => exact execLaserMonitorSample_frame m s
  | laserFadeAverage levels => exact execLaserFadeAverage_frame levels s
  | spareLocked pos powers => exact execSpareLocked_frame pos powers s
  | spareLockTimeout pos => exact execSpareLockTimeout_frame pos s
  | cutoverPauseTime bay => exact execCutoverPauseTime_frame bay s
  | cutoverSwitchSettled bay => exact execCutoverSwitchSettled_frame bay s
  | cutoverComplete bay => exact execCutoverComplete_frame bay s
  | openFibreDetect engine fibre => exact execOpenFibreDetect_frame engine fibre s
  | backReflectionHigh engine fibre => exact execBackReflectionHigh_frame engine fibre s
  | eyeSafetyProbe engine fibre => exact execEyeSafetyProbe_frame engine fibre s
  | eyeSafetyProbeEnd engine fibre low => exact execEyeSafetyProbeEnd_frame engine fibre low s
  | eyeSafetyRestore engine fibre => exact execEyeSafetyRestore_frame engine fibre s
  | crustWindowEnd => exact execCrustWindowEnd_frame s
  | crustChangeApply engine => exact execCrustChangeApply_frame engine s
  | crustEffective engine => exact execCrustEffective_frame engine s
  | crustLit circuit => exact execCrustLit_frame circuit s
  | blockSlot lane => exact execBlockSlot_frame lane s
  | dataBlockRx lane block => exact execDataBlockRx_frame lane block s
  | idleBlockRx lane block => exact execIdleBlockRx_frame lane block s
  | localBlockRx lane block => exact execLocalBlockRx_frame lane block s
  | nakGapTimeout port => exact execNakGapTimeout_frame port s
  | ackTimeoutReplay port => exact execAckTimeoutReplay_frame port s
  | replayLimit port => exact execReplayLimit_frame port s
  | creditRepeatTick port => exact execCreditRepeatTick_frame port s
  | creditTargetTick port => exact execCreditTargetTick_frame port s
  | creditGrantTick port => exact execCreditGrantTick_frame port s
  | delineationLock lane => exact execDelineationLock_frame lane s
  | delineationLoss lane => exact execDelineationLoss_frame lane s
  | laneErrorRate lane => exact execLaneErrorRate_frame lane s
  | signalDetect lane => exact execSignalDetect_frame lane s
  | lightLost lane => exact execLightLost_frame lane s
  | acquireLock lane => exact execAcquireLock_frame lane s
  | acquireTimeout lane => exact execAcquireTimeout_frame lane s
  | delineateTimeout lane => exact execDelineateTimeout_frame lane s
  | verifyPass lane received => exact execVerifyPass_frame lane received s
  | laneMessageRx port msgId action lanes => exact execLaneMessageRx_frame port msgId action lanes s
  | pauseRx port msgId time len lanes => exact execPauseRx_frame port msgId time len lanes s
  | pauseWindowEnd port => exact execPauseWindowEnd_frame port s
  | retrainRx port msgId => exact execRetrainRx_frame port msgId s
  | llAckRx port llType msgId => exact execLlAckRx_frame port llType msgId s
  | llRetryTick port => exact execLlRetryTick_frame port s
  | helloRx port pkt arrival => exact execHelloRx_frame port pkt arrival s
  | helloTick port => exact execHelloTick_frame port s
  | helloWait port => exact execHelloWait_frame port s
  | creditTimeout port => exact execCreditTimeout_frame port s
  | resumeTimeout port => exact execResumeTimeout_frame port s
  | packetHeaderRx port pkt slots => exact execPacketHeaderRx_frame port pkt slots s
  | c0PolicerRelease port => exact execC0PolicerRelease_frame port s
  | packetTrailerCheck id verdict inst => exact execPacketTrailerCheck_frame id verdict inst s
  | learnMsgRx slice => exact execLearnMsgRx_frame slice s
  | stagingWrite => exact execStagingWrite_frame s
  | headroomFilled slice => exact execHeadroomFilled_frame slice s
  | injectionWrite source => exact execInjectionWrite_frame source s
  | queueStalenessExpiry port cls vc => exact execQueueStalenessExpiry_frame port cls vc s
  | portStalenessExpiry port => exact execPortStalenessExpiry_frame port s
  | huskWaitExpiry port cls src => exact execHuskWaitExpiry_frame port cls src s
  | huskMoveEnd port cls => exact execHuskMoveEnd_frame port cls s
  | bucketLockTimeout slice bucket => exact execBucketLockTimeout_frame slice bucket s
  | sweepTick slice late => exact execSweepTick_frame slice late s
  | winnowWeightTick => exact execWinnowWeightTick_frame s
  | proofPeriodBoundary => exact execProofPeriodBoundary_frame s
  | lendIdleTimeout act res => exact execLendIdleTimeout_frame act res s
  | contributionRx errs => exact execContributionRx_frame errs s
  | slotResultWritten gid portion slot => exact execSlotResultWritten_frame gid portion slot s
  | gatherSend gid recipe errs => exact execGatherSend_frame gid recipe errs s
  | spillIdleTimeout gid portion => exact execSpillIdleTimeout_frame gid portion s
  | spillComplete gid portion => exact execSpillComplete_frame gid portion s
  | spillRestore gid portion errs => exact execSpillRestore_frame gid portion errs s
  | loafStalenessExpiry gid portion => exact execLoafStalenessExpiry_frame gid portion s
  | abortRx => exact execAbortRx_frame s
  | stagingSramError unit context double => exact execStagingSramError_frame unit context double s
  | reserveRx => exact execReserveRx_frame s
  | reservedRx => exact execReservedRx_frame s
  | refusedRx => exact execRefusedRx_frame s
  | commitRx => exact execCommitRx_frame s
  | committedRx => exact execCommittedRx_frame s
  | releaseRx => exact execReleaseRx_frame s
  | closeRx => exact execCloseRx_frame s
  | closedRx => exact execClosedRx_frame s
  | endpointDownRx => exact execEndpointDownRx_frame s
  | reserveAnswerTimeout opened sid => exact execReserveAnswerTimeout_frame opened sid s
  | reservationExpiry home opened => exact execReservationExpiry_frame home opened s
  | commitTimeout opened => exact execCommitTimeout_frame opened s
  | closeRepeatTick job => exact execCloseRepeatTick_frame job s
  | loafGraceExpiry target => exact execLoafGraceExpiry_frame target s
  | spineRequestRx => exact execSpineRequestRx_frame s
  | spinePacketDiscard => exact execSpinePacketDiscard_frame s
  | firmwareControlRx => exact execFirmwareControlRx_frame s
  | fwOutboundDrain => exact execFwOutboundDrain_frame s
  | summaryTick load => exact execSummaryTick_frame load s
  | summaryRx => exact execSummaryRx_frame s
  | mirrorAskRx => exact execMirrorAskRx_frame s
  | mirrorGrantRx => exact execMirrorGrantRx_frame s
  | mirrorDenyRx => exact execMirrorDenyRx_frame s
  | mirrorAskTimeout ask => exact execMirrorAskTimeout_frame ask s
  | replyRx => exact execReplyRx_frame s
  | dispatchRx => exact execDispatchRx_frame s
  | batchWaitExpiry context => exact execBatchWaitExpiry_frame context s
  | routerMmaDone => exact execRouterMmaDone_frame s
  | replicaChoice context origin ident slot => exact execReplicaChoice_frame context origin ident slot s
  | tokenDispatch context origin ident => exact execTokenDispatch_frame context origin ident s
  | expertReturnRx => exact execExpertReturnRx_frame s
  | tokenStalenessExpiry context origin ident => exact execTokenStalenessExpiry_frame context origin ident s
  | millInstructionIssue => exact execMillInstructionIssue_frame s
  | mmaDone => exact execMmaDone_frame s
  | millCopyDone slot index errs => exact execMillCopyDone_frame slot index errs s
  | programStalenessExpiry slot => exact execProgramStalenessExpiry_frame slot s
  | millGraceExpiry context => exact execMillGraceExpiry_frame context s
  | millSramError hit double => exact execMillSramError_frame hit double s
  | granaryAccessRx => exact execGranaryAccessRx_frame s
  | granaryWriteDone index => exact execGranaryWriteDone_frame index s
  | granaryReadDone index errors => exact execGranaryReadDone_frame index errors s
  | extentRetireDone region stack extent => exact execExtentRetireDone_frame region stack extent s
  | scrubLine error => exact execScrubLine_frame error s
  | regionZeroed region => exact execRegionZeroed_frame region s
  | mirrorReadbackDone remote => exact execMirrorReadbackDone_frame remote s
  | gristChunkStage slot errors => exact execGristChunkStage_frame slot errors s
  | gristLaunch slot => exact execGristLaunch_frame slot s
  | gristDone slot => exact execGristDone_frame slot s
  | gristStalenessExpiry slot => exact execGristStalenessExpiry_frame slot s
  | dmaDescriptorStart channel => exact execDmaDescriptorStart_frame channel s
  | dmaWriteResponse channel index errors => exact execDmaWriteResponse_frame channel index errors s
  | dmaRequestTimeout channel index number => exact execDmaRequestTimeout_frame channel index number s
  | dmaNoBufferRetry channel index number => exact execDmaNoBufferRetry_frame channel index number s
  | dmaDescriptorStaleness channel index => exact execDmaDescriptorStaleness_frame channel index s
  | dmaGraceExpiry channel => exact execDmaGraceExpiry_frame channel s
  | timeMsgTick => exact execTimeMsgTick_frame s
  | timeMsgRx port pkt arrival => exact execTimeMsgRx_frame port pkt arrival s
  | parentLostTimeout => exact execParentLostTimeout_frame s
  | gmSeqStall port => exact execGmSeqStall_frame port s
  | acquiringTimeout => exact execAcquiringTimeout_frame s
  | ppsInEdge => exact execPpsInEdge_frame s
  | ppsOutSecond high => exact execPpsOutSecond_frame high s
  | ptpMessageRx mport domain exchange => exact execPtpMessageRx_frame mport domain exchange s
  | snapshotLatch mailbox seq => exact execSnapshotLatch_frame mailbox seq s
  | crumbWrite => exact execCrumbWrite_frame s
  | sampleWrite => exact execSampleWrite_frame s
  | dtlsHandshake mport cert ok ownerRoot => exact execDtlsHandshake_frame mport cert ok ownerRoot s
  | sessionIdleTimeout session => exact execSessionIdleTimeout_frame session s
  | commandPeelRx session mport peel form => exact execCommandPeelRx_frame session mport peel form s
  | segmentTimeout mailbox session seq => exact execSegmentTimeout_frame mailbox session seq s
  | eventAckRx session mport peel => exact execEventAckRx_frame session mport peel s
  | commandStepDispatch => exact execCommandStepDispatch_frame s
  | commandDeadlineExpiry mailbox seq => exact execCommandDeadlineExpiry_frame mailbox seq s
  | stepOverrun typ idx mailbox seq => exact execStepOverrun_frame typ idx mailbox seq s
  | eventSend mailbox => exact execEventSend_frame mailbox s
  | eventResendTimeout mailbox => exact execEventResendTimeout_frame mailbox s
  | lldpTick mport => exact execLldpTick_frame mport s
  | lldpRx mport frame => exact execLldpRx_frame mport frame s
  | neighborDiscoveryRx mport solicit srcMac src target =>
    exact execNeighborDiscoveryRx_frame mport solicit srcMac src target s
  | icmpEchoRx mport srcMac src dst ident seqNo data =>
    exact execIcmpEchoRx_frame mport srcMac src dst ident seqNo data s
  | packetTooBigRx session mtu => exact execPacketTooBigRx_frame session mtu s
  | mgmtPortLinkChange mport up => exact execMgmtPortLinkChange_frame mport up s
  | proposalExpiry proposal => exact execProposalExpiry_frame proposal s
  | debugLockReturn => exact execDebugLockReturn_frame s
  | sessionKeyExpiry session => exact execSessionKeyExpiry_frame session s
  | l1Overrun typ idx objType ident => exact execL1Overrun_frame typ idx objType ident s
  | engineReset typ idx trains => exact execEngineReset_frame typ idx trains s
  | l2Overrun typ idx => exact execL2Overrun_frame typ idx s
  | scopeReset isl trains => exact execScopeReset_frame isl trains s
  | l3Overrun isl => exact execL3Overrun_frame isl s
  | dumpTimeout => exact execDumpTimeout_frame s
  | watchdogExpiry core => exact execWatchdogExpiry_frame core s
  | protectedSramError => exact execProtectedSramError_frame s
  | moduleCycleHold => exact execModuleCycleHold_frame s
  | cycleHoldExpiry => exact execCycleHoldExpiry_frame s
  | cycleRequestTimeout => exact execCycleRequestTimeout_frame s
  | linkSetSid o sid => exact execLinkSetSid_frame o sid s
  | linkNeighbours o => exact execLinkNeighbours_frame o s
  | linkLldp o mport => exact execLinkLldp_frame o mport s
  | linkFibreLength o lengths => exact execLinkFibreLength_frame o lengths s
  | linkLoopback o engine fibre on => exact execLinkLoopback_frame o engine fibre on s
  | linkCommission o engines powers => exact execLinkCommission_frame o engines powers s
  | linkSpareMode o enable => exact execLinkSpareMode_frame o enable s
  | linkBayReturn o bay => exact execLinkBayReturn_frame o bay s
  | linkRingRecord o die => exact execLinkRingRecord_frame o die s
  | portWidth o widths => exact execPortWidth_frame o widths s
  | portCompat o port on => exact execPortCompat_frame o port on s
  | portMode o port mask => exact execPortMode_frame o port mask s
  | portSample o port k => exact execPortSample_frame o port k s
  | portStale o port queueUs portUs => exact execPortStale_frame o port queueUs portUs s
  | portHuskWait o port cls us => exact execPortHuskWait_frame o port cls us s
  | portRetrain o port => exact execPortRetrain_frame o port s
  | portLane o port mask restore => exact execPortLane_frame o port mask restore s
  | portState o port => exact execPortState_frame o port s
  | tableWrite o table slices g elems hung => exact execTableWrite_frame o table slices g elems hung s
  | tableRead o table slice first amount => exact execTableRead_frame o table slice first amount s
  | tablePurge o slices pid g => exact execTablePurge_frame o slices pid g s
  | tableParams o slices params => exact execTableParams_frame o slices params s
  | tablePartition o pid w0 ports => exact execTablePartition_frame o pid w0 ports s
  | tableFence o pid notify => exact execTableFence_frame o pid notify s
  | tableAdvance o pid epoch => exact execTableAdvance_frame o pid epoch s
  | tableOpen o pid => exact execTableOpen_frame o pid s
  | tableRootPriority o value => exact execTableRootPriority_frame o value s
  | classCreditWeight o port weights => exact execClassCreditWeight_frame o port weights s
  | classSched o port weights credits overhead => exact execClassSched_frame o port weights credits overhead s
  | classShaper o port target params => exact execClassShaper_frame o port target params s
  | classMarker o port cls params => exact execClassMarker_frame o port cls params s
  | classProfile o profile curves => exact execClassProfile_frame o profile curves s
  | classQueue o port cls profile a mark => exact execClassQueue_frame o port cls profile a mark s
  | classBudget o activity shares lendable => exact execClassBudget_frame o activity shares lendable s
  | classBudgetRead o => exact execClassBudgetRead_frame o s
  | loafGroupDefine o gid pid delivery members => exact execLoafGroupDefine_frame o gid pid delivery members s
  | loafGroupDelete o gid => exact execLoafGroupDelete_frame o gid s
  | loafLive o gid se live => exact execLoafLive_frame o gid se live s
  | loafOpen o gid params => exact execLoafOpen_frame o gid params s
  | loafClose o gid recipe grace => exact execLoafClose_frame o gid recipe grace s
  | loafAbortCommand o gid seq => exact execLoafAbortCommand_frame o gid seq s
  | loafMemberLost o gid member => exact execLoafMemberLost_frame o gid member s
  | loafSizing o pid reach limit => exact execLoafSizing_frame o pid reach limit s
  | loafKnead o high low enable grace => exact execLoafKnead_frame o high low enable grace s
  | loafRecipes o gid => exact execLoafRecipes_frame o gid s
  | millAlloc o pid pages => exact execMillAlloc_frame o pid pages s
  | millLoad o slot pid stale code agds => exact execMillLoad_frame o slot pid stale code agds s
  | millRun o slot => exact execMillRun_frame o slot s
  | millStop o slot => exact execMillStop_frame o slot s
  | millContext o context record => exact execMillContext_frame o context record s
  | millReplicas o context expert replicas => exact execMillReplicas_frame o context expert replicas s
  | millWeights o set pid format d e region offset errs =>
    exact execMillWeights_frame o set pid format d e region offset errs s
  | millRestore o context address => exact execMillRestore_frame o context address s
  | millEnable o enable grace => exact execMillEnable_frame o enable grace s
  | granaryCreate o rec0 stackSet extents => exact execGranaryCreate_frame o rec0 stackSet extents s
  | granaryFree o region => exact execGranaryFree_frame o region s
  | granarySet o region rec0 => exact execGranarySet_frame o region rec0 s
  | granaryQuery o region => exact execGranaryQuery_frame o region s
  | granaryMirrorOpen o shard owner tags generation size replicas =>
    exact execGranaryMirrorOpen_frame o shard owner tags generation size replicas s
  | granaryMirrorCommit o shard generation crc => exact execGranaryMirrorCommit_frame o shard generation crc s
  | granaryMirrorQuery o shard => exact execGranaryMirrorQuery_frame o shard s
  | granaryMirrorClose o shard => exact execGranaryMirrorClose_frame o shard s
  | granaryChannelBind o channel pid rate => exact execGranaryChannelBind_frame o channel pid rate s
  | granaryChannelSet o channel setting => exact execGranaryChannelSet_frame o channel setting s
  | granaryChannelStart o channel => exact execGranaryChannelStart_frame o channel s
  | granaryChannelStop o channel grace => exact execGranaryChannelStop_frame o channel grace s
  | granaryEnable o enable grace => exact execGranaryEnable_frame o enable grace s
  | gristLoad o slot params => exact execGristLoad_frame o slot params s
  | gristStart o slot => exact execGristStart_frame o slot s
  | gristStop o slot => exact execGristStop_frame o slot s
  | gristUnload o slot => exact execGristUnload_frame o slot s
  | gristStatus o slot => exact execGristStatus_frame o slot s
  | winnowPolicy o pid setting => exact execWinnowPolicy_frame o pid setting s
  | winnowTags o entries => exact execWinnowTags_frame o entries s
  | winnowPin o subject => exact execWinnowPin_frame o subject s
  | winnowUnpin o subject => exact execWinnowUnpin_frame o subject s
  | winnowCrustMask o engine mask => exact execWinnowCrustMask_frame o engine mask s
  | winnowLog o first amount => exact execWinnowLog_frame o first amount s
  | timeTie o source domain t96 => exact execTimeTie_frame o source domain t96 s
  | timeAcceptStep o limit => exact execTimeAcceptStep_frame o limit s
  | timeThresh o ns => exact execTimeThresh_frame o ns s
  | timeAsym o port asym => exact execTimeAsym_frame o port asym s
  | timePriority o value => exact execTimePriority_frame o value s
  | timePps o discipline => exact execTimePps_frame o discipline s
  | timeLaunchRead o most => exact execTimeLaunchRead_frame o most s
  | timeStatus o => exact execTimeStatus_frame o s
  | counterRead o ids => exact execCounterRead_frame o ids s
  | counterSnapshot o ids => exact execCounterSnapshot_frame o ids s
  | counterFilter o rec0 => exact execCounterFilter_frame o rec0 s
  | crumbRead o offset length => exact execCrumbRead_frame o offset length s
  | crumbDump o => exact execCrumbDump_frame o s
  | crumbTrace o categories pidMatch pid => exact execCrumbTrace_frame o categories pidMatch pid s
  | resetContext o objType a b => exact execResetContext_frame o objType a b s
  | resetEngine o code trains => exact execResetEngine_frame o code trains s
  | resetSlice o slice trains => exact execResetSlice_frame o slice trains s
  | resetChip o => exact execResetChip_frame o s
  | resetCycle o => exact execResetCycle_frame o s
  | quorumList o => exact execQuorumList_frame o s
  | quorumApprove o proposal approve signature => exact execQuorumApprove_frame o proposal approve signature s
  | quorumWithdraw o proposal => exact execQuorumWithdraw_frame o proposal s
  | keySession o pub nonce => exact execKeySession_frame o pub nonce s
  | keyLoad o session region slot counter wrapped => exact execKeyLoad_frame o session region slot counter wrapped s
  | keyBind o region slot target direction pid => exact execKeyBind_frame o region slot target direction pid s
  | keyZeroize o region slot => exact execKeyZeroize_frame o region slot s
  | attestReport o nonce => exact execAttestReport_frame o nonce s
  | attestChain o => exact execAttestChain_frame o s
  | powerCap o watts => exact execPowerCap_frame o watts s
  | powerStatus o => exact execPowerStatus_frame o s
  | fwCaps o => exact execFwCaps_frame o s
  | fwInfo o => exact execFwInfo_frame o s
  | fwUpdate o length digest => exact execFwUpdate_frame o length digest s
  | fwStage o offset bytes => exact execFwStage_frame o offset bytes s
  | fwCredit o mailbox credit => exact execFwCredit_frame o mailbox credit s
  | fwBindMailbox o mailbox pid cert => exact execFwBindMailbox_frame o mailbox pid cert s
  | fwCredential o remove cls cert => exact execFwCredential_frame o remove cls cert s
  | fwNetwork o network address pfxLen mtu => exact execFwNetwork_frame o network address pfxLen mtu s
  | fwRegRead o addr amount => exact execFwRegRead_frame o addr amount s
  | fwRegWrite o addr value mask => exact execFwRegWrite_frame o addr value mask s
  | fwDebugUnlock o scope duration => exact execFwDebugUnlock_frame o scope duration s
  | acceptStepSampleTimeout => exact execAcceptStepSampleTimeout_frame s
  | tieSourceTimeout => exact execTieSourceTimeout_frame s
  | neighbourChangeHoldoffEnd => exact execNeighbourChangeHoldoffEnd_frame s
  | sampleReadyHoldoffEnd => exact execSampleReadyHoldoffEnd_frame s
  | baySelfTestDone bay => exact execBaySelfTestDone_frame bay s
  | flashWriteComplete => exact execFlashWriteComplete_frame s

end Sys2Proof.Machine
end

section
/-! ## The canonical form of the Granary's tables along an operation (11 R361)

An operation keeps the form when its frame leaves memory out, when it leaves the contents as they were, or when it is
made of writes and of operations that do. -/

set_option Elab.async false

namespace Sys2Proof.Machine

/-- One more operation, whose frame leaves memory out. -/
theorem MemoryInv.frame {ps : List Part} {s t : State} (hs : MemoryInv s) (h : OnlyChanges ps s t)
    (hp : Part.memory ∉ ps := by decide) : MemoryInv t := (h.sameContents hp).memoryInv hs

/-- One more operation, which leaves the Granary as it is. -/
theorem MemoryInv.congr {s t : State} (hs : MemoryInv s) (h : t.gran = s.gran) : MemoryInv t := by
  rw [MemoryInv, h]
  exact hs

/-- One more operation, which leaves the contents of the Granary as they were. -/
theorem MemoryInv.same {s t : State} (hs : MemoryInv s) (h : SameContents s t) : MemoryInv t := h.memoryInv hs

/-- A change of the Granary that keeps its bytes, whatever it is applied to. -/
theorem MemoryInv.modGran {f : GranState → GranState} {s : State} (hs : MemoryInv s) (hmem : ∀ g, (f g).mem = g.mem)
    (hkeys : ∀ g, (f g).lineKeys = g.lineKeys) : MemoryInv (modGran f s) := hs.same (modGran_sameContents s hmem hkeys)

/-! ### DMA channels (11 R387 to R394) -/

theorem clearOwn_inv (ch : Channel) (i : Nat) {s : State} (h : MemoryInv s) : MemoryInv (clearOwn ch i s) :=
  writeBytes_inv _ _ _ h

theorem writeCompletion_inv (c : Nat) (f : InFlight) (st : Status) {s : State} (h : MemoryInv s) :
    MemoryInv (writeCompletion c f st s) := by
  unfold writeCompletion
  extract_lets ch s1 s2 s3 s4 n s5
  have hrecord : MemoryInv s1 := writeBytes_inv _ _ _ h
  have hown : MemoryInv s2 := clearOwn_inv _ _ hrecord
  have hcount : MemoryInv s3 := hown.frame (countChannel_frame _ _ _ _)
  have hstatus : MemoryInv s4 := by
    unfold s4
    split
    · exact hcount.frame (countChannel_frame _ _ _ _)
    split
    · exact (hcount.frame (countChannel_frame _ _ _ _)).frame (countChannel_frame _ _ _ _)
    · exact hcount.frame (countChannel_frame _ _ _ _)
  have hdone : MemoryInv s5 := hstatus.frame (modChannel_frame _ _ _)
  split
  · exact (hdone.frame (modChannel_frame _ _ _)).frame (raiseOwner_frame _ _ _ _ _)
  · exact hdone

theorem retireFlight_inv (n c : Nat) {s : State} (h : MemoryInv s) : MemoryInv (retireFlight n c s) := by
  induction n generalizing s with
  | zero => exact h.frame (settleStop_frame _ _)
  | succ n ih =>
    unfold retireFlight
    split
    · exact h.frame (settleStop_frame _ _)
    split
    · exact h
    · exact ih (writeCompletion_inv _ _ _ (h.frame (modChannel_frame _ _ _)))

theorem completeDesc_inv (c i : Nat) (st : Status) {s : State} (h : MemoryInv s) : MemoryInv (completeDesc c i st s) :=
  retireFlight_inv _ _ (h.frame (modChannel_frame _ _ _))

theorem failFlight_inv (c : Nat) (st : Status) (grace : Bool) {s : State} (h : MemoryInv s) :
    MemoryInv (failFlight c st grace s) := by
  unfold failFlight
  extract_lets s1 s2
  have hcrumbs : MemoryInv s1 := by
    refine foldl_inv (P := MemoryInv) (fun t f ht => ?_) _ h
    split
    · exact ht.frame (graceCrumb_frame _ _ _ _)
    · exact ht
  exact retireFlight_inv _ _ (hcrumbs.frame (modChannel_frame _ _ _))

theorem graceChannel_inv (c : Nat) {s : State} (h : MemoryInv s) : MemoryInv (graceChannel c s) := by
  unfold graceChannel
  split
  · extract_lets s1 os s2
    have hlate : MemoryInv s1 := h.modGran (fun _ => rfl) (fun _ => rfl)
    exact failFlight_inv _ _ _ (foldl_inv (P := MemoryInv) (fun t o ht => ht.frame (finish_frame _ _ _ _)) _
      (hlate.frame (modChannel_frame _ _ _)))
  · exact h

theorem sendRequest_inv (c i : Nat) (f : InFlight) (retx : Bool) {s : State} (h : MemoryInv s) :
    MemoryInv (sendRequest c i f retx s) := by
  unfold sendRequest
  split
  · exact h
  split
  · exact completeDesc_inv _ _ _ h
  · extract_lets upd s1 s2
    have hsends : MemoryInv s1 := h.frame (modFlight_frame _ _ _ _)
    have hcount : MemoryInv s2 := by
      unfold s2
      split
      · exact hsends.frame (countChannel_frame _ _ _ _)
      · exact hsends
    exact hcount.frame (originate_frame _ _ _)

theorem settleRequests_inv (c i : Nat) {s : State} (h : MemoryInv s) : MemoryInv (settleRequests c i s) := by
  unfold settleRequests
  split
  · exact h
  split
  · exact completeDesc_inv _ _ _ h
  · exact h

theorem fenceChannels_inv (pid : Nat) {s : State} (h : MemoryInv s) : MemoryInv (fenceChannels pid s) :=
  foldl_inv (P := MemoryInv) (fun _ _ ht => graceChannel_inv _ (ht.frame (stopChannel_frame _ _ _))) _ h

theorem takeDescriptor_inv (c : Nat) (ch : Channel) (d : Descriptor) {s : State} (h : MemoryInv s) :
    MemoryInv (takeDescriptor c ch d s) := by
  unfold takeDescriptor
  extract_lets +lift f s1 s2 rs s3
  have htaken : MemoryInv s1 := h.frame (modChannel_frame _ _ _)
  split
  · refine completeDesc_inv _ _ _ ?_
    split
    · exact htaken.frame (modChannel_frame _ _ _)
    · exact htaken
  · have hcharged : MemoryInv s2 := htaken.frame (channelSpend_frame _ _ _)
    split
    · refine foldl_inv (P := MemoryInv) (fun t i ht => ?_) _ (hcharged.frame (modFlight_frame _ _ _ _))
      split
      · exact sendRequest_inv _ _ _ _ ht
      · exact ht
    · exact hcharged

theorem nextBurst_inv (c : Nat) (f : InFlight) (errs : List LineError) {s : State} (h : MemoryInv s) :
    MemoryInv (nextBurst c f errs s) := by
  unfold nextBurst
  extract_lets i
  cases pieceAt f.desc i
  dsimp -zeta only
  extract_lets +lift s0 bs s1 s2
  have hread : MemoryInv s0 := by
    unfold s0
    split
    · exact h.same (meetErrors_sameContents _ _ _ _ _)
    · exact h
  have hwritten : MemoryInv s1 := by
    unfold s1
    split
    · exact writeBytes_inv _ _ _ hread
    · exact hread
  have hnoted : MemoryInv s2 := (hwritten.frame (modFlight_frame _ _ _ _)).frame (channelSpend_frame _ _ _)
  split
  · exact completeDesc_inv _ _ _ hread
  split
  · exact completeDesc_inv _ _ _ hnoted
  · exact hnoted

theorem onRequest_inv (c index number : Nat) (refused : Bool) {s : State} (h : MemoryInv s) :
    MemoryInv (onRequest c index number refused s) := by
  unfold onRequest
  split
  · exact h
  split
  · exact sendRequest_inv _ _ _ _ h
  · exact h

/-! ### Endpoint access (11 R371, R392) -/

theorem postAll_inv (k : Packet) {s : State} (h : MemoryInv s) : MemoryInv (postAll k s) := by
  unfold postAll
  extract_lets c ch s1
  have hposted : MemoryInv s1 := foldl_inv (P := MemoryInv) (fun _ _ ht => writeBytes_inv _ _ _ ht) _ h
  exact hposted.frame (modChannel_frame _ _ _)

theorem serveAccess_inv (k : Packet) {s : State} (h : MemoryInv s) : MemoryInv (serveAccess k s) := by
  unfold serveAccess
  extract_lets st s1 s2 s3 t1
  split
  · exact h.frame (respond_frame _ _ _ _)
  split
  · have hwritten : MemoryInv s1 := writeBytes_inv _ _ _ h
    have hcounted : MemoryInv s2 := by
      unfold s2
      split
      · exact hwritten.frame (countRange_frame _ _ _ _ _)
      · exact hwritten
    have hcharged : MemoryInv s3 := by
      unfold s3
      split
      · exact hcounted.frame (startWork_frame _ _ _ _)
      · exact hcounted
    exact hcharged.modGran (fun _ => rfl) (fun _ => rfl)
  split
  · have hcounted : MemoryInv t1 := by
      unfold t1
      split
      · exact h.frame (countRange_frame _ _ _ _ _)
      · exact h
    exact hcounted.modGran (fun _ => rfl) (fun _ => rfl)
  · exact (postAll_inv k h).frame (respond_frame _ _ _ _)

/-! ### Loafs and programs (08 R291, R302; 10 R342) -/

theorem stageGather_inv (key : Nat) (rc : Recipe) (n spill : Nat) (k : Packet) {s : State} (h : MemoryInv s) :
    MemoryInv (stageGather key rc n spill k s) := by
  unfold stageGather
  split
  · exact h
  · extract_lets g bs o s1 s2
    have hwritten : MemoryInv s1 :=
      (writeBytes_inv _ _ _ ((h.frame (countKnead_frame _ _ _ _)).frame (countKnead_frame _ _ _ _))).frame
        (startWork_frame _ _ _ _)
    have hstaged : MemoryInv s2 := hwritten.frame (modCtx_frame _ _ _)
    split
    · exact hstaged.frame (endLoaf_frame _ _ _ _)
    · exact hstaged

theorem accept1_inv (key : Nat) (held : Held) (k : Packet) (errs : List LineError) {s : State} (h : MemoryInv s) :
    MemoryInv (accept1 key held k errs s) := by
  unfold accept1
  extract_lets rc n s1
  have hbusy : MemoryInv s1 := h.frame (modCtx_frame _ _ _)
  cases loafCtx s key with
  | none => exact h
  | some c =>
  dsimp -zeta only
  extract_lets +lift s2
  split
  · exact h.frame (abortCtx_frame _ _ _)
  · have hslots : MemoryInv s2 := by
      unfold s2
      split
      · exact hbusy.same (restoreSlots_sameContents _ _ _ _ _)
      split
      · exact hbusy.frame (startWork_frame _ _ _ _)
      · exact hbusy
    split
    · split
      · exact stageGather_inv _ _ _ _ _ hslots
      · exact hslots.frame (combine_frame _ _ _ _ _)
    · exact hslots

theorem startLoaf_inv (key : Nat) (held : Held) (k : Packet) (errs : List LineError) {s : State} (h : MemoryInv s) :
    MemoryInv (startLoaf key held k errs s) := by
  unfold startLoaf
  extract_lets s1
  have hbegun : MemoryInv s1 := h.frame (beginLoaf_frame _ _ _ _)
  split
  · split
    · exact hbegun.frame (abortCtx_frame _ _ _)
    · exact accept1_inv _ _ _ _ hbegun
  · exact hbegun

theorem writeSpill_inv (held : Held) (o : Nat) (imgs : List (Nat × List Byte)) {s : State} (h : MemoryInv s) :
    MemoryInv (writeSpill held o imgs s) :=
  foldl_inv (P := MemoryInv) (fun _ _ ht => (writeBytes_inv _ _ _ ht).frame (startWork_frame _ _ _ _)) _ h

theorem runCopy_inv (p : MillProgram) (i : List Word) {s : State} (h : MemoryInv s) : MemoryInv (runCopy p i s) := by
  unfold runCopy
  extract_lets r o n base
  split
  · exact h.frame (putElem_frame _ _ _ _)
  · exact writeBytes_inv _ _ _ h

theorem finishCopy_inv (slot index : Nat) (p : MillProgram) (i : List Word) (errs : List LineError) {s : State}
    (h : MemoryInv s) : MemoryInv (finishCopy slot index p i errs s) := by
  unfold finishCopy
  extract_lets r o n s1 read
  have hmet : MemoryInv s1 :=
    ((h.frame (modProgram_frame _ _ _)).frame (startWork_frame _ _ _ _)).same (meetErrors_sameContents _ _ _ _ _)
  split
  · exact hmet.frame (accessFault_frame _ _)
  · exact (runCopy_inv _ _ hmet).frame (bumpCounter_frame _ _ _ _)

/-! ### Crumbs, samples and dumps (19 R603, R605; 17 R560 to R563) -/

theorem putCrumb_inv (c : CrumbRec) {s : State} (h : MemoryInv s) : MemoryInv (putCrumb c s) :=
  writeBytes_inv _ _ _ (h.frame (startWork_frame _ _ _ _))

theorem putSample_inv (r : List Word × List Byte) {s : State} (h : MemoryInv s) : MemoryInv (putSample r s) :=
  writeBytes_inv _ _ _ (h.frame (startWork_frame _ _ _ _))

end Sys2Proof.Machine
end

section
/-! ## The canonical form of the Granary's tables along resets and starts (11 R361; 17 R553 to R563)

A reset writes a dump, ends the work of a unit, or gives the Granary its state at reset. -/

set_option Elab.async false

namespace Sys2Proof.Machine

theorem modPower_inv (f : PowerState → PowerState) {s : State} (h : MemoryInv s) : MemoryInv (modPower f s) :=
  h.congr rfl

theorem modStart_inv (f : StartState → StartState) {s : State} (h : MemoryInv s) : MemoryInv (modStart f s) :=
  h.congr (modStart_gran f s)

theorem modRst_inv (f : RstState → RstState) {s : State} (h : MemoryInv s) : MemoryInv (modRst f s) := h.congr rfl

theorem modTele_inv (f : TeleState → TeleState) {s : State} (h : MemoryInv s) : MemoryInv (modTele f s) := h.congr rfl

theorem modLoaf_inv (f : LoafState → LoafState) {s : State} (h : MemoryInv s) : MemoryInv (modLoaf f s) := h.congr rfl

theorem withMgmt_inv (m : MgmtState) {s : State} (h : MemoryInv s) : MemoryInv { s with mgmt := m } := h

/-! ### The dump of a reset and its own account -/

theorem writeDump_inv (hw : Bool) (lvl trigger scope : Nat) (args : List Nat) {s : State} (h : MemoryInv s) :
    MemoryInv (writeDump hw lvl trigger scope args s) := by
  unfold writeDump
  split
  · extract_lets ws s1
    have hwritten : MemoryInv s1 := writeBytes_inv _ _ _ h
    exact modStart_inv _ ((modTele_inv _ hwritten).frame (countControl_frame _ _))
  · exact modStart_inv _ h

theorem beginReset_inv (e : Escalation) {s : State} (h : MemoryInv s) : MemoryInv (beginReset e s) := by
  unfold beginReset
  extract_lets seq s1
  have hdump : MemoryInv s1 := by
    unfold s1
    split
    · exact h
    · exact writeDump_inv _ _ _ _ _ h
  exact (hdump.frame (noteLevel_frame _ _)).frame (raiseBoth_frame _ _ _)

/-! ### Engines, stacks and islands -/

theorem clearChannel_inv (c : Nat) {s : State} (h : MemoryInv s) : MemoryInv (clearChannel c s) := by
  unfold clearChannel
  extract_lets s1 s2
  have hended : MemoryInv s1 := by
    unfold s1
    split
    · split
      · refine MemoryInv.frame ?_ (finish_frame _ _ _ _)
        exact h.modGran (fun _ => rfl) (fun _ => rfl)
      · exact h
    · exact h
  have hfailed : MemoryInv s2 := failFlight_inv _ _ _ (hended.frame (answerStops_frame _ _ _))
  exact (hfailed.frame (modChannel_frame _ _ _)).frame (zeroCounters_frame _ _ _)

theorem clearStack_inv (g : Nat) (trains : Bool) {s : State} (h : MemoryInv s) : MemoryInv (clearStack g trains s) := by
  unfold clearStack
  extract_lets hit s1 s2 s3 s4 sec s5
  have hqueues : MemoryInv s1 := h.modGran (fun _ => rfl) (fun _ => rfl)
  have hanswered : MemoryInv s2 :=
    foldl_inv (P := MemoryInv) (fun _ _ ht => ht.frame (respond_frame _ _ _ _)) _ hqueues
  have hdescs : MemoryInv s3 :=
    foldl_inv (P := MemoryInv)
      (fun _ _ ht => foldl_inv (P := MemoryInv) (fun _ _ hu => completeDesc_inv _ _ _ hu) _ ht) _ hanswered
  have hloafs : MemoryInv s4 := hdescs.frame (abortContexts_frame _ _)
  have hkeys : MemoryInv s5 := hloafs.congr rfl
  split
  · exact hkeys.frame (zeroCounters_frame _ _ _)
  · exact (hkeys.frame (loseStack_frame _ _)).frame (zeroCounters_frame _ _ _)

theorem clearEngine_inv (typ idx : Nat) (trains : Bool) {s : State} (h : MemoryInv s) :
    MemoryInv (clearEngine typ idx trains s) := by
  unfold clearEngine
  split
  · exact h.frame (clearKnead_frame _ _)
  split
  · exact h.frame (clearMill_frame _)
  split
  · exact clearChannel_inv _ h
  split
  · exact clearStack_inv _ _ h
  split
  · exact h.frame (clearGroup_frame _ _)
  · exact h.frame (clearPort_frame _ _)

theorem clearIsland_inv (i : Nat) (trains : Bool) {s : State} (h : MemoryInv s) :
    MemoryInv (clearIsland i trains s) := by
  unfold clearIsland
  extract_lets s1 s2
  have hunits : MemoryInv s1 := by
    unfold s1
    split
    · exact h.frame (clearCluster_frame _ _)
    split
    · exact h.frame (restoreSlice_frame _ _)
    · exact foldl_inv (P := MemoryInv) (fun _ _ ht => clearEngine_inv _ _ _ ht) _ h
  have hrest : MemoryInv s2 := by
    unfold s2
    split
    · exact modLoaf_inv _ hunits
    split
    · exact hunits.frame (endKeySessions_frame _)
    · exact hunits
  exact hrest.frame (zeroCounters_frame _ _ _)

theorem resetEngine_inv (typ idx : Nat) (trains : Bool) {s : State} (h : MemoryInv s) :
    MemoryInv (resetEngine typ idx trains s) := by
  unfold resetEngine
  extract_lets scope
  split
  · exact h
  · split
    · exact (h.frame (dropAsked_frame _ _)).frame (escalateIsland_frame _ _ _ _)
    · exact clearEngine_inv _ _ _ (modRst_inv _ ((beginReset_inv _ h).frame (dropAsked_frame _ _)))

theorem resetScope_inv (i : Nat) (trains : Bool) {s : State} (h : MemoryInv s) : MemoryInv (resetScope i trains s) := by
  unfold resetScope
  extract_lets scope recent is
  cases askedFor s 3 scope with
  | none => exact h
  | some e =>
    dsimp -zeta only
    extract_lets +lift s1 s2
    split
    · exact (h.frame (dropAsked_frame _ _)).frame (escalate_frame _ _ _ _ _)
    · have hheld : MemoryInv s1 :=
        modRst_inv _ (((beginReset_inv _ h).frame (dropAsked_frame _ _)).frame (holdIslands_frame _ _))
      have hcleared : MemoryInv s2 := foldl_inv (P := MemoryInv) (fun _ _ ht => clearIsland_inv _ _ ht) _ hheld
      split
      · exact hcleared.frame (returnScope_frame _ _)
      · exact modRst_inv _ hcleared

/-! ### The whole device -/

theorem clearChip_inv {s : State} (h : MemoryInv s) : MemoryInv (clearChip s) := h

/-- A loss of power or a cold start gives the Granary its state at reset. -/
theorem clearAll_inv (s : State) : MemoryInv (clearAll s) := memoryInvAtReset

theorem coldHold_inv (s : State) : MemoryInv (coldHold s) := modStart_inv _ (clearAll_inv s)

theorem dropPower_inv (s : State) : MemoryInv (dropPower s) := modPower_inv _ (coldHold_inv s)

theorem latchOff_inv (s : State) : MemoryInv (latchOff s) := modPower_inv _ (dropPower_inv s)

theorem coldPrepared_inv (o : StartOutcome) (s : State) : MemoryInv (coldPrepared o s) :=
  (modStart_inv _ (modPower_inv _ (clearAll_inv s))).frame (storeNow_frame _ _)

theorem warmPrepared_inv (e : Escalation) {s : State} (h : MemoryInv s) : MemoryInv (warmPrepared e s) := by
  unfold warmPrepared
  extract_lets s1
  have hbegun : MemoryInv s1 := modRst_inv _ (beginReset_inv e h)
  exact modStart_inv _ ((clearChip_inv hbegun).frame (holdAll_frame _))

theorem holdModule_inv (e : Escalation) {s : State} (h : MemoryInv s) : MemoryInv (holdModule e s) := by
  unfold holdModule
  extract_lets seq s1 net s2
  have hbegun : MemoryInv s1 := beginReset_inv e h
  have hdark : MemoryInv s2 := modStart_inv _ ((clearChip_inv hbegun).frame (darkOptics_frame _))
  refine MemoryInv.frame (MemoryInv.frame ?_ (releaseOnly_frame _ _)) (mgmtUp_frame _ _)
  exact withMgmt_inv _ hdark

/-! ### Partitions and proposals (16 R646; 15 R477) -/

theorem endPartitionWork_inv (pid : Nat) {s : State} (h : MemoryInv s) : MemoryInv (endPartitionWork pid s) :=
  fenceChannels_inv _ (((h.frame (fenceLoafs_frame _ _)).frame (fenceMill_frame _ _)).frame (fenceGrists_frame _ _))

theorem applyPartition_inv (pid : Nat) (w0 : Word) (ports : List Word) {s : State} (h : MemoryInv s) :
    MemoryInv (applyPartition pid w0 ports s) := by
  unfold applyPartition
  extract_lets d was s1
  have hset : MemoryInv s1 := (h.frame (modPartition_frame _ _ _)).frame (startWork_frame _ _ _ _)
  split
  · exact endPartitionWork_inv _ hset
  · exact hset

theorem applyStaged_inv (o : Origin) (b : Staged) {s : State} (h : MemoryInv s) : MemoryInv (applyStaged o b s).2 := by
  cases b with
  | tablePartition pid w0 ports => exact applyPartition_inv _ _ _ h
  | keyBind region slot target direction pid =>
    unfold applyStaged
    dsimp only
    split
    · exact h
    · exact h.frame (applyBind_frame _ _ _ _ _ _)
  | debugUnlock scope duration => exact h.frame (applyUnlock_frame _ _ _)
  | fwUpdate length digest =>
    unfold applyStaged
    dsimp only
    split
    · exact h
    · exact h.frame (writeImage_frame _ _ _)
  | granarySet r rec0 =>
    unfold applyStaged
    dsimp only
    split
    · exact h
    split
    · exact h
    split
    · exact h
    · exact h.frame (setRights_frame _ _ _)
  | winnowPolicy pid policy =>
    unfold applyStaged
    dsimp only
    split
    · exact h
    · exact h.frame (setPolicy_frame _ _ _)

theorem completeProposal_inv (id : Nat) (p : Proposal) {s : State} (h : MemoryInv s) :
    MemoryInv (completeProposal id p s) := by
  unfold completeProposal
  split
  rename_i st t hst
  have ht : MemoryInv t := by
    split at hst
    · have happlied := applyStaged_inv p.origin p.staged h
      rwa [hst] at happlied
    · cases hst
      exact h
  exact ht.frame (endProposal_frame _ _ _ _)

end Sys2Proof.Machine
end

section
/-! ## The canonical form of the Granary's tables along every step (11 R361)

Most commands leave memory out of what they may change; for each of the others its operations keep the form. -/

set_option Elab.async false

namespace Sys2Proof.Machine

/-- An outcome that goes on has the Granary's tables in canonical form. -/
def NextInv (r : Host.Outcome State Fault Refusal) : Prop :=
  match r with
  | .next t => MemoryInv t
  | _ => True

/-- What a command's own rules give has the Granary's tables in canonical form. -/
def CmdInv (r : CmdOutcome) : Prop :=
  match r with
  | .done _ _ t => MemoryInv t
  | .fails _ t => MemoryInv t
  | .later t => MemoryInv t
  | .soon t => MemoryInv t
  | .laterGrace _ t => MemoryInv t

theorem next_inv {t : State} (h : MemoryInv t) : NextInv (.next t) := h

theorem onUnit_inv (ok : Bool) {t : State} (h : MemoryInv t) : NextInv (onUnit ok t) := by
  cases ok
  · exact True.intro
  · exact h

theorem NextChanges.inv {ps : List Part} {s : State} {r : Host.Outcome State Fault Refusal} (h : NextChanges ps s r)
    (hs : MemoryInv s) (hp : Part.memory ∉ ps) : NextInv r := by
  cases r with
  | next t => exact hs.frame h hp
  | fault _ => exact True.intro
  | refused _ => exact True.intro

theorem CmdChanges.inv {ps : List Part} {s : State} {r : CmdOutcome} (h : CmdChanges ps s r) (hs : MemoryInv s)
    (hp : Part.memory ∉ ps := by decide) : CmdInv r := by
  cases r with
  | done _ _ t => exact hs.frame h hp
  | fails _ t => exact hs.frame h hp
  | later t => exact hs.frame h hp
  | soon t => exact hs.frame h hp
  | laterGrace _ t => exact hs.frame h hp

theorem failWith_inv (st : Status) {s : State} (h : MemoryInv s) : CmdInv (failWith st s) := h

/-! ### A command of a mailbox or session (15 R490 to R497) -/

theorem commitCommand_inv (o : Origin) (code : Nat) (body : State → CmdOutcome) {s : State} (h : MemoryInv s)
    (hb : CmdInv (body s)) : MemoryInv (commitCommand o code body s) := by
  unfold commitCommand
  revert hb
  cases body s with
  | done st ws t =>
    intro hb
    dsimp only
    split
    · exact MemoryInv.frame hb (answer_frame _ _ _ _ _)
    · exact h.frame (answer_frame _ _ _ _ _)
  | fails st t => exact fun hb => MemoryInv.frame hb (answer_frame _ _ _ _ _)
  | later t => exact fun hb => MemoryInv.frame hb (accept_frame _ _ _ _ _)
  | soon t => exact fun hb => MemoryInv.frame hb (accept_frame _ _ _ _ _)
  | laterGrace g t => exact fun hb => MemoryInv.frame hb (accept_frame _ _ _ _ _)

theorem runCommand_inv (o : Origin) (code : Nat) {body : State → CmdOutcome} (hb : ∀ x, MemoryInv x → CmdInv (body x))
    {s : State} (h : MemoryInv s) : MemoryInv (runCommand o code body s) := by
  have hfilter : MemoryInv (filterCommand o code s) := h.frame (filterCommand_frame _ _ _)
  unfold runCommand
  split
  · exact h
  split
  · exact hfilter.frame (reject_frame _ _ _ _ _)
  split
  · split
    · exact commitCommand_inv _ _ _ h (hb _ h)
    · exact h.frame (sendAccepted_frame _ _ _)
  split
  · exact h.frame (sendResponse_frame _ _ _)
  split
  · exact h.frame (reject_frame _ _ _ _ _)
  · extract_lets c
    split
    · exact hfilter.frame (reject_frame _ _ _ _ _)
    · have htaken := hfilter.frame (takeSeq_frame o _)
      exact commitCommand_inv _ _ _ htaken (hb _ htaken)

theorem modBuf_inv (f : BufState → BufState) {s : State} (h : MemoryInv s) : MemoryInv (modBuf f s) := h.congr rfl

/-! ### The commands that read, correct and poison lines and write none -/

/-- An outcome that goes on has the Granary's contents as they were. -/
def NextSameContents (s : State) (r : Host.Outcome State Fault Refusal) : Prop :=
  match r with
  | .next t => SameContents s t
  | _ => True

theorem next_sameContents {s t : State} (h : SameContents s t) : NextSameContents s (.next t) := h

theorem onUnit_sameContents (ok : Bool) {s t : State} (h : SameContents s t) : NextSameContents s (onUnit ok t) := by
  cases ok
  · exact True.intro
  · exact h

theorem NextSameContents.inv {s : State} {r : Host.Outcome State Fault Refusal} (h : NextSameContents s r)
    (hs : MemoryInv s) : NextInv r := by
  cases r with
  | next t => exact hs.same h
  | fault _ => exact True.intro
  | refused _ => exact True.intro

theorem execGranaryReadDone_sameContents (index : Nat) (errors : List LineError) (s : State) :
    NextSameContents s (execGranaryReadDone index errors s) := by
  refine next_sameContents ?_
  split
  · exact .refl s
  · refine SameContents.trans ?_ (answerRead_sameContents _ _ _)
    exact modGran_sameContents s (fun _ => rfl) (fun _ => rfl)

theorem execScrubLine_sameContents (error : Option (Nat × LineError)) (s : State) :
    NextSameContents s (execScrubLine error s) := by
  refine next_sameContents ?_
  split
  · extract_lets s1
    have hmoved : SameContents s s1 := by
      refine SameContents.frame (SameContents.frame ?_ (countStack_frame _ _ _ _)) (startWork_frame _ _ _ _)
      exact modGran_sameContents s (fun _ => rfl) (fun _ => rfl)
    split
    · exact hmoved
    · exact hmoved.trans (meetErrors_sameContents _ _ _ _ _)
  · exact .refl s

theorem execGristChunkStage_sameContents (slot : Nat) (errors : List LineError) (s : State) :
    NextSameContents s (execGristChunkStage slot errors s) := by
  refine onUnit_sameContents _ ?_
  split
  · exact .refl s
  split
  · exact .refl s
  split
  · exact .refl s
  · exact stageChunk_sameContents _ _ _ _ _

theorem execGatherSend_sameContents (gid recipe : Nat) (errs : List LineError) (s : State) :
    NextSameContents s (execGatherSend gid recipe errs s) := by
  refine next_sameContents ?_
  split
  · extract_lets rc cs
    split
    · exact .refl s
    split
    · exact .refl s
    · exact sendGather_sameContents _ _ _ _ _ _ _
  · exact .refl s

theorem execSpillRestore_sameContents (gid portion : Nat) (errs : List LineError) (s : State) :
    NextSameContents s (execSpillRestore gid portion errs s) := by
  refine next_sameContents ?_
  split
  · split
    · split
      · exact restoreSlots_sameContents _ _ _ _ _
      · exact .refl s
    · exact .refl s
  · exact .refl s

/-! ### The Granary, its mirrors and DMA channels -/

theorem execDmaDescriptorStart_inv (channel : Nat) {s : State} (h : MemoryInv s) :
    NextInv (execDmaDescriptorStart channel s) := by
  refine onUnit_inv _ ?_
  split
  · exact takeDescriptor_inv _ _ _ h
  · exact h

theorem execDmaWriteResponse_inv (channel index : Nat) (errors : List LineError) {s : State} (h : MemoryInv s) :
    NextInv (execDmaWriteResponse channel index errors s) := by
  refine onUnit_inv _ ?_
  split
  · exact h
  split
  · split
    · exact h
    · exact settleRequests_inv _ _
        (((writeBytes_inv _ _ _ h).frame (modFlight_frame _ _ _ _)).frame (channelSpend_frame _ _ _))
  split
  · exact h
  split
  · exact nextBurst_inv _ _ _ h
  · exact h

theorem execReplyRx_inv {s : State} (h : MemoryInv s) : NextInv (execReplyRx s) := by
  refine next_inv ?_
  split
  · exact h
  next d s1 htake =>
    have htaken : MemoryInv s1 := h.frame (takeDelivered_frame _ _ _ htake)
    extract_lets k c
    split
    · exact htaken.frame (countChannel_frame _ _ _ _)
    split
    · exact settleRequests_inv _ _ (htaken.frame (takeReply_frame _ _ _ _ _))
    · exact completeDesc_inv _ _ _ htaken
    · exact completeDesc_inv _ _ _ htaken
    · exact htaken.frame (markRequest_frame _ _ _ _ _)
    · exact completeDesc_inv _ _ _ htaken
    · exact htaken

theorem execDmaDescriptorStaleness_inv (channel index : Nat) {s : State} (h : MemoryInv s) :
    NextInv (execDmaDescriptorStaleness channel index s) := by
  refine onUnit_inv _ ?_
  split
  · exact completeDesc_inv _ _ _ ((h.frame (staleCrumb_frame _ _ _ _)).frame (modChannel_frame _ _ _))
  · exact h

theorem execGranaryAccessRx_inv {s : State} (h : MemoryInv s) : NextInv (execGranaryAccessRx s) := by
  refine next_inv ?_
  split
  · exact h
  split
  · exact h
  · extract_lets s1
    have htaken : MemoryInv s1 := (modBuf_inv _ h).frame (releaseDelivered_frame _ _)
    split
    · exact htaken
    · exact serveAccess_inv _ (htaken.frame (filterGranary_frame _ _))

theorem execRegionZeroed_inv (region : Nat) {s : State} (h : MemoryInv s) : NextInv (execRegionZeroed region s) := by
  refine next_inv ?_
  split
  · exact h
  split
  · extract_lets s1
    have hzeroed : MemoryInv s1 := (zeroRegion_inv _ h).frame (startWork_frame _ _ _ _)
    split
    · exact hzeroed.frame (modRegion_frame _ _ _)
    · exact hzeroed.modGran (fun _ => rfl) (fun _ => rfl)
  · exact h

/-! ### Loafs and the Mill -/

theorem execContributionRx_inv (errs : List LineError) {s : State} (h : MemoryInv s) :
    NextInv (execContributionRx errs s) := by
  refine next_inv ?_
  split
  · exact h
  next d s1 htake =>
    have htaken : MemoryInv s1 := h.frame (takeDelivered_frame _ _ _ htake)
    extract_lets k key
    split
    · exact htaken.frame (countSlice_frame _ _ _)
    split
    · exact htaken.frame (countSlice_frame _ _ _)
    split
    · exact h
    split
    · exact htaken.frame (countKnead_frame _ _ _ _)
    · exact accept1_inv _ _ _ _ htaken
    · exact startLoaf_inv _ _ _ _ htaken
    · exact startLoaf_inv _ _ _ _ (htaken.frame (countKnead_frame _ _ _ _))

theorem execSpillComplete_inv (gid portion : Nat) {s : State} (h : MemoryInv s) :
    NextInv (execSpillComplete gid portion s) := by
  refine next_inv ?_
  split
  · split
    · split
      · exact ((writeSpill_inv _ _ _ h).frame (modCtx_frame _ _ _)).frame (countKnead_frame _ _ _ _)
      · exact h
    · exact h
  · exact h

theorem execMillCopyDone_inv (slot index : Nat) (errs : List LineError) {s : State} (h : MemoryInv s) :
    NextInv (execMillCopyDone slot index errs s) := by
  refine onUnit_inv _ ?_
  split
  · exact h
  split
  · exact h
  split
  · exact h
  · exact finishCopy_inv _ _ _ _ _ h

theorem execMillWeights_inv (o : Origin) (set pid format d e region offset : Nat) (errs : List LineError) {s : State}
    (h : MemoryInv s) : NextInv (execMillWeights o set pid format d e region offset errs s) := by
  refine runCommand_inv _ _ (fun x hx => ?_) h
  split
  · exact failWith_inv _ hx
  split
  · exact failWith_inv _ hx
  · extract_lets n s1
    split
    · exact failWith_inv _ hx
    split
    · exact failWith_inv _ hx
    split
    · exact failWith_inv _ hx
    · have hmet : MemoryInv s1 := hx.same (meetErrors_startWork_sameContents _ _ _ _ _ _ _ _)
      split
      · exact hmet
      · exact hmet.frame (loadWeights_frame _ _ _ _ _ _ _ _)

/-! ### Crumbs, samples and dumps -/

theorem execCrumbWrite_inv {s : State} (h : MemoryInv s) : NextInv (execCrumbWrite s) := by
  refine next_inv ?_
  split
  · exact h
  split
  · exact h
  · exact (modTele_inv _ (putCrumb_inv _ h)).frame (countControl_frame _ _)

theorem execSampleWrite_inv {s : State} (h : MemoryInv s) : NextInv (execSampleWrite s) := by
  refine next_inv ?_
  split
  · exact h
  · extract_lets s1
    have htaken : MemoryInv s1 := modTele_inv _ h
    split
    · exact htaken.frame (countControl_frame _ _)
    · exact ((putSample_inv _ htaken).frame (countControl_frame _ _)).frame (tellSamples_frame _)

theorem execCrumbDump_inv (o : Origin) {s : State} (h : MemoryInv s) : NextInv (execCrumbDump o s) := by
  refine runCommand_inv _ _ (fun x hx => ?_) h
  exact writeDump_inv _ _ _ _ _ hx

/-! ### Resets and starts -/

theorem execEngineReset_inv (typ idx : Nat) (trains : Bool) {s : State} (h : MemoryInv s) :
    NextInv (execEngineReset typ idx trains s) := onUnit_inv _ (resetEngine_inv _ _ _ h)

theorem execScopeReset_inv (isl : Nat) (trains : Bool) {s : State} (h : MemoryInv s) :
    NextInv (execScopeReset isl trains s) := onUnit_inv _ (resetScope_inv _ _ h)

theorem execWatchdogExpiry_inv (core : Nat) {s : State} (h : MemoryInv s) : NextInv (execWatchdogExpiry core s) := by
  refine onUnit_inv _ ?_
  split
  · exact modRst_inv _ ((writeDump_inv _ _ _ _ _ h).frame (escalate_frame _ _ _ _ _))
  · exact h

theorem execColdStart_inv (o : StartOutcome) {s : State} (h : MemoryInv s) : NextInv (execColdStart o s) := by
  refine next_inv ?_
  split
  · exact h
  · extract_lets s2
    have hcleared : MemoryInv s2 := coldPrepared_inv _ _
    split
    · exact hcleared.frame (enterRecovery_frame _)
    split
    · exact modStart_inv _ (hcleared.frame (lockIslands_frame _ _))
    split
    · exact (hcleared.frame (storeNow_frame _ _)).frame (enterRecovery_frame _)
    · exact (hcleared.frame (loadImage_frame _ _)).frame (coldRun_frame _ _)

theorem execWarmStart_inv (o : StartOutcome) {s : State} (h : MemoryInv s) : NextInv (execWarmStart o s) := by
  refine next_inv ?_
  split
  · exact h
  next e _ =>
    split
    · exact (h.frame (dropAsked_frame _ _)).frame (escalate_frame _ _ _ _ _)
    · extract_lets s2 s3 r
      have hprepared : MemoryInv s2 := warmPrepared_inv e h
      have hcounted : MemoryInv s3 := hprepared.frame (storeNow_frame _ _)
      split
      · exact hprepared.frame (failStart_frame _ _)
      split
      · exact hcounted.frame (warmRun_frame _ _ _ _)
      split
      · exact ((clearAll_inv s3).frame (storeNow_frame _ _)).frame (enterRecovery_frame _)
      · exact (hcounted.frame (loadImage_frame _ _)).frame (warmRun_frame _ _ _ _)

theorem execStartTimeout_inv (step : Nat) {s : State} (h : MemoryInv s) : NextInv (execStartTimeout step s) := by
  refine next_inv ?_
  split
  · refine MemoryInv.frame (modStart_inv _ ?_) (failStart_frame _ _)
    split
    · exact h.frame (countStart_frame _)
    · exact h
  split
  next e _ =>
    have hprepared : MemoryInv (warmPrepared e s) := warmPrepared_inv e h
    refine MemoryInv.frame ?_ (failStart_frame _ _)
    split
    · exact hprepared.frame (countStart_frame _)
    · exact hprepared
  · exact h

theorem execModuleCycleHold_inv {s : State} (h : MemoryInv s) : NextInv (execModuleCycleHold s) := by
  refine next_inv ?_
  split
  · exact h
  · exact holdModule_inv _ h

theorem execJtagInstructionLoad_inv (code : Nat) {s : State} (h : MemoryInv s) :
    NextInv (execJtagInstructionLoad code s) := by
  refine next_inv ?_
  split
  · exact h
  split
  · exact modStart_inv _ (modTele_inv _ (coldHold_inv s))
  · exact modTele_inv _ (h.frame (leaveTest_frame _))

theorem execRefclkLoss_inv {s : State} (h : MemoryInv s) : NextInv (execRefclkLoss s) := by
  refine next_inv ?_
  split
  · exact modStart_inv _ (modPower_inv _ (coldHold_inv s))
  · exact h

theorem execThermalTrip_inv {s : State} (h : MemoryInv s) : NextInv (execThermalTrip s) := by
  refine next_inv ?_
  split
  · exact modPower_inv _ (coldHold_inv s)
  · exact h

/-! ### The reset commands, TABLE.FENCE and QUORUM.APPROVE -/

theorem resetChannel_inv (o : Origin) (c : Nat) {s : State} (h : MemoryInv s) : CmdInv (resetChannel o c s) := by
  unfold resetChannel
  extract_lets ch s1
  split
  · exact h
  split
  · exact h
  split
  · exact h
  · have hstale : MemoryInv s1 := (h.frame (staleCrumb_frame _ _ _ _)).frame (modChannel_frame _ _ _)
    exact (failFlight_inv _ _ _ hstale).frame (settleStop_frame _ _)

theorem execResetContext_inv (o : Origin) (objType a b : Nat) {s : State} (h : MemoryInv s) :
    NextInv (execResetContext o objType a b s) := by
  refine runCommand_inv _ _ (fun x hx => ?_) h
  split
  · exact (resetLoaf_frame _ _ _ _).inv hx
  · exact (resetGrist_frame _ _ _).inv hx
  · exact resetChannel_inv _ _ hx
  · exact (resetCommand_frame _ _ _ _).inv hx
  · exact failWith_inv _ hx

theorem execResetEngine_inv (o : Origin) (code : Word) (trains : Bool) {s : State} (h : MemoryInv s) :
    NextInv (execResetEngine o code trains s) := by
  refine runCommand_inv _ _ (fun x hx => ?_) h
  extract_lets typ idx scope s1 mine
  split
  · exact failWith_inv _ hx
  · exact resetEngine_inv _ _ _ (hx.frame (escalate_frame _ _ _ _ _))

theorem execResetSlice_inv (o : Origin) (slice : Nat) (trains : Bool) {s : State} (h : MemoryInv s) :
    NextInv (execResetSlice o slice trains s) := by
  refine runCommand_inv _ _ (fun x hx => ?_) h
  extract_lets isl scope s1 third mine
  split
  · exact failWith_inv _ hx
  · exact resetScope_inv _ _ (hx.frame (escalate_frame _ _ _ _ _))

theorem onPartition_inv (pid : Nat) {body : State → CmdOutcome} (hb : ∀ x, MemoryInv x → CmdInv (body x)) {s : State}
    (h : MemoryInv s) : CmdInv (onPartition pid body s) := by
  unfold onPartition
  split
  · exact failWith_inv _ h
  · exact hb _ h

theorem execTableFence_inv (o : Origin) (pid : Nat) (notify : List Nat) {s : State} (h : MemoryInv s) :
    NextInv (execTableFence o pid notify s) := by
  refine runCommand_inv _ _ (fun x hx => onPartition_inv _ (fun y hy => ?_) hx) h
  split
  · exact failWith_inv _ hy
  · exact foldl_inv (P := MemoryInv) (fun _ _ ht => ht.frame (originate_frame _ _ _)) _
      (endPartitionWork_inv _ ((hy.frame (modPartition_frame _ _ _)).frame (startWork_frame _ _ _ _)))

theorem execQuorumApprove_inv (o : Origin) (proposal : Nat) (approve : Bool) (signature : Nat) {s : State}
    (h : MemoryInv s) : NextInv (execQuorumApprove o proposal approve signature s) := by
  refine runCommand_inv _ _ (fun x hx => ?_) h
  split
  · exact failWith_inv _ hx
  split
  · exact failWith_inv _ hx
  split
  · exact hx.frame (endProposal_frame _ _ _ _)
  split
  · exact failWith_inv _ hx
  split
  · exact hx.frame (endProposal_frame _ _ _ _)
  · extract_lets s1
    have hside : MemoryInv s1 := hx.frame (recordSide_frame _ _ _)
    split
    · exact completeProposal_inv _ _ hside
    · exact hside

/-! ### Every step -/

/-- Every command keeps the Granary's tables in canonical form. -/
theorem exec_inv (i : Instr) {s : State} (h : MemoryInv s) : NextInv (exec i s) := by
  by_cases hm : (mayChange i).contains .memory = true
  · cases i with
    | gristChunkStage slot errors => exact (execGristChunkStage_sameContents slot errors s).inv h
    | dmaDescriptorStart channel => exact execDmaDescriptorStart_inv channel h
    | dmaWriteResponse channel index errors => exact execDmaWriteResponse_inv channel index errors h
    | replyRx => exact execReplyRx_inv h
    | dmaRequestTimeout channel index number => exact onUnit_inv _ (onRequest_inv _ _ _ _ h)
    | dmaNoBufferRetry channel index number => exact onUnit_inv _ (onRequest_inv _ _ _ _ h)
    | dmaDescriptorStaleness channel index => exact execDmaDescriptorStaleness_inv channel index h
    | dmaGraceExpiry channel => exact onUnit_inv _ (graceChannel_inv _ h)
    | granaryAccessRx => exact execGranaryAccessRx_inv h
    | granaryReadDone index errors => exact (execGranaryReadDone_sameContents index errors s).inv h
    | scrubLine error => exact (execScrubLine_sameContents error s).inv h
    | regionZeroed region => exact execRegionZeroed_inv region h
    | contributionRx errs => exact execContributionRx_inv errs h
    | gatherSend gid recipe errs => exact (execGatherSend_sameContents gid recipe errs s).inv h
    | spillComplete gid portion => exact execSpillComplete_inv gid portion h
    | spillRestore gid portion errs => exact (execSpillRestore_sameContents gid portion errs s).inv h
    | millCopyDone slot index errs => exact execMillCopyDone_inv slot index errs h
    | millWeights o set pid format d e region offset errs =>
      exact execMillWeights_inv o set pid format d e region offset errs h
    | engineReset typ idx trains => exact execEngineReset_inv typ idx trains h
    | scopeReset isl trains => exact execScopeReset_inv isl trains h
    | watchdogExpiry core => exact execWatchdogExpiry_inv core h
    | coldStart o => exact execColdStart_inv o h
    | warmStart o => exact execWarmStart_inv o h
    | startTimeout step => exact execStartTimeout_inv step h
    | moduleCycleHold => exact execModuleCycleHold_inv h
    | jtagInstructionLoad code => exact execJtagInstructionLoad_inv code h
    | inputUndervoltage => exact dropPower_inv s
    | inputOvervoltage => exact latchOff_inv s
    | inputOvercurrent => exact latchOff_inv s
    | latchClear => exact modPower_inv _ (dropPower_inv s)
    | supplyLoss => exact dropPower_inv s
    | modRstNAssert => exact coldHold_inv _
    | refclkLoss => exact execRefclkLoss_inv h
    | thermalTrip => exact execThermalTrip_inv h
    | resetContext o objType a b => exact execResetContext_inv o objType a b h
    | resetEngine o code trains => exact execResetEngine_inv o code trains h
    | resetSlice o slice trains => exact execResetSlice_inv o slice trains h
    | tableFence o pid notify => exact execTableFence_inv o pid notify h
    | quorumApprove o proposal approve signature => exact execQuorumApprove_inv o proposal approve signature h
    | crumbWrite => exact execCrumbWrite_inv h
    | sampleWrite => exact execSampleWrite_inv h
    | crumbDump o => exact execCrumbDump_inv o h
    | _ => exact absurd hm Bool.false_ne_true
  · exact (exec_frame i s).inv h (fun hmem => hm (List.contains_iff_mem.mpr hmem))

/-- Settles O9: a step is a tick, which has no operation on the Granary, or a command, and every command keeps the
form. -/
theorem memoryInvKept : Obligations.MemoryInvKept := by
  unfold Obligations.MemoryInvKept
  intro s t h hstep
  unfold step at hstep
  split at hstep
  next c rest _ =>
    have hnext : NextInv (exec c { s with pending := rest }) := exec_inv c h
    rw [hstep] at hnext
    exact hnext
  next =>
    injection hstep with htick
    exact htick ▸ h

end Sys2Proof.Machine
end

section
/-! ## Where the storing commands store (11 R361; 19 R603, R605; 10 R342; 08 R291)

A byte stays as it was along an operation that leaves the contents, and along a write whose lines do not hold it. -/

set_option Elab.async false

namespace Sys2Proof.Machine

/-- Byte a of region r is as it was, and the tables are still in canonical form. -/
def KeepsByte (r a : Nat) (s t : State) : Prop := MemoryInv t ∧ granByte t r a = granByte s r a

theorem KeepsByte.refl (r a : Nat) {s : State} (h : MemoryInv s) : KeepsByte r a s s := ⟨h, rfl⟩

theorem KeepsByte.same {r a : Nat} {s t u : State} (h : KeepsByte r a s t) (k : SameContents t u) : KeepsByte r a s u :=
  ⟨h.1.same k, (k.granByte r a).trans h.2⟩

theorem KeepsByte.frame {r a : Nat} {ps : List Part} {s t u : State} (h : KeepsByte r a s t) (k : OnlyChanges ps t u)
    (hp : Part.memory ∉ ps := by decide) : KeepsByte r a s u := h.same (k.sameContents hp)

/-- One more write, to a range whose lines do not hold the byte. -/
theorem KeepsByte.write {r a r1 o : Nat} {bs : List Byte} {s t : State} (h : KeepsByte r a s t)
    (ho : o + bs.length ≤ 2 ^ 48) (ha : a < 2 ^ 48) (hout : inLines (r1, o, bs.length) r a = false) :
    KeepsByte r a s (writeBytes r1 o bs t) :=
  ⟨writeBytes_inv _ _ _ h.1, (granByte_writeBytes_other h.1 ho ha hout).trans h.2⟩

theorem modTele_sameContents (f : TeleState → TeleState) (s : State) : SameContents s (modTele f s) := ⟨rfl, rfl⟩

theorem modBuf_sameContents (f : BufState → BufState) (s : State) : SameContents s (modBuf f s) := ⟨rfl, rfl⟩

/-- An outcome that goes on keeps the byte. -/
def NextKeepsByte (r a : Nat) (s : State) (out : Host.Outcome State Fault Refusal) : Prop :=
  match out with
  | .next t => KeepsByte r a s t
  | _ => True

theorem next_keepsByte {r a : Nat} {s t : State} (h : KeepsByte r a s t) : NextKeepsByte r a s (.next t) := h

theorem onUnit_keepsByte (ok : Bool) {r a : Nat} {s t : State} (h : KeepsByte r a s t) :
    NextKeepsByte r a s (onUnit ok t) := by
  cases ok
  · exact True.intro
  · exact h

theorem NextSameContents.keepsByte {r a : Nat} {s : State} {out : Host.Outcome State Fault Refusal}
    (h : NextSameContents s out) (hs : MemoryInv s) : NextKeepsByte r a s out := by
  cases out with
  | next t => exact (KeepsByte.refl r a hs).same h
  | fault _ => exact True.intro
  | refused _ => exact True.intro

/-- Every range ends below 2^48 and no line of it holds byte a of region r. -/
def ClearOf (r a : Nat) (xs : List (Nat × Nat × Nat)) : Prop :=
  ∀ x ∈ xs, x.2.1 + x.2.2 ≤ 2 ^ 48 ∧ inLines x r a = false

section
variable {r a : Nat} {s : State}

/-! ### Crumbs and samples -/

@[simp] theorem length_wordsBytes (ws : List Word) : (wordsBytes ws).length = 4 * ws.length := by
  simp [wordsBytes, wordBytes, List.length_flatMap, Nat.mul_comm]

theorem length_crumbBytes (c : CrumbRec) (lost : Bool) (seq : Nat) :
    (wordsBytes (crumbWords c lost seq)).length = 32 := by
  simp [crumbWords, natWords]

theorem length_sampleSlot (x : List Word × List Byte) (n : Nat) : (sampleSlot x n).length = 256 := by
  simp only [sampleSlot, natBytes, List.length_append, List.length_take, List.length_replicate, List.length_map,
    List.length_range]
  omega

theorem execCrumbWrite_keepsByte (h : MemoryInv s) (ha : a < 2 ^ 48) (hc : ClearOf r a (storesOf .crumbWrite s)) :
    NextKeepsByte r a s (execCrumbWrite s) := by
  obtain ⟨hend, hout⟩ := hc _ (List.mem_singleton.mpr rfl)
  refine next_keepsByte ?_
  split
  · exact .refl r a h
  split
  · exact .refl r a h
  next c rest _ _ =>
    have hlen := length_crumbBytes c s.tele.crumbLost (crumbsWritten s)
    have hput : KeepsByte r a s (putCrumb c s) := by
      refine ((KeepsByte.refl r a h).frame (startWork_frame _ _ _ _)).write ?_ ha ?_
      · rw [hlen]
        exact hend
      · rw [hlen]
        exact hout
    exact (hput.same (modTele_sameContents _ _)).frame (countControl_frame _ _)

theorem execSampleWrite_keepsByte (h : MemoryInv s) (ha : a < 2 ^ 48) (hc : ClearOf r a (storesOf .sampleWrite s)) :
    NextKeepsByte r a s (execSampleWrite s) := by
  obtain ⟨hend, hout⟩ := hc _ (List.mem_singleton.mpr rfl)
  refine next_keepsByte ?_
  split
  · exact .refl r a h
  next x rest _ =>
    extract_lets s1
    have htaken : KeepsByte r a s s1 := (KeepsByte.refl r a h).same (modTele_sameContents _ s)
    split
    · exact htaken.frame (countControl_frame _ _)
    · have hlen := length_sampleSlot x (samplesWritten s1)
      have hput : KeepsByte r a s (putSample x s1) := by
        refine (htaken.frame (startWork_frame _ _ _ _)).write ?_ ha ?_
        · rw [hlen]
          exact hend
        · rw [hlen]
          exact hout
      exact (hput.frame (countControl_frame _ _)).frame (tellSamples_frame _)

/-! ### Endpoint access -/

theorem postAll_keepsByte {k : Packet} {t : State} (h : KeepsByte r a s t) (ha : a < 2 ^ 48)
    (hpost : ¬xGop k = gopWrite) (hread : ¬xGop k = gopRead) (hc : ClearOf r a (accessStores t k)) :
    KeepsByte r a s (postAll k t) := by
  simp only [accessStores, if_neg hpost, if_neg hread] at hc
  unfold postAll
  extract_lets c ch s1
  have hwritten : KeepsByte r a s s1 := by
    refine List.foldlRecOn (motive := KeepsByte r a s) _ _ h (fun u hu d hd => ?_)
    obtain ⟨hend, hout⟩ := hc _ (List.mem_map_of_mem hd)
    exact hu.write hend ha hout
  exact hwritten.frame (modChannel_frame _ _ _)

theorem serveAccess_keepsByte (k : Packet) {t : State} (h : KeepsByte r a s t) (ha : a < 2 ^ 48)
    (hc : ClearOf r a (accessStores t k)) : KeepsByte r a s (serveAccess k t) := by
  unfold serveAccess
  extract_lets st s1 s2 s3 t1
  split
  · exact h.frame (respond_frame _ _ _ _)
  split
  next hwrite =>
    rw [accessStores, if_pos hwrite] at hc
    obtain ⟨hend, hout⟩ := hc _ (List.mem_singleton.mpr rfl)
    have hwritten : KeepsByte r a s s1 := h.write hend ha hout
    have hcounted : KeepsByte r a s s2 := by
      unfold s2
      split
      · exact hwritten.frame (countRange_frame _ _ _ _ _)
      · exact hwritten
    have hcharged : KeepsByte r a s s3 := by
      unfold s3
      split
      · exact hcounted.frame (startWork_frame _ _ _ _)
      · exact hcounted
    exact hcharged.same (modGran_sameContents _ (fun _ => rfl) (fun _ => rfl))
  next hwrite =>
    split
    · have hcounted : KeepsByte r a s t1 := by
        unfold t1
        split
        · exact h.frame (countRange_frame _ _ _ _ _)
        · exact h
      exact hcounted.same (modGran_sameContents _ (fun _ => rfl) (fun _ => rfl))
    next hread => exact (postAll_keepsByte h ha hwrite hread hc).frame (respond_frame _ _ _ _)

theorem accessStores_congr {t : State} (h : t.gran.channels = s.gran.channels) (k : Packet) :
    accessStores t k = accessStores s k := by
  unfold accessStores channel
  rw [h]

theorem execGranaryAccessRx_keepsByte (h : MemoryInv s) (ha : a < 2 ^ 48)
    (hc : ClearOf r a (storesOf .granaryAccessRx s)) : NextKeepsByte r a s (execGranaryAccessRx s) := by
  refine next_keepsByte ?_
  split
  · exact .refl r a h
  next i hi =>
    split
    · exact .refl r a h
    next d hd =>
      simp only [storesOf, hi, Option.bind_some, hd] at hc
      extract_lets s1
      have hbuf : SameContents s s1 := (modBuf_sameContents _ s).frame (releaseDelivered_frame _ _)
      have htaken : KeepsByte r a s s1 := (KeepsByte.refl r a h).same hbuf
      have hchannels : (filterGranary d.pkt s1).gran.channels = s.gran.channels :=
        (filterGranary_frame _ _ .channels (by decide)).trans (releaseDelivered_frame _ _ .channels (by decide))
      split
      · exact htaken
      · exact serveAccess_keepsByte _ (htaken.frame (filterGranary_frame _ _)) ha
          ((accessStores_congr hchannels d.pkt).symm ▸ hc)

/-! ### Spilled contexts -/

theorem writeSpill_keepsByte (held : Held) (o : Nat) (imgs : List (Nat × List Byte)) {t : State}
    (h : KeepsByte r a s t) (ha : a < 2 ^ 48)
    (hc : ClearOf r a (imgs.map (fun x => (held.spill, o + x.1, x.2.length)))) :
    KeepsByte r a s (writeSpill held o imgs t) := by
  refine List.foldlRecOn (motive := KeepsByte r a s) _ _ h (fun u hu x hx => ?_)
  obtain ⟨hend, hout⟩ := hc _ (List.mem_map_of_mem hx)
  exact (hu.write hend ha hout).frame (startWork_frame _ _ _ _)

theorem execSpillComplete_keepsByte (gid portion : Nat) (h : MemoryInv s) (ha : a < 2 ^ 48)
    (hc : ClearOf r a (storesOf (.spillComplete gid portion) s)) :
    NextKeepsByte r a s (execSpillComplete gid portion s) := by
  refine next_keepsByte ?_
  split
  next c hctx =>
    split
    next held hheld =>
      split
      · simp only [storesOf, hctx, hheld] at hc
        exact ((writeSpill_keepsByte held _ _ (.refl r a h) ha hc).frame (modCtx_frame _ _ _)).frame
          (countKnead_frame _ _ _ _)
      · exact .refl r a h
    · exact .refl r a h
  · exact .refl r a h

/-! ### COPYs of the Mill -/

/-- The range that a COPY stores to: none where it reads. -/
def copyStores (i : List Word) : List (Nat × Nat × Nat) :=
  if fld (i.getD 0 0) 23 23 = 0 then []
  else [(fld (i.getD 2 0) 31 16, fld (i.getD 2 0) 15 0 * 2 ^ 32 + (i.getD 3 0).toNat, (i.getD 1 0).toNat)]

theorem runCopy_keepsByte (p : MillProgram) (i : List Word) {t : State} (h : KeepsByte r a s t) (ha : a < 2 ^ 48)
    (hc : ClearOf r a (copyStores i)) : KeepsByte r a s (runCopy p i t) := by
  unfold runCopy
  extract_lets reg o n base
  split
  · exact h.frame (putElem_frame _ _ _ _)
  next hstore =>
    rw [copyStores, if_neg hstore] at hc
    obtain ⟨hend, hout⟩ := hc _ (List.mem_singleton.mpr rfl)
    have hlen : ((List.range n).map (fun j => sramByte t p.pid (base + j))).length = n := by simp
    refine h.write ?_ ha ?_
    · rw [hlen]
      exact hend
    · rw [hlen]
      exact hout

theorem finishCopy_keepsByte (slot index : Nat) (p : MillProgram) (i : List Word) (errs : List LineError)
    (h : MemoryInv s) (ha : a < 2 ^ 48) (hc : ClearOf r a (copyStores i)) :
    KeepsByte r a s (finishCopy slot index p i errs s) := by
  unfold finishCopy
  extract_lets reg o n s1 read
  have hmet : KeepsByte r a s s1 :=
    ((KeepsByte.refl r a h).frame (modProgram_frame _ _ _)).same (meetErrors_startWork_sameContents _ _ _ _ _ _ _ _)
  split
  · exact hmet.frame (accessFault_frame _ _)
  · exact (runCopy_keepsByte p i hmet ha hc).frame (bumpCounter_frame _ _ _ _)

theorem execMillCopyDone_keepsByte (slot index : Nat) (errs : List LineError) (h : MemoryInv s) (ha : a < 2 ^ 48)
    (hc : ClearOf r a (storesOf (.millCopyDone slot index errs) s)) :
    NextKeepsByte r a s (execMillCopyDone slot index errs s) := by
  refine onUnit_keepsByte _ ?_
  split
  · exact .refl r a h
  next p hp =>
    split
    · exact .refl r a h
    next i hi =>
      split
      · exact .refl r a h
      · simp only [storesOf, hp, Option.bind_some, hi] at hc
        exact finishCopy_keepsByte slot index p i errs h ha hc

/-! ### Every command of `storeKnown` -/

/-- Each command of `storeKnown` keeps the bytes outside the lines of the ranges it stores to. -/
theorem exec_keepsByte (i : Instr) (hi : storeKnown i = true) (h : MemoryInv s) (ha : a < 2 ^ 48)
    (hc : ClearOf r a (storesOf i s)) : NextKeepsByte r a s (exec i s) := by
  cases i with
  | crumbWrite => exact execCrumbWrite_keepsByte h ha hc
  | sampleWrite => exact execSampleWrite_keepsByte h ha hc
  | granaryAccessRx => exact execGranaryAccessRx_keepsByte h ha hc
  | spillComplete gid portion => exact execSpillComplete_keepsByte gid portion h ha hc
  | millCopyDone slot index errs => exact execMillCopyDone_keepsByte slot index errs h ha hc
  | granaryReadDone index errors => exact (execGranaryReadDone_sameContents index errors s).keepsByte h
  | scrubLine error => exact (execScrubLine_sameContents error s).keepsByte h
  | spillRestore gid portion errs => exact (execSpillRestore_sameContents gid portion errs s).keepsByte h
  | gatherSend gid recipe errs => exact (execGatherSend_sameContents gid recipe errs s).keepsByte h
  | gristChunkStage slot errors => exact (execGristChunkStage_sameContents slot errors s).keepsByte h
  | _ => exact absurd hi Bool.false_ne_true

end

/-- Settles O16: every write of these commands is to a range that `storesOf` lists. -/
theorem storesOnlyThere : Obligations.StoresOnlyThere := by
  unfold Obligations.StoresOnlyThere
  intro i s t r a hi h hends ha hexec houts
  have hkeeps : NextKeepsByte r a s (exec i s) := exec_keepsByte i hi h ha (fun x hx => ⟨hends x hx, houts x hx⟩)
  rw [hexec] at hkeeps
  exact hkeeps.2

end Sys2Proof.Machine
end

section
/-! ## The GRANARY and GRIST commands (16 Tables 16.7 and 16.8; 11 R366 to R394; 12 R397) -/

namespace Sys2Proof.Machine

/-! ### Commands on a region or a program slot -/

section
variable {o : Origin} {op r : Nat} {s b u : State} {x : Region} {f : State → Region → CmdOutcome}

/-- A command on a region within reach: the command's own rules run on that region (11 R366). -/
theorem withRegion_reached {f : Region → CmdOutcome} (hx : region s r = some x) (h0 : r ≠ 0) (hr : r < 0xE000)
    (hreach : mayReach o x.pid s = true) : withRegion o r f s = f x := by
  simp only [withRegion, hx, h0, Nat.not_le.2 hr, hreach, or_self, if_true, if_false]

theorem withRegion_unreached {f : Region → CmdOutcome} (hx : region s r = some x) (h0 : r ≠ 0) (hr : r < 0xE000)
    (hreach : mayReach o x.pid s = false) : withRegion o r f s = failWith .denied s := by
  simp only [withRegion, hx, h0, Nat.not_le.2 hr, hreach, Bool.false_eq_true, or_self, if_false]

theorem run_withRegion_ok (h : beginsAt o op s = some b) (hx : region b r = some x) (h0 : r ≠ 0) (hr : r < 0xE000)
    (hreach : mayReach o x.pid b = true) (hf : f b x = okWith u) :
    (.next (runCommand o op (fun t => withRegion o r (f t) t) s) : Host.Outcome State Fault Refusal) =
      .next (answer o op .ok [] u) :=
  run_ok h ((withRegion_reached hx h0 hr hreach).trans hf)

theorem run_withRegion_failWith {st : Status} (h : beginsAt o op s = some b) (hx : region b r = some x) (h0 : r ≠ 0)
    (hr : r < 0xE000) (hreach : mayReach o x.pid b = true) (hf : f b x = failWith st b) :
    (.next (runCommand o op (fun t => withRegion o r (f t) t) s) : Host.Outcome State Fault Refusal) =
      .next (answer o op st [] b) :=
  run_failWith h ((withRegion_reached hx h0 hr hreach).trans hf)

end

section
variable {o : Origin} {op slot : Nat} {s b u : State} {g : Grist} {f : State → Grist → CmdOutcome}

/-- A command on a slot whose program the caller reaches: the command's own rules run on that program (11 R375). -/
theorem withGrist_reached {f : Grist → CmdOutcome} (hslot : slot < 64) (hup : (ownSid s).isNone = false)
    (hg : grist s slot = some g) (hreach : slotReach o s g = true) : withGrist o slot f s = f g := by
  simp only [withGrist, Nat.not_le.2 hslot, hup, hg, hreach, Bool.false_eq_true, if_true, if_false]

theorem withGrist_unreached {f : Grist → CmdOutcome} (hslot : slot < 64) (hup : (ownSid s).isNone = false)
    (hg : grist s slot = some g) (hreach : slotReach o s g = false) :
    withGrist o slot f s = failWith .denied s := by
  simp only [withGrist, Nat.not_le.2 hslot, hup, hg, hreach, Bool.false_eq_true, if_false]

theorem run_withGrist_ok (h : beginsAt o op s = some b) (hslot : slot < 64) (hup : (ownSid b).isNone = false)
    (hg : grist b slot = some g) (hreach : slotReach o b g = true) (hf : f b g = okWith u) :
    (.next (runCommand o op (fun t => withGrist o slot (f t) t) s) : Host.Outcome State Fault Refusal) =
      .next (answer o op .ok [] u) :=
  run_ok h ((withGrist_reached hslot hup hg hreach).trans hf)

theorem run_withGrist_failWith {st : Status} (h : beginsAt o op s = some b) (hslot : slot < 64)
    (hup : (ownSid b).isNone = false) (hg : grist b slot = some g) (hreach : slotReach o b g = true)
    (hf : f b g = failWith st b) :
    (.next (runCommand o op (fun t => withGrist o slot (f t) t) s) : Host.Outcome State Fault Refusal) =
      .next (answer o op st [] b) :=
  run_failWith h ((withGrist_reached hslot hup hg hreach).trans hf)

end

/-! ### Operands in range -/

/-- Operands of GRANARY.CREATE that ask for extents of existing stacks for a known owner (11 R366). -/
theorem granaryCreate_inRange {pid stackSet extents : Nat} {b : State} (hextents : extents ≠ 0)
    (hstacks : stackSet < 2 ^ 16) (hknown : ownerKnown b pid = true) :
    ¬(extents = 0 ∨ 2 ^ 16 ≤ stackSet ∨ !ownerKnown b pid) := by
  simp only [hextents, Nat.not_le.2 hstacks, hknown, Bool.not_true, Bool.false_eq_true, or_self, not_false_eq_true]

/-- Operands in the ranges of GRANARY.MIRROR_OPEN pass its first refusal (11 R381). -/
theorem mirrorOpen_inRange {shard owner generation size : Nat} {replicas : List Nat} (hshard : shard < 2 ^ 32)
    (howner : owner < 2 ^ 20) (hgeneration : generation < 2 ^ 32) (h0 : size ≠ 0) (hsize : size < 2 ^ 64)
    (hmost : replicas.length ≤ 8) (hsids : replicas.any (fun r => decide (2 ^ 20 ≤ r)) = false) :
    ¬(2 ^ 32 ≤ shard ∨ 2 ^ 20 ≤ owner ∨ 2 ^ 32 ≤ generation ∨ size = 0 ∨ 2 ^ 64 ≤ size ∨ 8 < replicas.length ∨
      replicas.any (fun r => decide (2 ^ 20 ≤ r))) := by
  simp only [hsids, Bool.false_eq_true, or_false]
  omega

/-- An endpoint channel that is unbound, or bound to a known owner at a rate in range (11 R387). -/
theorem channelBind_inRange {channel pid rate : Nat} {b : State} (hmin : 24 ≤ channel) (hmax : channel < 32)
    (hgood : pid = 0xFFF ∨ (ownerKnown b pid = true ∧ rate ≠ 0 ∧ rate ≤ 1200)) :
    ¬(channel < 24 ∨ 32 ≤ channel ∨ (pid ≠ 0xFFF ∧ (!ownerKnown b pid ∨ rate = 0 ∨ 1200 < rate))) := by
  rcases hgood with hunbound | ⟨hknown, h0, hrate⟩
  · omega
  · simp only [hknown, Bool.not_true, Bool.false_eq_true, false_or]
    omega

/-! ### GRANARY.MIRROR_OPEN -/

theorem beginsAt_nextAsk {o : Origin} {op : Nat} {s b : State} (h : beginsAt o op s = some b) :
    b.gran.nextAsk = s.gran.nextAsk := by
  obtain ⟨_, _, hnext, _⟩ := beginsAt_frame h .mirrors (by decide)
  exact hnext

theorem accept_nextAsk (o : Origin) (op : Nat) (grace : Option Nat) (tell : Bool) (s : State) :
    (accept o op grace tell s).gran.nextAsk = s.gran.nextAsk := by
  obtain ⟨_, _, hnext, _⟩ := accept_frame o op grace tell s .mirrors (by decide)
  exact hnext

/-- GRANARY.MIRROR_OPEN tells by the next number of an asking whether its command was accepted. One that was goes on to
ask under the number that it was given (11 R381, R382). -/
theorem run_asksNext {o : Origin} {op : Nat} {grace : Option Nat} {body : State → CmdOutcome} {s b u : State}
    (h : beginsAt o op s = some b)
    (hrun : (.next (runCommand o op body s) : Host.Outcome State Fault Refusal) = .next (accept o op grace true u))
    (hu : u.gran.nextAsk = (b.gran.nextAsk + 1) % 2 ^ 24) :
    (.next (if (runCommand o op body s).gran.nextAsk = s.gran.nextAsk then runCommand o op body s
      else askNext s.gran.nextAsk (runCommand o op body s)) : Host.Outcome State Fault Refusal) =
      .next (askNext b.gran.nextAsk (accept o op grace true u)) := by
  have haccepted : runCommand o op body s = accept o op grace true u := Host.Outcome.next.inj hrun
  have hmoved : (accept o op grace true u).gran.nextAsk ≠ b.gran.nextAsk := by
    rw [accept_nextAsk, hu]
    omega
  rw [haccepted, ← beginsAt_nextAsk h, if_neg hmoved]

/-- Settles O31: each form is the way the command's own rules end from the state at which it begins. -/
theorem granaryCommands : Obligations.GranaryCommands := by
  unfold Obligations.GranaryCommands
  and_intros
  -- GRANARY_CREATE
  · intro o rec0 extents kind r m s1 s b hb hkind hextents hknown hreach hfree hup hplace
    exact run_done hb (by
      simp only [hkind, granaryCreate_inRange hextents (by decide : 0 < 2 ^ 16) hknown, hreach, hfree, hup, hplace,
        Bool.not_true, Bool.false_eq_true, if_true, if_false]) rfl
  · intro o rec0 extents kind r s1 s b hb hkind hextents hknown hreach hfree hup hplace
    exact run_fails hb (by
      simp only [hkind, granaryCreate_inRange hextents (by decide : 0 < 2 ^ 16) hknown, hreach, hfree, hup, hplace,
        Bool.not_true, Bool.false_eq_true, if_true, if_false])
  · intro o rec0 stackSet extents kind r s b hb hkind hextents hstacks h0 hknown hreach hfree hmask hevenly hroom
    exact run_done hb (by
      simp only [hkind, granaryCreate_inRange hextents hstacks hknown, hreach, hfree, h0, hmask, hevenly, hroom,
        Bool.not_true, Bool.or_self, Bool.false_eq_true, if_false]) rfl
  · intro o rec0 stackSet extents s b hb hkind
    exact run_failWith hb (by simp only [hkind])
  -- GRANARY_FREE
  · intro o r x s b hb hx h0 hr hreach hphase hunnamed
    exact run_withRegion_ok hb hx h0 hr hreach (by
      simp only [hphase, hunnamed, Bool.false_eq_true, or_self, if_false])
  · intro o r x s b hb hx h0 hr hreach hheld
    exact run_withRegion_failWith hb hx h0 hr hreach (if_pos hheld)
  · intro o r x s b hb hx h0 hr hdenied
    exact run_failWith hb (withRegion_unreached hx h0 hr hdenied)
  -- GRANARY_SET
  · intro o r rec0 x s b hb hx h0 hr hreach hagrees hplain
    exact run_withRegion_ok hb hx h0 hr hreach (by simp only [hagrees, hplain, Bool.false_eq_true, if_false])
  · intro o r rec0 x s b hb hx h0 hr hreach hagrees hmirror hpending
    exact run_done hb ((withRegion_reached hx h0 hr hreach).trans (by
      simp only [hagrees, hmirror, propose, Nat.not_le.2 hpending, Bool.false_eq_true, if_true, if_false])) rfl
  · intro o r rec0 x s b hb hx h0 hr hreach hconflict
    exact run_withRegion_failWith hb hx h0 hr hreach (if_pos hconflict)
  -- GRANARY_QUERY
  · intro o r x s b hb hx hreach
    exact run_done hb (by simp only [hx, hreach, if_true]) rfl
  · intro o r x s b hb hx hdenied
    exact run_failWith hb (by simp only [hx, hdenied, Bool.false_eq_true, if_false])
  · intro o r s b hb hnone
    exact run_failWith hb (by simp only [hnone])
  -- GRANARY_MIRROR_OPEN
  · intro o shard owner tags generation size replicas pid s b hb hpid hshard howner hgeneration h0 hsize hmost hsids hup
      hopen hspines hspine hfree
    exact run_asksNext hb (run_later hb (by
      simp only [hpid, mirrorOpen_inRange hshard howner hgeneration h0 hsize hmost hsids, hup, hopen, hspines, hspine,
        hfree, Bool.not_true, Bool.false_eq_true, if_false])) rfl
  -- GRANARY_MIRROR_COMMIT
  · intro o shard generation crc key m s b hb hm hgeneration hphase
    exact run_later hb (by
      simp only [hm, hgeneration, hphase, ne_eq, not_true_eq_false, or_self, if_false])
  · intro o shard generation crc key m s b hb hm hother
    exact run_failWith hb (by simp only [hm, if_pos hother])
  · intro o shard generation crc s b hb hnone
    exact run_failWith hb (by simp only [hnone])
  -- GRANARY_MIRROR_QUERY
  · intro o shard key m s b hb hm
    exact run_done hb (by simp only [hm]) rfl
  · intro o shard s b hb hnone
    exact run_failWith hb (by simp only [hnone])
  -- GRANARY_MIRROR_CLOSE
  · intro o shard key m s b hb hm
    exact run_ok hb (by simp only [hm])
  · intro o shard s b hb hnone
    exact run_failWith hb (by simp only [hnone])
  -- GRANARY_CHANNEL_BIND
  · intro o c pid rate s b hb hmin hmax hgood hrests
    exact run_ok hb ((if_neg (channelBind_inRange hmin hmax hgood)).trans (by
      simp only [hrests, Bool.not_true, Bool.false_eq_true, if_false]))
  · intro o c pid rate s b hb hmin hmax hgood hworks
    exact run_failWith hb ((if_neg (channelBind_inRange hmin hmax hgood)).trans (by
      simp only [hworks, Bool.not_false, if_true]))
  · intro o c pid rate s b hb hout
    exact run_failWith hb (if_pos (hout.imp_right Or.inl))
  -- GRANARY_CHANNEL_SET
  · intro o c setting s b hb hc hstale hgood hreach howner hrests
    exact run_ok hb (by
      simp only [Nat.not_le.2 hc, hstale, hgood, hreach, howner, hrests, Bool.not_true, Bool.or_self,
        Bool.false_eq_true, or_self, if_false])
  · intro o c setting s b hb hc hstale hgood hreach howner hworks
    exact run_failWith hb (by
      simp only [Nat.not_le.2 hc, hstale, hgood, hreach, howner, hworks, Bool.not_true, Bool.not_false, Bool.or_self,
        Bool.false_eq_true, or_self, if_true, if_false])
  · intro o c setting s b hb hc hstale hgood hdenied
    have hany : (!channelReach o c b || !mayReach o setting.pid b) = true := by
      simpa only [Bool.or_eq_true, Bool.not_eq_true'] using hdenied
    exact run_failWith hb (by
      simp only [Nat.not_le.2 hc, hstale, hgood, hany, Bool.not_true, Bool.false_eq_true, or_self, if_true, if_false])
  -- GRANARY_CHANNEL_START
  · intro o c s b hb hc hreach hring hcompletions hon henabled hgoes
    exact run_ok hb (by
      simp only [Nat.not_le.2 hc, hreach, hring, hcompletions, hon, henabled, hgoes, Bool.not_true, Bool.or_self,
        Bool.false_eq_true, if_false])
  · intro o c s b hb hc hdenied
    exact run_failWith hb (by simp only [Nat.not_le.2 hc, hdenied, Bool.not_false, if_true, if_false])
  · intro o c s b hb hc
    exact run_failWith hb (if_pos hc)
  -- GRANARY_CHANNEL_STOP
  · intro o c grace s b hb hc hgrace hreach hidle
    exact run_ok hb ((if_neg (by omega)).trans (by
      simp only [hreach, hidle, Bool.not_true, Bool.false_eq_true, if_true, if_false]))
  · intro o c grace s b hb hc hgrace hreach hflies
    exact run_grace hb ((if_neg (by omega)).trans (by
      simp only [hreach, hflies, Bool.not_true, Bool.false_eq_true, if_false]))
  · intro o c grace s b hb hout
    exact run_failWith hb (if_pos hout)
  -- GRANARY_ENABLE
  · intro o grace s b hb hgrace hnone
    exact run_ok hb (by
      simp only [Nat.not_lt.2 hgrace, hnone, Option.isSome_none, Bool.false_eq_true, if_true, if_false])
  · intro o grace s b hb hgrace hnone hstops
    exact run_grace hb (by
      simp only [Nat.not_lt.2 hgrace, hnone, hstops, Option.isSome_none, Bool.false_eq_true, if_true, if_false])
  · intro o grace s b hb hgrace hnone hstopped
    exact run_ok hb (by
      simp only [Nat.not_lt.2 hgrace, hnone, hstopped, Option.isSome_none, Bool.false_eq_true, if_false])
  · intro o enable grace x s b hb hgrace hdisabling
    exact run_failWith hb (by
      simp only [Nat.not_lt.2 hgrace, hdisabling, Option.isSome_some, if_true, if_false])

/-- A ready region of the owner that holds the entries may be read into a program (11 R375). -/
theorem gristLoad_readable {pid last : Nat} {x : Region} (hpid : x.pid = pid) (hready : x.phase = .ready)
    (hin : last ≤ regionSize x) : ¬(x.pid ≠ pid ∨ x.phase ≠ .ready ∨ regionSize x < last) := by
  simp only [hpid, hready, Nat.not_lt.2 hin, ne_eq, not_true_eq_false, or_self, not_false_eq_true]

/-- Settles O32: each form is the way the command's own rules end from the state at which it begins. -/
theorem gristCommands : Obligations.GristCommands := by
  unfold Obligations.GristCommands
  and_intros
  -- GRIST_LOAD
  · intro o slot params x s b hb hgood hup hon hreach hsow hempty hepoch hx hpid hready hin hentries hrise
    exact run_ok hb (by
      simp only [hgood, hup, hon, hreach, hsow, hempty, hepoch, hx, gristLoad_readable hpid hready hin, hentries, hrise,
        Bool.not_true, Bool.or_self, Bool.false_eq_true, if_false])
  · intro o slot params s b hb hbad
    exact run_failWith hb (if_pos (by rw [hbad, Bool.not_false]))
  -- GRIST_START
  · intro o slot g s b hb hslot hup hg hreach hidle hopen htime
    exact run_withGrist_ok hb hslot hup hg hreach (by
      simp only [hidle, hopen, htime, Bool.false_eq_true, if_false])
  · intro o slot g s b hb hslot hup hg hreach hruns
    exact run_withGrist_failWith hb hslot hup hg hreach (if_pos hruns)
  · intro o slot g s b hb hslot hup hg hreach hidle hfenced
    exact run_withGrist_failWith hb hslot hup hg hreach ((if_neg hidle).trans (if_pos hfenced))
  -- GRIST_STOP
  · intro o slot g s b hb hslot hup hg hreach hruns
    exact run_withGrist_ok hb hslot hup hg hreach (congrArg okWith (if_pos hruns))
  · intro o slot g s b hb hslot hup hg hreach hidle
    exact run_withGrist_ok hb hslot hup hg hreach (congrArg okWith (if_neg hidle))
  -- GRIST_UNLOAD
  · intro o slot g s b hb hslot hup hg hreach hidle
    exact run_withGrist_ok hb hslot hup hg hreach (if_neg hidle)
  · intro o slot g s b hb hslot hup hg hreach hruns
    exact run_withGrist_failWith hb hslot hup hg hreach (if_pos hruns)
  -- GRIST_STATUS
  · intro o slot g s b hb hslot hup hg hreach
    exact run_done hb (withGrist_reached hslot hup hg hreach) rfl
  · intro o slot g s b hb hslot hup hg hdenied
    exact run_failWith hb (withGrist_unreached hslot hup hg hdenied)

end Sys2Proof.Machine
end

section
/-! ## The Granary, its mirrors, DMA channels and Grist programs (11 R362 to R394; 13 R437 to R446) -/

namespace Sys2Proof.Machine

/-! ### Access requests, scrubbing and zeroing -/

section
variable {i : Nat} {d : Delivered} {s : State} (hi : nextAccess s [] (consumerQueue s 4) = some i)
  (hd : (consumerQueue s 4)[i]? = some d)
include hi hd

/-- A request is taken from the Granary's queue and served; a reply there is only released (11 R371). -/
theorem execGranaryAccessRx_taken : execGranaryAccessRx s = .next
    (let t := releaseDelivered d (modBuf (fun b =>
      { b with consumers := tabSet (fun _ => []) b.consumers 4 ((consumerQueue s 4).eraseIdx i) }) s)
    if 0x80 ≤ xGop d.pkt then t else serveAccess d.pkt (filterGranary d.pkt t)) := by
  simp only [execGranaryAccessRx, hi, hd]

end

/-- A region that is being zeroed or freed ends so once the budget of the work allows it (11 R366, R367). -/
theorem execRegionZeroed_ends {r : Nat} {x : Region} {s : State} (hx : region s r = some x)
    (hphase : x.phase = .zeroing ∨ x.phase = .freeing) (hmay : mayStart s 4 0 = true) : execRegionZeroed r s = .next
    (let t := startWork 4 0 (regionSize x) (zeroRegion r s)
    if x.phase = .zeroing then modRegion r (fun y => { y with phase := .ready }) t
      else modGran (fun g => { g with regions := tabDel g.regions r }) t) := by
  simp only [execRegionZeroed, hx, hphase, hmay, and_self, if_true]

/-! ### Mirrors -/

theorem mirrors_commitsTaken (cs : List MirrorCommit) (s : State) :
    (modGran (fun g => { g with commits := cs }) s).gran.mirrors = s.gran.mirrors := rfl

/-- A mirror's read back is checked, but for one at home whose budget does not allow it yet (11 R384). -/
theorem execMirrorReadbackDone_found {remote : Word} {c : MirrorCommit} {cs : List MirrorCommit} {m : Mirror}
    {s : State} (hc : s.gran.commits = c :: cs) (hm : tabGet? s.gran.mirrors c.key = some m) :
    execMirrorReadbackDone remote s = .next
    (if some m.sid == ownSid s && !mayStart s 0 0 then s
      else checkMirror c m remote (modGran (fun g => { g with commits := cs }) s)) := by
  simp only [execMirrorReadbackDone, hc, mirrors_commitsTaken, hm]
  rfl

/-! ### DMA channels -/

section
variable {c index : Nat} {errors : List LineError} {f : InFlight} {s : State} (hc : c < 32)
  (hf : (channel s c).flight.find? (fun f => f.index == index && f.status.isNone) = some f)
include hc hf

/-- A descriptor that copies or writes goes on with its next burst while its channel may work (11 R389, R390). -/
theorem execDmaWriteResponse_burst (h2 : f.desc.op ≠ 2) (h3 : f.desc.op ≠ 3) :
    execDmaWriteResponse c index errors s = .next (if channelMay s c then nextBurst c f errors s else s) :=
  onUnit_next (decide_eq_true hc) (by simp only [hf, h2, h3, if_false])

end

/-- Settles O51: each clause follows its event's meaning along the branch that the clause's conditions choose. -/
theorem granaryEvents : Obligations.GranaryEvents := by
  unfold Obligations.GranaryEvents
  and_intros
  -- GRANARY_ACCESS_RX
  · intro s hnone
    change execGranaryAccessRx s = _
    simp only [execGranaryAccessRx, hnone]
  · intro i d s hi hd hrequest
    exact (execGranaryAccessRx_taken hi hd).trans (congrArg _ (if_neg (Nat.not_le.2 hrequest)))
  · intro i d s hi hd hreply
    exact (execGranaryAccessRx_taken hi hd).trans (congrArg _ (if_pos hreply))
  -- GRANARY_WRITE_DONE
  · intro index a s ha
    change execGranaryWriteDone index s = _
    simp only [execGranaryWriteDone, ha]
  · intro index s hnone
    change execGranaryWriteDone index s = _
    simp only [execGranaryWriteDone, hnone]
  -- GRANARY_READ_DONE
  · intro index errors a s ha
    change execGranaryReadDone index errors s = _
    simp only [execGranaryReadDone, ha]
  · intro index errors s hnone
    change execGranaryReadDone index errors s = _
    simp only [execGranaryReadDone, hnone]
  -- EXTENT_RETIRE_DONE
  · intro r stack extent s hstack hretires hmay
    exact onUnit_next (decide_eq_true hstack) (if_pos ⟨List.contains_iff_mem.2 hretires, hmay⟩)
  · intro r stack extent s hstack hspent
    exact onUnit_next (decide_eq_true hstack) (if_neg (fun h => ne_true_of_eq_false hspent h.2))
  · intro r stack extent s hstack
    exact onUnit_fault (decide_eq_false (Nat.not_lt.2 hstack))
  -- SCRUB_LINE
  · intro s hmay
    change execScrubLine none s = _
    simp only [execScrubLine, hmay, if_true]
  · intro r e s hmay
    change execScrubLine (some (r, e)) s = _
    simp only [execScrubLine, hmay, if_true]
  · intro error s hspent
    change execScrubLine error s = _
    simp only [execScrubLine, hspent, Bool.false_eq_true, if_false]
  -- REGION_ZEROED
  · intro r x s hx hzeroing hmay
    exact (execRegionZeroed_ends hx (.inl hzeroing) hmay).trans (congrArg _ (if_pos hzeroing))
  · intro r x s hx hfreeing hmay
    exact (execRegionZeroed_ends hx (.inr hfreeing) hmay).trans
      (congrArg _ (if_neg (by rw [hfreeing]; exact RegionPhase.noConfusion)))
  · intro r x s hx hzeroing hfreeing
    change execRegionZeroed r s = _
    simp only [execRegionZeroed, hx, hzeroing, hfreeing, or_self, false_and, if_false]
  · intro r s hnone
    change execRegionZeroed r s = _
    simp only [execRegionZeroed, hnone]
  -- MIRROR_READBACK_DONE
  · intro remote s hnone
    change execMirrorReadbackDone remote s = _
    simp only [execMirrorReadbackDone, hnone]
  · intro remote c cs s hc hclosed
    change execMirrorReadbackDone remote s = _
    simp only [execMirrorReadbackDone, hc, mirrors_commitsTaken, hclosed]
  · intro remote c cs m s hc hm hmay
    have hgoes : ¬(some m.sid == ownSid s && !mayStart s 0 0) = true := by
      rcases hmay with haway | hmay
      · simp only [beq_eq_false_iff_ne.2 haway, Bool.false_and, Bool.false_eq_true, not_false_eq_true]
      · simp only [hmay, Bool.not_true, Bool.and_false, Bool.false_eq_true, not_false_eq_true]
    exact (execMirrorReadbackDone_found hc hm).trans (congrArg _ (if_neg hgoes))
  · intro remote c cs m s hc hm hhome hspent
    exact (execMirrorReadbackDone_found hc hm).trans (congrArg _ (if_pos (by
      simp only [hhome, hspent, BEq.rfl, Bool.not_false, Bool.and_self])))
  -- MIRROR_ASK_RX
  · intro s ht
    change execMirrorAskRx s = _
    simp only [execMirrorAskRx, ht]
  · intro k s1 s ht hrefused
    change execMirrorAskRx s = _
    simp only [execMirrorAskRx, ht, hrefused, if_true]
  · intro k s1 s ht hgranted
    change execMirrorAskRx s = _
    simp only [execMirrorAskRx, ht, hgranted, Bool.false_eq_true, if_false]
  -- MIRROR_GRANT_RX
  · intro s ht
    change execMirrorGrantRx s = _
    simp only [execMirrorGrantRx, ht]
  · intro k s1 s ht hnone
    change execMirrorGrantRx s = _
    simp only [execMirrorGrantRx, ht, hnone]
  · intro k s1 id a s ht ha hwaits
    change execMirrorGrantRx s = _
    simp only [execMirrorGrantRx, ht, ha, hwaits, Bool.not_true, Bool.false_eq_true, if_false]
  · intro k s1 id a s ht ha hended
    change execMirrorGrantRx s = _
    simp only [execMirrorGrantRx, ht, ha, hended, Bool.not_false, if_true]
  -- MIRROR_DENY_RX
  · intro s ht
    change execMirrorDenyRx s = _
    simp only [execMirrorDenyRx, ht]
  · intro k s1 s ht hnone
    change execMirrorDenyRx s = _
    simp only [execMirrorDenyRx, ht, hnone]
  · intro k s1 id a s ht ha
    change execMirrorDenyRx s = _
    simp only [execMirrorDenyRx, ht, ha]
  -- MIRROR_ASK_TIMEOUT
  · intro ask s
    rfl
  -- DMA_DESCRIPTOR_START
  · intro c s hc hmay
    exact onUnit_next (decide_eq_true hc) (if_pos hmay)
  · intro c s hc hmay
    exact onUnit_next (decide_eq_true hc) (if_neg (ne_true_of_eq_false hmay))
  · intro c s hc
    exact onUnit_fault (decide_eq_false (Nat.not_lt.2 hc))
  -- DMA_WRITE_RESPONSE
  · intro c index errors s hc hnone
    exact onUnit_next (decide_eq_true hc) (by simp only [hnone])
  · intro c index errors f s hc hf h2 h3 hmay
    exact (execDmaWriteResponse_burst hc hf h2 h3).trans (congrArg _ (if_pos hmay))
  · intro c index errors f s hc hf h2 h3 hmay
    exact (execDmaWriteResponse_burst hc hf h2 h3).trans (congrArg _ (if_neg (ne_true_of_eq_false hmay)))
  · intro c index errors f s hc hf h2
    exact onUnit_next (decide_eq_true hc) (by simp only [hf, h2, Nat.reduceEqDiff, if_true, if_false])
  · intro c index errors f i is s hc hf h3 hi
    exact onUnit_next (decide_eq_true hc) (by simp only [hf, h3, hi, if_true])
  -- REPLY_RX
  · intro s ht
    change execReplyRx s = _
    simp only [execReplyRx, ht]
  · intro d s1 s ht hnone
    change execReplyRx s = _
    simp only [execReplyRx, ht, hnone]
  · intro d s1 f r s ht hr hstatus
    change execReplyRx s = _
    simp only [execReplyRx, ht, hr, hstatus]
  · intro d s1 f r s ht hr hstatus
    change execReplyRx s = _
    simp only [execReplyRx, ht, hr, hstatus]
  · intro d s1 f r s ht hr hstatus
    change execReplyRx s = _
    simp only [execReplyRx, ht, hr, hstatus]
  · intro d s1 f r s ht hr hstatus
    change execReplyRx s = _
    simp only [execReplyRx, ht, hr, hstatus]
  · intro d s1 f r s ht hr hstatus
    change execReplyRx s = _
    simp only [execReplyRx, ht, hr, hstatus]
  -- DMA_REQUEST_TIMEOUT
  · intro c index number s hc
    exact onUnit_next (decide_eq_true hc) rfl
  · intro c index number s hc
    exact onUnit_fault (decide_eq_false (Nat.not_lt.2 hc))
  -- DMA_NO_BUFFER_RETRY
  · intro c index number s hc
    exact onUnit_next (decide_eq_true hc) rfl
  -- DMA_DESCRIPTOR_STALENESS
  · intro c index s hc hopen
    exact onUnit_next (decide_eq_true hc) (if_pos hopen)
  · intro c index s hc hnone
    exact onUnit_next (decide_eq_true hc) (if_neg (ne_true_of_eq_false hnone))
  -- DMA_GRACE_EXPIRY
  · intro c s hc
    exact onUnit_next (decide_eq_true hc) rfl

/-- Settles O52: each clause follows its event's meaning along the branch that the clause's conditions choose. -/
theorem gristEvents : Obligations.GristEvents := by
  unfold Obligations.GristEvents
  and_intros
  -- GRIST_CHUNK_STAGE
  · intro slot errors g e s hslot hg he hmay
    exact onUnit_next (decide_eq_true hslot) (by
      simp only [hg, he, hmay, Bool.not_true, Bool.false_eq_true, if_false])
  · intro slot errors g e s hslot hg he hmay
    exact onUnit_next (decide_eq_true hslot) (by simp only [hg, he, hmay, Bool.not_false, if_true])
  · intro slot errors g s hslot hg hnone
    exact onUnit_next (decide_eq_true hslot) (by simp only [hg, hnone])
  · intro slot errors s hslot hnone
    exact onUnit_next (decide_eq_true hslot) (by simp only [hnone])
  · intro slot errors s hslot
    exact onUnit_fault (decide_eq_false (Nat.not_lt.2 hslot))
  -- GRIST_LAUNCH
  · intro slot g c cs e s hslot hg hstaged he hruns hdue
    exact onUnit_next (decide_eq_true hslot) (by simp only [hg, hstaged, he, hruns, hdue, and_self, if_true])
  · intro slot g c cs e s hslot hg hstaged he hearly
    exact onUnit_next (decide_eq_true hslot) (by
      simp only [hg, hstaged, he, Nat.not_le.2 hearly, and_false, if_false])
  · intro slot g s hslot hg hnone
    exact onUnit_next (decide_eq_true hslot) (by simp only [hg, hnone])
  -- GRIST_DONE
  · intro slot g s hslot hg hruns hnext hstaged hsent
    exact onUnit_next (decide_eq_true hslot) (by simp only [hg, hruns, hnext, hstaged, hsent, and_self, if_true])
  · intro slot g s hslot hg hpending
    exact onUnit_next (decide_eq_true hslot) (by
      simp only [hg, hpending, Bool.true_eq_false, and_false, if_false])
  -- GRIST_STALENESS_EXPIRY
  · intro slot g s hslot hg hruns
    exact onUnit_next (decide_eq_true hslot) (by simp only [hg, hruns, if_true])
  · intro slot g s hslot hg hidle
    exact onUnit_next (decide_eq_true hslot) (by simp only [hg, hidle, if_false])

end Sys2Proof.Machine
end

section
/-! ## The WINNOW commands and diverse tag sets (12 R396 to R421; 16 Table 16.9) -/

namespace Sys2Proof.Machine

/-! ### Diverse tag sets -/

/-- A mask asks for diversity in each type that one of its bits names, and in no other (12 Table 12.2). -/
theorem diverse_iff (m : Nat) (a b : TagSet) : diverse m a b = true ↔
    (testBitN m 3 = true → a.tray ≠ 0 ∧ b.tray ≠ 0 ∧ a.tray ≠ b.tray) ∧
    (testBitN m 2 = true → a.powerShelf ≠ 0 ∧ b.powerShelf ≠ 0 ∧ a.powerShelf ≠ b.powerShelf) ∧
    (testBitN m 1 = true → a.coolingLoop ≠ 0 ∧ b.coolingLoop ≠ 0 ∧ a.coolingLoop ≠ b.coolingLoop) ∧
    (testBitN m 0 = true → a.switch ≠ 0 ∧ b.switch ≠ 0 ∧ a.switch ≠ b.switch) := by
  simp only [diverse, Bool.and_eq_true, Bool.or_eq_true, Bool.not_eq_true', bne_iff_ne, and_assoc,
    ← Bool.not_eq_true, imp_iff_not_or]

theorem diverse_comm (m : Nat) (a b : TagSet) : diverse m a b = diverse m b a := by
  rw [Bool.eq_iff_iff, diverse_iff, diverse_iff]
  simp only [ne_comm, and_left_comm]

/-- A DIVERSITY other than 0 names at least one of the four types (12 Table 12.2). -/
theorem diversity_names_type : ∀ m < 16, m ≠ 0 →
    testBitN m 3 = true ∨ testBitN m 2 = true ∨ testBitN m 1 = true ∨ testBitN m 0 = true := by
  decide

/-- Whatever type a mask names, a set without known tags has none of it to compare (12 R398). -/
theorem diverse_unknown_left {m : Nat} (hm : m < 16) (h0 : m ≠ 0) (x : TagSet) :
    diverse m ⟨0, 0, 0, 0⟩ x = false := by
  refine Bool.eq_false_iff.2 fun hdiverse => ?_
  obtain ⟨htray, hshelf, hloop, hswitch⟩ := (diverse_iff m _ x).1 hdiverse
  rcases diversity_names_type m hm h0 with h | h | h | h
  · exact (htray h).1 rfl
  · exact (hshelf h).1 rfl
  · exact (hloop h).1 rfl
  · exact (hswitch h).1 rfl

/-- Settles O21: each of the four masks asks for its own type alone. -/
theorem diverseTags : Obligations.DiverseTags := by
  intro a b
  refine ⟨(diverse_iff 8 a b).trans ?tray, (diverse_iff 4 a b).trans ?powerShelf, (diverse_iff 2 a b).trans ?coolingLoop,
    (diverse_iff 1 a b).trans ?switch, fun m x hm h0 => ⟨diverse_unknown_left hm h0 x, ?_⟩⟩
  case tray | powerShelf | coolingLoop | switch => simp [testBitN]
  rw [diverse_comm]
  exact diverse_unknown_left hm h0 x

/-! ### Policies, tags, pins, masks and the log -/

/-- A protected command with room for one more proposal waits for its quorum (16 R515; 18 R584). -/
theorem propose_pending {s : State} (hroom : (pendingProposals s).length < 64) (o : Origin) (c : Staged) :
    propose o c s = .done .quorumPending [w32 s.sec.nextProposal] (stageProposal o c s) :=
  if_neg (Nat.not_le.2 hroom)

/-- A crust mask for an existing engine, with its values in range, passes the first refusal (12 Table 12.4). -/
theorem crustMask_inRange {engine : Nat} {mask : CrustMask} (hengine : engine < 32) (hlanes : mask.maxLanes ≤ 32)
    (hpairs : mask.pairs < 2 ^ 64) (hup : mask.setUp < 65536) (hdown : mask.tearDown < mask.setUp) :
    ¬(32 ≤ engine ∨ 32 < mask.maxLanes ∨ 2 ^ 64 ≤ mask.pairs ∨ 65536 ≤ mask.setUp ∨ mask.setUp ≤ mask.tearDown) := by
  omega

/-- Settles O33: each form is the way the command's own rules end from the state at which it begins. -/
theorem winnowCommands : Obligations.WinnowCommands := by
  unfold Obligations.WinnowCommands
  and_intros
  -- WINNOW_POLICY
  · intro o pid setting s b hb hgoes hsame
    exact run_ok hb (by simp only [hgoes, hsame, ne_eq, not_true_eq_false, if_false])
  · intro o pid setting s b hb hgoes hchanges hroom
    exact run_done hb (by simp only [hgoes, if_pos hchanges, propose_pending hroom]) rfl
  · intro o pid setting st s b hb hstops
    exact run_failWith hb (by simp only [hstops])
  -- WINNOW_TAGS
  · intro o entries s b hb hgood
    exact run_ok hb (by simp only [hgood, Bool.not_true, Bool.false_eq_true, if_false])
  · intro o entries s b hb hbad
    exact run_failWith hb (by simp only [hbad, Bool.not_false, if_true])
  -- WINNOW_PIN
  · intro o subject s b hb hmay hgood hfree
    exact run_ok hb (by simp only [hmay, hgood, hfree, Bool.not_true, Bool.false_eq_true, if_false])
  · intro o subject s b hb hmay hgood hother
    exact run_failWith hb (by simp only [hmay, hgood, hother, Bool.not_true, Bool.false_eq_true, if_true, if_false])
  · intro o subject s b hb hdenied
    exact run_failWith hb (if_pos hdenied)
  -- WINNOW_UNPIN
  · intro o subject s b hb hmay hpinned
    exact run_ok hb (by simp only [hmay, hpinned, Bool.not_true, Bool.false_eq_true, if_false])
  · intro o subject s b hb hmay hunpinned
    exact run_failWith hb (by simp only [hmay, hunpinned, Bool.not_false, Bool.false_eq_true, if_true, if_false])
  -- WINNOW_CRUST_MASK
  · intro o engine mask s b hb hengine hlanes hpairs hup hdown hkeeps
    exact run_ok hb ((if_neg (crustMask_inRange hengine hlanes hpairs hup hdown)).trans
      (if_neg (Bool.eq_false_iff.1 hkeeps)))
  · intro o engine mask s b hb hengine hlanes hpairs hup hdown hexcludes
    exact run_failWith hb ((if_neg (crustMask_inRange hengine hlanes hpairs hup hdown)).trans (if_pos hexcludes))
  · intro o engine mask s b hb hout
    exact run_failWith hb (if_pos (by omega))
  -- WINNOW_LOG
  · intro o first amount s b hb h0 hmost hfirst
    exact run_done hb (if_neg (by omega)) rfl
  · intro o first amount s b hb hout
    exact run_failWith hb (if_pos hout)

end Sys2Proof.Machine
end

section
/-! ## One step: a tick or the command in front (15 R493; 13 R428, R429) -/

namespace Sys2Proof.Machine

theorem step_of_empty {s : State} (h : s.pending = []) : step s = .next (tick s) := by
  rw [step, h]

/-- What a step can be: a tick, or the command in front on the state with the rest of the queue. -/
theorem step_cases {s t : State} (h : step s = .next t) :
    t = tick s ∨ ∃ c rest, exec c { s with pending := rest } = .next t := by
  unfold step at h
  split at h
  next c rest _ => exact Or.inr ⟨c, rest, h⟩
  next => exact Or.inl (Host.Outcome.next.inj h).symm

theorem tick_frame (s : State) : OnlyChanges [.refTime, .devTime] s (tick s) :=
  OnlyChanges.upd rfl (OnlyChanges.refl _ s)

theorem tick_dev_of_reset {s : State} (h : s.start.phase = .reset) : (tick s).clk.dev = s.clk.dev := by
  simp [tick, timeRuns, h]

theorem tick_dev_of_running {s : State} (h : s.start.phase ≠ .reset) :
    (tick s).clk.dev = s.clk.dev + devAdvance s.clk.rho := by
  simp [tick, timeRuns, h]

/-- Settles O2: with no command in front the step is a tick, which moves the two clocks alone. -/
theorem emptyQueueTick : Obligations.EmptyQueueTick := by
  unfold Obligations.EmptyQueueTick
  intro s hempty
  exact ⟨tick s, step_of_empty hempty, rfl, tick_dev_of_reset, tick_dev_of_running, tick_frame s, rfl⟩

end Sys2Proof.Machine
end

section
/-! ## The launch timestamp queue along an operation (13 R446)

The queue keeps its bound along an operation whose frame leaves the queue out, and along one that resets fabric time. -/

namespace Sys2Proof.Machine

/-- The launch timestamp queue holds at most its 256 entries. -/
def LaunchesFit (s : State) : Prop := s.time.launches.length ≤ 256

/-- One more operation, whose frame leaves the launch timestamps out. -/
theorem LaunchesFit.frame {ps : List Part} {s t : State} (hs : LaunchesFit s) (h : OnlyChanges ps s t)
    (hp : Part.launches ∉ ps := by decide) : LaunchesFit t := by
  obtain ⟨hlaunches, _⟩ := h .launches hp
  rw [LaunchesFit, hlaunches]
  exact hs

/-- One more operation, which leaves fabric time as it is. -/
theorem LaunchesFit.same {s t : State} (hs : LaunchesFit s) (h : t.time = s.time) : LaunchesFit t := by
  rw [LaunchesFit, h]
  exact hs

/-- One more operation on fabric time, which leaves the queue as it is. -/
theorem modTime_fits {f : TimeState → TimeState} {s : State} (hs : LaunchesFit s)
    (h : (f s.time).launches = s.time.launches) : LaunchesFit (modTime f s) := by
  rw [LaunchesFit, modTime_time, h]
  exact hs

/-- A reset of fabric time empties the queue. -/
theorem launchesFit_of_reset {s : State} (h : s.time = State.reset.time) : LaunchesFit s := by
  rw [LaunchesFit, h]
  decide

/-- An outcome that goes on has a queue within its bound. -/
def NextFits (r : Host.Outcome State Fault Refusal) : Prop :=
  match r with
  | .next t => LaunchesFit t
  | _ => True

theorem next_fits {t : State} (h : LaunchesFit t) : NextFits (.next t) := h

theorem onUnit_fits (ok : Bool) {t : State} (h : LaunchesFit t) : NextFits (onUnit ok t) := by
  cases ok
  · exact True.intro
  · exact h

theorem NextChanges.fits {ps : List Part} {s : State} {r : Host.Outcome State Fault Refusal} (h : NextChanges ps s r)
    (hs : LaunchesFit s) (hp : Part.launches ∉ ps) : NextFits r := by
  cases r with
  | next t => exact hs.frame h hp
  | fault _ => exact True.intro
  | refused _ => exact True.intro

end Sys2Proof.Machine
end

section
/-! ## A command of the contract keeps what its answer and its own rules keep (15 R490 to R497) -/

namespace Sys2Proof.Machine

/-- The state that a command's own rules give. -/
def CmdOutcome.state : CmdOutcome → State
  | .done _ _ t => t
  | .fails _ t => t
  | .later t => t
  | .soon t => t
  | .laterGrace _ t => t

section
variable {P : State → Prop} {body : State → CmdOutcome} {s : State}
  (hP : ∀ {x y : State}, P x → OnlyChanges answerParts x y → P y)
include hP

/-- A property that the answer's own parts cannot end holds after the committing step, when it holds before it and of
what the command's own rules give. -/
theorem commitCommand_keeps (o : Origin) (op : Nat) (h : P s) (hb : P (body s).state) :
    P (commitCommand o op body s) := by
  unfold commitCommand
  revert hb
  cases body s with
  | done st ws t =>
    intro hb
    dsimp only
    split
    · exact hP hb (answer_frame _ _ _ _ _)
    · exact hP h (answer_frame _ _ _ _ _)
  | fails st t => exact fun hb => hP hb (answer_frame _ _ _ _ _)
  | later t => exact fun hb => hP hb (accept_frame _ _ _ _ _)
  | soon t => exact fun hb => hP hb (accept_frame _ _ _ _ _)
  | laterGrace g t => exact fun hb => hP hb (accept_frame _ _ _ _ _)

/-- A property that the answer's own parts cannot end, and that the command's own rules keep, is kept by the command. -/
theorem runCommand_keeps (o : Origin) (op : Nat) (hb : ∀ x, P x → P (body x).state) (h : P s) :
    P (runCommand o op body s) := by
  have hfilter : P (filterCommand o op s) := hP h ((filterCommand_frame o op s).mono (by decide))
  unfold runCommand
  split
  · exact h
  split
  · exact hP hfilter (reject_frame _ _ _ _ _)
  split
  · split
    · exact commitCommand_keeps hP _ _ h (hb _ h)
    · exact hP h (sendAccepted_frame _ _ _)
  split
  · exact hP h (sendResponse_frame _ _ _)
  split
  · exact hP h (reject_frame _ _ _ _ _)
  · extract_lets c
    split
    · exact hP hfilter (reject_frame _ _ _ _ _)
    · have htaken : P (takeSeq o c) := hP hfilter ((takeSeq_frame o c).mono (by decide))
      exact commitCommand_keeps hP _ _ htaken (hb _ htaken)

end

end Sys2Proof.Machine
end

section
/-! ## What may change the launch timestamp queue (13 R446; 16 R529; 17 R538 to R563)

A departing packet adds one entry while there is room, TIME.LAUNCH_READ takes entries out, and a start or a loss of power
empties the queue. Nothing else has it in its frame. -/

namespace Sys2Proof.Machine

/-! ### An entry is written (R446) -/

theorem launchStamp_fits (p id : Nat) {s : State} (h : LaunchesFit s) : LaunchesFit (launchStamp p id s) := by
  unfold launchStamp
  split
  · exact h
  · extract_lets s1 now delta en
    have hmarked : LaunchesFit s1 := h.frame (modStored_frame _ _ _)
    split
    next hroom =>
      have hadded : (s1.time.launches ++ [en]).length ≤ 256 := by
        rw [List.length_append, List.length_singleton]
        omega
      exact hadded
    next =>
      refine LaunchesFit.frame ?_ (raiseOwner_frame _ _ _ _ _)
      exact modTime_fits hmarked rfl

theorem sendSlot_fits (l p cls vc : Nat) {s : State} (h : LaunchesFit s) : LaunchesFit (sendSlot l p cls vc s) := by
  unfold sendSlot
  split
  · exact h
  · extract_lets pt n stomp b key o1 s1 s2 s3 s4
    have hnumbered : LaunchesFit s1 := h.frame (modPort_frame _ _ _)
    have hstamped : LaunchesFit s2 := by
      unfold s2
      split
      · exact launchStamp_fits _ _ hnumbered
      · exact hnumbered
    have hcounted : LaunchesFit s3 := by
      unfold s3
      split
      · exact (hstamped.frame (countPort_frame _ _ _ _)).frame (countPort_frame _ _ _ _)
      · exact hstamped
    have hmeasured : LaunchesFit s4 := by
      unfold s4
      split
      · exact hcounted.frame (c0Measure_frame _ _)
      · exact hcounted
    refine LaunchesFit.frame ?_ (sendData_frame _ _ _ _)
    exact hmeasured.same (modBuf_time _ _)

theorem serveSlot_fits (l p : Nat) {s : State} (h : LaunchesFit s) : LaunchesFit (serveSlot l p s) := by
  unfold serveSlot
  extract_lets s1 s2 pt loc
  have hpurged : LaunchesFit s1 := h.frame (purgePort_frame _ _)
  have hwarned : LaunchesFit s2 := by
    unfold s2
    split
    · exact (hpurged.frame (countQueue_frame _ _ _ _ _)).frame (c0Event_frame _ _ _)
    · exact hpurged
  split
  · split
    · exact hwarned.frame (sendReplay_frame _ _ _ _)
    · cases loc with
      | some x => exact hwarned.frame (sendLocal_frame _ _ _ _ _)
      | none => exact hwarned.frame (sendReplay_frame _ _ _ _)
  split
  · refine sendSlot_fits _ _ _ _ ?_
    split
    · exact hwarned.frame (beginCopy_frame _ _ _ _)
    · exact hwarned
  cases loc with
  | some x => exact hwarned.frame (sendLocal_frame _ _ _ _ _)
  | none =>
    dsimp only
    split
    · exact hwarned.frame (sendIdle_frame _ _ _)
    split
    · exact sendSlot_fits _ _ _ _ hwarned
    split
    next hnew => exact sendSlot_fits _ _ _ _ (hwarned.frame (scheduleNew_frame _ _ _ hnew))
    next => exact hwarned.frame (sendIdle_frame _ _ _)

theorem execBlockSlot_fits (lane : Nat) {s : State} (h : LaunchesFit s) : NextFits (execBlockSlot lane s) := by
  refine onUnit_fits _ ?_
  split
  · exact h
  · extract_lets ph
    split
    · exact h
    split
    · exact serveSlot_fits _ _ h
    split
    · split
      · exact h.frame (sendLocal_frame _ _ _ _ _)
      · exact h.frame (sendIdle_frame _ _ _)
    · exact h.frame (sendIdle_frame _ _ _)

/-! ### Entries are read (R446) -/

/-- One entry of the queue at a TIME.LAUNCH_READ of at most `most` entries: it is read, and leaves the queue, or stays. -/
def leaveUnread (mine : Nat → Bool) (most : Nat) (a : List LaunchEntry × Nat) (e : LaunchEntry) :
    List LaunchEntry × Nat :=
  if mine e.pid && decide (a.2 < most) then (a.1, a.2 + 1) else (a.1 ++ [e], a.2)

/-- A read leaves no more entries than there were. -/
theorem leaveUnread_length (mine : Nat → Bool) (most : Nat) (l : List LaunchEntry) (a : List LaunchEntry × Nat) :
    (l.foldl (leaveUnread mine most) a).1.length ≤ a.1.length + l.length := by
  induction l generalizing a with
  | nil => exact Nat.le_refl _
  | cons e l ih =>
    have hone : (leaveUnread mine most a e).1.length ≤ a.1.length + 1 := by
      unfold leaveUnread
      split
      · exact Nat.le_succ _
      · rw [List.length_append, List.length_singleton]
    rw [List.foldl_cons, List.length_cons]
    have hrest := ih (leaveUnread mine most a e)
    omega

theorem execTimeLaunchRead_fits (o : Origin) (most : Nat) {s : State} (h : LaunchesFit s) :
    NextFits (execTimeLaunchRead o most s) := by
  refine next_fits (runCommand_keeps (P := LaunchesFit) (fun hx hc => hx.frame hc) _ _ (fun x hx => ?_) h)
  split
  · exact hx
  · have hleft := leaveUnread_length (launchMine o x) most x.time.launches ([], 0)
    exact hleft.trans ((Nat.zero_add _).trans_le hx)

/-! ### Starts and losses of power (17 R538 to R563) -/

theorem clearChip_time (s : State) : (clearChip s).time = State.reset.time := rfl
theorem clearAll_time (s : State) : (clearAll s).time = State.reset.time := rfl

theorem modStart_fits (f : StartState → StartState) {s : State} (h : LaunchesFit s) : LaunchesFit (modStart f s) :=
  h.same (modStart_time f s)

theorem modPower_fits (f : PowerState → PowerState) {s : State} (h : LaunchesFit s) : LaunchesFit (modPower f s) :=
  h.same (modPower_time f s)

theorem modTele_fits (f : TeleState → TeleState) {s : State} (h : LaunchesFit s) : LaunchesFit (modTele f s) :=
  h.same (modTele_time f s)

theorem withMgmt_fits (m : MgmtState) {s : State} (h : LaunchesFit s) : LaunchesFit { s with mgmt := m } := h

theorem clearChip_fits (s : State) : LaunchesFit (clearChip s) := launchesFit_of_reset (clearChip_time s)

theorem clearAll_fits (s : State) : LaunchesFit (clearAll s) := launchesFit_of_reset (clearAll_time s)

theorem coldHold_fits (s : State) : LaunchesFit (coldHold s) := modStart_fits _ (clearAll_fits s)

theorem dropPower_fits (s : State) : LaunchesFit (dropPower s) := modPower_fits _ (coldHold_fits s)

theorem latchOff_fits (s : State) : LaunchesFit (latchOff s) := modPower_fits _ (dropPower_fits s)

theorem coldPrepared_fits (o : StartOutcome) (s : State) : LaunchesFit (coldPrepared o s) :=
  (modStart_fits _ (modPower_fits _ (clearAll_fits s))).frame (storeNow_frame _ _)

theorem warmPrepared_fits (e : Escalation) (s : State) : LaunchesFit (warmPrepared e s) := by
  unfold warmPrepared
  extract_lets s1
  exact modStart_fits _ ((clearChip_fits s1).frame (holdAll_frame _))

theorem holdModule_fits (e : Escalation) (s : State) : LaunchesFit (holdModule e s) := by
  unfold holdModule
  extract_lets seq s1 net s2
  have hdark : LaunchesFit s2 := modStart_fits _ ((clearChip_fits s1).frame (darkOptics_frame _))
  refine LaunchesFit.frame (LaunchesFit.frame ?_ (releaseOnly_frame _ _)) (mgmtUp_frame _ _)
  exact withMgmt_fits _ hdark

theorem execColdStart_fits (o : StartOutcome) {s : State} (h : LaunchesFit s) : NextFits (execColdStart o s) := by
  refine next_fits ?_
  split
  · exact h
  · extract_lets s2
    have hcleared : LaunchesFit s2 := coldPrepared_fits _ _
    split
    · exact hcleared.frame (enterRecovery_frame _)
    split
    · exact modStart_fits _ (hcleared.frame (lockIslands_frame _ _))
    split
    · exact (hcleared.frame (storeNow_frame _ _)).frame (enterRecovery_frame _)
    · exact (hcleared.frame (loadImage_frame _ _)).frame (coldRun_frame _ _)

theorem execWarmStart_fits (o : StartOutcome) {s : State} (h : LaunchesFit s) : NextFits (execWarmStart o s) := by
  refine next_fits ?_
  split
  · exact h
  split
  · exact (h.frame (dropAsked_frame _ _)).frame (escalate_frame _ _ _ _ _)
  · extract_lets s2 s3 r
    have hprepared : LaunchesFit s2 := warmPrepared_fits _ _
    have hcounted : LaunchesFit s3 := hprepared.frame (storeNow_frame _ _)
    split
    · exact hprepared.frame (failStart_frame _ _)
    split
    · exact hcounted.frame (warmRun_frame _ _ _ _)
    split
    · exact ((clearAll_fits s3).frame (storeNow_frame _ _)).frame (enterRecovery_frame _)
    · exact (hcounted.frame (loadImage_frame _ _)).frame (warmRun_frame _ _ _ _)

theorem execStartTimeout_fits (step : Nat) {s : State} (h : LaunchesFit s) : NextFits (execStartTimeout step s) := by
  refine next_fits ?_
  split
  · refine LaunchesFit.frame (modStart_fits _ ?_) (failStart_frame _ _)
    split
    · exact h.frame (countStart_frame _)
    · exact h
  split
  · refine LaunchesFit.frame ?_ (failStart_frame _ _)
    split
    · exact (warmPrepared_fits _ _).frame (countStart_frame _)
    · exact warmPrepared_fits _ _
  · exact h

theorem execModuleCycleHold_fits {s : State} (h : LaunchesFit s) : NextFits (execModuleCycleHold s) := by
  refine next_fits ?_
  split
  · exact h
  · exact holdModule_fits _ _

theorem execJtagInstructionLoad_fits (code : Nat) {s : State} (h : LaunchesFit s) :
    NextFits (execJtagInstructionLoad code s) := by
  refine next_fits ?_
  split
  · exact h
  split
  · exact modStart_fits _ (modTele_fits _ (coldHold_fits s))
  · exact modTele_fits _ (h.frame (leaveTest_frame _))

theorem execRefclkLoss_fits {s : State} (h : LaunchesFit s) : NextFits (execRefclkLoss s) := by
  refine next_fits ?_
  split
  · exact modStart_fits _ (modPower_fits _ (coldHold_fits s))
  · exact h

theorem execThermalTrip_fits {s : State} (h : LaunchesFit s) : NextFits (execThermalTrip s) := by
  refine next_fits ?_
  split
  · exact modPower_fits _ (coldHold_fits s)
  · exact h

/-! ### Every step -/

/-- Every command keeps the queue within its bound. -/
theorem exec_fits (i : Instr) {s : State} (h : LaunchesFit s) : NextFits (exec i s) := by
  by_cases hm : (mayChange i).contains .launches = true
  · cases i with
    | blockSlot lane => exact execBlockSlot_fits lane h
    | timeLaunchRead o most => exact execTimeLaunchRead_fits o most h
    | inputUndervoltage => exact dropPower_fits s
    | inputOvervoltage => exact latchOff_fits s
    | inputOvercurrent => exact latchOff_fits s
    | latchClear => exact modPower_fits _ (dropPower_fits s)
    | supplyLoss => exact dropPower_fits s
    | modRstNAssert => exact coldHold_fits _
    | coldStart o => exact execColdStart_fits o h
    | startTimeout step => exact execStartTimeout_fits step h
    | warmStart o => exact execWarmStart_fits o h
    | refclkLoss => exact execRefclkLoss_fits h
    | thermalTrip => exact execThermalTrip_fits h
    | jtagInstructionLoad code => exact execJtagInstructionLoad_fits code h
    | moduleCycleHold => exact execModuleCycleHold_fits h
    | _ => exact absurd hm Bool.false_ne_true
  · exact (exec_frame i s).fits h (fun hlaunches => hm (List.contains_iff_mem.mpr hlaunches))

/-- Settles O13: a tick leaves the queue alone, and every command keeps its bound. -/
theorem launchLogKept : Obligations.LaunchLogKept := by
  unfold Obligations.LaunchLogKept
  intro s t h hstep
  rcases step_cases hstep with htick | ⟨c, rest, hexec⟩
  · rw [htick]
    exact h
  · have hfits : NextFits (exec c { s with pending := rest }) := exec_fits c h
    rw [hexec] at hfits
    exact hfits

end Sys2Proof.Machine
end

section
/-! ## The TIME commands (16 Table 16.10; 13 R431 to R446) -/

namespace Sys2Proof.Machine

section
variable {source domain t96 : Nat} {b : State}

/-- Operands of TIME.TIE in the ranges of its first refusal: a source of Table 13.4, a PTP domain, a T96 (16 R529). -/
theorem timeTie_inRange (hsource : source ≤ 2) (hdomain : domain ≤ 127)
    (ht96 : t96 / 2 ^ 16 % 2 ^ 32 < 1000000000) :
    ¬(2 < source ∨ 127 < domain ∨ 1000000000 ≤ t96 / 2 ^ 16 % 2 ^ 32) := by
  omega

/-- A spine in UNSET that may be master and waits for no tie takes one (13 R441). -/
theorem timeTie_free (hphase : b.time.phase = .unset) (hpriority : b.time.priority < 255) (hnone : b.time.tie = none) :
    ¬(b.time.phase ≠ .unset ∨ 255 ≤ b.time.priority ∨ b.time.tie.isSome) := by
  simp only [hphase, Nat.not_le.2 hpriority, hnone, ne_eq, not_true_eq_false, Option.isSome_none, Bool.false_eq_true,
    or_self, not_false_eq_true]

end

/-- Settles O34: each form is the way the command's own rules end from the state at which it begins. -/
theorem timeCommands : Obligations.TimeCommands := by
  unfold Obligations.TimeCommands
  and_intros
  -- TIME_TIE
  · intro o domain t96 s b hb hdomain ht96 hphase hpriority hnone
    exact run_ok hb (by
      simp only [timeTie_inRange (Nat.le_refl 2) hdomain ht96, timeTie_free hphase hpriority hnone, if_true, if_false])
  · intro o source domain t96 s b hb hsource hdomain ht96 hphase hpriority hnone
    exact run_later hb (by
      simp only [timeTie_inRange hsource.le hdomain ht96, timeTie_free hphase hpriority hnone, hsource.ne, if_false])
  · intro o source domain t96 s b hb hsource hdomain ht96 hrefused
    exact run_failWith hb ((if_neg (timeTie_inRange hsource hdomain ht96)).trans
      (if_pos (hrefused.imp_right Or.inl)))
  · intro o source domain t96 s b hb hout
    exact run_failWith hb (if_pos hout)
  -- TIME_ACCEPT_STEP
  · intro o limit s b hb hrefused hnone
    exact run_later hb (by
      simp only [hrefused, hnone, Option.isSome_none, Bool.not_true, Bool.false_eq_true, if_false])
  · intro o limit x s b hb hrefused hpending
    exact run_failWith hb (by
      simp only [hrefused, hpending, Option.isSome_some, Bool.not_true, Bool.false_eq_true, if_true, if_false])
  · intro o limit s b hb hnone
    exact run_failWith hb (by simp only [hnone, Bool.not_false, if_true])
  -- TIME_THRESH
  · intro o ns s b hb hmin hmax
    exact run_ok hb (if_neg (by omega))
  · intro o ns s b hb hout
    exact run_failWith hb (if_pos hout)
  -- TIME_ASYM
  · intro o port asym s b hb hk hin
    exact run_ok hb (by simp only [hk, hin, Bool.not_true, Bool.or_self, Bool.false_eq_true, if_false])
  · intro o port asym s b hb hout
    have hany : (!portKnown b port || beyond asym 10000) = true := by
      simpa only [Bool.or_eq_true, Bool.not_eq_true'] using hout
    exact run_failWith hb (if_pos hany)
  -- TIME_PRIORITY
  · intro o value s b hb hmax
    exact run_ok hb (if_neg (Nat.not_lt.2 hmax))
  · intro o value s b hb hout
    exact run_failWith hb (if_pos hout)
  -- TIME_PPS
  · intro o discipline s b hb
    exact run_ok hb rfl
  -- TIME_LAUNCH_READ
  · intro o most s b hb hmin hmax
    exact run_done hb (if_neg (by omega)) rfl
  · intro o most s b hb hout
    exact run_failWith hb (if_pos hout)
  -- TIME_STATUS
  · intro o s b hb
    exact run_done hb rfl rfl

end Sys2Proof.Machine
end

section
/-! ## Time messages, ties and pulses (13 R431 to R443) -/

namespace Sys2Proof.Machine

/-- Counting a frame of a management port leaves the time state. -/
theorem countMgmt_timePhase (p item : Nat) (s : State) : (countMgmt p item s).time.phase = s.time.phase := by
  obtain ⟨hphase, _⟩ := countMgmt_frame p item s .time (by decide)
  exact hphase

/-! ### A tie that waited (R441) -/

theorem landTie_unset {o : Origin} {dev : Nat} {s : State} (h : s.time.phase = .unset) :
    landTie o dev s = finish o .ok [] (tieTo dev s) :=
  if_pos h

theorem landTie_late {o : Origin} {dev : Nat} {s : State} (h : s.time.phase ≠ .unset) :
    landTie o dev s = finish o .conflict [] (modTime (fun t => { t with tie := none }) s) :=
  if_neg h

/-! ### A TIME message (R433) -/

/-- A TIME message that arrives at a port in UP is heard. -/
theorem timeMsg_heard {port : Nat} {pkt : Packet} {s : State} (hup : (Machine.port s port).phase = .up)
    (hkind : pKind pkt = 9) (htype : xTtType pkt = 1) :
    ¬((Machine.port s port).phase ≠ .up ∨ pKind pkt ≠ 9 ∨ xTtType pkt ≠ 1) := by
  simp only [hup, hkind, htype, ne_eq, not_true_eq_false, or_self, not_false_eq_true]

/-! ### PPS_OUT (R443) -/

/-- A change of PPS_OUT. -/
theorem execPpsOutSecond_changes {high up : Bool} {s : State}
    (h : (high && (s.time.phase == .master || s.time.phase == .locked || s.time.phase == .holdover)) = up)
    (hchange : up ≠ s.time.ppsHigh) :
    execPpsOutSecond high s = .next (emit (.pps up) (modTime (fun t => { t with ppsHigh := up }) s)) := by
  simp only [execPpsOutSecond, h, hchange, if_false]

theorem execPpsOutSecond_stays {high : Bool} {s : State}
    (h : (high && (s.time.phase == .master || s.time.phase == .locked || s.time.phase == .holdover)) =
      s.time.ppsHigh) : execPpsOutSecond high s = .next s := by
  simp only [execPpsOutSecond, h, if_true]

/-! ### A PTP message (R442) -/

section
variable {mport domain : Nat} {off : Int} {w : TieWait} {s : State}

/-- An exchange of the tie's domain on network A, with which fewer than sixteen offsets are known. -/
theorem execPtpMessageRx_collects (hm : mport < 4) (ht : s.time.tie = some w) (hs : w.source = 0)
    (hd : w.domain = domain) (hfew : w.offsets.length < 15) :
    execPtpMessageRx mport domain (some off) s = .next (modTime (fun t =>
      { t with tie := some { w with offsets := w.offsets ++ [off] } }) (countMgmt mport 0 s)) := by
  have hport : mport < 8 := by omega
  have hlength : (w.offsets ++ [off]).length < 16 := by
    rw [List.length_append, List.length_singleton]
    omega
  simp only [execPtpMessageRx, hport, hm, ht, hs, hd, hlength, decide_true, and_self, if_true, onUnit_true]

/-- With the sixteenth offset the tie gets its time. -/
theorem execPtpMessageRx_lands (hm : mport < 4) (ht : s.time.tie = some w) (hs : w.source = 0)
    (hd : w.domain = domain) (hmany : 15 ≤ w.offsets.length) :
    execPtpMessageRx mport domain (some off) s = .next (landTie w.origin
      ((s.clk.dev : Int) - medianInt (w.offsets ++ [off])).toNat (countMgmt mport 0 s)) := by
  have hport : mport < 8 := by omega
  have hlength : ¬(w.offsets ++ [off]).length < 16 := by
    rw [List.length_append, List.length_singleton]
    omega
  simp only [execPtpMessageRx, hport, hm, ht, hs, hd, hlength, decide_true, and_self, if_true, if_false, onUnit_true]

/-- A message that completes no exchange of the tie's is counted and ignored. -/
theorem execPtpMessageRx_ignored {exchange : Option Int} (hm : mport < 8) (ht : s.time.tie = some w)
    (hother : w.source ≠ 0 ∨ w.domain ≠ domain) :
    execPtpMessageRx mport domain exchange s = .next (countMgmt mport 2 (countMgmt mport 0 s)) := by
  have hnot : ¬(w.source = 0 ∧ w.domain = domain ∧ mport < 4) := by omega
  cases exchange with
  | none => simp only [execPtpMessageRx, hm, ht, decide_true, onUnit_true]
  | some off => simp only [execPtpMessageRx, hm, ht, hnot, decide_true, if_false, onUnit_true]

end

/-- Settles O54: each clause follows its event's meaning along the branch that the clause's conditions choose. -/
theorem timeEvents : Obligations.TimeEvents := by
  unfold Obligations.TimeEvents
  and_intros
  -- TIME_MSG_TICK
  · intro s hmaster
    change execTimeMsgTick s = _
    rw [execTimeMsgTick, if_pos hmaster]
  · intro s hother
    change execTimeMsgTick s = _
    rw [execTimeMsgTick, if_neg hother]
  -- TIME_MSG_RX
  · intro port pkt arrival s hk hunheard
    change execTimeMsgRx port pkt arrival s = _
    rw [execTimeMsgRx, hk, if_pos hunheard, onUnit_true]
  · intro port pkt arrival s hk hup hkind htype hparent
    change execTimeMsgRx port pkt arrival s = _
    simp only [execTimeMsgRx, hk, timeMsg_heard hup hkind htype, hparent, if_false, onUnit_true]
  · intro port pkt arrival off s hk hup hkind htype hparent hsample
    change execTimeMsgRx port pkt arrival s = _
    simp only [execTimeMsgRx, hk, timeMsg_heard hup hkind htype, hparent, hsample, if_true, if_false, onUnit_true]
  · intro port pkt arrival s hk hup hkind htype hparent hsample
    change execTimeMsgRx port pkt arrival s = _
    simp only [execTimeMsgRx, hk, timeMsg_heard hup hkind htype, hparent, hsample, if_true, if_false, onUnit_true]
  · intro port pkt arrival s hk
    change execTimeMsgRx port pkt arrival s = _
    rw [execTimeMsgRx, hk, onUnit_false]
  -- PARENT_LOST_TIMEOUT
  · intro p s hparent
    change execParentLostTimeout s = _
    simp only [execParentLostTimeout, hparent]
  · intro s hnone
    change execParentLostTimeout s = _
    simp only [execParentLostTimeout, hnone]
  -- GM_SEQ_STALL
  · intro port s hk
    change execGmSeqStall port s = _
    rw [execGmSeqStall, hk, onUnit_true]
  · intro port s hk
    change execGmSeqStall port s = _
    rw [execGmSeqStall, hk, onUnit_false]
  -- ACQUIRING_TIMEOUT
  · intro s hphase
    change execAcquiringTimeout s = _
    rw [execAcquiringTimeout, if_pos hphase]
  · intro s hother
    change execAcquiringTimeout s = _
    rw [execAcquiringTimeout, if_neg hother]
  -- ACCEPT_STEP_SAMPLE_TIMEOUT
  · intro a s haccept
    change execAcceptStepSampleTimeout s = _
    simp only [execAcceptStepSampleTimeout, haccept]
  · intro s hnone
    change execAcceptStepSampleTimeout s = _
    simp only [execAcceptStepSampleTimeout, hnone]
  -- PPS_IN_EDGE
  · intro w s htie hsource hphase
    change execPpsInEdge s = _
    simp only [execPpsInEdge, htie, hsource, landTie_unset hphase, if_true]
  · intro w s htie hsource hphase
    change execPpsInEdge s = _
    simp only [execPpsInEdge, htie, hsource, landTie_late hphase, if_true]
  · intro w s htie hsource
    change execPpsInEdge s = _
    simp only [execPpsInEdge, htie, hsource, if_false]
  · intro s hnone hphase hdiscipline hfar
    change execPpsInEdge s = _
    simp only [execPpsInEdge, hnone, hphase, hdiscipline, hfar, decide_true, Bool.and_self, if_true]
  · intro s hnone hphase hdiscipline hnear
    change execPpsInEdge s = _
    simp only [execPpsInEdge, hnone, hphase, hdiscipline, hnear, decide_true, Bool.and_self, Bool.false_eq_true,
      if_true, if_false]
  · intro s hnone hdiscipline
    change execPpsInEdge s = _
    simp only [execPpsInEdge, hnone, hdiscipline, Bool.and_false, Bool.false_eq_true, if_false]
  · intro s hnone hphase
    change execPpsInEdge s = _
    simp only [execPpsInEdge, hnone, hphase, decide_false, Bool.false_and, Bool.false_eq_true, if_false]
  -- PPS_OUT_SECOND
  · intro s hphase hlow
    have hheld : (true && (s.time.phase == .master || s.time.phase == .locked || s.time.phase == .holdover)) =
        true := by
      rcases hphase with h | h | h <;> rw [h] <;> rfl
    exact ⟨_, execPpsOutSecond_changes hheld (by rw [hlow]; decide), rfl, rfl⟩
  · intro s hphase hlow
    have hnone : (true && (s.time.phase == .master || s.time.phase == .locked || s.time.phase == .holdover)) =
        s.time.ppsHigh := by
      rcases hphase with h | h <;> rw [h, hlow] <;> rfl
    exact execPpsOutSecond_stays hnone
  · intro s hhigh
    exact ⟨_, execPpsOutSecond_changes (Bool.false_and _) (by rw [hhigh]; decide), rfl, rfl⟩
  · intro s hlow
    exact execPpsOutSecond_stays ((Bool.false_and _).trans hlow.symm)
  -- PTP_MESSAGE_RX
  · intro mport domain off w s hm htie hsource hdomain hfew
    exact execPtpMessageRx_collects hm htie hsource hdomain hfew
  · intro mport domain off w s hm htie hsource hdomain hmany hphase
    exact (execPtpMessageRx_lands hm htie hsource hdomain hmany).trans
      (congrArg _ (landTie_unset ((countMgmt_timePhase _ _ _).trans hphase)))
  · intro mport domain off w s hm htie hsource hdomain hmany hphase
    exact (execPtpMessageRx_lands hm htie hsource hdomain hmany).trans
      (congrArg _ (landTie_late (by rwa [countMgmt_timePhase])))
  · intro mport domain exchange s hm hnone
    change execPtpMessageRx mport domain exchange s = _
    simp only [execPtpMessageRx, hm, hnone, decide_true, onUnit_true]
  · intro mport domain exchange w s hm htie hother
    exact execPtpMessageRx_ignored hm htie hother
  · intro mport domain exchange s hm
    change execPtpMessageRx mport domain exchange s = _
    rw [execPtpMessageRx, decide_eq_false (Nat.not_lt.2 hm), onUnit_false]
  -- TIE_SOURCE_TIMEOUT
  · intro w s htie hsource
    change execTieSourceTimeout s = _
    simp only [execTieSourceTimeout, htie, hsource, if_true]
  · intro w s htie hsource
    change execTieSourceTimeout s = _
    simp only [execTieSourceTimeout, htie, hsource, if_false]
  · intro s hnone
    change execTieSourceTimeout s = _
    simp only [execTieSourceTimeout, hnone]

end Sys2Proof.Machine
end

section
/-! ## What every command leaves unchanged (00 0.2; 15 R493) -/

namespace Sys2Proof.Machine

theorem exec_changes {i : Instr} {s t : State} (h : exec i s = .next t) : OnlyChanges (mayChange i) s t := by
  have hframe := exec_frame i s
  rw [h] at hframe
  exact hframe

/-- No command has the queue of commands in its frame. -/
theorem queue_not_mem_mayChange (i : Instr) : Part.queue ∉ mayChange i := by
  have hout : (mayChange i).contains .queue = false := by cases i <;> rfl
  exact fun hmem => Bool.false_ne_true (hout.symm.trans (List.contains_iff_mem.mpr hmem))

/-- Settles O1: a step takes the command in front of the queue. -/
theorem stepRunsFront : Obligations.StepRunsFront := by
  unfold Obligations.StepRunsFront
  intro c rest s
  rfl

/-- Settles O3: the frame of each command's meaning. -/
theorem everyCommandFrame : Obligations.EveryCommandFrame := by
  unfold Obligations.EveryCommandFrame
  intro i s t h
  exact exec_changes h

/-- Settles O4: the queue is in no command's frame. -/
theorem queueUntouched : Obligations.QueueUntouched := by
  unfold Obligations.QueueUntouched
  intro i s t h
  exact exec_changes h .queue (queue_not_mem_mayChange i)

end Sys2Proof.Machine
end

section
/-! ## Responses: what answering and accepting a command do (15 R490 to R498) -/

namespace Sys2Proof.Machine

/-! ### One mailbox -/

/-- An entry that is not its key's default reads back. -/
theorem tabGet_tabSet_of_ne_default {α : Type} [DecidableEq α] {d : Nat → α} {n : Nat} {x : α} (t : Tab α) (h : x ≠ d n) :
    tabGet d (tabSet d t n x) n = x := by
  rw [tabSet, if_neg h, tabGet, tabGet?_tabPut_self]
  rfl

theorem mailbox_modMailbox {mb : Nat} {f : Mailbox → Mailbox} {s : State} (h : f (mailbox s mb) ≠ mailboxReset mb) :
    mailbox (modMailbox mb f s) mb = f (mailbox s mb) :=
  tabGet_tabSet_of_ne_default _ h

/-- A mailbox that lists an outstanding command is not at reset. -/
theorem ne_mailboxReset_of_outstanding {m : Mailbox} {mb : Nat} (h : m.outstanding ≠ []) : m ≠ mailboxReset mb :=
  fun hm => h (congrArg Mailbox.outstanding hm)

theorem ne_mailboxReset_of_kept {m : Mailbox} {mb : Nat} (h : m.kept ≠ []) : m ≠ mailboxReset mb :=
  fun hm => h (congrArg Mailbox.kept hm)

theorem ne_mailboxReset_of_unsent {m : Mailbox} {mb : Nat} (h : m.unsent ≠ []) : m ≠ mailboxReset mb :=
  fun hm => h (congrArg Mailbox.unsent hm)

/-- An operation whose frame leaves the mailboxes out. -/
theorem OnlyChanges.mailbox {ps : List Part} {s t : State} (h : OnlyChanges ps s t) (mb : Nat)
    (hp : Part.mailboxes ∉ ps := by decide) : Machine.mailbox t mb = Machine.mailbox s mb := by
  obtain ⟨hmailboxes, _⟩ := h .mailboxes hp
  rw [Machine.mailbox, hmailboxes]
  rfl

theorem OnlyChanges.bootField {ps : List Part} {s t : State} (h : OnlyChanges ps s t)
    (hp : Part.flash ∉ ps := by decide) : Machine.bootField t = Machine.bootField s := by
  obtain ⟨hcfg, _⟩ := h .flash hp
  rw [Machine.bootField, hcfg]
  rfl

theorem OnlyChanges.out {ps : List Part} {s t : State} (h : OnlyChanges ps s t)
    (hp : Part.out ∉ ps := by decide) : t.out = s.out :=
  h .out hp

@[simp] theorem mailbox_freeCore (ran : Bool) (s : State) (mb : Nat) : mailbox (freeCore ran s) mb = mailbox s mb := by
  unfold freeCore
  split <;> rfl

/-! ### Sending a response (R479, R494) -/

theorem emitResponse_out (mb : Nat) (r : KeptResponse) (via : Option Via) (s : State) :
    (emitResponse mb r via s).out =
      s.out ++ [.response mb r.seq r.opcode r.status r.credits (bootField s) r.body via] := by
  unfold emitResponse
  cases via with
  | none => rfl
  | some v => exact (countTx_frame _ _ _).out

theorem emitResponse_mailbox (mb : Nat) (r : KeptResponse) (via : Option Via) (s : State) (n : Nat) :
    mailbox (emitResponse mb r via s) n = mailbox s n :=
  (emitResponse_frame mb r via s).mailbox n

theorem sendResponse_out (mb : Nat) (r : KeptResponse) (s : State) : ∃ via, (sendResponse mb r s).out =
    s.out ++ [.response mb r.seq r.opcode r.status r.credits (bootField s) r.body via] := by
  unfold sendResponse
  extract_lets via
  split
  · exact ⟨none, emitResponse_out _ _ _ _⟩
  · exact ⟨via, emitResponse_out _ _ _ _⟩

/-- Sending a response changes at most the list of responses that wait for a port. -/
theorem sendResponse_mailbox (mb : Nat) (r : KeptResponse) (s : State) :
    ∃ unsent, mailbox (sendResponse mb r s) mb = { mailbox s mb with unsent := unsent } := by
  unfold sendResponse
  extract_lets via
  split
  · refine ⟨(mailbox s mb).unsent ++ [r], (emitResponse_mailbox _ _ _ _ _).trans ?_⟩
    exact mailbox_modMailbox (ne_mailboxReset_of_unsent (List.append_ne_nil_of_right_ne_nil _ (List.cons_ne_nil _ _)))
  · exact ⟨(mailbox s mb).unsent, emitResponse_mailbox _ _ _ _ _⟩

theorem sendResponse_outstanding (mb : Nat) (r : KeptResponse) (s : State) :
    (mailbox (sendResponse mb r s) mb).outstanding = (mailbox s mb).outstanding := by
  obtain ⟨unsent, hmailbox⟩ := sendResponse_mailbox mb r s
  rw [hmailbox]

theorem sendResponse_kept (mb : Nat) (r : KeptResponse) (s : State) :
    (mailbox (sendResponse mb r s) mb).kept = (mailbox s mb).kept := by
  obtain ⟨unsent, hmailbox⟩ := sendResponse_mailbox mb r s
  rw [hmailbox]

/-! ### Answering (R492, R495, R496) -/

/-- What an answer is: a response sent from a state in which it is kept and its command is no longer outstanding. -/
theorem answer_sends (o : Origin) (op : Nat) (st : Status) (ws : List Word) (s : State) : ∃ (r : KeptResponse) (x : State),
    r.seq = o.seq ∧ r.opcode = op ∧ r.status = statusCode st ∧ r.body = ws ∧
    (mailbox x o.mailbox).kept = (r :: (mailbox s o.mailbox).kept).take 64 ∧
    (mailbox x o.mailbox).outstanding = (mailbox s o.mailbox).outstanding.filter (fun c => !(c.seq == o.seq)) ∧
    OnlyChanges [.recoveryLog, .events, .mailboxes, .counters, .crumbs] s x ∧
    OnlyChanges [.recoveryLog, .counters, .crumbs] (sendResponse o.mailbox r x) (answer o op st ws s) := by
  unfold answer
  extract_lets ended r s1
  have hkept : mailbox s1 o.mailbox =
      { ended (mailbox s o.mailbox) with kept := (r :: (mailbox s o.mailbox).kept).take 64 } := by
    refine (mailbox_modMailbox (ne_mailboxReset_of_kept ?_)).trans ?_
    · rw [List.take_succ_cons]
      exact List.cons_ne_nil _ _
    · rw [mailbox_freeCore]
  have hcounted := countStatus_frame o.mailbox st s1
  refine ⟨r, countStatus o.mailbox st s1, rfl, rfl, rfl, rfl, ?_, ?_, ?_, traceCrumb_frame _ _ _ _ _ _⟩
  · rw [hcounted.mailbox, hkept]
  · rw [hcounted.mailbox, hkept]
  · exact ((freeCore_frame _ s).mono (by decide)).trans
      (((modMailbox_frame _ _ _).mono (by decide)).trans (hcounted.mono (by decide)))

theorem answer_responds (o : Origin) (op : Nat) (st : Status) (ws : List Word) (s : State) :
    Responds o op (statusCode st) ws s (answer o op st ws s) := by
  obtain ⟨r, x, hseq, hop, hstatus, hbody, _, _, hx, ht⟩ := answer_sends o op st ws s
  obtain ⟨via, hsent⟩ := sendResponse_out o.mailbox r x
  refine ⟨[], r.credits, via, [], ?_⟩
  rw [ht.out, hsent, hx.out, ht.bootField, (sendResponse_frame _ _ _).bootField, hseq, hop, hstatus, hbody]
  simp only [List.append_nil]

theorem answer_outstanding (o : Origin) (op : Nat) (st : Status) (ws : List Word) (s : State) :
    outstandingOf (answer o op st ws s) o = none := by
  obtain ⟨r, x, _, _, _, _, _, houtstanding, _, ht⟩ := answer_sends o op st ws s
  rw [outstandingOf, ht.mailbox, sendResponse_outstanding, houtstanding, List.find?_eq_none]
  intro c hc
  simpa using (List.mem_filter.1 hc).2

theorem answer_kept (o : Origin) (op : Nat) (st : Status) (ws : List Word) (s : State) :
    ∃ r, (mailbox (answer o op st ws s) o.mailbox).kept = (r :: (mailbox s o.mailbox).kept).take 64 ∧
      r.seq = o.seq ∧ r.opcode = op ∧ r.status = statusCode st ∧ r.body = ws := by
  obtain ⟨r, x, hseq, hop, hstatus, hbody, hkept, _, _, ht⟩ := answer_sends o op st ws s
  exact ⟨r, by rw [ht.mailbox, sendResponse_kept, hkept], hseq, hop, hstatus, hbody⟩

/-- Settles O7: an answer is a response sent from a state in which it is kept and its command has ended. -/
theorem answerSays : Obligations.AnswerSays := by
  unfold Obligations.AnswerSays
  intro o op st ws s
  obtain ⟨r, hkept, hseq, hop, hstatus, hbody⟩ := answer_kept o op st ws s
  refine ⟨answer_responds o op st ws s, answer_outstanding o op st ws s, ⟨r, ?_, hop, hstatus, hbody⟩, ?_,
    answer_frame o op st ws s⟩
  · rw [keptOf, hkept, List.take_succ_cons, List.find?_cons_of_pos (by simp only [hseq, beq_self_eq_true])]
  · rw [hkept]
    exact List.length_take_le _ _

/-! ### Accepting (R493, R496, R498) -/

theorem reject_outstanding (o : Origin) (op : Nat) (st : Status) (ws : List Word) (s : State) :
    outstandingOf (reject o op st ws s) o = outstandingOf s o := by
  rw [outstandingOf, reject, sendResponse_outstanding, (countStatus_frame _ _ _).mailbox]
  rfl

theorem sendAccepted_outstanding (o : Origin) (op : Nat) (s : State) :
    outstandingOf (sendAccepted o op s) o = outstandingOf s o :=
  reject_outstanding o op .accepted [] s

theorem outstandingOf_freeCore (ran : Bool) (s : State) (o : Origin) :
    outstandingOf (freeCore ran s) o = outstandingOf s o := by
  rw [outstandingOf, mailbox_freeCore]
  rfl

/-- The outstanding command of a sender after the list of its mailbox's outstanding commands has changed. -/
theorem outstandingOf_modMailbox {o : Origin} {f : List Outstanding → List Outstanding} {c : Outstanding} {s : State}
    (h : (f (mailbox s o.mailbox).outstanding).find? (fun c => c.seq == o.seq) = some c) :
    outstandingOf (modMailbox o.mailbox (fun m => { m with outstanding := f m.outstanding }) s) o = some c := by
  have hnonempty : f (mailbox s o.mailbox).outstanding ≠ [] := by
    intro hnil
    rw [hnil] at h
    exact Option.some_ne_none _ h.symm
  rw [outstandingOf, mailbox_modMailbox (ne_mailboxReset_of_outstanding hnonempty)]
  exact h

/-- The command that a sender finds after each command of its SEQ has been changed, with its SEQ as it was. -/
theorem find?_map_seq {q : Nat} {f : Outstanding → Outstanding} {c : Outstanding} (hf : ∀ c, (f c).seq = c.seq) :
    ∀ {l : List Outstanding}, l.find? (fun c => c.seq == q) = some c →
      (l.map (fun c => if c.seq = q then f c else c)).find? (fun c => c.seq == q) = some (f c) := by
  intro l h
  rw [List.find?_map]
  have hsame : ((fun c : Outstanding => c.seq == q) ∘ fun c => if c.seq = q then f c else c) = fun c => c.seq == q := by
    funext d
    dsimp only [Function.comp]
    split
    · rw [hf]
    · rfl
  have hseq : c.seq = q := by simpa using List.find?_some h
  rw [hsame, h, Option.map_some, if_pos hseq]

/-- After it is accepted a command is outstanding with one step done: the one that was outstanding, or the one that
enters. -/
theorem accept_outstanding (o : Origin) (op : Nat) (grace : Option Nat) (tell : Bool) (s : State) : ∃ c,
    outstandingOf (accept o op grace tell s) o = some c ∧ c.stepsDone = 1 ∧ c.running = false ∧
    (outstandingOf s o = none → c.opcode = op) := by
  unfold accept
  extract_lets begun s1 sBegun new sEntered
  rw [← show outstandingOf s1 o = outstandingOf s o from outstandingOf_freeCore _ _ _]
  clear_value s1
  cases hc : outstandingOf s1 o with
  | some c =>
    have hbegun : outstandingOf sBegun o = some (begun c) := outstandingOf_modMailbox
      (f := fun l => l.map (fun c => if c.seq = o.seq then begun c else c)) (find?_map_seq (f := begun) (fun _ => rfl) hc)
    refine ⟨begun c, ?_, rfl, rfl, fun hnone => absurd hnone (Option.some_ne_none c)⟩
    dsimp only
    split
    · exact hbegun
    · exact (sendAccepted_outstanding _ _ _).trans hbegun
  | none =>
    have hentered : outstandingOf sEntered o = some new := by
      refine outstandingOf_modMailbox (f := (· ++ [new])) ?_
      rw [List.find?_append, show List.find? _ _ = none from hc, Option.none_or]
      exact List.find?_cons_of_pos (beq_self_eq_true _)
    refine ⟨new, ?_, rfl, rfl, fun _ => rfl⟩
    dsimp only
    split
    · exact (sendAccepted_outstanding _ _ _).trans hentered
    · exact hentered

/-- Settles O8: the accepted command stays outstanding, and accepting has its frame. -/
theorem acceptSays : Obligations.AcceptSays := by
  unfold Obligations.AcceptSays
  intro o op grace tell s
  obtain ⟨c, hc, hsteps, hrunning, hentered⟩ := accept_outstanding o op grace tell s
  exact ⟨c, hc, hsteps, hrunning, hentered, accept_frame o op grace tell s⟩

end Sys2Proof.Machine
end

section
/-! ## How a command is treated by its SEQ and its checks (15 R490, R495, R497) -/

namespace Sys2Proof.Machine

/-- What follows a command that has begun work under a number of its own: nothing where the number has not moved. -/
def onMove (number : State → Nat) (s : State) (goOn : State → State) (t : State) : State :=
  if number t = number s then t else goOn t

theorem onMove_same {number : State → Nat} {s t : State} {goOn : State → State} (h : number t = number s) :
    onMove number s goOn t = t :=
  if_pos h

theorem nextOpen_of_answerParts {s t : State} (h : OnlyChanges answerParts s t) : t.loaf.nextOpen = s.loaf.nextOpen := by
  obtain ⟨_, _, _, _, _, hnext, _⟩ := h .loafs (by decide)
  exact hnext

theorem nextAsk_of_answerParts {s t : State} (h : OnlyChanges answerParts s t) : t.gran.nextAsk = s.gran.nextAsk := by
  obtain ⟨_, _, hnext, _⟩ := h .mirrors (by decide)
  exact hnext

/-- Each command of the contract runs through the one operation of R497 with rules of its own. The three that ask other
spines go on when they have begun to, and nothing goes on where only the answer's own parts changed. -/
theorem exec_of_commandOf {i : Instr} {o : Origin} {op : Nat} (h : commandOf i = some (o, op)) (s : State) :
    ∃ (body : State → CmdOutcome) (goOn : State → State), exec i s = .next (goOn (runCommand o op body s)) ∧
      ∀ t, OnlyChanges answerParts s t → goOn t = t := by
  cases i with
  | loafOpen sender gid params =>
    cases h
    exact ⟨_, onMove (·.loaf.nextOpen) s (placeRound s.loaf.nextOpen), rfl,
      fun t ht => onMove_same (number := (·.loaf.nextOpen)) (nextOpen_of_answerParts ht)⟩
  | loafClose sender gid recipe grace =>
    cases h
    exact ⟨_, onMove (·.loaf.nextOpen) s (beginClose o s.loaf.nextOpen gid recipe), rfl,
      fun t ht => onMove_same (number := (·.loaf.nextOpen)) (nextOpen_of_answerParts ht)⟩
  | granaryMirrorOpen sender shard owner tags generation size replicas =>
    cases h
    exact ⟨_, onMove (·.gran.nextAsk) s (askNext s.gran.nextAsk), rfl,
      fun t ht => onMove_same (number := (·.gran.nextAsk)) (nextAsk_of_answerParts ht)⟩
  | _ => cases h <;> exact ⟨_, id, rfl, fun _ _ => rfl⟩

/-- A command that is not executed, whatever its own rules, ends there when only the answer's own parts changed. -/
theorem exec_of_runCommand {i : Instr} {o : Origin} {op : Nat} {s t : State} (h : commandOf i = some (o, op))
    (hrun : ∀ body, runCommand o op body s = t) (ht : OnlyChanges answerParts s t) : exec i s = .next t := by
  obtain ⟨body, goOn, hexec, hstays⟩ := exec_of_commandOf h s
  rw [hexec, hrun, hstays t ht]

section
variable {o : Origin} {op : Nat} {s : State} (body : State → CmdOutcome)

theorem runCommand_notListening (hl : listening s = false) : runCommand o op body s = s := by
  simp only [runCommand, hl, Bool.not_false, if_true]

theorem runCommand_closed (hl : listening s = true) (hm : mailboxOpen o s = false) :
    runCommand o op body s = reject o op .denied [] (filterCommand o op s) := by
  simp only [runCommand, hl, hm, Bool.not_true, Bool.not_false, Bool.false_eq_true, if_true, if_false]

theorem runCommand_outstanding {c : Outstanding} (hl : listening s = true) (hm : mailboxOpen o s = true)
    (hc : outstandingOf s o = some c) (hagain : ¬(c.opcode = op ∧ c.running ∧ c.stepsDone = 0)) :
    runCommand o op body s = sendAccepted o c.opcode s := by
  simp only [runCommand, hl, hm, hc, hagain, Bool.not_true, Bool.false_eq_true, if_false]

theorem runCommand_kept {r : KeptResponse} (hl : listening s = true) (hm : mailboxOpen o s = true)
    (hc : outstandingOf s o = none) (hr : keptOf s o = some r) :
    runCommand o op body s = sendResponse o.mailbox r s := by
  simp only [runCommand, hl, hm, hc, hr, Bool.not_true, Bool.false_eq_true, if_false]

theorem runCommand_oldSeq (hl : listening s = true) (hm : mailboxOpen o s = true) (hc : outstandingOf s o = none)
    (hr : keptOf s o = none) (hseq : seqNew (mailbox s o.mailbox) o.seq = false) :
    runCommand o op body s = reject o op .conflict [] s := by
  simp only [runCommand, hl, hm, hc, hr, hseq, Bool.not_true, Bool.not_false, Bool.false_eq_true, if_true, if_false]

theorem runCommand_turnedAway {st : Status} (hl : listening s = true) (hm : mailboxOpen o s = true)
    (hc : outstandingOf s o = none) (hr : keptOf s o = none) (hseq : seqNew (mailbox s o.mailbox) o.seq = true)
    (hcheck : admitCheck o op (filterCommand o op s) = some st) :
    runCommand o op body s = reject o op st [] (filterCommand o op s) := by
  simp only [runCommand, hl, hm, hc, hr, hseq, hcheck, Bool.not_true, Bool.false_eq_true, if_false]

end

theorem reject_filtered_frame (o : Origin) (op : Nat) (st : Status) (s : State) :
    OnlyChanges answerParts s (reject o op st [] (filterCommand o op s)) :=
  ((filterCommand_frame o op s).mono (by decide)).trans (reject_frame _ _ _ _ _)

/-- Settles O6: every command of the contract runs through one operation, which takes these branches. -/
theorem commandsBySeq : Obligations.CommandsBySeq := by
  unfold Obligations.CommandsBySeq
  intro i o op s hi
  refine ⟨fun hl => ?notListening, fun hl hm => ?closed, fun hl hm => ⟨fun c hc hagain => ?outstanding,
    fun hc => ⟨fun r hr => ?kept, fun hr => ⟨fun hseq => ?oldSeq, fun st hseq hcheck => ?turnedAway⟩⟩⟩⟩
  case notListening => exact exec_of_runCommand hi (runCommand_notListening · hl) (OnlyChanges.refl _ _)
  case closed => exact exec_of_runCommand hi (runCommand_closed · hl hm) (reject_filtered_frame _ _ _ _)
  case outstanding => exact exec_of_runCommand hi (runCommand_outstanding · hl hm hc hagain) (sendAccepted_frame _ _ _)
  case kept => exact exec_of_runCommand hi (runCommand_kept · hl hm hc hr) (sendResponse_frame _ _ _)
  case oldSeq => exact exec_of_runCommand hi (runCommand_oldSeq · hl hm hc hr hseq) (reject_frame _ _ _ _ _)
  case turnedAway =>
    exact exec_of_runCommand hi (runCommand_turnedAway · hl hm hc hr hseq hcheck) (reject_filtered_frame _ _ _ _)

end Sys2Proof.Machine
end

section
/-! ## The throttle depths and the power cap (16 R530; 20 R630 to R633)

Four depths from 0 to 15 and a cap of 0 or 1,000 to 2,800 W: an evaluation moves one depth within its range, POWER.CAP
takes no other cap, and a start or a loss of power sets the depths and the cap to 0. Nothing else has them in its frame. -/

namespace Sys2Proof.Machine

/-! ### Along an operation -/

/-- One more operation, whose frame leaves the throttle and the cap out. -/
theorem PowerInv.frame {ps : List Part} {s t : State} (hs : PowerInv s) (h : OnlyChanges ps s t)
    (hthrottle : Part.throttle ∉ ps := by decide) (hcap : Part.powerCap ∉ ps := by decide) : PowerInv t := by
  obtain ⟨_, hdepthSame, _⟩ := h .throttle hthrottle
  have hcapSame : t.power.cap = s.power.cap := h .powerCap hcap
  rw [PowerInv, hdepthSame, hcapSame]
  exact hs

/-- One more operation, which leaves the power state as it is. -/
theorem PowerInv.same {s t : State} (hs : PowerInv s) (h : t.power = s.power) : PowerInv t := by
  rw [PowerInv, h]
  exact hs

theorem modStart_powerInv (f : StartState → StartState) {s : State} (h : PowerInv s) : PowerInv (modStart f s) := by
  rw [PowerInv, modStart_power_depth, modStart_power_cap]
  exact h

theorem modTele_powerInv (f : TeleState → TeleState) {s : State} (h : PowerInv s) : PowerInv (modTele f s) :=
  h.same (modTele_power f s)

/-- A change of the power state that leaves the depths and the cap as they are. -/
theorem modPower_powerInv {f : PowerState → PowerState} {s : State} (h : PowerInv s)
    (hdepth : ∀ p, (f p).depth = p.depth) (hcap : ∀ p, (f p).cap = p.cap) : PowerInv (modPower f s) := by
  rw [PowerInv, modPower_power, hdepth, hcap]
  exact h

theorem withMgmt_powerInv (m : MgmtState) {s : State} (h : PowerInv s) : PowerInv { s with mgmt := m } :=
  h.same rfl

/-- A power state without throttling and without a cap. -/
theorem powerInv_of_unthrottled {s : State} (hdepth : s.power.depth = [0, 0, 0, 0]) (hcap : s.power.cap = 0) :
    PowerInv s := by
  rw [PowerInv, hdepth, hcap]
  exact ⟨rfl, by decide, Or.inl rfl⟩

/-- Settles O12: reset has no throttling and no cap. -/
theorem powerInvAtReset : Obligations.PowerInvAtReset :=
  powerInv_of_unthrottled rfl rfl

/-- An outcome that goes on has a legal throttle and cap. -/
def NextPowerInv (r : Host.Outcome State Fault Refusal) : Prop :=
  match r with
  | .next t => PowerInv t
  | _ => True

theorem next_powerInv {t : State} (h : PowerInv t) : NextPowerInv (.next t) := h

theorem NextChanges.powerInv {ps : List Part} {s : State} {r : Host.Outcome State Fault Refusal}
    (h : NextChanges ps s r) (hs : PowerInv s) (hthrottle : Part.throttle ∉ ps) (hcap : Part.powerCap ∉ ps) :
    NextPowerInv r := by
  cases r with
  | next t => exact hs.frame h hthrottle hcap
  | fault _ => exact True.intro
  | refused _ => exact True.intro

/-! ### The depths of an evaluation (R631) -/

theorem deeper_length (ds : List Nat) : (deeper ds).length = ds.length := by
  induction ds with
  | nil => rfl
  | cons d ds ih =>
    unfold deeper
    split
    · rfl
    · rw [List.length_cons, List.length_cons, ih]

theorem deeper_le {ds : List Nat} (h : ∀ d ∈ ds, d ≤ 15) : ∀ d ∈ deeper ds, d ≤ 15 := by
  induction ds with
  | nil => exact h
  | cons d ds ih =>
    obtain ⟨hd, hds⟩ := List.forall_mem_cons.1 h
    unfold deeper
    split
    · exact List.forall_mem_cons.2 ⟨by omega, hds⟩
    · exact List.forall_mem_cons.2 ⟨hd, ih hds⟩

/-- One stage of the walk of `shallower`, from the highest stage down: the depths walked, and whether one was lowered. -/
def lowerStage (a : List Nat × Bool) (d : Nat) : List Nat × Bool :=
  if a.2 || d = 0 then (d :: a.1, a.2) else ((d - 1) :: a.1, true)

theorem shallower_eq (ds : List Nat) : shallower ds = (ds.reverse.foldl lowerStage ([], false)).1 := rfl

/-- The walk adds to the depths walked one for each stage, no deeper than the stage was. -/
theorem lowerStage_cons (a : List Nat × Bool) (d : Nat) : ∃ e ≤ d, (lowerStage a d).1 = e :: a.1 := by
  unfold lowerStage
  split
  · exact ⟨d, Nat.le_refl d, rfl⟩
  · exact ⟨d - 1, Nat.sub_le d 1, rfl⟩

theorem foldl_lowerStage_length (ds : List Nat) (a : List Nat × Bool) :
    (ds.foldl lowerStage a).1.length = ds.length + a.1.length := by
  induction ds generalizing a with
  | nil => exact (Nat.zero_add _).symm
  | cons d ds ih =>
    obtain ⟨e, _, he⟩ := lowerStage_cons a d
    rw [List.foldl_cons, ih, he, List.length_cons, List.length_cons, Nat.add_right_comm, Nat.add_assoc]

theorem foldl_lowerStage_le {ds : List Nat} {a : List Nat × Bool} (hds : ∀ d ∈ ds, d ≤ 15) (ha : ∀ d ∈ a.1, d ≤ 15) :
    ∀ d ∈ (ds.foldl lowerStage a).1, d ≤ 15 := by
  induction ds generalizing a with
  | nil => exact ha
  | cons d ds ih =>
    obtain ⟨hd, hrest⟩ := List.forall_mem_cons.1 hds
    obtain ⟨e, hle, he⟩ := lowerStage_cons a d
    refine ih hrest ?_
    rw [he]
    exact List.forall_mem_cons.2 ⟨hle.trans hd, ha⟩

theorem shallower_length (ds : List Nat) : (shallower ds).length = ds.length := by
  rw [shallower_eq, foldl_lowerStage_length, List.length_reverse]
  rfl

theorem shallower_le {ds : List Nat} (h : ∀ d ∈ ds, d ≤ 15) : ∀ d ∈ shallower ds, d ≤ 15 :=
  foldl_lowerStage_le (fun d hd => h d (List.mem_reverse.1 hd)) (fun _ hd => absurd hd List.not_mem_nil)

/-- An evaluation goes one step deeper, one step back, or leaves the depths. -/
theorem evaluateThrottle_depth (t : Telemetry) (p : PowerState) :
    (evaluateThrottle t p).depth = deeper p.depth ∨ (evaluateThrottle t p).depth = shallower p.depth ∨
      (evaluateThrottle t p).depth = p.depth := by
  unfold evaluateThrottle
  extract_lets above under run depth full
  by_cases habove : above
  · exact Or.inl (if_pos habove)
  by_cases hrun : 10 ≤ run
  · exact Or.inr (Or.inl ((if_neg habove).trans (if_pos hrun)))
  · exact Or.inr (Or.inr ((if_neg habove).trans (if_neg hrun)))

/-- An evaluation of the throttle keeps the cap, and four depths from 0 to 15. -/
theorem evaluateThrottle_powerInv (t : Telemetry) {s : State} (h : PowerInv s) :
    PowerInv (modPower (evaluateThrottle t) s) := by
  obtain ⟨hlength, hdepths, hcap⟩ := h
  have hcapSame : (evaluateThrottle t s.power).cap = s.power.cap := rfl
  rw [PowerInv, modPower_power, hcapSame]
  rcases evaluateThrottle_depth t s.power with hd | hd | hd <;> rw [hd]
  · exact ⟨(deeper_length _).trans hlength, deeper_le hdepths, hcap⟩
  · exact ⟨(shallower_length _).trans hlength, shallower_le hdepths, hcap⟩
  · exact ⟨hlength, hdepths, hcap⟩

theorem execThrottleEvaluation_powerInv (t : Telemetry) {s : State} (h : PowerInv s) :
    NextPowerInv (execThrottleEvaluation t s) := by
  refine next_powerInv ?_
  split
  · extract_lets s1
    have hevaluated : PowerInv s1 := evaluateThrottle_powerInv t h
    split
    · exact hevaluated
    · exact hevaluated.frame (raise15_frame _ _ _)
  · exact h

theorem execCapUnattainable_powerInv {s : State} (h : PowerInv s) : NextPowerInv (execCapUnattainable s) := by
  refine next_powerInv ?_
  split
  · refine PowerInv.frame ?_ (raise15_frame _ _ _)
    exact modPower_powerInv h (fun _ => rfl) (fun _ => rfl)
  · exact h

/-! ### POWER.CAP (16 R530) -/

theorem execPowerCap_powerInv (o : Origin) (watts : Nat) {s : State} (h : PowerInv s) :
    NextPowerInv (execPowerCap o watts s) := by
  refine next_powerInv (runCommand_keeps (P := PowerInv) (fun hx hc => hx.frame hc) _ _ (fun x hx => ?_) h)
  split
  · exact hx
  · obtain ⟨hlength, hdepths, _⟩ := hx
    have hlegal : watts = 0 ∨ 1000 ≤ watts ∧ watts ≤ 2800 := by omega
    exact ⟨hlength, hdepths, hlegal⟩

/-! ### Starts and losses of power (17 R538 to R563) -/

theorem clearChip_powerInv (s : State) : PowerInv (clearChip s) := powerInv_of_unthrottled rfl rfl
theorem clearAll_powerInv (s : State) : PowerInv (clearAll s) := powerInv_of_unthrottled rfl rfl

theorem coldHold_powerInv (s : State) : PowerInv (coldHold s) := modStart_powerInv _ (clearAll_powerInv s)

theorem dropPower_powerInv (s : State) : PowerInv (dropPower s) :=
  modPower_powerInv (coldHold_powerInv s) (fun _ => rfl) (fun _ => rfl)

theorem latchOff_powerInv (s : State) : PowerInv (latchOff s) :=
  modPower_powerInv (dropPower_powerInv s) (fun _ => rfl) (fun _ => rfl)

theorem coldPrepared_powerInv (o : StartOutcome) (s : State) : PowerInv (coldPrepared o s) := by
  refine PowerInv.frame (modStart_powerInv _ ?_) (storeNow_frame _ _)
  exact modPower_powerInv (clearAll_powerInv s) (fun _ => rfl) (fun _ => rfl)

theorem warmPrepared_powerInv (e : Escalation) (s : State) : PowerInv (warmPrepared e s) := by
  unfold warmPrepared
  extract_lets s1
  exact modStart_powerInv _ ((clearChip_powerInv s1).frame (holdAll_frame _))

theorem holdModule_powerInv (e : Escalation) (s : State) : PowerInv (holdModule e s) := by
  unfold holdModule
  extract_lets seq s1 net s2
  have hdark : PowerInv s2 := modStart_powerInv _ ((clearChip_powerInv s1).frame (darkOptics_frame _))
  exact ((withMgmt_powerInv _ hdark).frame (releaseOnly_frame _ _)).frame (mgmtUp_frame _ _)

theorem execColdStart_powerInv (o : StartOutcome) {s : State} (h : PowerInv s) : NextPowerInv (execColdStart o s) := by
  refine next_powerInv ?_
  split
  · exact h
  · extract_lets s2
    have hprepared : PowerInv s2 := coldPrepared_powerInv _ _
    split
    · exact hprepared.frame (enterRecovery_frame _)
    split
    · exact modStart_powerInv _ (hprepared.frame (lockIslands_frame _ _))
    split
    · exact (hprepared.frame (storeNow_frame _ _)).frame (enterRecovery_frame _)
    · exact (modStart_powerInv _ hprepared).frame (coldRun_frame _ _)

theorem execWarmStart_powerInv (o : StartOutcome) {s : State} (h : PowerInv s) : NextPowerInv (execWarmStart o s) := by
  refine next_powerInv ?_
  split
  · exact h
  split
  · exact (h.frame (dropAsked_frame _ _)).frame (escalate_frame _ _ _ _ _)
  · extract_lets s2 s3 r
    have hprepared : PowerInv s2 := warmPrepared_powerInv _ _
    have hcounted : PowerInv s3 := hprepared.frame (storeNow_frame _ _)
    split
    · exact hprepared.frame (failStart_frame _ _)
    split
    · exact hcounted.frame (warmRun_frame _ _ _ _)
    split
    · exact ((clearAll_powerInv s3).frame (storeNow_frame _ _)).frame (enterRecovery_frame _)
    · exact (modStart_powerInv _ hcounted).frame (warmRun_frame _ _ _ _)

theorem execStartTimeout_powerInv (step : Nat) {s : State} (h : PowerInv s) :
    NextPowerInv (execStartTimeout step s) := by
  refine next_powerInv ?_
  split
  · refine (modStart_powerInv _ ?_).frame (failStart_frame _ _)
    split
    · exact h.frame (countStart_frame _)
    · exact h
  split
  · refine PowerInv.frame ?_ (failStart_frame _ _)
    split
    · exact (warmPrepared_powerInv _ _).frame (countStart_frame _)
    · exact warmPrepared_powerInv _ _
  · exact h

theorem execModuleCycleHold_powerInv {s : State} (h : PowerInv s) : NextPowerInv (execModuleCycleHold s) := by
  refine next_powerInv ?_
  split
  · exact h
  · exact holdModule_powerInv _ _

theorem execJtagInstructionLoad_powerInv (code : Nat) {s : State} (h : PowerInv s) :
    NextPowerInv (execJtagInstructionLoad code s) := by
  refine next_powerInv ?_
  split
  · exact h
  split
  · exact modStart_powerInv _ (modTele_powerInv _ (coldHold_powerInv s))
  · exact modTele_powerInv _ (h.frame (leaveTest_frame _))

theorem execRefclkLoss_powerInv {s : State} (h : PowerInv s) : NextPowerInv (execRefclkLoss s) := by
  refine next_powerInv ?_
  split
  · exact modStart_powerInv _ (modPower_powerInv (coldHold_powerInv s) (fun _ => rfl) (fun _ => rfl))
  · exact h

theorem execThermalTrip_powerInv {s : State} (h : PowerInv s) : NextPowerInv (execThermalTrip s) := by
  refine next_powerInv ?_
  split
  · exact modPower_powerInv (coldHold_powerInv s) (fun _ => rfl) (fun _ => rfl)
  · exact h

/-! ### Every step -/

/-- Every command keeps the throttle and the cap legal. -/
theorem exec_powerInv (i : Instr) {s : State} (h : PowerInv s) : NextPowerInv (exec i s) := by
  by_cases hm : ((mayChange i).contains .throttle || (mayChange i).contains .powerCap) = true
  · cases i with
    | throttleEvaluation t => exact execThrottleEvaluation_powerInv t h
    | capUnattainable => exact execCapUnattainable_powerInv h
    | powerCap o watts => exact execPowerCap_powerInv o watts h
    | inputUndervoltage => exact dropPower_powerInv s
    | inputOvervoltage => exact latchOff_powerInv s
    | inputOvercurrent => exact latchOff_powerInv s
    | latchClear => exact modPower_powerInv (dropPower_powerInv s) (fun _ => rfl) (fun _ => rfl)
    | supplyLoss => exact dropPower_powerInv s
    | modRstNAssert => exact coldHold_powerInv _
    | coldStart o => exact execColdStart_powerInv o h
    | startTimeout step => exact execStartTimeout_powerInv step h
    | warmStart o => exact execWarmStart_powerInv o h
    | refclkLoss => exact execRefclkLoss_powerInv h
    | thermalTrip => exact execThermalTrip_powerInv h
    | jtagInstructionLoad code => exact execJtagInstructionLoad_powerInv code h
    | moduleCycleHold => exact execModuleCycleHold_powerInv h
    | _ => exact absurd hm Bool.false_ne_true
  · rw [Bool.or_eq_true, not_or] at hm
    obtain ⟨hthrottle, hcap⟩ := hm
    exact (exec_frame i s).powerInv h (fun hmem => hthrottle (List.contains_iff_mem.mpr hmem))
      (fun hmem => hcap (List.contains_iff_mem.mpr hmem))

/-- Settles O11: a tick leaves the throttle and the cap alone, and every command keeps them legal. -/
theorem powerInvKept : Obligations.PowerInvKept := by
  unfold Obligations.PowerInvKept
  intro s t h hstep
  rcases step_cases hstep with htick | ⟨c, rest, hexec⟩
  · rw [htick]
    exact h
  · have hkept : NextPowerInv (exec c { s with pending := rest }) := exec_powerInv c h
    rw [hexec] at hkept
    exact hkept

end Sys2Proof.Machine
end

section
/-! ## Epochs of partitions and of what is loaded (14 R463, R466; 16 R516) -/

namespace Sys2Proof.Machine

/-- Settles O22: on a defined partition both commands take the branch of their own rules. -/
theorem advanceAndOpen : Obligations.AdvanceAndOpen := by
  unfold Obligations.AdvanceAndOpen
  intro o pid s b h0 hlt hd
  refine ⟨fun epoch hepoch hb => ⟨fun hopen => ?advanceOpen, fun hfenced hbehind => ?advanceBehind,
    fun hfenced hahead => ?advance⟩, fun hb => ⟨fun hopen => ?openOpen, fun hfenced => ?openFenced⟩⟩
  case advanceOpen =>
    exact run_onPartition_failWith hb h0 hlt hd (by
      simp only [Nat.not_le.2 hepoch, hopen, Bool.not_false, if_true, if_false])
  case advanceBehind =>
    exact run_onPartition_failWith hb h0 hlt hd (by
      simp only [Nat.not_le.2 hepoch, hfenced, hbehind, Bool.not_true, Bool.not_false, Bool.false_eq_true, if_true,
        if_false])
  case advance =>
    exact run_onPartition_ok hb h0 hlt hd (by
      simp only [Nat.not_le.2 hepoch, hfenced, hahead, Bool.not_true, Bool.false_eq_true, if_false])
  case openOpen => exact run_onPartition_failWith hb h0 hlt hd (by simp only [hopen, Bool.not_false, if_true])
  case openFenced =>
    exact run_onPartition_ok hb h0 hlt hd (by simp only [hfenced, Bool.not_true, Bool.false_eq_true, if_false])

/-- An epoch is bad where the partition has another, or is FENCED (16 R516). -/
theorem epochBad_iff {s : State} {pid epoch : Nat} :
    epochBad s pid epoch = true ↔ (partition s pid).epoch ≠ epoch ∨ (partition s pid).fenced = true := by
  rw [epochBad, Bool.or_eq_true, bne_iff_ne]

/-- Settles O23: the check of the epoch follows the earlier ones and turns the command away. -/
theorem epochOfLoads : Obligations.EpochOfLoads := by
  unfold Obligations.EpochOfLoads
  constructor
  · intro o slot params s b hb hgood hsid hon hreach hsow hfree hepoch
    refine ⟨run_failWith hb ?_, answer_begins_frame hb _ _⟩
    simp only [hgood, hsid, hon, hreach, hsow, hfree, epochBad_iff.2 hepoch, Bool.not_true, Bool.or_self,
      Bool.false_eq_true, if_true, if_false]
  · intro o context record s b hb hgood hreach hown hepoch
    refine ⟨run_failWith hb ?_, answer_begins_frame hb _ _⟩
    simp only [hgood, hreach, hown, hepoch, Bool.not_true, Bool.or_self, Bool.false_eq_true, if_true, if_false]

/-- Settles O24: reset lists no entry, and what is not listed reads as its table's default. -/
theorem resetLeaves : Obligations.ResetLeaves := by
  unfold Obligations.ResetLeaves
  exact ⟨rfl, rfl, rfl, fun _ => rfl, fun _ => rfl, rfl, rfl, rfl, rfl, rfl, rfl, rfl, fun _ => rfl, rfl⟩

end Sys2Proof.Machine
end

section
/-! ## The COUNTER and CRUMB commands (16 Table 16.11; 17 R561; 19 R593 to R604) -/

namespace Sys2Proof.Machine

/-- A read of the crumb region within its length and its region goes past the first refusals (19 R604). -/
theorem crumbRead_inRange {length : Nat} (h0 : 0 < length) (hmost : length ≤ 1048572) :
    ¬(length = 0 ∨ 1048572 < length) := by
  omega

/-- Settles O35: each form is the way the command's own rules end from the state at which it begins. -/
theorem counterCommands : Obligations.CounterCommands := by
  unfold Obligations.CounterCommands
  and_intros
  -- COUNTER_READ
  · intro o ids s b hb hgood
    exact run_done hb (by simp only [hgood]) rfl
  · intro o ids st s b hb hbad
    exact run_failWith hb (by simp only [hbad])
  -- COUNTER_SNAPSHOT
  · intro o ids s b hb hgood
    exact run_soon hb (by simp only [hgood])
  · intro o ids st s b hb hbad
    exact run_failWith hb (by simp only [hbad])
  -- COUNTER_FILTER
  · intro o rec0 s b hb hfilter hpoint
    exact run_ok hb (if_neg (by omega))
  · intro o rec0 s b hb hout
    exact run_failWith hb (if_pos hout)
  -- CRUMB_READ
  · intro o offset length s b hb h0 hmost hlog hfits
    exact run_done hb (by
      simp only [crumbRead_inRange h0 hmost, hlog, Nat.not_lt.2 hfits, if_true, if_false]) rfl
  · intro o offset length s b hb h0 hmost hlog hfits hclean
    exact run_done hb (by
      simp only [crumbRead_inRange h0 hmost, hlog, Nat.not_lt.2 hfits, hclean, Bool.false_eq_true, if_false]) rfl
  · intro o offset length s b hb h0 hmost hlog hfits hpoisoned
    exact run_failWith hb (by
      simp only [crumbRead_inRange h0 hmost, hlog, Nat.not_lt.2 hfits, hpoisoned, Bool.false_eq_true, if_true, if_false])
  · intro o offset length s b hb hout
    exact run_failWith hb (if_pos hout)
  -- CRUMB_DUMP
  · intro o s b hb
    exact run_done hb rfl rfl
  -- CRUMB_TRACE
  · intro o categories pidMatch pid s b hb
    exact run_ok hb rfl

end Sys2Proof.Machine
end

section
/-! ## The RESET and POWER commands (16 Table 16.11; 17 17.4; 20 R630, R631) -/

namespace Sys2Proof.Machine

/-- Settles O36: each form is the way the command's own rules end from the state at which it begins. -/
theorem resetCommands : Obligations.ResetCommands := by
  unfold Obligations.ResetCommands
  and_intros
  -- RESET_CONTEXT
  · intro o gid seq g s b hb hg hreach hruns
    exact run_ok hb (by simp only [resetLoaf, hg, hreach, hruns, Bool.not_true, Bool.false_eq_true, if_true, if_false])
  · intro o slot y g s b hb hg hreach hphase
    exact run_ok hb (by
      simp only [resetGrist, hg, hreach, hphase, Bool.not_true, Bool.false_eq_true, ne_eq, not_true_eq_false, if_false])
  · intro o c y s b hb hc hreach hflight
    exact run_ok hb (by
      simp only [resetChannel, Nat.not_le.2 hc, hreach, hflight, Bool.not_true, Bool.false_eq_true, if_false])
  · intro o mb seq s b hb hmb hother hreach hout
    exact run_ok hb (by
      simp only [resetCommand, Nat.not_le.2 hmb, hother, hreach, hout, or_self, Bool.false_eq_true, if_true, if_false])
  · intro o t x y s b hb ht
    exact run_failWith hb (by
      match t, ht with
      | _ + 4, _ => rfl)
  -- RESET_ENGINE
  · intro o code trains s b hb hzero hknown hasked hfirst
    exact run_done hb (by
      simp only [hzero, hknown, hasked, hfirst, ne_eq, not_true_eq_false, Bool.not_true, Bool.not_false,
        Bool.false_eq_true, or_self, Bool.and_self, if_true, if_false]) rfl
  · intro o code trains s b hb hbad
    exact run_failWith hb (if_pos (hbad.imp_right (by rw [Bool.not_eq_true']; exact id)))
  -- RESET_SLICE
  · intro o slice trains s b hb hslice hasked hfew
    exact run_done hb (by
      simp only [Nat.not_le.2 hslice, hasked, Nat.not_le.2 hfew, decide_false, Bool.not_false, Bool.and_self, if_true,
        if_false]) rfl
  -- RESET_ENGINE
  · intro o code trains s b hb hzero hknown hreplaced
    exact run_status hb (by
      simp only [hzero, hknown, hreplaced, ne_eq, not_true_eq_false, Bool.not_true, Bool.false_eq_true, or_self,
        if_false]) rfl
  -- RESET_SLICE
  · intro o slice trains s b hb hslice
    exact run_failWith hb (if_pos hslice)
  -- RESET_CHIP
  · intro o s b hb hrecovery
    exact run_later hb (if_pos hrecovery)
  · intro o s b hb hother
    exact run_later hb (if_neg hother)
  -- RESET_CYCLE
  · intro o s b hb
    exact run_later hb rfl
  -- POWER_CAP
  · intro o watts s b hb hlegal
    exact run_ok hb (if_neg (by omega))
  · intro o watts s b hb h0 hout
    exact run_failWith hb (if_pos ⟨h0, hout⟩)
  -- POWER_STATUS
  · intro o s b hb
    exact run_done hb rfl rfl

end Sys2Proof.Machine
end

section
/-! ## The QUORUM, KEY and ATTEST commands (16 Table 16.11; 18 R569 to R587) -/

namespace Sys2Proof.Machine

/-- The other ending of `propose_pending`: a 65th pending proposal (18 R584). -/
theorem propose_busy {s : State} (hfull : 64 ≤ (pendingProposals s).length) (o : Origin) (c : Staged) :
    propose o c s = failWith .busy s :=
  if_pos hfull

section
variable {slot counter : Nat} {region : Bool} {wrapped : List Byte}

/-- Operands in the ranges of KEY.LOAD pass its first refusal (18 R577). -/
theorem keyLoad_inRange (hslot : slot < slotCount) (hcounter : counter < 2 ^ 32)
    (hlength : wrapped.length = keyBytes region + 16) :
    ¬(slotCount ≤ slot ∨ 2 ^ 32 ≤ counter ∨ wrapped.length ≠ keyBytes region + 16) := by
  omega

end

/-- A proposal that is pending and that the approver's side has not decided on (18 R585). -/
theorem proposal_open {o : Origin} {p : Proposal} (hpending : p.state = .pending) (hside : sideRecorded o p = false) :
    ¬(p.state ≠ .pending ∨ sideRecorded o p) := by
  simp only [hpending, hside, ne_eq, not_true_eq_false, Bool.false_eq_true, or_self, not_false_eq_true]

/-- A public key and a nonce that KEY.SESSION takes (18 R575). -/
theorem keySession_good {pub : List Byte} {nonce : Nat} (hlength : pub.length = 133) (hnonce : nonce < 2 ^ 512)
    (hvalid : Config.ecValid pub = true) : ¬(pub.length ≠ 133 ∨ 2 ^ 512 ≤ nonce ∨ !Config.ecValid pub) := by
  simp only [hlength, Nat.not_le.2 hnonce, hvalid, ne_eq, not_true_eq_false, Bool.not_true, Bool.false_eq_true, or_self,
    not_false_eq_true]

/-- Settles O37: each form is the way the command's own rules end from the state at which it begins. -/
theorem securityCommands : Obligations.SecurityCommands := by
  unfold Obligations.SecurityCommands
  and_intros
  -- QUORUM_LIST
  · intro o s b hb
    exact run_done hb rfl rfl
  -- QUORUM_APPROVE
  · intro o proposal signature p s b hb hp hpending hside hlive hsigned hsecond
    exact run_ok hb (by
      simp only [hp, proposal_open hpending hside, Nat.not_le.2 hlive, hsigned, hsecond, Bool.not_true,
        Bool.false_eq_true, if_true, if_false])
  · intro o proposal signature p s b hb hp hpending hside hlive hsigned hfirst
    exact run_done hb (by
      simp only [hp, proposal_open hpending hside, Nat.not_le.2 hlive, hsigned, hfirst, Bool.not_true,
        Bool.false_eq_true, if_false]) rfl
  · intro o proposal signature p s b hb hp hpending hside hlive hsigned
    exact run_ok hb (by
      simp only [hp, proposal_open hpending hside, Nat.not_le.2 hlive, hsigned, Bool.not_true, Bool.not_false,
        Bool.false_eq_true, if_true, if_false])
  · intro o proposal approve signature p s b hb hp hpending hside hlive hforged
    exact run_failWith hb (by
      simp only [hp, proposal_open hpending hside, Nat.not_le.2 hlive, hforged, Bool.not_false, if_true, if_false])
  · intro o proposal approve signature p s b hb hp hpending hside hexpired
    exact run_fails hb (by simp only [hp, proposal_open hpending hside, hexpired, if_true, if_false])
  · intro o proposal approve signature p s b hb hp hdecided
    exact run_failWith hb (by simp only [hp, if_pos hdecided])
  · intro o proposal approve signature s b hb hnone
    exact run_failWith hb (by simp only [hnone])
  -- QUORUM_WITHDRAW
  · intro o proposal p s b hb hp hmay hpending
    exact run_ok hb (by
      simp only [hp, hmay, hpending, Bool.not_true, Bool.false_eq_true, ne_eq, not_true_eq_false, if_false])
  · intro o proposal p s b hb hp hmay hended
    exact run_failWith hb (by
      simp only [hp, hmay, Bool.not_true, Bool.false_eq_true, if_pos hended, if_false])
  · intro o proposal p s b hb hp hmay
    exact run_failWith hb (by simp only [hp, hmay, Bool.not_false, if_true])
  -- KEY_SESSION
  · intro o pub nonce s b hb hlocked hlength hnonce hvalid hroom
    exact run_done hb (by
      simp only [hlocked, keySession_good hlength hnonce hvalid, Nat.not_le.2 hroom, ne_eq, not_true_eq_false, if_false])
      rfl
  · intro o pub nonce s b hb hlocked hlength hnonce hvalid hfull
    exact run_failWith hb (by
      simp only [hlocked, keySession_good hlength hnonce hvalid, hfull, ne_eq, not_true_eq_false, if_true, if_false])
  · intro o pub nonce s b hb hunlocked
    exact run_failWith hb (if_pos hunlocked)
  -- KEY_LOAD
  · intro o session region slot counter wrapped x s b hb hslot hcounter hlength hx hpid hgood
    exact run_ok hb (by
      simp only [keyLoad_inRange hslot hcounter hlength, hx, hpid, hgood, ne_eq, not_true_eq_false, if_false])
  · intro o session region slot counter wrapped x st s b hb hslot hcounter hlength hx hpid hbad
    exact run_failWith hb (by
      simp only [keyLoad_inRange hslot hcounter hlength, hx, hpid, hbad, ne_eq, not_true_eq_false, if_false])
  · intro o session region slot counter wrapped s b hb hout
    exact run_failWith hb (if_pos hout)
  -- KEY_BIND
  · intro o region slot target direction pid s b hb hgood hroom
    exact run_done hb (by simp only [hgood, propose_pending hroom]) rfl
  · intro o region slot target direction pid s b hb hgood hfull
    exact run_failWith hb (by simp only [hgood, propose_busy hfull])
  · intro o region slot target direction pid st s b hb hbad
    exact run_failWith hb (by simp only [hbad])
  -- KEY_ZEROIZE
  · intro o region slot s b hb hslot hoperator
    exact run_ok hb (by
      simp only [Nat.not_le.2 hslot, hoperator, Bool.false_and, Bool.false_eq_true, if_false])
  · intro o region slot pid s b hb hslot htenant hbound hown
    exact run_ok hb (by
      simp only [Nat.not_le.2 hslot, hbound, hown, Option.isNone_some, bne_self_eq_false, Bool.or_self, Bool.and_false,
        Bool.false_eq_true, if_false])
  · intro o region slot pid s b hb hslot htenant hbound hother
    have hdiffers : (some pid != callerPid o b) = true := bne_iff_ne.2 hother.symm
    exact run_failWith hb (by
      simp only [Nat.not_le.2 hslot, htenant, hbound, hdiffers, Bool.or_true, Bool.and_self, if_true, if_false])
  -- ATTEST_REPORT
  · intro o nonce s b hb
    exact run_done hb rfl rfl
  -- ATTEST_CHAIN
  · intro o s b hb
    exact run_done hb rfl rfl

end Sys2Proof.Machine
end

section
/-! ## The FW commands (16 Tables 16.12, 16.13, 16.15; 15 R485, R492, R508; 17 R546, R547; 18 R571, R588) -/

namespace Sys2Proof.Machine

section
variable {network address pfxLen mtu : Nat}

/-- An address of a management network in its ranges, with an MTU that is not left to the default (15 R477, R478). -/
theorem fwNetwork_inRange (hnetwork : network ≤ 1) (haddress : address < 2 ^ 128) (hpfx : pfxLen ≤ 128)
    (hmin : 1280 ≤ mtu) (hmax : mtu ≤ 9000) :
    ¬(1 < network ∨ 2 ^ 128 ≤ address ∨ 128 < pfxLen ∨ mtu < 1280 ∨ 9000 < mtu) := by
  omega

end

/-- Settles O38: each form is the way the command's own rules end from the state at which it begins. -/
theorem firmwareCommands : Obligations.FirmwareCommands := by
  unfold Obligations.FirmwareCommands
  and_intros
  -- FW_CAPS
  · intro o s b hb
    exact run_done hb rfl rfl
  -- FW_INFO
  · intro o s b hb
    exact run_done hb rfl rfl
  -- FW_UPDATE
  · intro o length digest s b hb hgood hrecovery
    exact run_later hb (by simp only [hgood, hrecovery, if_true])
  · intro o length digest s b hb hgood hrunning hroom
    exact run_done hb (by simp only [hgood, if_neg hrunning, propose_pending hroom]) rfl
  · intro o length digest st s b hb hbad
    exact run_failWith hb (by simp only [hbad])
  -- FW_STAGE
  · intro o offset bytes s b hb hlength hfits
    exact run_ok hb (if_neg (by omega))
  · intro o offset bytes s b hb hout
    exact run_failWith hb (if_pos hout)
  -- FW_CREDIT
  · intro o mailbox credit s b hb hmailbox hcredit
    exact run_ok hb (if_neg (by omega))
  · intro o mailbox credit s b hb hout
    exact run_failWith hb (if_pos hout)
  -- FW_BIND_MAILBOX
  · intro o mailbox pid cert s b hb hmin hmax h0 hpid hidle
    exact run_ok hb ((if_neg (by omega)).trans (by simp only [hidle, Bool.not_true, Bool.false_eq_true, if_false]))
  · intro o mailbox pid cert s b hb hmin hmax h0 hpid hbusy
    exact run_failWith hb ((if_neg (by omega)).trans (by simp only [hbusy, Bool.not_false, if_true]))
  · intro o mailbox pid cert s b hb hout
    exact run_failWith hb (if_pos (by omega))
  -- FW_CREDENTIAL
  · intro o cls cert s b hb hnetwork hheld hleft
    exact run_ok hb (by
      simp only [hnetwork, hheld, hleft, ne_eq, not_true_eq_false, Bool.not_true, Bool.false_eq_true, if_true, if_false])
  · intro o cls cert s b hb hnetwork hheld hlast
    exact run_failWith hb (by
      simp only [hnetwork, hheld, hlast, ne_eq, not_true_eq_false, Bool.not_true, Bool.false_eq_true, if_true, if_false])
  · intro o cls cert s b hb hnetwork hnew hunused hroom
    exact run_ok hb (by
      simp only [hnetwork, hnew, hunused, Nat.not_le.2 hroom, ne_eq, not_true_eq_false, Bool.false_eq_true, if_false])
  · intro o cls cert s b hb hnetwork hheld
    exact run_ok hb (by
      simp only [hnetwork, hheld, ne_eq, not_true_eq_false, Bool.false_eq_true, if_true, if_false])
  · intro o remove cls cert s b hb hnetwork
    exact run_failWith hb (if_pos hnetwork)
  -- FW_NETWORK
  · intro o network address pfxLen mtu s b hb hnetwork haddress hpfx hmin hmax
    have hgiven : mtu ≠ 0 := by omega
    exact run_ok hb (by
      simp only [hgiven, fwNetwork_inRange hnetwork haddress hpfx hmin hmax, if_false])
  · intro o network address pfxLen s b hb hnetwork haddress hpfx
    exact run_ok hb (if_neg (fwNetwork_inRange hnetwork haddress hpfx (Nat.le_refl 1280) (by decide)))
  · intro o network address pfxLen mtu s b hb hout
    exact run_failWith hb (if_pos (by omega))
  -- FW_REG_READ
  · intro o addr amount s b hb h0 hmost hgood
    exact run_done hb ((if_neg (by omega)).trans (by simp only [hgood])) rfl
  · intro o addr amount s b hb hout
    exact run_failWith hb (if_pos hout)
  -- FW_REG_WRITE
  · intro o addr value mask s b hb hgood hdebug
    exact run_ok hb (by simp only [hgood, hdebug, if_true])
  · intro o addr value mask s b hb hgood hwindow hreg hone
    exact run_ok hb (by
      simp only [hgood, hwindow, hreg, hone, and_self, if_true, OfNat.zero_ne_ofNat, if_false])
  · intro o addr value mask s b hb hgood hwindow hother
    have hnot : ¬(windowOf addr = 0 ∧ addrReg addr = 1 ∧ (value &&& mask).getLsbD 0 = true) := by
      rintro ⟨hw, hr, hone⟩
      rcases hother with h | h | h
      · exact h hw
      · exact h hr
      · exact Bool.false_ne_true (h.symm.trans hone)
    exact run_failWith hb (by simp only [hgood, if_neg hwindow, if_neg hnot])
  -- FW_DEBUG_UNLOCK
  · intro o scope duration s b hb h0 hscope hlong hmost hroom
    exact run_done hb ((if_neg (by omega)).trans (propose_pending hroom _ _)) rfl
  · intro o scope duration s b hb hout
    exact run_failWith hb (if_pos hout)

end Sys2Proof.Machine
end

section
/-! ## Supply, reset pin, reference and throttling (17 R538, R566; 20 20.1 to 20.6) -/

namespace Sys2Proof.Machine

/-! ### What the hold of MOD_RST_N leaves (17 R538) -/

/-- A cut write leaves both copies of the configuration as they were, so a start reads what it would have read. -/
theorem cutWrite_cfg (st : StartState) : (cutWrite st).cfg = storedConfig st := by
  unfold cutWrite
  extract_lets st1
  have hcopies : st1.copyA = st.copyA ∧ st1.copyB = st.copyB := by
    unfold st1
    split <;> exact ⟨rfl, rfl⟩
  obtain ⟨ha, hb⟩ := hcopies
  simp only [storedConfig, ha, hb]

theorem modPower_rails {f : PowerState → PowerState} {s : State} (h : ∀ p, (f p).rails = p.rails) :
    (modPower f s).power.rails = s.power.rails :=
  h s.power

theorem modPower_pwrOk {f : PowerState → PowerState} {s : State} (h : ∀ p, (f p).pwrOk = p.pwrOk) :
    (modPower f s).power.pwrOk = s.power.pwrOk :=
  h s.power

section
variable (s : State)

@[simp] theorem clearAll_start : (clearAll s).start = s.start := rfl
@[simp] theorem clearAll_gran : (clearAll s).gran = State.reset.gran := rfl
@[simp] theorem clearAll_mgmt : (clearAll s).mgmt = State.reset.mgmt := rfl
@[simp] theorem clearAll_sec : (clearAll s).sec = State.reset.sec := rfl

/-- A start that begins from nothing sets the throttle, the cap and the coolant alarm back, and leaves the supply. -/
@[simp] theorem clearAll_power : (clearAll s).power = { s.power with
    depth := [0, 0, 0, 0], underRun := 0, fullRun := 0, capEventRaised := false, capUnattainable := false,
    coolantDelta := false, cap := 0 } := rfl

@[simp] theorem coldHold_gran : (coldHold s).gran = State.reset.gran := by simp [coldHold]
@[simp] theorem coldHold_mgmt : (coldHold s).mgmt = State.reset.mgmt := by simp [coldHold]
@[simp] theorem coldHold_sec : (coldHold s).sec = State.reset.sec := by simp [coldHold]
@[simp] theorem coldHold_phase : (coldHold s).start.phase = .reset := by simp [coldHold]
@[simp] theorem coldHold_lastLevel : (coldHold s).start.lastLevel = 0 := by simp [coldHold]
@[simp] theorem coldHold_cfg : (coldHold s).start.cfg = storedConfig s.start := by simp [coldHold, cutWrite_cfg]
@[simp] theorem coldHold_rails : (coldHold s).power.rails = s.power.rails := by simp [coldHold]
@[simp] theorem coldHold_modRst : (coldHold s).power.modRst = s.power.modRst := by simp [coldHold]
@[simp] theorem coldHold_latched : (coldHold s).power.latched = s.power.latched := by simp [coldHold]
@[simp] theorem coldHold_depth : (coldHold s).power.depth = [0, 0, 0, 0] := by simp [coldHold]

@[simp] theorem dropPower_start : (dropPower s).start = (coldHold s).start := by simp [dropPower]
@[simp] theorem dropPower_link : (dropPower s).link = (coldHold s).link := by simp [dropPower]
@[simp] theorem dropPower_gran : (dropPower s).gran = (coldHold s).gran := by simp [dropPower]
@[simp] theorem dropPower_mgmt : (dropPower s).mgmt = (coldHold s).mgmt := by simp [dropPower]
@[simp] theorem dropPower_vinOn : (dropPower s).power.vinOn = false := by simp [dropPower]
@[simp] theorem dropPower_rails : (dropPower s).power.rails = false := by simp [dropPower]
@[simp] theorem dropPower_pwrOk : (dropPower s).power.pwrOk = false := by simp [dropPower]
@[simp] theorem dropPower_alert : (dropPower s).power.alert = false := by simp [dropPower]
@[simp] theorem dropPower_latched : (dropPower s).power.latched = s.power.latched := by simp [dropPower]

@[simp] theorem latchOff_phase : (latchOff s).start.phase = .reset := by simp [latchOff]
@[simp] theorem latchOff_latched : (latchOff s).power.latched = true := by simp [latchOff]
@[simp] theorem latchOff_rails : (latchOff s).power.rails = false := by
  rw [latchOff, modPower_rails (f := fun p => { p with latched := true }) (fun _ => rfl), dropPower_rails]
@[simp] theorem latchOff_pwrOk : (latchOff s).power.pwrOk = false := by
  rw [latchOff, modPower_pwrOk (f := fun p => { p with latched := true }) (fun _ => rfl), dropPower_pwrOk]

@[simp] theorem beginCold_phase : (beginCold s).start.phase = .cold := by simp [beginCold]
@[simp] theorem beginCold_step : (beginCold s).start.step = 1 := by simp [beginCold]

end

/-! ### Turn-on and the release of MOD_RST_N (20 Table 20.8; 17 R538) -/

section
variable {s : State}

/-- VIN_42 rises with nothing that keeps the supply off: the sequence runs, and a cold start follows unless MOD_RST_N is
held. -/
theorem execPowerOn_on (hvin : s.power.vinOn = false) (hlatched : s.power.latched = false)
    (htrip : s.power.thermTrip = false) :
    execPowerOn s = .next (if s.power.modRst then
        modPower (fun p => { p with vinOn := true, rails := true, pwrOk := true, refclk := true }) s
      else beginCold (modPower (fun p => { p with vinOn := true, rails := true, pwrOk := true, refclk := true }) s)) := by
  simp only [execPowerOn, hvin, hlatched, htrip, Bool.or_self, Bool.false_eq_true, if_false, modPower_power]

/-- MOD_RST_N is released: a cold start follows where the rails stand. -/
theorem execModRstNRelease_held (hheld : s.power.modRst = true) :
    execModRstNRelease s = .next (if s.power.rails && !s.power.thermTrip then
        beginCold (modPower (fun p => { p with modRst := false }) s)
      else modPower (fun p => { p with modRst := false }) s) := by
  simp only [execModRstNRelease, hheld, if_true, modPower_power]

/-! ### Alarms, throttling and the SMBus (20 R620, R621, R631, R637) -/

/-- ALARMS has the coolant alarm in bit 11. -/
theorem alarms_coolantDelta (h : s.power.coolantDelta = true) : alarms s / 2 ^ 11 % 2 = 1 := by
  simp only [alarms, at_, h, bit, if_true]
  omega

/-- An evaluation while the device runs changes the throttle as R631 says, and beside it at most raises its event. -/
theorem execThrottleEvaluation_running (x : Telemetry) (h : s.start.phase = .running) :
    ∃ t, execThrottleEvaluation x s = .next t ∧
      OnlyChanges [.recoveryLog, .events, .counters, .crumbs] (modPower (evaluateThrottle x) s) t := by
  refine ⟨_, congrArg Host.Outcome.next (if_pos h), ?_⟩
  extract_lets s1
  split
  · exact OnlyChanges.refl _ _
  · exact raise15_frame _ _ _

/-- A Block Read of an assigned code that is served (20 R620, R621; 17 R566, R568). -/
theorem execStartStatusRead_served {code : Nat} {bs : List Byte} (hpower : s.power.pwrOk = true)
    (hclock : s.power.refclk = true) (hserved : s.power.statusOnly = false ∨ code = 0x10)
    (hcode : smbusRegister s code = some bs) :
    execStartStatusRead code s = .next (if code = 0x10 then
        modPower (fun p => { p with alert := false })
          (emit (.smbus code (natBytes 1 bs.length ++ bs ++ [pecOf code bs])) s)
      else emit (.smbus code (natBytes 1 bs.length ++ bs ++ [pecOf code bs])) s) := by
  have hanswers : (s.power.statusOnly && code != 0x10) = false := by
    rcases hserved with h | h <;> rw [h]
    · exact Bool.false_and _
    · exact Bool.and_false _
  simp only [execStartStatusRead, hpower, hclock, hanswers, hcode, Bool.not_true, Bool.or_self, Bool.false_eq_true,
    if_false]

end

/-- Settles O39: each clause follows its event's meaning along the branch that the clause's conditions choose. -/
theorem supplyEvents : Obligations.SupplyEvents := by
  unfold Obligations.SupplyEvents
  and_intros
  -- POWER_ON
  · intro s hvin hlatched htrip hreleased
    refine ⟨_, (execPowerOn_on hvin hlatched htrip).trans (congrArg _ (if_neg (by simp [hreleased]))), ?_⟩
    simp [beginCold]
  · intro s hvin hlatched htrip hheld
    exact ⟨_, (execPowerOn_on hvin hlatched htrip).trans (congrArg _ (if_pos hheld)), rfl, rfl⟩
  · intro s hoff
    exact congrArg Host.Outcome.next (if_pos hoff)
  -- INPUT_UNDERVOLTAGE
  · intro s
    refine ⟨_, rfl, ?_⟩
    simp
  -- SUPPLY_LOSS
  · intro s
    refine ⟨_, rfl, ?_⟩
    simp
  -- INPUT_OVERVOLTAGE
  · intro s
    exact ⟨latchOff s, rfl, latchOff_latched s, latchOff_rails s, latchOff_pwrOk s, latchOff_phase s⟩
  -- INPUT_OVERCURRENT
  · intro s
    exact ⟨latchOff s, rfl, latchOff_latched s, latchOff_rails s, latchOff_pwrOk s, latchOff_phase s⟩
  -- LATCH_CLEAR
  · intro s
    refine ⟨modPower (fun p => { p with latched := false, thermTrip := false }) (dropPower s), rfl, ?_, ?_, ?_, ?_⟩
    · rw [modPower_power]
    · rw [modPower_power]
    · rw [modPower_pwrOk (f := fun p => { p with latched := false, thermTrip := false }) (fun _ => rfl),
        dropPower_pwrOk]
    · simp
  -- MOD_RST_N_ASSERT
  · intro s
    refine ⟨_, rfl, ?_⟩
    simp
  -- MOD_RST_N_RELEASE
  · intro s hheld hrails htrip
    refine ⟨_, (execModRstNRelease_held hheld).trans (congrArg _ (if_pos (by simp [hrails, htrip]))), ?_⟩
    simp [beginCold]
  · intro s hheld hnone
    exact ⟨_, (execModRstNRelease_held hheld).trans (congrArg _ (if_neg (by simp [hnone]))), rfl, rfl⟩
  · intro s hreleased
    exact congrArg Host.Outcome.next (if_neg (by simp [hreleased]))
  -- REFCLK_LOSS
  · intro s hpower
    refine ⟨_, congrArg Host.Outcome.next (if_pos hpower), ?_⟩
    simp
  · intro s hpower
    exact congrArg Host.Outcome.next (if_neg (by simp [hpower]))
  -- THERMAL_TRIP
  · intro s hvin
    refine ⟨_, congrArg Host.Outcome.next (if_pos hvin), ?_⟩
    simp
  · intro s hvin
    exact congrArg Host.Outcome.next (if_neg (by simp [hvin]))
  -- TELEMETRY_UPDATE
  · intro x s hpower
    exact ⟨_, congrArg Host.Outcome.next (if_pos hpower), rfl, rfl⟩
  · intro x s hpower
    exact congrArg Host.Outcome.next (if_neg (by simp [hpower]))
  -- COOLANT_DELTA_ALARM
  · intro s hpower
    exact ⟨_, congrArg Host.Outcome.next (if_pos hpower), rfl, alarms_coolantDelta rfl⟩
  · intro s hpower
    exact congrArg Host.Outcome.next (if_neg (by simp [hpower]))
  -- THROTTLE_EVALUATION
  · intro x s hphase
    obtain ⟨t, ht, hframe⟩ := execThrottleEvaluation_running x hphase
    obtain ⟨_, hdepth, hunder, _⟩ := hframe .throttle (by decide)
    have hcap : t.power.cap = s.power.cap := hframe .powerCap (by decide)
    exact ⟨t, ht, by rw [hdepth, hunder]; rfl, hunder, hcap⟩
  · intro x s hphase
    exact congrArg Host.Outcome.next (if_neg hphase)
  -- CAP_UNATTAINABLE
  · intro s hphase hlong hnew
    exact congrArg Host.Outcome.next (if_pos (by simp [hphase, hlong, hnew]))
  · intro s hphase
    exact congrArg Host.Outcome.next (if_neg (by simp [hphase]))
  -- START_STATUS_READ
  · intro code bs s hpower hclock hserved hcode
    refine ⟨_, execStartStatusRead_served hpower hclock hserved hcode, ?_⟩
    split
    next h => exact ⟨rfl, by simp [h]⟩
    next h => exact ⟨rfl, by simp [h]⟩
  · intro code s hnone
    change execStartStatusRead code s = _
    simp only [execStartStatusRead, hnone, ite_self]
  · intro code s honly hother
    exact congrArg Host.Outcome.next (if_pos (by simp [honly, hother]))

end Sys2Proof.Machine
end

section
/-! ## Starts, the module cycle and flash (17 R537 to R568; 20 R628) -/

namespace Sys2Proof.Machine

theorem modStart_eq_self {f : StartState → StartState} {s : State} (h : f s.start = s.start) : modStart f s = s := by
  rw [modStart, h]
  exact if_pos rfl

/-- No write to flash ends where none is in progress. -/
theorem completeWrite_none {st : StartState} (h : st.flashWrite = none) : completeWrite st = st := by
  simp only [completeWrite, h]

/-- A cold start with an attempt left and straps that ask for the flash image does not enter recovery at once. -/
theorem coldStart_goesOn {o : StartOutcome} {s : State} (hattempts : s.start.cfg.attempts ≠ 3)
    (hmode : o.bootMode % 4 ≠ 1 ∧ o.bootMode % 4 ≠ 3) :
    ¬(s.start.cfg.attempts = 3 ∨ o.bootMode % 4 = 1 ∨ o.bootMode % 4 = 3) := by
  omega

/-- Settles O40: each clause follows its event's meaning along the branch that the clause's conditions choose. -/
theorem startEvents : Obligations.StartEvents := by
  unfold Obligations.StartEvents
  and_intros
  -- COLD_START
  · intro o s hready
    exact congrArg Host.Outcome.next (if_pos (by simp [hready]))
  · intro o s hready hattempts
    change execColdStart o s = _
    simp only [execColdStart, hready, if_pos (Or.inl hattempts), Bool.not_true, Bool.false_eq_true, if_false]
  · intro o s hready hattempts hmode
    change execColdStart o s = _
    simp only [execColdStart, hready, if_pos (Or.inr hmode), Bool.not_true, Bool.false_eq_true, if_false]
  · intro o s hready hattempts hmode
    have htest : execColdStart o s = .next
        (modStart (fun st => { st with phase := .test, step := 0 }) (lockIslands [] (coldPrepared o s))) := by
      have hgoes := coldStart_goesOn (o := o) hattempts (by omega)
      simp only [execColdStart, hready, hgoes, if_pos hmode, Bool.not_true, Bool.false_eq_true, if_false]
    refine ⟨_, htest, ?_⟩
    rw [modStart_start]
    exact ⟨rfl, rfl⟩
  · intro o s hready hattempts hmode himage
    change execColdStart o s = _
    have hgoes := coldStart_goesOn (o := o) hattempts (by omega)
    have hflash : ¬o.bootMode % 4 = 2 := by omega
    simp only [execColdStart, hready, hgoes, hflash, himage, Bool.not_true, Bool.false_eq_true, if_false]
  · intro o i s hready hattempts hmode himage
    change execColdStart o s = _
    have hgoes := coldStart_goesOn (o := o) hattempts (by omega)
    have hflash : ¬o.bootMode % 4 = 2 := by omega
    simp only [execColdStart, hready, hgoes, hflash, himage, Bool.not_true, Bool.false_eq_true, if_false]
  -- START_TIMEOUT
  · intro step s hphase hearly
    change execStartTimeout step s = _
    have huntrained : decide (7 < step) = false := decide_eq_false (by omega)
    simp only [execStartTimeout, hphase, Nat.not_lt.2 hearly, huntrained, if_true, if_false]
  · intro step s hphase hcounted
    change execStartTimeout step s = _
    simp only [execStartTimeout, hphase, hcounted, if_true]
  · intro step e s hphase hasked hearly
    change execStartTimeout step s = _
    simp only [execStartTimeout, hphase, hasked, Nat.not_lt.2 hearly, if_false]
  · intro step e s hphase hasked hcounted
    change execStartTimeout step s = _
    simp only [execStartTimeout, hphase, hasked, hcounted, if_true, if_false]
  · intro step s hphase hnone
    change execStartTimeout step s = _
    simp only [execStartTimeout, hphase, hnone, if_false]
  -- WARM_START
  · intro o s hnone
    change execWarmStart o s = _
    simp only [execWarmStart, hnone]
  · intro o e s hasked hmany
    change execWarmStart o s = _
    simp only [execWarmStart, hasked, hmany, if_true]
  · intro o e s hasked hfew hattempts
    change execWarmStart o s = _
    simp only [execWarmStart, hasked, Nat.not_le.2 hfew, hattempts, if_true, if_false]
  · intro o e s hasked hfew hattempts hresident
    change execWarmStart o s = _
    simp only [execWarmStart, hasked, Nat.not_le.2 hfew, hattempts, hresident, if_true, if_false]
  -- MODULE_CYCLE_HOLD
  · intro s hnone
    change execModuleCycleHold s = _
    simp only [execModuleCycleHold, hnone]
  · intro e s hasked
    change execModuleCycleHold s = _
    simp only [execModuleCycleHold, hasked]
  -- CYCLE_HOLD_EXPIRY
  · intro s hphase
    exact congrArg Host.Outcome.next (if_pos hphase)
  · intro s hphase
    exact congrArg Host.Outcome.next (if_neg hphase)
  -- CYCLE_REQUEST_TIMEOUT
  · intro s hphase
    exact ⟨_, congrArg Host.Outcome.next (if_pos hphase), rfl, rfl, hphase, rfl⟩
  · intro s hphase
    exact congrArg Host.Outcome.next (if_neg hphase)
  -- FLASH_WRITE_COMPLETE
  · intro img o s hwrite
    change execFlashWriteComplete s = _
    simp only [execFlashWriteComplete, hwrite]
  · intro img s hwrite
    change execFlashWriteComplete s = _
    simp only [execFlashWriteComplete, hwrite]
  · intro b s hwrite
    change execFlashWriteComplete s = _
    simp only [execFlashWriteComplete, hwrite]
  · intro s hnone
    change execFlashWriteComplete s = _
    simp only [execFlashWriteComplete, hnone, modStart_eq_self (completeWrite_none hnone)]

end Sys2Proof.Machine
end

section
/-! ## Resets, overruns, watchdogs and expiries (17 R550 to R561; 18 R575, R586 to R589) -/

namespace Sys2Proof.Machine

/-- Settles O57: each clause follows its event's meaning along the branch that the clause's conditions choose. -/
theorem resetEvents : Obligations.ResetEvents := by
  unfold Obligations.ResetEvents
  and_intros
  -- ENGINE_RESET
  · intro typ idx trains s hknown
    exact onUnit_next hknown rfl
  · intro typ idx trains s hunknown
    exact onUnit_fault hunknown
  -- SCOPE_RESET
  · intro isl trains s hknown
    exact onUnit_next hknown rfl
  · intro isl trains s hunknown
    exact onUnit_fault hunknown
  -- L1_OVERRUN
  · intro typ idx objType ident s hknown
    exact onUnit_next hknown rfl
  -- L2_OVERRUN
  · intro typ idx s hknown hnone
    refine onUnit_next hknown ?_
    rw [hnone]
  · intro typ idx e s hknown hasked
    refine onUnit_next hknown ?_
    rw [hasked]
  -- L3_OVERRUN
  · intro isl s hknown hnone
    refine onUnit_next hknown ?_
    rw [hnone]
  · intro isl e s hknown hasked
    refine onUnit_next hknown ?_
    rw [hasked]
  -- DUMP_TIMEOUT
  · intro s hnone
    change execDumpTimeout s = _
    rw [execDumpTimeout, hnone]
  · intro e s hwaits
    change execDumpTimeout s = _
    rw [execDumpTimeout, hwaits]
  -- WATCHDOG_EXPIRY
  · intro core s hcore hphase
    exact onUnit_next (decide_eq_true hcore) (if_pos hphase)
  · intro core s hcore hphase
    exact onUnit_next (decide_eq_true hcore) (if_neg hphase)
  · intro core s hcore
    exact onUnit_fault (decide_eq_false (Nat.not_lt.2 hcore))
  -- PROTECTED_SRAM_ERROR
  · intro s hphase
    exact congrArg Host.Outcome.next (if_pos hphase)
  · intro s hphase
    exact congrArg Host.Outcome.next (if_neg hphase)
  -- SESSION_KEY_EXPIRY
  · intro session s
    exact ⟨_, rfl, rfl, rfl, rfl⟩
  -- DEBUG_LOCK_RETURN
  · intro s
    exact ⟨_, rfl, rfl, rfl⟩
  -- PROPOSAL_EXPIRY
  · intro proposal p s hfound hpending
    change execProposalExpiry proposal s = _
    simp only [execProposalExpiry, hfound, hpending, if_true]
  · intro proposal p s hfound hended
    change execProposalExpiry proposal s = _
    simp only [execProposalExpiry, hfound, hended, if_false]
  · intro proposal s hnone
    change execProposalExpiry proposal s = _
    simp only [execProposalExpiry, hnone]

end Sys2Proof.Machine
end

section
/-! ## Sessions, peels, events and the management ports (15 R478 to R503) -/

namespace Sys2Proof.Machine

section
variable {session mport : Nat} {peel : Peel} {form : BodyForm} {s s1 : State} {x : Session}

/-! ### Peels in a session (15 R479, R488, R490, R503) -/

/-- A COMMAND peel that arrives: its version and type, then whether its mailbox is open to its sender, choose its
way. -/
theorem execCommandPeelRx_arrives (hport : mport < 8) (harrives : datagramArrives session mport s = some (x, s1)) :
    execCommandPeelRx session mport peel form s = .next (
      if lVer peel ≠ 1 ∨ lType peel ≠ 0 then discardPeel mport s1
      else if lMajor peel = 1 ∧ !mailboxOpen (peelOrigin x peel) s1 then
        receiveCommand ⟨session, mport, x.datagram⟩ x peel [] form s1
      else assemble ⟨session, mport, x.datagram⟩ x peel form s1) := by
  rw [execCommandPeelRx, decide_eq_true hport, onUnit_true, harrives]

/-- An EVENT_ACK with a header of its kind, to a mailbox open to its sender, is not turned away. -/
theorem eventAck_served (hver : lVer peel = 1) (htype : lType peel = 3)
    (hopen : mailboxOpen (peelOrigin x peel) s1 = true) :
    ¬(lVer peel ≠ 1 ∨ lType peel ≠ 3 ∨ (!mailboxOpen (peelOrigin x peel) s1) = true) := by
  simp [hver, htype, hopen]

end

/-- Settles O56: each clause follows its event's meaning along the branch that the clause's conditions choose. -/
theorem managementEvents : Obligations.ManagementEvents := by
  unfold Obligations.ManagementEvents
  and_intros
  -- DTLS_HANDSHAKE
  · intro mport cert ok ownerRoot s hport hdeaf
    refine onUnit_next (decide_eq_true hport) (if_pos ?_)
    rwa [← Bool.not_and, Bool.not_eq_true']
  · intro mport cert ok ownerRoot s hport hup hlistens hrefused
    refine onUnit_next (decide_eq_true hport) ?_
    simp only [hup, hlistens, hrefused, Bool.not_true, Bool.or_self, Bool.false_eq_true, if_false]
  · intro mport cert ownerRoot c s hport hup hlistens hclass hroom
    refine onUnit_next (decide_eq_true hport) ?_
    simp only [hup, hlistens, hclass, hroom, decide_true, Bool.and_self, Option.filter_some, Bool.not_true,
      Bool.or_self, Bool.false_eq_true, if_true, if_false]
  · intro mport cert ok ownerRoot s hport
    exact onUnit_fault (decide_eq_false (Nat.not_lt.2 hport))
  -- SESSION_IDLE_TIMEOUT
  · intro session s
    rfl
  -- PACKET_TOO_BIG_RX
  · intro session mtu s
    exact ⟨_, rfl, rfl, rfl⟩
  -- COMMAND_PEEL_RX
  · intro session mport peel form s hport hnone
    refine onUnit_next (decide_eq_true hport) ?_
    rw [hnone]
  · intro session mport peel form x s1 s hport harrives hother
    exact (execCommandPeelRx_arrives hport harrives).trans (congrArg _ (if_pos hother))
  · intro session mport peel form x s1 s hport harrives hver htype hmajor hclosed
    refine (execCommandPeelRx_arrives hport harrives).trans (congrArg _ ((if_neg ?_).trans (if_pos ?_)))
    · simp [hver, htype]
    · simp [hmajor, hclosed]
  · intro session mport peel form x s1 s hport harrives hver htype hgoes
    refine (execCommandPeelRx_arrives hport harrives).trans (congrArg _ ((if_neg ?_).trans (if_neg ?_)))
    · simp [hver, htype]
    · rintro ⟨hmajor, hclosed⟩
      rcases hgoes with h | h
      · exact h hmajor
      · simp [h] at hclosed
  -- SEGMENT_TIMEOUT
  · intro mailbox session seq s hwaits
    exact congrArg Host.Outcome.next (if_pos hwaits)
  · intro mailbox session seq s hnone
    exact congrArg Host.Outcome.next (if_neg (by simp [hnone]))
  -- COMMAND_STEP_DISPATCH
  · intro s
    rfl
  -- COMMAND_DEADLINE_EXPIRY
  · intro mailbox seq s hlate
    exact congrArg Host.Outcome.next (if_pos hlate)
  · intro mailbox seq s hnone
    exact congrArg Host.Outcome.next (if_neg (by simp [hnone]))
  -- STEP_OVERRUN
  · intro typ idx mailbox seq r s hknown hkept
    refine onUnit_next hknown ?_
    rw [hkept]
  · intro typ idx mailbox seq s hknown hnone
    refine onUnit_next hknown ?_
    rw [hnone]
  -- EVENT_ACK_RX
  · intro session mport peel s hport hnone
    refine onUnit_next (decide_eq_true hport) ?_
    rw [hnone]
  · intro session mport peel x s1 s hport harrives hbad
    refine onUnit_next (decide_eq_true hport) ?_
    rw [harrives]
    refine if_pos ?_
    rwa [Bool.not_eq_true']
  · intro session mport peel x s1 s hport harrives hver htype hopen hunsent
    refine onUnit_next (decide_eq_true hport) ?_
    rw [harrives]
    refine (if_neg (eventAck_served hver htype hopen)).trans ?_
    rw [hunsent]
  · intro session mport peel x s1 n s hport harrives hver htype hopen hacked
    refine onUnit_next (decide_eq_true hport) ?_
    rw [harrives]
    refine (if_neg (eventAck_served hver htype hopen)).trans ?_
    rw [hacked]
  -- EVENT_SEND
  · intro mailbox s
    rfl
  -- EVENT_RESEND_TIMEOUT
  · intro mailbox s hnone
    exact congrArg Host.Outcome.next (if_pos hnone)
  · intro mailbox s hflies
    exact congrArg Host.Outcome.next (if_neg hflies)
  -- LLDP_TICK
  · intro mport s hport
    exact onUnit_next (decide_eq_true hport) rfl
  -- LLDP_RX
  · intro mport frame s hport hup
    exact onUnit_next (decide_eq_true hport) (if_pos hup)
  · intro mport frame s hport hdown
    exact onUnit_next (decide_eq_true hport) (if_neg (by simp [hdown]))
  -- NEIGHBOR_DISCOVERY_RX
  · intro mport srcMac src target s hport hup hown
    refine onUnit_next (decide_eq_true hport) ((if_neg ?_).trans (if_neg ?_))
    · simp [hup]
    · simp [hown]
  · intro mport solicit srcMac src target s hport hup hother
    refine onUnit_next (decide_eq_true hport) ((if_neg ?_).trans (if_pos ?_))
    · simp [hup]
    · rwa [← Bool.not_and, Bool.not_eq_true']
  · intro mport solicit srcMac src target s hport hdown
    exact onUnit_next (decide_eq_true hport) (if_pos (by simp [hdown]))
  -- ICMP_ECHO_RX
  · intro mport srcMac src dst ident seqNo data s hport hup hown
    refine onUnit_next (decide_eq_true hport) ((if_neg ?_).trans (if_pos hown))
    simp [hup]
  · intro mport srcMac src dst ident seqNo data s hport hup hother
    refine onUnit_next (decide_eq_true hport) ((if_neg ?_).trans (if_neg ?_))
    · simp [hup]
    · simp [hother]
  · intro mport srcMac src dst ident seqNo data s hport hdown
    exact onUnit_next (decide_eq_true hport) (if_pos (by simp [hdown]))
  -- MGMT_PORT_LINK_CHANGE
  · intro mport up s hport
    exact onUnit_next (decide_eq_true hport) rfl
  · intro mport up s hport
    exact onUnit_fault (decide_eq_false (Nat.not_lt.2 hport))

end Sys2Proof.Machine
end
